-- ==== Sys2Proof/Word.lean ====
section
/-!
DEFINITION. Word.lean: the byte and the 32-bit register word.
-/
namespace Sys2Proof

/-- One byte of a payload, a record or a buffer. -/
abbrev Byte := BitVec 8

/-- One register of the window (R630). -/
abbrev Word := BitVec 32

end Sys2Proof
end

