-- ==== Sys2Proof/Syntax.lean ====
section
/-!
DEFINITION. Syntax.lean: the commands that Korlet takes, one constructor per row of spec/opcode_table.json. Operands carry what
the event brings with it: the instance it concerns, the values on the wire, and the outcome of checks that the manual takes
from outside standards (signatures, bus CRCs, PHY results).
-/
namespace Sys2Proof

/-- Paths to the register file (R32), coded as PATH of R58. -/
inductive Path where
  | geward | smb0 | firmware
  deriving DecidableEq, Repr, Inhabited

/-- A CSI-2 packet header as received (R103, R105, R114): virtual channel with its VCX bits, data type, word count, ECC. -/
structure CsiHeader where
  vc : BitVec 4
  dt : BitVec 6
  wc : BitVec 16
  ecc : BitVec 6
  deriving DecidableEq, Repr, Inhabited

/-- A CSI-2 long packet as received (R103 to R116): header, payload, payload CRC-16, and what the receiver's hardware reports beside
them. -/
structure LongPacket where
  hdr : CsiHeader
  payload : List Byte
  crc : BitVec 16
  /-- The CSE message counter skipped (R114). -/
  cseGap : Bool
  /-- The CSE packet CRC is good. -/
  cseCrcOk : Bool
  /-- The CRC-16 of the repacked bytes agrees (R113). -/
  repackOk : Bool
  /-- First payload byte that the receive buffer could not take (R114). -/
  overrun : Option Nat
  deriving DecidableEq, Repr, Inhabited

/-- A byte of a stage line that bloom scratch delivers changed while a tile runs (R232, R233): chain position and output line of the
operation that wrote it, its place among the bytes that the tile holds of the line, and the bits that differ. -/
structure StageUpset where
  pos : Fin 16
  line : BitVec 16
  ofs : BitVec 20
  mask : BitVec 8
  deriving DecidableEq, Repr, Inhabited

/-- A transaction from the host (R362). -/
structure HostTxn where
  dom : BitVec 6
  tag : BitVec 10
  cls : BitVec 2
  sub : BitVec 8
  len : BitVec 13
  addr : BitVec 64
  data : List Byte
  deriving DecidableEq, Repr, Inhabited

/-- A CAN or CAN FD message received without bus error (R468, R470); `rtr`: it is a remote frame. -/
structure CanMsg where
  id : BitVec 29
  ext : Bool
  fd : Bool
  data : List Byte
  rtr : Bool := false
  deriving DecidableEq, Repr, Inhabited

/-- Unusual conditions of an SMB[0] message (R513, R514, R516). -/
inductive SmbError where
  | cmdNack | proto | rsAck | overread | short | pec
  deriving DecidableEq, Repr, Inhabited

/-- What ROM reads from one place of the boot flash (R568): the bytes that begin at an offset. -/
structure FlashArea where
  offset : BitVec 32
  bytes : List Byte
  deriving DecidableEq, Repr, Inhabited

/-- The commands of Korlet, one constructor per row of the opcode table. -/
inductive Instr where
  /-- PORST_N (R7): Power-on reset returns every register field to its reset value and clears the records that survive warm reset. -/
  | porstN (bootMode : BitVec 2) (smbAddr : BitVec 2) (gwPre : Bool) (romOk : Bool)
  /-- WRST_N (R49): Warm reset discards generations, products, rings and contexts, keeps the records that survive it, and starts the timed release of the blooms. -/
  | wrstN (romOk : Bool)
  /-- WARM_RESET_DONE (R49): 80 µs after release all blooms are cleared, Korlet is ready for configuration and CFG_STATE reads idle. -/
  | warmResetDone
  /-- PWR_GOOD_RISE (R572): PWR_GOOD rising starts boot with ROM in the SEC domain. -/
  | pwrGoodRise (romOk : Bool)
  /-- POWER_LOSS (R645): PWR_GOOD low for 2 µs or more outside standby stops all domains but D00, drops PWR_EN and enters standby without a Lupin save. -/
  | powerLoss
  /-- PWR_GOOD_TIMEOUT (R644): PWR_GOOD not risen within 100 ms of PWR_EN drives PWR_EN low and Korlet stays in standby. -/
  | pwrGoodTimeout
  /-- WAKE_IN (R566): A rising edge on WAKE_IN wakes Korlet from standby and drives PWR_EN high. -/
  | wakeIn
  /-- STANDBY_ENTRY (R566): After any pending Lupin save, firmware stops the ports, disables Geward and drives PWR_EN low. -/
  | standbyEntry
  /-- IMAGE_LOAD_DONE (R572): The directory and copy A of firmware, profile and asset store are read into staging memory. -/
  | imageLoadDone (flash : List FlashArea)
  /-- IMAGE_VERIFY_DONE (R570): An envelope check ends with a result, leading to the next copy, the next stage or HALT. -/
  | imageVerifyDone (typ : BitVec 8) (sigOk : Bool) (idOk : Bool)
  /-- PROFILE_APPLY (R578): Firmware applies policy, case limit, asset store, registers, bridge tables, ports, scripts, products and rasters in order. -/
  | profileApply
  /-- SCRIPT_ENTRY (R577): The next script write or wait of a port runs over its tunnel, with one retry of a failed write. -/
  | scriptEntry (port : Fin 32) (ok : Bool)
  /-- SCRIPT_TIMEOUT (R574): A port's script still running 170 ms after its link came up is stopped and SCRIPT_CUT sets. -/
  | scriptTimeout (port : Fin 32)
  /-- HANDOVER (R581): A write of SEC_CTRL.HANDOVER hands the commit groups to the host, records HANDOVER and sets alert cause 4. -/
  | handover
  /-- ATTEST (R588): SEC_OP ATTEST starts building a report over the nonce signed by the identity key. -/
  | attest
  /-- UNLOCK (R590): SEC_OP UNLOCK checks a token and ORs its scope into SEC_UNLOCK. -/
  | unlock
  /-- KEY_OP (R583): SEC_OP KEY_OP adds or revokes an OEM key slot under a signed envelope. -/
  | keyOp
  /-- CERT (R588): SEC_OP CERT copies the factory certificate envelope and payload to SEC_BUF. -/
  | cert
  /-- ARB_COMMIT (R584): SEC_OP ARB_COMMIT raises the OTP anti-rollback counters to the highest CTR_VAL in use. -/
  | arbCommit
  /-- SEC_OP_DONE (R595): A security operation ends, RESULT is set and DONE sets. -/
  | secOpDone (sigOk : Bool) (otpOk : Bool)
  /-- COMMIT_REQUEST (R35): A write of CFG_COMMIT.COMMIT bit g freezes the open generation as staged and starts its consistency check. -/
  | commitRequest (group : Fin 8)
  /-- DISCARD (R38): A write of CFG_COMMIT.DISCARD bit g empties the open generation of the group. -/
  | discard (group : Fin 8)
  /-- CONSISTENCY_CHECK_END (R35): The check of a staged generation ends, and the generation is either scheduled for its boundary or discarded. -/
  | consistencyCheckEnd (group : Fin 8)
  /-- REGISTER_WRITE (R8): A write to a register with no row of its own sets its fields by access type and class. -/
  | registerWrite (path : Path) (offset : BitVec 26) (value : BitVec 32)
  /-- RASTER_LINE_BOUNDARY (R84): A raster's accumulator reaches Peff and the events placed on that line act in fixed order. -/
  | rasterLineBoundary (raster : Fin 8)
  /-- RASTER_START (R61): RUN going to 1 starts the raster at once, or makes it wait for an alignment instant. -/
  | rasterStart (raster : Fin 8)
  /-- RASTER_ALIGNED_START (R61): A waiting raster starts at the alignment instant with a frame count from TOD. -/
  | rasterAlignedStart (raster : Fin 8)
  /-- TRIGGER (R71): The raster position reaches a stream's trigger position and the trigger is issued on its path. -/
  | trigger (stream : Fin 64)
  /-- TSYNC_EDGE (R64): A TSYNC_IN rising edge gives a measurement to the discipline loop. -/
  | tsyncEdge
  /-- HOLDOVER_TIMEOUT (R66): No measurement within TIMEOUT_MS sets HOLDOVER, clears LOCKED and freezes trim. -/
  | holdoverTimeout
  /-- TOD_SET (R96): A write of RAS_TOD_SET_HI loads TOD in one cycle and sets STEPPED. -/
  | todSet (hi : BitVec 32)
  /-- RAS_POS_READ (R90): A read of RAS_POS latches RAS_FRAME. -/
  | rasPosRead (raster : Fin 8)
  /-- RAS_TOD_LO_READ (R95): A read of RAS_TOD_LO latches RAS_TOD_HI. -/
  | rasTodLoRead
  /-- LO_REGISTER_READ (R627): A read of an energy or performance LO register latches its HI register. -/
  | loRegisterRead (offset : BitVec 26)
  /-- SYNC_WORD_RX (R51): A follower takes a sync word whole, places its boundary and frame count, and relays it when ROLE says so. -/
  | syncWordRx (word : BitVec 48)
  /-- SYNC_LOSS (R52): After three frames without a good word the follower clears LOCKED and runs free. -/
  | syncLoss
  /-- UNLOCK_LIMIT (R82): A stream feeding class 0 or 1 stays unlocked for UNLOCK_LIM trigger frames and raises the trigger-lock fault. -/
  | unlockLimit (stream : Fin 64)
  /-- PORT_RUN (R125): An ingress port's RUN starts or stops A-PHY link start-up or D-PHY reception. -/
  | portRun (port : Fin 30) (run : Bool)
  /-- APHY_LINK_UP (R125): An ingress port's link comes up and LINK_UP sets. -/
  | aphyLinkUp (port : Fin 30)
  /-- APHY_LINK_DOWN (R125): An ingress port's link is lost, closing open frames, stopping triggers and failing tunnelled transfers. -/
  | aphyLinkDown (port : Fin 30) (part : Option LongPacket)
  /-- FRAME_START_PACKET (R109): An FS packet opens a frame on matching map entries and binds it to a trigger. -/
  | frameStartPacket (port : Fin 30) (hdr : CsiHeader)
  /-- FRAME_END_PACKET (R105): An FE packet closes the open frames of its virtual channel. -/
  | frameEndPacket (port : Fin 30) (hdr : CsiHeader)
  /-- LINE_START_PACKET (R108): An LS packet numbers the next line when LS_NUM is 1, substituting lines it skips. -/
  | lineStartPacket (port : Fin 30) (hdr : CsiHeader)
  /-- LINE_END_PACKET (R105): An LE packet is ignored. -/
  | lineEndPacket (port : Fin 30) (hdr : CsiHeader)
  /-- LONG_PACKET (R108): A long packet is mapped, claimed in the pool, unpacked, checked, stamped, sealed and published. -/
  | longPacket (port : Fin 30) (pkt : LongPacket)
  /-- SUBSTITUTE_PUBLISHED (R120): A substitute made by ingress is published after its copy completes. -/
  | substitutePublished (stream : Fin 64) (line : BitVec 16)
  /-- FRAME_TIMEOUT (R117): Raster position T(H−1)+64 lines arrives, the open frame closes and the trigger frame counts as missed. -/
  | frameTimeout (stream : Fin 64)
  /-- OCCUPANCY_BROADCAST (R165): Every 16 CORE cycles the pool broadcasts its occupancy word to every writer. -/
  | occupancyBroadcast
  /-- LINE_RELEASE (R157): A consumer releases a line and its granules and directory entry are freed when nothing else holds them. -/
  | lineRelease (line : BitVec 32) (consumer : BitVec 8)
  /-- TILE_EMIT (R189): The tile former emits a tile whose footprint is present and whose output room is claimed. -/
  | tileEmit
  /-- TILE_STAGE (R195): A tile reaching the first places of its queue has its footprint copied to scratch and its fragments reported. -/
  | tileStage (bloom : Fin 8) (slot : Fin 32) (corrected : BitVec 8)
  /-- PETAL_PICK (R198): A free petal takes the best tile of its bloom, or steals across blooms when its bloom has none. -/
  | petalPick (petal : Fin 256)
  /-- CROSS_BLOOM_STEAL (R201): A waiting thief starts a cross-bloom steal when the staging budget holds the tile's footprint bytes. -/
  | crossBloomSteal (petal : Fin 256)
  /-- TILE_COMPLETE (R209): A petal finishes a tile, seals and publishes its output lines and counts the completion for the frame-end barrier. -/
  | tileComplete (petal : Fin 256) (upsets : List StageUpset) (corrected : BitVec 8)
  /-- LEDGER_VERDICT (R140): When every owning tile has reported, the ledger sweeps the rest of the line and forms a verdict. -/
  | ledgerVerdict (line : BitVec 32) (corrected : BitVec 8)
  /-- BLOOM_HALT (R217): A write of BLM_CTRL.HALT halts the bloom for debug or is refused with HALT_REF. -/
  | bloomHalt (bloom : Fin 8) (halt : Bool)
  /-- HASH_PROBE (R213): A write of BLM_HASH_PROBE returns the bloom and slot of the key. -/
  | hashProbe (value : BitVec 32)
  /-- PRD_DEFINE (R265): The command reads a product definition block and table area, checks them and makes the product pending. -/
  | prdDefine (dom : Fin 64) (ring : Fin 4096) (idx : BitVec 32)
  /-- PRD_UPDATE (R272): The command replaces the chain tables of an active product within the allowed scope. -/
  | prdUpdate (dom : Fin 64) (ring : Fin 4096) (idx : BitVec 32)
  /-- PRD_RETIRE (R273): The command ends a product after its last frame and returns its grants. -/
  | prdRetire (dom : Fin 64) (ring : Fin 4096) (idx : BitVec 32)
  /-- PRODUCT_CHECKS_DONE (R267): The product engine ends its checks after the PDB and table area have arrived and completes or stages the command. -/
  | productChecksDone
  /-- TRAINING_END (R301): HBM training ends, READY sets, or a second failure sets TRAIN_FAIL. -/
  | trainingEnd (ok : Bool)
  /-- HBM_TEMP_READ (R303): Every 1 ms the controller reads the stack temperature, adjusts refresh and checks the case limit. -/
  | hbmTempRead (celsius : BitVec 8)
  /-- SCRUB_ROW (R300): The scrubber reads a row and writes corrected data back. -/
  | scrubRow (corrected : BitVec 8) (bad : List (Fin 128))
  /-- FST_REQUEST_DONE (R299): A frame store row request completes, with ECC correction or an uncorrectable error. -/
  | fstRequestDone (pc : Fin 16) (corrected : BitVec 8) (bad : List (Fin 128))
  /-- CA_PARITY_ERROR (R300): The stack reports a command parity error and the request is retried once. -/
  | caParityError (pc : Fin 16) (scrub : Bool)
  /-- FST_PROBE (R309): A write of FST_PROBE_IN.CHUNK returns the chunk's mapping. -/
  | fstProbe (value : BitVec 32)
  /-- SELF_REFRESH_ENTRY (R304): In the safe state, once requests in flight end, the stack enters self-refresh. -/
  | selfRefreshEntry
  /-- GW_PLL_LOCK (R336): The Geward PLL locks with EN 1 and blind bring-up starts on every lane. -/
  | gwPllLock
  /-- BLOCK_RX (R328): A receive lane takes a block and advances its block-lock state machine. `skipped`: the symbol before the header,
  which only a lane that has moved its position by one symbol takes (R316). -/
  | blockRx (lane : Fin 8) (skipped : BitVec 2) (header : BitVec 2) (payload : BitVec 256)
  /-- ALIGNMENT_MARKER_RX (R329): A valid AM is taken for deskew, readiness reports, width choice and link up. -/
  | alignmentMarkerRx (lane : Fin 8) (am : BitVec 64) (apart : Bool)
  /-- AM_TX (R327): Every 16,385th block slot every transmit lane sends an AM. -/
  | amTx
  /-- EQ_CONVERGED (R322): A lane's blind adaptation converges and EQ_READY sets. -/
  | eqConverged (lane : Fin 8)
  /-- LOCK_ATTEMPT_TIMEOUT (R334): A lane that has not reached block lock within ATTEMPT_US starts a new attempt, possibly in fall-back mode. -/
  | lockAttemptTimeout (lane : Fin 8)
  /-- LDN_RX (R335): A valid LDN arrives and the link goes down. -/
  | ldnRx (lane : Fin 8)
  /-- RETRAIN (R338): A write of RETRAIN takes the link down and brings it up again. -/
  | retrain
  /-- GW_DISABLE (R338): A write of GWP_CTRL.EN 0 sends LDN and idles the transmitters; EN 1 restarts bring-up. -/
  | gwDisable (en : Bool)
  /-- LINK_TIMEOUT (R336): LINK_UP not set within LINK_TMO_MS sets TMO and raises the Geward link fault. -/
  | linkTimeout
  /-- INIT_FRAME_TX (R352): Until the link layer is active, each end sends an INIT frame every 16th slot. -/
  | initFrameTx
  /-- INIT_FRAME_RX (R353): A good INIT with RX_DONE makes the link layer active and sets its epoch, sequence and credits. -/
  | initFrameRx (frame : List Byte)
  /-- DATA_FRAME_RX (R355): A DATA frame is checked and accepted, discarded as duplicate, or treated as a gap. -/
  | dataFrameRx (frame : List Byte)
  /-- CTRL_FRAME_RX (R347): A CTRL frame supplies an acknowledgement, a NAK or a credit record. -/
  | ctrlFrameRx (frame : List Byte)
  /-- REPLAY_TIMEOUT (R357): The oldest unacknowledged frame was sent 2 µs ago and a replay starts. -/
  | replayTimeout
  /-- LINK_FRAME_TX (R347): The sender builds and sends a DATA or CTRL frame choosing transactions by class and credits. -/
  | linkFrameTx
  /-- CREDIT_RECORD_TX (R359): A credit record is sent within 1 µs of a change, at most once per µs. -/
  | creditRecordTx
  /-- MWR_RX (R363): A host MWR is checked and performed, or discarded. -/
  | mwrRx (txn : HostTxn)
  /-- MRD_RX (R363): A host MRD is checked and completed with data or an error status. -/
  | mrdRx (txn : HostTxn)
  /-- CPL_RX (R364): A completion for a Korlet MRD delivers data, a RETRY or an error, or is discarded as late. -/
  | cplRx (txn : HostTxn)
  /-- CPL_TIMEOUT (R366): A Korlet MRD with no final completion within CPL_TMO_US fails as ABORT. -/
  | cplTimeout (tag : BitVec 10)
  /-- HOST_RETRY_REISSUE (R365): 10 µs after a host RETRY Korlet re-issues the read, up to HOST_RETRY times. -/
  | hostRetryReissue (tag : BitVec 10)
  /-- TIME (R368): A TIME message gives the discipline loop a measurement, or is ignored when misplaced. -/
  | time (hostTime : BitVec 64) (placed : Bool)
  /-- WRITE_FAULT (R412): A write-fault notice is matched to a Korlet MWR and its ring enters ERROR, or it is unmatched. -/
  | writeFault (dom : Fin 64) (tag : BitVec 10) (cause : BitVec 8) (addr : BitVec 64)
  /-- DOORBELL (R389): A doorbell MWR or MSG enters or merges into the doorbell queue. -/
  | doorbell (source : Fin 64) (page : Fin 64) (value : BitVec 64)
  /-- DOORBELL_PROCESS (R388): A queued doorbell updates a ring index or arm, is discarded, or puts the ring into ERROR. -/
  | doorbellProcess
  /-- DESCRIPTOR_FETCH (R396): A descriptor read completes and the descriptor starts, or the ring enters ERROR with FETCH. -/
  | descriptorFetch (dom : Fin 64) (ring : Fin 4096)
  /-- NOP (R391): The NOP command completes without action. -/
  | nop (dom : Fin 64) (ring : Fin 4096) (idx : BitVec 32)
  /-- RING_CREATE (R392): The command creates a SUB, BUF or CMP ring in RUNNING state. -/
  | ringCreate (dom : Fin 64) (ring : Fin 4096) (idx : BitVec 32)
  /-- RING_DESTROY (R392): The command disables a stopped or failed ring with nothing bound. -/
  | ringDestroy (dom : Fin 64) (ring : Fin 4096) (idx : BitVec 32)
  /-- RING_STOP (R392): The command stops a SUB ring at once or a BUF ring at its product's next frame boundary. -/
  | ringStop (dom : Fin 64) (ring : Fin 4096) (idx : BitVec 32)
  /-- RING_RESUME (R392): The command restarts a stopped or failed ring at a given index. -/
  | ringResume (dom : Fin 64) (ring : Fin 4096) (idx : BitVec 32)
  /-- RING_QUERY (R392): The command writes a ring's 64-byte context to host memory. -/
  | ringQuery (dom : Fin 64) (ring : Fin 4096) (idx : BitVec 32)
  /-- DOM_SET (R393): The command reads a domain block and enables a domain or replaces its windows. -/
  | domSet (dom : Fin 64) (ring : Fin 4096) (idx : BitVec 32)
  /-- DOM_RESET (R393): The command disables a domain, its rings and its products. -/
  | domReset (dom : Fin 64) (ring : Fin 4096) (idx : BitVec 32)
  /-- FST_COPY (R394): The command copies a frame store slot to host memory, verifying each line's seal. -/
  | fstCopy (dom : Fin 64) (ring : Fin 4096) (idx : BitVec 32)
  /-- HQE_ENABLE (R383): HQE_CTRL.EN going from 0 to 1 creates domain 0's admin rings. -/
  | hqeEnable
  /-- ADMIN_RESUME (R414): A write of ADMIN_RESUME resumes domain 0's rings 0 and 1 at index 0. -/
  | adminResume
  /-- CONTEXT_FILL (R416): A ring context fill from the frame store completes, evicting the least recently used context. -/
  | contextFill (ring : BitVec 18)
  /-- HOST_LINE_RELEASE (R398): A host product line is released into the current buffer with its line record. -/
  | hostLineRelease (product : BitVec 8)
  /-- DISPLAY_PORT_RUN (R428): A display port's RUN brings up its A-PHY link or holds it down. -/
  | displayPortRun (port : Fin 4) (run : Bool)
  /-- DISPLAY_LINK_UP (R428): A display port's link comes up and the port sends from the next frame. -/
  | displayLinkUp (port : Fin 4)
  /-- DISPLAY_LINK_DOWN (R428): A display port's link goes down, LINK_LOST sets and the display link fault is raised. -/
  | displayLinkDown (port : Fin 4)
  /-- LAYER_FETCH (R429): One line before an active row, egress fetches and verifies each layer line. -/
  | layerFetch (port : Fin 4) (corrected : BitVec 8)
  /-- DISPLAY_LINE (R427): A display line begins and is composed, drawn with tell-tales, encoded and sent. -/
  | displayLine (port : Fin 4)
  /-- READBACK (R447): At RB_LINE Marigold reads the display's CRC over the tunnel and writes a readback record. -/
  | readback (port : Fin 4) (slot : Fin 32) (value : Option (BitVec 32))
  /-- HOST_LINE_HEADER (R433): A header MWR to a display host aperture opens a host line and claims its granules. -/
  | hostLineHeader (port : Fin 4) (data : List Byte)
  /-- HOST_LINE_DATA (R433): A data MWR adds bytes to the open host line, which is sealed when complete. -/
  | hostLineData (port : Fin 4) (offset : BitVec 18) (data : List Byte)
  /-- HOST_INPUT_TIMEOUT (R437): No MGD_SET within HOST_TMO frames makes host tell-tales take STALE_STATE. -/
  | hostInputTimeout (port : Fin 4)
  /-- PROOF_LOG_DELIVERY (R449): Buffered proof records are written to the log in batches with the producer index. -/
  | proofLogDelivery
  /-- MGD_SET (R454): The command sets the host input of selected tell-tales. -/
  | mgdSet (dom : Fin 64) (ring : Fin 4096) (idx : BitVec 32)
  /-- MGD_LOAD (R451): The command reads a signed asset store into a bank and checks it. -/
  | mgdLoad (dom : Fin 64) (ring : Fin 4096) (idx : BitVec 32)
  /-- ASSET_LOAD_DONE (R451): The asset store checks end and the bank becomes VALID or the load fails. -/
  | assetLoadDone (signatureOk : Bool)
  /-- MGD_LOG (R454): The command enables or stops proof log delivery. -/
  | mgdLog (dom : Fin 64) (ring : Fin 4096) (idx : BitVec 32)
  /-- BANK_RECHECK (R530): Every hour Marigold re-checks a VALID bank against its REF values. -/
  | bankRecheck (bank : Fin 2) (ok : Bool)
  /-- CAN_MESSAGE_RX (R470): A received CAN message is filtered, E2E-checked and fed to its signal-map entries. -/
  | canMessageRx (channel : Fin 4) (msg : CanMsg)
  /-- FILTER_STALE (R476): A filter with no accepted message for STALE_MS becomes stale and invalidates its targets. -/
  | filterStale (filter : Fin 256)
  /-- CAN_BUS_OFF (R469): A channel enters bus-off, writes CAN_STATE and raises the CAN fault. -/
  | canBusOff (channel : Fin 4)
  /-- CAN_BUS_OFF_RECOVERY (R469): After 128 occurrences of 11 recessive bits an AUTO_REC channel rejoins the bus. -/
  | canBusOffRecovery (channel : Fin 4)
  /-- RESTART (R500): A write of RESTART makes a bus-off channel leave bus-off. -/
  | restart (channel : Fin 4)
  /-- TX_OBJECT_DUE (R484): A transmit object falls due and a snapshot with counter and CRC is queued. -/
  | txObjectDue (object : Fin 64)
  /-- CAN_FRAME_TX (R484): A queued frame is sent on its channel, lowest identifier first. -/
  | canFrameTx (channel : Fin 4)
  /-- VBR_LOAD (R472): The command reads and checks entries and replaces a bridge table range at once. -/
  | vbrLoad (dom : Fin 64) (ring : Fin 4096) (idx : BitVec 32)
  /-- VBR_XFER (R494): The command runs one tunnelled I2C transfer on any port. -/
  | vbrXfer (dom : Fin 64) (ring : Fin 4096) (idx : BitVec 32)
  /-- LVT_TICK (R486): Every LINES lines the latest-value table is written to a host half and GEN is advanced. -/
  | lvtTick
  /-- LVT_POLL (R485): Every POLL_MS a poll source reads its registers over the tunnel. -/
  | lvtPoll (source : Fin 256)
  /-- REMOTE_READ (R490): An MRD to a remote window completes from cache or an open-read entry, or queues a transfer with RETRY. -/
  | remoteRead (txn : HostTxn)
  /-- REMOTE_WRITE (R493): An MWR to a remote window enters the port's write queue. -/
  | remoteWrite (txn : HostTxn)
  /-- TUNNEL_XFER_DONE (R487): A tunnelled I2C transfer ends with data or a failure cause. -/
  | tunnelXferDone (port : Fin 32) (data : Option (List Byte)) (cause : BitVec 2)
  /-- TUNNEL_XFER_TIMEOUT (R487): A transfer not ended within XFER_MS fails with TIMEOUT. -/
  | tunnelXferTimeout (port : Fin 32)
  /-- OPEN_READ_EXPIRY (R491): An uncollected DONE or FAILED entry expires after RETRY_MS and is freed or parked. -/
  | openReadExpiry (entry : Fin 64)
  /-- CACHE_LINE_EXPIRY (R490): A prefetch cache line expires after PF_LIFE. -/
  | cacheLineExpiry (port : Fin 28) (slot : Fin 4)
  /-- PARK_RECORD_FREE (R492): A write of 0 to bytes 0–3 of a park record frees it. -/
  | parkRecordFree (record : Fin 32)
  /-- TABLE_READ (R507): A write of VBR_TBL_ACC.GO copies a bridge table entry into VBR_TBL_DATA. -/
  | tableRead (value : BitVec 32)
  /-- STATUS (R510): SMB[0] STATUS returns power state, pins and boot stage. -/
  | status
  /-- DEVICE_ID (R510): SMB[0] DEVICE_ID returns CHIP_ID from the AON copy. -/
  | deviceId
  /-- POWER_CTRL_WAKE (R510): SMB[0] POWER_CTRL with WAKE makes Korlet leave standby. -/
  | powerCtrlWake
  /-- POWER_CTRL_STANDBY (R513): SMB[0] POWER_CTRL with STANDBY requests standby, refused in the safe state. -/
  | powerCtrlStandby
  /-- TEMP (R510): SMB[0] TEMP returns the twelve temperatures. -/
  | temp
  /-- FAULTS (R510): SMB[0] FAULTS returns the fault status and live words. -/
  | faults
  /-- REG_PTR (R510): SMB[0] REG_PTR sets the register pointer and length. -/
  | regPtr (offset : BitVec 32) (len : BitVec 8)
  /-- REG_READ (R511): SMB[0] REG_READ returns registers from the pointer and advances it. -/
  | regRead
  /-- REG_WRITE (R511): SMB[0] REG_WRITE writes registers in rising order or is discarded whole. -/
  | regWrite (offset : BitVec 32) (data : List Byte)
  /-- LUP_PTR (R510): SMB[0] LUP_PTR sets the Lupin record pointer. -/
  | lupPtr (index : BitVec 16)
  /-- LUP_READ (R510): SMB[0] LUP_READ returns seven Lupin records from the pointer. Operand: memory words corrected. -/
  | lupRead (corrected : BitVec 8)
  /-- ALERT_STATUS (R517): SMB[0] ALERT_STATUS returns and clears the pending alert causes. -/
  | alertStatus
  /-- ALERT_CLEAR (R510): SMB[0] ALERT_CLEAR clears selected pending causes. -/
  | alertClear (mask : BitVec 8)
  /-- QUICK_COMMAND (R508): A quick command to Korlet's address is acknowledged and ignored. -/
  | quickCommand
  /-- ALERT_RESPONSE (R518): A read of the alert response address makes Korlet send and arbitrate its own address. -/
  | alertResponse (wins : Bool)
  /-- SMB0_TIMEOUT (R515): SCL held low for over 30 ms makes Korlet release the bus and discard the message. -/
  | smb0Timeout
  /-- SMB1_TRANSFER (R526): A write of SMB1_XFER.GO, or a firmware request, starts an SMB[1] transfer. -/
  | smb1Transfer (firmware : Bool)
  /-- SMB1_RETRY (R520): After the winner's STOP and the bus-free time, Korlet starts the lost transfer again. -/
  | smb1Retry
  /-- SMB1_TRANSFER_DONE (R528): An SMB[1] transfer ends with its RESULT and DONE sets. -/
  | smb1TransferDone (result : BitVec 3) (data : List Byte)
  /-- SMB1_TIMEOUT (R521): A target holding SCL or SDA low for 30 ms ends the transfer or triggers a bus clear. -/
  | smb1Timeout (sdaHeld : Bool) (cleared : Bool)
  /-- FAULT_RAISE (R533): An error line raises a fault source and the collector performs the reactions of its severity. -/
  | faultRaise (source : Fin 64) (detail : BitVec 32)
  /-- STATUS_CLEAR (R534): A write of 1 to a sticky bit clears it only while the live bit is 0. -/
  | statusClear (hi : Bool) (mask : BitVec 32)
  /-- FIRST_FAULT_CLEAR (R535): Clearing FCL_FF0.VALID also clears FCL_COINC. -/
  | firstFaultClear
  /-- COLLECTOR_SELF_TEST (R536): Every 1 ms the collector drives one error line to an invalid state through its test path. -/
  | collectorSelfTest (ok : Bool)
  /-- FORCE_SAFE (R553): A write of FCL_CTRL.FORCE_SAFE raises SAFE_REQ. -/
  | forceSafe (path : Path)
  /-- POLICY_LOCK (R531): A write of FCL_CTRL.LOCK 1 locks severities and reactions until reset. -/
  | policyLock
  /-- LUPIN_RECORD_WRITE (R543): Lupin writes the next queued record into its slot. -/
  | lupinRecordWrite
  /-- FREEZE (R546): A write of LUP_CTRL.FREEZE freezes Lupin. -/
  | freeze
  /-- CLEAR (R546): A write of LUP_CTRL.CLEAR empties and unfreezes the buffer, or is refused. -/
  | clear
  /-- RELEASE (R546): A write of LUP_CTRL.RELEASE clears UNSAVED without a save. -/
  | release
  /-- LUP_MARK (R561): A write of LUP_MARK submits a USER record. -/
  | lupMark (path : Path) (value : BitVec 32)
  /-- LUPIN_SAVE (R547): Firmware copies the frozen buffer to the next flash dump slot. -/
  | lupinSave
  /-- LUPIN_SAVE_DONE (R547): The flash copy ends, the buffer is cleared and refilled from the holding queue, or SAVE_FAIL sets.
  Operands: success, memory words corrected. -/
  | lupinSaveDone (ok : Bool) (corrected : BitVec 16)
  /-- INJECTOR_ARM (R564): A write of FIJ_CTRL.ARM arms or disarms an injector. -/
  | injectorArm (injector : Fin 8) (arm : Bool)
  /-- INJECTOR_FIRE (R551): An armed injector fires, affecting COUNT units of its target. -/
  | injectorFire (injector : Fin 8)
  /-- REORDER_RELEASE (R550): A held unit is released after 1 ms when no next unit comes. -/
  | reorderRelease (injector : Fin 8)
  /-- GRANT_TIMER (R62): While the master raster is stopped the governor grants every 16,384 CORE cycles. -/
  | grantTimer
  /-- LADDER_STEP (R605): UP_LINES short lines or DOWN_LINES slack lines move the degrade level one step. -/
  | ladderStep
  /-- ENERGY_DEBT_LIMIT (R606): A bloom ends 16 successive lines in debt at the top level and raises ENERGY. -/
  | energyDebtLimit (bloom : Fin 8)
  /-- CLOCK_CHANGE_DONE (R607): A bloom clock change completes and tiles may start again. -/
  | clockChangeDone (bloom : Fin 8)
  /-- TEMP_SAMPLE (R608): Every 1 ms the sensors are read, other is recomputed and thermal alerts are checked. -/
  | tempSample (temps : List (BitVec 16))
  /-- AGING_MEASURE (R610): Every 1 s firmware measures the aging monitors and computes the voltage target. -/
  | agingMeasure (pairs : List (BitVec 16))
  /-- AVS_STEP (R610): Every 100 ms firmware raises VDD_CORE by one 5 mV step toward its target. -/
  | avsStep
  /-- EGV_BUDGET (R616): The command sets or clears the power budget at the next grant. -/
  | egvBudget (dom : Fin 64) (ring : Fin 4096) (idx : BitVec 32)
  /-- PMU_FREEZE (R612): A write of FREEZE 1 stops all counters at one cycle. -/
  | pmuFreeze
  /-- PMU_UNFREEZE (R612): A write of FREEZE 0 restarts all counters in one cycle. -/
  | pmuUnfreeze
  /-- SNAP_NOW (R614): A write of SNAP_NOW copies the counters to the snapshot registers. -/
  | snapNow
  /-- COUNTER_OVERFLOW (R611): A counter wraps, OVF sets and an event or freeze follows as configured. -/
  | counterOverflow (counter : Fin 8)
  /-- CLOCK_MONITOR_FAIL (R25): A monitored clock domain stops or leaves ±10 % of its frequency, so the crossings into and out of it stop, the partial line in each crossing FIFO is marked damaged and the domain's fault source is raised. -/
  | clockMonitorFail (domain : Fin 40) (parts : List (Fin 30 × LongPacket))
  /-- COLLECTOR_SELF_CHECK_FAIL (R536): A continuous collector self-check fails, such as differing configuration copies, bad record parity or an equal dual-rail pair, so the failure goes straight to the safe-state controller, which sets sticky bit 0 and writes FCL_SAFE. -/
  | collectorSelfCheckFail (code : BitVec 3)
  /-- LANE_CLOCK_LOCK_LOSS (R328): A Geward receive lane's phase-tracking loop loses clock lock, which ends LOCK and starts a new lock attempt, and takes the link down when the lane carries a logical lane. -/
  | laneClockLockLoss (lane : Fin 8)
  /-- CAN_BUS_ERROR (R469): A CAN channel detects a bus error, which adjusts its error counters and error state under the standard and counts in VBR_CAN_CNT.ERR. -/
  | canBusError (channel : Fin 4) (tx : Bool)
  /-- SMB0_PROTOCOL_ERROR (R516): An SMB[0] message breaks the protocol, for example with a START or STOP in mid-byte or a command code that is not acknowledged, so it is discarded and PROTO or CMD_NACK is recorded. -/
  | smb0ProtocolError (kind : SmbError)
  deriving DecidableEq, Repr

end Sys2Proof
end

