-- ==== Sys2Proof/Decode.lean ====
section
/-!
DEFINITION. Decode.lean: the commands that a word of the opcode table spells. The table of this hardware gives no row any bits:
its rows are events, with operands in the manual's own terms, so no word spells a command.
-/
namespace Sys2Proof

/-- The command that the `nbits` low bits of `w` spell: none, for the table gives no row bits. -/
def decodeTableWord (_nbits _w : Nat) : Option Instr := none

end Sys2Proof
end

