-- ==== Sys2Proof/Config.lean ====
section
/-!
DEFINITION. Config.lean: what the manual leaves to the device, to chance or to an outside standard. Every constant here has no
body: no proof can see its value.
-/
namespace Sys2Proof

/-- The device's random source (R196, R290, R353, R593) and every value that the manual leaves open after a command: the `n`-th
value drawn. FREE VALUE. -/
opaque Config.freeWord : Nat → BitVec 64

/-- Korlet's ML-DSA-87 signature over a message under its identity key (FIPS 204, R589). -/
opaque Config.sign : List Byte → List Byte

/-- Identity public key of the device, from the corrected SRAM pattern and the OTP seed (R585). -/
opaque Config.identityKey : List Byte

/-- Hash of the Dazilis root key in ROM (R582). -/
opaque Config.rootHash : List Byte

/-- Hash of the key that Dazilis programs into OEM slot 1 at manufacture (R582). -/
opaque Config.slotOne : List Byte

/-- Ordering code in OTP: true for BK480-T (R1, R582). -/
opaque Config.orderT : Bool

/-- Lot, wafer and die position in OTP: 11 bytes (R582, R587). -/
opaque Config.diePosition : List Byte

/-- A clock is present on REFCLK_GW within its limits, by CORE cycle (R320). -/
opaque Config.refclkGw : Nat → Bool

/-- Fused start voltage of VDD_CORE, 0.70 to 0.78 V: its excess over 700 mV, to 80 mV (R610). -/
opaque Config.vinitExcess : BitVec 8

/-- Fused SENS in mV per percent of slowdown (R610). -/
opaque Config.ageSens : BitVec 8

/-- Fused voltage in mV of a bloom at a clock in 25 MHz steps (R607, R643). -/
opaque Config.bloomMv : Nat → Nat → BitVec 10

/-- Rounding of one Catmull-Rom weight (R244 gives the weights in Q2.10 and not their rounding): whether the weight of a phase
and tap is rounded up. FREE VALUE. -/
opaque Config.warpRoundUp : Nat → Nat → Bool

/-- Rounding of one coefficient of a colour preset (R249 gives the standards and not the rounding): whether the coefficient
`(preset, index)` is rounded up. FREE VALUE. -/
opaque Config.cscRoundUp : Nat → Nat → Bool

end Sys2Proof
end

