-- ==== Sys2Proof/Machine/Bits.lean ====
section
/-!
DEFINITION. Machine/Bits.lean: bit fields, little-endian bytes (R6), saturating counts, and the one sparse table that holds
every indexed piece of state.
-/
namespace Sys2Proof.Machine

/-- Bits `hi:lo` of a number. -/
def bits (w hi lo : Nat) : Nat := (w >>> lo) % 2 ^ (hi + 1 - lo)

/-- `w` with bits `hi:lo` replaced by `v` (taken modulo the field's width). -/
def putBits (w hi lo v : Nat) : Nat :=
  w - (bits w hi lo) <<< lo + (v % 2 ^ (hi + 1 - lo)) <<< lo

/-- One bit as a Bool. -/
def bit (w i : Nat) : Bool := bits w i i == 1

/-- A Bool as a bit. -/
def b2n (b : Bool) : Nat := if b then 1 else 0

/-- Little-endian value of a byte list (R6). -/
def leNat : List Byte → Nat
  | [] => 0
  | b :: bs => b.toNat + 256 * leNat bs

/-- The `n` little-endian bytes of a number (R6). -/
def leBytes : Nat → Nat → List Byte
  | 0, _ => []
  | n + 1, v => BitVec.ofNat 8 v :: leBytes n (v / 256)

/-- The `n` bytes of a number, most significant first. -/
def beBytes (n v : Nat) : List Byte := (leBytes n v).reverse

/-- Big-endian value of a byte list. -/
def beNat (bs : List Byte) : Nat := leNat bs.reverse

/-- Bytes `a` to `a + n - 1` of a list; bytes past the end read 0. -/
def bytesAt (bs : List Byte) (a n : Nat) : List Byte :=
  (bs.drop a ++ List.replicate n 0).take n

/-- The little-endian number of `n` bytes at offset `a`. -/
def leAt (bs : List Byte) (a n : Nat) : Nat := leNat (bytesAt bs a n)

/-- A list brought to length `n`, zeros at the end. -/
def padTo (n : Nat) (bs : List Byte) : List Byte := (bs ++ List.replicate n 0).take n

/-- Replace the bytes from offset `a` on by `v` (the list keeps its length when it is long enough). -/
def putBytes (bs : List Byte) (a : Nat) (v : List Byte) : List Byte :=
  bs.take a ++ v ++ bs.drop (a + v.length)

/-- Two's complement value of an `n`-bit number. -/
def signed (n v : Nat) : Int :=
  if v % 2 ^ n < 2 ^ (n - 1) then (v % 2 ^ n : Nat) else (v % 2 ^ n : Nat) - (2 ^ n : Nat)

/-- The `n`-bit two's complement code of an integer. -/
def unsigned (n : Nat) (v : Int) : Nat := (v % (2 ^ n : Nat)).toNat

/-- Sum that saturates at `max`. -/
def satAdd (max a b : Nat) : Nat := min max (a + b)

/-- An integer limited to a range. -/
def clampI (lo hi v : Int) : Int := if v < lo then lo else if hi < v then hi else v

/-- Distance `a - b` modulo `m`. -/
def subMod (m a b : Nat) : Nat := (a + (m - b % m)) % m

/-- The smallest `k` with `n ≤ 2 ^ k`, searched up to `fuel`. -/
def clog2 (n : Nat) : Nat := if n ≤ 1 then 0 else Nat.log2 (n - 1) + 1

/-- Integer division rounded up. -/
def ceilDiv (a b : Nat) : Nat := if b = 0 then 0 else (a + b - 1) / b

/-- Division of integers rounded half away from zero. -/
def roundDiv (a : Int) (b : Nat) : Int :=
  if b = 0 then 0
  else if 0 ≤ a then (2 * a + b) / (2 * b) else -((2 * (-a) + b) / (2 * b))

/-- Parity of the one bits of the low `n` bits. -/
def parity : Nat → Nat → Bool
  | 0, _ => false
  | n + 1, v => xor (v % 2 == 1) (parity n (v / 2))

/-- Bit reversal of an `n`-bit number. -/
def revBits : Nat → Nat → Nat
  | 0, _ => 0
  | n + 1, v => (v % 2) * 2 ^ n + revBits n (v / 2)

/-- Number of one bits in the low `n` bits. -/
def popcount : Nat → Nat → Nat
  | 0, _ => 0
  | n + 1, v => v % 2 + popcount n (v / 2)

/-- Indices below `n` whose bit is set, lowest first. -/
def oneBits (n v : Nat) : List Nat := (List.range n).filter (fun i => bit v i)

/-! The sparse table: cells with strictly rising keys, none equal to the value an unlisted key reads as. -/

/-- Read key `k` from a cell list; `d` is what an unlisted key reads as. -/
def cellsGet {α : Type} (d : α) (k : Nat) : List (Nat × α) → α
  | [] => d
  | (k', v) :: r => if k' = k then v else cellsGet d k r

/-- Put a cell before the first cell of a higher key. -/
def cellsPut {α : Type} (k : Nat) (v : α) : List (Nat × α) → List (Nat × α)
  | [] => [(k, v)]
  | (k', v') :: r => if k < k' then (k, v) :: (k', v') :: r else (k', v') :: cellsPut k v r

/-- Remove key `k`. -/
def cellsDrop {α : Type} (k : Nat) : List (Nat × α) → List (Nat × α)
  | [] => []
  | (k', v') :: r => if k' = k then cellsDrop k r else (k', v') :: cellsDrop k r

/-- Write key `k`, keeping the canonical form: a value equal to `d` removes the cell. -/
def cellsSet {α : Type} [DecidableEq α] (d : α) (k : Nat) (v : α) (l : List (Nat × α)) : List (Nat × α) :=
  if v = d then cellsDrop k l else cellsPut k v (cellsDrop k l)

/-- Canonical form: keys strictly rising from at least `lo`, no cell equal to its default `d k`. -/
def cellsWf {α : Type} [DecidableEq α] (d : Nat → α) : Nat → List (Nat × α) → Bool
  | _, [] => true
  | lo, (k, v) :: r => decide (lo ≤ k) && decide (v ≠ d k) && cellsWf d (k + 1) r

/-- A table indexed by number whose unlisted entries read as the type's default value. -/
structure Tbl (α : Type) where
  cells : List (Nat × α) := []
  deriving DecidableEq, Repr, Inhabited

/-- Entry `k` of a table. -/
def Tbl.get {α : Type} [Inhabited α] (t : Tbl α) (k : Nat) : α := cellsGet default k t.cells

/-- A table with entry `k` replaced. -/
def Tbl.set {α : Type} [DecidableEq α] [Inhabited α] (t : Tbl α) (k : Nat) (v : α) : Tbl α :=
  ⟨cellsSet default k v t.cells⟩

/-- A table with entry `k` changed by a function. -/
def Tbl.upd {α : Type} [DecidableEq α] [Inhabited α] (t : Tbl α) (k : Nat) (f : α → α) : Tbl α :=
  t.set k (f (t.get k))

/-- The canonical form of a table. -/
def Tbl.wf {α : Type} [DecidableEq α] [Inhabited α] (t : Tbl α) : Bool := cellsWf (fun _ => default) 0 t.cells

/-- Keys of the listed entries. -/
def Tbl.keys {α : Type} (t : Tbl α) : List Nat := t.cells.map (·.1)

end Sys2Proof.Machine
end

