-- ==== Sys2Proof/Machine/Crc.lean ====
section
/-!
DEFINITION. Machine/Crc.lean: the check values that the manual defines: CRC-32C of the line seal (R134 to R137), the CRC-8 codes
of R50, R514 and R544, and the programmable engine of the bridge (R150, R154).
-/
namespace Sys2Proof.Machine

/-- One bit step of a reflected CRC register with reflected polynomial `p`. -/
def crcStepR (p r : Nat) : Nat := if r % 2 = 1 then (r / 2) ^^^ p else r / 2

/-- `n` bit steps. -/
def crcStepsR (p : Nat) : Nat → Nat → Nat
  | 0, r => r
  | n + 1, r => crcStepsR p n (crcStepR p r)

/-- CRC-32C register after one byte, reflected form 0x82F6_3B78 (R134). -/
def crc32cByte (r : Nat) (b : Byte) : Nat := crcStepsR 0x82F63B78 8 (r ^^^ b.toNat)

/-- CRC-32C register after a byte list. -/
def crc32cRun (r : Nat) (bs : List Byte) : Nat := bs.foldl crc32cByte r

/-- CRC-32C of a byte list with the parameters of R134 and no prefix. -/
def crc32c (bs : List Byte) : Nat := crc32cRun 0xFFFFFFFF bs ^^^ 0xFFFFFFFF

/-- Register after `k` zero bytes (`advance` of R140). -/
def crcAdvance : Nat → Nat → Nat
  | 0, r => r
  | k + 1, r => crcAdvance k (crc32cByte r 0)

/-- The 8 prefix bytes of a line (R135). -/
def sealHead (stream product frame line : Nat) : List Byte :=
  leBytes 8 ((frame % 2 ^ 32) <<< 32 + (line % 2 ^ 16) <<< 16 + (product % 256) <<< 8 + stream % 64)

/-- Line seal (R134, R135). -/
def lineSeal (stream product frame line : Nat) (payload : List Byte) : Nat :=
  crc32c (sealHead stream product frame line ++ payload)

/-- Stage seal (R232): prefix, bytes in scratch layout, chain position. -/
def stageSeal (stream product frame line pos : Nat) (payload : List Byte) : Nat :=
  crc32c (sealHead stream product frame line ++ payload ++ [BitVec.ofNat 8 pos])

/-- A reported fragment (R140): zero-initialised register over bytes `[a, b)` of a line. -/
structure Fragment where
  f : Nat := 0
  a : Nat := 0
  b : Nat := 0
  deriving DecidableEq, Repr, Inhabited

/-- The fragment over bytes `[a, b)` of a line. -/
def fragOf (payload : List Byte) (a b : Nat) : Fragment :=
  ⟨crc32cRun 0 ((payload.take b).drop a), a, b⟩

/-- Seal formed by the ledger from fragments that cover a line of `n` bytes (R140). -/
def ledgerSeal (head : List Byte) (n : Nat) (frags : List Fragment) : Nat :=
  let acc := crcAdvance n (crc32cRun 0xFFFFFFFF head)
  (frags.foldl (fun r g => r ^^^ crcAdvance (n - g.b) g.f) acc) ^^^ 0xFFFFFFFF

/-- One bit step of an unreflected CRC register of width `w`. -/
def crcStepM (w p r : Nat) : Nat :=
  if bit r (w - 1) then ((r * 2) % 2 ^ w) ^^^ p else (r * 2) % 2 ^ w

/-- `n` unreflected bit steps. -/
def crcStepsM (w p : Nat) : Nat → Nat → Nat
  | 0, r => r
  | n + 1, r => crcStepsM w p n (crcStepM w p r)

/-- Unreflected CRC of width `w ≥ 8` over bytes. -/
def crcM (w p : Nat) (r : Nat) (bs : List Byte) : Nat :=
  bs.foldl (fun r b => crcStepsM w p 8 (r ^^^ b.toNat <<< (w - 8))) r

/-- CRC-8, polynomial 0x1D, initial 0xFF, most significant bit first, no final XOR (R50, R544). -/
def crc8 (bs : List Byte) : Nat := crcM 8 0x1D 0xFF bs

/-- SMBus PEC: polynomial 0x07, initial 0 (R514). -/
def smbPec (bs : List Byte) : Nat := crcM 8 0x07 0 bs

/-- Parameters of the bridge's E2E engine (R154). -/
structure E2eProfile where
  width : Nat := 8
  poly : Nat := 0x1D
  init : Nat := 0xFF
  xorOut : Nat := 0xFF
  refIn : Bool := false
  refOut : Bool := false
  idFold : Nat := 2
  deriving DecidableEq, Repr, Inhabited

/-- E2E check value over the folded data id and the protected bytes (R150). -/
def e2eCrc (p : E2eProfile) (dataId : Nat) (bs : List Byte) : Nat :=
  let ids : List Byte := match p.idFold with
    | 1 => leBytes 1 dataId
    | 2 => leBytes 2 dataId
    | _ => []
  let inp := (ids ++ bs).map (fun b => if p.refIn then BitVec.ofNat 8 (revBits 8 b.toNat) else b)
  let r := crcM p.width (p.poly % 2 ^ p.width) (p.init % 2 ^ p.width) inp
  let r := if p.refOut then revBits p.width r else r
  (r ^^^ p.xorOut) % 2 ^ p.width

end Sys2Proof.Machine
end

