-- ==== Sys2Proof/Machine/TileOps.lean ====
section
/-!
DEFINITION. Machine/TileOps.lean: what each tile operation computes ("Tile operations", R221 to R259), as functions on images. An
image here is a way to read samples: it is never part of the state, which holds the stored bytes of lines.
-/
namespace Sys2Proof.Machine

/-- Line formats between operations (R223). -/
inductive Fmt where
  | raw16 | raw24 | rgb16 | rgb24 | rgbi16 | rgbi24 | yuv16 | yuv422 | y16 | packed
  deriving DecidableEq, Repr, Inhabited

/-- Samples per pixel of a format. -/
def Fmt.comps : Fmt → Nat
  | .rgb16 | .rgb24 | .yuv16 => 3
  | .rgbi16 | .rgbi24 => 4
  | .yuv422 => 2
  | _ => 1

/-- Bytes of one sample in scratch and pool (R107, R223). -/
def Fmt.sampleBytes : Fmt → Nat
  | .raw24 | .rgb24 | .rgbi24 => 4
  | .packed => 1
  | _ => 2

/-- Largest sample value (R224). -/
def Fmt.maxSample : Fmt → Nat
  | .raw24 | .rgb24 | .rgbi24 => 0xFFFFFF
  | .packed => 0xFF
  | _ => 0xFFFF

/-- Formats with a colour filter layout. -/
def Fmt.isRaw : Fmt → Bool
  | .raw16 | .raw24 => true
  | _ => false

/-- The input or output of an operation: format, exposure segments, size, colour filter layout with its phase, the crop offsets
before it (R225, R238), the bounds inside which samples exist (R226, R234), and the samples themselves by segment, column,
line and component. -/
structure Img where
  fmt : Fmt
  e : Nat
  w : Nat
  h : Nat
  fam : Nat
  phx : Nat
  phy : Nat
  ox : Nat
  oy : Nat
  /-- Line offset of the crops before it in its own lines: line y is stream line (y + sy) / split (R236, R238). -/
  sy : Nat
  /-- Lines per stream line after an HDRM split (R238). -/
  split : Nat
  xlo : Int
  xhi : Int
  ylo : Int
  yhi : Int
  px : Nat → Int → Int → Nat → Nat

/-- One operation descriptor: its 32 bytes (R221). -/
abbrev OpDesc := List Byte

/-- Bits `hi:lo` of the little-endian word at byte `a` of a descriptor. -/
def dfld (d : OpDesc) (a hi lo : Nat) : Nat := bits (leAt d a 4) hi lo

/-- OP field. -/
def opCode (d : OpDesc) : Nat := dfld d 0 7 0
/-- LEAN_OK field. -/
def opLeanOk (d : OpDesc) : Bool := dfld d 0 8 8 == 1
/-- LEAN_ONLY field. -/
def opLeanOnly (d : OpDesc) : Bool := dfld d 0 9 9 == 1
/-- INPUTS field. -/
def opInputs (d : OpDesc) : Nat := dfld d 0 23 20
/-- CFA fields: family, row phase, column phase. -/
def opCfa (d : OpDesc) : Nat × Nat × Nat := (dfld d 0 15 14, dfld d 0 13 12, dfld d 0 11 10)

/-- Period of a colour filter family (R225). -/
def cfaPeriod (fam : Nat) : Nat := match fam with
  | 0 => 1 | 3 => 4 | _ => 2

/-- Period of the edge rule for an image (R226). -/
def Img.period (i : Img) : Nat := if i.fmt.isRaw then cfaPeriod i.fam else 1

/-- The edge rule of R226 on bounds `[lo, hi]`. -/
def edgeIdx (p : Nat) (lo hi i : Int) : Int :=
  if i < lo then i + p * ((lo - i + p - 1) / p)
  else if hi < i then i - p * ((i - hi + p - 1) / p)
  else i

/-- A sample with the edge rule applied. -/
def Img.at (i : Img) (s : Nat) (x y : Int) (c : Nat) : Nat :=
  i.px s (edgeIdx i.period i.xlo i.xhi x) (edgeIdx i.period i.ylo i.yhi y) c

/-- Channel of a pixel of a raw image (R225). -/
def cfaChan (fam : Nat) (x y : Nat) : Nat :=
  match fam with
  | 1 | 2 => (y % 2) * 2 + x % 2
  | 3 =>
    match y % 4, x % 4 with
    | 0, 0 => 0 | 0, 1 => 1 | 0, 2 => 2 | 0, 3 => 1
    | 2, 0 => 2 | 2, 1 => 1 | 2, 2 => 0 | 2, 3 => 1
    | _, 0 => 1 | _, 1 => 3 | _, 2 => 1 | _, _ => 3
  | _ => 0

/-- Channel of pixel `(x, y)` of an image, phases and crops included. -/
def Img.chan (i : Img) (x y : Int) : Nat :=
  let p := cfaPeriod i.fam
  cfaChan i.fam ((x + i.phx + i.ox) % p).toNat ((y + i.phy + i.oy) % p).toNat

/-- An image with other samples and format, same geometry. -/
def Img.mapPx (i : Img) (f : Fmt) (px : Nat → Int → Int → Nat → Nat) : Img := { i with fmt := f, px := px }

/-- An image of a new size whose edges are its own; the offsets of the crops before it stay (R238). -/
def Img.resize (i : Img) (f : Fmt) (w h : Nat) (px : Nat → Int → Int → Nat → Nat) : Img :=
  { i with fmt := f, w := w, h := h, xlo := 0, xhi := w - 1, ylo := 0, yhi := h - 1, px := px, fam := 0, phx := 0, phy := 0 }

/-- Stream pixel of a pixel of the image: its position plus the crops before it, and the line over E after an HDRM split (R236, R238). -/
def Img.streamPx (i : Img) (x y : Int) : Nat × Nat := ((x + i.ox).toNat, ((y + i.sy) / i.split).toNat)

/-- Saturation to the format's range (R224). -/
def satTo (f : Fmt) (v : Int) : Nat := (clampI 0 f.maxSample v).toNat

/-- Table bytes from a TBL offset on (R222). -/
def tblAt (area : List Byte) (tbl : Nat) : List Byte := area.drop (64 * tbl)

/-- CROP (R234). -/
def opCrop (d : OpDesc) (i : Img) : Img :=
  let x0 := dfld d 4 15 0
  let y0 := dfld d 4 31 16
  let w := dfld d 8 15 0
  let h := dfld d 8 31 16
  let edge := dfld d 12 0 0 == 1
  { i with
    w := w, h := h, ox := i.ox + x0, oy := i.oy + y0, sy := i.sy + y0
    xlo := if edge then 0 else i.xlo - x0
    xhi := if edge then w - 1 else i.xhi - x0
    ylo := if edge then 0 else i.ylo - y0
    yhi := if edge then h - 1 else i.yhi - y0
    px := fun s x y c => i.px s (x + x0) (y + y0) c }

/-- A point of the companding curve: X and Y. -/
def curvePoint (t : List Byte) (n : Nat) : Nat × Nat := (leAt t (8 * n) 2, leAt t (8 * n + 4) 3)

/-- The piecewise linear curve of R235, searched over segments `k` down to 0. -/
def pwl (t : List Byte) (s : Nat) : Nat → Nat
  | 0 => (curvePoint t 0).2
  | k + 1 =>
    let a := curvePoint t k
    let b := curvePoint t (k + 1)
    if a.1 ≤ s then a.2 + ((s - a.1) * (b.2 - a.2) + (b.1 - a.1) / 2) / (b.1 - a.1)
    else pwl t s k

/-- BLC (R235). -/
def opBlc (d : OpDesc) (area : List Byte) (i : Img) : Img :=
  let out := if dfld d 12 6 6 == 1 then Fmt.raw24 else Fmt.raw16
  let pre := dfld d 12 5 5 == 1
  let npts := dfld d 12 4 0
  let t := tblAt area (leAt d 16 4)
  let bl := fun (c : Nat) => leAt d (4 + 2 * c) 2
  i.mapPx out (fun s x y c =>
    let b := bl (if i.fam = 0 then 0 else i.chan x y)
    let v := i.px s x y c
    let v := if pre then v - b else v
    let v := if npts = 0 then v else pwl t v (npts - 1)
    let v := if pre then v else v - b
    satTo out v)

/-- Insert into a rising list. -/
def insertNat (v : Nat) : List Nat → List Nat
  | [] => [v]
  | a :: l => if v ≤ a then v :: a :: l else a :: insertNat v l

/-- Insertion sort. -/
def sortNat (l : List Nat) : List Nat := l.foldr insertNat []

/-- Median of a list: the mean of the two middle values, rounded down, for an even count (R236). -/
def median (l : List Nat) : Nat :=
  let t := sortNat l
  let n := t.length
  if n % 2 = 1 then t.getD (n / 2) 0 else (t.getD (n / 2 - 1) 0 + t.getD (n / 2) 0) / 2

/-- Neighbour offsets of DPC (R236). -/
def dpcOffsets (fam chan : Nat) (lean : Bool) : List (Int × Int) :=
  let row2 : List (Int × Int) := [(-2, 0), (2, 0)]
  let cross2 : List (Int × Int) := [(-2, 0), (2, 0), (0, -2), (0, 2)]
  let diag2 : List (Int × Int) := [(-2, -2), (2, -2), (-2, 2), (2, 2)]
  let diag1 : List (Int × Int) := [(-1, -1), (1, -1), (-1, 1), (1, 1)]
  if fam = 0 then
    if lean then [(-1, 0), (1, 0)] else [(-1, 0), (1, 0), (0, -1), (0, 1)] ++ diag1
  else if lean then row2
  else if fam = 1 then (if chan = 1 ∨ chan = 2 then diag1 ++ cross2 else cross2 ++ diag2)
  else if fam = 2 then cross2 ++ diag2
  else if chan = 1 then diag1 ++ cross2
  else if chan = 3 then cross2 ++ diag2
  else diag2

/-- DPC (R236). -/
def opDpc (d : OpDesc) (area : List Byte) (lean : Bool) (i : Img) : Img :=
  let thrLo := dfld d 4 31 16
  let thrHi := dfld d 4 15 0
  let t := tblAt area (leAt d 12 4)
  let listed := (List.range (dfld d 8 11 0)).map (fun k => (leAt t (4 * k) 2, leAt t (4 * k + 2) 2))
  i.mapPx i.fmt (fun s x y c =>
    let v := i.px s x y c
    let n := (dpcOffsets i.fam (i.chan x y) lean).map (fun o => i.at s (x + o.1) (y + o.2) c)
    let hi := n.foldl max 0
    let lo := n.foldl min 0xFFFFFF
    let dyn := dfld d 8 12 12 == 1 && (decide (hi + thrHi < v) || decide (v + thrLo < lo))
    let stat := dfld d 8 13 13 == 1 && listed.contains (i.streamPx x y)
    if dyn || stat then median n else v)

/-- One exposure merge (R237) over exposures `x` and gains `g`, exposure 0 the longest. -/
def hdrMerge (satThr knee : Nat) (lean : Bool) : List (Nat × Nat) → Nat
  | [] => 0
  | [(x, g)] => (x * g + 128) >>> 8
  | (x, g) :: r =>
    let v := hdrMerge satThr knee lean r
    let w : Nat := if lean then (if x < satThr then 256 else 0)
      else (clampI 0 256 ((((satThr : Int) - x) * 256) / (2 ^ knee : Nat))).toNat
    let a := (x * g + 128) >>> 8
    (w * a + (256 - w) * v + 128) >>> 8

/-- Gains of HDRM, G[0] = 256 (R237). -/
def hdrGains (d : OpDesc) : List Nat := [256, dfld d 8 23 0, dfld d 12 23 0, dfld d 16 23 0]

/-- HDRM (R237): `ins` are the branch inputs in staggered mode, else the one input. -/
def opHdrm (d : OpDesc) (lean : Bool) (ins : List Img) (i : Img) : Img :=
  let mode := dfld d 4 31 30
  let e := dfld d 4 29 28 + 1
  let merge := fun (xs : List Nat) => min (hdrMerge (dfld d 4 15 0) (dfld d 4 19 16) lean (xs.zip (hdrGains d))) 0xFFFFFF
  if mode = 2 then
    { i with fmt := .raw16, e := 1, h := i.h * e, split := e, sy := i.sy * e, ylo := i.ylo * e, yhi := i.yhi * e + e - 1,
             px := fun _ x y c => i.px (y % e).toNat x (y / e) c }
  else if mode = 1 then
    { i with fmt := .raw24, e := 1, px := fun _ x y c => merge (ins.map (fun j => j.px 0 x y c)) }
  else
    { i with fmt := .raw24, e := 1, px := fun _ x y c => merge ((List.range e).map (fun s => i.px s x y c)) }

/-- LSC (R238). A pixel around a window with EDGE = 0 that the grid does not cover takes the gain of the grid's border (DESIGN CHOICE, log
79). -/
def opLsc (d : OpDesc) (area : List Byte) (lean : Bool) (i : Img) : Img :=
  let t := tblAt area (leAt d 4 4)
  let ch := dfld d 8 31 28
  let cw := dfld d 8 27 24
  let gx := dfld d 8 7 0
  let node := fun (c a b : Nat) => leAt t (8 * (b * gx + a) + 2 * c) 2
  i.mapPx i.fmt (fun s x y c =>
    let c' := if i.fmt.isRaw then i.chan x y else c
    let sx := min (i.streamPx x y).1 ((gx - 1) * 2 ^ cw)
    let sy := min (i.streamPx x y).2 ((dfld d 8 15 8 - 1) * 2 ^ ch)
    let fx := sx % 2 ^ cw
    let fy := if lean then (if sy % 2 ^ ch < 2 ^ (ch - 1) then 0 else 2 ^ ch) else sy % 2 ^ ch
    let a := sx / 2 ^ cw
    let b := sy / 2 ^ ch
    let gt := node c' a b * (2 ^ cw - fx) + node c' (a + 1) b * fx
    let gb := node c' a (b + 1) * (2 ^ cw - fx) + node c' (a + 1) (b + 1) * fx
    let g := (gt * (2 ^ ch - fy) + gb * fy + 2 ^ (cw + ch - 1)) >>> (cw + ch)
    satTo i.fmt ((i.px s x y c * g + 2048) >>> 12 : Nat))

/-- Window offsets of DMS: rows ±1, columns ±2 (R239). -/
def dmsWindow : List (Int × Int) :=
  [-1, 0, 1].flatMap (fun (dy : Int) => [-2, -1, 0, 1, 2].map (fun (dx : Int) => (dx, dy)))

/-- Chebyshev distance of an offset. -/
def chebyshev (o : Int × Int) : Nat := max o.1.natAbs o.2.natAbs

/-- Colour class of a channel: 0 R, 1 G or C, 2 B, 3 I (R225). -/
def colourOf (fam chan : Nat) : Nat :=
  if fam = 3 then chan else if fam = 0 then 0 else match chan with
    | 0 => 0 | 3 => 2 | _ => 1

/-- Offsets of the nearest window pixels of a colour around `(x, y)`. -/
def dmsNearest (i : Img) (x y : Int) (col : Nat) : List (Int × Int) :=
  let same := dmsWindow.filter (fun o => colourOf i.fam (i.chan (x + o.1) (y + o.2)) == col)
  let best := same.foldl (fun m o => min m (chebyshev o)) 99
  same.filter (fun o => chebyshev o == best)

/-- Lean demosaic of one colour: mean, rounded down, of its nearest samples (R239). -/
def dmsMean (i : Img) (x y : Int) (col : Nat) : Nat :=
  let n := (dmsNearest i x y col).map (fun o => i.at 0 (x + o.1) (y + o.2) 0)
  if n.length = 0 then 0 else n.sum / n.length

/-- An offset brought back into a window of ±`lim` by reflection at the window's edge, which keeps its colour phase. -/
def mirrorIn (lim d : Int) : Int :=
  if lim < d then d - 2 * ((d - lim + 1) / 2) else if d < -lim then d + 2 * ((-lim - d + 1) / 2) else d

/-- Green (or C) of the normal variant at the site `(cx + ex, cy + ey)`, for the output pixel `(cx, cy)` (R239): it reads only the window of
that pixel. DESIGN CHOICE (log 79): what a site at the window's border would read outside it is taken mirrored inside it. -/
def dmsGreen (i : Img) (cx cy ex ey : Int) : Nat :=
  if colourOf i.fam (i.chan (cx + ex) (cy + ey)) = 1 then i.at 0 (cx + ex) (cy + ey) 0
  else
    let g := fun (dx dy : Int) => i.at 0 (cx + mirrorIn 2 (ex + dx)) (cy + mirrorIn 1 (ey + dy)) 0
    let gi := fun (dx dy : Int) => (g dx dy : Int)
    let dh := (gi (-1) 0 - gi 1 0).natAbs + (2 * gi 0 0 - gi (-2) 0 - gi 2 0).natAbs
    let dv := 2 * (gi 0 (-1) - gi 0 1).natAbs
    if dh < dv then (g (-1) 0 + g 1 0) / 2
    else if dv < dh then (g 0 (-1) + g 0 1) / 2
    else (g (-1) 0 + g 1 0 + g 0 (-1) + g 0 1) / 4

/-- Red or blue of the normal variant: green plus the mean colour difference over the nearest sites of that colour (R239). -/
def dmsChroma (i : Img) (x y : Int) (col : Nat) : Int :=
  if colourOf i.fam (i.chan x y) = col then i.at 0 x y 0
  else
    let ds := (dmsNearest i x y col).map (fun o =>
      (i.at 0 (x + o.1) (y + o.2) 0 : Int) - dmsGreen i x y o.1 o.2)
    if ds.length = 0 then 0 else dmsGreen i x y 0 0 + Int.tdiv ds.sum ds.length

/-- DMS (R239). -/
def opDms (d : OpDesc) (lean : Bool) (i : Img) : Img :=
  let out := dfld d 4 1 0
  let wide := i.fmt == .raw24
  let col := fun (x y : Int) (c : Nat) =>
    if lean || i.fam == 3 then (dmsMean i x y c : Int)
    else if c = 1 then dmsGreen i x y 0 0 else dmsChroma i x y c
  let kir := fun (c : Nat) => match c with
    | 0 => dfld d 8 15 0 | 1 => dfld d 8 31 16 | _ => dfld d 12 15 0
  let fmt := match out with
    | 2 => Fmt.y16
    | 1 => if wide then .rgbi24 else .rgbi16
    | _ => if wide then .rgb24 else .rgb16
  { i.resize fmt i.w i.h (fun _ x y c =>
      if out = 2 then satTo .y16 (dmsMean i x y 3)
      else if i.fam = 3 then
        (if c = 3 then dmsMean i x y 3
         else satTo fmt (col x y c - ((kir c * dmsMean i x y 3 + 8192) >>> 14 : Nat)))
      else satTo fmt (col x y c)) with
    xlo := i.xlo, xhi := i.xhi, ylo := i.ylo, yhi := i.yhi }

/-- CCM (R240). -/
def opCcm (d : OpDesc) (i : Img) : Img :=
  let m := fun (j k : Nat) => signed 16 (leAt d (4 + 8 * j + 2 * k) 2)
  let in4 := dfld d 28 4 4 == 1
  let out : Fmt := match i.fmt with
    | .rgb24 | .rgbi24 => .rgb24
    | _ => .rgb16
  i.mapPx out (fun s x y j =>
    let c := fun (k : Nat) => (i.px s x y k : Int)
    let c3 : Int := if in4 then c 3 else (2 ^ dfld d 28 3 0 : Nat)
    satTo out ((m j 0 * c 0 + m j 1 * c 1 + m j 2 * c 2 + m j 3 * c3 + 2048) / 4096))

/-- A tone curve (R241). -/
def toneCurve (t : List Byte) (x : Nat) : Nat :=
  let e := if x < 16 then 0 else Nat.log2 x - 3
  let idx := if x < 16 then x else 8 * e + (x >>> e)
  let f := x % 2 ^ e
  let n := fun (k : Nat) => (leAt t (2 * k) 2 : Int)
  (n idx + ((n (idx + 1) - n idx) * f + (if e = 0 then 0 else (2 ^ (e - 1) : Nat))) / (2 ^ e : Nat)).toNat

/-- TONE on one component with one curve, component or luminance mode (R241). -/
def toneOut (t : List Byte) (luma : Bool) (rgb : Nat → Nat) (c : Nat) : Nat :=
  if luma then
    let y := (77 * rgb 0 + 150 * rgb 1 + 29 * rgb 2 + 128) >>> 8
    if y = 0 then 0 else min 0xFFFF ((rgb c * toneCurve t y + y / 2) / y)
  else toneCurve t (rgb c)

/-- Position among zone centres in units of 1/256 zone (R242): lower zone index, upper zone index, weight of the upper. -/
def zonePos (x lg n : Nat) : Nat × Nat × Nat :=
  let v : Int := (x : Int) - (2 ^ (lg - 1) : Nat)
  let z := v / (2 ^ lg : Nat)
  let f := ((v % (2 ^ lg : Nat)) * 256 / (2 ^ lg : Nat)).toNat
  let cl := fun (k : Int) => (clampI 0 (n - 1) k).toNat
  (cl z, cl (z + 1), f)

/-- TONE (R241, R242). -/
def opTone (d : OpDesc) (area : List Byte) (lean : Bool) (i : Img) : Img :=
  let out : Fmt := match i.fmt with
    | .rgb24 | .rgb16 => .rgb16
    | _ => .raw16
  let luma := dfld d 12 18 18 == 1 && !i.fmt.isRaw
  let zx := dfld d 12 4 0
  let zy := dfld d 12 9 5
  let loc := tblAt area (leAt d 8 4)
  i.mapPx out (fun s x y c =>
    let rgb := fun k => i.px s x y k
    let g := toneOut (tblAt area (leAt d 4 4)) luma rgb c
    if lean || dfld d 12 19 19 == 0 then g
    else
      let px := zonePos x.toNat (dfld d 12 13 10) zx
      let py := zonePos y.toNat (dfld d 12 17 14) zy
      let z := fun (a b : Nat) => toneOut (loc.drop (354 * (b * zx + a))) luma rgb c
      let top := z px.1 py.1 * (256 - px.2.2) + z px.2.1 py.1 * px.2.2
      let bot := z px.1 py.2.1 * (256 - px.2.2) + z px.2.1 py.2.1 * px.2.2
      let l := (top * (256 - py.2.2) + bot * py.2.2) >>> 16
      satTo .rgb16 (g + ((dfld d 12 27 20 : Int) * ((l : Int) - g) + 128) / 256))

/-- A mesh node: X and Y in 1/256 pixel (R243). -/
def meshNode (t : List Byte) (mw a b : Nat) : Int × Int :=
  (signed 32 (leAt t (8 * (b * mw + a)) 4), signed 32 (leAt t (8 * (b * mw + a) + 4) 4))

/-- Position in the input of an output pixel, in 1/256 pixel (R243). -/
def meshPos (t : List Byte) (mw cell : Nat) (x y : Nat) : Int × Int :=
  let a := x / 2 ^ cell
  let b := y / 2 ^ cell
  let fx : Int := (x % 2 ^ cell : Nat)
  let fy : Int := (y % 2 ^ cell : Nat)
  let one : Int := (2 ^ cell : Nat)
  let bl := fun (g : Int × Int → Int) =>
    let p := fun (u v : Nat) => g (meshNode t mw (a + u) (b + v))
    let top := p 0 0 * (one - fx) + (if fx = 0 then 0 else p 1 0 * fx)
    let bot := if fy = 0 then 0 else (p 0 1 * (one - fx) + (if fx = 0 then 0 else p 1 1 * fx))
    (top * (one - fy) + bot * fy + (2 ^ (2 * cell - 1) : Nat)) / (2 ^ (2 * cell) : Nat)
  (bl (·.1), bl (·.2))

/-- Catmull-Rom weight `k` at phase `p`/64 (a = −0.5, R244), times 1,024 × 512. -/
def catmullNum (p : Int) (k : Nat) : Int :=
  match k with
  | 0 => -4096 * p + 128 * p * p - p * p * p
  | 1 => 0
  | 2 => 4096 * p + 256 * p * p - 3 * p * p * p
  | _ => -64 * p * p + p * p * p

/-- Weight of tap `k` at phase `p`: exact value rounded down or up for taps 0, 2 and 3, tap 1 completing the sum of 1,024
(R244). -/
def catmullWeight (p k : Nat) : Int :=
  let q := fun (n : Nat) =>
    let v := catmullNum p n
    v / 512 + (if v % 512 ≠ 0 ∧ Config.warpRoundUp p n then 1 else 0)
  if k = 1 then 1024 - q 0 - q 2 - q 3 else q k

/-- Sample for WARP: border colour or edge rule (R244). -/
def warpTap (d : OpDesc) (i : Img) (x y : Int) (c : Nat) : Int :=
  if dfld d 16 8 8 == 1 then i.at 0 x y c
  else if i.xlo ≤ x ∧ x ≤ i.xhi ∧ i.ylo ≤ y ∧ y ≤ i.yhi then i.px 0 x y c
  else match c with
    | 0 => leAt d 20 2 | 1 => leAt d 22 2 | _ => leAt d 24 2

/-- Separable filter of R248: vertical weights first, then horizontal, over taps given by the two lists. -/
def filterVH (f : Fmt) (vw hw : List (Int × Int)) (smp : Int → Int → Int) : Nat :=
  let t := hw.map (fun hc => (hc.1, (vw.foldl (fun a vc => a + vc.1 * smp hc.2 vc.2) 0 + 128) / 256))
  satTo f ((t.foldl (fun a p => a + p.1 * p.2) 0 + 2048) / 4096)

/-- WARP (R243, R244). -/
def opWarp (d : OpDesc) (area : List Byte) (lean : Bool) (i : Img) : Img :=
  let t := tblAt area (leAt d 4 4)
  let mw := dfld d 8 15 0
  let cell := dfld d 16 2 0
  i.resize i.fmt (dfld d 12 15 0) (dfld d 12 31 16) (fun _ x y c =>
    let p := meshPos t mw cell x.toNat y.toNat
    let x0 := p.1 / 256
    let y0 := p.2 / 256
    let smp := fun (u v : Int) => warpTap d i u v c
    if lean then
      let fx := p.1 % 256
      let fy := p.2 % 256
      satTo i.fmt (((smp x0 y0 * (256 - fx) + smp (x0 + 1) y0 * fx) * (256 - fy) +
        (smp x0 (y0 + 1) * (256 - fx) + smp (x0 + 1) (y0 + 1) * fx) * fy) / 65536)
    else
      let ph := fun (v : Int) => ((v % 256) / 4).toNat
      let taps := fun (base v : Int) => (List.range 4).map (fun k => (catmullWeight (ph v) k, base - 1 + k))
      filterVH i.fmt (taps y0 p.2) (taps x0 p.1) smp)

/-- SCALE (R246 to R248). -/
def opScale (d : OpDesc) (area : List Byte) (lean : Bool) (i : Img) : Img :=
  let xs := fun (j : Int) => signed 32 (leAt d 12 4) + j * (dfld d 4 23 0 : Int)
  let ys := fun (n : Int) => signed 32 (leAt d 16 4) + n * (dfld d 8 23 0 : Int)
  let hcT := tblAt area (leAt d 24 4)
  let vcT := tblAt area (leAt d 28 4)
  let ph := fun (v : Int) => ((v % 1048576) / 16384).toNat
  i.resize i.fmt (dfld d 20 15 0) (dfld d 20 31 16) (fun _ x y c =>
    let x0 := xs x / 1048576
    let y0 := ys y / 1048576
    let p := ph (ys y)
    let q := ph (xs x)
    let smp := fun (u v : Int) => (i.at 0 u v c : Int)
    if lean then
      filterVH i.fmt [((64 - p) * 16, y0), (p * 16, y0 + 1)] [((64 - q) * 16, x0), (q * 16, x0 + 1)] smp
    else
      filterVH i.fmt
        ((List.range 4).map (fun k => (signed 16 (leAt vcT (2 * (p * 4 + k)) 2), y0 - 1 + k)))
        ((List.range 8).map (fun k => (signed 16 (leAt hcT (2 * (q * 8 + k)) 2), x0 - 3 + k))) smp)

/-- Luma coefficients Kr and Kb of a preset, in units of 1/10,000 (ITU-R BT.601, BT.709, BT.2020; R249). -/
def cscK (preset : Nat) : Int × Int :=
  match preset with
  | 1 => (2990, 1140) | 2 => (2126, 722) | _ => (2627, 593)

/-- A coefficient `num / den` brought to an integer, rounded down or up as the device rounds (R249 leaves it open). -/
def cscRound (preset idx : Nat) (num den : Int) : Int :=
  num / den + (if num % den ≠ 0 ∧ Config.cscRoundUp preset idx then 1 else 0)

/-- Row and column coefficient of RGB to YUV as a fraction of full scale: numerator over 10,000 (Y) or over `2 (10,000 − K)`
(U, V). -/
def cscFwd (preset j k : Nat) : Int × Int :=
  let kr := (cscK preset).1
  let kb := (cscK preset).2
  let kg := 10000 - kr - kb
  let y := match k with
    | 0 => kr | 1 => kg | _ => kb
  match j with
  | 0 => (y, 10000)
  | 1 => ((if k = 2 then 10000 - kb else -y), 2 * (10000 - kb))
  | _ => ((if k = 0 then 10000 - kr else -y), 2 * (10000 - kr))

/-- Coefficient of YUV to RGB: numerator and denominator of the inverse. -/
def cscInv (preset j k : Nat) : Int × Int :=
  let kr := (cscK preset).1
  let kb := (cscK preset).2
  let kg := 10000 - kr - kb
  match j, k with
  | _, 0 => (1, 1)
  | 0, 2 => (2 * (10000 - kr), 10000)
  | 1, 1 => (-2 * kb * (10000 - kb), 10000 * kg)
  | 1, 2 => (-2 * kr * (10000 - kr), 10000 * kg)
  | 2, 1 => (2 * (10000 - kb), 10000)
  | _, _ => (0, 1)

/-- Output width b of CSC. -/
def cscBits (d : OpDesc) : Nat := match dfld d 4 4 3 with
  | 0 => 8 | 1 => 10 | 2 => 12 | _ => 16

/-- Codes that a component spans at `b` bits (R249). -/
def cscSpan (lim : Bool) (b j : Nat) : Int :=
  if lim then ((if j = 0 then 219 else 224) * 2 ^ (b - 8) : Nat) else (2 ^ b - 1 : Nat)

/-- Matrix coefficient M[j][k] in Q4.12 (R249). -/
def cscM (d : OpDesc) (j k : Nat) : Int :=
  let preset := dfld d 4 1 0
  let lim := dfld d 4 2 2 == 1
  let b := cscBits d
  if preset = 0 then signed 16 (leAt d (8 + 6 * j + 2 * k) 2)
  else if dfld d 4 7 7 == 1 then
    let f := cscInv preset j k
    cscRound preset (100 + 3 * j + k) (4096 * 65535 * f.1) (f.2 * cscSpan lim 16 k)
  else
    let f := cscFwd preset j k
    cscRound preset (9 * b + 3 * j + k) (f.1 * cscSpan lim b j * (2 ^ (28 - b) : Nat)) (f.2 * 65535)

/-- Offset OFF_j in output LSBs (R249). -/
def cscOff (d : OpDesc) (j : Nat) : Int :=
  let b := cscBits d
  let lim := dfld d 4 2 2 == 1
  if dfld d 4 1 0 = 0 then signed 16 (leAt d (26 + 2 * j) 2)
  else if dfld d 4 7 7 == 1 then
    (if lim then -cscRound (dfld d 4 1 0) (200 + j) (16 * 256 * 65535) (219 * 256) else 0)
  else if j = 0 then (if lim then (16 * 2 ^ (b - 8) : Nat) else 0) else (2 ^ (b - 1) : Nat)

/-- One 4:4:4 output component of CSC (R249). -/
def cscPx (d : OpDesc) (i : Img) (x y : Int) (j : Nat) : Nat :=
  let inv := dfld d 4 7 7 == 1
  let b := cscBits d
  let c := fun (k : Nat) => (i.at 0 x y k : Int) - (if inv ∧ k ≠ 0 then 0x8000 else 0)
  let v := (cscM d j 0 * c 0 + cscM d j 1 * c 1 + cscM d j 2 * c 2 + (2 ^ (27 - b) : Nat)) / (2 ^ (28 - b) : Nat) + cscOff d j
  (clampI 0 (2 ^ b - 1 : Nat) v).toNat

/-- CSC (R249). -/
def opCsc (d : OpDesc) (lean : Bool) (i : Img) : Img :=
  if dfld d 4 7 7 == 1 then i.mapPx .rgb16 (fun _ x y c => cscPx d i x y c)
  else match dfld d 4 6 5 with
    | 0 => i.mapPx .yuv16 (fun _ x y c => cscPx d i x y c)
    | 1 => i.mapPx .yuv422 (fun _ x y c =>
        if c = 0 then cscPx d i x y 0
        else
          let j := if x % 2 = 0 then 1 else 2
          let x0 := x - x % 2
          let v := fun (u : Int) => cscPx d i (edgeIdx 1 i.xlo i.xhi u) y j
          if lean then v x0 else (v (x0 - 1) + 2 * v x0 + v (x0 + 1) + 2) >>> 2)
    | _ => i.mapPx .y16 (fun _ x y _ => cscPx d i x y 0)

/-- Mask sample with the mask's edge repeated (R251). -/
def maskAt (t : List Byte) (off wid hgt u v : Nat) : Nat :=
  (t.getD (off + (min v (hgt - 1)) * wid + min u (wid - 1)) 0).toNat

/-- Alpha of input `n` at its pixel `(u, v)` (R251). -/
def mergeAlpha (d : OpDesc) (t : List Byte) (lean : Bool) (i : Img) (n u v : Nat) : Nat :=
  let off := leAt t (8 + 8 * n) 4
  let wid := leAt t (12 + 8 * n) 2
  let sub := dfld d 28 3 1
  if off = 0 then (t.getD (14 + 8 * n) 0).toNat
  else
    let hgt := ceilDiv i.h (2 ^ sub)
    let m := fun (a b : Nat) => maskAt t off wid hgt (u / 2 ^ sub + a) (v / 2 ^ sub + b)
    if lean || sub == 0 then m 0 0
    else
      let fu := u % 2 ^ sub
      let fv := v % 2 ^ sub
      let one := 2 ^ sub
      ((m 0 0 * (one - fu) + m 1 0 * fu) * (one - fv) + (m 0 1 * (one - fu) + m 1 1 * fu) * fv + 2 ^ (2 * sub - 1))
        >>> (2 * sub)

/-- Place of the output of branch `br` on the canvas of MERGE (R250). -/
def mergeAt (d : OpDesc) (br : Nat) : Int × Int := (signed 16 (leAt d (8 + 4 * br) 2), signed 16 (leAt d (10 + 4 * br) 2))

/-- MERGE (R250): `ins` are the branch outputs named in INPUTS with their branch number. -/
def opMerge (d : OpDesc) (area : List Byte) (lean : Bool) (ins : List (Nat × Img)) (i : Img) : Img :=
  let t := tblAt area (leAt d 24 4)
  let bg := fun (c : Nat) => leAt t (2 * c) 2
  let i := { i with ox := (ins.map (fun (p : Nat × Img) => p.2.ox)).sum, sy := (ins.map (fun (p : Nat × Img) => p.2.sy)).sum }
  i.resize i.fmt (dfld d 4 15 0) (dfld d 4 31 16) (fun _ x y c =>
    let cover := ins.filterMap (fun p =>
      let u := x - (mergeAt d p.1).1
      let v := y - (mergeAt d p.1).2
      if 0 ≤ u ∧ u < p.2.w ∧ 0 ≤ v ∧ v < p.2.h then
        some (mergeAlpha d t lean p.2 p.1 u.toNat v.toNat, p.2.px 0 u v c)
      else none)
    if dfld d 28 0 0 == 1 then
      let sum := (cover.map (·.1)).sum
      if sum = 0 then bg c else ((cover.map (fun p => p.1 * p.2)).sum + sum / 2) / sum
    else cover.foldl (fun o p => (p.1 * p.2 + (255 - p.1) * o + 127) / 255) (bg c))

/-- OVLY (R259). -/
def opOvly (d : OpDesc) (area : List Byte) (lean : Bool) (i : Img) : Img :=
  let ow := dfld d 8 15 0
  let oh := dfld d 8 31 16
  let img := tblAt area (leAt d 12 4)
  let pal := tblAt area (leAt d 16 4)
  i.mapPx i.fmt (fun s x y c =>
    let u := x - signed 16 (leAt d 4 2)
    let v := y - signed 16 (leAt d 6 2)
    let v0 := i.px s x y c
    if 0 ≤ u ∧ u < ow ∧ 0 ≤ v ∧ v < oh then
      let e := 4 * (img.getD (v.toNat * ow + u.toNat) 0).toNat
      let a := (pal.getD (e + 3) 0).toNat
      let col := (pal.getD (e + c) 0).toNat
      if lean then (if 128 ≤ a then 257 * col else v0)
      else (a * 257 * col + (255 - a) * v0 + 127) / 255
    else v0)

/-- TNR (R257) against a reference image; `ref` gives the reference line, or nothing when it is missing (R258). -/
def opTnr (d : OpDesc) (lean : Bool) (ref : Nat → Option (Nat → Nat → Nat)) (i : Img) : Img :=
  let shift := dfld d 24 4 0
  let nc := i.fmt.comps
  let refPx := fun (x y : Int) (c : Nat) =>
    match ref (edgeIdx 1 0 (i.h - 1) y).toNat with
    | some l => (l (edgeIdx 1 0 (i.w - 1) x).toNat c : Int)
    | none => i.at 0 x y c
  let mean3 := fun (g : Int → Int → Int) (x y : Int) =>
    ([-1, 0, 1].flatMap (fun (dy : Int) => [-1, 0, 1].map (fun (dx : Int) => g (x + dx) (y + dy)))).sum / 9
  i.mapPx i.fmt (fun s x y c =>
    let cur := i.px s x y c
    match ref y.toNat with
    | none => cur
    | some l =>
      let diff := fun (k : Nat) =>
        if lean then ((i.px s x y k : Int) - l x.toNat k).natAbs
        else (mean3 (fun u v => (i.at s u v k : Int)) x y - mean3 (fun u v => refPx u v k) x y).natAbs
      let dmax := ((List.range nc).map diff).foldl max 0
      let al := (d.getD (8 + min 15 (dmax >>> shift)) 0).toNat
      (al * cur + (255 - al) * l x.toNat c + 127) / 255)

/-- Rows of the dither matrix (R254). -/
def ditherAt (x y : Nat) : Nat :=
  match y % 4, x % 4 with
  | 0, 0 => 0 | 0, 1 => 8 | 0, 2 => 2 | 0, _ => 10
  | 1, 0 => 12 | 1, 1 => 4 | 1, 2 => 14 | 1, _ => 6
  | 2, 0 => 3 | 2, 1 => 11 | 2, 2 => 1 | 2, _ => 9
  | _, 0 => 15 | _, 1 => 7 | _, 2 => 13 | _, _ => 5

/-- Reduction of one sample to `n` bits (R254). -/
def packBits (d : OpDesc) (lean : Bool) (n x y v : Nat) : Nat :=
  let ib := dfld d 4 13 9
  if n < ib then
    let r := if dfld d 4 8 8 == 1 && !lean then (ditherAt x y * 2 ^ (ib - n)) >>> 4 else 2 ^ (ib - n - 1)
    min (2 ^ n - 1) ((v + r) >>> (ib - n))
  else min (2 ^ n - 1) (v <<< (n - ib))

/-- PACK formats that put chroma on lines of their own (R255). -/
def packPlanar (d : OpDesc) : Bool := dfld d 4 7 0 == 0x0B || dfld d 4 7 0 == 0x0C

/-- Output lines of PACK for `h` input lines, chroma lines of R255 included. -/
def packLines (d : OpDesc) (h : Nat) : Nat := if packPlanar d then h + h / 2 else h

/-- Bytes of one packed pixel group; `s x c` reads sample `c` of pixel `x` reduced by `packBits`. -/
def packGroup (fmt alpha : Nat) (s : Nat → Nat → Nat → Nat) (x : Nat) : List Byte :=
  let b := fun (n : Nat) => BitVec.ofNat 8 n
  match fmt with
  | 0x00 => [b (s 8 x 0)]
  | 0x01 => (List.range 4).map (fun k => b (s 10 (x + k) 0 / 4)) ++
      [b ((List.range 4).foldl (fun a k => a + (s 10 (x + k) 0 % 4) * 4 ^ k) 0)]
  | 0x02 => [b (s 12 x 0 / 16), b (s 12 (x + 1) 0 / 16), b (s 12 x 0 % 16 + 16 * (s 12 (x + 1) 0 % 16))]
  | 0x03 => leBytes 2 (s 16 x 0)
  | 0x08 => [b (s 8 x 0), b (s 8 x 1), b (s 8 (x + 1) 0), b (s 8 (x + 1) 1)]
  | 0x09 => [b (s 8 x 1), b (s 8 x 0), b (s 8 (x + 1) 1), b (s 8 (x + 1) 0)]
  | 0x0A => leBytes 2 (64 * s 10 x 0) ++ leBytes 2 (64 * s 10 x 1) ++ leBytes 2 (64 * s 10 (x + 1) 0) ++
      leBytes 2 (64 * s 10 (x + 1) 1)
  | 0x0B => [b (s 8 x 0)]
  | 0x0C => leBytes 2 (64 * s 10 x 0)
  | 0x0D => [b (s 8 x 0), b (s 8 x 1), b (s 8 x 2)]
  | 0x10 => [b (s 8 x 0), b (s 8 x 1), b (s 8 x 2)]
  | 0x11 => [b (s 8 x 2), b (s 8 x 1), b (s 8 x 0)]
  | 0x12 => [b (s 8 x 2), b (s 8 x 1), b (s 8 x 0), b alpha]
  | 0x13 => leBytes 4 (s 10 x 2 + 1024 * s 10 x 1 + 1048576 * s 10 x 0 + 1073741824 * (alpha % 4))
  | 0x14 => leBytes 2 (s 5 x 2 + 32 * s 6 x 1 + 2048 * s 5 x 0)
  | _ => []

/-- Pixels of a group of a PACK format. -/
def packGroupPx (fmt : Nat) : Nat := match fmt with
  | 0x01 => 4 | 0x02 | 0x08 | 0x09 | 0x0A => 2 | _ => 1

/-- Bytes of output line `n` of PACK (R254, R255). Line numbers from the image height on are chroma lines; the segments of a line of
several exposures stand behind each other in the output line. -/
def packLine (d : OpDesc) (lean : Bool) (i : Img) (n : Nat) : List Byte :=
  let fmt := dfld d 4 7 0
  let g := packGroupPx fmt
  let w := i.w * i.e
  let px := fun (x y c : Nat) => i.px (x / max 1 i.w) (x % max 1 i.w : Nat) y c
  if packPlanar d && i.h ≤ n then
    let k := n - i.h
    let nb := if fmt = 0x0B then 8 else 10
    (List.range (w / 2)).flatMap (fun p =>
      [0, 1].flatMap (fun q =>
        let x : Nat := 2 * p + q
        let c := fun (y : Nat) => px x y 1
        let v := if lean then c (2 * k) else (c (2 * k) + c (2 * k + 1) + 1) / 2
        let r := packBits d lean nb x n v
        if fmt = 0x0B then [BitVec.ofNat 8 r] else leBytes 2 (64 * r)))
  else
    (List.range (w / g)).flatMap (fun p =>
      packGroup fmt (dfld d 8 7 0) (fun nb x c => packBits d lean nb x n (px x n c)) (p * g))

/-- Output width in bytes of PACK (R254). -/
def packWidth (d : OpDesc) (w : Nat) : Nat := match dfld d 4 7 0 with
  | 0x00 | 0x0B => w | 0x01 => w / 4 * 5 | 0x02 => w / 2 * 3 | 0x03 | 0x0C | 0x08 | 0x09 | 0x14 => 2 * w
  | 0x0A | 0x12 | 0x13 => 4 * w | _ => 3 * w

/-- PACK as an image of bytes. -/
def opPack (d : OpDesc) (lean : Bool) (i : Img) : Img :=
  let wb := packWidth d (i.w * i.e)
  { i.resize .packed wb (packLines d i.h) (fun _ x y _ => ((packLine d lean i y.toNat).getD x.toNat 0).toNat) with e := 1 }

/-- Stored bytes of one sample. -/
def sampleOut (f : Fmt) (v : Nat) : List Byte := leBytes f.sampleBytes v

/-- Stored bytes of line `n` of an image in scratch layout (R223): segment by segment, pixel by pixel. -/
def Img.lineBytes (i : Img) (n : Nat) : List Byte :=
  (List.range i.e).flatMap (fun s => (List.range i.w).flatMap (fun (x : Nat) =>
    (List.range i.fmt.comps).flatMap (fun c => sampleOut i.fmt (i.px s x n c))))

/-- Bytes of one stored line. -/
def Img.lineSize (i : Img) : Nat := i.e * i.w * i.fmt.comps * i.fmt.sampleBytes

/-- One operation other than the joining ones on its single input. -/
def runOp (d : OpDesc) (area : List Byte) (lean : Bool) (ref : Nat → Option (Nat → Nat → Nat))
    (ins : List (Nat × Img)) (i : Img) : Img :=
  match opCode d with
  | 0x01 => opCrop d i
  | 0x02 => opBlc d area i
  | 0x03 => opDpc d area lean i
  | 0x04 => opHdrm d lean (ins.map (·.2)) i
  | 0x05 => opLsc d area lean i
  | 0x06 => opDms d lean i
  | 0x07 => opCcm d i
  | 0x08 => opTone d area lean i
  | 0x09 => opWarp d area lean i
  | 0x0A => opScale d area lean i
  | 0x0B => opCsc d lean i
  | 0x0C => opMerge d area lean ins i
  | 0x0E => opPack d lean i
  | 0x10 => opTnr d lean ref i
  | 0x11 => opOvly d area lean i
  | _ => i

/-- Vertical support (above, below) of an operation (R228). -/
def opSupport (d : OpDesc) : Nat × Nat :=
  match opCode d with
  | 0x03 => (2, 2)
  | 0x06 => (1, 1)
  | 0x09 => (1, dfld d 16 7 3 + 2)
  | 0x0A => (1, 2)
  | 0x0E => if packPlanar d then (0, 1) else (0, 0)
  | 0x10 => (1, 1)
  | _ => (0, 0)

/-- Output pixels per BLOOM cycle, normal and lean (R228); 0 for TAG, which takes no cycles. -/
def opRate (code : Nat) (lean : Bool) : Nat :=
  match code with
  | 0x01 => 4
  | 0x0D => if lean then 4 else 2
  | 0x08 | 0x09 | 0x10 => if lean then 2 else 1
  | 0x0F => 0
  | _ => 2

/-- Cost class, normal and lean (R228). -/
def opCostClass (code : Nat) (lean : Bool) : Nat :=
  match code with
  | 0x02 | 0x07 => 2
  | 0x03 | 0x04 | 0x0C => if lean then 2 else 3
  | 0x05 | 0x0B | 0x11 => if lean then 1 else 2
  | 0x06 | 0x10 => if lean then 3 else 5
  | 0x08 | 0x0A => if lean then 2 else 4
  | 0x09 => if lean then 4 else 6
  | _ => 1

/-- Operations without a lean variant (R228). -/
def opHasLean (code : Nat) : Bool :=
  !(code == 0x01 || code == 0x02 || code == 0x07 || code == 0x0F)

/-- The nodes of the mesh cells that output columns `x0` to `x1` and lines `y0` to `y1` touch (R243, R245). -/
def meshBox (d : OpDesc) (area : List Byte) (x0 x1 y0 y1 : Int) : List (Int × Int) :=
  let t := tblAt area (leAt d 4 4)
  let mw := dfld d 8 15 0
  let cell : Int := (2 ^ dfld d 16 2 0 : Nat)
  let span := fun (lo hi : Int) (n : Nat) =>
    let a := min (lo / cell).toNat (n - 1)
    let b := min ((hi / cell).toNat + 1) (n - 1)
    (List.range (b + 1 - a)).map (a + ·)
  (span y0 y1 (dfld d 8 31 16)).flatMap (fun r => (span x0 x1 mw).map (fun c => meshNode t mw c r))

/-- The least and the largest of a list of numbers. -/
def rangeOf (l : List Int) : Int × Int := (l.foldl min (l.headD 0), l.foldl max (l.headD 0))

/-- Input lines (first, last) of branch `br` that output lines `lo` to `hi` of an operation are centred on and reach, before clipping
(R188, R228). A mesh gives a strip the lines that BAND allows it, and a slow tile the box of its nodes (R245); a planar format joins an odd
line with the one before it (R255). -/
def opSpan (d : OpDesc) (area : List Byte) (fast : Bool) (br : Nat) (lo hi : Int) : Int × Int :=
  match opCode d with
  | 0x01 => (lo + dfld d 4 31 16, hi + dfld d 4 31 16)
  | 0x04 => if dfld d 4 31 30 = 2 then (lo / (dfld d 4 29 28 + 1), hi / (dfld d 4 29 28 + 1)) else (lo, hi)
  | 0x09 =>
    let w : Int := dfld d 12 15 0 - 1
    let ys := fun (a b : Int) => rangeOf ((meshBox d area 0 w a b).map (·.2 / 256))
    if fast then ((ys lo lo).1 - 1, (ys hi hi).1 + dfld d 16 7 3 + 2) else ((ys lo hi).1 - 1, (ys lo hi).2 + 2)
  | 0x0A =>
    let y := fun (n : Int) => (signed 32 (leAt d 16 4) + n * (dfld d 8 23 0 : Int)) / 1048576
    (y lo - 1, y hi + 2)
  | 0x0C => (lo - (mergeAt d br).2, hi - (mergeAt d br).2)
  | 0x0E => if packPlanar d then (lo - lo % 2, hi) else (lo, hi)
  | _ => (lo - (opSupport d).1, hi + (opSupport d).2)

/-! STAT (R252, R253). -/

/-- Statistics of one product frame. -/
structure StatAcc where
  hist : Tbl Nat := {}
  sums : Tbl Nat := {}
  pixels : Tbl Nat := {}
  sat : Tbl Nat := {}
  count : Nat := 0
  deriving DecidableEq, Repr, Inhabited

/-- Channel samples of a pixel for STAT: (channel, value) (R252). -/
def statChannels (i : Img) (s : Nat) (x y : Int) : List (Nat × Nat) :=
  let v := fun c => i.px s x y c
  match i.fmt with
  | .raw16 | .raw24 => [(if i.fam = 0 then 0 else i.chan x y, v 0)]
  | .rgb16 | .rgb24 | .rgbi16 | .rgbi24 =>
    [(0, v 0), (1, v 1), (2, v 2), (3, (77 * v 0 + 150 * v 1 + 29 * v 2 + 128) >>> 8)]
  | .yuv16 => [(0, v 0), (1, v 1), (2, v 2)]
  | .yuv422 => [(0, v 0), (if x % 2 = 0 then 1 else 2, v 1)]
  | _ => [(0, v 0)]

/-- Add one pixel to the statistics (R252). -/
def statPixel (d : OpDesc) (i : Img) (s : Nat) (x y : Nat) (a : StatAcc) : StatAcc :=
  let cs := statChannels i s x y
  let hch := dfld d 12 19 16
  let shift := dfld d 12 28 24
  let hist := cs.foldl (fun t p => if bit hch p.1 then t.upd (256 * p.1 + min 255 (p.2 >>> shift)) (· + 1) else t) a.hist
  let zw := dfld d 8 15 0
  let zh := dfld d 8 31 16
  let zx0 := dfld d 4 15 0
  let zy0 := dfld d 4 31 16
  let inZone := zx0 ≤ x ∧ zy0 ≤ y ∧ zw ≠ 0 ∧ zh ≠ 0 ∧ (x - zx0) / zw < dfld d 12 7 0 ∧ (y - zy0) / zh < dfld d 12 15 8
  if inZone then
    let z := (y - zy0) / zh * dfld d 12 7 0 + (x - zx0) / zw
    { hist := hist, count := a.count + 1
      sums := cs.foldl (fun t p => t.upd (4 * z + p.1) (fun v => (v + p.2) % 2 ^ 48)) a.sums
      pixels := a.pixels.upd z (· + 1)
      sat := if cs.any (fun p => dfld d 16 23 0 ≤ p.2) then a.sat.upd z (· + 1) else a.sat }
  else { a with hist := hist, count := a.count + 1 }

/-- Statistics of lines `[y0, y1)` and columns `[x0, x1)` of an image (R252). -/
def statRegion (d : OpDesc) (lean : Bool) (i : Img) (x0 x1 y0 y1 : Nat) (a : StatAcc) : StatAcc :=
  (List.range i.e).foldl (fun a s =>
    (List.range (y1 - y0)).foldl (fun a dy =>
      (List.range (x1 - x0)).foldl (fun a dx =>
        if lean && ((x0 + dx) % 2 == 1 || (y0 + dy) % 2 == 1) then a else statPixel d i s (x0 + dx) (y0 + dy) a) a) a) a

/-- Statistics line `n` (LINE 0xF000 + n) of a frame (R253). -/
def statLine (d : OpDesc) (frame : Nat) (invalid : Bool) (a : StatAcc) (n : Nat) : List Byte :=
  let nzx := dfld d 12 7 0
  let nzy := dfld d 12 15 8
  if n = 0 then
    padTo 1024 (leBytes 4 frame ++ leBytes 1 nzx ++ leBytes 1 nzy ++ leBytes 1 (dfld d 12 19 16) ++ leBytes 1 (b2n invalid) ++
      leBytes 4 a.count)
  else if n < 5 then (List.range 256).flatMap (fun b => leBytes 4 (a.hist.get (256 * (n - 1) + b)))
  else (List.range 32).flatMap (fun k =>
    let z := 32 * (n - 5) + k
    if z < nzx * nzy then
      (List.range 4).flatMap (fun c => leBytes 6 (a.sums.get (4 * z + c))) ++ leBytes 4 (a.pixels.get z) ++ leBytes 4 (a.sat.get z)
    else List.replicate 32 0)

/-- Statistics lines of a frame (R253). -/
def statLines (d : OpDesc) : Nat := 5 + ceilDiv (dfld d 12 7 0 * dfld d 12 15 8) 32

end Sys2Proof.Machine
end

