-- ==== Sys2Proof/Machine/Pdb.lean ====
section
/-!
DEFINITION. Machine/Pdb.lean: the fields of a product definition block (R266), read from its 576 bytes.
-/
namespace Sys2Proof.Machine

/-- Word at byte offset `a` of a block, bits `hi:lo`. -/
def pfld (b : List Byte) (a hi lo : Nat) : Nat := bits (leAt b a 4) hi lo

def pdbFast (b : List Byte) : Bool := pfld b 0 31 31 == 1
def pdbClass (b : List Byte) : Nat := pfld b 0 30 29
/-- 0 host ring, 1 display layer, 2 frame store region. -/
def pdbDestKind (b : List Byte) : Nat := pfld b 0 28 27
/-- Number of branches. -/
def pdbNbr (b : List Byte) : Nat := pfld b 0 26 25 + 1
def pdbNops (b : List Byte) : Nat := pfld b 0 24 20
def pdbProduct (b : List Byte) : Nat := pfld b 0 7 0
def pdbOutH (b : List Byte) : Nat := pfld b 4 31 16
def pdbOutW (b : List Byte) : Nat := pfld b 4 15 0
def pdbTwCode (b : List Byte) : Nat := pfld b 8 31 30
def pdbThCode (b : List Byte) : Nat := pfld b 8 29 28
def pdbSpill (b : List Byte) : Bool := pfld b 8 27 27 == 1
def pdbHold (b : List Byte) : Nat := pfld b 8 25 16
def pdbDestId (b : List Byte) : Nat := pfld b 12 17 0
def pdbSpillHi (b : List Byte) : Nat := pfld b 16 31 16
def pdbSpillLo (b : List Byte) : Nat := pfld b 16 15 0
def pdbTblBytes (b : List Byte) : Nat := pfld b 20 31 0
def pdbTblAddr (b : List Byte) : Nat := leAt b 24 8
def pdbBrStream (b : List Byte) (i : Nat) : Nat := pfld b (32 + 4 * i) 13 8
def pdbBrLast (b : List Byte) (i : Nat) : Nat := pfld b (32 + 4 * i) 7 4
def pdbBrFirst (b : List Byte) (i : Nat) : Nat := pfld b (32 + 4 * i) 3 0

/-- Slow tile width in output pixels (R187). -/
def pdbTw (b : List Byte) : Nat := 32 <<< pdbTwCode b

/-- Slow tile height in output lines (R187). -/
def pdbTh (b : List Byte) : Nat := 8 <<< pdbThCode b

/-- Chain descriptor at position `k` (R221, R266). -/
def pdbOp (b : List Byte) (k : Nat) : OpDesc := bytesAt b (64 + 32 * k) 32

/-- Source streams of the branches, in branch order. -/
def pdbStreams (b : List Byte) : List Nat := (List.range (pdbNbr b)).map (pdbBrStream b)

/-- Source 0: the stream of branch 0, which seals the product's lines (R135). -/
def pdbSrc0 (b : List Byte) : Nat := pdbBrStream b 0

/-- The destination is host ring `(d, r)`: its global index (R382). -/
def pdbRing (b : List Byte) : Nat := (pdbDestId b >>> 12) * 4096 + pdbDestId b % 4096

/-- The destination display port and layer. -/
def pdbPort (b : List Byte) : Nat := pdbDestId b % 4
def pdbLayer (b : List Byte) : Nat := (pdbDestId b >>> 2) % 4

/-- The chain operations in order. -/
def pdbChain (b : List Byte) : List OpDesc := (List.range (pdbNops b)).map (pdbOp b)

/-- Some chain position holds operation `code`. -/
def pdbHas (b : List Byte) (code : Nat) : Bool := (pdbChain b).any (fun d => opCode d == code)

/-- First position after the branches: the trunk begins there (R261). -/
def pdbTrunk (b : List Byte) : Nat := pdbBrLast b (pdbNbr b - 1) + 1

/-- Positions of branch `i`. -/
def pdbBranch (b : List Byte) (i : Nat) : List Nat :=
  (List.range 16).filter (fun k => pdbBrFirst b i ≤ k && k ≤ pdbBrLast b i)

/-- Positions of the trunk. -/
def pdbTrunkPos (b : List Byte) : List Nat :=
  (List.range (pdbNops b)).filter (fun k => pdbTrunk b ≤ k)

/-- Output lines per tile row (R187). -/
def pdbRowH (b : List Byte) : Nat := if pdbFast b then 1 else pdbTh b

/-- Tile rows of a product frame. -/
def pdbRows (b : List Byte) : Nat := ceilDiv (pdbOutH b) (pdbRowH b)

/-- Tile columns of a product frame. -/
def pdbCols (b : List Byte) : Nat := if pdbFast b then 1 else ceilDiv (pdbOutW b) (pdbTw b)

/-- Tiles of a product frame, emitted row by row (R190). -/
def pdbTiles (b : List Byte) : Nat := pdbRows b * pdbCols b

/-- Some operation packs to a planar 4:2:0 format (R255). -/
def pdbPlanar (b : List Byte) : Bool := (pdbChain b).any (fun d => opCode d == 0x0E && packPlanar d)

/-- Image lines of a product frame, chroma lines included. -/
def pdbLines (b : List Byte) : Nat := if pdbPlanar b then pdbOutH b + pdbOutH b / 2 else pdbOutH b

/-- Statistics lines that follow the image lines (R253). -/
def pdbStatLines (b : List Byte) : Nat :=
  match (pdbChain b).find? (fun d => opCode d == 0x0D) with
  | some d => statLines d
  | none => 0

/-- Line number at place `m` of the output order (R255, R279, R253). -/
def pdbLineAt (b : List Byte) (m : Nat) : Nat :=
  if pdbLines b ≤ m then 0xF000 + (m - pdbLines b)
  else if pdbPlanar b then (if m % 3 = 2 then pdbOutH b + m / 3 else m / 3 * 2 + m % 3)
  else m

/-- Output lines that tile row `r` produces, in the output order (R255: chroma line k goes with luma line 2k + 1). -/
def pdbRowLines (b : List Byte) (r : Nat) : List Nat :=
  (List.range (pdbRowH b)).flatMap (fun k =>
    let n := r * pdbRowH b + k
    if pdbOutH b ≤ n then []
    else if pdbPlanar b ∧ n % 2 = 1 then [n, pdbOutH b + n / 2] else [n])

end Sys2Proof.Machine
end

