-- ==== Sys2Proof/Machine/Chain.lean ====
section
/-!
DEFINITION. Machine/Chain.lean: a product's chain as one function from its source images to its output image (R221 to R263):
branches in order, then the trunk. Formats, sizes and footprints come from the same functions.
-/
namespace Sys2Proof.Machine

/-- Format in which a stream's lines are stored (R106, R223). -/
def srcFmt (dt : Nat) : Fmt :=
  if dt = 0x2F ∨ dt = 0x27 then .raw24
  else if dt = 0x1E then .yuv422
  else if dt = 0x24 then .rgb16
  else if dt = 0x12 ∨ (0x30 ≤ dt ∧ dt ≤ 0x37) then .packed
  else .raw16

/-- A source stream as an image, with the colour filter fields of the first operation that reads it (R225). -/
def srcImg (dt w h e : Nat) (first : OpDesc) (px : Nat → Int → Int → Nat → Nat) : Img :=
  let f := srcFmt dt
  { fmt := f, e := e, w := w, h := h
    fam := if f.isRaw then (opCfa first).1 else 0
    phx := (opCfa first).2.2, phy := (opCfa first).2.1
    ox := 0, oy := 0, sy := 0, split := 1, xlo := 0, xhi := (w : Int) - 1, ylo := 0, yhi := (h : Int) - 1, px := px }

/-- The variant that an operation runs in a tile of a given variant (R230). -/
def opLean (d : OpDesc) (tileLean : Bool) : Bool := opLeanOnly d || (tileLean && opLeanOk d)

/-- Run the positions of one branch on its source image. -/
def runBranch (pdb area : List Byte) (lean : Bool) (ref : Nat → Nat → Option (Nat → Nat → Nat)) (pos : List Nat) (i : Img) : Img :=
  pos.foldl (fun i k => let d := pdbOp pdb k; runOp d area (opLean d lean) (ref k) [] i) i

/-- The branch outputs that an operation names in INPUTS (R221). -/
def joinInputs (d : OpDesc) (brs : List Img) : List (Nat × Img) :=
  (List.range 4).filterMap (fun i => if bit (opInputs d) i then (brs[i]?).map (fun g => (i, g)) else none)

/-- Run the trunk: the joining operation takes the branches, the others the preceding operation (R261). -/
def runTrunk (pdb area : List Byte) (lean : Bool) (ref : Nat → Nat → Option (Nat → Nat → Nat)) (brs : List Img)
    (pos : List Nat) (i : Img) : Img :=
  pos.foldl (fun i k => let d := pdbOp pdb k; runOp d area (opLean d lean) (ref k) (joinInputs d brs) i) i

/-- An image without pixels: what a chain starts from when it has no source. -/
def noImg : Img := srcImg 0x2C 0 0 1 [] (fun _ _ _ _ => 0)

/-- Branch outputs from the branch sources. -/
def branchImgs (pdb area : List Byte) (lean : Bool) (ref : Nat → Nat → Option (Nat → Nat → Nat)) (src : Nat → Img) : List Img :=
  (List.range (pdbNbr pdb)).map (fun i => runBranch pdb area lean ref (pdbBranch pdb i) (src i))

/-- The chain's output image; `stop` bounds the positions that run. -/
def chainImg (pdb area : List Byte) (lean : Bool) (ref : Nat → Nat → Option (Nat → Nat → Nat)) (src : Nat → Img)
    (stop : Nat := 16) : Img :=
  let brs := (List.range (pdbNbr pdb)).map (fun i =>
    runBranch pdb area lean ref ((pdbBranch pdb i).filter (· < stop)) (src i))
  runTrunk pdb area lean ref brs ((pdbTrunkPos pdb).filter (· < stop)) (brs.headD noImg)

/-- The input of position `k` of the chain. -/
def chainIn (pdb area : List Byte) (lean : Bool) (src : Nat → Img) (k : Nat) : Img :=
  match (List.range (pdbNbr pdb)).find? (fun i => (pdbBranch pdb i).any (· == k)) with
  | some i => runBranch pdb area lean (fun _ _ => none) ((pdbBranch pdb i).filter (· < k)) (src i)
  | none => chainImg pdb area lean (fun _ _ => none) src k

/-- First and last line that lines `lo` to `hi` of an operation list read of branch `br`, back to the list's input, not clipped (R188). -/
def footBack (pdb area : List Byte) (br : Nat) (pos : List Nat) (lo hi : Int) : Int × Int :=
  pos.reverse.foldl (fun r k => opSpan (pdbOp pdb k) area (pdbFast pdb) br r.1 r.2) (lo, hi)

/-- Lines of an operation's output for an input of `h` lines (R223). -/
def opHeight (d : OpDesc) (h : Nat) : Nat :=
  match opCode d with
  | 0x01 => dfld d 8 31 16
  | 0x04 => if dfld d 4 31 30 = 2 then h * (dfld d 4 29 28 + 1) else h
  | 0x09 => dfld d 12 31 16
  | 0x0A => dfld d 20 31 16
  | _ => h

/-- Lines of the output of branch `i` on a source of `h` lines. -/
def branchHeight (pdb : List Byte) (i h : Nat) : Nat := (pdbBranch pdb i).foldl (fun h k => opHeight (pdbOp pdb k) h) h

/-- Footprint on branch `i` of output lines `lo` to `hi` (R188, R263). -/
def branchFoot (pdb area : List Byte) (i : Nat) (lo hi : Nat) : Int × Int :=
  let t := footBack pdb area i (pdbTrunkPos pdb) lo hi
  footBack pdb area i (pdbBranch pdb i) t.1 t.2

/-- The same on a source of `h` lines, clipped to it; none where no line of a branch that MERGE places lies on the lines (R188, R250). -/
def branchFootIn (pdb area : List Byte) (i h lo hi : Nat) : Option (Nat × Nat) :=
  let t := footBack pdb area i (pdbTrunkPos pdb) lo hi
  let n : Int := branchHeight pdb i h
  if pdbNbr pdb ≠ 1 ∧ (t.2 < 0 ∨ n ≤ t.1) then none
  else
    let f := footBack pdb area i (pdbBranch pdb i) (clampI 0 (n - 1) t.1) (clampI 0 (n - 1) t.2)
    some ((clampI 0 ((h : Int) - 1) f.1).toNat, (clampI 0 ((h : Int) - 1) f.2).toNat)

/-- Sum of the vertical supports along the path of branch `i` (R263). -/
def pathSupport (pdb : List Byte) (i : Nat) : Nat :=
  ((pdbBranch pdb i) ++ (pdbTrunkPos pdb)).foldl (fun n k => n + (opSupport (pdbOp pdb k)).1 + (opSupport (pdbOp pdb k)).2) 0

/-- Lmin: the largest path support plus 2 (R21, R263). -/
def pdbLmin (pdb : List Byte) : Nat :=
  (List.range (pdbNbr pdb)).foldl (fun m i => max m (pathSupport pdb i)) 0 + 2

/-- FOOT_FAST on stream `st`: the largest path support over the branches that read it (R263). -/
def footFast (pdb : List Byte) (st : Nat) : Nat :=
  (List.range (pdbNbr pdb)).foldl (fun m i => if pdbBrStream pdb i = st then max m (pathSupport pdb i) else m) 0

/-- Lines of the footprint of tile row `row` on stream `st`: the span of the branches that read it, over the row's lines of the product. -/
def rowSpan (pdb area : List Byte) (st row th : Nat) : Nat :=
  let spans := (List.range (pdbNbr pdb)).filterMap (fun i =>
    if pdbBrStream pdb i = st then some (branchFoot pdb area i (row * th) (min (pdbOutH pdb) (row * th + th) - 1)) else none)
  match spans with
  | [] => 0
  | p :: r => let lo := r.foldl (fun m q => min m q.1) p.1
              let hi := r.foldl (fun m q => max m q.2) p.2
              (hi - lo + 1).toNat

end Sys2Proof.Machine
end

