-- ==== Sys2Proof/Machine/RegMap.lean ====
section
/-!
DEFINITION. Machine/RegMap.lean: every register of the 64 MiB window, written from the register tables of the chapters and from
the offsets of R632 to R634: its place, its instances, its reset value and its fields with access type (R8) and class (R9).
-/
namespace Sys2Proof.Machine

/-- Access types of R8. `w1cn` is a W1C counter, cleared whole by any 1 bit (R662). -/
inductive Acc where
  | ro | rw | w1c | w1cn | wo
  deriving DecidableEq, Repr

/-- Configuration classes of R9 (`n` is the dash). -/
inductive Cls where
  | n | s | l | d
  deriving DecidableEq, Repr

/-- Every register of the map, by the manual's name. -/
inductive RegKind where
  | CHIP_ID | TOP_MAP_VER | TOP_SCRATCH | CFG_COMMIT | CFG_LDROP | CFG_LDROP_CNT | CFG_SYNC_CTRL | CFG_SYNC_OFFSET
  | CFG_SYNC_STAT | CFG_STATE | CFG_TARGET | CFG_REJECT | RAS_MASTER | RAS_DISC_CTRL | RAS_DISC_PARAM
  | RAS_TSYNC_PERIOD | RAS_GW_DELAY | RAS_DISC_STAT | RAS_TOD_LO | RAS_TOD_HI | RAS_TOD_SET_LO | RAS_TOD_SET_HI
  | RAS_CTRL | RAS_PERIOD | RAS_PERIOD_FRAC | RAS_ALIGN | RAS_PHASE | RAS_POS | RAS_FRAME | RAS_STRM_CFG
  | RAS_STRM_RATIO | RAS_STRM_TARGET | RAS_TRIG_INIT | RAS_TRIG_POS | RAS_STRM_STAT | RAS_STRM_SKEW | RAS_STRM_MEAS
  | ING_PORT_CTRL | ING_PORT_STAT | ING_PORT_CNT0 | ING_PORT_CNT1 | ING_MAP | ING_STRM_FMT | ING_STRM_SIZE
  | ING_STRM_LEN | ING_STRM_CNT | ING_STRM_FCNT | POOL_CTRL | POOL_OCC0 | POOL_OCC1 | POOL_STAT | POOL_ECC_CNT
  | POOL_ECC_REC | POOL_HOST_RESV | POOL_OVF_CLS | POOL_OVF_USE | POOL_RESV | POOL_RESV_MIN | POOL_RESV_STAT
  | POOL_RESV_CNT | POOL_PRD_RESV | BLM_CTRL | BLM_STAT | BLM_FAST_LOAD | BLM_CNT0 | BLM_CNT1 | BLM_TF_CTRL
  | BLM_TF_STAT | BLM_HASH_SEED_LO | BLM_HASH_SEED_HI | BLM_HASH_CTRL | BLM_HASH_PROBE | BLM_HASH_PROBE_OUT
  | BLM_FAST_CTRL | BLM_SLACK | BLM_XSTEAL | BLM_XSTEAL_STAT | BLM_MISS_REC0 | BLM_MISS_REC1 | PRD_REJECT | PRD_STATE
  | PRD_FOOT | PRD_COST | PRD_FRAME | SEAL_ACC_CTRL | SEAL_ACC_DATA | SEAL_FAIL_CNT0 | SEAL_FAIL_CNT1
  | SEAL_FAIL_CNT2 | SEAL_FAIL_REC0 | SEAL_FAIL_REC1 | SEAL_FAIL_REC2 | SEAL_FAIL_REC3 | SEAL_FAIL_REC4
  | SEAL_E2E_PROF | SEAL_E2E_POLY | SEAL_E2E_INIT | SEAL_E2E_XOR | FST_CTRL | FST_STAT | FST_HASH_CTRL | FST_HASH_SX
  | FST_HASH_SM | FST_PROBE_IN | FST_PROBE_OUT | FST_SYS_FREE | FST_ECC_CNT | FST_CNT | FST_ECC_REC0 | FST_ECC_REC1
  | FST_RGN | GWP_CTRL | GWP_STAT | GWP_FAR | GWP_LANE_CTRL | GWP_LANE_STAT | GWP_LANE_EQ | GWP_LANE_CNT0
  | GWP_LANE_CNT1 | GWL_CTRL | GWL_STAT | GWL_EPOCH_TX | GWL_EPOCH_RX | GWL_LAT | GWL_CNT0 | GWL_CNT1 | GWL_CNT2
  | GWL_CNT3 | GWL_CNT4 | GWL_CNT5 | GWL_PROTO_REC | GWL_CRED | HQE_CTRL | HQE_ADMIN_CFG | HQE_ASUB_LO | HQE_ASUB_HI
  | HQE_ACMP_LO | HQE_ACMP_HI | HQE_STAT | HQE_CNT0 | HQE_CNT1 | HQE_ERR_REC0 | HQE_ERR_REC1 | HQE_ERR_REC2
  | HQE_WIN0 | HQE_WIN1 | HQE_WIN2 | DEG_PORT_CTRL | DEG_VTIMING0 | DEG_VTIMING1 | DEG_HTIMING0 | DEG_HTIMING1
  | DEG_PORT_STAT | DEG_LAYER_CFG | DEG_LAYER_POS | DEG_LAYER_SIZE | DEG_LAYER_CNT | MGD_CTRL | MGD_LOG_CI
  | MGD_LOG_STAT | MGD_LOG_CNT | MGD_BANK_STAT | MGD_PORT_CTRL | MGD_PORT_LINES | MGD_SLOT_CFG | MGD_SLOT_POS
  | MGD_SLOT_RB | MGD_TT_CFG | MGD_TT_IMG | MGD_TT_STAT | MGD_TT_CNT0 | MGD_TT_CNT1 | VBR_CTRL | VBR_LVT_CTRL
  | VBR_LVT_BASE_LO | VBR_LVT_BASE_HI | VBR_STAT | VBR_CNT0 | VBR_CNT1 | VBR_CNT2 | VBR_LATE_REC0 | VBR_LATE_REC1
  | VBR_TBL_ACC | VBR_TBL_DATA | VBR_CAN_CTRL | VBR_CAN_NBT | VBR_CAN_DBT | VBR_CAN_STAT | VBR_CAN_CNT | VBR_RPORT
  | VBR_RSLOT | SMB0_CTRL | SMB0_STAT | SMB0_CNT | SMB0_ALERT | SMB1_CTRL | SMB1_XFER | SMB1_STAT | SMB1_CNT
  | SMB1_DATA | FCL_CTRL | FCL_SAFE | FCL_STATUS_LO | FCL_STATUS_HI | FCL_LIVE_LO | FCL_LIVE_HI | FCL_COINC_LO
  | FCL_COINC_HI | FCL_REACT | FCL_FF0 | FCL_FF1 | FCL_FF2 | FCL_FF3 | FCL_FF4 | FCL_FF5 | FCL_SEV | FCL_CNT
  | LUP_CTRL | LUP_MARK | LUP_STAT | LUP_SEQ | LUP_CNT | FIJ_STAT | FIJ_CTRL | FIJ_PAT | FIJ_TRIG | SEC_CTRL
  | SEC_BOOT_STAT | SEC_BOOT_CNT | SEC_BOOT_NONCE | SEC_OP_CTRL | SEC_OP_STAT | SEC_UNLOCK | SEC_KEY_STAT
  | SEC_ATT_NONCE | SEC_ARB | EGV_CTRL | EGV_BUDGET | EGV_OTHER | EGV_COST0 | EGV_COST1 | EGV_THERM | EGV_CLK
  | EGV_STAT | EGV_GRANT | EGV_DEMAND | EGV_AVS | EGV_BAL | EGV_BLOOM | EGV_TEMP | EGV_AGE | PMU_CTRL | PMU_OVF
  | PMU_CYC_LO | PMU_CYC_HI | PMU_SNAP_CTRL | PMU_SNAP_SEQ | PMU_SNAP_CYC_LO | PMU_SNAP_CYC_HI | PMU_SAMP_CTRL
  | PMU_SAMP_FILT | PMU_SAMP_STAT | PMU_CFG | PMU_CTR_LO | PMU_CTR_HI | PMU_SNAP_LO | PMU_SNAP_HI
  deriving DecidableEq, Repr, Inhabited

/-- One field: its register, its bits, its access type and its class. -/
structure Fld where
  reg : RegKind
  hi : Nat
  lo : Nat
  acc : Acc
  cls : Cls
  deriving DecidableEq, Repr

/-- Place of a register: base offset in the window, instance counts and strides of its one or two indices, and the reset
value of the whole register (R7). -/
structure RegRow where
  base : Nat
  n1 : Nat
  s1 : Nat
  n2 : Nat
  s2 : Nat
  reset : Nat
  deriving DecidableEq, Repr

/-- Offsets and instance counts of R632 to R634, reset values of the register tables. -/
def RegKind.row : RegKind → RegRow
  | .CHIP_ID => ⟨0x0, 1, 0x0, 1, 0x0, 0xDA0B4811⟩
  | .TOP_MAP_VER => ⟨0x4, 1, 0x0, 1, 0x0, 0x10000⟩
  | .TOP_SCRATCH => ⟨0x8, 1, 0x0, 1, 0x0, 0x0⟩
  | .CFG_COMMIT => ⟨0x100000, 1, 0x0, 1, 0x0, 0x0⟩
  | .CFG_LDROP => ⟨0x100004, 1, 0x0, 1, 0x0, 0x0⟩
  | .CFG_LDROP_CNT => ⟨0x100008, 1, 0x0, 1, 0x0, 0x0⟩
  | .CFG_SYNC_CTRL => ⟨0x10000C, 1, 0x0, 1, 0x0, 0x0⟩
  | .CFG_SYNC_OFFSET => ⟨0x100010, 1, 0x0, 1, 0x0, 0x0⟩
  | .CFG_SYNC_STAT => ⟨0x100014, 1, 0x0, 1, 0x0, 0x0⟩
  | .CFG_STATE => ⟨0x100040, 8, 0x4, 1, 0x0, 0x0⟩
  | .CFG_TARGET => ⟨0x100060, 8, 0x4, 1, 0x0, 0x0⟩
  | .CFG_REJECT => ⟨0x100080, 8, 0x4, 1, 0x0, 0x0⟩
  | .RAS_MASTER => ⟨0x200000, 1, 0x0, 1, 0x0, 0x0⟩
  | .RAS_DISC_CTRL => ⟨0x200004, 1, 0x0, 1, 0x0, 0x2500BB8⟩
  | .RAS_DISC_PARAM => ⟨0x200008, 1, 0x0, 1, 0x0, 0x64001F4⟩
  | .RAS_TSYNC_PERIOD => ⟨0x20000C, 1, 0x0, 1, 0x0, 0x3B9ACA00⟩
  | .RAS_GW_DELAY => ⟨0x200010, 1, 0x0, 1, 0x0, 0x0⟩
  | .RAS_DISC_STAT => ⟨0x200014, 1, 0x0, 1, 0x0, 0x0⟩
  | .RAS_TOD_LO => ⟨0x200018, 1, 0x0, 1, 0x0, 0x0⟩
  | .RAS_TOD_HI => ⟨0x20001C, 1, 0x0, 1, 0x0, 0x0⟩
  | .RAS_TOD_SET_LO => ⟨0x200020, 1, 0x0, 1, 0x0, 0x0⟩
  | .RAS_TOD_SET_HI => ⟨0x200024, 1, 0x0, 1, 0x0, 0x0⟩
  | .RAS_CTRL => ⟨0x200100, 8, 0x40, 1, 0x0, 0x32⟩
  | .RAS_PERIOD => ⟨0x200104, 8, 0x40, 1, 0x0, 0x4B0411A⟩
  | .RAS_PERIOD_FRAC => ⟨0x200108, 8, 0x40, 1, 0x0, 0xAAAAAAAB⟩
  | .RAS_ALIGN => ⟨0x20010C, 8, 0x40, 1, 0x0, 0x3C0003E8⟩
  | .RAS_PHASE => ⟨0x200110, 8, 0x40, 1, 0x0, 0x0⟩
  | .RAS_POS => ⟨0x200118, 8, 0x40, 1, 0x0, 0x0⟩
  | .RAS_FRAME => ⟨0x20011C, 8, 0x40, 1, 0x0, 0x0⟩
  | .RAS_STRM_CFG => ⟨0x201000, 64, 0x40, 1, 0x0, 0x2001800⟩
  | .RAS_STRM_RATIO => ⟨0x201004, 64, 0x40, 1, 0x0, 0x100000⟩
  | .RAS_STRM_TARGET => ⟨0x201008, 64, 0x40, 1, 0x0, 0x0⟩
  | .RAS_TRIG_INIT => ⟨0x20100C, 64, 0x40, 1, 0x0, 0x0⟩
  | .RAS_TRIG_POS => ⟨0x201010, 64, 0x40, 1, 0x0, 0x0⟩
  | .RAS_STRM_STAT => ⟨0x201014, 64, 0x40, 1, 0x0, 0x0⟩
  | .RAS_STRM_SKEW => ⟨0x201018, 64, 0x40, 1, 0x0, 0x0⟩
  | .RAS_STRM_MEAS => ⟨0x20101C, 64, 0x40, 1, 0x0, 0x0⟩
  | .ING_PORT_CTRL => ⟨0x400000, 30, 0x10000, 1, 0x0, 0x1A000000⟩
  | .ING_PORT_STAT => ⟨0x400004, 30, 0x10000, 1, 0x0, 0x0⟩
  | .ING_PORT_CNT0 => ⟨0x400008, 30, 0x10000, 1, 0x0, 0x0⟩
  | .ING_PORT_CNT1 => ⟨0x40000C, 30, 0x10000, 1, 0x0, 0x0⟩
  | .ING_MAP => ⟨0x400100, 30, 0x10000, 8, 0x20, 0x2C00⟩
  | .ING_STRM_FMT => ⟨0x400104, 30, 0x10000, 8, 0x20, 0x2400000⟩
  | .ING_STRM_SIZE => ⟨0x400108, 30, 0x10000, 8, 0x20, 0x4380780⟩
  | .ING_STRM_LEN => ⟨0x40010C, 30, 0x10000, 8, 0x20, 0xB40⟩
  | .ING_STRM_CNT => ⟨0x400110, 30, 0x10000, 8, 0x20, 0x0⟩
  | .ING_STRM_FCNT => ⟨0x400114, 30, 0x10000, 8, 0x20, 0x0⟩
  | .POOL_CTRL => ⟨0x800000, 1, 0x0, 1, 0x0, 0x80002000⟩
  | .POOL_OCC0 => ⟨0x800004, 1, 0x0, 1, 0x0, 0x0⟩
  | .POOL_OCC1 => ⟨0x800008, 1, 0x0, 1, 0x0, 0x40004000⟩
  | .POOL_STAT => ⟨0x80000C, 1, 0x0, 1, 0x0, 0x0⟩
  | .POOL_ECC_CNT => ⟨0x800010, 1, 0x0, 1, 0x0, 0x0⟩
  | .POOL_ECC_REC => ⟨0x800014, 1, 0x0, 1, 0x0, 0x0⟩
  | .POOL_HOST_RESV => ⟨0x800040, 4, 0x4, 1, 0x0, 0x0⟩
  | .POOL_OVF_CLS => ⟨0x800060, 4, 0x4, 1, 0x0, 0x0⟩
  | .POOL_OVF_USE => ⟨0x800080, 4, 0x4, 1, 0x0, 0x0⟩
  | .POOL_RESV => ⟨0x801000, 64, 0x10, 1, 0x0, 0x0⟩
  | .POOL_RESV_MIN => ⟨0x801004, 64, 0x10, 1, 0x0, 0x0⟩
  | .POOL_RESV_STAT => ⟨0x801008, 64, 0x10, 1, 0x0, 0x0⟩
  | .POOL_RESV_CNT => ⟨0x80100C, 64, 0x10, 1, 0x0, 0x0⟩
  | .POOL_PRD_RESV => ⟨0x802000, 255, 0x4, 1, 0x0, 0x0⟩
  | .BLM_CTRL => ⟨0xA00000, 8, 0x20000, 1, 0x0, 0x0⟩
  | .BLM_STAT => ⟨0xA00004, 8, 0x20000, 1, 0x0, 0x80000000⟩
  | .BLM_FAST_LOAD => ⟨0xA00008, 8, 0x20000, 1, 0x0, 0x0⟩
  | .BLM_CNT0 => ⟨0xA0000C, 8, 0x20000, 1, 0x0, 0x0⟩
  | .BLM_CNT1 => ⟨0xA00010, 8, 0x20000, 1, 0x0, 0x0⟩
  | .BLM_TF_CTRL => ⟨0xB00000, 1, 0x0, 1, 0x0, 0x80000000⟩
  | .BLM_TF_STAT => ⟨0xB00004, 1, 0x0, 1, 0x0, 0x0⟩
  | .BLM_HASH_SEED_LO => ⟨0xB00008, 1, 0x0, 1, 0x0, 0x0⟩
  | .BLM_HASH_SEED_HI => ⟨0xB0000C, 1, 0x0, 1, 0x0, 0x9E3779B1⟩
  | .BLM_HASH_CTRL => ⟨0xB00010, 1, 0x0, 1, 0x0, 0x1⟩
  | .BLM_HASH_PROBE => ⟨0xB00014, 1, 0x0, 1, 0x0, 0x0⟩
  | .BLM_HASH_PROBE_OUT => ⟨0xB00018, 1, 0x0, 1, 0x0, 0x0⟩
  | .BLM_FAST_CTRL => ⟨0xB0001C, 1, 0x0, 1, 0x0, 0x18⟩
  | .BLM_SLACK => ⟨0xB00020, 1, 0x0, 1, 0x0, 0xFF802010⟩
  | .BLM_XSTEAL => ⟨0xB00024, 1, 0x0, 1, 0x0, 0x80000414⟩
  | .BLM_XSTEAL_STAT => ⟨0xB00028, 1, 0x0, 1, 0x0, 0x0⟩
  | .BLM_MISS_REC0 => ⟨0xB0002C, 1, 0x0, 1, 0x0, 0x0⟩
  | .BLM_MISS_REC1 => ⟨0xB00030, 1, 0x0, 1, 0x0, 0x0⟩
  | .PRD_REJECT => ⟨0xC00000, 1, 0x0, 1, 0x0, 0x0⟩
  | .PRD_STATE => ⟨0xC01000, 255, 0x10, 1, 0x0, 0x0⟩
  | .PRD_FOOT => ⟨0xC01004, 255, 0x10, 1, 0x0, 0x0⟩
  | .PRD_COST => ⟨0xC01008, 255, 0x10, 1, 0x0, 0x0⟩
  | .PRD_FRAME => ⟨0xC0100C, 255, 0x10, 1, 0x0, 0x0⟩
  | .SEAL_ACC_CTRL => ⟨0x1000000, 1, 0x0, 1, 0x0, 0x0⟩
  | .SEAL_ACC_DATA => ⟨0x1000010, 4, 0x4, 1, 0x0, 0x0⟩
  | .SEAL_FAIL_CNT0 => ⟨0x1000040, 1, 0x0, 1, 0x0, 0x0⟩
  | .SEAL_FAIL_CNT1 => ⟨0x1000044, 1, 0x0, 1, 0x0, 0x0⟩
  | .SEAL_FAIL_CNT2 => ⟨0x1000048, 1, 0x0, 1, 0x0, 0x0⟩
  | .SEAL_FAIL_REC0 => ⟨0x1000060, 1, 0x0, 1, 0x0, 0x0⟩
  | .SEAL_FAIL_REC1 => ⟨0x1000064, 1, 0x0, 1, 0x0, 0x0⟩
  | .SEAL_FAIL_REC2 => ⟨0x1000068, 1, 0x0, 1, 0x0, 0x0⟩
  | .SEAL_FAIL_REC3 => ⟨0x100006C, 1, 0x0, 1, 0x0, 0x0⟩
  | .SEAL_FAIL_REC4 => ⟨0x1000070, 1, 0x0, 1, 0x0, 0x0⟩
  | .SEAL_E2E_PROF => ⟨0x1000100, 4, 0x10, 1, 0x0, 0x20000008⟩
  | .SEAL_E2E_POLY => ⟨0x1000104, 4, 0x10, 1, 0x0, 0x1D⟩
  | .SEAL_E2E_INIT => ⟨0x1000108, 4, 0x10, 1, 0x0, 0xFF⟩
  | .SEAL_E2E_XOR => ⟨0x100010C, 4, 0x10, 1, 0x0, 0xFF⟩
  | .FST_CTRL => ⟨0x1100000, 1, 0x0, 1, 0x0, 0x805F0018⟩
  | .FST_STAT => ⟨0x1100004, 1, 0x0, 1, 0x0, 0x0⟩
  | .FST_HASH_CTRL => ⟨0x1100008, 1, 0x0, 1, 0x0, 0x1⟩
  | .FST_HASH_SX => ⟨0x110000C, 1, 0x0, 1, 0x0, 0x0⟩
  | .FST_HASH_SM => ⟨0x1100010, 1, 0x0, 1, 0x0, 0x9E377⟩
  | .FST_PROBE_IN => ⟨0x1100014, 1, 0x0, 1, 0x0, 0x0⟩
  | .FST_PROBE_OUT => ⟨0x1100018, 1, 0x0, 1, 0x0, 0x0⟩
  | .FST_SYS_FREE => ⟨0x110001C, 1, 0x0, 1, 0x0, 0x0⟩
  | .FST_ECC_CNT => ⟨0x1100020, 1, 0x0, 1, 0x0, 0x0⟩
  | .FST_CNT => ⟨0x1100024, 1, 0x0, 1, 0x0, 0x0⟩
  | .FST_ECC_REC0 => ⟨0x1100028, 1, 0x0, 1, 0x0, 0x0⟩
  | .FST_ECC_REC1 => ⟨0x110002C, 1, 0x0, 1, 0x0, 0x0⟩
  | .FST_RGN => ⟨0x1100100, 64, 0x4, 1, 0x0, 0x0⟩
  | .GWP_CTRL => ⟨0x1200000, 1, 0x0, 1, 0x0, 0x883203E8⟩
  | .GWP_STAT => ⟨0x1200004, 1, 0x0, 1, 0x0, 0x0⟩
  | .GWP_FAR => ⟨0x1200008, 1, 0x0, 1, 0x0, 0x0⟩
  | .GWP_LANE_CTRL => ⟨0x1200100, 8, 0x20, 1, 0x0, 0xD00000⟩
  | .GWP_LANE_STAT => ⟨0x1200104, 8, 0x20, 1, 0x0, 0x0⟩
  | .GWP_LANE_EQ => ⟨0x1200108, 8, 0x20, 1, 0x0, 0x0⟩
  | .GWP_LANE_CNT0 => ⟨0x120010C, 8, 0x20, 1, 0x0, 0x0⟩
  | .GWP_LANE_CNT1 => ⟨0x1200110, 8, 0x20, 1, 0x0, 0x0⟩
  | .GWL_CTRL => ⟨0x1210000, 1, 0x0, 1, 0x0, 0x804803E8⟩
  | .GWL_STAT => ⟨0x1210004, 1, 0x0, 1, 0x0, 0x0⟩
  | .GWL_EPOCH_TX => ⟨0x1210008, 1, 0x0, 1, 0x0, 0x0⟩
  | .GWL_EPOCH_RX => ⟨0x121000C, 1, 0x0, 1, 0x0, 0x0⟩
  | .GWL_LAT => ⟨0x1210010, 1, 0x0, 1, 0x0, 0x60⟩
  | .GWL_CNT0 => ⟨0x1210014, 1, 0x0, 1, 0x0, 0x0⟩
  | .GWL_CNT1 => ⟨0x1210018, 1, 0x0, 1, 0x0, 0x0⟩
  | .GWL_CNT2 => ⟨0x121001C, 1, 0x0, 1, 0x0, 0x0⟩
  | .GWL_CNT3 => ⟨0x1210020, 1, 0x0, 1, 0x0, 0x0⟩
  | .GWL_CNT4 => ⟨0x1210024, 1, 0x0, 1, 0x0, 0x0⟩
  | .GWL_CNT5 => ⟨0x1210028, 1, 0x0, 1, 0x0, 0x0⟩
  | .GWL_PROTO_REC => ⟨0x121002C, 1, 0x0, 1, 0x0, 0x0⟩
  | .GWL_CRED => ⟨0x1210080, 4, 0x4, 1, 0x0, 0x0⟩
  | .HQE_CTRL => ⟨0x1400000, 1, 0x0, 1, 0x0, 0x8000⟩
  | .HQE_ADMIN_CFG => ⟨0x1400004, 1, 0x0, 1, 0x0, 0x1⟩
  | .HQE_ASUB_LO => ⟨0x1400008, 1, 0x0, 1, 0x0, 0x0⟩
  | .HQE_ASUB_HI => ⟨0x140000C, 1, 0x0, 1, 0x0, 0x0⟩
  | .HQE_ACMP_LO => ⟨0x1400010, 1, 0x0, 1, 0x0, 0x0⟩
  | .HQE_ACMP_HI => ⟨0x1400014, 1, 0x0, 1, 0x0, 0x0⟩
  | .HQE_STAT => ⟨0x1400018, 1, 0x0, 1, 0x0, 0x0⟩
  | .HQE_CNT0 => ⟨0x140001C, 1, 0x0, 1, 0x0, 0x0⟩
  | .HQE_CNT1 => ⟨0x1400020, 1, 0x0, 1, 0x0, 0x0⟩
  | .HQE_ERR_REC0 => ⟨0x1400024, 1, 0x0, 1, 0x0, 0x0⟩
  | .HQE_ERR_REC1 => ⟨0x1400028, 1, 0x0, 1, 0x0, 0x0⟩
  | .HQE_ERR_REC2 => ⟨0x140002C, 1, 0x0, 1, 0x0, 0x0⟩
  | .HQE_WIN0 => ⟨0x1400100, 8, 0x10, 1, 0x0, 0x0⟩
  | .HQE_WIN1 => ⟨0x1400104, 8, 0x10, 1, 0x0, 0x0⟩
  | .HQE_WIN2 => ⟨0x1400108, 8, 0x10, 1, 0x0, 0x0⟩
  | .DEG_PORT_CTRL => ⟨0x1C00000, 4, 0x1000, 1, 0x0, 0x6000000⟩
  | .DEG_VTIMING0 => ⟨0x1C00004, 4, 0x1000, 1, 0x0, 0x4650438⟩
  | .DEG_VTIMING1 => ⟨0x1C00008, 4, 0x1000, 1, 0x0, 0x5240000⟩
  | .DEG_HTIMING0 => ⟨0x1C0000C, 4, 0x1000, 1, 0x0, 0x8980780⟩
  | .DEG_HTIMING1 => ⟨0x1C00010, 4, 0x1000, 1, 0x0, 0x2C940000⟩
  | .DEG_PORT_STAT => ⟨0x1C00014, 4, 0x1000, 1, 0x0, 0x0⟩
  | .DEG_LAYER_CFG => ⟨0x1C00100, 4, 0x1000, 4, 0x10, 0x10FF0000⟩
  | .DEG_LAYER_POS => ⟨0x1C00104, 4, 0x1000, 4, 0x10, 0x0⟩
  | .DEG_LAYER_SIZE => ⟨0x1C00108, 4, 0x1000, 4, 0x10, 0x0⟩
  | .DEG_LAYER_CNT => ⟨0x1C0010C, 4, 0x1000, 4, 0x10, 0x0⟩
  | .MGD_CTRL => ⟨0x1D00000, 1, 0x0, 1, 0x0, 0x0⟩
  | .MGD_LOG_CI => ⟨0x1D00004, 1, 0x0, 1, 0x0, 0x0⟩
  | .MGD_LOG_STAT => ⟨0x1D00008, 1, 0x0, 1, 0x0, 0x0⟩
  | .MGD_LOG_CNT => ⟨0x1D0000C, 1, 0x0, 1, 0x0, 0x0⟩
  | .MGD_BANK_STAT => ⟨0x1D00020, 2, 0x4, 1, 0x0, 0x0⟩
  | .MGD_PORT_CTRL => ⟨0x1D00100, 4, 0x10, 1, 0x0, 0x30000⟩
  | .MGD_PORT_LINES => ⟨0x1D00104, 4, 0x10, 1, 0x0, 0x100008⟩
  | .MGD_SLOT_CFG => ⟨0x1D01000, 32, 0x10, 1, 0x0, 0x0⟩
  | .MGD_SLOT_POS => ⟨0x1D01004, 32, 0x10, 1, 0x0, 0x0⟩
  | .MGD_SLOT_RB => ⟨0x1D01008, 32, 0x10, 1, 0x0, 0x20000000⟩
  | .MGD_TT_CFG => ⟨0x1D02000, 64, 0x20, 1, 0x0, 0x10000⟩
  | .MGD_TT_IMG => ⟨0x1D02004, 64, 0x20, 1, 0x0, 0x0⟩
  | .MGD_TT_STAT => ⟨0x1D02008, 64, 0x20, 1, 0x0, 0x0⟩
  | .MGD_TT_CNT0 => ⟨0x1D0200C, 64, 0x20, 1, 0x0, 0x0⟩
  | .MGD_TT_CNT1 => ⟨0x1D02010, 64, 0x20, 1, 0x0, 0x0⟩
  | .VBR_CTRL => ⟨0x2000000, 1, 0x0, 1, 0x0, 0x20A⟩
  | .VBR_LVT_CTRL => ⟨0x2000004, 1, 0x0, 1, 0x0, 0x3C⟩
  | .VBR_LVT_BASE_LO => ⟨0x2000008, 1, 0x0, 1, 0x0, 0x0⟩
  | .VBR_LVT_BASE_HI => ⟨0x200000C, 1, 0x0, 1, 0x0, 0x0⟩
  | .VBR_STAT => ⟨0x2000010, 1, 0x0, 1, 0x0, 0x0⟩
  | .VBR_CNT0 => ⟨0x2000014, 1, 0x0, 1, 0x0, 0x0⟩
  | .VBR_CNT1 => ⟨0x2000018, 1, 0x0, 1, 0x0, 0x0⟩
  | .VBR_CNT2 => ⟨0x200001C, 1, 0x0, 1, 0x0, 0x0⟩
  | .VBR_LATE_REC0 => ⟨0x2000020, 1, 0x0, 1, 0x0, 0x0⟩
  | .VBR_LATE_REC1 => ⟨0x2000024, 1, 0x0, 1, 0x0, 0x0⟩
  | .VBR_TBL_ACC => ⟨0x2000028, 1, 0x0, 1, 0x0, 0x0⟩
  | .VBR_TBL_DATA => ⟨0x2000040, 8, 0x4, 1, 0x0, 0x0⟩
  | .VBR_CAN_CTRL => ⟨0x2000100, 4, 0x20, 1, 0x0, 0x30000000⟩
  | .VBR_CAN_NBT => ⟨0x2000104, 4, 0x20, 1, 0x0, 0x3F1F3E0⟩
  | .VBR_CAN_DBT => ⟨0x2000108, 4, 0x20, 1, 0x0, 0x79DC000⟩
  | .VBR_CAN_STAT => ⟨0x200010C, 4, 0x20, 1, 0x0, 0xC0000000⟩
  | .VBR_CAN_CNT => ⟨0x2000110, 4, 0x20, 1, 0x0, 0x0⟩
  | .VBR_RPORT => ⟨0x2000200, 32, 0x4, 1, 0x0, 0x4000000A⟩
  | .VBR_RSLOT => ⟨0x2000400, 28, 0x10, 4, 0x4, 0x40000000⟩
  | .SMB0_CTRL => ⟨0x2100000, 1, 0x0, 1, 0x0, 0x3F000180⟩
  | .SMB0_STAT => ⟨0x2100004, 1, 0x0, 1, 0x0, 0x0⟩
  | .SMB0_CNT => ⟨0x2100008, 1, 0x0, 1, 0x0, 0x0⟩
  | .SMB0_ALERT => ⟨0x210000C, 1, 0x0, 1, 0x0, 0x0⟩
  | .SMB1_CTRL => ⟨0x2100010, 1, 0x0, 1, 0x0, 0xB3000000⟩
  | .SMB1_XFER => ⟨0x2100014, 1, 0x0, 1, 0x0, 0x20000000⟩
  | .SMB1_STAT => ⟨0x2100018, 1, 0x0, 1, 0x0, 0x0⟩
  | .SMB1_CNT => ⟨0x210001C, 1, 0x0, 1, 0x0, 0x0⟩
  | .SMB1_DATA => ⟨0x2100020, 4, 0x4, 1, 0x0, 0x0⟩
  | .FCL_CTRL => ⟨0x2200000, 1, 0x0, 1, 0x0, 0x0⟩
  | .FCL_SAFE => ⟨0x2200004, 1, 0x0, 1, 0x0, 0x0⟩
  | .FCL_STATUS_LO => ⟨0x2200008, 1, 0x0, 1, 0x0, 0x0⟩
  | .FCL_STATUS_HI => ⟨0x220000C, 1, 0x0, 1, 0x0, 0x0⟩
  | .FCL_LIVE_LO => ⟨0x2200010, 1, 0x0, 1, 0x0, 0x0⟩
  | .FCL_LIVE_HI => ⟨0x2200014, 1, 0x0, 1, 0x0, 0x0⟩
  | .FCL_COINC_LO => ⟨0x2200018, 1, 0x0, 1, 0x0, 0x0⟩
  | .FCL_COINC_HI => ⟨0x220001C, 1, 0x0, 1, 0x0, 0x0⟩
  | .FCL_REACT => ⟨0x2200020, 1, 0x0, 1, 0x0, 0x34⟩
  | .FCL_FF0 => ⟨0x2200040, 1, 0x0, 1, 0x0, 0x0⟩
  | .FCL_FF1 => ⟨0x2200044, 1, 0x0, 1, 0x0, 0x0⟩
  | .FCL_FF2 => ⟨0x2200048, 1, 0x0, 1, 0x0, 0x0⟩
  | .FCL_FF3 => ⟨0x220004C, 1, 0x0, 1, 0x0, 0x0⟩
  | .FCL_FF4 => ⟨0x2200050, 1, 0x0, 1, 0x0, 0x0⟩
  | .FCL_FF5 => ⟨0x2200054, 1, 0x0, 1, 0x0, 0x0⟩
  | .FCL_SEV => ⟨0x2200080, 4, 0x4, 1, 0x0, 0x0⟩
  | .FCL_CNT => ⟨0x2200100, 16, 0x4, 1, 0x0, 0x0⟩
  | .LUP_CTRL => ⟨0x2201000, 1, 0x0, 1, 0x0, 0x0⟩
  | .LUP_MARK => ⟨0x2201004, 1, 0x0, 1, 0x0, 0x0⟩
  | .LUP_STAT => ⟨0x2201008, 1, 0x0, 1, 0x0, 0x0⟩
  | .LUP_SEQ => ⟨0x220100C, 1, 0x0, 1, 0x0, 0x0⟩
  | .LUP_CNT => ⟨0x2201010, 1, 0x0, 1, 0x0, 0x0⟩
  | .FIJ_STAT => ⟨0x2202000, 1, 0x0, 1, 0x0, 0x0⟩
  | .FIJ_CTRL => ⟨0x2202100, 8, 0x10, 1, 0x0, 0x1000⟩
  | .FIJ_PAT => ⟨0x2202104, 8, 0x10, 1, 0x0, 0x1000000⟩
  | .FIJ_TRIG => ⟨0x2202108, 8, 0x10, 1, 0x0, 0x0⟩
  | .SEC_CTRL => ⟨0x2300000, 1, 0x0, 1, 0x0, 0x0⟩
  | .SEC_BOOT_STAT => ⟨0x2300004, 1, 0x0, 1, 0x0, 0x0⟩
  | .SEC_BOOT_CNT => ⟨0x2300008, 1, 0x0, 1, 0x0, 0x0⟩
  | .SEC_BOOT_NONCE => ⟨0x230000C, 1, 0x0, 1, 0x0, 0x0⟩
  | .SEC_OP_CTRL => ⟨0x2300010, 1, 0x0, 1, 0x0, 0x0⟩
  | .SEC_OP_STAT => ⟨0x2300014, 1, 0x0, 1, 0x0, 0x0⟩
  | .SEC_UNLOCK => ⟨0x2300018, 1, 0x0, 1, 0x0, 0x0⟩
  | .SEC_KEY_STAT => ⟨0x230001C, 1, 0x0, 1, 0x0, 0x0⟩
  | .SEC_ATT_NONCE => ⟨0x2300040, 16, 0x4, 1, 0x0, 0x0⟩
  | .SEC_ARB => ⟨0x2300080, 16, 0x4, 1, 0x0, 0x0⟩
  | .EGV_CTRL => ⟨0x2400000, 1, 0x0, 1, 0x0, 0x82100800⟩
  | .EGV_BUDGET => ⟨0x2400004, 1, 0x0, 1, 0x0, 0x6D6036B0⟩
  | .EGV_OTHER => ⟨0x2400008, 1, 0x0, 1, 0x0, 0x3E8⟩
  | .EGV_COST0 => ⟨0x240000C, 1, 0x0, 1, 0x0, 0x20181008⟩
  | .EGV_COST1 => ⟨0x2400010, 1, 0x0, 1, 0x0, 0x20003028⟩
  | .EGV_THERM => ⟨0x2400014, 1, 0x0, 1, 0x0, 0x7D7D7332⟩
  | .EGV_CLK => ⟨0x2400018, 1, 0x0, 1, 0x0, 0x3010⟩
  | .EGV_STAT => ⟨0x240001C, 1, 0x0, 1, 0x0, 0x0⟩
  | .EGV_GRANT => ⟨0x2400020, 1, 0x0, 1, 0x0, 0x0⟩
  | .EGV_DEMAND => ⟨0x2400024, 1, 0x0, 1, 0x0, 0x0⟩
  | .EGV_AVS => ⟨0x2400028, 1, 0x0, 1, 0x0, 0xE1⟩
  | .EGV_BAL => ⟨0x2400040, 8, 0x4, 1, 0x0, 0x0⟩
  | .EGV_BLOOM => ⟨0x2400060, 8, 0x4, 1, 0x0, 0x30000000⟩
  | .EGV_TEMP => ⟨0x2400080, 12, 0x4, 1, 0x0, 0x0⟩
  | .EGV_AGE => ⟨0x24000C0, 16, 0x4, 1, 0x0, 0x0⟩
  | .PMU_CTRL => ⟨0x2401000, 1, 0x0, 1, 0x0, 0x40000000⟩
  | .PMU_OVF => ⟨0x2401004, 1, 0x0, 1, 0x0, 0x0⟩
  | .PMU_CYC_LO => ⟨0x2401008, 1, 0x0, 1, 0x0, 0x0⟩
  | .PMU_CYC_HI => ⟨0x240100C, 1, 0x0, 1, 0x0, 0x0⟩
  | .PMU_SNAP_CTRL => ⟨0x2401010, 1, 0x0, 1, 0x0, 0x0⟩
  | .PMU_SNAP_SEQ => ⟨0x2401014, 1, 0x0, 1, 0x0, 0x0⟩
  | .PMU_SNAP_CYC_LO => ⟨0x2401018, 1, 0x0, 1, 0x0, 0x0⟩
  | .PMU_SNAP_CYC_HI => ⟨0x240101C, 1, 0x0, 1, 0x0, 0x0⟩
  | .PMU_SAMP_CTRL => ⟨0x2401020, 1, 0x0, 1, 0x0, 0x60001000⟩
  | .PMU_SAMP_FILT => ⟨0x2401024, 1, 0x0, 1, 0x0, 0x0⟩
  | .PMU_SAMP_STAT => ⟨0x2401028, 1, 0x0, 1, 0x0, 0x0⟩
  | .PMU_CFG => ⟨0x2401040, 8, 0x4, 1, 0x0, 0x0⟩
  | .PMU_CTR_LO => ⟨0x2401080, 8, 0x10, 1, 0x0, 0x0⟩
  | .PMU_CTR_HI => ⟨0x2401084, 8, 0x10, 1, 0x0, 0x0⟩
  | .PMU_SNAP_LO => ⟨0x2401088, 8, 0x10, 1, 0x0, 0x0⟩
  | .PMU_SNAP_HI => ⟨0x240108C, 8, 0x10, 1, 0x0, 0x0⟩

/-! CHIP_ID: R2, 00_scope.md. -/
def F.CHIP_ID.VENDOR : Fld := ⟨.CHIP_ID, 31, 20, .ro, .n⟩
def F.CHIP_ID.PART : Fld := ⟨.CHIP_ID, 19, 8, .ro, .n⟩
def F.CHIP_ID.STEP : Fld := ⟨.CHIP_ID, 7, 0, .ro, .n⟩
/-! TOP_MAP_VER: R637, 20_register_map.md. -/
def F.TOP_MAP_VER.MAJOR : Fld := ⟨.TOP_MAP_VER, 31, 16, .ro, .n⟩
def F.TOP_MAP_VER.MINOR : Fld := ⟨.TOP_MAP_VER, 15, 0, .ro, .n⟩
/-! TOP_SCRATCH: R638, 20_register_map.md. -/
def F.TOP_SCRATCH.VALUE : Fld := ⟨.TOP_SCRATCH, 31, 0, .rw, .n⟩
/-! CFG_COMMIT: R54, 02_configuration_model.md. -/
def F.CFG_COMMIT.DISCARD : Fld := ⟨.CFG_COMMIT, 15, 8, .wo, .n⟩
def F.CFG_COMMIT.COMMIT : Fld := ⟨.CFG_COMMIT, 7, 0, .wo, .n⟩
/-! CFG_LDROP: R58, 02_configuration_model.md. -/
def F.CFG_LDROP.VALID : Fld := ⟨.CFG_LDROP, 31, 31, .w1c, .n⟩
def F.CFG_LDROP.PATH : Fld := ⟨.CFG_LDROP, 27, 26, .ro, .n⟩
def F.CFG_LDROP.OFFSET : Fld := ⟨.CFG_LDROP, 25, 0, .ro, .n⟩
/-! CFG_LDROP_CNT: R58, 02_configuration_model.md. -/
def F.CFG_LDROP_CNT.COUNT : Fld := ⟨.CFG_LDROP_CNT, 15, 0, .w1cn, .n⟩
/-! CFG_SYNC_CTRL: R59, 02_configuration_model.md. -/
def F.CFG_SYNC_CTRL.EN : Fld := ⟨.CFG_SYNC_CTRL, 31, 31, .rw, .n⟩
def F.CFG_SYNC_CTRL.ROLE : Fld := ⟨.CFG_SYNC_CTRL, 1, 0, .rw, .l⟩
/-! CFG_SYNC_OFFSET: R59, 02_configuration_model.md. -/
def F.CFG_SYNC_OFFSET.OFFSET : Fld := ⟨.CFG_SYNC_OFFSET, 19, 0, .rw, .l⟩
/-! CFG_SYNC_STAT: R59, 02_configuration_model.md. -/
def F.CFG_SYNC_STAT.LOCKED : Fld := ⟨.CFG_SYNC_STAT, 31, 31, .ro, .n⟩
def F.CFG_SYNC_STAT.CRC_ERR : Fld := ⟨.CFG_SYNC_STAT, 30, 30, .w1c, .n⟩
def F.CFG_SYNC_STAT.LAST_FRAME : Fld := ⟨.CFG_SYNC_STAT, 15, 0, .ro, .n⟩
/-! CFG_STATE: R55, 02_configuration_model.md. -/
def F.CFG_STATE.GEN : Fld := ⟨.CFG_STATE, 31, 16, .ro, .n⟩
def F.CFG_STATE.REJ_CNT : Fld := ⟨.CFG_STATE, 15, 8, .ro, .n⟩
def F.CFG_STATE.DEFERRED : Fld := ⟨.CFG_STATE, 4, 4, .w1c, .n⟩
def F.CFG_STATE.REFUSED : Fld := ⟨.CFG_STATE, 3, 3, .w1c, .n⟩
def F.CFG_STATE.OPEN_DIRTY : Fld := ⟨.CFG_STATE, 2, 2, .ro, .n⟩
def F.CFG_STATE.STATE : Fld := ⟨.CFG_STATE, 1, 0, .ro, .n⟩
/-! CFG_TARGET: R56, 02_configuration_model.md. -/
def F.CFG_TARGET.EN : Fld := ⟨.CFG_TARGET, 31, 31, .rw, .n⟩
def F.CFG_TARGET.FRAME : Fld := ⟨.CFG_TARGET, 15, 0, .rw, .n⟩
/-! CFG_REJECT: R57, 02_configuration_model.md. -/
def F.CFG_REJECT.REJECTED : Fld := ⟨.CFG_REJECT, 31, 31, .w1c, .n⟩
def F.CFG_REJECT.RULE : Fld := ⟨.CFG_REJECT, 25, 16, .ro, .n⟩
def F.CFG_REJECT.INSTANCE : Fld := ⟨.CFG_REJECT, 15, 0, .ro, .n⟩
/-! RAS_MASTER: R91, 03_rasters_and_line_time.md. -/
def F.RAS_MASTER.MASTER : Fld := ⟨.RAS_MASTER, 2, 0, .rw, .l⟩
/-! RAS_DISC_CTRL: R92, 03_rasters_and_line_time.md. -/
def F.RAS_DISC_CTRL.SRC : Fld := ⟨.RAS_DISC_CTRL, 31, 30, .rw, .s⟩
def F.RAS_DISC_CTRL.KP_SHIFT : Fld := ⟨.RAS_DISC_CTRL, 27, 24, .rw, .s⟩
def F.RAS_DISC_CTRL.KI_SHIFT : Fld := ⟨.RAS_DISC_CTRL, 23, 20, .rw, .s⟩
def F.RAS_DISC_CTRL.TIMEOUT_MS : Fld := ⟨.RAS_DISC_CTRL, 15, 0, .rw, .s⟩
/-! RAS_DISC_PARAM: R92, 03_rasters_and_line_time.md. -/
def F.RAS_DISC_PARAM.STEP_US : Fld := ⟨.RAS_DISC_PARAM, 31, 20, .rw, .s⟩
def F.RAS_DISC_PARAM.LOCK_NS : Fld := ⟨.RAS_DISC_PARAM, 15, 0, .rw, .s⟩
/-! RAS_TSYNC_PERIOD: R93, 03_rasters_and_line_time.md. -/
def F.RAS_TSYNC_PERIOD.PERIOD_NS : Fld := ⟨.RAS_TSYNC_PERIOD, 31, 0, .rw, .s⟩
/-! RAS_GW_DELAY: R93, 03_rasters_and_line_time.md. -/
def F.RAS_GW_DELAY.DELAY_NS : Fld := ⟨.RAS_GW_DELAY, 15, 0, .rw, .s⟩
/-! RAS_DISC_STAT: R94, 03_rasters_and_line_time.md. -/
def F.RAS_DISC_STAT.LOCKED : Fld := ⟨.RAS_DISC_STAT, 31, 31, .ro, .n⟩
def F.RAS_DISC_STAT.HOLDOVER : Fld := ⟨.RAS_DISC_STAT, 30, 30, .ro, .n⟩
def F.RAS_DISC_STAT.STEPPED : Fld := ⟨.RAS_DISC_STAT, 29, 29, .w1c, .n⟩
def F.RAS_DISC_STAT.TRIM : Fld := ⟨.RAS_DISC_STAT, 23, 0, .ro, .n⟩
/-! RAS_TOD_LO: R95, 03_rasters_and_line_time.md. -/
def F.RAS_TOD_LO.TOD : Fld := ⟨.RAS_TOD_LO, 31, 0, .ro, .n⟩
/-! RAS_TOD_HI: R95, 03_rasters_and_line_time.md. -/
def F.RAS_TOD_HI.TOD : Fld := ⟨.RAS_TOD_HI, 31, 0, .ro, .n⟩
/-! RAS_TOD_SET_LO: R96, 03_rasters_and_line_time.md. -/
def F.RAS_TOD_SET_LO.SET : Fld := ⟨.RAS_TOD_SET_LO, 31, 0, .wo, .n⟩
/-! RAS_TOD_SET_HI: R96, 03_rasters_and_line_time.md. -/
def F.RAS_TOD_SET_HI.SET : Fld := ⟨.RAS_TOD_SET_HI, 31, 0, .wo, .n⟩
/-! RAS_CTRL: R87, 03_rasters_and_line_time.md. -/
def F.RAS_CTRL.RUN : Fld := ⟨.RAS_CTRL, 31, 31, .rw, .n⟩
def F.RAS_CTRL.WAIT : Fld := ⟨.RAS_CTRL, 30, 30, .rw, .s⟩
def F.RAS_CTRL.ALIGN_MODE : Fld := ⟨.RAS_CTRL, 9, 8, .rw, .s⟩
def F.RAS_CTRL.SLEW_MAX : Fld := ⟨.RAS_CTRL, 7, 0, .rw, .s⟩
/-! RAS_PERIOD: R88, 03_rasters_and_line_time.md. -/
def F.RAS_PERIOD.LINES : Fld := ⟨.RAS_PERIOD, 31, 16, .rw, .s⟩
def F.RAS_PERIOD.INT : Fld := ⟨.RAS_PERIOD, 15, 0, .rw, .s⟩
/-! RAS_PERIOD_FRAC: R88, 03_rasters_and_line_time.md. -/
def F.RAS_PERIOD_FRAC.FRAC : Fld := ⟨.RAS_PERIOD_FRAC, 31, 0, .rw, .s⟩
/-! RAS_ALIGN: R89, 03_rasters_and_line_time.md. -/
def F.RAS_ALIGN.FRAMES : Fld := ⟨.RAS_ALIGN, 31, 24, .rw, .s⟩
def F.RAS_ALIGN.PERIOD_MS : Fld := ⟨.RAS_ALIGN, 15, 0, .rw, .s⟩
/-! RAS_PHASE: R89, 03_rasters_and_line_time.md. -/
def F.RAS_PHASE.PHASE_NS : Fld := ⟨.RAS_PHASE, 31, 0, .rw, .s⟩
/-! RAS_POS: R90, 03_rasters_and_line_time.md. -/
def F.RAS_POS.LINE : Fld := ⟨.RAS_POS, 31, 16, .ro, .n⟩
def F.RAS_POS.FRAC : Fld := ⟨.RAS_POS, 15, 8, .ro, .n⟩
def F.RAS_POS.RUNNING : Fld := ⟨.RAS_POS, 7, 7, .ro, .n⟩
def F.RAS_POS.PH_LOCK : Fld := ⟨.RAS_POS, 6, 6, .ro, .n⟩
def F.RAS_POS.JUMPED : Fld := ⟨.RAS_POS, 5, 5, .w1c, .n⟩
/-! RAS_FRAME: R90, 03_rasters_and_line_time.md. -/
def F.RAS_FRAME.FRAME : Fld := ⟨.RAS_FRAME, 31, 0, .ro, .n⟩
/-! RAS_STRM_CFG: R97, 03_rasters_and_line_time.md. -/
def F.RAS_STRM_CFG.EN : Fld := ⟨.RAS_STRM_CFG, 31, 31, .rw, .l⟩
def F.RAS_STRM_CFG.RASTER : Fld := ⟨.RAS_STRM_CFG, 30, 28, .rw, .l⟩
def F.RAS_STRM_CFG.TRIG_MODE : Fld := ⟨.RAS_STRM_CFG, 27, 26, .rw, .l⟩
def F.RAS_STRM_CFG.GAIN : Fld := ⟨.RAS_STRM_CFG, 25, 24, .rw, .s⟩
def F.RAS_STRM_CFG.OWNER : Fld := ⟨.RAS_STRM_CFG, 23, 18, .rw, .l⟩
def F.RAS_STRM_CFG.TRIG_IDX : Fld := ⟨.RAS_STRM_CFG, 17, 16, .rw, .l⟩
def F.RAS_STRM_CFG.DIV : Fld := ⟨.RAS_STRM_CFG, 15, 12, .rw, .s⟩
def F.RAS_STRM_CFG.UNLOCK_LIM : Fld := ⟨.RAS_STRM_CFG, 11, 8, .rw, .s⟩
/-! RAS_STRM_RATIO: R98, 03_rasters_and_line_time.md. -/
def F.RAS_STRM_RATIO.RATIO : Fld := ⟨.RAS_STRM_RATIO, 23, 0, .rw, .s⟩
/-! RAS_STRM_TARGET: R98, 03_rasters_and_line_time.md. -/
def F.RAS_STRM_TARGET.TARGET0 : Fld := ⟨.RAS_STRM_TARGET, 31, 16, .rw, .s⟩
def F.RAS_STRM_TARGET.REF_LINE : Fld := ⟨.RAS_STRM_TARGET, 15, 0, .rw, .s⟩
/-! RAS_TRIG_INIT: R99, 03_rasters_and_line_time.md. -/
def F.RAS_TRIG_INIT.INIT : Fld := ⟨.RAS_TRIG_INIT, 23, 0, .rw, .s⟩
/-! RAS_TRIG_POS: R99, 03_rasters_and_line_time.md. -/
def F.RAS_TRIG_POS.POS : Fld := ⟨.RAS_TRIG_POS, 23, 0, .ro, .n⟩
/-! RAS_STRM_STAT: R100, 03_rasters_and_line_time.md. -/
def F.RAS_STRM_STAT.STATE : Fld := ⟨.RAS_STRM_STAT, 31, 30, .ro, .n⟩
def F.RAS_STRM_STAT.RATIO_ERR : Fld := ⟨.RAS_STRM_STAT, 29, 29, .ro, .n⟩
def F.RAS_STRM_STAT.LOST : Fld := ⟨.RAS_STRM_STAT, 28, 28, .w1c, .n⟩
def F.RAS_STRM_STAT.MISSED : Fld := ⟨.RAS_STRM_STAT, 27, 27, .w1c, .n⟩
def F.RAS_STRM_STAT.IN_WIN : Fld := ⟨.RAS_STRM_STAT, 26, 24, .ro, .n⟩
def F.RAS_STRM_STAT.UNLOCKED : Fld := ⟨.RAS_STRM_STAT, 23, 16, .ro, .n⟩
def F.RAS_STRM_STAT.MISS_CNT : Fld := ⟨.RAS_STRM_STAT, 15, 0, .ro, .n⟩
/-! RAS_STRM_SKEW: R101, 03_rasters_and_line_time.md. -/
def F.RAS_STRM_SKEW.SKEW_REF : Fld := ⟨.RAS_STRM_SKEW, 31, 16, .ro, .n⟩
def F.RAS_STRM_SKEW.SKEW_END : Fld := ⟨.RAS_STRM_SKEW, 15, 0, .ro, .n⟩
/-! RAS_STRM_MEAS: R101, 03_rasters_and_line_time.md. -/
def F.RAS_STRM_MEAS.RATIO_MEAS : Fld := ⟨.RAS_STRM_MEAS, 23, 0, .ro, .n⟩
/-! ING_PORT_CTRL: R127, 04_camera_ingress.md. -/
def F.ING_PORT_CTRL.RUN : Fld := ⟨.ING_PORT_CTRL, 31, 31, .rw, .n⟩
def F.ING_PORT_CTRL.GEAR : Fld := ⟨.ING_PORT_CTRL, 30, 28, .rw, .l⟩
def F.ING_PORT_CTRL.LANES : Fld := ⟨.ING_PORT_CTRL, 27, 26, .rw, .l⟩
def F.ING_PORT_CTRL.RTS_EN : Fld := ⟨.ING_PORT_CTRL, 25, 25, .rw, .l⟩
def F.ING_PORT_CTRL.CSE_EN : Fld := ⟨.ING_PORT_CTRL, 24, 24, .rw, .l⟩
def F.ING_PORT_CTRL.VCX_EN : Fld := ⟨.ING_PORT_CTRL, 23, 23, .rw, .l⟩
def F.ING_PORT_CTRL.TRIG_POL : Fld := ⟨.ING_PORT_CTRL, 19, 16, .rw, .l⟩
/-! ING_PORT_STAT: R128, 04_camera_ingress.md. -/
def F.ING_PORT_STAT.LINK_UP : Fld := ⟨.ING_PORT_STAT, 31, 31, .ro, .n⟩
def F.ING_PORT_STAT.GEAR_ACT : Fld := ⟨.ING_PORT_STAT, 30, 28, .ro, .n⟩
def F.ING_PORT_STAT.LINK_LOST : Fld := ⟨.ING_PORT_STAT, 24, 24, .w1c, .n⟩
def F.ING_PORT_STAT.REPACK_ERR : Fld := ⟨.ING_PORT_STAT, 23, 23, .w1c, .n⟩
def F.ING_PORT_STAT.OVERRUN : Fld := ⟨.ING_PORT_STAT, 22, 22, .w1c, .n⟩
def F.ING_PORT_STAT.ORPHAN : Fld := ⟨.ING_PORT_STAT, 21, 21, .w1c, .n⟩
def F.ING_PORT_STAT.UNMAPPED : Fld := ⟨.ING_PORT_STAT, 20, 20, .w1c, .n⟩
def F.ING_PORT_STAT.LEN_ERR : Fld := ⟨.ING_PORT_STAT, 19, 19, .w1c, .n⟩
def F.ING_PORT_STAT.CSE_ERR : Fld := ⟨.ING_PORT_STAT, 18, 18, .w1c, .n⟩
def F.ING_PORT_STAT.CRC_ERR : Fld := ⟨.ING_PORT_STAT, 17, 17, .w1c, .n⟩
def F.ING_PORT_STAT.HDR_UNCORR : Fld := ⟨.ING_PORT_STAT, 16, 16, .w1c, .n⟩
/-! ING_PORT_CNT0: R129, 04_camera_ingress.md. -/
def F.ING_PORT_CNT0.ECC_CORR : Fld := ⟨.ING_PORT_CNT0, 31, 16, .w1cn, .n⟩
def F.ING_PORT_CNT0.HDR_UNCORR : Fld := ⟨.ING_PORT_CNT0, 15, 0, .w1cn, .n⟩
/-! ING_PORT_CNT1: R129, 04_camera_ingress.md. -/
def F.ING_PORT_CNT1.CRC_ERR : Fld := ⟨.ING_PORT_CNT1, 31, 16, .w1cn, .n⟩
def F.ING_PORT_CNT1.UNMAPPED : Fld := ⟨.ING_PORT_CNT1, 15, 0, .w1cn, .n⟩
/-! ING_MAP: R130, 04_camera_ingress.md. -/
def F.ING_MAP.EN : Fld := ⟨.ING_MAP, 31, 31, .rw, .l⟩
def F.ING_MAP.STREAM : Fld := ⟨.ING_MAP, 25, 20, .rw, .l⟩
def F.ING_MAP.VC : Fld := ⟨.ING_MAP, 19, 16, .rw, .l⟩
def F.ING_MAP.DT : Fld := ⟨.ING_MAP, 13, 8, .rw, .l⟩
/-! ING_STRM_FMT: R131, 04_camera_ingress.md. -/
def F.ING_STRM_FMT.SAMPLE : Fld := ⟨.ING_STRM_FMT, 31, 31, .rw, .s⟩
def F.ING_STRM_FMT.EXPOSURES : Fld := ⟨.ING_STRM_FMT, 27, 26, .rw, .s⟩
def F.ING_STRM_FMT.POLICY : Fld := ⟨.ING_STRM_FMT, 25, 24, .rw, .s⟩
def F.ING_STRM_FMT.REP_DIST : Fld := ⟨.ING_STRM_FMT, 23, 22, .rw, .s⟩
def F.ING_STRM_FMT.LS_NUM : Fld := ⟨.ING_STRM_FMT, 21, 21, .rw, .s⟩
/-! ING_STRM_SIZE: R132, 04_camera_ingress.md. -/
def F.ING_STRM_SIZE.HEIGHT : Fld := ⟨.ING_STRM_SIZE, 31, 16, .rw, .s⟩
def F.ING_STRM_SIZE.WIDTH : Fld := ⟨.ING_STRM_SIZE, 15, 0, .rw, .s⟩
/-! ING_STRM_LEN: R132, 04_camera_ingress.md. -/
def F.ING_STRM_LEN.FILL : Fld := ⟨.ING_STRM_LEN, 31, 16, .rw, .s⟩
def F.ING_STRM_LEN.LINE_BYTES : Fld := ⟨.ING_STRM_LEN, 15, 0, .rw, .s⟩
/-! ING_STRM_CNT: R133, 04_camera_ingress.md. -/
def F.ING_STRM_CNT.DAMAGED : Fld := ⟨.ING_STRM_CNT, 31, 16, .w1cn, .n⟩
def F.ING_STRM_CNT.SUBST : Fld := ⟨.ING_STRM_CNT, 15, 0, .w1cn, .n⟩
/-! ING_STRM_FCNT: R133, 04_camera_ingress.md. -/
def F.ING_STRM_FCNT.INVALID : Fld := ⟨.ING_STRM_FCNT, 31, 24, .w1cn, .n⟩
def F.ING_STRM_FCNT.SHORT : Fld := ⟨.ING_STRM_FCNT, 23, 16, .w1cn, .n⟩
def F.ING_STRM_FCNT.LONG : Fld := ⟨.ING_STRM_FCNT, 15, 8, .w1cn, .n⟩
/-! POOL_CTRL: R178, 06_line_pool.md. -/
def F.POOL_CTRL.SPILL_EN : Fld := ⟨.POOL_CTRL, 31, 31, .rw, .s⟩
def F.POOL_CTRL.PROD_REGION : Fld := ⟨.POOL_CTRL, 15, 0, .rw, .s⟩
/-! POOL_OCC0: R183, 06_line_pool.md. -/
def F.POOL_OCC0.OVF_FREE : Fld := ⟨.POOL_OCC0, 16, 0, .ro, .n⟩
/-! POOL_OCC1: R183, 06_line_pool.md. -/
def F.POOL_OCC1.LEDGER_FREE : Fld := ⟨.POOL_OCC1, 31, 16, .ro, .n⟩
def F.POOL_OCC1.DIR_FREE : Fld := ⟨.POOL_OCC1, 15, 0, .ro, .n⟩
/-! POOL_STAT: R185, 06_line_pool.md. -/
def F.POOL_STAT.META_UNCORR : Fld := ⟨.POOL_STAT, 8, 8, .w1c, .n⟩
def F.POOL_STAT.ECC_UNCORR : Fld := ⟨.POOL_STAT, 7, 7, .w1c, .n⟩
def F.POOL_STAT.ECC_CORR : Fld := ⟨.POOL_STAT, 6, 6, .w1c, .n⟩
def F.POOL_STAT.DIR_EXHAUST : Fld := ⟨.POOL_STAT, 5, 5, .w1c, .n⟩
def F.POOL_STAT.SPILL_FULL : Fld := ⟨.POOL_STAT, 4, 4, .w1c, .n⟩
def F.POOL_STAT.HOST_LOSS : Fld := ⟨.POOL_STAT, 3, 3, .w1c, .n⟩
def F.POOL_STAT.MIG_LOSS : Fld := ⟨.POOL_STAT, 2, 2, .w1c, .n⟩
def F.POOL_STAT.LATE_REFUSE : Fld := ⟨.POOL_STAT, 1, 1, .w1c, .n⟩
def F.POOL_STAT.REFUSE : Fld := ⟨.POOL_STAT, 0, 0, .w1c, .n⟩
/-! POOL_ECC_CNT: R186, 06_line_pool.md. -/
def F.POOL_ECC_CNT.UNCORR : Fld := ⟨.POOL_ECC_CNT, 31, 16, .w1cn, .n⟩
def F.POOL_ECC_CNT.CORR : Fld := ⟨.POOL_ECC_CNT, 15, 0, .w1cn, .n⟩
/-! POOL_ECC_REC: R186, 06_line_pool.md. -/
def F.POOL_ECC_REC.VALID : Fld := ⟨.POOL_ECC_REC, 31, 31, .w1c, .n⟩
def F.POOL_ECC_REC.META : Fld := ⟨.POOL_ECC_REC, 30, 30, .ro, .n⟩
def F.POOL_ECC_REC.WORD : Fld := ⟨.POOL_ECC_REC, 19, 17, .ro, .n⟩
def F.POOL_ECC_REC.INDEX : Fld := ⟨.POOL_ECC_REC, 15, 0, .ro, .n⟩
/-! POOL_HOST_RESV: R179, 06_line_pool.md. -/
def F.POOL_HOST_RESV.GRANULES : Fld := ⟨.POOL_HOST_RESV, 15, 0, .rw, .s⟩
/-! POOL_OVF_CLS: R182, 06_line_pool.md. -/
def F.POOL_OVF_CLS.CAP : Fld := ⟨.POOL_OVF_CLS, 31, 16, .rw, .s⟩
def F.POOL_OVF_CLS.THR : Fld := ⟨.POOL_OVF_CLS, 15, 0, .rw, .s⟩
/-! POOL_OVF_USE: R182, 06_line_pool.md. -/
def F.POOL_OVF_USE.PEAK : Fld := ⟨.POOL_OVF_USE, 31, 16, .w1cn, .n⟩
def F.POOL_OVF_USE.IN_USE : Fld := ⟨.POOL_OVF_USE, 15, 0, .ro, .n⟩
/-! POOL_RESV: R179, 06_line_pool.md. -/
def F.POOL_RESV.GRANULES : Fld := ⟨.POOL_RESV, 15, 0, .rw, .s⟩
/-! POOL_RESV_MIN: R180, 06_line_pool.md. -/
def F.POOL_RESV_MIN.LINES_MIN : Fld := ⟨.POOL_RESV_MIN, 31, 16, .ro, .n⟩
def F.POOL_RESV_MIN.GRANULES_MIN : Fld := ⟨.POOL_RESV_MIN, 15, 0, .ro, .n⟩
/-! POOL_RESV_STAT: R181, 06_line_pool.md. -/
def F.POOL_RESV_STAT.OVF : Fld := ⟨.POOL_RESV_STAT, 31, 16, .ro, .n⟩
def F.POOL_RESV_STAT.IN_USE : Fld := ⟨.POOL_RESV_STAT, 15, 0, .ro, .n⟩
/-! POOL_RESV_CNT: R181, 06_line_pool.md. -/
def F.POOL_RESV_CNT.REFUSED : Fld := ⟨.POOL_RESV_CNT, 31, 16, .w1cn, .n⟩
def F.POOL_RESV_CNT.MIG_LOSS : Fld := ⟨.POOL_RESV_CNT, 15, 0, .w1cn, .n⟩
/-! POOL_PRD_RESV: R184, 06_line_pool.md. -/
def F.POOL_PRD_RESV.GRANTED : Fld := ⟨.POOL_PRD_RESV, 31, 16, .ro, .n⟩
def F.POOL_PRD_RESV.IN_USE : Fld := ⟨.POOL_PRD_RESV, 15, 0, .ro, .n⟩
/-! BLM_CTRL: R217, 07_blooms_and_petals.md. -/
def F.BLM_CTRL.HALT : Fld := ⟨.BLM_CTRL, 31, 31, .rw, .n⟩
def F.BLM_CTRL.HALT_REF : Fld := ⟨.BLM_CTRL, 30, 30, .w1c, .n⟩
/-! BLM_STAT: R218, 07_blooms_and_petals.md. -/
def F.BLM_STAT.IDLE : Fld := ⟨.BLM_STAT, 31, 31, .ro, .n⟩
def F.BLM_STAT.HALTED : Fld := ⟨.BLM_STAT, 30, 30, .ro, .n⟩
def F.BLM_STAT.QUEUED : Fld := ⟨.BLM_STAT, 29, 20, .ro, .n⟩
def F.BLM_STAT.FAST_PEND : Fld := ⟨.BLM_STAT, 19, 13, .ro, .n⟩
def F.BLM_STAT.RUNNING : Fld := ⟨.BLM_STAT, 12, 7, .ro, .n⟩
/-! BLM_FAST_LOAD: R218, 07_blooms_and_petals.md. -/
def F.BLM_FAST_LOAD.RESV_PETALS : Fld := ⟨.BLM_FAST_LOAD, 20, 16, .ro, .n⟩
def F.BLM_FAST_LOAD.CARRY_KIB : Fld := ⟨.BLM_FAST_LOAD, 8, 0, .ro, .n⟩
/-! BLM_CNT0: R219, 07_blooms_and_petals.md. -/
def F.BLM_CNT0.STEAL_IN : Fld := ⟨.BLM_CNT0, 31, 16, .w1cn, .n⟩
def F.BLM_CNT0.STEAL_OUT : Fld := ⟨.BLM_CNT0, 15, 0, .w1cn, .n⟩
/-! BLM_CNT1: R219, 07_blooms_and_petals.md. -/
def F.BLM_CNT1.PREEMPT : Fld := ⟨.BLM_CNT1, 31, 16, .w1cn, .n⟩
def F.BLM_CNT1.MISS : Fld := ⟨.BLM_CNT1, 15, 8, .w1cn, .n⟩
def F.BLM_CNT1.SLOW_LATE : Fld := ⟨.BLM_CNT1, 7, 0, .w1cn, .n⟩
/-! BLM_TF_CTRL: R211, 07_blooms_and_petals.md. -/
def F.BLM_TF_CTRL.RUN : Fld := ⟨.BLM_TF_CTRL, 31, 31, .rw, .n⟩
def F.BLM_TF_CTRL.RUNNING : Fld := ⟨.BLM_TF_CTRL, 30, 30, .ro, .n⟩
/-! BLM_TF_STAT: R216, 07_blooms_and_petals.md. -/
def F.BLM_TF_STAT.BACKLOG_FULL : Fld := ⟨.BLM_TF_STAT, 31, 24, .w1c, .n⟩
def F.BLM_TF_STAT.BACKLOG_MAX : Fld := ⟨.BLM_TF_STAT, 10, 0, .w1cn, .n⟩
/-! BLM_HASH_SEED_LO: R212, 07_blooms_and_petals.md. -/
def F.BLM_HASH_SEED_LO.SEED_LO : Fld := ⟨.BLM_HASH_SEED_LO, 31, 0, .rw, .l⟩
/-! BLM_HASH_SEED_HI: R212, 07_blooms_and_petals.md. -/
def F.BLM_HASH_SEED_HI.SEED_HI : Fld := ⟨.BLM_HASH_SEED_HI, 31, 0, .rw, .l⟩
/-! BLM_HASH_CTRL: R212, 07_blooms_and_petals.md. -/
def F.BLM_HASH_CTRL.MODE : Fld := ⟨.BLM_HASH_CTRL, 0, 0, .rw, .l⟩
/-! BLM_HASH_PROBE: R213, 07_blooms_and_petals.md. -/
def F.BLM_HASH_PROBE.STREAM : Fld := ⟨.BLM_HASH_PROBE, 27, 22, .rw, .n⟩
def F.BLM_HASH_PROBE.COL : Fld := ⟨.BLM_HASH_PROBE, 21, 12, .rw, .n⟩
def F.BLM_HASH_PROBE.ROW : Fld := ⟨.BLM_HASH_PROBE, 11, 0, .rw, .n⟩
/-! BLM_HASH_PROBE_OUT: R213, 07_blooms_and_petals.md. -/
def F.BLM_HASH_PROBE_OUT.BLOOM : Fld := ⟨.BLM_HASH_PROBE_OUT, 31, 29, .ro, .n⟩
def F.BLM_HASH_PROBE_OUT.SLOT : Fld := ⟨.BLM_HASH_PROBE_OUT, 28, 24, .ro, .n⟩
/-! BLM_FAST_CTRL: R214, 07_blooms_and_petals.md. -/
def F.BLM_FAST_CTRL.FAST_PETALS : Fld := ⟨.BLM_FAST_CTRL, 4, 0, .rw, .s⟩
/-! BLM_SLACK: R214, 07_blooms_and_petals.md. -/
def F.BLM_SLACK.LINES3 : Fld := ⟨.BLM_SLACK, 31, 24, .rw, .s⟩
def F.BLM_SLACK.LINES2 : Fld := ⟨.BLM_SLACK, 23, 16, .rw, .s⟩
def F.BLM_SLACK.LINES1 : Fld := ⟨.BLM_SLACK, 15, 8, .rw, .s⟩
def F.BLM_SLACK.LINES0 : Fld := ⟨.BLM_SLACK, 7, 0, .rw, .s⟩
/-! BLM_XSTEAL: R215, 07_blooms_and_petals.md. -/
def F.BLM_XSTEAL.EN : Fld := ⟨.BLM_XSTEAL, 31, 31, .rw, .s⟩
def F.BLM_XSTEAL.MIN_Q : Fld := ⟨.BLM_XSTEAL, 11, 8, .rw, .s⟩
def F.BLM_XSTEAL.CAP_PCT : Fld := ⟨.BLM_XSTEAL, 4, 0, .rw, .s⟩
/-! BLM_XSTEAL_STAT: R215, 07_blooms_and_petals.md. -/
def F.BLM_XSTEAL_STAT.CAP_WAIT : Fld := ⟨.BLM_XSTEAL_STAT, 31, 16, .w1cn, .n⟩
def F.BLM_XSTEAL_STAT.BYTES_KIB : Fld := ⟨.BLM_XSTEAL_STAT, 15, 0, .ro, .n⟩
/-! BLM_MISS_REC0: R220, 07_blooms_and_petals.md. -/
def F.BLM_MISS_REC0.VALID : Fld := ⟨.BLM_MISS_REC0, 31, 31, .w1c, .n⟩
def F.BLM_MISS_REC0.BLOOM : Fld := ⟨.BLM_MISS_REC0, 18, 16, .ro, .n⟩
def F.BLM_MISS_REC0.PRODUCT : Fld := ⟨.BLM_MISS_REC0, 15, 8, .ro, .n⟩
def F.BLM_MISS_REC0.RASTER : Fld := ⟨.BLM_MISS_REC0, 2, 0, .ro, .n⟩
/-! BLM_MISS_REC1: R220, 07_blooms_and_petals.md. -/
def F.BLM_MISS_REC1.LINE : Fld := ⟨.BLM_MISS_REC1, 31, 16, .ro, .n⟩
def F.BLM_MISS_REC1.D_LINE : Fld := ⟨.BLM_MISS_REC1, 15, 0, .ro, .n⟩
/-! PRD_REJECT: R285, 09_products.md. -/
def F.PRD_REJECT.VALID : Fld := ⟨.PRD_REJECT, 31, 31, .w1c, .n⟩
def F.PRD_REJECT.CMD : Fld := ⟨.PRD_REJECT, 30, 29, .ro, .n⟩
def F.PRD_REJECT.STATUS : Fld := ⟨.PRD_REJECT, 28, 24, .ro, .n⟩
def F.PRD_REJECT.DETAIL : Fld := ⟨.PRD_REJECT, 23, 16, .ro, .n⟩
def F.PRD_REJECT.PRODUCT : Fld := ⟨.PRD_REJECT, 15, 8, .ro, .n⟩
def F.PRD_REJECT.DOMAIN : Fld := ⟨.PRD_REJECT, 5, 0, .ro, .n⟩
/-! PRD_STATE: R282, 09_products.md. -/
def F.PRD_STATE.STATE : Fld := ⟨.PRD_STATE, 31, 30, .ro, .n⟩
def F.PRD_STATE.FAST : Fld := ⟨.PRD_STATE, 29, 29, .ro, .n⟩
def F.PRD_STATE.CLASS : Fld := ⟨.PRD_STATE, 28, 27, .ro, .n⟩
def F.PRD_STATE.DEST_KIND : Fld := ⟨.PRD_STATE, 26, 25, .ro, .n⟩
def F.PRD_STATE.HOME : Fld := ⟨.PRD_STATE, 24, 22, .ro, .n⟩
def F.PRD_STATE.DOMAIN : Fld := ⟨.PRD_STATE, 21, 16, .ro, .n⟩
def F.PRD_STATE.GEN : Fld := ⟨.PRD_STATE, 15, 8, .ro, .n⟩
/-! PRD_FOOT: R283, 09_products.md. -/
def F.PRD_FOOT.LMIN : Fld := ⟨.PRD_FOOT, 31, 24, .ro, .n⟩
def F.PRD_FOOT.FOOT : Fld := ⟨.PRD_FOOT, 23, 16, .ro, .n⟩
def F.PRD_FOOT.CARRY_KIB : Fld := ⟨.PRD_FOOT, 15, 7, .ro, .n⟩
/-! PRD_COST: R283, 09_products.md. -/
def F.PRD_COST.COST : Fld := ⟨.PRD_COST, 31, 16, .ro, .n⟩
def F.PRD_COST.S : Fld := ⟨.PRD_COST, 15, 8, .ro, .n⟩
def F.PRD_COST.DROPPED : Fld := ⟨.PRD_COST, 7, 0, .ro, .n⟩
/-! PRD_FRAME: R284, 09_products.md. -/
def F.PRD_FRAME.FRAME : Fld := ⟨.PRD_FRAME, 31, 0, .ro, .n⟩
/-! SEAL_ACC_CTRL: R151, 05_line_seals.md. -/
def F.SEAL_ACC_CTRL.GO : Fld := ⟨.SEAL_ACC_CTRL, 31, 31, .wo, .n⟩
def F.SEAL_ACC_CTRL.WRITE : Fld := ⟨.SEAL_ACC_CTRL, 30, 30, .rw, .n⟩
def F.SEAL_ACC_CTRL.BUSY : Fld := ⟨.SEAL_ACC_CTRL, 29, 29, .ro, .n⟩
def F.SEAL_ACC_CTRL.REFUSED : Fld := ⟨.SEAL_ACC_CTRL, 28, 28, .w1c, .n⟩
def F.SEAL_ACC_CTRL.SLOT : Fld := ⟨.SEAL_ACC_CTRL, 13, 9, .rw, .n⟩
def F.SEAL_ACC_CTRL.UNIT : Fld := ⟨.SEAL_ACC_CTRL, 8, 0, .rw, .n⟩
/-! SEAL_ACC_DATA: R151, 05_line_seals.md. -/
def F.SEAL_ACC_DATA.DATA : Fld := ⟨.SEAL_ACC_DATA, 31, 0, .rw, .n⟩
/-! SEAL_FAIL_CNT0: R152, 05_line_seals.md. -/
def F.SEAL_FAIL_CNT0.STRIP : Fld := ⟨.SEAL_FAIL_CNT0, 31, 16, .w1cn, .n⟩
def F.SEAL_FAIL_CNT0.LEDGER : Fld := ⟨.SEAL_FAIL_CNT0, 15, 0, .w1cn, .n⟩
/-! SEAL_FAIL_CNT1: R152, 05_line_seals.md. -/
def F.SEAL_FAIL_CNT1.EGRESS : Fld := ⟨.SEAL_FAIL_CNT1, 31, 16, .w1cn, .n⟩
def F.SEAL_FAIL_CNT1.GEWARD : Fld := ⟨.SEAL_FAIL_CNT1, 15, 0, .w1cn, .n⟩
/-! SEAL_FAIL_CNT2: R152, 05_line_seals.md. -/
def F.SEAL_FAIL_CNT2.FST : Fld := ⟨.SEAL_FAIL_CNT2, 31, 16, .w1cn, .n⟩
def F.SEAL_FAIL_CNT2.OVERCOVER : Fld := ⟨.SEAL_FAIL_CNT2, 15, 0, .w1cn, .n⟩
/-! SEAL_FAIL_REC0: R153, 05_line_seals.md. -/
def F.SEAL_FAIL_REC0.VALID : Fld := ⟨.SEAL_FAIL_REC0, 31, 31, .w1c, .n⟩
def F.SEAL_FAIL_REC0.UNIT : Fld := ⟨.SEAL_FAIL_REC0, 30, 22, .ro, .n⟩
def F.SEAL_FAIL_REC0.STREAM : Fld := ⟨.SEAL_FAIL_REC0, 21, 16, .ro, .n⟩
def F.SEAL_FAIL_REC0.PRODUCT : Fld := ⟨.SEAL_FAIL_REC0, 15, 8, .ro, .n⟩
/-! SEAL_FAIL_REC1: R153, 05_line_seals.md. -/
def F.SEAL_FAIL_REC1.LINE : Fld := ⟨.SEAL_FAIL_REC1, 31, 16, .ro, .n⟩
/-! SEAL_FAIL_REC2: R153, 05_line_seals.md. -/
def F.SEAL_FAIL_REC2.VALUE : Fld := ⟨.SEAL_FAIL_REC2, 31, 0, .ro, .n⟩
/-! SEAL_FAIL_REC3: R153, 05_line_seals.md. -/
def F.SEAL_FAIL_REC3.VALUE : Fld := ⟨.SEAL_FAIL_REC3, 31, 0, .ro, .n⟩
/-! SEAL_FAIL_REC4: R153, 05_line_seals.md. -/
def F.SEAL_FAIL_REC4.VALUE : Fld := ⟨.SEAL_FAIL_REC4, 31, 0, .ro, .n⟩
/-! SEAL_E2E_PROF: R154, 05_line_seals.md. -/
def F.SEAL_E2E_PROF.REFIN : Fld := ⟨.SEAL_E2E_PROF, 31, 31, .rw, .s⟩
def F.SEAL_E2E_PROF.REFOUT : Fld := ⟨.SEAL_E2E_PROF, 30, 30, .rw, .s⟩
def F.SEAL_E2E_PROF.IDFOLD : Fld := ⟨.SEAL_E2E_PROF, 29, 28, .rw, .s⟩
def F.SEAL_E2E_PROF.WIDTH : Fld := ⟨.SEAL_E2E_PROF, 5, 0, .rw, .s⟩
/-! SEAL_E2E_POLY: R154, 05_line_seals.md. -/
def F.SEAL_E2E_POLY.POLY : Fld := ⟨.SEAL_E2E_POLY, 31, 0, .rw, .s⟩
/-! SEAL_E2E_INIT: R154, 05_line_seals.md. -/
def F.SEAL_E2E_INIT.INIT : Fld := ⟨.SEAL_E2E_INIT, 31, 0, .rw, .s⟩
/-! SEAL_E2E_XOR: R154, 05_line_seals.md. -/
def F.SEAL_E2E_XOR.XOROUT : Fld := ⟨.SEAL_E2E_XOR, 31, 0, .rw, .s⟩
/-! FST_CTRL: R306, 10_frame_store.md. -/
def F.FST_CTRL.SCRUB_EN : Fld := ⟨.FST_CTRL, 31, 31, .rw, .s⟩
def F.FST_CTRL.FORCE_2X : Fld := ⟨.FST_CTRL, 30, 30, .rw, .s⟩
def F.FST_CTRL.CASE_LIM : Fld := ⟨.FST_CTRL, 23, 16, .ro, .n⟩
def F.FST_CTRL.SCRUB_H : Fld := ⟨.FST_CTRL, 7, 0, .rw, .s⟩
/-! FST_STAT: R307, 10_frame_store.md. -/
def F.FST_STAT.READY : Fld := ⟨.FST_STAT, 31, 31, .ro, .n⟩
def F.FST_STAT.TRAINING : Fld := ⟨.FST_STAT, 30, 30, .ro, .n⟩
def F.FST_STAT.TRAIN_FAIL : Fld := ⟨.FST_STAT, 29, 29, .ro, .n⟩
def F.FST_STAT.REFRESH_2X : Fld := ⟨.FST_STAT, 28, 28, .ro, .n⟩
def F.FST_STAT.HOT : Fld := ⟨.FST_STAT, 27, 27, .ro, .n⟩
def F.FST_STAT.HOT_SEEN : Fld := ⟨.FST_STAT, 26, 26, .w1c, .n⟩
def F.FST_STAT.TEMP : Fld := ⟨.FST_STAT, 7, 0, .ro, .n⟩
/-! FST_HASH_CTRL: R308, 10_frame_store.md. -/
def F.FST_HASH_CTRL.MODE : Fld := ⟨.FST_HASH_CTRL, 0, 0, .rw, .l⟩
/-! FST_HASH_SX: R308, 10_frame_store.md. -/
def F.FST_HASH_SX.SX : Fld := ⟨.FST_HASH_SX, 19, 0, .rw, .l⟩
/-! FST_HASH_SM: R308, 10_frame_store.md. -/
def F.FST_HASH_SM.SM : Fld := ⟨.FST_HASH_SM, 19, 0, .rw, .l⟩
/-! FST_PROBE_IN: R309, 10_frame_store.md. -/
def F.FST_PROBE_IN.CHUNK : Fld := ⟨.FST_PROBE_IN, 25, 0, .rw, .n⟩
/-! FST_PROBE_OUT: R309, 10_frame_store.md. -/
def F.FST_PROBE_OUT.PC : Fld := ⟨.FST_PROBE_OUT, 31, 28, .ro, .n⟩
def F.FST_PROBE_OUT.BANK : Fld := ⟨.FST_PROBE_OUT, 27, 23, .ro, .n⟩
def F.FST_PROBE_OUT.COL : Fld := ⟨.FST_PROBE_OUT, 22, 21, .ro, .n⟩
def F.FST_PROBE_OUT.ROW : Fld := ⟨.FST_PROBE_OUT, 20, 6, .ro, .n⟩
/-! FST_SYS_FREE: R311, 10_frame_store.md. -/
def F.FST_SYS_FREE.FREE : Fld := ⟨.FST_SYS_FREE, 20, 0, .ro, .n⟩
/-! FST_ECC_CNT: R312, 10_frame_store.md. -/
def F.FST_ECC_CNT.UNCORR : Fld := ⟨.FST_ECC_CNT, 31, 16, .w1cn, .n⟩
def F.FST_ECC_CNT.CORR : Fld := ⟨.FST_ECC_CNT, 15, 0, .w1cn, .n⟩
/-! FST_CNT: R312, 10_frame_store.md. -/
def F.FST_CNT.COPY_DROP : Fld := ⟨.FST_CNT, 31, 16, .w1cn, .n⟩
def F.FST_CNT.CA_RETRY : Fld := ⟨.FST_CNT, 15, 8, .w1cn, .n⟩
/-! FST_ECC_REC0: R313, 10_frame_store.md. -/
def F.FST_ECC_REC0.VALID : Fld := ⟨.FST_ECC_REC0, 31, 31, .w1c, .n⟩
def F.FST_ECC_REC0.SCRUB : Fld := ⟨.FST_ECC_REC0, 30, 30, .ro, .n⟩
def F.FST_ECC_REC0.PC : Fld := ⟨.FST_ECC_REC0, 29, 26, .ro, .n⟩
def F.FST_ECC_REC0.BANK : Fld := ⟨.FST_ECC_REC0, 25, 21, .ro, .n⟩
def F.FST_ECC_REC0.ROW : Fld := ⟨.FST_ECC_REC0, 20, 6, .ro, .n⟩
def F.FST_ECC_REC0.COL : Fld := ⟨.FST_ECC_REC0, 5, 4, .ro, .n⟩
/-! FST_ECC_REC1: R313, 10_frame_store.md. -/
def F.FST_ECC_REC1.WORD : Fld := ⟨.FST_ECC_REC1, 4, 0, .ro, .n⟩
/-! FST_RGN: R310, 10_frame_store.md. -/
def F.FST_RGN.EN : Fld := ⟨.FST_RGN, 31, 31, .rw, .s⟩
def F.FST_RGN.KIND : Fld := ⟨.FST_RGN, 30, 29, .rw, .s⟩
def F.FST_RGN.BASE : Fld := ⟨.FST_RGN, 25, 13, .rw, .s⟩
def F.FST_RGN.SIZE : Fld := ⟨.FST_RGN, 12, 0, .rw, .s⟩
/-! GWP_CTRL: R338, 11_geward_physical.md. -/
def F.GWP_CTRL.EN : Fld := ⟨.GWP_CTRL, 31, 31, .rw, .n⟩
def F.GWP_CTRL.RETRAIN : Fld := ⟨.GWP_CTRL, 30, 30, .wo, .n⟩
def F.GWP_CTRL.MIN_W : Fld := ⟨.GWP_CTRL, 29, 28, .rw, .l⟩
def F.GWP_CTRL.FALLBACK_EN : Fld := ⟨.GWP_CTRL, 27, 27, .rw, .l⟩
def F.GWP_CTRL.FORCE_FB : Fld := ⟨.GWP_CTRL, 26, 26, .rw, .l⟩
def F.GWP_CTRL.TX_REF : Fld := ⟨.GWP_CTRL, 25, 25, .rw, .l⟩
def F.GWP_CTRL.LINK_TMO_MS : Fld := ⟨.GWP_CTRL, 23, 16, .rw, .l⟩
def F.GWP_CTRL.ATTEMPT_US : Fld := ⟨.GWP_CTRL, 15, 0, .rw, .l⟩
/-! GWP_STAT: R339, 11_geward_physical.md. -/
def F.GWP_STAT.LINK_UP : Fld := ⟨.GWP_STAT, 31, 31, .ro, .n⟩
def F.GWP_STAT.RX_W : Fld := ⟨.GWP_STAT, 30, 28, .ro, .n⟩
def F.GWP_STAT.TX_W : Fld := ⟨.GWP_STAT, 27, 25, .ro, .n⟩
def F.GWP_STAT.LINK_DOWN : Fld := ⟨.GWP_STAT, 24, 24, .w1c, .n⟩
def F.GWP_STAT.LDN_RX : Fld := ⟨.GWP_STAT, 23, 23, .w1c, .n⟩
def F.GWP_STAT.REFCLK_OK : Fld := ⟨.GWP_STAT, 22, 22, .ro, .n⟩
def F.GWP_STAT.TMO : Fld := ⟨.GWP_STAT, 21, 21, .w1c, .n⟩
def F.GWP_STAT.UP_CNT : Fld := ⟨.GWP_STAT, 15, 0, .ro, .n⟩
/-! GWP_FAR: R340, 11_geward_physical.md. -/
def F.GWP_FAR.FAR_TXLANES : Fld := ⟨.GWP_FAR, 15, 8, .ro, .n⟩
def F.GWP_FAR.FAR_RX_READY : Fld := ⟨.GWP_FAR, 7, 0, .ro, .n⟩
/-! GWP_LANE_CTRL: R341, 11_geward_physical.md. -/
def F.GWP_LANE_CTRL.TX_PRE : Fld := ⟨.GWP_LANE_CTRL, 31, 31, .rw, .l⟩
def F.GWP_LANE_CTRL.RX_PRE : Fld := ⟨.GWP_LANE_CTRL, 30, 30, .rw, .l⟩
def F.GWP_LANE_CTRL.TX_INV : Fld := ⟨.GWP_LANE_CTRL, 29, 29, .rw, .l⟩
def F.GWP_LANE_CTRL.RX_INV : Fld := ⟨.GWP_LANE_CTRL, 28, 28, .rw, .l⟩
def F.GWP_LANE_CTRL.TX_DIS : Fld := ⟨.GWP_LANE_CTRL, 27, 27, .rw, .l⟩
def F.GWP_LANE_CTRL.RX_DIS : Fld := ⟨.GWP_LANE_CTRL, 26, 26, .rw, .l⟩
def F.GWP_LANE_CTRL.EQ_FREEZE : Fld := ⟨.GWP_LANE_CTRL, 25, 25, .rw, .n⟩
def F.GWP_LANE_CTRL.FFE_PRE : Fld := ⟨.GWP_LANE_CTRL, 24, 22, .rw, .l⟩
def F.GWP_LANE_CTRL.SWING : Fld := ⟨.GWP_LANE_CTRL, 21, 20, .rw, .l⟩
/-! GWP_LANE_STAT: R342, 11_geward_physical.md. -/
def F.GWP_LANE_STAT.CLK_LOCK : Fld := ⟨.GWP_LANE_STAT, 31, 31, .ro, .n⟩
def F.GWP_LANE_STAT.BLK_LOCK : Fld := ⟨.GWP_LANE_STAT, 30, 30, .ro, .n⟩
def F.GWP_LANE_STAT.DESKEWED : Fld := ⟨.GWP_LANE_STAT, 29, 29, .ro, .n⟩
def F.GWP_LANE_STAT.EQ_READY : Fld := ⟨.GWP_LANE_STAT, 28, 28, .ro, .n⟩
def F.GWP_LANE_STAT.FB_MODE : Fld := ⟨.GWP_LANE_STAT, 27, 27, .ro, .n⟩
def F.GWP_LANE_STAT.ACTIVE : Fld := ⟨.GWP_LANE_STAT, 26, 26, .ro, .n⟩
def F.GWP_LANE_STAT.FAR_LANE : Fld := ⟨.GWP_LANE_STAT, 25, 23, .ro, .n⟩
def F.GWP_LANE_STAT.LOGICAL : Fld := ⟨.GWP_LANE_STAT, 22, 20, .ro, .n⟩
def F.GWP_LANE_STAT.LOCK_LOST : Fld := ⟨.GWP_LANE_STAT, 19, 19, .w1c, .n⟩
def F.GWP_LANE_STAT.ATTEMPTS : Fld := ⟨.GWP_LANE_STAT, 15, 8, .w1cn, .n⟩
def F.GWP_LANE_STAT.POS : Fld := ⟨.GWP_LANE_STAT, 7, 0, .ro, .n⟩
/-! GWP_LANE_EQ: R343, 11_geward_physical.md. -/
def F.GWP_LANE_EQ.CTLE : Fld := ⟨.GWP_LANE_EQ, 31, 28, .ro, .n⟩
def F.GWP_LANE_EQ.DFE1 : Fld := ⟨.GWP_LANE_EQ, 23, 16, .ro, .n⟩
def F.GWP_LANE_EQ.DFE2 : Fld := ⟨.GWP_LANE_EQ, 15, 8, .ro, .n⟩
def F.GWP_LANE_EQ.EYE : Fld := ⟨.GWP_LANE_EQ, 7, 0, .ro, .n⟩
/-! GWP_LANE_CNT0: R344, 11_geward_physical.md. -/
def F.GWP_LANE_CNT0.HDR_INVALID : Fld := ⟨.GWP_LANE_CNT0, 31, 16, .w1cn, .n⟩
def F.GWP_LANE_CNT0.CTRL_ERR : Fld := ⟨.GWP_LANE_CNT0, 15, 0, .w1cn, .n⟩
/-! GWP_LANE_CNT1: R344, 11_geward_physical.md. -/
def F.GWP_LANE_CNT1.AM_ERR : Fld := ⟨.GWP_LANE_CNT1, 31, 16, .w1cn, .n⟩
def F.GWP_LANE_CNT1.FB_ENTRY : Fld := ⟨.GWP_LANE_CNT1, 15, 0, .w1cn, .n⟩
/-! GWL_CTRL: R374, 12_geward_link_and_transactions.md. -/
def F.GWL_CTRL.RO_EN : Fld := ⟨.GWL_CTRL, 31, 31, .rw, .l⟩
def F.GWL_CTRL.REPLAY_MAX : Fld := ⟨.GWL_CTRL, 23, 20, .rw, .l⟩
def F.GWL_CTRL.HOST_RETRY : Fld := ⟨.GWL_CTRL, 19, 16, .rw, .l⟩
def F.GWL_CTRL.CPL_TMO_US : Fld := ⟨.GWL_CTRL, 15, 0, .rw, .l⟩
/-! GWL_STAT: R375, 12_geward_link_and_transactions.md. -/
def F.GWL_STAT.ACTIVE : Fld := ⟨.GWL_STAT, 31, 31, .ro, .n⟩
def F.GWL_STAT.PROTO_ERR : Fld := ⟨.GWL_STAT, 30, 30, .w1c, .n⟩
def F.GWL_STAT.REPLAY_LIM : Fld := ⟨.GWL_STAT, 29, 29, .w1c, .n⟩
def F.GWL_STAT.TAGS_OPEN : Fld := ⟨.GWL_STAT, 10, 0, .ro, .n⟩
/-! GWL_EPOCH_TX: R376, 12_geward_link_and_transactions.md. -/
def F.GWL_EPOCH_TX.EPOCH : Fld := ⟨.GWL_EPOCH_TX, 31, 0, .ro, .n⟩
/-! GWL_EPOCH_RX: R376, 12_geward_link_and_transactions.md. -/
def F.GWL_EPOCH_RX.EPOCH : Fld := ⟨.GWL_EPOCH_RX, 31, 0, .ro, .n⟩
/-! GWL_LAT: R378, 12_geward_link_and_transactions.md. -/
def F.GWL_LAT.RX_NS : Fld := ⟨.GWL_LAT, 31, 16, .ro, .n⟩
def F.GWL_LAT.TX_NS : Fld := ⟨.GWL_LAT, 15, 0, .ro, .n⟩
/-! GWL_CNT0: R379, 12_geward_link_and_transactions.md. -/
def F.GWL_CNT0.FEC_CORR : Fld := ⟨.GWL_CNT0, 31, 16, .w1cn, .n⟩
def F.GWL_CNT0.FRAME_BAD : Fld := ⟨.GWL_CNT0, 15, 0, .w1cn, .n⟩
/-! GWL_CNT1: R379, 12_geward_link_and_transactions.md. -/
def F.GWL_CNT1.CRC_FIX : Fld := ⟨.GWL_CNT1, 31, 16, .w1cn, .n⟩
def F.GWL_CNT1.REPLAY : Fld := ⟨.GWL_CNT1, 15, 0, .w1cn, .n⟩
/-! GWL_CNT2: R379, 12_geward_link_and_transactions.md. -/
def F.GWL_CNT2.NAK_TX : Fld := ⟨.GWL_CNT2, 31, 16, .w1cn, .n⟩
def F.GWL_CNT2.NAK_RX : Fld := ⟨.GWL_CNT2, 15, 0, .w1cn, .n⟩
/-! GWL_CNT3: R380, 12_geward_link_and_transactions.md. -/
def F.GWL_CNT3.TIMEOUT : Fld := ⟨.GWL_CNT3, 31, 16, .w1cn, .n⟩
def F.GWL_CNT3.CPL_TMO : Fld := ⟨.GWL_CNT3, 15, 0, .w1cn, .n⟩
/-! GWL_CNT4: R380, 12_geward_link_and_transactions.md. -/
def F.GWL_CNT4.TIME_BAD : Fld := ⟨.GWL_CNT4, 31, 24, .w1cn, .n⟩
def F.GWL_CNT4.ACK_ERR : Fld := ⟨.GWL_CNT4, 23, 16, .w1cn, .n⟩
def F.GWL_CNT4.DISCARD : Fld := ⟨.GWL_CNT4, 15, 0, .w1cn, .n⟩
/-! GWL_CNT5: R380, 12_geward_link_and_transactions.md. -/
def F.GWL_CNT5.LATE_CPL : Fld := ⟨.GWL_CNT5, 31, 16, .w1cn, .n⟩
def F.GWL_CNT5.WF_RX : Fld := ⟨.GWL_CNT5, 15, 8, .w1cn, .n⟩
def F.GWL_CNT5.WF_UNMATCHED : Fld := ⟨.GWL_CNT5, 7, 0, .w1cn, .n⟩
/-! GWL_PROTO_REC: R381, 12_geward_link_and_transactions.md. -/
def F.GWL_PROTO_REC.VALID : Fld := ⟨.GWL_PROTO_REC, 31, 31, .w1c, .n⟩
def F.GWL_PROTO_REC.CAUSE : Fld := ⟨.GWL_PROTO_REC, 30, 28, .ro, .n⟩
def F.GWL_PROTO_REC.SEQ : Fld := ⟨.GWL_PROTO_REC, 23, 12, .ro, .n⟩
def F.GWL_PROTO_REC.TAG : Fld := ⟨.GWL_PROTO_REC, 9, 0, .ro, .n⟩
/-! GWL_CRED: R377, 12_geward_link_and_transactions.md. -/
def F.GWL_CRED.HDR : Fld := ⟨.GWL_CRED, 31, 20, .ro, .n⟩
def F.GWL_CRED.DATA : Fld := ⟨.GWL_CRED, 19, 0, .ro, .n⟩
/-! HQE_CTRL: R419, 13_host_rings.md. -/
def F.HQE_CTRL.EN : Fld := ⟨.HQE_CTRL, 31, 31, .rw, .n⟩
def F.HQE_CTRL.ADMIN_RESUME : Fld := ⟨.HQE_CTRL, 30, 30, .wo, .n⟩
def F.HQE_CTRL.PREFETCH : Fld := ⟨.HQE_CTRL, 15, 12, .rw, .l⟩
/-! HQE_ADMIN_CFG: R421, 13_host_rings.md. -/
def F.HQE_ADMIN_CFG.SUB_SIZE : Fld := ⟨.HQE_ADMIN_CFG, 31, 28, .rw, .l⟩
def F.HQE_ADMIN_CFG.CMP_SIZE : Fld := ⟨.HQE_ADMIN_CFG, 27, 24, .rw, .l⟩
def F.HQE_ADMIN_CFG.VECTOR : Fld := ⟨.HQE_ADMIN_CFG, 23, 8, .rw, .l⟩
def F.HQE_ADMIN_CFG.MOD_CNT : Fld := ⟨.HQE_ADMIN_CFG, 7, 0, .rw, .l⟩
/-! HQE_ASUB_LO: R420, 13_host_rings.md. -/
def F.HQE_ASUB_LO.BASE_LO : Fld := ⟨.HQE_ASUB_LO, 31, 12, .rw, .l⟩
/-! HQE_ASUB_HI: R420, 13_host_rings.md. -/
def F.HQE_ASUB_HI.BASE_HI : Fld := ⟨.HQE_ASUB_HI, 31, 0, .rw, .l⟩
/-! HQE_ACMP_LO: R420, 13_host_rings.md. -/
def F.HQE_ACMP_LO.BASE_LO : Fld := ⟨.HQE_ACMP_LO, 31, 12, .rw, .l⟩
/-! HQE_ACMP_HI: R420, 13_host_rings.md. -/
def F.HQE_ACMP_HI.BASE_HI : Fld := ⟨.HQE_ACMP_HI, 31, 0, .rw, .l⟩
/-! HQE_STAT: R423, 13_host_rings.md. -/
def F.HQE_STAT.RUNNING : Fld := ⟨.HQE_STAT, 31, 31, .ro, .n⟩
def F.HQE_STAT.CTX_HBM : Fld := ⟨.HQE_STAT, 30, 30, .ro, .n⟩
def F.HQE_STAT.DBQ_FULL : Fld := ⟨.HQE_STAT, 29, 29, .w1c, .n⟩
def F.HQE_STAT.CACHED : Fld := ⟨.HQE_STAT, 24, 12, .ro, .n⟩
def F.HQE_STAT.PINNED : Fld := ⟨.HQE_STAT, 11, 0, .ro, .n⟩
/-! HQE_CNT0: R424, 13_host_rings.md. -/
def F.HQE_CNT0.DB_DISCARD : Fld := ⟨.HQE_CNT0, 31, 16, .w1cn, .n⟩
def F.HQE_CNT0.CTX_MISS : Fld := ⟨.HQE_CNT0, 15, 0, .w1cn, .n⟩
/-! HQE_CNT1: R424, 13_host_rings.md. -/
def F.HQE_CNT1.EVT_LOST : Fld := ⟨.HQE_CNT1, 31, 16, .w1cn, .n⟩
def F.HQE_CNT1.RING_ERR : Fld := ⟨.HQE_CNT1, 15, 8, .w1cn, .n⟩
def F.HQE_CNT1.WINDOW : Fld := ⟨.HQE_CNT1, 7, 0, .w1cn, .n⟩
/-! HQE_ERR_REC0: R425, 13_host_rings.md. -/
def F.HQE_ERR_REC0.VALID : Fld := ⟨.HQE_ERR_REC0, 31, 31, .w1c, .n⟩
def F.HQE_ERR_REC0.ERR : Fld := ⟨.HQE_ERR_REC0, 30, 27, .ro, .n⟩
def F.HQE_ERR_REC0.DOMAIN : Fld := ⟨.HQE_ERR_REC0, 26, 21, .ro, .n⟩
def F.HQE_ERR_REC0.RING : Fld := ⟨.HQE_ERR_REC0, 20, 9, .ro, .n⟩
/-! HQE_ERR_REC1: R425, 13_host_rings.md. -/
def F.HQE_ERR_REC1.ADDR : Fld := ⟨.HQE_ERR_REC1, 31, 0, .ro, .n⟩
/-! HQE_ERR_REC2: R425, 13_host_rings.md. -/
def F.HQE_ERR_REC2.ADDR : Fld := ⟨.HQE_ERR_REC2, 31, 0, .ro, .n⟩
/-! HQE_WIN0: R422, 13_host_rings.md. -/
def F.HQE_WIN0.BASE_LO : Fld := ⟨.HQE_WIN0, 31, 12, .rw, .l⟩
def F.HQE_WIN0.WR : Fld := ⟨.HQE_WIN0, 1, 1, .rw, .l⟩
def F.HQE_WIN0.RD : Fld := ⟨.HQE_WIN0, 0, 0, .rw, .l⟩
/-! HQE_WIN1: R422, 13_host_rings.md. -/
def F.HQE_WIN1.BASE_HI : Fld := ⟨.HQE_WIN1, 31, 0, .rw, .l⟩
/-! HQE_WIN2: R422, 13_host_rings.md. -/
def F.HQE_WIN2.SIZE : Fld := ⟨.HQE_WIN2, 31, 0, .rw, .l⟩
/-! DEG_PORT_CTRL: R457, 14_displays_and_telltales.md. -/
def F.DEG_PORT_CTRL.RUN : Fld := ⟨.DEG_PORT_CTRL, 31, 31, .rw, .n⟩
def F.DEG_PORT_CTRL.RASTER : Fld := ⟨.DEG_PORT_CTRL, 30, 28, .rw, .l⟩
def F.DEG_PORT_CTRL.GEAR : Fld := ⟨.DEG_PORT_CTRL, 27, 25, .rw, .l⟩
def F.DEG_PORT_CTRL.FORMAT : Fld := ⟨.DEG_PORT_CTRL, 24, 23, .rw, .l⟩
def F.DEG_PORT_CTRL.E2E_EN : Fld := ⟨.DEG_PORT_CTRL, 22, 22, .rw, .l⟩
def F.DEG_PORT_CTRL.DISP_ID : Fld := ⟨.DEG_PORT_CTRL, 15, 0, .rw, .l⟩
/-! DEG_VTIMING0: R458, 14_displays_and_telltales.md. -/
def F.DEG_VTIMING0.VTOTAL : Fld := ⟨.DEG_VTIMING0, 31, 16, .rw, .s⟩
def F.DEG_VTIMING0.VACT : Fld := ⟨.DEG_VTIMING0, 15, 0, .rw, .s⟩
/-! DEG_VTIMING1: R458, 14_displays_and_telltales.md. -/
def F.DEG_VTIMING1.VSA : Fld := ⟨.DEG_VTIMING1, 31, 24, .rw, .s⟩
def F.DEG_VTIMING1.VBP : Fld := ⟨.DEG_VTIMING1, 23, 16, .rw, .s⟩
def F.DEG_VTIMING1.VSTART : Fld := ⟨.DEG_VTIMING1, 15, 0, .rw, .s⟩
/-! DEG_HTIMING0: R458, 14_displays_and_telltales.md. -/
def F.DEG_HTIMING0.HTOTAL : Fld := ⟨.DEG_HTIMING0, 31, 16, .rw, .s⟩
def F.DEG_HTIMING0.HACT : Fld := ⟨.DEG_HTIMING0, 15, 0, .rw, .s⟩
/-! DEG_HTIMING1: R458, 14_displays_and_telltales.md. -/
def F.DEG_HTIMING1.HSA : Fld := ⟨.DEG_HTIMING1, 31, 24, .rw, .s⟩
def F.DEG_HTIMING1.HBP : Fld := ⟨.DEG_HTIMING1, 23, 16, .rw, .s⟩
/-! DEG_PORT_STAT: R459, 14_displays_and_telltales.md. -/
def F.DEG_PORT_STAT.LINK_UP : Fld := ⟨.DEG_PORT_STAT, 31, 31, .ro, .n⟩
def F.DEG_PORT_STAT.LINK_LOST : Fld := ⟨.DEG_PORT_STAT, 30, 30, .w1c, .n⟩
def F.DEG_PORT_STAT.HOST_ERR : Fld := ⟨.DEG_PORT_STAT, 29, 29, .w1c, .n⟩
def F.DEG_PORT_STAT.SAFE_BLACK : Fld := ⟨.DEG_PORT_STAT, 28, 28, .ro, .n⟩
def F.DEG_PORT_STAT.HIDDEN : Fld := ⟨.DEG_PORT_STAT, 23, 20, .ro, .n⟩
def F.DEG_PORT_STAT.NOSRC : Fld := ⟨.DEG_PORT_STAT, 19, 16, .ro, .n⟩
/-! DEG_LAYER_CFG: R460, 14_displays_and_telltales.md. -/
def F.DEG_LAYER_CFG.EN : Fld := ⟨.DEG_LAYER_CFG, 31, 31, .rw, .s⟩
def F.DEG_LAYER_CFG.SRC : Fld := ⟨.DEG_LAYER_CFG, 30, 29, .rw, .s⟩
def F.DEG_LAYER_CFG.CLASS : Fld := ⟨.DEG_LAYER_CFG, 28, 27, .rw, .s⟩
def F.DEG_LAYER_CFG.PIXEL_ALPHA : Fld := ⟨.DEG_LAYER_CFG, 26, 26, .rw, .s⟩
def F.DEG_LAYER_CFG.PROTECT : Fld := ⟨.DEG_LAYER_CFG, 25, 25, .rw, .s⟩
def F.DEG_LAYER_CFG.HFMT : Fld := ⟨.DEG_LAYER_CFG, 24, 24, .rw, .s⟩
def F.DEG_LAYER_CFG.ALPHA : Fld := ⟨.DEG_LAYER_CFG, 23, 16, .rw, .s⟩
/-! DEG_LAYER_POS: R460, 14_displays_and_telltales.md. -/
def F.DEG_LAYER_POS.Y : Fld := ⟨.DEG_LAYER_POS, 31, 16, .rw, .s⟩
def F.DEG_LAYER_POS.X : Fld := ⟨.DEG_LAYER_POS, 15, 0, .rw, .s⟩
/-! DEG_LAYER_SIZE: R460, 14_displays_and_telltales.md. -/
def F.DEG_LAYER_SIZE.H : Fld := ⟨.DEG_LAYER_SIZE, 31, 16, .rw, .s⟩
def F.DEG_LAYER_SIZE.W : Fld := ⟨.DEG_LAYER_SIZE, 15, 0, .rw, .s⟩
/-! DEG_LAYER_CNT: R461, 14_displays_and_telltales.md. -/
def F.DEG_LAYER_CNT.REPEAT : Fld := ⟨.DEG_LAYER_CNT, 31, 16, .w1cn, .n⟩
def F.DEG_LAYER_CNT.STALE : Fld := ⟨.DEG_LAYER_CNT, 15, 0, .w1cn, .n⟩
/-! MGD_CTRL: R462, 14_displays_and_telltales.md. -/
def F.MGD_CTRL.HOST_TMO : Fld := ⟨.MGD_CTRL, 13, 6, .rw, .s⟩
def F.MGD_CTRL.HOST_DOMAIN : Fld := ⟨.MGD_CTRL, 5, 0, .rw, .l⟩
/-! MGD_LOG_CI: R467, 14_displays_and_telltales.md. -/
def F.MGD_LOG_CI.CI : Fld := ⟨.MGD_LOG_CI, 31, 0, .rw, .n⟩
/-! MGD_LOG_STAT: R467, 14_displays_and_telltales.md. -/
def F.MGD_LOG_STAT.EN : Fld := ⟨.MGD_LOG_STAT, 31, 31, .ro, .n⟩
def F.MGD_LOG_STAT.WF_OFF : Fld := ⟨.MGD_LOG_STAT, 30, 30, .w1c, .n⟩
def F.MGD_LOG_STAT.WIN_OFF : Fld := ⟨.MGD_LOG_STAT, 29, 29, .w1c, .n⟩
def F.MGD_LOG_STAT.BUF_USED : Fld := ⟨.MGD_LOG_STAT, 12, 0, .ro, .n⟩
/-! MGD_LOG_CNT: R467, 14_displays_and_telltales.md. -/
def F.MGD_LOG_CNT.LOST_PASS : Fld := ⟨.MGD_LOG_CNT, 31, 16, .w1cn, .n⟩
def F.MGD_LOG_CNT.LOST_FAIL : Fld := ⟨.MGD_LOG_CNT, 15, 0, .w1cn, .n⟩
/-! MGD_BANK_STAT: R466, 14_displays_and_telltales.md. -/
def F.MGD_BANK_STAT.VALID : Fld := ⟨.MGD_BANK_STAT, 31, 31, .ro, .n⟩
def F.MGD_BANK_STAT.LOADING : Fld := ⟨.MGD_BANK_STAT, 30, 30, .ro, .n⟩
def F.MGD_BANK_STAT.KEY_SLOT : Fld := ⟨.MGD_BANK_STAT, 29, 26, .ro, .n⟩
def F.MGD_BANK_STAT.NIMG : Fld := ⟨.MGD_BANK_STAT, 25, 16, .ro, .n⟩
def F.MGD_BANK_STAT.VERSION : Fld := ⟨.MGD_BANK_STAT, 15, 0, .ro, .n⟩
/-! MGD_PORT_CTRL: R462, 14_displays_and_telltales.md. -/
def F.MGD_PORT_CTRL.EN : Fld := ⟨.MGD_PORT_CTRL, 31, 31, .rw, .s⟩
def F.MGD_PORT_CTRL.BANK : Fld := ⟨.MGD_PORT_CTRL, 30, 30, .rw, .s⟩
def F.MGD_PORT_CTRL.FAIL_LIM : Fld := ⟨.MGD_PORT_CTRL, 23, 16, .rw, .s⟩
def F.MGD_PORT_CTRL.RB_LINE : Fld := ⟨.MGD_PORT_CTRL, 15, 0, .rw, .s⟩
/-! MGD_PORT_LINES: R462, 14_displays_and_telltales.md. -/
def F.MGD_PORT_LINES.LATCH : Fld := ⟨.MGD_PORT_LINES, 31, 16, .rw, .s⟩
def F.MGD_PORT_LINES.PROOF_LINE : Fld := ⟨.MGD_PORT_LINES, 15, 0, .rw, .s⟩
/-! MGD_SLOT_CFG: R463, 14_displays_and_telltales.md. -/
def F.MGD_SLOT_CFG.EN : Fld := ⟨.MGD_SLOT_CFG, 31, 31, .rw, .s⟩
def F.MGD_SLOT_CFG.PORT : Fld := ⟨.MGD_SLOT_CFG, 30, 29, .rw, .l⟩
def F.MGD_SLOT_CFG.BLANK : Fld := ⟨.MGD_SLOT_CFG, 25, 16, .rw, .s⟩
def F.MGD_SLOT_CFG.H1 : Fld := ⟨.MGD_SLOT_CFG, 15, 8, .rw, .s⟩
def F.MGD_SLOT_CFG.W1 : Fld := ⟨.MGD_SLOT_CFG, 7, 0, .rw, .s⟩
/-! MGD_SLOT_POS: R463, 14_displays_and_telltales.md. -/
def F.MGD_SLOT_POS.Y : Fld := ⟨.MGD_SLOT_POS, 31, 16, .rw, .s⟩
def F.MGD_SLOT_POS.X : Fld := ⟨.MGD_SLOT_POS, 15, 0, .rw, .s⟩
/-! MGD_SLOT_RB: R463, 14_displays_and_telltales.md. -/
def F.MGD_SLOT_RB.RB_EN : Fld := ⟨.MGD_SLOT_RB, 31, 31, .rw, .s⟩
def F.MGD_SLOT_RB.RB_LAG : Fld := ⟨.MGD_SLOT_RB, 30, 28, .rw, .s⟩
def F.MGD_SLOT_RB.RB_DEV : Fld := ⟨.MGD_SLOT_RB, 22, 16, .rw, .s⟩
def F.MGD_SLOT_RB.RB_REG : Fld := ⟨.MGD_SLOT_RB, 15, 0, .rw, .s⟩
/-! MGD_TT_CFG: R464, 14_displays_and_telltales.md. -/
def F.MGD_TT_CFG.EN : Fld := ⟨.MGD_TT_CFG, 31, 31, .rw, .s⟩
def F.MGD_TT_CFG.PORT : Fld := ⟨.MGD_TT_CFG, 30, 29, .rw, .l⟩
def F.MGD_TT_CFG.SLOT : Fld := ⟨.MGD_TT_CFG, 28, 24, .rw, .s⟩
def F.MGD_TT_CFG.PRIO : Fld := ⟨.MGD_TT_CFG, 23, 20, .rw, .s⟩
def F.MGD_TT_CFG.SRC : Fld := ⟨.MGD_TT_CFG, 19, 18, .rw, .s⟩
def F.MGD_TT_CFG.STALE_STATE : Fld := ⟨.MGD_TT_CFG, 17, 16, .rw, .s⟩
def F.MGD_TT_CFG.FIXED : Fld := ⟨.MGD_TT_CFG, 15, 14, .rw, .s⟩
def F.MGD_TT_CFG.BLINK : Fld := ⟨.MGD_TT_CFG, 13, 12, .rw, .s⟩
def F.MGD_TT_CFG.ON_FR : Fld := ⟨.MGD_TT_CFG, 11, 6, .rw, .s⟩
def F.MGD_TT_CFG.OFF_FR : Fld := ⟨.MGD_TT_CFG, 5, 0, .rw, .s⟩
/-! MGD_TT_IMG: R464, 14_displays_and_telltales.md. -/
def F.MGD_TT_IMG.IMG_ALT : Fld := ⟨.MGD_TT_IMG, 25, 16, .rw, .s⟩
def F.MGD_TT_IMG.IMG_ON : Fld := ⟨.MGD_TT_IMG, 9, 0, .rw, .s⟩
/-! MGD_TT_STAT: R465, 14_displays_and_telltales.md. -/
def F.MGD_TT_STAT.EFF : Fld := ⟨.MGD_TT_STAT, 31, 30, .ro, .n⟩
def F.MGD_TT_STAT.STALE : Fld := ⟨.MGD_TT_STAT, 29, 29, .ro, .n⟩
def F.MGD_TT_STAT.SHOWN : Fld := ⟨.MGD_TT_STAT, 28, 28, .ro, .n⟩
def F.MGD_TT_STAT.LAST : Fld := ⟨.MGD_TT_STAT, 27, 25, .ro, .n⟩
def F.MGD_TT_STAT.CONSEC : Fld := ⟨.MGD_TT_STAT, 24, 16, .ro, .n⟩
def F.MGD_TT_STAT.IN : Fld := ⟨.MGD_TT_STAT, 15, 14, .ro, .n⟩
def F.MGD_TT_STAT.IN_VALID : Fld := ⟨.MGD_TT_STAT, 13, 13, .ro, .n⟩
/-! MGD_TT_CNT0: R465, 14_displays_and_telltales.md. -/
def F.MGD_TT_CNT0.PASS : Fld := ⟨.MGD_TT_CNT0, 31, 0, .w1cn, .n⟩
/-! MGD_TT_CNT1: R465, 14_displays_and_telltales.md. -/
def F.MGD_TT_CNT1.FAIL : Fld := ⟨.MGD_TT_CNT1, 31, 16, .w1cn, .n⟩
def F.MGD_TT_CNT1.RB_FAIL : Fld := ⟨.MGD_TT_CNT1, 15, 0, .w1cn, .n⟩
/-! VBR_CTRL: R498, 15_vehicle_bridge.md. -/
def F.VBR_CTRL.EN : Fld := ⟨.VBR_CTRL, 31, 31, .rw, .n⟩
def F.VBR_CTRL.SIG_DOMAIN : Fld := ⟨.VBR_CTRL, 21, 16, .rw, .l⟩
def F.VBR_CTRL.RETRY_MS : Fld := ⟨.VBR_CTRL, 15, 8, .rw, .s⟩
def F.VBR_CTRL.PF_LIFE : Fld := ⟨.VBR_CTRL, 7, 0, .rw, .s⟩
/-! VBR_LVT_CTRL: R499, 15_vehicle_bridge.md. -/
def F.VBR_LVT_CTRL.EN : Fld := ⟨.VBR_LVT_CTRL, 31, 31, .rw, .s⟩
def F.VBR_LVT_CTRL.RASTER : Fld := ⟨.VBR_LVT_CTRL, 30, 28, .rw, .s⟩
def F.VBR_LVT_CTRL.LINES : Fld := ⟨.VBR_LVT_CTRL, 15, 0, .rw, .s⟩
/-! VBR_LVT_BASE_LO: R499, 15_vehicle_bridge.md. -/
def F.VBR_LVT_BASE_LO.BASE_LO : Fld := ⟨.VBR_LVT_BASE_LO, 31, 12, .rw, .s⟩
/-! VBR_LVT_BASE_HI: R499, 15_vehicle_bridge.md. -/
def F.VBR_LVT_BASE_HI.BASE_HI : Fld := ⟨.VBR_LVT_BASE_HI, 31, 0, .rw, .s⟩
/-! VBR_STAT: R504, 15_vehicle_bridge.md. -/
def F.VBR_STAT.STALE_ANY : Fld := ⟨.VBR_STAT, 31, 31, .ro, .n⟩
def F.VBR_STAT.LVT_OFF : Fld := ⟨.VBR_STAT, 30, 30, .w1c, .n⟩
def F.VBR_STAT.OPEN_READS : Fld := ⟨.VBR_STAT, 22, 16, .ro, .n⟩
def F.VBR_STAT.PARKED : Fld := ⟨.VBR_STAT, 5, 0, .ro, .n⟩
/-! VBR_CNT0: R505, 15_vehicle_bridge.md. -/
def F.VBR_CNT0.E2E_CRC : Fld := ⟨.VBR_CNT0, 31, 16, .w1cn, .n⟩
def F.VBR_CNT0.E2E_SEQ : Fld := ⟨.VBR_CNT0, 15, 8, .w1cn, .n⟩
def F.VBR_CNT0.E2E_REPEAT : Fld := ⟨.VBR_CNT0, 7, 0, .w1cn, .n⟩
/-! VBR_CNT1: R505, 15_vehicle_bridge.md. -/
def F.VBR_CNT1.RANGE : Fld := ⟨.VBR_CNT1, 31, 16, .w1cn, .n⟩
def F.VBR_CNT1.STALE_ENTRY : Fld := ⟨.VBR_CNT1, 15, 8, .w1cn, .n⟩
def F.VBR_CNT1.PARK_LOST : Fld := ⟨.VBR_CNT1, 7, 0, .w1cn, .n⟩
/-! VBR_CNT2: R505, 15_vehicle_bridge.md. -/
def F.VBR_CNT2.RD_BUSY : Fld := ⟨.VBR_CNT2, 31, 16, .w1cn, .n⟩
def F.VBR_CNT2.PF_DROP : Fld := ⟨.VBR_CNT2, 15, 8, .w1cn, .n⟩
def F.VBR_CNT2.LATE : Fld := ⟨.VBR_CNT2, 7, 0, .w1cn, .n⟩
/-! VBR_LATE_REC0: R506, 15_vehicle_bridge.md. -/
def F.VBR_LATE_REC0.VALID : Fld := ⟨.VBR_LATE_REC0, 31, 31, .w1c, .n⟩
def F.VBR_LATE_REC0.CAUSE : Fld := ⟨.VBR_LATE_REC0, 30, 29, .ro, .n⟩
def F.VBR_LATE_REC0.DOMAIN : Fld := ⟨.VBR_LATE_REC0, 28, 23, .ro, .n⟩
def F.VBR_LATE_REC0.PORT : Fld := ⟨.VBR_LATE_REC0, 22, 18, .ro, .n⟩
def F.VBR_LATE_REC0.DEV : Fld := ⟨.VBR_LATE_REC0, 17, 11, .ro, .n⟩
def F.VBR_LATE_REC0.LEN : Fld := ⟨.VBR_LATE_REC0, 6, 0, .ro, .n⟩
/-! VBR_LATE_REC1: R506, 15_vehicle_bridge.md. -/
def F.VBR_LATE_REC1.REG : Fld := ⟨.VBR_LATE_REC1, 31, 16, .ro, .n⟩
def F.VBR_LATE_REC1.TAG : Fld := ⟨.VBR_LATE_REC1, 9, 0, .ro, .n⟩
/-! VBR_TBL_ACC: R507, 15_vehicle_bridge.md. -/
def F.VBR_TBL_ACC.GO : Fld := ⟨.VBR_TBL_ACC, 31, 31, .wo, .n⟩
def F.VBR_TBL_ACC.BUSY : Fld := ⟨.VBR_TBL_ACC, 30, 30, .ro, .n⟩
def F.VBR_TBL_ACC.TABLE : Fld := ⟨.VBR_TBL_ACC, 14, 12, .rw, .n⟩
def F.VBR_TBL_ACC.INDEX : Fld := ⟨.VBR_TBL_ACC, 11, 0, .rw, .n⟩
/-! VBR_TBL_DATA: R507, 15_vehicle_bridge.md. -/
def F.VBR_TBL_DATA.DATA : Fld := ⟨.VBR_TBL_DATA, 31, 0, .ro, .n⟩
/-! VBR_CAN_CTRL: R500, 15_vehicle_bridge.md. -/
def F.VBR_CAN_CTRL.EN : Fld := ⟨.VBR_CAN_CTRL, 31, 31, .rw, .n⟩
def F.VBR_CAN_CTRL.MON : Fld := ⟨.VBR_CAN_CTRL, 30, 30, .rw, .l⟩
def F.VBR_CAN_CTRL.AUTO_REC : Fld := ⟨.VBR_CAN_CTRL, 29, 29, .rw, .l⟩
def F.VBR_CAN_CTRL.FD_EN : Fld := ⟨.VBR_CAN_CTRL, 28, 28, .rw, .l⟩
def F.VBR_CAN_CTRL.RESTART : Fld := ⟨.VBR_CAN_CTRL, 27, 27, .wo, .n⟩
def F.VBR_CAN_CTRL.TDCO : Fld := ⟨.VBR_CAN_CTRL, 7, 0, .rw, .l⟩
/-! VBR_CAN_NBT: R501, 15_vehicle_bridge.md. -/
def F.VBR_CAN_NBT.BRP : Fld := ⟨.VBR_CAN_NBT, 31, 27, .rw, .l⟩
def F.VBR_CAN_NBT.TSEG1 : Fld := ⟨.VBR_CAN_NBT, 26, 19, .rw, .l⟩
def F.VBR_CAN_NBT.TSEG2 : Fld := ⟨.VBR_CAN_NBT, 18, 12, .rw, .l⟩
def F.VBR_CAN_NBT.SJW : Fld := ⟨.VBR_CAN_NBT, 11, 5, .rw, .l⟩
/-! VBR_CAN_DBT: R501, 15_vehicle_bridge.md. -/
def F.VBR_CAN_DBT.BRP : Fld := ⟨.VBR_CAN_DBT, 31, 27, .rw, .l⟩
def F.VBR_CAN_DBT.TSEG1 : Fld := ⟨.VBR_CAN_DBT, 26, 22, .rw, .l⟩
def F.VBR_CAN_DBT.TSEG2 : Fld := ⟨.VBR_CAN_DBT, 21, 18, .rw, .l⟩
def F.VBR_CAN_DBT.SJW : Fld := ⟨.VBR_CAN_DBT, 17, 14, .rw, .l⟩
/-! VBR_CAN_STAT: R502, 15_vehicle_bridge.md. -/
def F.VBR_CAN_STAT.STATE : Fld := ⟨.VBR_CAN_STAT, 31, 30, .ro, .n⟩
def F.VBR_CAN_STAT.BUS_OFF : Fld := ⟨.VBR_CAN_STAT, 29, 29, .w1c, .n⟩
def F.VBR_CAN_STAT.REC : Fld := ⟨.VBR_CAN_STAT, 23, 16, .ro, .n⟩
def F.VBR_CAN_STAT.TEC : Fld := ⟨.VBR_CAN_STAT, 15, 8, .ro, .n⟩
/-! VBR_CAN_CNT: R502, 15_vehicle_bridge.md. -/
def F.VBR_CAN_CNT.RX : Fld := ⟨.VBR_CAN_CNT, 31, 16, .w1cn, .n⟩
def F.VBR_CAN_CNT.ERR : Fld := ⟨.VBR_CAN_CNT, 15, 0, .w1cn, .n⟩
/-! VBR_RPORT: R503, 15_vehicle_bridge.md. -/
def F.VBR_RPORT.SPEED : Fld := ⟨.VBR_RPORT, 31, 30, .rw, .s⟩
def F.VBR_RPORT.XFER_MS : Fld := ⟨.VBR_RPORT, 7, 0, .rw, .s⟩
/-! VBR_RSLOT: R503, 15_vehicle_bridge.md. -/
def F.VBR_RSLOT.EN : Fld := ⟨.VBR_RSLOT, 31, 31, .rw, .s⟩
def F.VBR_RSLOT.REG16 : Fld := ⟨.VBR_RSLOT, 30, 30, .rw, .s⟩
def F.VBR_RSLOT.DEV : Fld := ⟨.VBR_RSLOT, 29, 23, .rw, .s⟩
def F.VBR_RSLOT.REG_BASE : Fld := ⟨.VBR_RSLOT, 15, 0, .rw, .s⟩
/-! SMB0_CTRL: R522, 16_board_bus.md. -/
def F.SMB0_CTRL.ALERT_MASK : Fld := ⟨.SMB0_CTRL, 31, 24, .rw, .n⟩
def F.SMB0_CTRL.PEC_MODE : Fld := ⟨.SMB0_CTRL, 9, 8, .rw, .n⟩
def F.SMB0_CTRL.TMO_EN : Fld := ⟨.SMB0_CTRL, 7, 7, .rw, .n⟩
def F.SMB0_CTRL.ADDR : Fld := ⟨.SMB0_CTRL, 6, 0, .ro, .n⟩
/-! SMB0_STAT: R523, 16_board_bus.md. -/
def F.SMB0_STAT.ALERT : Fld := ⟨.SMB0_STAT, 31, 31, .ro, .n⟩
def F.SMB0_STAT.ARA_WON : Fld := ⟨.SMB0_STAT, 30, 30, .w1c, .n⟩
def F.SMB0_STAT.STBY_REF : Fld := ⟨.SMB0_STAT, 8, 8, .w1c, .n⟩
def F.SMB0_STAT.OVERREAD : Fld := ⟨.SMB0_STAT, 7, 7, .w1c, .n⟩
def F.SMB0_STAT.SHORT : Fld := ⟨.SMB0_STAT, 6, 6, .w1c, .n⟩
def F.SMB0_STAT.ACC_ERR : Fld := ⟨.SMB0_STAT, 5, 5, .w1c, .n⟩
def F.SMB0_STAT.PROTO : Fld := ⟨.SMB0_STAT, 4, 4, .w1c, .n⟩
def F.SMB0_STAT.RS_ACK : Fld := ⟨.SMB0_STAT, 3, 3, .w1c, .n⟩
def F.SMB0_STAT.TIMEOUT : Fld := ⟨.SMB0_STAT, 2, 2, .w1c, .n⟩
def F.SMB0_STAT.PEC_ERR : Fld := ⟨.SMB0_STAT, 1, 1, .w1c, .n⟩
def F.SMB0_STAT.CMD_NACK : Fld := ⟨.SMB0_STAT, 0, 0, .w1c, .n⟩
/-! SMB0_CNT: R523, 16_board_bus.md. -/
def F.SMB0_CNT.MSG : Fld := ⟨.SMB0_CNT, 31, 16, .w1cn, .n⟩
def F.SMB0_CNT.ERR : Fld := ⟨.SMB0_CNT, 15, 0, .w1cn, .n⟩
/-! SMB0_ALERT: R524, 16_board_bus.md. -/
def F.SMB0_ALERT.PENDING : Fld := ⟨.SMB0_ALERT, 7, 0, .ro, .n⟩
/-! SMB1_CTRL: R525, 16_board_bus.md. -/
def F.SMB1_CTRL.EN : Fld := ⟨.SMB1_CTRL, 31, 31, .rw, .n⟩
def F.SMB1_CTRL.SPEED : Fld := ⟨.SMB1_CTRL, 30, 29, .rw, .l⟩
def F.SMB1_CTRL.TMO_EN : Fld := ⟨.SMB1_CTRL, 28, 28, .rw, .l⟩
def F.SMB1_CTRL.RETRY : Fld := ⟨.SMB1_CTRL, 27, 24, .rw, .l⟩
/-! SMB1_XFER: R526, 16_board_bus.md. -/
def F.SMB1_XFER.GO : Fld := ⟨.SMB1_XFER, 31, 31, .wo, .n⟩
def F.SMB1_XFER.DIR : Fld := ⟨.SMB1_XFER, 30, 30, .rw, .n⟩
def F.SMB1_XFER.CMD_EN : Fld := ⟨.SMB1_XFER, 29, 29, .rw, .n⟩
def F.SMB1_XFER.PEC_EN : Fld := ⟨.SMB1_XFER, 28, 28, .rw, .n⟩
def F.SMB1_XFER.DEV : Fld := ⟨.SMB1_XFER, 27, 21, .rw, .n⟩
def F.SMB1_XFER.CMD : Fld := ⟨.SMB1_XFER, 20, 13, .rw, .n⟩
def F.SMB1_XFER.LEN : Fld := ⟨.SMB1_XFER, 12, 8, .rw, .n⟩
/-! SMB1_STAT: R528, 16_board_bus.md. -/
def F.SMB1_STAT.BUSY : Fld := ⟨.SMB1_STAT, 31, 31, .ro, .n⟩
def F.SMB1_STAT.DONE : Fld := ⟨.SMB1_STAT, 30, 30, .w1c, .n⟩
def F.SMB1_STAT.RESULT : Fld := ⟨.SMB1_STAT, 29, 27, .ro, .n⟩
def F.SMB1_STAT.BUS_CLEAR : Fld := ⟨.SMB1_STAT, 26, 26, .w1c, .n⟩
def F.SMB1_STAT.ATTEMPTS : Fld := ⟨.SMB1_STAT, 20, 16, .ro, .n⟩
/-! SMB1_CNT: R528, 16_board_bus.md. -/
def F.SMB1_CNT.ARB_LOST : Fld := ⟨.SMB1_CNT, 31, 16, .w1cn, .n⟩
def F.SMB1_CNT.NACK : Fld := ⟨.SMB1_CNT, 15, 0, .w1cn, .n⟩
/-! SMB1_DATA: R527, 16_board_bus.md. -/
def F.SMB1_DATA.DATA : Fld := ⟨.SMB1_DATA, 31, 0, .rw, .n⟩
/-! FCL_CTRL: R553, 17_faults_and_black_box.md. -/
def F.FCL_CTRL.LOCK : Fld := ⟨.FCL_CTRL, 31, 31, .rw, .n⟩
def F.FCL_CTRL.FORCE_SAFE : Fld := ⟨.FCL_CTRL, 30, 30, .wo, .n⟩
/-! FCL_SAFE: R554, 17_faults_and_black_box.md. -/
def F.FCL_SAFE.SAFE : Fld := ⟨.FCL_SAFE, 31, 31, .ro, .n⟩
def F.FCL_SAFE.CAUSE : Fld := ⟨.FCL_SAFE, 30, 28, .ro, .n⟩
def F.FCL_SAFE.SOURCE : Fld := ⟨.FCL_SAFE, 27, 22, .ro, .n⟩
def F.FCL_SAFE.SELF_CODE : Fld := ⟨.FCL_SAFE, 21, 19, .ro, .n⟩
/-! FCL_STATUS_LO: R555, 17_faults_and_black_box.md. -/
def F.FCL_STATUS_LO.STATUS : Fld := ⟨.FCL_STATUS_LO, 31, 0, .w1c, .n⟩
/-! FCL_STATUS_HI: R555, 17_faults_and_black_box.md. -/
def F.FCL_STATUS_HI.STATUS : Fld := ⟨.FCL_STATUS_HI, 31, 0, .w1c, .n⟩
/-! FCL_LIVE_LO: R555, 17_faults_and_black_box.md. -/
def F.FCL_LIVE_LO.LIVE : Fld := ⟨.FCL_LIVE_LO, 31, 0, .ro, .n⟩
/-! FCL_LIVE_HI: R555, 17_faults_and_black_box.md. -/
def F.FCL_LIVE_HI.LIVE : Fld := ⟨.FCL_LIVE_HI, 31, 0, .ro, .n⟩
/-! FCL_COINC_LO: R559, 17_faults_and_black_box.md. -/
def F.FCL_COINC_LO.COINC : Fld := ⟨.FCL_COINC_LO, 31, 0, .ro, .n⟩
/-! FCL_COINC_HI: R559, 17_faults_and_black_box.md. -/
def F.FCL_COINC_HI.COINC : Fld := ⟨.FCL_COINC_HI, 31, 0, .ro, .n⟩
/-! FCL_REACT: R557, 17_faults_and_black_box.md. -/
def F.FCL_REACT.ALERT2 : Fld := ⟨.FCL_REACT, 5, 5, .rw, .l⟩
def F.FCL_REACT.EVENT2 : Fld := ⟨.FCL_REACT, 4, 4, .rw, .l⟩
def F.FCL_REACT.ALERT1 : Fld := ⟨.FCL_REACT, 3, 3, .rw, .l⟩
def F.FCL_REACT.EVENT1 : Fld := ⟨.FCL_REACT, 2, 2, .rw, .l⟩
def F.FCL_REACT.ALERT0 : Fld := ⟨.FCL_REACT, 1, 1, .rw, .l⟩
def F.FCL_REACT.EVENT0 : Fld := ⟨.FCL_REACT, 0, 0, .rw, .l⟩
/-! FCL_FF0: R558, 17_faults_and_black_box.md. -/
def F.FCL_FF0.VALID : Fld := ⟨.FCL_FF0, 31, 31, .w1c, .n⟩
def F.FCL_FF0.SOURCE : Fld := ⟨.FCL_FF0, 30, 25, .ro, .n⟩
def F.FCL_FF0.SEV : Fld := ⟨.FCL_FF0, 24, 23, .ro, .n⟩
/-! FCL_FF1: R558, 17_faults_and_black_box.md. -/
def F.FCL_FF1.VALUE : Fld := ⟨.FCL_FF1, 31, 0, .ro, .n⟩
/-! FCL_FF2: R558, 17_faults_and_black_box.md. -/
def F.FCL_FF2.RASTER : Fld := ⟨.FCL_FF2, 31, 29, .ro, .n⟩
def F.FCL_FF2.LINE : Fld := ⟨.FCL_FF2, 28, 13, .ro, .n⟩
def F.FCL_FF2.FRAC : Fld := ⟨.FCL_FF2, 12, 5, .ro, .n⟩
/-! FCL_FF3: R558, 17_faults_and_black_box.md. -/
def F.FCL_FF3.VALUE : Fld := ⟨.FCL_FF3, 31, 0, .ro, .n⟩
/-! FCL_FF4: R558, 17_faults_and_black_box.md. -/
def F.FCL_FF4.VALUE : Fld := ⟨.FCL_FF4, 31, 0, .ro, .n⟩
/-! FCL_FF5: R558, 17_faults_and_black_box.md. -/
def F.FCL_FF5.VALUE : Fld := ⟨.FCL_FF5, 31, 0, .ro, .n⟩
/-! FCL_SEV: R556, 17_faults_and_black_box.md. -/
def F.FCL_SEV.SEV : Fld := ⟨.FCL_SEV, 31, 0, .rw, .l⟩
/-! FCL_CNT: R560, 17_faults_and_black_box.md. -/
def F.FCL_CNT.CNT3 : Fld := ⟨.FCL_CNT, 31, 24, .w1cn, .n⟩
def F.FCL_CNT.CNT2 : Fld := ⟨.FCL_CNT, 23, 16, .w1cn, .n⟩
def F.FCL_CNT.CNT1 : Fld := ⟨.FCL_CNT, 15, 8, .w1cn, .n⟩
def F.FCL_CNT.CNT0 : Fld := ⟨.FCL_CNT, 7, 0, .w1cn, .n⟩
/-! LUP_CTRL: R561, 17_faults_and_black_box.md. -/
def F.LUP_CTRL.FREEZE : Fld := ⟨.LUP_CTRL, 31, 31, .wo, .n⟩
def F.LUP_CTRL.CLEAR : Fld := ⟨.LUP_CTRL, 30, 30, .wo, .n⟩
def F.LUP_CTRL.RELEASE : Fld := ⟨.LUP_CTRL, 29, 29, .wo, .n⟩
/-! LUP_MARK: R561, 17_faults_and_black_box.md. -/
def F.LUP_MARK.VALUE : Fld := ⟨.LUP_MARK, 31, 0, .wo, .n⟩
/-! LUP_STAT: R562, 17_faults_and_black_box.md. -/
def F.LUP_STAT.FROZEN : Fld := ⟨.LUP_STAT, 31, 31, .ro, .n⟩
def F.LUP_STAT.UNSAVED : Fld := ⟨.LUP_STAT, 30, 30, .ro, .n⟩
def F.LUP_STAT.REFUSED : Fld := ⟨.LUP_STAT, 29, 29, .w1c, .n⟩
def F.LUP_STAT.SAVE_FAIL : Fld := ⟨.LUP_STAT, 28, 28, .w1c, .n⟩
def F.LUP_STAT.LAST_SLOT : Fld := ⟨.LUP_STAT, 27, 26, .ro, .n⟩
def F.LUP_STAT.HOLD : Fld := ⟨.LUP_STAT, 25, 17, .ro, .n⟩
def F.LUP_STAT.COUNT : Fld := ⟨.LUP_STAT, 12, 0, .ro, .n⟩
/-! LUP_SEQ: R562, 17_faults_and_black_box.md. -/
def F.LUP_SEQ.NEXT : Fld := ⟨.LUP_SEQ, 31, 0, .ro, .n⟩
/-! LUP_CNT: R562, 17_faults_and_black_box.md. -/
def F.LUP_CNT.LOST : Fld := ⟨.LUP_CNT, 31, 16, .w1cn, .n⟩
def F.LUP_CNT.CORR : Fld := ⟨.LUP_CNT, 15, 0, .w1cn, .n⟩
/-! FIJ_STAT: R563, 17_faults_and_black_box.md. -/
def F.FIJ_STAT.UNLOCKED : Fld := ⟨.FIJ_STAT, 31, 31, .ro, .n⟩
def F.FIJ_STAT.FIRED : Fld := ⟨.FIJ_STAT, 15, 8, .w1c, .n⟩
def F.FIJ_STAT.ARMED : Fld := ⟨.FIJ_STAT, 7, 0, .ro, .n⟩
/-! FIJ_CTRL: R564, 17_faults_and_black_box.md. -/
def F.FIJ_CTRL.ARM : Fld := ⟨.FIJ_CTRL, 31, 31, .rw, .n⟩
def F.FIJ_CTRL.LINK : Fld := ⟨.FIJ_CTRL, 30, 28, .rw, .l⟩
def F.FIJ_CTRL.ACTION : Fld := ⟨.FIJ_CTRL, 27, 26, .rw, .l⟩
def F.FIJ_CTRL.STAGE : Fld := ⟨.FIJ_CTRL, 25, 25, .rw, .l⟩
def F.FIJ_CTRL.INST : Fld := ⟨.FIJ_CTRL, 24, 20, .rw, .l⟩
def F.FIJ_CTRL.COUNT : Fld := ⟨.FIJ_CTRL, 19, 12, .rw, .l⟩
def F.FIJ_CTRL.INTERVAL : Fld := ⟨.FIJ_CTRL, 11, 4, .rw, .l⟩
/-! FIJ_PAT: R564, 17_faults_and_black_box.md. -/
def F.FIJ_PAT.MASK : Fld := ⟨.FIJ_PAT, 31, 24, .rw, .l⟩
def F.FIJ_PAT.OFS : Fld := ⟨.FIJ_PAT, 15, 0, .rw, .l⟩
/-! FIJ_TRIG: R564, 17_faults_and_black_box.md. -/
def F.FIJ_TRIG.AT_EN : Fld := ⟨.FIJ_TRIG, 31, 31, .rw, .l⟩
def F.FIJ_TRIG.RASTER : Fld := ⟨.FIJ_TRIG, 30, 28, .rw, .l⟩
def F.FIJ_TRIG.LINE : Fld := ⟨.FIJ_TRIG, 15, 0, .rw, .l⟩
/-! SEC_CTRL: R592, 18_boot_and_security.md. -/
def F.SEC_CTRL.HANDOVER : Fld := ⟨.SEC_CTRL, 31, 31, .wo, .n⟩
/-! SEC_BOOT_STAT: R593, 18_boot_and_security.md. -/
def F.SEC_BOOT_STAT.WARM : Fld := ⟨.SEC_BOOT_STAT, 31, 31, .ro, .n⟩
def F.SEC_BOOT_STAT.ORDER : Fld := ⟨.SEC_BOOT_STAT, 30, 30, .ro, .n⟩
def F.SEC_BOOT_STAT.ID_OK : Fld := ⟨.SEC_BOOT_STAT, 29, 29, .ro, .n⟩
def F.SEC_BOOT_STAT.CERT_OK : Fld := ⟨.SEC_BOOT_STAT, 28, 28, .ro, .n⟩
def F.SEC_BOOT_STAT.SCRIPT_CUT : Fld := ⟨.SEC_BOOT_STAT, 27, 27, .ro, .n⟩
def F.SEC_BOOT_STAT.PROD_ERR : Fld := ⟨.SEC_BOOT_STAT, 26, 26, .ro, .n⟩
def F.SEC_BOOT_STAT.ASSET : Fld := ⟨.SEC_BOOT_STAT, 25, 24, .ro, .n⟩
def F.SEC_BOOT_STAT.PROF : Fld := ⟨.SEC_BOOT_STAT, 23, 22, .ro, .n⟩
def F.SEC_BOOT_STAT.FW_COPY : Fld := ⟨.SEC_BOOT_STAT, 21, 21, .ro, .n⟩
def F.SEC_BOOT_STAT.MODE : Fld := ⟨.SEC_BOOT_STAT, 20, 19, .ro, .n⟩
def F.SEC_BOOT_STAT.POLICY : Fld := ⟨.SEC_BOOT_STAT, 18, 18, .ro, .n⟩
def F.SEC_BOOT_STAT.LAST_ERR : Fld := ⟨.SEC_BOOT_STAT, 11, 8, .ro, .n⟩
def F.SEC_BOOT_STAT.STAGE : Fld := ⟨.SEC_BOOT_STAT, 7, 0, .ro, .n⟩
/-! SEC_BOOT_CNT: R594, 18_boot_and_security.md. -/
def F.SEC_BOOT_CNT.COUNT : Fld := ⟨.SEC_BOOT_CNT, 31, 0, .ro, .n⟩
/-! SEC_BOOT_NONCE: R594, 18_boot_and_security.md. -/
def F.SEC_BOOT_NONCE.NONCE : Fld := ⟨.SEC_BOOT_NONCE, 31, 0, .ro, .n⟩
/-! SEC_OP_CTRL: R595, 18_boot_and_security.md. -/
def F.SEC_OP_CTRL.GO : Fld := ⟨.SEC_OP_CTRL, 31, 31, .wo, .n⟩
def F.SEC_OP_CTRL.OP : Fld := ⟨.SEC_OP_CTRL, 3, 0, .rw, .n⟩
/-! SEC_OP_STAT: R595, 18_boot_and_security.md. -/
def F.SEC_OP_STAT.BUSY : Fld := ⟨.SEC_OP_STAT, 31, 31, .ro, .n⟩
def F.SEC_OP_STAT.DONE : Fld := ⟨.SEC_OP_STAT, 30, 30, .w1c, .n⟩
def F.SEC_OP_STAT.RESULT : Fld := ⟨.SEC_OP_STAT, 3, 0, .ro, .n⟩
/-! SEC_UNLOCK: R597, 18_boot_and_security.md. -/
def F.SEC_UNLOCK.SCOPE : Fld := ⟨.SEC_UNLOCK, 4, 0, .ro, .n⟩
/-! SEC_KEY_STAT: R597, 18_boot_and_security.md. -/
def F.SEC_KEY_STAT.REVOKED : Fld := ⟨.SEC_KEY_STAT, 7, 4, .ro, .n⟩
def F.SEC_KEY_STAT.VALID : Fld := ⟨.SEC_KEY_STAT, 3, 0, .ro, .n⟩
/-! SEC_ATT_NONCE: R596, 18_boot_and_security.md. -/
def F.SEC_ATT_NONCE.NONCE : Fld := ⟨.SEC_ATT_NONCE, 31, 0, .rw, .n⟩
/-! SEC_ARB: R598, 18_boot_and_security.md. -/
def F.SEC_ARB.CTR3 : Fld := ⟨.SEC_ARB, 31, 24, .ro, .n⟩
def F.SEC_ARB.CTR2 : Fld := ⟨.SEC_ARB, 23, 16, .ro, .n⟩
def F.SEC_ARB.CTR1 : Fld := ⟨.SEC_ARB, 15, 8, .ro, .n⟩
def F.SEC_ARB.CTR0 : Fld := ⟨.SEC_ARB, 7, 0, .ro, .n⟩
/-! EGV_CTRL: R619, 19_energy_and_counters.md. -/
def F.EGV_CTRL.LADDER_EN : Fld := ⟨.EGV_CTRL, 31, 31, .rw, .s⟩
def F.EGV_CTRL.C1_LEAN : Fld := ⟨.EGV_CTRL, 30, 28, .rw, .s⟩
def F.EGV_CTRL.DROP_N : Fld := ⟨.EGV_CTRL, 27, 24, .rw, .s⟩
def F.EGV_CTRL.UP_LINES : Fld := ⟨.EGV_CTRL, 23, 16, .rw, .s⟩
def F.EGV_CTRL.DOWN_LINES : Fld := ⟨.EGV_CTRL, 15, 0, .rw, .s⟩
/-! EGV_BUDGET: R619, 19_energy_and_counters.md. -/
def F.EGV_BUDGET.BUDGET_MW : Fld := ⟨.EGV_BUDGET, 31, 16, .rw, .s⟩
def F.EGV_BUDGET.BASE_MW : Fld := ⟨.EGV_BUDGET, 15, 0, .rw, .s⟩
/-! EGV_OTHER: R619, 19_energy_and_counters.md. -/
def F.EGV_OTHER.OTHER_MW : Fld := ⟨.EGV_OTHER, 31, 16, .ro, .n⟩
def F.EGV_OTHER.LEAK85_MW : Fld := ⟨.EGV_OTHER, 15, 0, .rw, .s⟩
/-! EGV_COST0: R620, 19_energy_and_counters.md. -/
def F.EGV_COST0.TOK4 : Fld := ⟨.EGV_COST0, 31, 24, .rw, .s⟩
def F.EGV_COST0.TOK3 : Fld := ⟨.EGV_COST0, 23, 16, .rw, .s⟩
def F.EGV_COST0.TOK2 : Fld := ⟨.EGV_COST0, 15, 8, .rw, .s⟩
def F.EGV_COST0.TOK1 : Fld := ⟨.EGV_COST0, 7, 0, .rw, .s⟩
/-! EGV_COST1: R620, 19_energy_and_counters.md. -/
def F.EGV_COST1.MARGIN : Fld := ⟨.EGV_COST1, 31, 28, .rw, .s⟩
def F.EGV_COST1.TOK6 : Fld := ⟨.EGV_COST1, 15, 8, .rw, .s⟩
def F.EGV_COST1.TOK5 : Fld := ⟨.EGV_COST1, 7, 0, .rw, .s⟩
/-! EGV_THERM: R621, 19_energy_and_counters.md. -/
def F.EGV_THERM.TJ_MAX : Fld := ⟨.EGV_THERM, 31, 24, .ro, .n⟩
def F.EGV_THERM.ALERT : Fld := ⟨.EGV_THERM, 23, 16, .rw, .s⟩
def F.EGV_THERM.SOFT : Fld := ⟨.EGV_THERM, 15, 8, .rw, .s⟩
def F.EGV_THERM.SLOPE : Fld := ⟨.EGV_THERM, 7, 0, .rw, .s⟩
/-! EGV_CLK: R621, 19_energy_and_counters.md. -/
def F.EGV_CLK.NOM_CODE : Fld := ⟨.EGV_CLK, 15, 8, .rw, .s⟩
def F.EGV_CLK.IDLE_CODE : Fld := ⟨.EGV_CLK, 7, 0, .rw, .s⟩
/-! EGV_STAT: R622, 19_energy_and_counters.md. -/
def F.EGV_STAT.LEVEL : Fld := ⟨.EGV_STAT, 31, 29, .ro, .n⟩
def F.EGV_STAT.DEBT : Fld := ⟨.EGV_STAT, 28, 28, .ro, .n⟩
def F.EGV_STAT.DERATE : Fld := ⟨.EGV_STAT, 27, 27, .ro, .n⟩
def F.EGV_STAT.CMD : Fld := ⟨.EGV_STAT, 26, 26, .ro, .n⟩
def F.EGV_STAT.EFF_MW : Fld := ⟨.EGV_STAT, 15, 0, .ro, .n⟩
/-! EGV_GRANT: R622, 19_energy_and_counters.md. -/
def F.EGV_GRANT.TOKENS : Fld := ⟨.EGV_GRANT, 23, 0, .ro, .n⟩
/-! EGV_DEMAND: R622, 19_energy_and_counters.md. -/
def F.EGV_DEMAND.TOKENS : Fld := ⟨.EGV_DEMAND, 23, 0, .ro, .n⟩
/-! EGV_AVS: R624, 19_energy_and_counters.md. -/
def F.EGV_AVS.VCORE_MV : Fld := ⟨.EGV_AVS, 31, 22, .ro, .n⟩
def F.EGV_AVS.VINIT_MV : Fld := ⟨.EGV_AVS, 21, 12, .ro, .n⟩
def F.EGV_AVS.AGE_THR : Fld := ⟨.EGV_AVS, 11, 0, .rw, .s⟩
/-! EGV_BAL: R623, 19_energy_and_counters.md. -/
def F.EGV_BAL.RESV : Fld := ⟨.EGV_BAL, 31, 16, .ro, .n⟩
def F.EGV_BAL.GEN : Fld := ⟨.EGV_BAL, 15, 0, .ro, .n⟩
/-! EGV_BLOOM: R623, 19_energy_and_counters.md. -/
def F.EGV_BLOOM.CLK_CODE : Fld := ⟨.EGV_BLOOM, 31, 24, .ro, .n⟩
def F.EGV_BLOOM.R_B : Fld := ⟨.EGV_BLOOM, 21, 0, .ro, .n⟩
/-! EGV_TEMP: R624, 19_energy_and_counters.md. -/
def F.EGV_TEMP.MAX : Fld := ⟨.EGV_TEMP, 31, 16, .w1cn, .n⟩
def F.EGV_TEMP.TEMP : Fld := ⟨.EGV_TEMP, 15, 0, .ro, .n⟩
/-! EGV_AGE: R624, 19_energy_and_counters.md. -/
def F.EGV_AGE.OVER : Fld := ⟨.EGV_AGE, 31, 31, .w1c, .n⟩
def F.EGV_AGE.D : Fld := ⟨.EGV_AGE, 11, 0, .ro, .n⟩
/-! PMU_CTRL: R625, 19_energy_and_counters.md. -/
def F.PMU_CTRL.FREEZE : Fld := ⟨.PMU_CTRL, 31, 31, .rw, .n⟩
def F.PMU_CTRL.FRZ_SAFE : Fld := ⟨.PMU_CTRL, 30, 30, .rw, .n⟩
def F.PMU_CTRL.SNAP_NOW : Fld := ⟨.PMU_CTRL, 29, 29, .wo, .n⟩
def F.PMU_CTRL.SNAP_EVT : Fld := ⟨.PMU_CTRL, 28, 28, .rw, .n⟩
/-! PMU_OVF: R625, 19_energy_and_counters.md. -/
def F.PMU_OVF.OVF : Fld := ⟨.PMU_OVF, 7, 0, .w1c, .n⟩
/-! PMU_CYC_LO: R627, 19_energy_and_counters.md. -/
def F.PMU_CYC_LO.COUNT : Fld := ⟨.PMU_CYC_LO, 31, 0, .ro, .n⟩
/-! PMU_CYC_HI: R627, 19_energy_and_counters.md. -/
def F.PMU_CYC_HI.COUNT : Fld := ⟨.PMU_CYC_HI, 31, 0, .ro, .n⟩
/-! PMU_SNAP_CTRL: R628, 19_energy_and_counters.md. -/
def F.PMU_SNAP_CTRL.AT_EN : Fld := ⟨.PMU_SNAP_CTRL, 31, 31, .rw, .l⟩
def F.PMU_SNAP_CTRL.PERIODIC : Fld := ⟨.PMU_SNAP_CTRL, 30, 30, .rw, .l⟩
def F.PMU_SNAP_CTRL.RASTER : Fld := ⟨.PMU_SNAP_CTRL, 29, 27, .rw, .l⟩
def F.PMU_SNAP_CTRL.LINE : Fld := ⟨.PMU_SNAP_CTRL, 15, 0, .rw, .l⟩
/-! PMU_SNAP_SEQ: R628, 19_energy_and_counters.md. -/
def F.PMU_SNAP_SEQ.SEQ : Fld := ⟨.PMU_SNAP_SEQ, 31, 0, .ro, .n⟩
/-! PMU_SNAP_CYC_LO: R627, 19_energy_and_counters.md. -/
def F.PMU_SNAP_CYC_LO.COUNT : Fld := ⟨.PMU_SNAP_CYC_LO, 31, 0, .ro, .n⟩
/-! PMU_SNAP_CYC_HI: R627, 19_energy_and_counters.md. -/
def F.PMU_SNAP_CYC_HI.COUNT : Fld := ⟨.PMU_SNAP_CYC_HI, 31, 0, .ro, .n⟩
/-! PMU_SAMP_CTRL: R629, 19_energy_and_counters.md. -/
def F.PMU_SAMP_CTRL.EN : Fld := ⟨.PMU_SAMP_CTRL, 31, 31, .rw, .l⟩
def F.PMU_SAMP_CTRL.WRAP : Fld := ⟨.PMU_SAMP_CTRL, 30, 30, .rw, .l⟩
def F.PMU_SAMP_CTRL.DITHER : Fld := ⟨.PMU_SAMP_CTRL, 29, 29, .rw, .l⟩
def F.PMU_SAMP_CTRL.PERIOD : Fld := ⟨.PMU_SAMP_CTRL, 15, 0, .rw, .l⟩
/-! PMU_SAMP_FILT: R629, 19_energy_and_counters.md. -/
def F.PMU_SAMP_FILT.PRD_EN : Fld := ⟨.PMU_SAMP_FILT, 31, 31, .rw, .l⟩
def F.PMU_SAMP_FILT.OP_EN : Fld := ⟨.PMU_SAMP_FILT, 30, 30, .rw, .l⟩
def F.PMU_SAMP_FILT.PRODUCT : Fld := ⟨.PMU_SAMP_FILT, 15, 8, .rw, .l⟩
def F.PMU_SAMP_FILT.OP : Fld := ⟨.PMU_SAMP_FILT, 7, 0, .rw, .l⟩
/-! PMU_SAMP_STAT: R629, 19_energy_and_counters.md. -/
def F.PMU_SAMP_STAT.FULL : Fld := ⟨.PMU_SAMP_STAT, 31, 31, .w1c, .n⟩
def F.PMU_SAMP_STAT.COUNT : Fld := ⟨.PMU_SAMP_STAT, 26, 16, .ro, .n⟩
def F.PMU_SAMP_STAT.LOST : Fld := ⟨.PMU_SAMP_STAT, 15, 0, .w1cn, .n⟩
/-! PMU_CFG: R626, 19_energy_and_counters.md. -/
def F.PMU_CFG.EN : Fld := ⟨.PMU_CFG, 31, 31, .rw, .l⟩
def F.PMU_CFG.OVF_FRZ : Fld := ⟨.PMU_CFG, 30, 30, .rw, .l⟩
def F.PMU_CFG.OVF_EVT : Fld := ⟨.PMU_CFG, 29, 29, .rw, .l⟩
def F.PMU_CFG.INST_MODE : Fld := ⟨.PMU_CFG, 28, 27, .rw, .l⟩
def F.PMU_CFG.INST : Fld := ⟨.PMU_CFG, 26, 19, .rw, .l⟩
def F.PMU_CFG.CLASS_MASK : Fld := ⟨.PMU_CFG, 18, 15, .rw, .l⟩
def F.PMU_CFG.EVENT : Fld := ⟨.PMU_CFG, 9, 0, .rw, .l⟩
/-! PMU_CTR_LO: R627, 19_energy_and_counters.md. -/
def F.PMU_CTR_LO.COUNT : Fld := ⟨.PMU_CTR_LO, 31, 0, .rw, .l⟩
/-! PMU_CTR_HI: R627, 19_energy_and_counters.md. -/
def F.PMU_CTR_HI.COUNT : Fld := ⟨.PMU_CTR_HI, 15, 0, .rw, .l⟩
/-! PMU_SNAP_LO: R627, 19_energy_and_counters.md. -/
def F.PMU_SNAP_LO.COUNT : Fld := ⟨.PMU_SNAP_LO, 31, 0, .ro, .n⟩
/-! PMU_SNAP_HI: R627, 19_energy_and_counters.md. -/
def F.PMU_SNAP_HI.COUNT : Fld := ⟨.PMU_SNAP_HI, 15, 0, .ro, .n⟩

/-- The fields of a register, from the most significant bit down (the tables of the chapters). -/
def RegKind.fields : RegKind → List Fld
  | .CHIP_ID => [F.CHIP_ID.VENDOR, F.CHIP_ID.PART, F.CHIP_ID.STEP]
  | .TOP_MAP_VER => [F.TOP_MAP_VER.MAJOR, F.TOP_MAP_VER.MINOR]
  | .TOP_SCRATCH => [F.TOP_SCRATCH.VALUE]
  | .CFG_COMMIT => [F.CFG_COMMIT.DISCARD, F.CFG_COMMIT.COMMIT]
  | .CFG_LDROP => [F.CFG_LDROP.VALID, F.CFG_LDROP.PATH, F.CFG_LDROP.OFFSET]
  | .CFG_LDROP_CNT => [F.CFG_LDROP_CNT.COUNT]
  | .CFG_SYNC_CTRL => [F.CFG_SYNC_CTRL.EN, F.CFG_SYNC_CTRL.ROLE]
  | .CFG_SYNC_OFFSET => [F.CFG_SYNC_OFFSET.OFFSET]
  | .CFG_SYNC_STAT => [F.CFG_SYNC_STAT.LOCKED, F.CFG_SYNC_STAT.CRC_ERR, F.CFG_SYNC_STAT.LAST_FRAME]
  | .CFG_STATE => [F.CFG_STATE.GEN, F.CFG_STATE.REJ_CNT, F.CFG_STATE.DEFERRED, F.CFG_STATE.REFUSED, F.CFG_STATE.OPEN_DIRTY, F.CFG_STATE.STATE]
  | .CFG_TARGET => [F.CFG_TARGET.EN, F.CFG_TARGET.FRAME]
  | .CFG_REJECT => [F.CFG_REJECT.REJECTED, F.CFG_REJECT.RULE, F.CFG_REJECT.INSTANCE]
  | .RAS_MASTER => [F.RAS_MASTER.MASTER]
  | .RAS_DISC_CTRL => [F.RAS_DISC_CTRL.SRC, F.RAS_DISC_CTRL.KP_SHIFT, F.RAS_DISC_CTRL.KI_SHIFT, F.RAS_DISC_CTRL.TIMEOUT_MS]
  | .RAS_DISC_PARAM => [F.RAS_DISC_PARAM.STEP_US, F.RAS_DISC_PARAM.LOCK_NS]
  | .RAS_TSYNC_PERIOD => [F.RAS_TSYNC_PERIOD.PERIOD_NS]
  | .RAS_GW_DELAY => [F.RAS_GW_DELAY.DELAY_NS]
  | .RAS_DISC_STAT => [F.RAS_DISC_STAT.LOCKED, F.RAS_DISC_STAT.HOLDOVER, F.RAS_DISC_STAT.STEPPED, F.RAS_DISC_STAT.TRIM]
  | .RAS_TOD_LO => [F.RAS_TOD_LO.TOD]
  | .RAS_TOD_HI => [F.RAS_TOD_HI.TOD]
  | .RAS_TOD_SET_LO => [F.RAS_TOD_SET_LO.SET]
  | .RAS_TOD_SET_HI => [F.RAS_TOD_SET_HI.SET]
  | .RAS_CTRL => [F.RAS_CTRL.RUN, F.RAS_CTRL.WAIT, F.RAS_CTRL.ALIGN_MODE, F.RAS_CTRL.SLEW_MAX]
  | .RAS_PERIOD => [F.RAS_PERIOD.LINES, F.RAS_PERIOD.INT]
  | .RAS_PERIOD_FRAC => [F.RAS_PERIOD_FRAC.FRAC]
  | .RAS_ALIGN => [F.RAS_ALIGN.FRAMES, F.RAS_ALIGN.PERIOD_MS]
  | .RAS_PHASE => [F.RAS_PHASE.PHASE_NS]
  | .RAS_POS => [F.RAS_POS.LINE, F.RAS_POS.FRAC, F.RAS_POS.RUNNING, F.RAS_POS.PH_LOCK, F.RAS_POS.JUMPED]
  | .RAS_FRAME => [F.RAS_FRAME.FRAME]
  | .RAS_STRM_CFG => [F.RAS_STRM_CFG.EN, F.RAS_STRM_CFG.RASTER, F.RAS_STRM_CFG.TRIG_MODE, F.RAS_STRM_CFG.GAIN, F.RAS_STRM_CFG.OWNER, F.RAS_STRM_CFG.TRIG_IDX, F.RAS_STRM_CFG.DIV, F.RAS_STRM_CFG.UNLOCK_LIM]
  | .RAS_STRM_RATIO => [F.RAS_STRM_RATIO.RATIO]
  | .RAS_STRM_TARGET => [F.RAS_STRM_TARGET.TARGET0, F.RAS_STRM_TARGET.REF_LINE]
  | .RAS_TRIG_INIT => [F.RAS_TRIG_INIT.INIT]
  | .RAS_TRIG_POS => [F.RAS_TRIG_POS.POS]
  | .RAS_STRM_STAT => [F.RAS_STRM_STAT.STATE, F.RAS_STRM_STAT.RATIO_ERR, F.RAS_STRM_STAT.LOST, F.RAS_STRM_STAT.MISSED, F.RAS_STRM_STAT.IN_WIN, F.RAS_STRM_STAT.UNLOCKED, F.RAS_STRM_STAT.MISS_CNT]
  | .RAS_STRM_SKEW => [F.RAS_STRM_SKEW.SKEW_REF, F.RAS_STRM_SKEW.SKEW_END]
  | .RAS_STRM_MEAS => [F.RAS_STRM_MEAS.RATIO_MEAS]
  | .ING_PORT_CTRL => [F.ING_PORT_CTRL.RUN, F.ING_PORT_CTRL.GEAR, F.ING_PORT_CTRL.LANES, F.ING_PORT_CTRL.RTS_EN, F.ING_PORT_CTRL.CSE_EN, F.ING_PORT_CTRL.VCX_EN, F.ING_PORT_CTRL.TRIG_POL]
  | .ING_PORT_STAT => [F.ING_PORT_STAT.LINK_UP, F.ING_PORT_STAT.GEAR_ACT, F.ING_PORT_STAT.LINK_LOST, F.ING_PORT_STAT.REPACK_ERR, F.ING_PORT_STAT.OVERRUN, F.ING_PORT_STAT.ORPHAN, F.ING_PORT_STAT.UNMAPPED, F.ING_PORT_STAT.LEN_ERR, F.ING_PORT_STAT.CSE_ERR, F.ING_PORT_STAT.CRC_ERR, F.ING_PORT_STAT.HDR_UNCORR]
  | .ING_PORT_CNT0 => [F.ING_PORT_CNT0.ECC_CORR, F.ING_PORT_CNT0.HDR_UNCORR]
  | .ING_PORT_CNT1 => [F.ING_PORT_CNT1.CRC_ERR, F.ING_PORT_CNT1.UNMAPPED]
  | .ING_MAP => [F.ING_MAP.EN, F.ING_MAP.STREAM, F.ING_MAP.VC, F.ING_MAP.DT]
  | .ING_STRM_FMT => [F.ING_STRM_FMT.SAMPLE, F.ING_STRM_FMT.EXPOSURES, F.ING_STRM_FMT.POLICY, F.ING_STRM_FMT.REP_DIST, F.ING_STRM_FMT.LS_NUM]
  | .ING_STRM_SIZE => [F.ING_STRM_SIZE.HEIGHT, F.ING_STRM_SIZE.WIDTH]
  | .ING_STRM_LEN => [F.ING_STRM_LEN.FILL, F.ING_STRM_LEN.LINE_BYTES]
  | .ING_STRM_CNT => [F.ING_STRM_CNT.DAMAGED, F.ING_STRM_CNT.SUBST]
  | .ING_STRM_FCNT => [F.ING_STRM_FCNT.INVALID, F.ING_STRM_FCNT.SHORT, F.ING_STRM_FCNT.LONG]
  | .POOL_CTRL => [F.POOL_CTRL.SPILL_EN, F.POOL_CTRL.PROD_REGION]
  | .POOL_OCC0 => [F.POOL_OCC0.OVF_FREE]
  | .POOL_OCC1 => [F.POOL_OCC1.LEDGER_FREE, F.POOL_OCC1.DIR_FREE]
  | .POOL_STAT => [F.POOL_STAT.META_UNCORR, F.POOL_STAT.ECC_UNCORR, F.POOL_STAT.ECC_CORR, F.POOL_STAT.DIR_EXHAUST, F.POOL_STAT.SPILL_FULL, F.POOL_STAT.HOST_LOSS, F.POOL_STAT.MIG_LOSS, F.POOL_STAT.LATE_REFUSE, F.POOL_STAT.REFUSE]
  | .POOL_ECC_CNT => [F.POOL_ECC_CNT.UNCORR, F.POOL_ECC_CNT.CORR]
  | .POOL_ECC_REC => [F.POOL_ECC_REC.VALID, F.POOL_ECC_REC.META, F.POOL_ECC_REC.WORD, F.POOL_ECC_REC.INDEX]
  | .POOL_HOST_RESV => [F.POOL_HOST_RESV.GRANULES]
  | .POOL_OVF_CLS => [F.POOL_OVF_CLS.CAP, F.POOL_OVF_CLS.THR]
  | .POOL_OVF_USE => [F.POOL_OVF_USE.PEAK, F.POOL_OVF_USE.IN_USE]
  | .POOL_RESV => [F.POOL_RESV.GRANULES]
  | .POOL_RESV_MIN => [F.POOL_RESV_MIN.LINES_MIN, F.POOL_RESV_MIN.GRANULES_MIN]
  | .POOL_RESV_STAT => [F.POOL_RESV_STAT.OVF, F.POOL_RESV_STAT.IN_USE]
  | .POOL_RESV_CNT => [F.POOL_RESV_CNT.REFUSED, F.POOL_RESV_CNT.MIG_LOSS]
  | .POOL_PRD_RESV => [F.POOL_PRD_RESV.GRANTED, F.POOL_PRD_RESV.IN_USE]
  | .BLM_CTRL => [F.BLM_CTRL.HALT, F.BLM_CTRL.HALT_REF]
  | .BLM_STAT => [F.BLM_STAT.IDLE, F.BLM_STAT.HALTED, F.BLM_STAT.QUEUED, F.BLM_STAT.FAST_PEND, F.BLM_STAT.RUNNING]
  | .BLM_FAST_LOAD => [F.BLM_FAST_LOAD.RESV_PETALS, F.BLM_FAST_LOAD.CARRY_KIB]
  | .BLM_CNT0 => [F.BLM_CNT0.STEAL_IN, F.BLM_CNT0.STEAL_OUT]
  | .BLM_CNT1 => [F.BLM_CNT1.PREEMPT, F.BLM_CNT1.MISS, F.BLM_CNT1.SLOW_LATE]
  | .BLM_TF_CTRL => [F.BLM_TF_CTRL.RUN, F.BLM_TF_CTRL.RUNNING]
  | .BLM_TF_STAT => [F.BLM_TF_STAT.BACKLOG_FULL, F.BLM_TF_STAT.BACKLOG_MAX]
  | .BLM_HASH_SEED_LO => [F.BLM_HASH_SEED_LO.SEED_LO]
  | .BLM_HASH_SEED_HI => [F.BLM_HASH_SEED_HI.SEED_HI]
  | .BLM_HASH_CTRL => [F.BLM_HASH_CTRL.MODE]
  | .BLM_HASH_PROBE => [F.BLM_HASH_PROBE.STREAM, F.BLM_HASH_PROBE.COL, F.BLM_HASH_PROBE.ROW]
  | .BLM_HASH_PROBE_OUT => [F.BLM_HASH_PROBE_OUT.BLOOM, F.BLM_HASH_PROBE_OUT.SLOT]
  | .BLM_FAST_CTRL => [F.BLM_FAST_CTRL.FAST_PETALS]
  | .BLM_SLACK => [F.BLM_SLACK.LINES3, F.BLM_SLACK.LINES2, F.BLM_SLACK.LINES1, F.BLM_SLACK.LINES0]
  | .BLM_XSTEAL => [F.BLM_XSTEAL.EN, F.BLM_XSTEAL.MIN_Q, F.BLM_XSTEAL.CAP_PCT]
  | .BLM_XSTEAL_STAT => [F.BLM_XSTEAL_STAT.CAP_WAIT, F.BLM_XSTEAL_STAT.BYTES_KIB]
  | .BLM_MISS_REC0 => [F.BLM_MISS_REC0.VALID, F.BLM_MISS_REC0.BLOOM, F.BLM_MISS_REC0.PRODUCT, F.BLM_MISS_REC0.RASTER]
  | .BLM_MISS_REC1 => [F.BLM_MISS_REC1.LINE, F.BLM_MISS_REC1.D_LINE]
  | .PRD_REJECT => [F.PRD_REJECT.VALID, F.PRD_REJECT.CMD, F.PRD_REJECT.STATUS, F.PRD_REJECT.DETAIL, F.PRD_REJECT.PRODUCT, F.PRD_REJECT.DOMAIN]
  | .PRD_STATE => [F.PRD_STATE.STATE, F.PRD_STATE.FAST, F.PRD_STATE.CLASS, F.PRD_STATE.DEST_KIND, F.PRD_STATE.HOME, F.PRD_STATE.DOMAIN, F.PRD_STATE.GEN]
  | .PRD_FOOT => [F.PRD_FOOT.LMIN, F.PRD_FOOT.FOOT, F.PRD_FOOT.CARRY_KIB]
  | .PRD_COST => [F.PRD_COST.COST, F.PRD_COST.S, F.PRD_COST.DROPPED]
  | .PRD_FRAME => [F.PRD_FRAME.FRAME]
  | .SEAL_ACC_CTRL => [F.SEAL_ACC_CTRL.GO, F.SEAL_ACC_CTRL.WRITE, F.SEAL_ACC_CTRL.BUSY, F.SEAL_ACC_CTRL.REFUSED, F.SEAL_ACC_CTRL.SLOT, F.SEAL_ACC_CTRL.UNIT]
  | .SEAL_ACC_DATA => [F.SEAL_ACC_DATA.DATA]
  | .SEAL_FAIL_CNT0 => [F.SEAL_FAIL_CNT0.STRIP, F.SEAL_FAIL_CNT0.LEDGER]
  | .SEAL_FAIL_CNT1 => [F.SEAL_FAIL_CNT1.EGRESS, F.SEAL_FAIL_CNT1.GEWARD]
  | .SEAL_FAIL_CNT2 => [F.SEAL_FAIL_CNT2.FST, F.SEAL_FAIL_CNT2.OVERCOVER]
  | .SEAL_FAIL_REC0 => [F.SEAL_FAIL_REC0.VALID, F.SEAL_FAIL_REC0.UNIT, F.SEAL_FAIL_REC0.STREAM, F.SEAL_FAIL_REC0.PRODUCT]
  | .SEAL_FAIL_REC1 => [F.SEAL_FAIL_REC1.LINE]
  | .SEAL_FAIL_REC2 => [F.SEAL_FAIL_REC2.VALUE]
  | .SEAL_FAIL_REC3 => [F.SEAL_FAIL_REC3.VALUE]
  | .SEAL_FAIL_REC4 => [F.SEAL_FAIL_REC4.VALUE]
  | .SEAL_E2E_PROF => [F.SEAL_E2E_PROF.REFIN, F.SEAL_E2E_PROF.REFOUT, F.SEAL_E2E_PROF.IDFOLD, F.SEAL_E2E_PROF.WIDTH]
  | .SEAL_E2E_POLY => [F.SEAL_E2E_POLY.POLY]
  | .SEAL_E2E_INIT => [F.SEAL_E2E_INIT.INIT]
  | .SEAL_E2E_XOR => [F.SEAL_E2E_XOR.XOROUT]
  | .FST_CTRL => [F.FST_CTRL.SCRUB_EN, F.FST_CTRL.FORCE_2X, F.FST_CTRL.CASE_LIM, F.FST_CTRL.SCRUB_H]
  | .FST_STAT => [F.FST_STAT.READY, F.FST_STAT.TRAINING, F.FST_STAT.TRAIN_FAIL, F.FST_STAT.REFRESH_2X, F.FST_STAT.HOT, F.FST_STAT.HOT_SEEN, F.FST_STAT.TEMP]
  | .FST_HASH_CTRL => [F.FST_HASH_CTRL.MODE]
  | .FST_HASH_SX => [F.FST_HASH_SX.SX]
  | .FST_HASH_SM => [F.FST_HASH_SM.SM]
  | .FST_PROBE_IN => [F.FST_PROBE_IN.CHUNK]
  | .FST_PROBE_OUT => [F.FST_PROBE_OUT.PC, F.FST_PROBE_OUT.BANK, F.FST_PROBE_OUT.COL, F.FST_PROBE_OUT.ROW]
  | .FST_SYS_FREE => [F.FST_SYS_FREE.FREE]
  | .FST_ECC_CNT => [F.FST_ECC_CNT.UNCORR, F.FST_ECC_CNT.CORR]
  | .FST_CNT => [F.FST_CNT.COPY_DROP, F.FST_CNT.CA_RETRY]
  | .FST_ECC_REC0 => [F.FST_ECC_REC0.VALID, F.FST_ECC_REC0.SCRUB, F.FST_ECC_REC0.PC, F.FST_ECC_REC0.BANK, F.FST_ECC_REC0.ROW, F.FST_ECC_REC0.COL]
  | .FST_ECC_REC1 => [F.FST_ECC_REC1.WORD]
  | .FST_RGN => [F.FST_RGN.EN, F.FST_RGN.KIND, F.FST_RGN.BASE, F.FST_RGN.SIZE]
  | .GWP_CTRL => [F.GWP_CTRL.EN, F.GWP_CTRL.RETRAIN, F.GWP_CTRL.MIN_W, F.GWP_CTRL.FALLBACK_EN, F.GWP_CTRL.FORCE_FB, F.GWP_CTRL.TX_REF, F.GWP_CTRL.LINK_TMO_MS, F.GWP_CTRL.ATTEMPT_US]
  | .GWP_STAT => [F.GWP_STAT.LINK_UP, F.GWP_STAT.RX_W, F.GWP_STAT.TX_W, F.GWP_STAT.LINK_DOWN, F.GWP_STAT.LDN_RX, F.GWP_STAT.REFCLK_OK, F.GWP_STAT.TMO, F.GWP_STAT.UP_CNT]
  | .GWP_FAR => [F.GWP_FAR.FAR_TXLANES, F.GWP_FAR.FAR_RX_READY]
  | .GWP_LANE_CTRL => [F.GWP_LANE_CTRL.TX_PRE, F.GWP_LANE_CTRL.RX_PRE, F.GWP_LANE_CTRL.TX_INV, F.GWP_LANE_CTRL.RX_INV, F.GWP_LANE_CTRL.TX_DIS, F.GWP_LANE_CTRL.RX_DIS, F.GWP_LANE_CTRL.EQ_FREEZE, F.GWP_LANE_CTRL.FFE_PRE, F.GWP_LANE_CTRL.SWING]
  | .GWP_LANE_STAT => [F.GWP_LANE_STAT.CLK_LOCK, F.GWP_LANE_STAT.BLK_LOCK, F.GWP_LANE_STAT.DESKEWED, F.GWP_LANE_STAT.EQ_READY, F.GWP_LANE_STAT.FB_MODE, F.GWP_LANE_STAT.ACTIVE, F.GWP_LANE_STAT.FAR_LANE, F.GWP_LANE_STAT.LOGICAL, F.GWP_LANE_STAT.LOCK_LOST, F.GWP_LANE_STAT.ATTEMPTS, F.GWP_LANE_STAT.POS]
  | .GWP_LANE_EQ => [F.GWP_LANE_EQ.CTLE, F.GWP_LANE_EQ.DFE1, F.GWP_LANE_EQ.DFE2, F.GWP_LANE_EQ.EYE]
  | .GWP_LANE_CNT0 => [F.GWP_LANE_CNT0.HDR_INVALID, F.GWP_LANE_CNT0.CTRL_ERR]
  | .GWP_LANE_CNT1 => [F.GWP_LANE_CNT1.AM_ERR, F.GWP_LANE_CNT1.FB_ENTRY]
  | .GWL_CTRL => [F.GWL_CTRL.RO_EN, F.GWL_CTRL.REPLAY_MAX, F.GWL_CTRL.HOST_RETRY, F.GWL_CTRL.CPL_TMO_US]
  | .GWL_STAT => [F.GWL_STAT.ACTIVE, F.GWL_STAT.PROTO_ERR, F.GWL_STAT.REPLAY_LIM, F.GWL_STAT.TAGS_OPEN]
  | .GWL_EPOCH_TX => [F.GWL_EPOCH_TX.EPOCH]
  | .GWL_EPOCH_RX => [F.GWL_EPOCH_RX.EPOCH]
  | .GWL_LAT => [F.GWL_LAT.RX_NS, F.GWL_LAT.TX_NS]
  | .GWL_CNT0 => [F.GWL_CNT0.FEC_CORR, F.GWL_CNT0.FRAME_BAD]
  | .GWL_CNT1 => [F.GWL_CNT1.CRC_FIX, F.GWL_CNT1.REPLAY]
  | .GWL_CNT2 => [F.GWL_CNT2.NAK_TX, F.GWL_CNT2.NAK_RX]
  | .GWL_CNT3 => [F.GWL_CNT3.TIMEOUT, F.GWL_CNT3.CPL_TMO]
  | .GWL_CNT4 => [F.GWL_CNT4.TIME_BAD, F.GWL_CNT4.ACK_ERR, F.GWL_CNT4.DISCARD]
  | .GWL_CNT5 => [F.GWL_CNT5.LATE_CPL, F.GWL_CNT5.WF_RX, F.GWL_CNT5.WF_UNMATCHED]
  | .GWL_PROTO_REC => [F.GWL_PROTO_REC.VALID, F.GWL_PROTO_REC.CAUSE, F.GWL_PROTO_REC.SEQ, F.GWL_PROTO_REC.TAG]
  | .GWL_CRED => [F.GWL_CRED.HDR, F.GWL_CRED.DATA]
  | .HQE_CTRL => [F.HQE_CTRL.EN, F.HQE_CTRL.ADMIN_RESUME, F.HQE_CTRL.PREFETCH]
  | .HQE_ADMIN_CFG => [F.HQE_ADMIN_CFG.SUB_SIZE, F.HQE_ADMIN_CFG.CMP_SIZE, F.HQE_ADMIN_CFG.VECTOR, F.HQE_ADMIN_CFG.MOD_CNT]
  | .HQE_ASUB_LO => [F.HQE_ASUB_LO.BASE_LO]
  | .HQE_ASUB_HI => [F.HQE_ASUB_HI.BASE_HI]
  | .HQE_ACMP_LO => [F.HQE_ACMP_LO.BASE_LO]
  | .HQE_ACMP_HI => [F.HQE_ACMP_HI.BASE_HI]
  | .HQE_STAT => [F.HQE_STAT.RUNNING, F.HQE_STAT.CTX_HBM, F.HQE_STAT.DBQ_FULL, F.HQE_STAT.CACHED, F.HQE_STAT.PINNED]
  | .HQE_CNT0 => [F.HQE_CNT0.DB_DISCARD, F.HQE_CNT0.CTX_MISS]
  | .HQE_CNT1 => [F.HQE_CNT1.EVT_LOST, F.HQE_CNT1.RING_ERR, F.HQE_CNT1.WINDOW]
  | .HQE_ERR_REC0 => [F.HQE_ERR_REC0.VALID, F.HQE_ERR_REC0.ERR, F.HQE_ERR_REC0.DOMAIN, F.HQE_ERR_REC0.RING]
  | .HQE_ERR_REC1 => [F.HQE_ERR_REC1.ADDR]
  | .HQE_ERR_REC2 => [F.HQE_ERR_REC2.ADDR]
  | .HQE_WIN0 => [F.HQE_WIN0.BASE_LO, F.HQE_WIN0.WR, F.HQE_WIN0.RD]
  | .HQE_WIN1 => [F.HQE_WIN1.BASE_HI]
  | .HQE_WIN2 => [F.HQE_WIN2.SIZE]
  | .DEG_PORT_CTRL => [F.DEG_PORT_CTRL.RUN, F.DEG_PORT_CTRL.RASTER, F.DEG_PORT_CTRL.GEAR, F.DEG_PORT_CTRL.FORMAT, F.DEG_PORT_CTRL.E2E_EN, F.DEG_PORT_CTRL.DISP_ID]
  | .DEG_VTIMING0 => [F.DEG_VTIMING0.VTOTAL, F.DEG_VTIMING0.VACT]
  | .DEG_VTIMING1 => [F.DEG_VTIMING1.VSA, F.DEG_VTIMING1.VBP, F.DEG_VTIMING1.VSTART]
  | .DEG_HTIMING0 => [F.DEG_HTIMING0.HTOTAL, F.DEG_HTIMING0.HACT]
  | .DEG_HTIMING1 => [F.DEG_HTIMING1.HSA, F.DEG_HTIMING1.HBP]
  | .DEG_PORT_STAT => [F.DEG_PORT_STAT.LINK_UP, F.DEG_PORT_STAT.LINK_LOST, F.DEG_PORT_STAT.HOST_ERR, F.DEG_PORT_STAT.SAFE_BLACK, F.DEG_PORT_STAT.HIDDEN, F.DEG_PORT_STAT.NOSRC]
  | .DEG_LAYER_CFG => [F.DEG_LAYER_CFG.EN, F.DEG_LAYER_CFG.SRC, F.DEG_LAYER_CFG.CLASS, F.DEG_LAYER_CFG.PIXEL_ALPHA, F.DEG_LAYER_CFG.PROTECT, F.DEG_LAYER_CFG.HFMT, F.DEG_LAYER_CFG.ALPHA]
  | .DEG_LAYER_POS => [F.DEG_LAYER_POS.Y, F.DEG_LAYER_POS.X]
  | .DEG_LAYER_SIZE => [F.DEG_LAYER_SIZE.H, F.DEG_LAYER_SIZE.W]
  | .DEG_LAYER_CNT => [F.DEG_LAYER_CNT.REPEAT, F.DEG_LAYER_CNT.STALE]
  | .MGD_CTRL => [F.MGD_CTRL.HOST_TMO, F.MGD_CTRL.HOST_DOMAIN]
  | .MGD_LOG_CI => [F.MGD_LOG_CI.CI]
  | .MGD_LOG_STAT => [F.MGD_LOG_STAT.EN, F.MGD_LOG_STAT.WF_OFF, F.MGD_LOG_STAT.WIN_OFF, F.MGD_LOG_STAT.BUF_USED]
  | .MGD_LOG_CNT => [F.MGD_LOG_CNT.LOST_PASS, F.MGD_LOG_CNT.LOST_FAIL]
  | .MGD_BANK_STAT => [F.MGD_BANK_STAT.VALID, F.MGD_BANK_STAT.LOADING, F.MGD_BANK_STAT.KEY_SLOT, F.MGD_BANK_STAT.NIMG, F.MGD_BANK_STAT.VERSION]
  | .MGD_PORT_CTRL => [F.MGD_PORT_CTRL.EN, F.MGD_PORT_CTRL.BANK, F.MGD_PORT_CTRL.FAIL_LIM, F.MGD_PORT_CTRL.RB_LINE]
  | .MGD_PORT_LINES => [F.MGD_PORT_LINES.LATCH, F.MGD_PORT_LINES.PROOF_LINE]
  | .MGD_SLOT_CFG => [F.MGD_SLOT_CFG.EN, F.MGD_SLOT_CFG.PORT, F.MGD_SLOT_CFG.BLANK, F.MGD_SLOT_CFG.H1, F.MGD_SLOT_CFG.W1]
  | .MGD_SLOT_POS => [F.MGD_SLOT_POS.Y, F.MGD_SLOT_POS.X]
  | .MGD_SLOT_RB => [F.MGD_SLOT_RB.RB_EN, F.MGD_SLOT_RB.RB_LAG, F.MGD_SLOT_RB.RB_DEV, F.MGD_SLOT_RB.RB_REG]
  | .MGD_TT_CFG => [F.MGD_TT_CFG.EN, F.MGD_TT_CFG.PORT, F.MGD_TT_CFG.SLOT, F.MGD_TT_CFG.PRIO, F.MGD_TT_CFG.SRC, F.MGD_TT_CFG.STALE_STATE, F.MGD_TT_CFG.FIXED, F.MGD_TT_CFG.BLINK, F.MGD_TT_CFG.ON_FR, F.MGD_TT_CFG.OFF_FR]
  | .MGD_TT_IMG => [F.MGD_TT_IMG.IMG_ALT, F.MGD_TT_IMG.IMG_ON]
  | .MGD_TT_STAT => [F.MGD_TT_STAT.EFF, F.MGD_TT_STAT.STALE, F.MGD_TT_STAT.SHOWN, F.MGD_TT_STAT.LAST, F.MGD_TT_STAT.CONSEC, F.MGD_TT_STAT.IN, F.MGD_TT_STAT.IN_VALID]
  | .MGD_TT_CNT0 => [F.MGD_TT_CNT0.PASS]
  | .MGD_TT_CNT1 => [F.MGD_TT_CNT1.FAIL, F.MGD_TT_CNT1.RB_FAIL]
  | .VBR_CTRL => [F.VBR_CTRL.EN, F.VBR_CTRL.SIG_DOMAIN, F.VBR_CTRL.RETRY_MS, F.VBR_CTRL.PF_LIFE]
  | .VBR_LVT_CTRL => [F.VBR_LVT_CTRL.EN, F.VBR_LVT_CTRL.RASTER, F.VBR_LVT_CTRL.LINES]
  | .VBR_LVT_BASE_LO => [F.VBR_LVT_BASE_LO.BASE_LO]
  | .VBR_LVT_BASE_HI => [F.VBR_LVT_BASE_HI.BASE_HI]
  | .VBR_STAT => [F.VBR_STAT.STALE_ANY, F.VBR_STAT.LVT_OFF, F.VBR_STAT.OPEN_READS, F.VBR_STAT.PARKED]
  | .VBR_CNT0 => [F.VBR_CNT0.E2E_CRC, F.VBR_CNT0.E2E_SEQ, F.VBR_CNT0.E2E_REPEAT]
  | .VBR_CNT1 => [F.VBR_CNT1.RANGE, F.VBR_CNT1.STALE_ENTRY, F.VBR_CNT1.PARK_LOST]
  | .VBR_CNT2 => [F.VBR_CNT2.RD_BUSY, F.VBR_CNT2.PF_DROP, F.VBR_CNT2.LATE]
  | .VBR_LATE_REC0 => [F.VBR_LATE_REC0.VALID, F.VBR_LATE_REC0.CAUSE, F.VBR_LATE_REC0.DOMAIN, F.VBR_LATE_REC0.PORT, F.VBR_LATE_REC0.DEV, F.VBR_LATE_REC0.LEN]
  | .VBR_LATE_REC1 => [F.VBR_LATE_REC1.REG, F.VBR_LATE_REC1.TAG]
  | .VBR_TBL_ACC => [F.VBR_TBL_ACC.GO, F.VBR_TBL_ACC.BUSY, F.VBR_TBL_ACC.TABLE, F.VBR_TBL_ACC.INDEX]
  | .VBR_TBL_DATA => [F.VBR_TBL_DATA.DATA]
  | .VBR_CAN_CTRL => [F.VBR_CAN_CTRL.EN, F.VBR_CAN_CTRL.MON, F.VBR_CAN_CTRL.AUTO_REC, F.VBR_CAN_CTRL.FD_EN, F.VBR_CAN_CTRL.RESTART, F.VBR_CAN_CTRL.TDCO]
  | .VBR_CAN_NBT => [F.VBR_CAN_NBT.BRP, F.VBR_CAN_NBT.TSEG1, F.VBR_CAN_NBT.TSEG2, F.VBR_CAN_NBT.SJW]
  | .VBR_CAN_DBT => [F.VBR_CAN_DBT.BRP, F.VBR_CAN_DBT.TSEG1, F.VBR_CAN_DBT.TSEG2, F.VBR_CAN_DBT.SJW]
  | .VBR_CAN_STAT => [F.VBR_CAN_STAT.STATE, F.VBR_CAN_STAT.BUS_OFF, F.VBR_CAN_STAT.REC, F.VBR_CAN_STAT.TEC]
  | .VBR_CAN_CNT => [F.VBR_CAN_CNT.RX, F.VBR_CAN_CNT.ERR]
  | .VBR_RPORT => [F.VBR_RPORT.SPEED, F.VBR_RPORT.XFER_MS]
  | .VBR_RSLOT => [F.VBR_RSLOT.EN, F.VBR_RSLOT.REG16, F.VBR_RSLOT.DEV, F.VBR_RSLOT.REG_BASE]
  | .SMB0_CTRL => [F.SMB0_CTRL.ALERT_MASK, F.SMB0_CTRL.PEC_MODE, F.SMB0_CTRL.TMO_EN, F.SMB0_CTRL.ADDR]
  | .SMB0_STAT => [F.SMB0_STAT.ALERT, F.SMB0_STAT.ARA_WON, F.SMB0_STAT.STBY_REF, F.SMB0_STAT.OVERREAD, F.SMB0_STAT.SHORT, F.SMB0_STAT.ACC_ERR, F.SMB0_STAT.PROTO, F.SMB0_STAT.RS_ACK, F.SMB0_STAT.TIMEOUT, F.SMB0_STAT.PEC_ERR, F.SMB0_STAT.CMD_NACK]
  | .SMB0_CNT => [F.SMB0_CNT.MSG, F.SMB0_CNT.ERR]
  | .SMB0_ALERT => [F.SMB0_ALERT.PENDING]
  | .SMB1_CTRL => [F.SMB1_CTRL.EN, F.SMB1_CTRL.SPEED, F.SMB1_CTRL.TMO_EN, F.SMB1_CTRL.RETRY]
  | .SMB1_XFER => [F.SMB1_XFER.GO, F.SMB1_XFER.DIR, F.SMB1_XFER.CMD_EN, F.SMB1_XFER.PEC_EN, F.SMB1_XFER.DEV, F.SMB1_XFER.CMD, F.SMB1_XFER.LEN]
  | .SMB1_STAT => [F.SMB1_STAT.BUSY, F.SMB1_STAT.DONE, F.SMB1_STAT.RESULT, F.SMB1_STAT.BUS_CLEAR, F.SMB1_STAT.ATTEMPTS]
  | .SMB1_CNT => [F.SMB1_CNT.ARB_LOST, F.SMB1_CNT.NACK]
  | .SMB1_DATA => [F.SMB1_DATA.DATA]
  | .FCL_CTRL => [F.FCL_CTRL.LOCK, F.FCL_CTRL.FORCE_SAFE]
  | .FCL_SAFE => [F.FCL_SAFE.SAFE, F.FCL_SAFE.CAUSE, F.FCL_SAFE.SOURCE, F.FCL_SAFE.SELF_CODE]
  | .FCL_STATUS_LO => [F.FCL_STATUS_LO.STATUS]
  | .FCL_STATUS_HI => [F.FCL_STATUS_HI.STATUS]
  | .FCL_LIVE_LO => [F.FCL_LIVE_LO.LIVE]
  | .FCL_LIVE_HI => [F.FCL_LIVE_HI.LIVE]
  | .FCL_COINC_LO => [F.FCL_COINC_LO.COINC]
  | .FCL_COINC_HI => [F.FCL_COINC_HI.COINC]
  | .FCL_REACT => [F.FCL_REACT.ALERT2, F.FCL_REACT.EVENT2, F.FCL_REACT.ALERT1, F.FCL_REACT.EVENT1, F.FCL_REACT.ALERT0, F.FCL_REACT.EVENT0]
  | .FCL_FF0 => [F.FCL_FF0.VALID, F.FCL_FF0.SOURCE, F.FCL_FF0.SEV]
  | .FCL_FF1 => [F.FCL_FF1.VALUE]
  | .FCL_FF2 => [F.FCL_FF2.RASTER, F.FCL_FF2.LINE, F.FCL_FF2.FRAC]
  | .FCL_FF3 => [F.FCL_FF3.VALUE]
  | .FCL_FF4 => [F.FCL_FF4.VALUE]
  | .FCL_FF5 => [F.FCL_FF5.VALUE]
  | .FCL_SEV => [F.FCL_SEV.SEV]
  | .FCL_CNT => [F.FCL_CNT.CNT3, F.FCL_CNT.CNT2, F.FCL_CNT.CNT1, F.FCL_CNT.CNT0]
  | .LUP_CTRL => [F.LUP_CTRL.FREEZE, F.LUP_CTRL.CLEAR, F.LUP_CTRL.RELEASE]
  | .LUP_MARK => [F.LUP_MARK.VALUE]
  | .LUP_STAT => [F.LUP_STAT.FROZEN, F.LUP_STAT.UNSAVED, F.LUP_STAT.REFUSED, F.LUP_STAT.SAVE_FAIL, F.LUP_STAT.LAST_SLOT, F.LUP_STAT.HOLD, F.LUP_STAT.COUNT]
  | .LUP_SEQ => [F.LUP_SEQ.NEXT]
  | .LUP_CNT => [F.LUP_CNT.LOST, F.LUP_CNT.CORR]
  | .FIJ_STAT => [F.FIJ_STAT.UNLOCKED, F.FIJ_STAT.FIRED, F.FIJ_STAT.ARMED]
  | .FIJ_CTRL => [F.FIJ_CTRL.ARM, F.FIJ_CTRL.LINK, F.FIJ_CTRL.ACTION, F.FIJ_CTRL.STAGE, F.FIJ_CTRL.INST, F.FIJ_CTRL.COUNT, F.FIJ_CTRL.INTERVAL]
  | .FIJ_PAT => [F.FIJ_PAT.MASK, F.FIJ_PAT.OFS]
  | .FIJ_TRIG => [F.FIJ_TRIG.AT_EN, F.FIJ_TRIG.RASTER, F.FIJ_TRIG.LINE]
  | .SEC_CTRL => [F.SEC_CTRL.HANDOVER]
  | .SEC_BOOT_STAT => [F.SEC_BOOT_STAT.WARM, F.SEC_BOOT_STAT.ORDER, F.SEC_BOOT_STAT.ID_OK, F.SEC_BOOT_STAT.CERT_OK, F.SEC_BOOT_STAT.SCRIPT_CUT, F.SEC_BOOT_STAT.PROD_ERR, F.SEC_BOOT_STAT.ASSET, F.SEC_BOOT_STAT.PROF, F.SEC_BOOT_STAT.FW_COPY, F.SEC_BOOT_STAT.MODE, F.SEC_BOOT_STAT.POLICY, F.SEC_BOOT_STAT.LAST_ERR, F.SEC_BOOT_STAT.STAGE]
  | .SEC_BOOT_CNT => [F.SEC_BOOT_CNT.COUNT]
  | .SEC_BOOT_NONCE => [F.SEC_BOOT_NONCE.NONCE]
  | .SEC_OP_CTRL => [F.SEC_OP_CTRL.GO, F.SEC_OP_CTRL.OP]
  | .SEC_OP_STAT => [F.SEC_OP_STAT.BUSY, F.SEC_OP_STAT.DONE, F.SEC_OP_STAT.RESULT]
  | .SEC_UNLOCK => [F.SEC_UNLOCK.SCOPE]
  | .SEC_KEY_STAT => [F.SEC_KEY_STAT.REVOKED, F.SEC_KEY_STAT.VALID]
  | .SEC_ATT_NONCE => [F.SEC_ATT_NONCE.NONCE]
  | .SEC_ARB => [F.SEC_ARB.CTR3, F.SEC_ARB.CTR2, F.SEC_ARB.CTR1, F.SEC_ARB.CTR0]
  | .EGV_CTRL => [F.EGV_CTRL.LADDER_EN, F.EGV_CTRL.C1_LEAN, F.EGV_CTRL.DROP_N, F.EGV_CTRL.UP_LINES, F.EGV_CTRL.DOWN_LINES]
  | .EGV_BUDGET => [F.EGV_BUDGET.BUDGET_MW, F.EGV_BUDGET.BASE_MW]
  | .EGV_OTHER => [F.EGV_OTHER.OTHER_MW, F.EGV_OTHER.LEAK85_MW]
  | .EGV_COST0 => [F.EGV_COST0.TOK4, F.EGV_COST0.TOK3, F.EGV_COST0.TOK2, F.EGV_COST0.TOK1]
  | .EGV_COST1 => [F.EGV_COST1.MARGIN, F.EGV_COST1.TOK6, F.EGV_COST1.TOK5]
  | .EGV_THERM => [F.EGV_THERM.TJ_MAX, F.EGV_THERM.ALERT, F.EGV_THERM.SOFT, F.EGV_THERM.SLOPE]
  | .EGV_CLK => [F.EGV_CLK.NOM_CODE, F.EGV_CLK.IDLE_CODE]
  | .EGV_STAT => [F.EGV_STAT.LEVEL, F.EGV_STAT.DEBT, F.EGV_STAT.DERATE, F.EGV_STAT.CMD, F.EGV_STAT.EFF_MW]
  | .EGV_GRANT => [F.EGV_GRANT.TOKENS]
  | .EGV_DEMAND => [F.EGV_DEMAND.TOKENS]
  | .EGV_AVS => [F.EGV_AVS.VCORE_MV, F.EGV_AVS.VINIT_MV, F.EGV_AVS.AGE_THR]
  | .EGV_BAL => [F.EGV_BAL.RESV, F.EGV_BAL.GEN]
  | .EGV_BLOOM => [F.EGV_BLOOM.CLK_CODE, F.EGV_BLOOM.R_B]
  | .EGV_TEMP => [F.EGV_TEMP.MAX, F.EGV_TEMP.TEMP]
  | .EGV_AGE => [F.EGV_AGE.OVER, F.EGV_AGE.D]
  | .PMU_CTRL => [F.PMU_CTRL.FREEZE, F.PMU_CTRL.FRZ_SAFE, F.PMU_CTRL.SNAP_NOW, F.PMU_CTRL.SNAP_EVT]
  | .PMU_OVF => [F.PMU_OVF.OVF]
  | .PMU_CYC_LO => [F.PMU_CYC_LO.COUNT]
  | .PMU_CYC_HI => [F.PMU_CYC_HI.COUNT]
  | .PMU_SNAP_CTRL => [F.PMU_SNAP_CTRL.AT_EN, F.PMU_SNAP_CTRL.PERIODIC, F.PMU_SNAP_CTRL.RASTER, F.PMU_SNAP_CTRL.LINE]
  | .PMU_SNAP_SEQ => [F.PMU_SNAP_SEQ.SEQ]
  | .PMU_SNAP_CYC_LO => [F.PMU_SNAP_CYC_LO.COUNT]
  | .PMU_SNAP_CYC_HI => [F.PMU_SNAP_CYC_HI.COUNT]
  | .PMU_SAMP_CTRL => [F.PMU_SAMP_CTRL.EN, F.PMU_SAMP_CTRL.WRAP, F.PMU_SAMP_CTRL.DITHER, F.PMU_SAMP_CTRL.PERIOD]
  | .PMU_SAMP_FILT => [F.PMU_SAMP_FILT.PRD_EN, F.PMU_SAMP_FILT.OP_EN, F.PMU_SAMP_FILT.PRODUCT, F.PMU_SAMP_FILT.OP]
  | .PMU_SAMP_STAT => [F.PMU_SAMP_STAT.FULL, F.PMU_SAMP_STAT.COUNT, F.PMU_SAMP_STAT.LOST]
  | .PMU_CFG => [F.PMU_CFG.EN, F.PMU_CFG.OVF_FRZ, F.PMU_CFG.OVF_EVT, F.PMU_CFG.INST_MODE, F.PMU_CFG.INST, F.PMU_CFG.CLASS_MASK, F.PMU_CFG.EVENT]
  | .PMU_CTR_LO => [F.PMU_CTR_LO.COUNT]
  | .PMU_CTR_HI => [F.PMU_CTR_HI.COUNT]
  | .PMU_SNAP_LO => [F.PMU_SNAP_LO.COUNT]
  | .PMU_SNAP_HI => [F.PMU_SNAP_HI.COUNT]

/-- Registers 0 to 59 of the map, in its order. -/
def RegKind.part0 : List RegKind :=
  [.CHIP_ID, .TOP_MAP_VER, .TOP_SCRATCH, .CFG_COMMIT, .CFG_LDROP, .CFG_LDROP_CNT, .CFG_SYNC_CTRL, .CFG_SYNC_OFFSET,
   .CFG_SYNC_STAT, .CFG_STATE, .CFG_TARGET, .CFG_REJECT, .RAS_MASTER, .RAS_DISC_CTRL, .RAS_DISC_PARAM,
   .RAS_TSYNC_PERIOD, .RAS_GW_DELAY, .RAS_DISC_STAT, .RAS_TOD_LO, .RAS_TOD_HI, .RAS_TOD_SET_LO, .RAS_TOD_SET_HI,
   .RAS_CTRL, .RAS_PERIOD, .RAS_PERIOD_FRAC, .RAS_ALIGN, .RAS_PHASE, .RAS_POS, .RAS_FRAME, .RAS_STRM_CFG,
   .RAS_STRM_RATIO, .RAS_STRM_TARGET, .RAS_TRIG_INIT, .RAS_TRIG_POS, .RAS_STRM_STAT, .RAS_STRM_SKEW, .RAS_STRM_MEAS,
   .ING_PORT_CTRL, .ING_PORT_STAT, .ING_PORT_CNT0, .ING_PORT_CNT1, .ING_MAP, .ING_STRM_FMT, .ING_STRM_SIZE,
   .ING_STRM_LEN, .ING_STRM_CNT, .ING_STRM_FCNT, .POOL_CTRL, .POOL_OCC0, .POOL_OCC1, .POOL_STAT, .POOL_ECC_CNT,
   .POOL_ECC_REC, .POOL_HOST_RESV, .POOL_OVF_CLS, .POOL_OVF_USE, .POOL_RESV, .POOL_RESV_MIN, .POOL_RESV_STAT,
   .POOL_RESV_CNT]

/-- Registers 60 to 119 of the map, in its order. -/
def RegKind.part1 : List RegKind :=
  [.POOL_PRD_RESV, .BLM_CTRL, .BLM_STAT, .BLM_FAST_LOAD, .BLM_CNT0, .BLM_CNT1, .BLM_TF_CTRL, .BLM_TF_STAT,
   .BLM_HASH_SEED_LO, .BLM_HASH_SEED_HI, .BLM_HASH_CTRL, .BLM_HASH_PROBE, .BLM_HASH_PROBE_OUT, .BLM_FAST_CTRL,
   .BLM_SLACK, .BLM_XSTEAL, .BLM_XSTEAL_STAT, .BLM_MISS_REC0, .BLM_MISS_REC1, .PRD_REJECT, .PRD_STATE, .PRD_FOOT,
   .PRD_COST, .PRD_FRAME, .SEAL_ACC_CTRL, .SEAL_ACC_DATA, .SEAL_FAIL_CNT0, .SEAL_FAIL_CNT1, .SEAL_FAIL_CNT2,
   .SEAL_FAIL_REC0, .SEAL_FAIL_REC1, .SEAL_FAIL_REC2, .SEAL_FAIL_REC3, .SEAL_FAIL_REC4, .SEAL_E2E_PROF,
   .SEAL_E2E_POLY, .SEAL_E2E_INIT, .SEAL_E2E_XOR, .FST_CTRL, .FST_STAT, .FST_HASH_CTRL, .FST_HASH_SX, .FST_HASH_SM,
   .FST_PROBE_IN, .FST_PROBE_OUT, .FST_SYS_FREE, .FST_ECC_CNT, .FST_CNT, .FST_ECC_REC0, .FST_ECC_REC1, .FST_RGN,
   .GWP_CTRL, .GWP_STAT, .GWP_FAR, .GWP_LANE_CTRL, .GWP_LANE_STAT, .GWP_LANE_EQ, .GWP_LANE_CNT0, .GWP_LANE_CNT1,
   .GWL_CTRL]

/-- Registers 120 to 179 of the map, in its order. -/
def RegKind.part2 : List RegKind :=
  [.GWL_STAT, .GWL_EPOCH_TX, .GWL_EPOCH_RX, .GWL_LAT, .GWL_CNT0, .GWL_CNT1, .GWL_CNT2, .GWL_CNT3, .GWL_CNT4,
   .GWL_CNT5, .GWL_PROTO_REC, .GWL_CRED, .HQE_CTRL, .HQE_ADMIN_CFG, .HQE_ASUB_LO, .HQE_ASUB_HI, .HQE_ACMP_LO,
   .HQE_ACMP_HI, .HQE_STAT, .HQE_CNT0, .HQE_CNT1, .HQE_ERR_REC0, .HQE_ERR_REC1, .HQE_ERR_REC2, .HQE_WIN0, .HQE_WIN1,
   .HQE_WIN2, .DEG_PORT_CTRL, .DEG_VTIMING0, .DEG_VTIMING1, .DEG_HTIMING0, .DEG_HTIMING1, .DEG_PORT_STAT,
   .DEG_LAYER_CFG, .DEG_LAYER_POS, .DEG_LAYER_SIZE, .DEG_LAYER_CNT, .MGD_CTRL, .MGD_LOG_CI, .MGD_LOG_STAT,
   .MGD_LOG_CNT, .MGD_BANK_STAT, .MGD_PORT_CTRL, .MGD_PORT_LINES, .MGD_SLOT_CFG, .MGD_SLOT_POS, .MGD_SLOT_RB,
   .MGD_TT_CFG, .MGD_TT_IMG, .MGD_TT_STAT, .MGD_TT_CNT0, .MGD_TT_CNT1, .VBR_CTRL, .VBR_LVT_CTRL, .VBR_LVT_BASE_LO,
   .VBR_LVT_BASE_HI, .VBR_STAT, .VBR_CNT0, .VBR_CNT1, .VBR_CNT2]

/-- Registers 180 to 239 of the map, in its order. -/
def RegKind.part3 : List RegKind :=
  [.VBR_LATE_REC0, .VBR_LATE_REC1, .VBR_TBL_ACC, .VBR_TBL_DATA, .VBR_CAN_CTRL, .VBR_CAN_NBT, .VBR_CAN_DBT,
   .VBR_CAN_STAT, .VBR_CAN_CNT, .VBR_RPORT, .VBR_RSLOT, .SMB0_CTRL, .SMB0_STAT, .SMB0_CNT, .SMB0_ALERT, .SMB1_CTRL,
   .SMB1_XFER, .SMB1_STAT, .SMB1_CNT, .SMB1_DATA, .FCL_CTRL, .FCL_SAFE, .FCL_STATUS_LO, .FCL_STATUS_HI, .FCL_LIVE_LO,
   .FCL_LIVE_HI, .FCL_COINC_LO, .FCL_COINC_HI, .FCL_REACT, .FCL_FF0, .FCL_FF1, .FCL_FF2, .FCL_FF3, .FCL_FF4,
   .FCL_FF5, .FCL_SEV, .FCL_CNT, .LUP_CTRL, .LUP_MARK, .LUP_STAT, .LUP_SEQ, .LUP_CNT, .FIJ_STAT, .FIJ_CTRL, .FIJ_PAT,
   .FIJ_TRIG, .SEC_CTRL, .SEC_BOOT_STAT, .SEC_BOOT_CNT, .SEC_BOOT_NONCE, .SEC_OP_CTRL, .SEC_OP_STAT, .SEC_UNLOCK,
   .SEC_KEY_STAT, .SEC_ATT_NONCE, .SEC_ARB, .EGV_CTRL, .EGV_BUDGET, .EGV_OTHER, .EGV_COST0]

/-- Registers 240 to 266 of the map, in its order. -/
def RegKind.part4 : List RegKind :=
  [.EGV_COST1, .EGV_THERM, .EGV_CLK, .EGV_STAT, .EGV_GRANT, .EGV_DEMAND, .EGV_AVS, .EGV_BAL, .EGV_BLOOM, .EGV_TEMP,
   .EGV_AGE, .PMU_CTRL, .PMU_OVF, .PMU_CYC_LO, .PMU_CYC_HI, .PMU_SNAP_CTRL, .PMU_SNAP_SEQ, .PMU_SNAP_CYC_LO,
   .PMU_SNAP_CYC_HI, .PMU_SAMP_CTRL, .PMU_SAMP_FILT, .PMU_SAMP_STAT, .PMU_CFG, .PMU_CTR_LO, .PMU_CTR_HI,
   .PMU_SNAP_LO, .PMU_SNAP_HI]

/-- All registers, in the order of R632 to R634. -/
def RegKind.all : List RegKind := RegKind.part0 ++ RegKind.part1 ++ RegKind.part2 ++ RegKind.part3 ++ RegKind.part4

/-- Offset of instance `(i, j)` of a register. -/
def RegKind.off (k : RegKind) (i j : Nat) : Nat := k.row.base + i * k.row.s1 + j * k.row.s2

/-- Index within a stride: the instance that offset distance `d` names, when it names one. -/
def strideIdx (n s d : Nat) : Option Nat :=
  if n ≤ 1 then (if d = 0 then some 0 else none)
  else if d % s = 0 ∧ d / s < n then some (d / s) else none

/-- The instance of register `k` that lies at an offset, when one does. -/
def RegKind.at? (k : RegKind) (off : Nat) : Option (Nat × Nat) :=
  let r := k.row
  if off < r.base then none
  else
    let d := off - r.base
    if r.n2 ≤ 1 then (strideIdx r.n1 r.s1 d).map (fun i => (i, 0))
    else
      let i := d / r.s1
      if i < r.n1 then (strideIdx r.n2 r.s2 (d % r.s1)).map (fun j => (i, j)) else none

/-- A register instance: register and its two indices. -/
structure RegId where
  kind : RegKind
  i : Nat
  j : Nat
  deriving DecidableEq, Repr, Inhabited

/-- The register that lies at a byte offset of the window; `none` where the map assigns none (R630, R631). -/
def findReg (off : Nat) : Option RegId :=
  RegKind.all.findSome? (fun k => (k.at? off).map (fun p => ⟨k, p.1, p.2⟩))

/-- Reset value of an instance (R7): the table's value but for the registers whose value depends on the instance:
POOL_OVF_CLS.THR (R182) and FCL_SEV (R556). -/
def RegKind.resetVal (k : RegKind) (i : Nat) : BitVec 32 :=
  match k with
  | .POOL_OVF_CLS => BitVec.ofNat 32 (k.row.reset ||| ovfThrReset i <<< F.POOL_OVF_CLS.THR.lo)
  | .FCL_SEV => BitVec.ofNat 32 (match i with | 0 => 0x6A9AFFBF | 1 => 0xA15AA660 | 2 => 0x00004416 | _ => 0)
  | .SMB0_CTRL => BitVec.ofNat 32 (k.row.reset ||| 0x58 <<< F.SMB0_CTRL.ADDR.lo)
  | k => BitVec.ofNat 32 k.row.reset
where
  /-- POOL_OVF_CLS.THR after reset, for class c = 0 to 3. -/
  ovfThrReset : Nat → Nat
    | 2 => 1024
    | 3 => 8192
    | _ => 0

/-- The bits of a field as a mask of the register. -/
def Fld.mask (f : Fld) : Nat := (2 ^ (f.hi + 1 - f.lo) - 1) <<< f.lo

end Sys2Proof.Machine
end

