-- ==== Sys2Proof/Machine/State.lean ====
section
/-!
DEFINITION. Machine/State.lean: every piece of state that the spec gives Korlet, as plain data. The architectural registers are
one sparse table over the byte offsets of the window; the state that the manual implies beside them stands in one structure
per subsystem. What a table does not list reads as its entry's default value, which is the value at reset.
-/
namespace Sys2Proof.Machine

/-- Reasons for which the machine would stop. No command of this model raises it: Korlet has no exception entry, and each
command has an effect in every state. It would be safe: it says nothing about the hardware going on. -/
inductive Fault where
  /-- Raised by no command; kept so that the type has a value. Safe. -/
  | stopped
  deriving DecidableEq, Repr

/-- Reasons for which a command has no meaning. -/
inductive Refusal where
  /-- Raised by an arm of `exec` whose command has no meaning yet, under the mnemonic of the opcode table. Safe. -/
  | notModelled (mnemonic : String)
  deriving DecidableEq, Repr

/-! Points in time (R63, R69). -/

/-- A point in time as Korlet reports it (R69): raster, frame, line, fraction in 1/256 line, and TOD in ns. -/
structure Pos where
  raster : Nat := 0
  frame : Nat := 0
  line : Nat := 0
  frac : Nat := 0
  tod : Nat := 0
  deriving DecidableEq, Repr, Inhabited

/-! Configuration, "Configuration, commits and global operations". -/

/-- One write to class-S fields that waits in a generation: the register and the bits it sets (R35). -/
structure CfgWrite where
  reg : RegId := default
  mask : Nat := 0
  val : Nat := 0
  deriving DecidableEq, Repr, Inhabited

/-- A staged generation (R35, R53). -/
structure Staged where
  writes : List CfgWrite := []
  /-- The consistency check has passed; the generation waits for its boundary. -/
  passed : Bool := false
  /-- The EN it took from CFG_TARGET when its check ended. -/
  tookEn : Bool := false
  /-- CFG_TARGET was written after the check ended. -/
  tgtWritten : Bool := false
  /-- Its target frame had already begun when its check ended (R53). -/
  late : Bool := false
  /-- Frame at whose boundary the change is due. -/
  due : Nat := 0
  deriving DecidableEq, Repr, Inhabited

/-- Shadow generations per commit group, the sync unit's hidden state and the phase of a warm reset. -/
structure Cfg where
  /-- Open generation of each group, oldest write first. -/
  opn : Tbl (List CfgWrite) := {}
  /-- Staged generation of each group. -/
  stg : Tbl (Option Staged) := {}
  /-- Frame at which the active generation of each group took effect, when it took effect at a frame boundary (R39). -/
  since : Tbl (Option Nat) := {}
  /-- What the registers that this switch changed held before it: frames that began earlier keep it (R39, R40). -/
  old : Tbl (List CfgWrite) := {}
  /-- Successive master-raster frames without a good sync word (R52). -/
  syncMiss : Nat := 0
  /-- A good sync word arrived in the present frame (R52). -/
  syncGood : Bool := false
  /-- Warm reset under way (R49): the blooms are not yet released. -/
  warm : Bool := false
  deriving DecidableEq, Repr, Inhabited

/-! Rasters and line-position time. -/

/-- TOD record of one frame boundary (R69), with the line period of that frame in 2^-32 CORE cycles. -/
structure Boundary where
  frame : Nat := 0
  tod : Nat := 0
  peff : Nat := 0
  deriving DecidableEq, Repr, Inhabited

/-- One raster (R60, R61, R67). -/
structure Raster where
  running : Bool := false
  /-- RUN is 1 and the raster waits for its alignment instant. -/
  waiting : Bool := false
  frame : Nat := 0
  line : Nat := 0
  /-- Accumulated CORE cycles since the last line boundary, in units of 2^-32. -/
  acc : Nat := 0
  /-- Alignment slew added to the trim, in units of 2^-64. -/
  slew : Int := 0
  /-- Lines removed (negative) or added (positive) at the end of the present frame by a jump (R67). -/
  jumpLines : Int := 0
  /-- Cycles (2^-32) by which line `jumpAt` of the present frame is longer (positive) or shorter (negative). -/
  jumpCyc : Int := 0
  jumpAt : Nat := 0
  /-- Jump still to be made in later frames, in 2^-32 CORE cycles, positive to shorten. -/
  jumpCarry : Int := 0
  /-- The present frame is a jump frame. -/
  jumping : Bool := false
  /-- Recent jump frames, newest first (R79). -/
  jumps : List Nat := []
  /-- The last 256 frame boundaries, newest first (R69). -/
  hist : List Boundary := []
  /-- Value that a read of RAS_POS latched for RAS_FRAME (R90). -/
  latch : Nat := 0
  deriving DecidableEq, Repr, Inhabited

/-- One trigger frame of a stream, from its trigger to its close (R71 to R79). -/
structure TrigFrame where
  /-- Trigger frame F. -/
  frame : Nat := 0
  /-- Trigger position used, in 1/256 line. -/
  p : Int := 0
  /-- Raster frame in which the trigger was issued (R79). -/
  issued : Nat := 0
  /-- The trigger was sent (R78). -/
  sent : Bool := false
  /-- The stream was locked when the trigger was issued (R76, R111). -/
  locked : Bool := false
  sref : Option Int := none
  /-- A stream frame has been bound to it (R109). -/
  bound : Bool := false
  /-- It has been missed, and waits for an FS that may still start its frame (R78, R109). -/
  missed : Bool := false
  deriving DecidableEq, Repr, Inhabited

/-- The last stream frame that closed: what lines substituted after its close carry (R111). -/
structure ClosedFrame where
  frame : Nat := 0
  locked : Bool := false
  invalid : Bool := false
  deriving DecidableEq, Repr, Inhabited

/-- Timing state of one stream. STATE, IN_WIN, UNLOCKED, MISS_CNT and p_last are in the registers. -/
structure Stream where
  /-- A trigger has been issued since EN was set: later triggers use the loop (R71). -/
  started : Bool := false
  /-- Position of the next trigger, in 1/256 line (R75). -/
  pNext : Int := 0
  /-- Next trigger frame not yet issued. -/
  nextF : Nat := 0
  /-- Trigger frames issued and not yet closed, oldest first. -/
  frames : List TrigFrame := []
  /-- Successive counted frames outside the window while locked (R77). -/
  outWin : Nat := 0
  /-- The last stream frame that opened, those that opened before it, newest first (R264), and the last one that closed. -/
  lastOpen : Option Nat := none
  opened : List Nat := []
  closed : Option ClosedFrame := none
  /-- Lines substituted of frames that are not open: frame and line (R121). -/
  substs : List (Nat × Nat) := []
  /-- Frames triggered (R579). -/
  trigCnt : Nat := 0
  /-- R82 has raised the fault in this episode. -/
  episode : Bool := false
  deriving DecidableEq, Repr, Inhabited

/-- An asserted trigger line of an ingress port: its line number, its level at rest, and the CORE cycle at which it is released (R72,
R123). -/
structure Pulse where
  port : Nat := 0
  line : Nat := 0
  rest : Bool := false
  until_ : Nat := 0
  deriving DecidableEq, Repr, Inhabited

/-- TOD and the discipline loop (R64 to R66). Trims are in units of 2^-64. -/
structure Time where
  tod : Nat := 0
  todFrac : Nat := 0
  integ : Int := 0
  trim : Int := 0
  lockCnt : Nat := 0
  badCnt : Nat := 0
  /-- TOD at the previous Geward time message (R64). -/
  lastMsg : Option Nat := none
  todLatch : Nat := 0
  setLo : Nat := 0
  /-- CORE cycles since power-on reset: the model's own clock, which orders events of one cycle. -/
  now : Nat := 0
  /-- Trigger lines that are asserted (R72, R123). -/
  pulses : List Pulse := []
  deriving DecidableEq, Repr, Inhabited

/-! Camera ingress. -/

/-- An open stream frame of one map entry (R105 to R117), with the format fields in force when it began (R39). -/
structure OpenFrame where
  stream : Nat := 0
  frame : Nat := 0
  sensorFn : Nat := 0
  vc : Nat := 0
  fmt : Nat := 0
  size : Nat := 0
  len : Nat := 0
  dt : Nat := 0
  /-- The stream was locked when the trigger of this frame was issued (R111). -/
  locked : Bool := false
  /-- Long packets since FS (R108). -/
  count : Nat := 0
  /-- Last LS value, and the number it gave the next line. -/
  lastLs : Option Nat := none
  nextLs : Option Nat := none
  /-- LS did not advance: the following long packet is discarded (R108). -/
  stuck : Bool := false
  /-- Lines received, refused ones included, newest first. -/
  got : List Nat := []
  /-- Lines substituted, by ingress or by the tile former (R121). -/
  subst : List Nat := []
  /-- Lines that an LS jump skipped, which ingress has substituted (R108). -/
  skipped : List Nat := []
  invalid : Bool := false
  /-- LONG has been counted for the frame. -/
  long : Bool := false
  /-- Count of the commit generation of its group when it began (R40). -/
  gen : Nat := 0
  deriving DecidableEq, Repr, Inhabited

/-- One ingress port: open frames by map entry, and the bank after its last claimed granule (R155). -/
structure Port where
  opens : Tbl (Option OpenFrame) := {}
  bank : Nat := 0
  deriving DecidableEq, Repr, Inhabited

/-! The line pool. -/

/-- What a resident line is. -/
inductive LineKind where
  | raw | product | host
  deriving DecidableEq, Repr, Inhabited

/-- Zone that a line's granules are charged to (R159): the reservation of its stream, product or display port, or the overflow
zone at a class. -/
inductive Zone where
  | resv
  | ovf (cls : Nat)
  deriving DecidableEq, Repr, Inhabited

/-- One entry of the line directory with the line's bytes (R155 to R158) and its stamp (R110). -/
structure PLine where
  kind : LineKind := .raw
  /-- Stream, product id or display port. -/
  owner : Nat := 0
  frame : Nat := 0
  line : Nat := 0
  /-- FLAGS of R111 for a raw line, of R278 for a product line. -/
  flags : Nat := 0
  sealVal : Nat := 0
  arrFrame : Nat := 0
  arrLine : Nat := 0
  arrFrac : Nat := 0
  raster : Nat := 0
  sensorFn : Nat := 0
  port : Nat := 0
  vc : Nat := 0
  data : List Byte := []
  /-- FILL mark: the line has no granules (R158). -/
  fill : Bool := false
  /-- It shares the granules of the line it copies (R158). -/
  shares : Bool := false
  grans : List Nat := []
  zone : Zone := .resv
  /-- Ingress holds it for substitution (R119). -/
  ingHold : Bool := false
  /-- Products that still hold it; for a product or host line, its output unit holds it while listed. -/
  holders : List Nat := []
  /-- Its data and seal are complete. -/
  ready : Bool := false
  published : Bool := false
  /-- A substitute that the tile former made for a late or refused line (R158). -/
  tfSub : Bool := false
  /-- Received intact (R119). -/
  intact : Bool := false
  /-- A substitute of ingress that SUBSTITUTE_PUBLISHED has still to publish (R120). -/
  pendingSub : Bool := false
  /-- A host product's line that the transmit builder has taken and not yet copied in full (R172). -/
  sent : Bool := false
  /-- The stream's exposures, container and width, for the tile former. -/
  fmt : Nat := 0
  size : Nat := 0
  deriving DecidableEq, Repr, Inhabited

/-- The pool: the directory, what is quarantined (R176), and the bank pointers of the tile former and of the Geward receive unit
(R155). -/
structure Pool where
  dir : Tbl (Option PLine) := {}
  quarG : List Nat := []
  quarD : List Nat := []
  tfBank : Nat := 0
  rxBank : Nat := 0
  /-- Overflow granules charged to classes 2 and 3 in the last broadcast word (R165). -/
  occ2 : Nat := 0
  occ3 : Nat := 0
  deriving DecidableEq, Repr, Inhabited

/-! Line seals. -/

/-- A ledger entry (R140, R144): an input line of a slow product, or one of its output lines built by several tiles. It keeps what was
asked for (R138): the stream or the source-0 stream, the frame and the line number, and the directory entry that answered. -/
structure LedgerEnt where
  line : Nat := 0
  prd : Nat := 0
  st : Nat := 0
  frame : Nat := 0
  lineNo : Nat := 0
  output : Bool := false
  /-- Payload length, and the product's read range: disjoint intervals of bytes, in rising order. -/
  n : Nat := 0
  ranges : List (Nat × Nat) := []
  frags : List Fragment := []
  deriving DecidableEq, Repr, Inhabited

/-- A running seal context (R145). -/
structure SealCtx where
  run : Nat := 0
  count : Nat := 0
  /-- MODE: it computes a fragment for verification. -/
  frag : Bool := false
  valid : Bool := false
  pfx : List Byte := []
  deriving DecidableEq, Repr, Inhabited

/-- Seal units: the ledger, the contexts of the open lines by 64 × unit + slot (R145, R151), and the CORE cycle at which the first-failure
record was filled (R153). -/
structure Seal where
  ledger : List LedgerEnt := []
  ctx : Tbl SealCtx := {}
  failAt : Nat := 0
  deriving DecidableEq, Repr, Inhabited

/-! Blooms, petals and the tile former. -/

/-- One tile (R187 to R192). -/
structure Tile where
  prd : Nat := 0
  frame : Nat := 0
  row : Nat := 0
  col : Nat := 0
  fast : Bool := false
  cls : Nat := 0
  lean : Bool := false
  /-- Deadline: raster, frame, position in 1/256 line from that frame's boundary, and the TOD it falls on. -/
  dRas : Nat := 0
  dFrame : Nat := 0
  dPos : Int := 0
  dTod : Int := 0
  /-- Emission order. -/
  seq : Nat := 0
  /-- Bloom and queue that the hash or the home gives it. -/
  bloom : Nat := 0
  slot : Nat := 0
  staged : Bool := false
  preempted : Bool := false
  /-- It holds a context slot (R205). -/
  ctx : Bool := false
  /-- Its energy has been paid (R603, R205); its input fragments have been reported (R195, R205). -/
  paid : Bool := false
  reported : Bool := false
  /-- Slow, staged: the footprint lines in scratch (R195): branch, line, bytes. -/
  src : List (Nat × Nat × List Byte) := []
  /-- FLAGS gathered from the footprint when it was staged. -/
  srcFlags : Nat := 0
  /-- Its cost in tokens, fixed at emission (R603). -/
  cost : Nat := 0
  /-- A cross-bloom thief runs it (R200). -/
  stolen : Bool := false
  /-- Arrival of the latest line of its footprint (R256): raster, frame, line, fraction. -/
  arr : Pos := {}
  /-- It is a rerun under R147. -/
  rerun : Bool := false
  /-- Runs of it whose stage seals failed (R233). -/
  failed : Nat := 0
  /-- Seal contexts of its open output lines, saved with its context (R146). -/
  seals : List SealCtx := []
  /-- Its miss has been counted (R207). -/
  missed : Bool := false
  deriving DecidableEq, Repr, Inhabited

/-- One bloom: the 32 queues, the fast list, the backlog, what each petal runs, and the energy balances in units of 2^-8 token
(R202, R599). -/
structure Bloom where
  q : Tbl (List Tile) := {}
  fast : List Tile := []
  backlog : List Tile := []
  run : Tbl (Option Tile) := {}
  resv : Int := 0
  gen : Int := 0
  deriving DecidableEq, Repr, Inhabited

/-- The tile former and the cross-bloom budget (R190, R201). -/
structure Tf where
  seq : Nat := 0
  /-- Cross-bloom budget in units of 1/100 byte, and bytes staged across blooms in the present master line (R215). -/
  budget : Nat := 6553600
  xBytes : Nat := 0
  /-- Petals whose cross-bloom steal waits on the budget (R201). -/
  thieves : List Nat := []
  deriving DecidableEq, Repr, Inhabited

/-! Products. -/

/-- A source line as a strip has read it (R139, R188). -/
structure CarryLine where
  st : Nat := 0
  frame : Nat := 0
  line : Nat := 0
  flags : Nat := 0
  arr : Option Pos := none
  data : List Byte := []
  deriving DecidableEq, Repr, Inhabited

/-- A line that the frame store has read back for a product frame: a reference line (R257) or a line of a stitch stage (R296), and whether
it failed its seal. -/
structure KeptLine where
  line : Nat := 0
  bad : Bool := false
  data : List Byte := []
  deriving DecidableEq, Repr, Inhabited

/-- The stage frame that branch `branch` contributes to a product frame (R264, R296): its frame, the half that holds it, its FLAGS. -/
structure StageUse where
  branch : Nat := 0
  frame : Nat := 0
  half : Nat := 0
  flags : Nat := 0
  deriving DecidableEq, Repr, Inhabited

/-- One product frame in production (R264, R271, R48). -/
structure PFrame where
  frame : Nat := 0
  /-- The definition and table area under which it runs (R271), their number among the settings of the product, and the half of the table
  area that holds them (R268). -/
  pdb : List Byte := []
  area : List Byte := []
  setting : Nat := 0
  half : Nat := 0
  /-- The table area as the frame store delivered it, and whether a word of it was bad (R222). -/
  tbl : Option (List Byte × Bool) := none
  /-- Fast: source lines that strips have read and verified and that later strips need (R139, R188). -/
  carry : List CarryLine := []
  /-- TNR positions whose reference is there (R258), and what has been read back: by position, of the stage of branch b by 16 + b. -/
  refOk : List Nat := []
  kept : Tbl (List KeptLine) := {}
  /-- Source frame taken for each stream once a tile has needed it, and the stage frames of stitched branches (R264). -/
  srcs : List (Nat × Nat) := []
  stages : List StageUse := []
  /-- Next tile in emission order, tiles emitted, tiles completed (R48). -/
  next : Nat := 0
  emitted : Nat := 0
  completed : Nat := 0
  closed : Bool := false
  invalid : Bool := false
  /-- Abandoned or dropped: no further tile, no further line (R14, R173). -/
  dead : Bool := false
  /-- The host caused the loss (R173). -/
  hostLoss : Bool := false
  /-- Slow: tiles completed in each tile row. -/
  rows : Tbl Nat := {}
  /-- Lines whose frame-end order is still open: next line to publish, lines released, OR of FLAGS. -/
  pub : Nat := 0
  rel : Nat := 0
  flags : Nat := 0
  stat : List StatAcc := []
  /-- Statistics lines published (R253). -/
  statPub : Nat := 0
  /-- Input lines whose verdict failed: stream and line; source lines of the stage of branch b under 64 + b (R147). -/
  badLines : List (Nat × Nat) := []
  /-- End of frame has been sent. -/
  ended : Bool := false
  /-- Count of the commit generation of the product's group when it began (R40). -/
  gen : Nat := 0
  deriving DecidableEq, Repr, Inhabited

/-- The three product commands (R265), coded as PRD_REJECT.CMD. -/
inductive PrdOp where
  | define | update | retire
  deriving DecidableEq, Repr, Inhabited

/-- How far a product command has come. -/
inductive PrdStage where
  | queued | readPdb | readTable | checking | pending
  deriving DecidableEq, Repr, Inhabited

/-- A product command from its start to its completion (R265 to R276). -/
structure PrdCmd where
  op : PrdOp := .define
  dom : Nat := 0
  /-- Global index of the SUB ring, and the descriptor's index and bytes. -/
  ring : Nat := 0
  idx : Nat := 0
  bytes : List Byte := []
  /-- Firmware's definition of a Primrose product: no completion is due (R577). -/
  boot : Bool := false
  stage : PrdStage := .queued
  pdb : List Byte := []
  area : List Byte := []
  readBad : Bool := false
  /-- Target frame with AT_EN = 1 (R271); the change is due at the next boundary without it. -/
  target : Option Nat := none
  /-- Boundary at which it acted, for a completion that is written later (R404). -/
  acted : Option Pos := none
  deriving DecidableEq, Repr, Inhabited

/-- A source line that a stitched branch has taken (R296). -/
structure StageLine where
  line : Nat := 0
  flags : Nat := 0
  data : List Byte := []
  deriving DecidableEq, Repr, Inhabited

/-- The source frame that a stitched branch takes (R296): its lines, and those whose verdict failed (R147). -/
structure StageIn where
  frame : Nat := 0
  lines : List StageLine := []
  bad : List Nat := []
  deriving DecidableEq, Repr, Inhabited

/-- A frame in the frame store: half of a reference region (R294) or of a stitch stage (R296). -/
structure KeptFrame where
  frame : Nat := 0
  done : Bool := false
  bad : Bool := false
  flags : Nat := 0
  /-- Source lines of a stage whose verdict failed. -/
  badLines : List Nat := []
  /-- Reference: lines as far as they are computed, and those whose write has been given out since they last changed. -/
  lines : List KeptLine := []
  whole : List Nat := []
  deriving DecidableEq, Repr, Inhabited

/-- A line on its way into the frame store: the rows that it fills and their bytes, its seal in the last four (R291). -/
structure KeptWrite where
  rows : List Nat := []
  data : List Byte := []
  deriving DecidableEq, Repr, Inhabited

/-- A line in a spill ring (R173): its place in the ring, its bytes' number, and the line without them. -/
structure SpillLine where
  slot : Nat := 0
  len : Nat := 0
  line : PLine := {}
  deriving DecidableEq, Repr, Inhabited

/-- Settings that an update has replaced: frames numbered before frame `until_` still run under them (R271). -/
structure PastSet where
  pdb : List Byte := []
  area : List Byte := []
  half : Nat := 0
  until_ : Nat := 0
  deriving DecidableEq, Repr, Inhabited

/-- One product. STATE, FAST, CLASS, DEST_KIND, HOME, DOMAIN and GEN are in PRD_STATE. -/
structure Product where
  pdb : List Byte := []
  area : List Byte := []
  /-- TBL_BYTES of the PRD_DEFINE: an update stays within it (R268). -/
  tblMax : Nat := 0
  /-- Commands that wait for their boundary, in order of arrival: the definition, an update, a retirement. -/
  waits : List PrdCmd := []
  /-- Retirement that waits for the last frame, with the command to complete. -/
  retire : Option PrdCmd := none
  /-- First frame produced and first frame no longer produced. -/
  first : Nat := 0
  until_ : Option Nat := none
  /-- Completion of the definition that waits for the replaced product (R275). -/
  replOf : Option PrdCmd := none
  frames : List PFrame := []
  /-- Its reservation has been free in full: its first tile may be emitted (R161). -/
  began : Bool := false
  /-- Spill is under way (R173). -/
  spilling : Bool := false
  /-- Firmware defined it from the profile (R577). -/
  boot : Bool := false
  /-- Host address of the definition last read (R615). -/
  pdbAddr : Nat := 0
  /-- The table area lies in the pool (R268, R302), else in the frame store. -/
  areaPool : Bool := false
  /-- Granules of the pool that hold both halves of its table area (R268), the number of settings that have acted, and of each half what the
  memory delivers and whether a word of it is bad (R222). -/
  areaG : List Nat := []
  settings : Nat := 0
  past : Option PastSet := none
  tbls : Tbl (List Byte × Bool) := {}
  /-- 16 KiB granules of SYS regions that its table area, its spill ring and the stitch stage of each branch hold (R295). -/
  tblSys : List Nat := []
  spillSys : List Nat := []
  stageSys : Tbl (List Nat) := {}
  /-- Spill ring: lines out of the pool, oldest first, and lines that have entered it (R173). -/
  spillQ : List SpillLine := []
  spillCnt : Nat := 0
  /-- Reference halves by 2 × position + half, and frames that each TNR has processed (R294). -/
  refs : Tbl (Option KeptFrame) := {}
  refCnt : Tbl Nat := {}
  /-- Stitch stages by 2 × branch + half, and the source lines that each branch has taken of its present frame (R296). -/
  stages : Tbl (Option KeptFrame) := {}
  stageIn : Tbl (Option StageIn) := {}
  /-- Lines of references and stages on their way into the frame store, oldest first. -/
  writes : List KeptWrite := []
  /-- DATA region: frames begun since the definition, the frame of the present slot, whether its first header is written, its lines, and the
  TOD of the first and of the last line's release (R292). -/
  slotCnt : Nat := 0
  slotFrame : Option Nat := none
  slotOpen : Bool := false
  slotLines : Nat := 0
  slotTod : Nat := 0
  slotLast : Nat := 0
  /-- The present slot is complete and waits for its last header: OR of the line FLAGS. -/
  slotEnd : Option Nat := none
  /-- Dropped frames whose slot header is still to be written, with the OR of their line FLAGS (R292). -/
  slotDrops : List (Nat × Nat) := []
  /-- DOM_RESET retires it without a completion (R393). -/
  silent : Bool := false
  deriving DecidableEq, Repr, Inhabited

/-- The product engine: products by id, and its commands in order of arrival (R267). -/
structure Prd where
  tab : Tbl Product := {}
  queue : List PrdCmd := []
  deriving DecidableEq, Repr, Inhabited

/-! Frame store (R286 to R304). -/

/-- An FST_COPY whose reads are under way (R394). -/
structure FstCopy where
  ring : Nat := 0
  idx : Nat := 0
  bytes : List Byte := []
  deriving DecidableEq, Repr, Inhabited

/-- Layout of the slots of a DATA region by the product that last wrote there (R292): bytes of a slot, lines of a frame before its
statistics lines, bytes of such a line. -/
structure SlotGeo where
  size : Nat := 0
  plain : Nat := 0
  bytes : Nat := 0
  deriving DecidableEq, Repr, Inhabited

/-- A stream's piece of work at the frame store (R297). -/
inductive FstWork where
  /-- First or last header of the slot of product frame `(i, f)` (R293); the header of a frame that its class dropped. -/
  | header (i f : Nat) (valid : Bool)
  | dropped (i f flags : Nat)
  /-- Line of directory entry `d` into its slot; into the spill ring; back from it. -/
  | line (i f d : Nat)
  | spillOut (i d : Nat)
  | spillIn (i : Nat)
  /-- A line of a reference or a stage is written; reference line or stage line `y` is read for frame `f` (key of `PFrame.kept`). -/
  | keep (i : Nat)
  | fetch (i f key y : Nat)
  /-- The table area is read for frame `f`. -/
  | table (i f : Nat)
  | copy (c : FstCopy)
  deriving DecidableEq, Repr, Inhabited

/-- A row request (R286): its job and place in it, the row, the bytes that it writes, the class and the order of arrival. -/
structure FstReq where
  job : Nat := 0
  idx : Nat := 0
  row : Nat := 0
  wr : Bool := false
  data : List Byte := []
  cls : Nat := 0
  seq : Nat := 0
  deriving DecidableEq, Repr, Inhabited

/-- Work under way: its requests that have no place in a queue yet, how many are not done, and the bytes read. -/
structure FstJob where
  id : Nat := 0
  work : FstWork := default
  todo : List FstReq := []
  left : Nat := 0
  buf : List Byte := []
  /-- A word of it was delivered uncorrected. -/
  bad : Bool := false
  deriving DecidableEq, Repr, Inhabited

/-- The frame store beyond its registers. -/
structure Fst where
  /-- Contents by 1 KiB row; an unlisted row reads as zeros. -/
  rows : Tbl (List Byte) := {}
  /-- Row requests by pseudo-channel, at most 64 each, the work that they belong to, and the number of the next one (R297). -/
  queues : Tbl (List FstReq) := {}
  jobs : List FstJob := []
  seq : Nat := 0
  /-- Trainings begun since reset, and training waits for the HBM supplies (R301). -/
  attempts : Nat := 0
  trainDue : Bool := false
  selfRefresh : Bool := false
  copies : List FstCopy := []
  geo : Tbl SlotGeo := {}
  /-- Rows scrubbed in the present period. -/
  scrub : Nat := 0
  /-- Pseudo-channels whose request in service has met a command parity error; 16 for the scrubber's (R300). -/
  parity : List Nat := []
  deriving DecidableEq, Repr, Inhabited

/-! Geward lanes, symbols and blocks (R314 to R336). The architectural lane fields are in the registers. -/

/-- What a lane brings in one block slot (R324, R326). -/
inductive GwBlk where
  | data (b : List Byte) | idle | am | bad
  deriving DecidableEq, Repr, Inhabited

/-- The last valid alignment marker of a receive lane (R329): TX_LANE, AM_SEQ, TXW, LOGICAL, and when it came: block count of the
lane and CORE cycle. -/
structure GwAm where
  lane : Nat := 0
  seq : Nat := 0
  txw : Nat := 0
  logical : Nat := 0
  block : Nat := 0
  time : Nat := 0
  deriving DecidableEq, Repr, Inhabited

/-- One receive lane (R316, R325, R328, R329, R334). -/
structure GwRx where
  /-- Valid headers in HUNT, and the history of the last 64 headers in LOCK, newest first: true for an invalid one. -/
  cnt : Nat := 0
  hist : List Bool := []
  /-- Last decided symbol, and the last 58 received payload bits, the newest in bit 0. -/
  last : Nat := 0
  scr : Nat := 0
  /-- The last header was invalid in HUNT: one symbol is skipped before the next header (R328). -/
  slip : Bool := false
  blocks : Nat := 0
  am : Option GwAm := none
  /-- Two successive markers agreed. -/
  steady : Bool := false
  /-- Successive failed attempts in the present mode. -/
  fails : Nat := 0
  /-- Elastic buffer. -/
  fifo : List GwBlk := []
  deriving DecidableEq, Repr, Inhabited

/-- One transmit lane: precoder and scrambler. -/
structure GwTx where
  last : Nat := 0
  scr : Nat := 2 ^ 58 - 1
  deriving DecidableEq, Repr, Inhabited

/-- The lane group. -/
structure GwPhy where
  pll : Bool := false
  rx : Tbl GwRx := {}
  tx : Tbl GwTx := {}
  amSeq : Nat := 0
  /-- Transmit lanes of the chosen width in logical order, and whether an AM has announced it (R331). -/
  lanes : List Nat := []
  said : Bool := false
  /-- AM_SEQ and RX_READY of the last valid AM on a ready lane. -/
  lastM : Option (Nat × Nat) := none
  /-- Slots of the frame that is arriving, and whether it is broken (R333). -/
  asm : List (List Byte) := []
  broken : Bool := false
  slots : Nat := 0
  deriving DecidableEq, Repr, Inhabited

/-! Open reads of the vehicle bridge (R490). -/

/-- State of an open read (R490). -/
inductive ReadSt where
  | pending | done | failed (cause : Nat)
  deriving DecidableEq, Repr, Inhabited

/-- An open-read entry (R490): its key, the registers it asks for, and the registers that its transfer covers. -/
structure OpenRead where
  dom : Nat := 0
  addr : Nat := 0
  len : Nat := 0
  port : Nat := 0
  slot : Nat := 0
  dev : Nat := 0
  reg : Nat := 0
  pf : Bool := false
  first : Nat := 0
  n : Nat := 0
  st : ReadSt := .pending
  data : List Byte := []
  tod : Nat := 0
  /-- The Geward link went down while it was PENDING: it expires when its transfer ends (R495). -/
  orphan : Bool := false
  deriving DecidableEq, Repr, Inhabited

/-! Geward transactions and link layer (R345 to R372). -/

/-- Transaction types of R362. -/
inductive TxnKind where
  | mwr | mrd | cpl | msg
  deriving DecidableEq, Repr, Inhabited

/-- What a transaction of Korlet serves (R412, R366): nothing that is recorded, a product line, its record, a completion pair,
copied frame store data, a command's write, proof records, the proof log's index, a latest-value half, a descriptor, a
command's read, a product definition, its table area, an asset store. -/
inductive OrgKind where
  | none | lineData | lineRec | pair | copy | cmdWrite | proof | lvt | desc | cmdRead | pdb | table | asset
  deriving DecidableEq, Repr, Inhabited

/-- Origin of a transaction: its kind, the global ring index (R382) and the descriptor or buffer index. -/
structure Org where
  kind : OrgKind := .none
  ring : Nat := 0
  idx : Nat := 0
  deriving DecidableEq, Repr, Inhabited

/-- One transaction (R362). -/
structure Txn where
  kind : TxnKind := .mwr
  tag : Nat := 0
  dom : Nat := 0
  cls : Nat := 0
  ro : Bool := false
  sub : Nat := 0
  info : Nat := 0
  len : Nat := 0
  addr : Nat := 0
  data : List Byte := []
  org : Org := {}
  /-- Read job that an MRD belongs to. -/
  job : Nat := 0
  /-- Completion pair: the SUB or BUF ring and the descriptor or buffer index that it completes. -/
  cover : Option (Nat × Nat) := none
  /-- Re-issues of an MRD that the host has answered with RETRY (R365). -/
  retries : Nat := 0
  /-- The open read that a completion for a remote window collects (R372). -/
  read : Option OpenRead := none
  /-- The product line of which this is the last write: product, frame, line (R172). -/
  ends : Option (Nat × Nat × Nat) := none
  deriving DecidableEq, Repr, Inhabited

/-- A DATA frame kept for replay (R354): its SEQ, its transaction units and the transactions that have units in it. -/
structure TxFrame where
  seq : Nat := 0
  units : List Byte := []
  txns : List Txn := []
  deriving DecidableEq, Repr, Inhabited

/-- Credits of one class (R359): cumulative counts, and whether the far end granted without limit. -/
structure Credit where
  hdr : Nat := 0
  data : Nat := 0
  hdrUnl : Bool := false
  dataUnl : Bool := false
  deriving DecidableEq, Repr, Inhabited

/-- A Korlet MRD whose completion is awaited (R364 to R366). -/
structure MrdOpen where
  txn : Txn := {}
  /-- Bytes received, by offset; none where no completion has brought the byte. -/
  got : List (Option Byte) := []
  /-- The host answered RETRY; the read is to be issued again (R365). -/
  again : Bool := false
  deriving DecidableEq, Repr, Inhabited

/-- A read of host memory made of one or more MRDs. -/
structure ReadJob where
  id : Nat := 0
  org : Org := {}
  dom : Nat := 0
  addr : Nat := 0
  buf : List Byte := []
  /-- MRDs not yet completed. -/
  left : Nat := 0
  failed : Bool := false
  deriving DecidableEq, Repr, Inhabited

/-- The link layer. -/
structure Gwl where
  /-- A good INIT was received since LINK_UP (R352). -/
  rxDone : Bool := false
  /-- Korlet's TX epoch, drawn when ROM starts after a power-on reset and stepped at each LINK_UP (R353). -/
  epoch : Nat := 0
  farMaxLen : Nat := 0
  seq : Nat := 0
  expect : Nat := 0
  lastAck : Nat := 4095
  replay : List TxFrame := []
  /-- Frames of the replay buffer, counted from its oldest, already sent again in a replay in progress. -/
  resend : Option Nat := none
  /-- SEQ at which the latest replay began, and successive replays begun there without acknowledgement (R358). -/
  replayAt : Nat := 0
  replayCnt : Nat := 0
  /-- CORE cycle at which a NAK for the present E was sent (R356). -/
  nakAt : Option Nat := none
  nakDue : Bool := false
  ackDue : Bool := false
  crdDue : Bool := false
  /-- CORE cycle at which the last credit record was sent (R359). -/
  crdAt : Option Nat := none
  /-- Credits the far end granted, those Korlet has used, those Korlet granted and those the host has used, by class P, NP,
  CPL, MSG. -/
  limit : Tbl Credit := {}
  used : Tbl Credit := {}
  grant : Tbl Credit := {}
  taken : Tbl Credit := {}
  /-- Units of a transaction received in part (R348). -/
  rxPart : List Byte := []
  /-- Units of a transaction sent in part, and the transaction. -/
  txPart : List Byte := []
  txPartOf : Option Txn := none
  /-- Transactions waiting to be sent, oldest first. -/
  txq : List Txn := []
  /-- Transactions sent since the last MRD while one waits (R361). -/
  sinceMrd : Nat := 0
  mrds : Tbl (Option MrdOpen) := {}
  nextTag : Nat := 0
  /-- Tags withheld after a timeout, each up to a CORE cycle (R366). -/
  heldTags : List (Nat × Nat) := []
  mwrTag : Nat := 0
  jobs : List ReadJob := []
  nextJob : Nat := 0
  deriving DecidableEq, Repr, Inhabited

/-! Host rings (R382 to R417). -/

/-- Ring types and states as RING_CREATE and R415 code them. -/
inductive RingType where
  | sub | buf | cmp
  deriving DecidableEq, Repr, Inhabited

/-- Ring states of R410. -/
inductive RingSt where
  | disabled | running | stopped | error
  deriving DecidableEq, Repr, Inhabited

/-- A fetched descriptor: index and 32 bytes. -/
structure Desc where
  idx : Nat := 0
  bytes : List Byte := []
  deriving DecidableEq, Repr, Inhabited

/-- A command that has started on a SUB ring and has not advanced CI yet (R390). -/
structure Started where
  idx : Nat := 0
  bytes : List Byte := []
  /-- Its unit has taken it up. -/
  taken : Bool := false
  /-- Its completion has been written. -/
  done : Bool := false
  /-- It started before the ring was resumed at another index: its completion does not move CI (R390, R392). -/
  old : Bool := false
  deriving DecidableEq, Repr, Inhabited

/-- An output buffer that a product holds (R398). -/
structure HeldBuf where
  /-- Product that fills it. -/
  prd : Nat := 0
  idx : Nat := 0
  addr : Nat := 0
  recs : Nat := 0
  bytes : Nat := 0
  pitch : Nat := 0
  user : Nat := 0
  frame : Nat := 0
  first : Nat := 0
  lines : Nat := 0
  flags : Nat := 0
  sof : Bool := false
  sealFail : Bool := false
  deriving DecidableEq, Repr, Inhabited

/-- The main entry of a completion pair (R400 to R403): KIND and the four words with PHASE and KIND 0, and the point in time of
its time entry (R404). `cover` names the descriptor or buffer it completes. -/
structure Entry where
  kind : Nat := 0
  w0 : Nat := 0
  w1 : Nat := 0
  w2 : Nat := 0
  w3 : Nat := 0
  at_ : Pos := {}
  cover : Option (Nat × Nat) := none
  deriving DecidableEq, Repr, Inhabited

/-- Context of one ring (R415) and the work that hangs on it. -/
structure Ring where
  typ : RingType := .sub
  st : RingSt := .disabled
  cls : Nat := 0
  pin : Bool := false
  armed : Bool := false
  /-- k: the ring holds 2^k entries. -/
  k : Nat := 0
  err : Nat := 0
  /-- Bound CMP ring. -/
  cmp : Nat := 0
  base : Nat := 0
  pi : Nat := 0
  ci : Nat := 0
  /-- FI of a SUB or BUF ring, SIG of a CMP ring. -/
  fi : Nat := 0
  vector : Nat := 0
  modCnt : Nat := 0
  modLines : Nat := 0
  modRaster : Nat := 0
  product : Nat := 0
  bound : Nat := 0
  errIdx : Nat := 0
  errAddr : Nat := 0
  used : Nat := 0
  fetched : List Desc := []
  started : List Started := []
  held : Option HeldBuf := none
  /-- BUF: RING_STOP waits for the frame boundary (R392). -/
  stopping : Bool := false
  /-- CMP: entries that wait for room (R405), and events lost since the last EVT_OVERFLOW. -/
  waitQ : List Entry := []
  lost : Nat := 0
  /-- CMP: lines of MOD_RASTER since the first unsignalled pair, or since the arm (R407). -/
  modCount : Option Nat := none
  deriving DecidableEq, Repr, Inhabited

/-- One address window of a domain (R393). -/
structure Win where
  base : Nat := 0
  pages : Nat := 0
  rd : Bool := false
  wr : Bool := false
  deriving DecidableEq, Repr, Inhabited

/-- One ring domain. -/
structure Dom where
  en : Bool := false
  remote : Nat := 0
  evtRing : Nat := 1
  wins : List Win := []
  /-- DOM_RESET under way: the admin ring and descriptor whose completion is due (R393). -/
  resetBy : Option (Nat × Nat) := none
  deriving DecidableEq, Repr, Inhabited

/-- A doorbell in the queue (R389). -/
structure DbEntry where
  dom : Nat := 0
  ring : Nat := 0
  index : Nat := 0
  op : Nat := 0
  arm : Bool := false
  /-- It must be discarded for one of the reasons of the first row of R388. -/
  bad : Bool := false
  /-- Its ring's context was not cached and had to be filled (R416). -/
  missed : Bool := false
  deriving DecidableEq, Repr, Inhabited

/-- Record of one of Korlet's last 1,024 MWRs (R412). Whether its covering completion has been written follows from its ring. -/
structure MwrRec where
  tag : Nat := 0
  dom : Nat := 0
  org : Org := {}
  addr : Nat := 0
  len : Nat := 0
  deriving DecidableEq, Repr, Inhabited

/-- The host queue engine. Rings are keyed by global index (R382). -/
structure Hqe where
  rings : Tbl Ring := {}
  doms : Tbl Dom := {}
  dbq : List DbEntry := []
  /-- Cached contexts, least recently used first (R416). -/
  cache : List Nat := []
  /-- Contexts whose fill is under way. -/
  fills : List Nat := []
  mwrs : List MwrRec := []
  /-- Posted credits withheld while the doorbell queue is full (R389). -/
  credHdr : Nat := 0
  credData : Nat := 0
  /-- Cycle of the recorded ring error (R425). -/
  errAt : Nat := 0
  deriving DecidableEq, Repr, Inhabited

/-! Displays and Marigold (R426 to R467). -/

/-- A layer line in the display line FIFO: the layer, and the line's bytes, none for a black opaque line (R432). -/
structure LayerLine where
  layer : Nat := 0
  row : Nat := 0
  data : Option (List Byte) := none
  deriving DecidableEq, Repr, Inhabited

/-- The product of a layer for one display frame (R431): its size, its PACK format and the stream of its source 0. -/
structure LayerSrc where
  layer : Nat := 0
  prd : Nat := 0
  w : Nat := 0
  h : Nat := 0
  fmt : Nat := 0
  stream : Nat := 0
  deriving DecidableEq, Repr, Inhabited

/-- A tell-tale as latched for a display frame (R438). -/
structure TtLatch where
  tt : Nat := 0
  eff : Nat := 0
  stale : Bool := false
  deriving DecidableEq, Repr, Inhabited

/-- A slot in one display frame (R439 to R444): its content, the running CRC over the tapped bytes, and what the proof expects. -/
structure SlotRun where
  slot : Nat := 0
  x : Nat := 0
  y : Nat := 0
  w : Nat := 0
  h : Nat := 0
  img : Nat := 0
  shown : Option Nat := none
  lit : Bool := false
  mem : List Nat := []
  crc : Nat := 0
  expect : Nat := 0
  plain : Nat := 0
  /-- A row of it was not sent. -/
  missed : Bool := false
  /-- Its last row has passed the tap. -/
  fin : Bool := false
  /-- Its readback record has been written. -/
  read : Bool := false
  deriving DecidableEq, Repr, Inhabited

/-- One display frame (R427, R429): the register file at its boundary, what has been fetched and sent of it, and its proofs. -/
structure DispFrame where
  frame : Nat := 0
  gen : Nat := 0
  snap : Tbl (Option Word) := {}
  /-- The layers that have a product. -/
  srcs : List LayerSrc := []
  /-- The link was up at its boundary and has stayed up. -/
  ok : Bool := false
  /-- Next display line to begin, and next active row to fetch. -/
  line : Nat := 0
  fetch : Nat := 0
  fifo : List LayerLine := []
  last : List LayerLine := []
  spent : Bool := false
  latched : Bool := false
  tts : List TtLatch := []
  slots : List SlotRun := []
  /-- Tell-tales that have their proof record. -/
  recs : List Nat := []
  deriving DecidableEq, Repr, Inhabited

/-- A line that the host writes (R433): its header, the bytes that have come, its directory entry once its granules are claimed, and
the posted credit that waits for the claim: headers and data units (R174). -/
structure HostOpen where
  frame : Nat := 0
  line : Nat := 0
  layer : Nat := 0
  bytes : Nat := 0
  data : List Byte := []
  dir : Option Nat := none
  credHdr : Nat := 0
  credData : Nat := 0
  /-- Its seal, once its last byte has come (R143, R434). -/
  sealVal : Nat := 0
  deriving DecidableEq, Repr, Inhabited

/-- One display port beyond its registers. -/
structure Disp where
  /-- The link has been up since RUN went to 1 (R428). -/
  seen : Bool := false
  /-- Display frames begun, oldest first; finished ones stay while proofs or readbacks may concern them. -/
  frames : List DispFrame := []
  /-- The host's present line, and complete lines that wait for granules of their reservation, oldest first. -/
  host : Option HostOpen := none
  stalled : List HostOpen := []
  deriving DecidableEq, Repr, Inhabited

/-- Input of a tell-tale (R437). -/
structure TtIn where
  /-- Last value from the bridge, and VALID. -/
  val : Nat := 0
  valid : Bool := false
  /-- Last value from the host. -/
  hostVal : Nat := 0
  /-- Frame of the port's raster at the last MGD_SET that named it. -/
  setAt : Option Nat := none
  deriving DecidableEq, Repr, Inhabited

/-- A proof record in the on-chip buffer (R448, R449). -/
structure ProofRec where
  bytes : List Byte := []
  fail : Bool := false
  deriving DecidableEq, Repr, Inhabited

/-- The proof log in host memory (R449, R454). -/
structure ProofLog where
  base : Nat := 0
  piAddr : Nat := 0
  k : Nat := 0
  pi : Nat := 0
  deriving DecidableEq, Repr, Inhabited

/-- An MGD_LOAD under way (R451): its command, and the store once it has been read; none for a failed read. -/
structure MgdLoad where
  ring : Nat := 0
  idx : Nat := 0
  cmd : List Byte := []
  got : Option (Option (List Byte)) := none
  deriving DecidableEq, Repr, Inhabited

/-- Marigold beyond its registers. -/
structure Mgd where
  /-- Store of each bank: envelope and payload. -/
  banks : Tbl (List Byte) := {}
  loads : Tbl (Option MgdLoad) := {}
  ins : Tbl TtIn := {}
  /-- Tell-tales whose proof fault has been raised in this episode (R446). -/
  raised : List Nat := []
  buf : List ProofRec := []
  log : Option ProofLog := none
  deriving DecidableEq, Repr, Inhabited

/-! Vehicle bridge (R468 to R507). -/

/-- Running state of a receive filter (R475, R476). -/
structure FilterRun where
  /-- It has accepted a message since enable or a changed load. -/
  started : Bool := false
  /-- Reference of the alive counter, none where the next message is accepted without a counter check. -/
  ref : Option Nat := none
  stale : Bool := false
  /-- Last discard reason: 0 none, 1 CRC, 2 SEQ, 3 REPEAT. -/
  reason : Nat := 0
  deriving DecidableEq, Repr, Inhabited

/-- Running state of a signal-map entry: the last v and r it formed, and v and VALID of its last SIGNAL event (R481). -/
structure MapRun where
  val : Option (Int × Int) := none
  last : Option (Int × Bool) := none
  deriving DecidableEq, Repr, Inhabited

/-- A CAN transmit object (R484): payload, last counter sent, and whether a map entry has changed one of its fields since it was last
queued. -/
structure TxObj where
  payload : List Byte := []
  cnt : Option Nat := none
  changed : Bool := false
  deriving DecidableEq, Repr, Inhabited

/-- A CAN frame that waits for its channel (R484). -/
structure CanFrame where
  obj : Nat := 0
  id : Nat := 0
  ext : Bool := false
  fd : Bool := false
  brs : Bool := false
  data : List Byte := []
  deriving DecidableEq, Repr, Inhabited

/-- An entry of the latest-value table (R486): VALUE, SEQ, flags and TOD, and whether a new value came since the last tick. -/
structure LvtEnt where
  value : List Byte := []
  fresh : Bool := false
  seq : Nat := 0
  valid : Bool := false
  stale : Bool := false
  range : Bool := false
  fail : Bool := false
  tod : Nat := 0
  deriving DecidableEq, Repr, Inhabited

/-- What a tunnelled transfer serves (R487): a latest-value poll, an open-read entry, a posted window write, a VBR_XFER. -/
inductive TunUse where
  | poll (src : Nat)
  | read (entry : Nat)
  | write (dom tag : Nat)
  | xfer (ring idx : Nat) (cmd : List Byte)
  deriving DecidableEq, Repr, Inhabited

/-- One I2C transfer on a port's uplink (R487). -/
structure TunJob where
  use : TunUse := default
  wr : Bool := false
  reg16 : Bool := false
  dev : Nat := 0
  reg : Nat := 0
  len : Nat := 0
  data : List Byte := []
  /-- An injector dropped it, or corrupts the first byte that it reads with this mask (R550). -/
  lost : Bool := false
  mask : Nat := 0
  deriving DecidableEq, Repr, Inhabited

/-- Tunnel of one port: transfers in arrival order, the first one in flight; window writes that found the write queue full, with the
posted credit that each holds back: headers and data units (R493). -/
structure Tunnel where
  jobs : List TunJob := []
  held : List (TunJob × Nat × Nat) := []
  deriving DecidableEq, Repr, Inhabited

/-- A prefetch cache line (R490), with the order of its last use. -/
structure CacheLine where
  dev : Nat := 0
  reg16 : Bool := false
  first : Nat := 0
  data : List Byte := []
  used : Nat := 0
  deriving DecidableEq, Repr, Inhabited

/-- A park record (R492), with the order of its park. -/
structure ParkRec where
  bytes : List Byte := []
  seq : Nat := 0
  deriving DecidableEq, Repr, Inhabited

/-- The vehicle bridge beyond its registers. Table entries by 4096 × TABLE + index; an unlisted entry is all zeros. -/
structure Vbr where
  tabs : Tbl (List Byte) := {}
  filt : Tbl FilterRun := {}
  maps : Tbl MapRun := {}
  objs : Tbl TxObj := {}
  /-- Frames queued per channel. -/
  canQ : Tbl (List CanFrame) := {}
  lvt : Tbl LvtEnt := {}
  gen : Nat := 0
  /-- Lines of the tick raster since the last tick fell due, and a tick that is due (R486). -/
  lvtCnt : Nat := 0
  lvtDue : Bool := false
  tun : Tbl Tunnel := {}
  reads : Tbl (Option OpenRead) := {}
  /-- Cache lines by 4 × port + slot. -/
  cache : Tbl (Option CacheLine) := {}
  park : Tbl (Option ParkRec) := {}
  /-- Order of uses and parks. -/
  seq : Nat := 0
  deriving DecidableEq, Repr, Inhabited

/-! Board bus. -/

/-- One SMB[1] transfer (R526): of the register engine or of firmware. -/
structure Smb1Job where
  firmware : Bool := false
  attempts : Nat := 0
  deriving DecidableEq, Repr, Inhabited

/-- SMB[0] pointers (R510) and the transfers of SMB[1]. -/
structure Smb where
  /-- REG_PTR: offset and LEN, once a valid one has been written. -/
  ptr : Option (Nat × Nat) := none
  lupPtr : Nat := 0
  /-- Transfer on the bus or between two attempts; transfers that wait. -/
  job : Option Smb1Job := none
  /-- The last attempt lost arbitration and waits for the bus (R520). -/
  lost : Bool := false
  fwWait : Nat := 0
  regWait : Bool := false
  deriving DecidableEq, Repr, Inhabited

/-! Faults, safe state, Lupin and injection (R529 to R551). -/

/-- A Lupin record before CHK is formed (R544). -/
structure LupRec where
  seq : Nat := 0
  kind : Nat := 0
  source : Nat := 0
  sev : Nat := 0
  boot : Nat := 0
  at_ : Pos := {}
  arg0 : Nat := 0
  arg1 : Nat := 0
  /-- CORE cycle of its submission: it orders records of one cycle (R543). -/
  cyc : Nat := 0
  deriving DecidableEq, Repr, Inhabited

/-- A dump slot of the boot flash (R548): header fields and records. -/
structure DumpSlot where
  bootCount : Nat := 0
  lastSeq : Nat := 0
  header : List Byte := []
  recs : List LupRec := []
  deriving DecidableEq, Repr, Inhabited

/-- The Lupin recorder. FROZEN, UNSAVED, LAST_SLOT, COUNT and NEXT are in the registers. -/
structure Lup where
  /-- Records by slot, SEQ mod 4096. -/
  buf : Tbl (Option LupRec) := {}
  /-- Submitted records, oldest first (128 entries). -/
  queue : List LupRec := []
  /-- Holding queue of a boot with an unsaved buffer (256 entries, R547). -/
  hold : List LupRec := []
  /-- New records go to the holding queue. -/
  holding : Bool := false
  /-- Dump area of the flash, slots 0 to 3. -/
  dump : Tbl (Option DumpSlot) := {}
  /-- A save is under way, into this slot. -/
  saving : Option Nat := none
  deriving DecidableEq, Repr, Inhabited

/-- One unit of an injector's target (R550). -/
inductive InjUnit where
  | frame (b : List Byte) | packet (p : LongPacket) | canRx (m : CanMsg) | canTx (f : CanFrame) | job (j : TunJob)
  deriving DecidableEq, Repr, Inhabited

/-- Running state of one injector (R550, R551). -/
structure Inj where
  /-- Units still to be affected, and unaffected units still to pass before the next. -/
  left : Nat := 0
  gap : Nat := 0
  /-- It has begun to fire, and has affected a unit. -/
  firing : Bool := false
  hit : Bool := false
  /-- Units held by a reorder, newest first, and their target: LINK and INST. -/
  held : List InjUnit := []
  link : Nat := 0
  inst : Nat := 0
  /-- It was disarmed while it held units: they are released at once. -/
  cut : Bool := false
  deriving DecidableEq, Repr, Inhabited

/-- The fault collector and the safe-state controller beyond their registers. -/
structure Fcl where
  /-- Korlet is in the safe state. -/
  safe : Bool := false
  /-- CORE cycle of the latch (R538). -/
  safeAt : Nat := 0
  /-- The D02 copy of FCL_SAFE (R539). -/
  safeD02 : Nat := 0
  /-- The safe state was entered with SYS stopped and the record is still owed (R539). -/
  lateDue : Bool := false
  /-- SYS cycle of the first-fault record's raise (R535). -/
  ffCycle : Nat := 0
  /-- Clock domains whose monitor fails (R25). -/
  clkFail : List Nat := []
  /-- Supplies out of their window (R641). -/
  supplyOut : List Nat := []
  /-- FAULT_N pin is high (R541). -/
  faultN : Bool := false
  fij : Tbl Inj := {}
  deriving DecidableEq, Repr, Inhabited

/-! Boot and security (R565 to R598). -/

/-- A stream's or layer's show rule of the profile (R576, R579). -/
structure ShowRule where
  port : Nat := 0
  layer : Nat := 0
  settle : Nat := 0
  maxFr : Nat := 0
  deriving DecidableEq, Repr, Inhabited

/-- Script of one port (R577): the entries still to run, and whether the present one has failed once. -/
structure Script where
  entries : List (List Byte) := []
  failed : Bool := false
  /-- The script has failed or was cut: the port is not started. -/
  stopped : Bool := false
  deriving DecidableEq, Repr, Inhabited

/-- Power and boot states, OTP, and the SEC domain beyond its registers. -/
structure Sec where
  /-- PWR_EN is driven high; PWR_GOOD is high; a standby request waits for a Lupin save (R566). -/
  pwrEn : Bool := false
  pwrGood : Bool := false
  standby : Bool := false
  /-- The derivation of the identity has been tried in this boot (R585). -/
  idDone : Bool := false
  /-- Straps (R567). -/
  bootMode : Nat := 0
  smbAddr : Nat := 0
  gwPre : Bool := false
  /-- This boot follows WRST_N. -/
  warm : Bool := false
  /-- Boot count in flash, and whether this boot has counted itself (R573). -/
  count : Nat := 0
  counted : Bool := false
  /-- Images in staging memory by type, with their copy (false A), and the copies tried (R572). -/
  staged : Tbl (Option (Bool × List Byte)) := {}
  tried : List (Nat × Bool) := []
  /-- Envelopes in force: firmware 1, profile 2, token 4, certificate 5 (R586, R589). -/
  env : Tbl (List Byte) := {}
  /-- Primrose: layers' show rules, scripts, ports and rasters that the profile starts, and products whose definition is still due. -/
  shows : List ShowRule := []
  scripts : Tbl (Option Script) := {}
  startPorts : List Nat := []
  startRas : List Nat := []
  due : Bool := false
  /-- HANDOVER was written before stage 0x08 or 0x0A (R581). -/
  handover : Bool := false
  /-- Security operation that runs (R595). -/
  op : Nat := 0
  /-- SEC_BUF. -/
  buf : List Byte := []
  /-- Core voltage last recorded in OTP (R610). -/
  vcore : Option Nat := none
  /-- OTP: hashes of the key slots that were added, counters (R582 to R584). -/
  slots : Tbl (List Byte) := {}
  revoked : Nat := 0
  arb : Tbl Nat := {}
  deriving DecidableEq, Repr, Inhabited

/-! Energy governor and performance monitor (R599 to R616). -/

/-- An EGV_BUDGET command that waits for the grant step (R616). -/
structure BudgetCmd where
  ring : Nat := 0
  idx : Nat := 0
  bytes : List Byte := []
  deriving DecidableEq, Repr, Inhabited

/-- The governor beyond its registers. -/
structure Egv where
  /-- Budget of the last EGV_BUDGET command in force. -/
  cmd : Option Nat := none
  /-- Commands that wait for the next grant step. -/
  wait : List BudgetCmd := []
  /-- Successive short and slack lines (R605). -/
  up : Nat := 0
  down : Nat := 0
  /-- Tiles that waited for tokens at the last grant, by emission number (R605). -/
  waits : List Nat := []
  /-- Successive lines with a negative reserved balance, per bloom (R606). -/
  debt : Tbl Nat := {}
  /-- Clock code to which a bloom's clock is being changed (R607). -/
  clk : Tbl (Option Nat) := {}
  /-- Rasters at whose last frame boundary the level was 3 or more (R605). -/
  drop : List Nat := []
  /-- Live conditions that no register holds: a die sensor above its limit (R609), adaptive voltage at its limit (R610). -/
  hot : Bool := false
  avsLimit : Bool := false
  deriving DecidableEq, Repr, Inhabited

/-- The performance monitor beyond its registers. -/
structure Pmu where
  cyc : Nat := 0
  /-- Counters that wrapped and whose COUNTER_OVERFLOW is still to act (R611). -/
  ovf : List Nat := []
  /-- Passes still to go before the next selection, and samples taken (R615). -/
  left : Option Nat := none
  seq : Nat := 0
  samples : List (List Byte) := []
  deriving DecidableEq, Repr, Inhabited

/-! What Korlet sends outside. -/

/-- One thing that has left Korlet: it is kept in the order of leaving and nothing in Korlet reads it back. -/
inductive Out where
  /-- Tunnelled GPIO line `idx` on the uplink of port `p` takes a level (R72, R123). -/
  | trigger (p idx : Nat) (level : Bool)
  /-- FSYNC of CSI-2 port `n` takes a level (R72, R123). -/
  | fsync (n : Nat) (level : Bool)
  /-- Sync word on SYNC_OUT (R50). -/
  | syncWord (w : Nat)
  /-- Payload of an active row sent by display port `p`, with DSE end-to-end protection or without (R426 to R428). -/
  | row (p frame row : Nat) (data : List Byte) (e2e : Bool)
  /-- Block on transmit lane `k`: the header symbol and the 128 payload symbols as level indices 0 to 3, two bits each, first symbol
  lowest (R315, R324). -/
  | block (k header payload : Nat)
  /-- CAN frame on channel `c` (R484). -/
  | can (c : Nat) (f : CanFrame)
  /-- Bytes that SMB[0] returns in the read phase of one message, count byte first where the code has one, without PEC (R510, R511). -/
  | smb (data : List Byte)
  deriving DecidableEq, Repr

/-! The whole machine. -/

/-- The machine. -/
structure State where
  /-- Commands that wait, first in, first out. -/
  pending : List Instr := []
  /-- The model's own count of free values drawn from `Config.freeWord`. -/
  freeIdx : Nat := 0
  /-- The register file: what each register instance holds where it differs from its reset value (R7). -/
  regs : Tbl (Option Word) := {}
  cfg : Cfg := {}
  ras : Tbl Raster := {}
  strm : Tbl Stream := {}
  time : Time := {}
  ports : Tbl Port := {}
  pool : Pool := {}
  seals : Seal := {}
  blm : Tbl Bloom := {}
  tf : Tf := {}
  prd : Prd := {}
  gwp : GwPhy := {}
  gwl : Gwl := {}
  hqe : Hqe := {}
  smb : Smb := {}
  lup : Lup := {}
  fcl : Fcl := {}
  disp : Tbl Disp := {}
  mgd : Mgd := {}
  vbr : Vbr := {}
  sec : Sec := {}
  fst : Fst := {}
  egv : Egv := {}
  pmu : Pmu := {}
  /-- High words latched by reads of their low words (R90, R95, R627). -/
  hiLatch : Tbl Nat := {}
  out : List Out := []
  deriving DecidableEq, Repr

/-- The machine after PORST_N, in standby until PWR_GOOD rises (R7, R567, R645). -/
def State.reset : State := {}

end Sys2Proof.Machine
end

