-- ==== Sys2Proof/Machine/Ops.lean ====
section
/-!
DEFINITION. Machine/Ops.lean: the named operations over the register file, over positions and time, over the free values and
over the subsystems' state. Every meaning is written with them.
-/
namespace Sys2Proof.Machine

/-- Number of a register instance in the register table: no two instances share one. Every index of the map is below 4,096. -/
def RegKind.key (k : RegKind) (i j : Nat) : Nat := (k.ctorIdx * 4096 + i % 4096) * 4096 + j % 4096

/-- Stored value of a register instance: its reset value where nothing has changed it (R7). -/
def State.rd (s : State) (k : RegKind) (i : Nat := 0) (j : Nat := 0) : Nat :=
  match s.regs.get (k.key i j) with
  | some w => w.toNat
  | none => (k.resetVal i).toNat

/-- Store a whole register instance. -/
def State.wr (s : State) (k : RegKind) (v : Nat) (i : Nat := 0) (j : Nat := 0) : State :=
  let w := BitVec.ofNat 32 v
  { s with regs := s.regs.set (k.key i j) (if w = k.resetVal i then none else some w) }

/-- Value of a field. -/
def State.fld (s : State) (f : Fld) (i : Nat := 0) (j : Nat := 0) : Nat := bits (s.rd f.reg i j) f.hi f.lo

/-- Store a field; the other bits of its register stay. -/
def State.setFld (s : State) (f : Fld) (v : Nat) (i : Nat := 0) (j : Nat := 0) : State :=
  s.wr f.reg (putBits (s.rd f.reg i j) f.hi f.lo v) i j

/-- A one-bit field as a Bool. -/
def State.flag (s : State) (f : Fld) (i : Nat := 0) (j : Nat := 0) : Bool := s.fld f i j == 1

/-- Set a one-bit field. -/
def State.setFlag (s : State) (f : Fld) (b : Bool := true) (i : Nat := 0) (j : Nat := 0) : State :=
  s.setFld f (b2n b) i j

/-- Largest value of a field. -/
def Fld.max (f : Fld) : Nat := 2 ^ (f.hi + 1 - f.lo) - 1

/-- Add to a counter field, which saturates. -/
def State.addTo (s : State) (f : Fld) (n : Nat) (i : Nat := 0) (j : Nat := 0) : State :=
  s.setFld f (satAdd f.max (s.fld f i j) n) i j

/-- Count one event in a counter field, which saturates. -/
def State.count (s : State) (f : Fld) (i : Nat := 0) (j : Nat := 0) : State := s.addTo f 1 i j

/-- Field value as two's complement. -/
def State.sfld (s : State) (f : Fld) (i : Nat := 0) (j : Nat := 0) : Int := signed (f.hi + 1 - f.lo) (s.fld f i j)

/-! Generations (R39, R40). -/

/-- A frame count is at or after another one, modulo 2^32 (R63). -/
def frameGe (a b : Nat) : Bool := (a + 2 ^ 32 - b % 2 ^ 32) % 2 ^ 32 < 2 ^ 31

/-- A frame count lies strictly after another one (R63). -/
def frameGt (a b : Nat) : Bool := frameGe a b && a % 2 ^ 32 != b % 2 ^ 32

/-- The register file as frame `f` of raster `n` sees it (R39): a frame that began before the last switch of the raster's group keeps what
that switch replaced. -/
def State.asOf (s : State) (n f : Nat) : State :=
  match s.cfg.since.get n with
  | some b => if frameGt b f then (s.cfg.old.get n).foldl (fun s w => s.wr w.reg.kind w.val w.reg.i w.reg.j) s else s
  | none => s

/-- Value of a field for frame `f` of raster `n` (R39). -/
def State.fldFor (s : State) (n f : Nat) (d : Fld) (i : Nat := 0) (j : Nat := 0) : Nat := (s.asOf n f).fld d i j

/-! Subsystem updates: each changes one component of the state and nothing else. -/

def State.modCfg (f : Cfg → Cfg) (s : State) : State := { s with cfg := f s.cfg }
def State.modRas (n : Nat) (f : Raster → Raster) (s : State) : State := { s with ras := s.ras.upd n f }
def State.modStrm (n : Nat) (f : Stream → Stream) (s : State) : State := { s with strm := s.strm.upd n f }
def State.modTime (f : Time → Time) (s : State) : State := { s with time := f s.time }
def State.modGwl (f : Gwl → Gwl) (s : State) : State := { s with gwl := f s.gwl }
def State.modHqe (f : Hqe → Hqe) (s : State) : State := { s with hqe := f s.hqe }
def State.modLup (f : Lup → Lup) (s : State) : State := { s with lup := f s.lup }
def State.modDisp (n : Nat) (f : Disp → Disp) (s : State) : State := { s with disp := s.disp.upd n f }
def State.modMgd (f : Mgd → Mgd) (s : State) : State := { s with mgd := f s.mgd }
def State.modVbr (f : Vbr → Vbr) (s : State) : State := { s with vbr := f s.vbr }
def State.modSec (f : Sec → Sec) (s : State) : State := { s with sec := f s.sec }
def State.modFst (f : Fst → Fst) (s : State) : State := { s with fst := f s.fst }
def State.modEgv (f : Egv → Egv) (s : State) : State := { s with egv := f s.egv }
def State.modPmu (f : Pmu → Pmu) (s : State) : State := { s with pmu := f s.pmu }
def State.modFcl (f : Fcl → Fcl) (s : State) : State := { s with fcl := f s.fcl }

/-- One ring context, by global index (R382). -/
def State.ring (s : State) (g : Nat) : Ring := s.hqe.rings.get g

/-- Change one ring context. -/
def State.modRing (g : Nat) (f : Ring → Ring) (s : State) : State :=
  s.modHqe (fun h => { h with rings := h.rings.upd g f })

/-- One ring domain. -/
def State.dom (s : State) (d : Nat) : Dom := s.hqe.doms.get d

/-- Change one ring domain. -/
def State.modDom (d : Nat) (f : Dom → Dom) (s : State) : State :=
  s.modHqe (fun h => { h with doms := h.doms.upd d f })

/-- Something leaves Korlet. -/
def State.emit (s : State) (o : Out) : State := { s with out := s.out ++ [o] }

/-- The next free value: nothing constrains it. FREE VALUE. -/
def State.free (s : State) : Nat := (Config.freeWord s.freeIdx).toNat

/-- Advance to the next free value. -/
def State.draw (s : State) : State := { s with freeIdx := s.freeIdx + 1 }

/-- Run an update for each element of a list. -/
def State.each {α : Type} (s : State) (l : List α) (f : α → State → State) : State := l.foldl (fun s a => f a s) s

/-- Run an update when a condition holds. -/
def State.when (s : State) (c : Bool) (f : State → State) : State := if c then f s else s

/-! The performance monitor counts (R611, R613). -/

/-- Counter `i` counts event `ev` at instance `inst` with the service class given (R611). -/
def State.pmuMatch (s : State) (i ev inst : Nat) (cls : Option Nat) : Bool :=
  let mask := s.fld F.PMU_CFG.CLASS_MASK i
  s.flag F.PMU_CFG.EN i && s.fld F.PMU_CFG.EVENT i == ev
    && (match s.fld F.PMU_CFG.INST_MODE i with
        | 0 => true
        | 1 => s.fld F.PMU_CFG.INST i == inst
        | _ => s.fld F.PMU_CFG.INST i % 8 == inst / 32)
    && (mask == 0 || (match cls with
        | some c => bit mask c
        | none => true))

/-- An event occurs `n` times: every counter that selects it adds `n`, modulo 2^48; COUNTER_OVERFLOW lets a wrap act. Nothing counts
while the counters are frozen (R612). -/
def State.pmuAdd (s : State) (ev inst : Nat) (n : Nat := 1) (cls : Option Nat := none) : State :=
  if s.flag F.PMU_CTRL.FREEZE then s
  else s.each (List.range 8) (fun i s =>
    if s.pmuMatch i ev inst cls then
      let v := s.fld F.PMU_CTR_HI.COUNT i * 2 ^ 32 + s.fld F.PMU_CTR_LO.COUNT i + n
      let s := (s.setFld F.PMU_CTR_LO.COUNT (v % 2 ^ 32) i).setFld F.PMU_CTR_HI.COUNT (v / 2 ^ 32 % 2 ^ 16) i
      if v < 2 ^ 48 then s else s.modPmu (fun p => { p with ovf := if p.ovf.any (· == i) then p.ovf else p.ovf ++ [i] })
    else s)

/-! Rasters, positions and time (R60 to R69). -/

/-- The master raster (R62). -/
def State.master (s : State) : Nat := s.fld F.RAS_MASTER.MASTER

/-- Programmed line period of a raster in 2^-32 CORE cycles: INT and FRAC (R60). -/
def State.period (s : State) (n : Nat) : Nat :=
  s.fld F.RAS_PERIOD.INT n * 2 ^ 32 + s.fld F.RAS_PERIOD_FRAC.FRAC n

/-- Korlet follows another device's sync words on raster `n` (R68). -/
def State.follows (s : State) (n : Nat) : Bool :=
  n == s.master && s.flag F.CFG_SYNC_CTRL.EN && 2 ≤ s.fld F.CFG_SYNC_CTRL.ROLE

/-- Effective line period Peff of a raster in 2^-32 CORE cycles (R60): the trim shortens it. No alignment slew acts on the master raster of
a follower (R68). -/
def State.peff (s : State) (n : Nat) : Nat :=
  let slew := if s.follows n then 0 else (s.ras.get n).slew
  ((s.period n : Int) * ((2 ^ 64 : Nat) - (s.time.trim + slew)) / (2 ^ 64 : Nat)).toNat

/-- Lines of a raster (R60). -/
def State.lines (s : State) (n : Nat) : Nat := s.fld F.RAS_PERIOD.LINES n

/-- Lines of frame `f` of a raster (R39). -/
def State.linesFor (s : State) (n f : Nat) : Nat := s.fldFor n f F.RAS_PERIOD.LINES n

/-- Length of the present line in 2^-32 CORE cycles: one line period, changed in a jump frame (R67). -/
def State.lineLen (s : State) (n : Nat) : Nat :=
  let r := s.ras.get n
  if r.jumping ∧ r.line = r.jumpAt then ((s.peff n : Int) + r.jumpCyc).toNat else s.peff n

/-- Eight-bit fraction of the line (R60). DESIGN CHOICE (log entry 78): in a last line that a jump has made longer than Peff the formula
passes 255, for which the manual gives no value; the fraction stays at 255. -/
def State.frac (s : State) (n : Nat) : Nat :=
  let p := s.peff n
  if p = 0 then 0 else min 255 (256 * (s.ras.get n).acc / p)

/-- TOD of a position (R69): the frame boundary's TOD plus the lines passed at that frame's Peff; all ones for a frame older than
the 256 recorded. DEDUCED: a raster that has never started reports the TOD counter. -/
def State.todAt (s : State) (n frame line frac : Nat) : Nat :=
  match (s.ras.get n).hist with
  | [] => s.time.tod
  | h => match h.find? (fun b => b.frame == frame) with
    | some b => b.tod + (line * 256 + frac) * b.peff * 10 / (256 * 2 ^ 32 * 12)
    | none => 2 ^ 64 - 1

/-- Present position of a raster as reports carry it (R69). -/
def State.pos (s : State) (n : Nat) : Pos :=
  let r := s.ras.get n
  let f := s.frac n
  { raster := n, frame := r.frame, line := r.line, frac := f, tod := s.todAt n r.frame r.line f }

/-- Raster `n` has reached position `p`, in 1/256 line from the boundary of frame `f` (R70, R71, R427): a position at or beyond the end
of the frame lies in a later one, a negative one in an earlier one. -/
def State.reached (s : State) (n f : Nat) (p : Int) : Bool :=
  let r := s.ras.get n
  let per : Nat := 256 * max 1 (if p < 0 then s.lines n else s.linesFor n f)
  let at_ := (((f : Int) + p / (per : Int)) % (2 ^ 32 : Nat)).toNat
  frameGt r.frame at_ || (r.frame % 2 ^ 32 == at_ && decide (p % (per : Int) ≤ (r.line * 256 + s.frac n : Nat)))

/-- Present position of the master raster. -/
def State.now (s : State) : Pos := s.pos s.master

/-- SYS cycle number of the present instant (500 MHz beside CORE's 1.2 GHz, R23). -/
def State.sysCycle (s : State) : Nat := s.time.now * 5 / 12

/-! Board alert of SMB[0] (R517). -/

/-- An alert cause sets (R517): SMB_ALERT_N is asserted when the cause was not pending and its mask bit is set (R518). Cause 0,
the safe state, asserts it whatever the mask. -/
def State.alert (s : State) (cause : Nat) : State :=
  let was := bit (s.rd .SMB0_ALERT) cause
  let s := s.wr .SMB0_ALERT (s.rd .SMB0_ALERT ||| (1 <<< cause))
  if cause = 0 ∨ (¬ was ∧ bit (s.fld F.SMB0_CTRL.ALERT_MASK) cause) then s.setFlag F.SMB0_STAT.ALERT else s

/-! Bloom clocks (R607). -/

/-- Clock code of a working bloom (R607, R643): NOM_CODE, or the highest step from 48 up whose voltage the LDO gives. -/
def State.nomCode (s : State) (b : Nat) : Nat :=
  let nom := s.fld F.EGV_CLK.NOM_CODE
  let off := s.fld F.EGV_AVS.VCORE_MV - s.fld F.EGV_AVS.VINIT_MV
  if nom ≤ 48 then nom
  else (((List.range (nom - 48)).reverse.map (· + 49)).find? (fun c => decide ((Config.bloomMv b c).toNat + off ≤ 810))).getD 48

/-- A bloom's clock begins to change (R607). -/
def State.startClock (b code : Nat) (s : State) : State :=
  if s.fld F.EGV_BLOOM.CLK_CODE b = code then s.modEgv (fun e => { e with clk := e.clk.set b none })
  else if s.egv.clk.get b = some code then s
  else (s.modEgv (fun e => { e with clk := e.clk.set b (some code) })).pmuAdd 0x14A b

/-! Geward transactions. -/

/-- Queue a transaction for the link's transmitter (R361). -/
def State.txPush (s : State) (t : Txn) : State := s.modGwl (fun g => { g with txq := g.txq ++ [t] })

/-- The doorbell queue is full (R389). -/
def State.dbFull (s : State) : Bool := 1024 ≤ s.hqe.dbq.length

/-- Korlet returns credits of a class to the host (R359, R360); posted credits wait while the doorbell queue is full (R389). -/
def State.giveCredit (cls hdr data : Nat) (s : State) : State :=
  if cls = 0 ∧ s.dbFull then s.modHqe (fun h => { h with credHdr := h.credHdr + hdr, credData := h.credData + data })
  else s.modGwl (fun g => { g with
    grant := g.grant.upd cls (fun c => { c with hdr := c.hdr + hdr, data := c.data + data })
    crdDue := true })

/-- Posted credits that the full doorbell queue held are returned (R389). -/
def State.freeCredits (s : State) : State :=
  if s.dbFull ∨ s.hqe.credHdr = 0 then s
  else (s.modHqe (fun h => { h with credHdr := 0, credData := 0 })).giveCredit 0 s.hqe.credHdr s.hqe.credData

/-- The extent lies within one enabled window of the domain that allows the access (R408). -/
def State.inWindow (s : State) (d addr len : Nat) (write : Bool) : Bool :=
  (s.dom d).wins.any (fun w => w.pages != 0 && (if write then w.wr else w.rd) && w.base ≤ addr
    && addr + len ≤ w.base + w.pages * 4096)

end Sys2Proof.Machine
end

