-- ==== Sys2Proof/Machine/Cost.lean ====
section
/-!
DEFINITION. Machine/Cost.lean: which lines and columns each pass of a chain covers, its time and its tokens (R188, R228, R231, R600,
R603).
-/
namespace Sys2Proof.Machine

/-- Input columns (first, last) of branch `br` that output columns `x0` to `x1` of an operation reach, for output lines `y0` to `y1` (R228,
R245). -/
def opSpanX (d : OpDesc) (area : List Byte) (br : Nat) (x0 x1 y0 y1 : Int) : Int × Int :=
  match opCode d with
  | 0x01 => (x0 + dfld d 4 15 0, x1 + dfld d 4 15 0)
  | 0x03 | 0x06 => (x0 - 2, x1 + 2)
  | 0x09 => let xs := rangeOf ((meshBox d area x0 x1 y0 y1).map (·.1 / 256))
            (xs.1 - 1, xs.2 + 2)
  | 0x0A =>
    let x := fun (n : Int) => (signed 32 (leAt d 12 4) + n * (dfld d 4 23 0 : Int)) / 1048576
    (x x0 - 3, x x1 + 4)
  | 0x0B => if dfld d 4 6 5 = 1 then (x0 - 1, x1 + 1) else (x0, x1)
  | 0x0C => (x0 - (mergeAt d br).1, x1 - (mergeAt d br).1)
  | 0x10 => (x0 - 1, x1 + 1)
  | _ => (x0, x1)

/-- A rectangle of an image: first and last line, first and last column; empty when a last one lies before its first. -/
structure Rect where
  y0 : Int := 0
  y1 : Int := -1
  x0 : Int := 0
  x1 : Int := -1
  deriving DecidableEq, Repr, Inhabited

def Rect.isEmpty (r : Rect) : Bool := decide (r.y1 < r.y0) || decide (r.x1 < r.x0)

/-- Lines that output lines `y0` to `y1` and columns `x0` to `x1` of an operation reach: of a mesh, the box of the nodes that a slow tile
touches (R245). -/
def opSpanY (d : OpDesc) (area : List Byte) (fast : Bool) (br : Nat) (r : Rect) : Int × Int :=
  if opCode d = 0x09 ∧ ¬ fast then
    let ys := rangeOf ((meshBox d area r.x0 r.x1 r.y0 r.y1).map (·.2 / 256))
    (ys.1 - 1, ys.2 + 2)
  else opSpan d area fast br r.y0 r.y1

/-- Input rectangle of an operation for an output rectangle, on branch `br` (R188). -/
def opRect (d : OpDesc) (area : List Byte) (fast : Bool) (br : Nat) (r : Rect) : Rect :=
  if r.isEmpty then r
  else
    let y := opSpanY d area fast br r
    let x := opSpanX d area br r.x0 r.x1 r.y0 r.y1
    { y0 := y.1, y1 := y.2, x0 := x.1, x1 := x.2 }

/-- A rectangle brought into an image of `w` × `h`: what lies outside falls on the edge. -/
def Rect.clip (r : Rect) (w h : Nat) : Rect :=
  if r.isEmpty then r
  else { y0 := clampI 0 ((h : Int) - 1) r.y0, y1 := clampI 0 ((h : Int) - 1) r.y1
         x0 := clampI 0 ((w : Int) - 1) r.x0, x1 := clampI 0 ((w : Int) - 1) r.x1 }

/-- The part of a rectangle that lies on an image of `w` × `h` (R250). -/
def Rect.meet (r : Rect) (w h : Nat) : Rect :=
  { y0 := max 0 r.y0, y1 := min ((h : Int) - 1) r.y1, x0 := max 0 r.x0, x1 := min ((w : Int) - 1) r.x1 }

def Rect.height (r : Rect) : Nat := if r.isEmpty then 0 else (r.y1 - r.y0 + 1).toNat
def Rect.width (r : Rect) : Nat := if r.isEmpty then 0 else (r.x1 - r.x0 + 1).toNat

/-- Branch that holds position `k`; none for the trunk. -/
def branchOf (pdb : List Byte) (k : Nat) : Option Nat :=
  (List.range (pdbNbr pdb)).find? (fun i => (pdbBranch pdb i).any (· == k))

/-- Back through a run of positions, on branch `br`. -/
def rectBack (pdb area : List Byte) (br : Nat) (pos : List Nat) (r : Rect) : Rect :=
  pos.reverse.foldl (fun r j => opRect (pdbOp pdb j) area (pdbFast pdb) br r) r

/-- The part of the output of branch `i` that an output rectangle needs: what MERGE places lies on the branch's own image (R250). -/
def joinRect (pdb area : List Byte) (src : Nat → Img) (i : Nat) (r : Rect) : Rect :=
  let t := rectBack pdb area i (pdbTrunkPos pdb) r
  if pdbNbr pdb = 1 then t
  else
    let g := runBranch pdb [] false (fun _ _ => none) (pdbBranch pdb i) (src i)
    t.meet g.w g.h

/-- The part of position `k`'s output that an output rectangle needs. -/
def stageRect (pdb area : List Byte) (src : Nat → Img) (k : Nat) (r : Rect) : Rect :=
  match branchOf pdb k with
  | some i => rectBack pdb area i ((pdbBranch pdb i).filter (k < ·)) (joinRect pdb area src i r)
  | none => rectBack pdb area 0 ((pdbTrunkPos pdb).filter (k < ·)) r

/-- The part of branch `i`'s source that an output rectangle needs (R188). -/
def srcRect (pdb area : List Byte) (src : Nat → Img) (i : Nat) (r : Rect) : Rect :=
  (rectBack pdb area i (pdbBranch pdb i) (joinRect pdb area src i r)).clip (src i).w (src i).h

/-- Output rectangle of a tile (R187). -/
def tileRect (pdb : List Byte) (r c : Nat) : Rect :=
  let w := pdbOutW pdb
  let h := pdbOutH pdb
  if pdbFast pdb then { y0 := r, y1 := r, x0 := 0, x1 := (w : Int) - 1 }
  else { y0 := r * pdbTh pdb, y1 := (min h ((r + 1) * pdbTh pdb) : Nat) - 1
         x0 := c * pdbTw pdb, x1 := (min w ((c + 1) * pdbTw pdb) : Nat) - 1 }

/-- The output image of position `k`. -/
def stageImg (pdb area : List Byte) (lean : Bool) (src : Nat → Img) (k : Nat) : Img :=
  match (List.range (pdbNbr pdb)).find? (fun i => (pdbBranch pdb i).any (· == k)) with
  | some i => runBranch pdb area lean (fun _ _ => none) ((pdbBranch pdb i).filter (· ≤ k)) (src i)
  | none => chainImg pdb area lean (fun _ _ => none) src (k + 1)

/-- Put an interval `[a, b)` into a list of disjoint intervals in rising order: those that it meets become one with it. -/
def joinRange (u : Nat × Nat) (l : List (Nat × Nat)) : List (Nat × Nat) :=
  let near := l.filter (fun v => decide (v.1 ≤ u.2) && decide (u.1 ≤ v.2))
  let one := near.foldl (fun a v => (min a.1 v.1, max a.2 v.2)) u
  l.filter (fun v => decide (v.2 < u.1)) ++ [one] ++ l.filter (fun v => decide (u.2 < v.1))

/-- The union of intervals. -/
def joinRanges (l : List (Nat × Nat)) : List (Nat × Nat) := l.foldl (fun a u => if u.1 < u.2 then joinRange u a else a) []

/-- What disjoint intervals in rising order leave of `[lo, hi)`. -/
def gaps : Nat → Nat → List (Nat × Nat) → List (Nat × Nat)
  | lo, hi, [] => if lo < hi then [(lo, hi)] else []
  | lo, hi, u :: r => (if lo < min hi u.1 then [(lo, min hi u.1)] else []) ++ gaps (max lo u.2) hi r

/-- Length of a list of disjoint intervals. -/
def rangesLen (l : List (Nat × Nat)) : Nat := l.foldl (fun n u => n + (u.2 - u.1)) 0

/-- Pixels of the union of rectangles (R263). -/
def unionArea (rs : List Rect) : Nat :=
  let rs := rs.filter (fun r => !r.isEmpty)
  let y := (rangeOf (rs.map (·.y0))).1
  (List.range ((rangeOf (rs.map (·.y1))).2 + 1 - y).toNat).foldl (fun n (k : Nat) =>
    n + rangesLen (joinRanges ((rs.filter (fun r => decide (r.y0 ≤ y + k) && decide (y + k ≤ r.y1))).map
      (fun r => (r.x0.toNat, r.x1.toNat + 1))))) 0

/-- Bytes of a tile's footprint over the sources of some branches (R187, R263); `px` gives the bytes of a source pixel. -/
def footArea (pdb area : List Byte) (src : Nat → Img) (brs : List Nat) (px : Nat → Nat) (r : Rect) : Nat :=
  if r.isEmpty then 0
  else (brs.map (pdbBrStream pdb)).eraseDups.foldl (fun n st =>
    let mine := brs.filter (fun i => pdbBrStream pdb i == st)
    n + px (mine.headD 0) * unionArea (mine.map (fun i => srcRect pdb area src i r))) 0

/-- One pass of a tile: position, operation, variant, lines covered and samples per line (R231: exposures count as samples). -/
structure Pass where
  pos : Nat := 0
  code : Nat := 0
  lean : Bool := false
  lines : Nat := 0
  width : Nat := 0
  deriving DecidableEq, Repr, Inhabited

/-- BLOOM cycles of a pass: each line segment takes ⌈N ÷ rate⌉ + 16; TAG takes none (R231). -/
def Pass.cycles (p : Pass) : Nat :=
  let r := opRate p.code p.lean
  if r = 0 then 0 else p.lines * (ceilDiv p.width r + 16)

/-- Chroma lines among lines `y0` to `y1` of the output of position `k`: segments of their own (R231, R255). DESIGN CHOICE (log 79): such a
segment has as many pixels as a luma line. -/
def chromaLines (pdb : List Byte) (k : Nat) (y0 y1 : Int) : Nat :=
  let d := pdbOp pdb k
  if opCode d = 0x0E ∧ packPlanar d then ((y1 + 1) / 2 - y0 / 2).toNat else 0

/-- Passes of a slow tile, or of the first strip of a fast product: every line of each stage's footprint (R231). -/
def slowPasses (pdb area : List Byte) (lean : Bool) (src : Nat → Img) (r : Rect) : List Pass :=
  (List.range (pdbNops pdb)).map (fun k =>
    let i := stageImg pdb area lean src k
    let q := (stageRect pdb area src k r).clip i.w i.h
    { pos := k, code := opCode (pdbOp pdb k), lean := opLean (pdbOp pdb k) lean
      lines := q.height + (if q.isEmpty then 0 else chromaLines pdb k q.y0 q.y1), width := q.width * i.e })

/-- Lines of position `k` that fast strip `n` computes: those that its footprint adds beyond the carry lines (R188, R231). -/
def stripLines (pdb area : List Byte) (src : Nat → Img) (k h n : Nat) : Int × Int :=
  let q := fun (n : Nat) => (stageRect pdb area src k (tileRect pdb n 0)).clip ((pdbOutW pdb).max 1) h
  let here := q n
  if here.isEmpty then (0, -1)
  else if n = 0 ∨ (q (n - 1)).isEmpty then (here.y0, here.y1)
  else (max here.y0 ((q (n - 1)).y1 + 1), here.y1)

/-- Passes of fast strip `n`: the lines that it adds, over the full width of the stage (R231). -/
def fastPasses (pdb area : List Byte) (lean : Bool) (src : Nat → Img) (n : Nat) : List Pass :=
  (List.range (pdbNops pdb)).map (fun k =>
    let i := stageImg pdb area lean src k
    let q := stripLines pdb area src k i.h n
    let w := if i.fmt = .packed then pdbOutW pdb else i.w * i.e
    { pos := k, code := opCode (pdbOp pdb k), lean := opLean (pdbOp pdb k) lean
      lines := (q.2 + 1 - q.1).toNat + (if q.2 < q.1 then 0 else chromaLines pdb k q.1 q.2), width := w })

/-- Positions that follow position `k` on the way to the output. -/
def laterPos (pdb : List Byte) (k : Nat) : List Nat :=
  match branchOf pdb k with
  | some i => (pdbBranch pdb i).filter (k < ·) ++ pdbTrunkPos pdb
  | none => (pdbTrunkPos pdb).filter (k < ·)

/-- The lines that position `k` computes do not depend on a mesh: no WARP follows it (R245, R267). -/
def meshFree (pdb : List Byte) (k : Nat) : Bool := !(laterPos pdb k).any (fun j => opCode (pdbOp pdb j) == 0x09)

/-- The footprint on branch `i` does not depend on a mesh. -/
def branchMeshFree (pdb : List Byte) (i : Nat) : Bool :=
  !(pdbBranch pdb i ++ pdbTrunkPos pdb).any (fun j => opCode (pdbOp pdb j) == 0x09)

/-- Strip cost C in BLOOM cycles (R231). DEDUCED from the example of R207: the first strip, which finds no carry lines, is not
counted. `counts` says which positions are summed. -/
def stripCost (pdb area : List Byte) (src : Nat → Img) (counts : Nat → Bool := fun _ => true) : Nat :=
  (List.range (pdbOutH pdb)).foldl (fun c n =>
    if n = 0 then c
    else max c (((fastPasses pdb area false src n).filter (fun p => counts p.pos)).foldl (fun t p => t + p.cycles) 0)) 0

/-- Carry size in KiB (R188; the manual states no formula): the input lines that each operation holds for its vertical support. -/
def carryKib (pdb area : List Byte) (src : Nat → Img) : Nat :=
  ceilDiv ((List.range (pdbNops pdb)).foldl (fun t k =>
    let s := opSupport (pdbOp pdb k)
    t + (s.1 + s.2) * (chainIn pdb area false src k).lineSize) 0) 1024

/-- Tokens per cost class: TOK[1] to TOK[6] (R603). -/
def State.tok (s : State) (c : Nat) : Nat :=
  match c with
  | 1 => s.fld F.EGV_COST0.TOK1
  | 2 => s.fld F.EGV_COST0.TOK2
  | 3 => s.fld F.EGV_COST0.TOK3
  | 4 => s.fld F.EGV_COST0.TOK4
  | 5 => s.fld F.EGV_COST1.TOK5
  | _ => s.fld F.EGV_COST1.TOK6

/-- Sum of TOK × N over passes. -/
def State.passTokens (s : State) (ps : List Pass) : Nat :=
  ps.foldl (fun t p => t + s.tok (opCostClass p.code p.lean) * (p.lines * p.width)) 0

/-- Tokens of a tile (R603). -/
def State.tileTokens (s : State) (ps : List Pass) : Nat := ceilDiv (s.passTokens ps) 1024

end Sys2Proof.Machine
end

