-- ==== Sys2Proof/Machine/PoolOps.lean ====
section
/-!
DEFINITION. Machine/PoolOps.lean: the line directory and the accounts of the pool's zones (R155 to R163), and what a product
frame holds of it.
-/
namespace Sys2Proof.Machine

def State.modPool (f : Pool → Pool) (s : State) : State := { s with pool := f s.pool }
def State.modSeals (f : Seal → Seal) (s : State) : State := { s with seals := f s.seals }
def State.modPort (p : Nat) (f : Port → Port) (s : State) : State := { s with ports := s.ports.upd p f }
def State.modBlm (b : Nat) (f : Bloom → Bloom) (s : State) : State := { s with blm := s.blm.upd b f }
def State.modTf (f : Tf → Tf) (s : State) : State := { s with tf := f s.tf }
def State.modPrd (f : Prd → Prd) (s : State) : State := { s with prd := f s.prd }

/-- Change one product. -/
def State.modProduct (i : Nat) (f : Product → Product) (s : State) : State :=
  s.modPrd (fun p => { p with tab := p.tab.upd i f })

/-- One product. -/
def State.product (s : State) (i : Nat) : Product := s.prd.tab.get i

/-- Change the frame `f` of product `i`. -/
def State.modPFrame (i f : Nat) (g : PFrame → PFrame) (s : State) : State :=
  s.modProduct i (fun p => { p with frames := p.frames.map (fun q => if q.frame = f then g q else q) })

/-- The frame `f` of product `i`, when it is in production. -/
def State.pframe (s : State) (i f : Nat) : Option PFrame := (s.product i).frames.find? (fun q => q.frame == f)

/-- Resident lines with their directory entry. -/
def State.dirLines (s : State) : List (Nat × PLine) :=
  s.pool.dir.cells.filterMap (fun c => c.2.map (fun l => (c.1, l)))

/-- The line in directory entry `d`. -/
def State.line (s : State) (d : Nat) : Option PLine := s.pool.dir.get d

/-- Change a directory entry. -/
def State.modLine (d : Nat) (f : PLine → PLine) (s : State) : State :=
  s.modPool (fun p => { p with dir := p.dir.upd d (·.map f) })

/-- Remove a directory entry: its granules are free when no other entry refers to them (R157); GRANULE_FREE counts them at the
stream of a raw line. While a substitute shares them (R158) they stay charged to the zone that held them. -/
def State.dropLine (d : Nat) (s : State) : State :=
  let t := s.modPool (fun p => { p with dir := p.dir.set d none })
  match s.line d with
  | some l =>
    let heir := if l.shares || l.fill then none else t.dirLines.find? (fun c => c.2.shares && c.2.grans == l.grans)
    let t := match heir with
      | some c => t.modLine c.1 (fun q => { q with shares := false, zone := l.zone })
      | none => t
    let left := t.dirLines.flatMap (fun c => c.2.grans)
    let freed := (l.grans.filter (fun g => !left.any (· == g))).length
    if l.kind = .raw ∧ freed ≠ 0 then t.pmuAdd 0x086 l.owner freed else t
  | none => t

/-- Directory entry of the line `(kind, owner, frame, line)`. -/
def State.findLine (s : State) (k : LineKind) (owner frame line : Nat) : Option Nat :=
  (s.dirLines.find? (fun c => c.2.kind == k && c.2.owner == owner && c.2.frame == frame && c.2.line == line)).map (·.1)

/-- Some ledger entry waits on the line (R141). -/
def State.inLedger (s : State) (d : Nat) : Bool := s.seals.ledger.any (fun e => e.line == d && !e.output)

/-- Free a directory entry when nobody holds the line any longer (R157). -/
def State.settle (d : Nat) (s : State) : State :=
  match s.line d with
  | some l => if l.published ∧ l.holders = [] ∧ ¬ l.ingHold ∧ ¬ s.inLedger d then s.dropLine d else s
  | none => s

/-- A consumer releases a line (R157). -/
def State.release (d prd : Nat) (s : State) : State :=
  (s.modLine d (fun l => { l with holders := l.holders.filter (· != prd) })).settle d

/-! Streams and their map entries. -/

/-- The enabled map entry `(port, entry)` that names stream `st`: the lowest one (R108). -/
def State.mapOf (s : State) (st : Nat) : Option (Nat × Nat) :=
  (List.range 30).findSome? (fun p => (List.range 8).findSome? (fun e =>
    if s.flag F.ING_MAP.EN p e && s.fld F.ING_MAP.STREAM p e == st then some (p, e) else none))

/-- Samples per pixel and bytes per stored sample of a data type (R106, R107); byte-stored types have none. -/
def dtSamples (dt : Nat) : Nat := match dt with
  | 0x1E => 2
  | 0x24 => 3
  | _ => 1

/-- The data type is stored byte for byte (R106). -/
def dtBytes (dt : Nat) : Bool := dt == 0x12 || (0x30 ≤ dt && dt ≤ 0x37)

/-- Bytes per stored sample of a data type (R106, R107). -/
def dtContainer (dt : Nat) : Nat := match dt with
  | 0x2F | 0x27 => 4
  | _ => if dtBytes dt then 1 else 2

/-- Stored bytes of a line (R107). -/
def storedBytes (dt width exposures : Nat) : Nat := width * exposures * dtSamples dt * dtContainer dt

/-- Stored bytes of a line of stream `st` at the values in force. -/
def State.streamBytes (s : State) (st : Nat) : Nat :=
  match s.mapOf st with
  | some (p, e) => storedBytes (s.fld F.ING_MAP.DT p e) (s.fld F.ING_STRM_SIZE.WIDTH p e) (s.fld F.ING_STRM_FMT.EXPOSURES p e + 1)
  | none => 0

/-- Granules of a line of stream `st` (R155). -/
def State.streamG (s : State) (st : Nat) : Nat := ceilDiv (s.streamBytes st) 1024

/-- Products that are not FREE, in id order. -/
def State.products (s : State) : List Nat := s.prd.tab.keys

/-- State of a product as PRD_STATE codes it: 0 FREE, 1 PENDING, 2 ACTIVE, 3 RETIRING (R269). -/
def State.prdSt (s : State) (i : Nat) : Nat := s.fld F.PRD_STATE.STATE i

/-- Consumers of a stream: defined products with a branch on it (R17). -/
def State.consumers (s : State) (st : Nat) : List Nat :=
  s.products.filter (fun i => s.prdSt i != 0 && (pdbStreams (s.product i).pdb).any (· == st))

/-- Class of a stream: the lowest class number among its consumers, 3 without one (R17). -/
def State.streamClass (s : State) (st : Nat) : Nat :=
  (s.consumers st).foldl (fun c i => min c (pdbClass (s.product i).pdb)) 3

/-- `n` words of the pool were corrected as they were read (R176, R185, R186). -/
def State.poolCorrected (n : Nat) (s : State) : State :=
  if n = 0 then s else (s.addTo F.POOL_ECC_CNT.CORR n).setFlag F.POOL_STAT.ECC_CORR

/-- `n` words of lines of stream `st` were corrected (R176, R613). -/
def State.poolRead (n st : Nat) (s : State) : State := if n = 0 then s else (s.poolCorrected n).pmuAdd 0x088 st n

/-! Zone accounts (R159). -/

/-- Granules that an entry charges to its zone: none when it shares another line's granules or is FILL (R158). -/
def PLine.charge (l : PLine) : Nat := if l.shares || l.fill then 0 else l.grans.length

/-- Granules charged to the reservation of `(kind, owner)`. -/
def State.resvUse (s : State) (k : LineKind) (owner : Nat) : Nat :=
  s.dirLines.foldl (fun n c => if c.2.kind = k ∧ c.2.owner = owner ∧ c.2.zone = .resv then n + c.2.charge else n) 0

/-- Granules charged to the overflow zone by class `c`. -/
def State.ovfUse (s : State) (c : Nat) : Nat :=
  s.dirLines.foldl (fun n e => if e.2.zone = .ovf c then n + e.2.charge else n) 0

/-- Granules of lines of stream `st` charged to the overflow zone. -/
def State.streamOvf (s : State) (st : Nat) : Nat :=
  s.dirLines.foldl (fun n e => if e.2.kind = .raw ∧ e.2.owner = st ∧ e.2.zone ≠ .resv then n + e.2.charge else n) 0

/-- Sum of a field over instances. -/
def State.sumFld (s : State) (f : Fld) (n : Nat) : Nat := (List.range n).foldl (fun t i => t + s.fld f i) 0

/-- Size of the overflow zone (R159). -/
def State.ovfSize (s : State) : Nat :=
  65536 - s.sumFld F.POOL_RESV.GRANULES 64 - s.fld F.POOL_CTRL.PROD_REGION - s.sumFld F.POOL_HOST_RESV.GRANULES 4

/-- Free granules of the overflow zone: its size less what is charged to it and what is quarantined (R165, R176). -/
def State.ovfFree (s : State) : Nat :=
  s.ovfSize - s.ovfUse 0 - s.ovfUse 1 - s.ovfUse 2 - s.ovfUse 3 - s.pool.quarG.length

/-- The image of the source of branch `i` of a definition, at the values in force; the samples are given. -/
def State.srcImgOf (s : State) (pdb : List Byte) (i : Nat) (px : Nat → Int → Int → Nat → Nat) : Img :=
  match s.mapOf (pdbBrStream pdb i) with
  | some (p, e) => srcImg (s.fld F.ING_MAP.DT p e) (s.fld F.ING_STRM_SIZE.WIDTH p e) (s.fld F.ING_STRM_SIZE.HEIGHT p e)
      (s.fld F.ING_STRM_FMT.EXPOSURES p e + 1) (pdbOp pdb (pdbBrFirst pdb i)) px
  | none => noImg

/-- REP_DIST in lines (R131). -/
def repDistOf (code : Nat) : Nat := match code with
  | 0 => 1
  | 1 => 2
  | _ => 4

/-- Lines of the least reservation of stream `st` without any product (R160). -/
def State.baseLines (s : State) (st : Nat) : Nat :=
  if s.flag F.RAS_STRM_CFG.EN st then
    match s.mapOf st with
    | some (p, e) => repDistOf (s.fld F.ING_STRM_FMT.REP_DIST p e) + 2
    | none => 0
  else 0

/-- POOL_RESV_MIN of stream `st` shows `n` lines (R160, R180). -/
def State.showMin (st n : Nat) (s : State) : State :=
  s.wr .POOL_RESV_MIN ((min 65535 n) <<< 16 + min 65535 (n * s.streamG st)) st

/-- 16 KiB granules of the enabled SYS regions (R295). -/
def State.sysTotal (s : State) : Nat :=
  (List.range 64).foldl (fun n r =>
    if s.flag F.FST_RGN.EN r ∧ s.fld F.FST_RGN.KIND r = 2 then n + 128 * s.fld F.FST_RGN.SIZE r else n) 0

/-- Format and size of what a definition's chain produces (R223): no sample of it is read. -/
def State.prdShape (s : State) (pdb : List Byte) : Img :=
  chainImg pdb [] false (fun _ _ => none) (fun i => s.srcImgOf pdb i (fun _ _ _ _ => 0))

/-- Stored bytes of an output line of a definition (R161). -/
def State.prdLineBytes (s : State) (pdb : List Byte) : Nat := (s.prdShape pdb).lineSize

/-- Output lines that a product reserves (R161). -/
def pdbResvLines (b : List Byte) : Nat :=
  if pdbFast b then (if pdbDestKind b = 0 then 4 + pdbHold b else 4)
  else if pdbDestKind b = 0 then 2 * pdbTh b + pdbHold b else 2 * pdbTh b

/-- Directory entries that the reservations and the granted products hold (R159, R161). -/
def State.resvDir (s : State) : Nat :=
  (List.range 64).foldl (fun n st =>
    let g := s.streamG st
    if g = 0 then n else n + s.fld F.POOL_RESV.GRANULES st / g) 0
  + (List.range 4).foldl (fun n p =>
      let ws := (List.range 4).filterMap (fun l =>
        if s.fld F.DEG_LAYER_CFG.SRC p l = 1 ∧ s.flag F.DEG_LAYER_CFG.EN p l then
          some (ceilDiv (4 * s.fld F.DEG_LAYER_SIZE.W p l) 1024) else none)
      match ws with
      | [] => n
      | w :: r => let g := r.foldl min w
                  if g = 0 then n else n + s.fld F.POOL_HOST_RESV.GRANULES p / g) 0
  + s.products.foldl (fun n i => if s.prdSt i = 0 then n else n + pdbResvLines (s.product i).pdb) 0

/-- Directory entries in use outside the reservations: overflow lines, and entries without granules of their own. -/
def State.ovfDir (s : State) : Nat :=
  (s.dirLines.filter (fun c => c.2.zone != .resv || c.2.shares || c.2.fill)).length + s.pool.quarD.length

/-- Free directory entries outside the reservations (R165). -/
def State.dirFree (s : State) : Nat := 16384 - s.resvDir - s.ovfDir

/-- A directory entry that no line and no quarantine occupies: the lowest one. -/
def State.freeEntry (s : State) : Option Nat :=
  let used := s.pool.dir.keys ++ s.pool.quarD
  (List.range (used.length + 1)).find? (fun d => d < 16384 && !used.any (· == d))

/-- Granules that some entry refers to, that a table area holds (R268) or that are quarantined. -/
def State.usedGrans (s : State) : List Nat :=
  s.dirLines.flatMap (fun c => c.2.grans) ++ s.products.flatMap (fun i => (s.product i).areaG) ++ s.pool.quarG

/-- The lowest free granule of a bank (R155; the manual does not say which free granule of a bank is taken). -/
def granInBank (used : List Nat) (bank : Nat) : Option Nat :=
  (List.range 1024).findSome? (fun k => if used.any (· == bank + 64 * k) then none else some (bank + 64 * k))

/-- `g` granules in successive banks from `bank` on, and the bank after the last one (R155). A bank without a free granule is
passed over. -/
def takeGrans : Nat → Nat → Nat → List Nat → Option (List Nat × Nat)
  | 0, _, bank, _ => some ([], bank)
  | _, 0, _, _ => none
  | g + 1, tries + 1, bank, used =>
    match granInBank used bank with
    | none => takeGrans (g + 1) tries ((bank + 1) % 64) used
    | some n => match takeGrans g tries ((bank + 1) % 64) (n :: used) with
      | some (l, b) => some (n :: l, b)
      | none => none

/-- Claim granules for a line of `g` granules beginning at a writer's bank (R155, R164). -/
def State.claim (s : State) (g bank : Nat) : Option (List Nat × Nat) := takeGrans g 128 bank s.usedGrans

/-! What a product frame holds. -/

/-- Drop the lines of a product frame that its output unit has not taken, and the ledger entries of its output lines. -/
def State.dropPFrameLines (i f : Nat) (s : State) : State :=
  let ls := s.dirLines.filter (fun c => c.2.kind == .product && c.2.owner == i && c.2.frame == f)
  let s := s.each (ls.map (·.1)) State.dropLine
  s.modSeals (fun q => { q with ledger := q.ledger.filter (fun e => !(e.output && e.prd == i && e.frame == f)) })

/-- Discard the ledger entries of product `i` on the input line of directory entry `d` (R141). -/
def State.dropEntry (d i : Nat) (s : State) : State :=
  s.modSeals (fun q => { q with ledger := q.ledger.filter (fun e => e.output || e.line != d || e.prd != i) })

/-- Release the source lines that product `i` held for its frame `f`. -/
def State.releaseSources (i f : Nat) (s : State) : State :=
  match s.pframe i f with
  | none => s
  | some q =>
    let used := q.srcs
    let others := (s.product i).frames.filter (fun r => r.frame != f && !r.ended)
    let mine := s.dirLines.filter (fun c => c.2.kind == .raw && used.any (fun u => u.1 == c.2.owner && u.2 == c.2.frame)
      && !others.any (fun r => r.srcs.any (fun u => u.1 == c.2.owner && u.2 == c.2.frame)))
    s.each (mine.map (·.1)) (fun d s => (s.dropEntry d i).release d i)

/-- Tiles of product frame `(i, f)` that no petal runs, in every bloom. -/
def Tile.of (i f : Nat) (t : Tile) : Bool := t.prd == i && t.frame == f

/-- The first queue of a bloom with room from `k` on, in rising order, wrapping (R192). -/
def Bloom.roomAt (b : Bloom) (k : Nat) : Option Nat :=
  ((List.range 32).map (fun d => (k + d) % 32)).find? (fun j => (b.q.get j).length < 16)

/-- Queue entries that are free take up to `n` of the oldest backlog tiles (R197). -/
def Bloom.refills : Nat → Bloom → Bloom
  | 0, x => x
  | n + 1, x => match x.backlog with
    | [] => x
    | t :: r => match x.roomAt t.slot with
      | some k => Bloom.refills n { x with q := x.q.upd k (· ++ [{ t with slot := k }]), backlog := r }
      | none => x

/-- Cancel the queued tiles of a product frame: they never run and count as completed (R189, R209), and the entries that they free take
backlog tiles (R197). -/
def State.cancelTiles (i f : Nat) (s : State) : State :=
  (List.range 8).foldl (fun s b =>
    let bl := s.blm.get b
    let n := ((List.range 32).foldl (fun n k => n + ((bl.q.get k).filter (Tile.of i f)).length) 0)
      + (bl.fast.filter (Tile.of i f)).length + (bl.backlog.filter (Tile.of i f)).length
    if n = 0 then s else
    (s.modBlm b (fun x => Bloom.refills n { x with
      q := (List.range 32).foldl (fun q k => q.upd k (·.filter (fun t => !t.of i f))) x.q
      fast := x.fast.filter (fun t => !t.of i f)
      backlog := x.backlog.filter (fun t => !t.of i f) })).modPFrame i f
        (fun q => { q with completed := q.completed + n }) |>.pmuAdd 0x0C2 b n) s

/-- A product frame ends without its remaining lines: abandoned by the host's fault, or dropped by class (R14, R173). -/
def State.killFrame (i f : Nat) (host : Bool) (s : State) : State :=
  let s := s.modProduct i (fun p => { p with
    spillQ := p.spillQ.filter (fun l => l.line.frame != f)
    slotDrops := if pdbDestKind p.pdb = 2 then p.slotDrops ++ [(f, ((s.pframe i f).map (·.flags)).getD 0)] else p.slotDrops })
  ((s.modPFrame i f (fun q => { q with dead := true, hostLoss := q.hostLoss || host, closed := true })).cancelTiles i f
    |>.dropPFrameLines i f).releaseSources i f

end Sys2Proof.Machine
end

