-- ==== Sys2Proof/Machine/Notes.lean ====
section
/-!
DEFINITION. Machine/Notes.lean: how Korlet reports. A note is one thing to report: an entry for a completion ring, an event, a
ring error, a fault raise, the entry into the safe state. Handling one note can give further ones: a fault writes an event, an
event can meet a ring that fails, a failed ring raises a fault.
-/
namespace Sys2Proof.Machine

/-- One report on its way. -/
inductive Note where
  /-- Main entry for the CMP ring `g` (R400). -/
  | entry (g : Nat) (e : Entry)
  /-- Event for the event ring of a domain (R403). -/
  | event (dom code detail a0 a1 a2 ring : Nat)
  /-- Ring `g` fails with a cause of R410. -/
  | ringErr (g cause idx addr : Nat) (completed : Bool)
  /-- A fault source is raised (R529). -/
  | fault (src detail : Nat)
  /-- The safe state is entered (R537). -/
  | safe (cause src code : Nat)
  deriving DecidableEq, Repr

/-! Lupin (R543 to R547). -/

/-- Put a record into the queue behind the older ones; records of one cycle stand in order of severity, then source (R543). -/
def insertLup (r : LupRec) (l : List LupRec) : List LupRec :=
  let older := l.filter (fun q => q.cyc != r.cyc)
  let same := l.filter (fun q => q.cyc == r.cyc)
  let before := same.filter (fun q => r.sev < q.sev || (r.sev == q.sev && q.source ≤ r.source))
  let after := same.filter (fun q => !(r.sev < q.sev || (r.sev == q.sev && q.source ≤ r.source)))
  older ++ before ++ [r] ++ after

/-- Remove the youngest record of severity 0 or 1. -/
def dropYoungLow (l : List LupRec) : Option (List LupRec) :=
  let rec go : List LupRec → Option (List LupRec)
    | [] => none
    | r :: t => if r.sev ≤ 1 then some t else (go t).map (r :: ·)
  (go l.reverse).map List.reverse

/-- A unit submits a record (R543): to the holding queue of a boot with an unsaved buffer (R547), lost while frozen (R546), else to
the queue. -/
def State.lupSubmit (s : State) (kind src sev a0 a1 : Nat) : State :=
  let r : LupRec := { kind := kind, source := src, sev := sev, boot := s.fld F.SEC_BOOT_CNT.COUNT % 32, at_ := s.now
                      arg0 := a0 % 2 ^ 32, arg1 := a1 % 2 ^ 32, cyc := s.time.now }
  let lost := s.count F.LUP_CNT.LOST
  if s.lup.holding then
    if s.lup.hold.length < 256 then s.modLup (fun l => { l with hold := l.hold ++ [r] }) else lost
  else if s.flag F.LUP_STAT.FROZEN then lost
  else if s.lup.queue.length < 128 then s.modLup (fun l => { l with queue := insertLup r l.queue })
  else if sev ≤ 1 then lost
  else match dropYoungLow s.lup.queue with
    | some q => lost.modLup (fun l => { l with queue := insertLup r q })
    | none => lost

/-- Lupin writes one record into slot SEQ mod 4096 (R543). -/
def State.lupWrite (s : State) (r : LupRec) : State :=
  let n := s.fld F.LUP_SEQ.NEXT
  let s := s.modLup (fun l => { l with buf := l.buf.set (n % 4096) (some { r with seq := n }) })
  ((s.setFld F.LUP_SEQ.NEXT ((n + 1) % 2 ^ 32)).setFld F.LUP_STAT.COUNT (min 4096 (s.fld F.LUP_STAT.COUNT + 1))).pmuAdd 0x008 0

/-- Lupin writes every queued record, oldest first. -/
def State.lupDrain (s : State) : State :=
  (s.each s.lup.queue (fun r s => s.lupWrite r)).modLup (fun l => { l with queue := [] })

/-! Completion rings. -/

/-- Words of a main entry with PHASE and KIND, and of its time entry (R400, R404). -/
def Entry.bytes (e : Entry) (phase : Nat) : List Byte :=
  leBytes 4 (phase <<< 31 + e.kind <<< 28 + e.w0 % 2 ^ 28) ++ leBytes 4 e.w1 ++ leBytes 4 e.w2 ++ leBytes 4 e.w3
  ++ leBytes 4 (phase <<< 31 + 7 <<< 28 + (e.at_.raster % 8) <<< 25 + (e.at_.line % 2 ^ 16) <<< 9 + (e.at_.frac % 256) <<< 1)
  ++ leBytes 4 e.at_.frame ++ leBytes 8 e.at_.tod

/-- PHASE of the entry at index `i` of a ring of `2 ^ k` entries (R386). -/
def phaseAt (i k : Nat) : Nat := 1 - (i >>> k) % 2

/-- Free slots of a ring. -/
def Ring.free (r : Ring) : Nat := 2 ^ r.k - subMod (2 ^ 32) r.pi r.ci

/-- Domain of a global ring index (R382). -/
def ringDom (g : Nat) : Nat := g / 4096

/-- Ring number within its domain. -/
def ringNo (g : Nat) : Nat := g % 4096

/-- Send EVENT for a CMP ring and disarm it (R406, R407). -/
def State.signal (g : Nat) (s : State) : State :=
  let r := s.ring g
  let s := (s.pmuAdd 0x206 (ringDom g)).txPush {
    kind := .msg, dom := ringDom g, cls := r.cls, sub := 1, info := r.vector,
    addr := r.pi <<< 32 + ringDom g <<< 12 + ringNo g }
  s.modRing g (fun r => { r with armed := false, fi := r.pi, modCount := none })

/-- The pair count rule of R407. -/
def State.signalIfCount (g : Nat) (s : State) : State :=
  let r := s.ring g
  if r.armed ∧ r.modCnt ≠ 0 ∧ r.modCnt ≤ subMod (2 ^ 32) r.pi r.fi / 2 then s.signal g else s

/-- Change the first element for which `p` holds. -/
def changeFirst {α : Type} (p : α → Bool) (f : α → α) : List α → List α
  | [] => []
  | x :: l => if p x then f x :: l else x :: changeFirst p f l

/-- The completion of a started descriptor or of a buffer has been written: CI of its ring advances past everything completed
(R390), and the ring counts it as used (R415). Descriptors from before a resume do not move CI. -/
def Ring.complete (r : Ring) (idx : Nat) : Ring :=
  match r.typ with
  | .sub =>
    let st := changeFirst (fun d => d.idx == idx && !d.done) (fun d => { d with done := true }) r.started
    let now := st.filter (!·.old)
    let n := (now.takeWhile (·.done)).length
    { r with started := st.filter (fun d => d.old && !d.done) ++ now.drop n, ci := (r.ci + n) % 2 ^ 32, used := (r.used + 1) % 2 ^ 64 }
  | _ => { r with ci := (idx + 1) % 2 ^ 32, used := (r.used + 1) % 2 ^ 64 }

/-- A cached context has been used: it becomes the most recently used one (R416). -/
def State.touchCtx (g : Nat) (s : State) : State :=
  s.modHqe (fun h => if h.cache.any (· == g) then { h with cache := h.cache.filter (· != g) ++ [g] } else h)

/-- Write a completion pair at PI of a ring that has room (R386, R405, R408): a MWR of 32 bytes. The second component holds the
ring's failure when the window check refuses the write. -/
def State.writePair (g : Nat) (e : Entry) (s : State) : State × List Note :=
  let r := s.ring g
  let addr := r.base + 16 * (r.pi % 2 ^ r.k)
  if s.inWindow (ringDom g) addr 32 true then
    let s := (s.pmuAdd 0x205 (ringDom g)).txPush {
      kind := .mwr, dom := ringDom g, cls := r.cls, len := 32, addr := addr, data := e.bytes (phaseAt r.pi r.k),
      org := { kind := .pair, ring := g, idx := r.pi }, cover := e.cover }
    let s := s.modRing g (fun r => { r with
      pi := (r.pi + 2) % 2 ^ 32, used := (r.used + 1) % 2 ^ 64
      modCount := match r.modCount with | none => some 0 | c => c })
    let s := match e.cover with
      | some (c, idx) => s.modRing c (fun r => r.complete idx)
      | none => s
    ((s.signalIfCount g).touchCtx g, [])
  else ((s.count F.HQE_CNT1.WINDOW).pmuAdd 0x209 (ringDom g), [.ringErr g 2 r.pi addr false])

/-- Events of an entry list. -/
def countEvents (l : List Entry) : Nat := (l.filter (fun e => e.kind == 2)).length

/-- The EVT_OVERFLOW entry of a ring that lost events (R403, R405). -/
def overflowEntry (g lost : Nat) (p : Pos) : Entry :=
  { kind := 2, w0 := ringNo g <<< 16 + 6 <<< 8, w1 := lost, at_ := p }

/-- Bring an entry to a CMP ring: written at once when the ring runs, has room and nothing waits before it, else it waits; the 65th
waiting event is lost (R405). A DISABLED ring takes nothing (R393). -/
def State.putEntry (g : Nat) (e : Entry) (s : State) : State × List Note :=
  let r := s.ring g
  if r.typ ≠ .cmp ∨ r.st = .disabled then (s, [])
  else if r.st = .running ∧ 2 ≤ r.free ∧ r.waitQ = [] ∧ r.lost = 0 then s.writePair g e
  else if e.kind = 2 ∧ 64 ≤ countEvents r.waitQ then
    ((s.count F.HQE_CNT1.EVT_LOST).modRing g (fun r => { r with lost := r.lost + 1 }), [])
  else (s.modRing g (fun r => { r with waitQ := r.waitQ ++ [e] }), [])

/-- Write what waits while there is room, the EVT_OVERFLOW event first (R405). -/
def State.drainCmp (g : Nat) : Nat → State → State × List Note
  | 0, s => (s, [])
  | n + 1, s =>
    let r := s.ring g
    if r.st ≠ .running ∨ r.free < 2 then (s, [])
    else if r.lost ≠ 0 then
      let p := (s.modRing g (fun r => { r with lost := 0 })).writePair g (overflowEntry g r.lost s.now)
      if p.2 = [] then p.1.drainCmp g n else p
    else match r.waitQ with
      | [] => (s, [])
      | e :: q =>
        let p := (s.modRing g (fun r => { r with waitQ := q })).writePair g e
        if p.2 = [] then p.1.drainCmp g n else p

/-! Entries. -/

/-- Command completion (R401). -/
def cmdEntry (g idx status detail user cmd arg8 arg : Nat) (p : Pos) : Entry :=
  { kind := 0, w0 := ringNo g <<< 16 + status <<< 8 + detail, w1 := user
    w2 := cmd <<< 24 + arg8 <<< 16 + idx % 2 ^ 16, w3 := arg, at_ := p, cover := some (g, idx) }

/-- Buffer completion (R402): STATUS, then EOF. -/
def bufEntry (g status : Nat) (eof : Bool) (h : HeldBuf) (p : Pos) : Entry :=
  { kind := 1
    w0 := ringNo g <<< 16 + status <<< 13 + b2n eof <<< 12 + b2n h.sof <<< 11 + b2n h.sealFail <<< 10 + h.flags
    w1 := h.frame, w2 := h.first <<< 16 + h.lines, w3 := h.user, at_ := p, cover := some (g, h.idx) }

/-- Event entry (R403). -/
def evtEntry (code detail a0 a1 a2 ring : Nat) (p : Pos) : Entry :=
  { kind := 2, w0 := ringNo ring <<< 16 + code <<< 8 + detail % 256, w1 := a0 % 2 ^ 32, w2 := a1 % 2 ^ 32, w3 := a2 % 2 ^ 32, at_ := p }

/-- CMP ring to which the ring `g` is bound, as a global index. -/
def State.cmpOf (s : State) (g : Nat) : Nat := ringDom g * 4096 + (s.ring g).cmp

/-- Event ring of a domain, as a global index (R393). -/
def State.evtRing (s : State) (d : Nat) : Nat := d * 4096 + (s.dom d).evtRing

/-- Where an event of a domain goes: its event ring, or domain 0's when that ring has failed (R403). -/
def State.evtTarget (s : State) (d : Nat) : Nat :=
  if (s.ring (s.evtRing d)).st = .error then s.evtRing 0 else s.evtRing d

/-! Faults (R529 to R535). -/

/-- Lowest severity that each source accepts (R530). -/
def sevMin (src : Nat) : Nat := match src with
  | 0 | 1 | 2 | 5 | 7 => 3
  | 4 | 6 | 12 | 32 => 2
  | 3 | 8 | 9 | 11 | 13 | 14 | 18 | 20 | 22 | 23 | 24 | 25 | 30 | 31 => 1
  | _ => 0

/-- The source exists (R530). -/
def srcExists (src : Nat) : Bool := src ≤ 39 || src == 63

/-- Effective severity of a source (R531). -/
def State.sevOf (s : State) (src : Nat) : Nat :=
  if srcExists src then max (bits (s.rd .FCL_SEV (src / 16)) (2 * (src % 16) + 1) (2 * (src % 16))) (sevMin src) else 0

/-- A bit of a pair of 32-bit registers. -/
def State.bit64 (s : State) (lo hi : RegKind) (n : Nat) : Bool :=
  if n < 32 then bit (s.rd lo) n else bit (s.rd hi) (n - 32)

/-- Set a bit of a pair of 32-bit registers. -/
def State.setBit64 (s : State) (lo hi : RegKind) (n : Nat) : State :=
  if n < 32 then s.wr lo (s.rd lo ||| 1 <<< n) else s.wr hi (s.rd hi ||| 1 <<< (n - 32))

/-- Sticky bit of a source (R534). -/
def State.sticky (s : State) (src : Nat) : Bool := s.bit64 .FCL_STATUS_LO .FCL_STATUS_HI src

/-- Counter of a source's raises (R560). -/
def State.faultCnt (s : State) (src : Nat) : Nat := bits (s.rd .FCL_CNT (src / 4)) (8 * (src % 4) + 7) (8 * (src % 4))

/-- Count a raise; the counter saturates at 255. -/
def State.bumpFault (s : State) (src : Nat) : State :=
  s.wr .FCL_CNT (putBits (s.rd .FCL_CNT (src / 4)) (8 * (src % 4) + 7) (8 * (src % 4)) (min 255 (s.faultCnt src + 1))) (src / 4)

/-- Fill the first-fault record (R535). -/
def State.recordFF (s : State) (src sev detail : Nat) : State :=
  let p := s.now
  ((((((s.wr .FCL_FF0 (1 <<< 31 + src <<< 25 + sev <<< 23)).wr .FCL_FF1 detail).wr .FCL_FF2
    (p.raster <<< 29 + p.line <<< 13 + p.frac <<< 5)).wr .FCL_FF3 p.frame).wr .FCL_FF4 (p.tod % 2 ^ 32)).wr .FCL_FF5
    (p.tod / 2 ^ 32)).modFcl (fun f => { f with ffCycle := s.sysCycle })

/-- The first-fault record and the coincidence mask take a raise (R535, R540). -/
def State.noteFF (s : State) (src sev detail : Nat) : State :=
  if ¬ s.flag F.FCL_FF0.VALID then
    (s.recordFF src sev detail).setBit64 .FCL_COINC_LO .FCL_COINC_HI src
  else if s.fcl.ffCycle = s.sysCycle ∧ ¬ s.fcl.safe then
    let was := (s.fld F.FCL_FF0.SEV, s.fld F.FCL_FF0.SOURCE)
    let s := s.setBit64 .FCL_COINC_LO .FCL_COINC_HI src
    if was.1 < sev ∨ (was.1 = sev ∧ src < was.2) then s.recordFF src sev detail else s
  else s

/-- A clock domain runs: its monitor does not fail (R25). -/
def State.clockUp (s : State) (d : Nat) : Bool := !s.fcl.clkFail.any (· == d)

/-- SYS has stopped (R25, R539). -/
def State.sysStopped (s : State) : Bool := !s.clockUp 1

/-- One raise at the collector (R532 to R535, R542). While SYS has stopped, only the direct lines act (R529, R537); in standby neither the
collector nor the safe-state controller runs (R28, R565). -/
def State.raiseNow (src detail : Nat) (s : State) : State × List Note :=
  if ¬ srcExists src ∨ ¬ s.sec.pwrGood then (s, [])
  else if s.sysStopped then (s, if src ∈ [1, 2, 5, 7] then [.safe 1 src 0] else [])
  else
    let sev := s.sevOf src
    let fresh := ¬ s.sticky src
    let s := s.pmuAdd 0x007 0
    let s := (s.bumpFault src).setBit64 .FCL_STATUS_LO .FCL_STATUS_HI src
    let s := s.noteFF src sev detail
    if s.fcl.safe then (s, [])
    else if fresh then
      let s := s.lupSubmit 1 src sev detail (s.faultCnt src)
      let ev := match sev with
        | 0 => s.flag F.FCL_REACT.EVENT0
        | 1 => s.flag F.FCL_REACT.EVENT1
        | 2 => s.flag F.FCL_REACT.EVENT2
        | _ => true
      let al := match sev with
        | 0 => s.flag F.FCL_REACT.ALERT0
        | 1 => s.flag F.FCL_REACT.ALERT1
        | 2 => s.flag F.FCL_REACT.ALERT2
        | _ => false
      (s.when al (·.alert 1),
        (if ev then [.event 0 0x80 src detail (sev + s.faultCnt src <<< 8) 0 0] else [])
        ++ (if sev = 3 then [.safe 1 src 0] else []))
    else (s, if sev = 3 then [.safe 1 src 0] else [])

/-! Safe state (R537 to R541). -/

/-- The registers of what products hold, when there are none (R160, R184, R193, R211, R295, R600). -/
def State.showNoProducts (s : State) : State :=
  let s := s.each (List.range 64) (fun st s => s.showMin st (s.baseLines st))
  let s := s.each (List.range 8) (fun b s =>
    ((s.setFld F.BLM_FAST_LOAD.RESV_PETALS 0 b).setFld F.BLM_FAST_LOAD.CARRY_KIB 0 b).setFld F.EGV_BLOOM.R_B 0 b)
  ((s.setFld F.EGV_DEMAND.TOKENS 0).setFlag F.BLM_TF_CTRL.RUNNING false).setFld F.FST_SYS_FREE.FREE s.sysTotal

/-- The pool gives up what products hold: their lines, their part in raw lines, their ledger entries (R276). -/
def State.dropHoldings (s : State) : State :=
  let s := s.modSeals (fun q => { q with ledger := [] })
  s.each s.dirLines (fun c s => match c.2.kind with
    | .product => s.dropLine c.1
    | .raw => (s.modLine c.1 (fun l => { l with holders := [] })).settle c.1
    | .host => s)

/-- Every product, pending product command and grant is discarded without completions (R276): the registers read FREE and the rings are
unbound. -/
def State.dropProducts (s : State) : State :=
  let s := s.each s.products (fun i s => ((s.wr .PRD_STATE 0 i).wr .PRD_FOOT 0 i).wr .PRD_COST 0 i)
  let s := s.each s.hqe.rings.keys (fun g s => s.modRing g (fun r => if r.typ = .buf then { r with bound := 0, held := none } else r))
  (({ s with prd := {} } : State).dropHoldings).showNoProducts

/-- Tiles, queues and lists of every bloom are emptied; the energy balances stay. -/
def State.dropTiles (s : State) : State :=
  s.each s.blm.keys (fun b s => s.modBlm b (fun x => { resv := x.resv, gen := x.gen }))

/-- All open and staged generations are discarded (R41). -/
def State.dropGenerations (s : State) : State :=
  let s := s.modCfg (fun c => { c with opn := {}, stg := {} })
  s.each (List.range 8) (fun g s => (s.setFld F.CFG_STATE.STATE 0 g).setFlag F.CFG_STATE.OPEN_DIRTY false g)

/-- The injectors disarm; REORDER_RELEASE releases a unit still held (R538, R551). -/
def State.disarmAll (s : State) : State :=
  let s := s.each (List.range 8) (fun i s => s.setFlag F.FIJ_CTRL.ARM false i)
  (s.setFld F.FIJ_STAT.ARMED 0).modFcl (fun f => { f with
    fij := (List.range 8).foldl (fun t i => t.upd i (fun x => { held := x.held, link := x.link, inst := x.inst, cut := x.held != [] })) f.fij })

/-- The vehicle bridge in the safe state (R495): the transfer in flight goes on; queued transfers, open reads and CAN frames are
discarded, and the credits that queued writes held back are returned. -/
def State.dropBridge (s : State) : State :=
  let s := s.each s.vbr.tun.keys (fun p s =>
    let held := (s.vbr.tun.get p).held
    let s := s.each held (fun h s => if h.2.1 = 0 then s else s.giveCredit 0 h.2.1 h.2.2)
    s.modVbr (fun v => { v with tun := v.tun.upd p (fun t => { jobs := t.jobs.take 1 }) }))
  s.modVbr (fun v => { v with reads := {}, canQ := {} })

/-- Entry into the safe state in the order of R538. FAULT_N goes low and the board is alerted; Lupin writes what was queued, the
SAFE_ENTRY record, and freezes. While SYS is stopped the steps that need it do not take place (R539). -/
def State.enterSafe (cause src code : Nat) (s : State) : State × List Note :=
  if s.fcl.safe ∨ ¬ s.sec.pwrGood then (s, [])
  else
    let word := 1 <<< 31 + cause <<< 28 + (if cause = 1 then src else 0) <<< 22 + (if cause = 2 then code else 0) <<< 19
    let s := s.modFcl (fun f => { f with safe := true, safeAt := s.time.now, safeD02 := word, faultN := false })
    let s := s.when (s.flag F.PMU_CTRL.FRZ_SAFE) (·.setFlag F.PMU_CTRL.FREEZE)
    let s := s.disarmAll.dropTiles.dropGenerations.dropProducts.dropBridge
    let s := s.each (List.range 8) (fun b s => s.startClock b 16)
    let s := s.alert 0
    if s.sysStopped then
      (((s.setFlag F.LUP_STAT.FROZEN).setFlag F.LUP_STAT.UNSAVED).modLup (fun l => { l with queue := [] })
        |>.modFcl (fun f => { f with lateDue := true }), [])
    else
      let s := s.wr .FCL_SAFE word
      let s := s.when (!s.flag F.LUP_STAT.FROZEN) (fun s => (s.lupDrain).lupWrite
        { kind := 2, boot := s.fld F.SEC_BOOT_CNT.COUNT % 32, at_ := s.now
          arg0 := word, arg1 := s.rd .FCL_COINC_LO })
      let s := (s.setFlag F.LUP_STAT.FROZEN).setFlag F.LUP_STAT.UNSAVED
      (s, if s.flag F.GWL_STAT.ACTIVE then [.event 0 0x81 cause word (s.rd .FCL_COINC_LO) (s.rd .FCL_COINC_HI) 0] else [])

/-! Ring errors (R410 to R412). -/

/-- STATUS of a held buffer's completion at a ring error (R402, R410). -/
def bufErrStatus (cause : Nat) : Nat := match cause with
  | 4 => 3
  | 5 => 4
  | _ => 2

/-- Rings of a domain that are bound to CMP ring `g` and not DISABLED, in rising order. -/
def State.boundTo (s : State) (g : Nat) : List Nat :=
  s.hqe.rings.keys.filter (fun b => ringDom b == ringDom g && (s.ring b).typ != .cmp && (s.ring b).st != .disabled
    && (s.ring b).cmp == ringNo g)

/-- FRAME_LOSS of a product's frame, to the CMP ring of its BUF ring (R403). -/
def State.frameLoss (s : State) (i f cause : Nat) : List Note :=
  let pdb := (s.product i).pdb
  if pdbDestKind pdb = 0 then [.entry (s.cmpOf (pdbRing pdb)) (evtEntry 2 cause f i 0 (pdbRing pdb) s.now)] else []

/-- The buffer that product `i` holds for its frame `f` completes as ABANDONED (R398). -/
def State.abandonBuf (i f : Nat) (s : State) : State × List Note :=
  let pdb := (s.product i).pdb
  let g := pdbRing pdb
  if pdbDestKind pdb ≠ 0 then (s, [])
  else match (s.ring g).held with
    | some h => if h.frame = f then (s.modRing g (fun r => { r with held := none }), [.entry (s.cmpOf g) (bufEntry g 2 false h s.now)])
      else (s, [])
    | none => (s, [])

/-- A product frame is abandoned by the host's fault, with its reports: the event, and the host ring's fault source (R18, R173, R410). -/
def State.abandon (i f : Nat) (s : State) (fault : Bool := true) : State × List Note :=
  match s.pframe i f with
  | some q =>
    if q.dead then (s, [])
    else
      let b := s.abandonBuf i f
      let s := (b.1.killFrame i f true).setFlag F.POOL_STAT.HOST_LOSS
      (s.pmuAdd 0x08A (pdbSrc0 q.pdb), b.2 ++ s.frameLoss i f 1 ++ (if fault then [.fault 29 (pdbRing q.pdb)] else []))
  | none => (s, [])

/-- A ring enters ERROR (R410). Of the rings that fail in one cycle the lowest is recorded (R425). -/
def State.failRing (g cause idx addr : Nat) (completed : Bool) (s : State) : State × List Note :=
  let r := s.ring g
  if r.st = .error ∨ r.st = .disabled then (s, [])
  else
    let lostEvts := if r.typ = .cmp then countEvents r.waitQ else 0
    let s := s.modRing g (fun r => { r with
      st := .error, err := cause, errIdx := idx, errAddr := addr, fetched := [], stopping := false, held := none
      waitQ := if r.typ = .cmp then [] else r.waitQ })
    let s := s.modGwl (fun l => { l with jobs := l.jobs.filter (fun j => !(j.org.kind == .desc && j.org.ring == g)) })
    let s := ((s.count F.HQE_CNT1.RING_ERR).addTo F.HQE_CNT1.EVT_LOST lostEvts).pmuAdd 0x208 (ringDom g)
    let kept := s.fld F.HQE_ERR_REC0.DOMAIN * 4096 + s.fld F.HQE_ERR_REC0.RING
    let s := s.when (!s.flag F.HQE_ERR_REC0.VALID || (cause != 6 && s.hqe.errAt == s.time.now && decide (g < kept))) (fun s =>
      (((s.wr .HQE_ERR_REC0 (1 <<< 31 + cause <<< 27 + ringDom g <<< 21 + ringNo g <<< 9)).wr .HQE_ERR_REC1 (addr % 2 ^ 32)).wr
        .HQE_ERR_REC2 (addr / 2 ^ 32)).modHqe (fun h => { h with errAt := s.time.now }))
    let arg0 := ringDom g <<< 26 + b2n completed <<< 25 + idx % 2 ^ 16
    let s := s.lupSubmit 0x10 0 0 arg0 (addr % 2 ^ 32)
    let buf : State × List Note := match r.typ, r.held with
      | .buf, some h =>
        let p := s.abandon h.prd h.frame false
        (p.1, .entry (s.cmpOf g) (bufEntry g (bufErrStatus cause) false h s.now) :: p.2)
      | _, _ => (s, [])
    let s := buf.1
    let down := if r.typ = .cmp then (s.boundTo g).map (fun b => Note.ringErr b 6 (s.ring b).ci 0 false) else []
    let tgt := s.evtTarget (ringDom g)
    let ev := if (s.ring tgt).st = .error then []
      else [Note.entry tgt (evtEntry 4 cause arg0 addr (addr / 2 ^ 32) g s.now)]
    (s, buf.2 ++ down ++ ev ++ [.fault 29 g])

/-! Handling notes. -/

/-- Handle one note: the state after it and the notes it gives. -/
def State.runNote (n : Note) (s : State) : State × List Note :=
  match n with
  | .entry g e => s.putEntry g e
  | .event d code detail a0 a1 a2 ring => s.putEntry (s.evtRing d) (evtEntry code detail a0 a1 a2 ring s.now)
  | .ringErr g cause idx addr completed => s.failRing g cause idx addr completed
  | .fault src detail => s.raiseNow src detail
  | .safe cause src code => s.enterSafe cause src code

/-- Handle notes, the ones a note gives before the ones behind it. The bound exceeds what any chain of reports can give: each ring
fails once. -/
def State.runNotes : Nat → List Note → State → State
  | 0, _, s => s
  | _, [], s => s
  | k + 1, n :: l, s => let p := s.runNote n
                        State.runNotes k (p.2 ++ l) p.1

/-- Report: handle a list of notes to the end. -/
def State.report (l : List Note) (s : State) : State := State.runNotes 4194304 l s

/-- Run a step that gives notes, and report them. -/
def State.andReport (p : State × List Note) : State := p.1.report p.2

/-- Raise a fault source (R529). -/
def State.raise (src detail : Nat) (s : State) : State := s.report [.fault src detail]

/-- Write an event to a domain's event ring (R403). -/
def State.event (s : State) (d code detail a0 a1 a2 : Nat) (ring : Nat := 0) : State :=
  s.report [.event d code detail a0 a1 a2 ring]

end Sys2Proof.Machine
end

