-- ==== Sys2Proof/Machine/RegFile.lean ====
section
/-!
DEFINITION. Machine/RegFile.lean: what a write does to the fields of a register by access type and class (R8, R9), which commit
group a class-S field belongs to (R33), which block owns a class-L field (R45), and the life of a commit (R35 to R41, R53).
-/
namespace Sys2Proof.Machine

/-- Raster of the streams that an ingress port carries: the master raster without one (R33). -/
def State.portGroup (s : State) (p : Nat) : Nat :=
  match (List.range 8).find? (fun e => s.flag F.ING_MAP.EN p e && s.flag F.RAS_STRM_CFG.EN (s.fld F.ING_MAP.STREAM p e)) with
  | some e => s.fld F.RAS_STRM_CFG.RASTER (s.fld F.ING_MAP.STREAM p e)
  | none => s.master

/-- Commit group of a stream's fields (R33). -/
def State.streamGroup (s : State) (st : Nat) : Nat :=
  if s.flag F.RAS_STRM_CFG.EN st then s.fld F.RAS_STRM_CFG.RASTER st else s.master

/-- Commit group of a register's class-S fields (R33). -/
def State.groupOf (s : State) (k : RegKind) (i j : Nat) : Nat :=
  match k with
  | .RAS_CTRL | .RAS_PERIOD | .RAS_PERIOD_FRAC | .RAS_ALIGN | .RAS_PHASE => i
  | .RAS_STRM_CFG | .RAS_STRM_RATIO | .RAS_STRM_TARGET | .RAS_TRIG_INIT => s.streamGroup i
  | .ING_STRM_FMT | .ING_STRM_SIZE | .ING_STRM_LEN =>
    if s.flag F.ING_MAP.EN i j then s.streamGroup (s.fld F.ING_MAP.STREAM i j) else s.portGroup i
  | .ING_PORT_CTRL => s.portGroup i
  | .DEG_VTIMING0 | .DEG_VTIMING1 | .DEG_HTIMING0 | .DEG_HTIMING1 | .DEG_LAYER_CFG | .DEG_LAYER_POS | .DEG_LAYER_SIZE
  | .MGD_PORT_CTRL | .MGD_PORT_LINES => s.fld F.DEG_PORT_CTRL.RASTER i
  | .MGD_SLOT_CFG | .MGD_SLOT_POS | .MGD_SLOT_RB => s.fld F.DEG_PORT_CTRL.RASTER (s.fld F.MGD_SLOT_CFG.PORT i)
  | .MGD_TT_CFG | .MGD_TT_IMG => s.fld F.DEG_PORT_CTRL.RASTER (s.fld F.MGD_TT_CFG.PORT i)
  | .VBR_RPORT => if i < 28 then s.portGroup i else s.fld F.DEG_PORT_CTRL.RASTER (i - 28)
  | .VBR_RSLOT => s.portGroup i
  | _ => s.master

/-- The block that owns a register's class-L fields runs, judged before the write acts; `v` is the value written (R45). -/
def State.ownerRuns (s : State) (k : RegKind) (i _j v : Nat) : Bool :=
  match k with
  | .BLM_HASH_CTRL | .BLM_HASH_SEED_LO | .BLM_HASH_SEED_HI => s.flag F.BLM_TF_CTRL.RUNNING
  | .CFG_SYNC_CTRL | .CFG_SYNC_OFFSET => s.flag F.CFG_SYNC_CTRL.EN
  | .DEG_PORT_CTRL => s.flag F.DEG_PORT_CTRL.RUN i
  | .FCL_REACT | .FCL_SEV => s.flag F.FCL_CTRL.LOCK
  | .FIJ_CTRL | .FIJ_PAT | .FIJ_TRIG => !s.flag F.FIJ_STAT.UNLOCKED
  | .FST_HASH_CTRL | .FST_HASH_SM | .FST_HASH_SX =>
    s.flag F.FST_STAT.READY || (List.range 64).any (fun r => s.flag F.FST_RGN.EN r)
  | .GWL_CTRL | .GWP_CTRL | .GWP_LANE_CTRL => s.flag F.GWP_CTRL.EN
  | .HQE_ACMP_HI | .HQE_ACMP_LO | .HQE_ADMIN_CFG | .HQE_ASUB_HI | .HQE_ASUB_LO | .HQE_CTRL | .HQE_WIN0 | .HQE_WIN1
  | .HQE_WIN2 => s.flag F.HQE_CTRL.EN
  | .ING_MAP | .ING_PORT_CTRL => s.flag F.ING_PORT_CTRL.RUN i
  | .MGD_CTRL => (List.range 4).any (fun n => s.flag F.MGD_PORT_CTRL.EN n)
  | .MGD_SLOT_CFG => s.flag F.MGD_PORT_CTRL.EN (s.fld F.MGD_SLOT_CFG.PORT i)
  | .MGD_TT_CFG => s.flag F.MGD_PORT_CTRL.EN (s.fld F.MGD_TT_CFG.PORT i)
  | .PMU_CFG | .PMU_CTR_HI | .PMU_CTR_LO | .PMU_SAMP_CTRL | .PMU_SAMP_FILT | .PMU_SNAP_CTRL => !s.flag F.PMU_CTRL.FREEZE
  | .RAS_MASTER => (s.ras.get s.master).running || (s.ras.get (bits v 2 0)).running
  | .RAS_STRM_CFG => match s.mapOf i with
    | some (p, _) => s.flag F.ING_PORT_CTRL.RUN p
    | none => false
  | .SMB1_CTRL => s.flag F.SMB1_CTRL.EN
  | .VBR_CAN_CTRL | .VBR_CAN_DBT | .VBR_CAN_NBT => s.flag F.VBR_CAN_CTRL.EN i
  | .VBR_CTRL => s.flag F.VBR_CTRL.EN
  | _ => false

/-- Path code of R58. -/
def pathCode : Path → Nat
  | .geward => 0
  | .smb0 => 1
  | .firmware => 2

/-- A dropped class-L write is recorded and raised (R45, R58). -/
def State.ldrop (s : State) (path : Path) (off : Nat) : State :=
  let s := s.count F.CFG_LDROP_CNT.COUNT
  let s := s.when (!s.flag F.CFG_LDROP.VALID) (·.wr .CFG_LDROP (1 <<< 31 + pathCode path <<< 26 + off))
  s.raise 16 0xFF

/-- The value that a register takes after its fields have been written: bits that always read as the manual says (R196, R308,
R522, R531). -/
def regFix (k : RegKind) (i v : Nat) : Nat :=
  match k with
  | .BLM_HASH_SEED_HI => v ||| 1
  | .SMB0_CTRL => v ||| 1 <<< 24
  | .FST_HASH_SM => v ||| 1
  | .FCL_SEV => (List.range 16).foldl (fun t n =>
      let src := 16 * i + n
      t + (if srcExists src then max (bits v (2 * n + 1) (2 * n)) (sevMin src) else 0) <<< (2 * n)) 0
  | _ => v

/-- Value of one field after a write of `v` to its register: `lock` is true while its owner runs. Class-S fields keep their active
value (R9). -/
def fieldAfter (f : Fld) (lock : Bool) (v old : Nat) : Nat :=
  let o := bits old f.hi f.lo
  let n := bits v f.hi f.lo
  match f.acc with
  | .ro | .wo => o
  | .w1c => (List.range (f.hi + 1 - f.lo)).foldl (fun t i => if bit n i then t else t + (b2n (bit o i)) <<< i) 0
  | .w1cn => if n = 0 then o else 0
  | .rw => match f.cls with
    | .s => o
    | .l => if lock then o else n
    | _ => n

/-- Contents that a write of `v` gives the fields `fs` of a register that holds `old`; `lock`: the owner of its class-L fields runs. -/
def fieldsAfter (fs : List Fld) (lock : Bool) (v old : Nat) : Nat := fs.foldl (fun w f => putBits w f.hi f.lo (fieldAfter f lock v old)) old

/-- A write would change a class-L field of a register from `old` to `new` (R45). -/
def changesL (fs : List Fld) (new old : Nat) : Bool :=
  fs.any (fun f => f.acc == .rw && f.cls == .l && bits new f.hi f.lo != bits old f.hi f.lo)

/-- Mask of a register's class-S fields. -/
def maskS (fs : List Fld) : Nat := fs.foldl (fun m f => if f.acc == .rw && f.cls == .s then m ||| f.mask else m) 0

/-- A write of `v` to a register instance, by access type and class (R8, R9, R35, R45, R662). DESIGN CHOICE (log entry 78): where one write
changes a class-L field that decides the commit group and class-S fields of the same register, the class-S part enters the open generation
of the group in force before the write. -/
def State.writeFields (s : State) (path : Path) (k : RegKind) (i j v : Nat) : State :=
  let fs := k.fields
  let old := s.rd k i j
  let runs := s.ownerRuns k i j v
  let g := s.groupOf k i j
  let drop := runs && changesL fs (regFix k i (fieldsAfter fs false v old)) old
  let s := s.wr k (regFix k i (fieldsAfter fs runs v old)) i j
  let s := s.when (maskS fs != 0) (fun s =>
    (s.modCfg (fun c => { c with opn := c.opn.upd g (· ++ [{ reg := ⟨k, i, j⟩, mask := maskS fs, val := v &&& maskS fs }]) })).setFlag
      F.CFG_STATE.OPEN_DIRTY true g)
  s.when drop (·.ldrop path (k.off i j))

/-! Commits. -/

/-- Apply the writes of a generation to the register file. -/
def State.applyWrites (s : State) (ws : List CfgWrite) : State :=
  s.each ws (fun w s =>
    let old := s.rd w.reg.kind w.reg.i w.reg.j
    s.wr w.reg.kind (old - (old &&& w.mask) + w.val) w.reg.i w.reg.j)

/-- Timing raster of a product: the raster of branch 0's source (R269). -/
def State.prdRaster (s : State) (pdb : List Byte) : Nat := s.fld F.RAS_STRM_CFG.RASTER (pdbSrc0 pdb)

/-- The frame-end barrier is reached when the frame is closed and every tile emitted has counted (R48). A tile counts when its passes have
ended or it was cancelled, and its last output line is published or its output discarded (R209). A frame that is closed at once still completes
in full (R273): its tiles yet to be emitted hold the barrier too (DEDUCED, log 80). -/
def PFrame.barrier (q : PFrame) : Bool :=
  q.closed && q.completed == q.emitted && (q.dead || (decide (pdbTiles q.pdb ≤ q.next) && decide (pdbLines q.pdb ≤ q.pub)))

/-- Some work of group `g` still runs under a generation older than the active one (R40): a product frame before its barrier, or a
stream frame before its close. Display frames are counted by `dispOld`. -/
def State.olderWork (s : State) (g : Nat) (dispOld : Bool) : Bool :=
  let gen := s.fld F.CFG_STATE.GEN g
  s.products.any (fun i => s.prdRaster (s.product i).pdb == g &&
    (s.product i).frames.any (fun q => !q.barrier && q.gen != gen))
  || (List.range 30).any (fun p => (List.range 8).any (fun e => match (s.ports.get p).opens.get e with
    | some o => s.streamGroup o.stream == g && o.gen != gen
    | none => false))
  || dispOld

/-- A commit request (R35, R36). -/
def State.commitRequest (g : Nat) (s : State) : State :=
  match s.cfg.stg.get g with
  | some _ => s.setFlag F.CFG_STATE.REFUSED true g
  | none =>
    let ws := s.cfg.opn.get g
    ((s.modCfg (fun c => { c with opn := c.opn.set g [], stg := c.stg.set g (some { writes := ws }) })).setFlag
      F.CFG_STATE.OPEN_DIRTY false g).setFld F.CFG_STATE.STATE 1 g

/-- DISCARD empties the open generation (R38). -/
def State.discardOpen (g : Nat) (s : State) : State :=
  (s.modCfg (fun c => { c with opn := c.opn.set g [] })).setFlag F.CFG_STATE.OPEN_DIRTY false g

/-- SRC may have changed (R64): without a source the trim is 0, and a time message measures against a message of its own selection. -/
def State.srcSelected (s : State) : State :=
  let src := s.fld F.RAS_DISC_CTRL.SRC
  let s := s.when (src != 2) (·.modTime (fun t => { t with lastMsg := none }))
  s.when (src == 0) (fun s => (s.modTime (fun t => { t with trim := 0 })).setFld F.RAS_DISC_STAT.TRIM 0)

/-- The staged generation of group `g` becomes active (R39, R53); what it replaces stays in force for the frames that began before. -/
def State.switchGen (g : Nat) (s : State) : State :=
  match s.cfg.stg.get g with
  | none => s
  | some st =>
    let running := (s.ras.get g).running
    let olds : List CfgWrite := if running then (st.writes.map (·.reg)).eraseDups.map (fun r =>
      { reg := r, mask := 2 ^ 32 - 1, val := s.rd r.kind r.i r.j }) else []
    let s := (s.applyWrites st.writes).pmuAdd 0x004 0
    let s := s.when (st.writes.any (fun w => w.reg.kind == .RAS_DISC_CTRL)) State.srcSelected
    let s := s.when st.late (·.setFlag F.CFG_STATE.DEFERRED true g)
    let s := (s.setFld F.CFG_STATE.GEN ((s.fld F.CFG_STATE.GEN g + 1) % 65536) g).setFld F.CFG_STATE.STATE 0 g
    let s := s.when (st.tookEn && !st.tgtWritten) (·.setFlag F.CFG_TARGET.EN false g)
    let s := s.when (st.writes.any (fun w => w.reg.kind == .EGV_BUDGET)) (·.modEgv (fun e => { e with cmd := none }))
    s.modCfg (fun c => { c with
      stg := c.stg.set g none
      old := c.old.set g olds
      since := c.since.set g (if running then some (s.ras.get g).frame else none) })

/-- A failed check (R44): the record and the count, the configuration fault and the CONFIG_REJECT event. -/
def State.rejectGen (g rule inst : Nat) (s : State) : State :=
  let s := s.modCfg (fun c => { c with stg := c.stg.set g none })
  let s := (s.setFld F.CFG_STATE.STATE 0 g).count F.CFG_STATE.REJ_CNT g
  let s := s.when (!s.flag F.CFG_REJECT.REJECTED g) (·.wr .CFG_REJECT (1 <<< 31 + rule <<< 16 + inst % 65536) g)
  ((s.pmuAdd 0x005 0).raise 16 g).event 0 3 g (s.rd .CFG_REJECT g) 0 0

end Sys2Proof.Machine
end

