-- ==== Sys2Proof/Machine/Timing.lean ====
section
/-!
DEFINITION. Machine/Timing.lean: rasters and their frames (R60 to R69), the discipline loop (R64 to R66), sensor triggers and the
skew loop (R70 to R82).
-/
namespace Sys2Proof.Machine

/-! TOD. -/

/-- The level of a trigger line leaves Korlet: FSYNC of a CSI-2 port, a tunnelled GPIO line of an A-PHY port (R72, R123). -/
def Pulse.level (q : Pulse) (v : Bool) : Out := if 28 ≤ q.port then .fsync (q.port - 28) v else .trigger q.port q.line v

/-- Trigger lines whose time is over return to their level at rest (R72, R123). -/
def State.endPulses (s : State) : State :=
  let due := fun (q : Pulse) => decide (q.until_ ≤ s.time.now)
  (s.each (s.time.pulses.filter due) (fun q s => s.emit (q.level q.rest))).modTime
    (fun t => { t with pulses := t.pulses.filter (fun q => !due q) })

/-- One CORE cycle passes: TOD takes 1/1.2 ns times one plus the trim, and every running raster's accumulator one cycle (R60, R64); the
cross-bloom budget refills (R201); trigger lines are released (R123). -/
def State.tick (s : State) : State :=
  let inc := ((5 * ((2 ^ 64 : Nat) + s.time.trim)) / (6 * 2 ^ 32 : Nat) : Int).toNat
  let f := s.time.todFrac + inc
  let s := s.modTime (fun t => { t with tod := (t.tod + f / 2 ^ 32) % 2 ^ 64, todFrac := f % 2 ^ 32, now := t.now + 1 })
  let s := s.when (!s.flag F.PMU_CTRL.FREEZE) (·.modPmu (fun p => { p with cyc := (p.cyc + 1) % 2 ^ 64 }))
  let s := (s.pmuAdd 0x000 0).pmuAdd 0x001 0 (s.time.now * 5 / 12 - (s.time.now - 1) * 5 / 12)
  let s := s.modTf (fun t => { t with budget := min 6553600 (t.budget + s.fld F.BLM_XSTEAL.CAP_PCT * 4096) })
  let s := s.when (!s.time.pulses.isEmpty) State.endPulses
  s.each (List.range 8) (fun n s => s.when (s.ras.get n).running (·.modRas n (fun r => { r with acc := r.acc + 2 ^ 32 })))

/-- Limit of the trim: 500 ppm in units of 2^-64 (R65). -/
def trimMax : Int := (2 ^ 64 * 5 / 10000 : Nat)

/-- Set the reported trim (R94). -/
def State.showTrim (s : State) : State := s.setFld F.RAS_DISC_STAT.TRIM (unsigned 24 (s.time.trim / (2 ^ 32 : Nat)))

/-- One measurement of the discipline loop: `e` and `tm` in ns (R65, R66). -/
def State.measure (e : Int) (tm : Nat) (s : State) : State :=
  let f := roundDiv (e * (2 ^ 64 : Nat)) tm
  let s := s.setFlag F.RAS_DISC_STAT.HOLDOVER false
  let good := e.natAbs ≤ s.fld F.RAS_DISC_PARAM.LOCK_NS
  let s :=
    if s.fld F.RAS_DISC_PARAM.STEP_US * 1000 < e.natAbs then
      ((s.modTime (fun t => { t with tod := (((t.tod : Int) + e) % (2 ^ 64 : Nat)).toNat, lockCnt := 0, badCnt := 0 })).setFlag
        F.RAS_DISC_STAT.STEPPED).setFlag F.RAS_DISC_STAT.LOCKED false
    else
      let s := s.modTime (fun t =>
        let g := clampI (-trimMax) trimMax (t.integ + f / (2 ^ s.fld F.RAS_DISC_CTRL.KI_SHIFT : Nat))
        { t with
          integ := g, trim := clampI (-trimMax) trimMax (f / (2 ^ s.fld F.RAS_DISC_CTRL.KP_SHIFT : Nat) + g)
          lockCnt := if good then min 8 (t.lockCnt + 1) else 0
          badCnt := if good then 0 else min 4 (t.badCnt + 1) })
      if s.time.lockCnt = 8 then s.setFlag F.RAS_DISC_STAT.LOCKED
      else if s.time.badCnt = 4 then s.setFlag F.RAS_DISC_STAT.LOCKED false else s
  s.showTrim

/-- Nearest multiple of `p` to `t`, less `t` (R64). DESIGN CHOICE (log entry 78): half way between two, the later one. -/
def nearestErr (t p : Nat) : Int :=
  if p = 0 then 0 else if 2 * (t % p) < p then -(t % p : Nat) else ((p - t % p : Nat) : Int)

/-- A TSYNC_IN edge measures against the nearest multiple of PERIOD_NS (R64). -/
def State.tsyncEdge (s : State) : State :=
  if s.fld F.RAS_DISC_CTRL.SRC = 1 then
    let p := s.fld F.RAS_TSYNC_PERIOD.PERIOD_NS
    s.measure (nearestErr s.time.tod p) p
  else s

/-- A good Geward time message (R64, R368). The first one after SRC is selected has no Tm: it only starts the measure. -/
def State.timeMessage (host : Nat) (s : State) : State :=
  if s.fld F.RAS_DISC_CTRL.SRC = 2 then
    let e : Int := (host + s.fld F.RAS_GW_DELAY.DELAY_NS : Nat) - (s.time.tod : Nat)
    let s' := match s.time.lastMsg with
      | some t => if t < s.time.tod then s.measure e (s.time.tod - t) else s
      | none => s
    s'.modTime (fun t => { t with lastMsg := some t.tod })
  else s

/-- No measurement within TIMEOUT_MS: holdover, with the trim frozen at integ (R66). -/
def State.holdover (s : State) : State :=
  if s.fld F.RAS_DISC_CTRL.SRC = 0 ∨ s.flag F.RAS_DISC_STAT.HOLDOVER then s
  else
    let s := (s.setFlag F.RAS_DISC_STAT.HOLDOVER).setFlag F.RAS_DISC_STAT.LOCKED false
    let s := (s.modTime (fun t => { t with trim := t.integ, lockCnt := 0, badCnt := 0 })).showTrim
    s.raise 38 0

/-- Load TOD (R96). DESIGN CHOICE (log entry 78): the load clears the fraction of a nanosecond that TOD holds inside. -/
def State.loadTod (hi : Nat) (s : State) : State :=
  (s.modTime (fun t => { t with tod := hi * 2 ^ 32 + t.setLo, todFrac := 0, lockCnt := 0 })).setFlag F.RAS_DISC_STAT.STEPPED

/-! Streams (R70 to R82). -/

/-- Position in 1/256 line of raster `n` counted from the boundary of frame `f` (R71, R74): each whole frame between has the LINES in force
in it (R39). -/
def State.posFrom (s : State) (n f : Nat) : Int :=
  let r := s.ras.get n
  let d := signed 32 (r.frame + 2 ^ 32 - f % 2 ^ 32)
  let old := match s.cfg.since.get n with
    | some b => clampI 0 (max 0 d) (signed 32 (b + 2 ^ 32 - f % 2 ^ 32))
    | none => 0
  (old * (s.linesFor n f : Nat) + (d - old) * (s.lines n : Nat)) * 256 + (r.line * 256 + s.frac n : Nat)

/-- Raster of a stream. -/
def State.strmRaster (s : State) (st : Nat) : Nat := s.fld F.RAS_STRM_CFG.RASTER st

/-- A class-S field of stream `st` for its frame `f` (R39). -/
def State.strmFld (s : State) (d : Fld) (st f : Nat) : Nat := s.fldFor (s.strmRaster st) f d st

/-- T(L) of stream frame `f` in 1/256 line, rounded to the nearest with ties upward (R70). -/
def State.target (s : State) (st f l : Nat) : Int :=
  ((s.strmFld F.RAS_STRM_TARGET.TARGET0 st f * 2 ^ 20 + l * s.strmFld F.RAS_STRM_RATIO.RATIO st f + 2 ^ 11) >>> 12 : Nat)

/-- Line count H of a stream, from its map entry (R74). -/
def State.height (s : State) (st : Nat) : Nat :=
  match s.mapOf st with
  | some (p, e) => s.fld F.ING_STRM_SIZE.HEIGHT p e
  | none => 0

/-- Line count H of stream frame `f` (R39, R74). -/
def State.heightFor (s : State) (st f : Nat) : Nat :=
  match s.mapOf st with
  | some (p, e) => s.fldFor (s.strmRaster st) f F.ING_STRM_SIZE.HEIGHT p e
  | none => 0

/-- Trigger mode of a stream (R72). -/
def State.trigMode (s : State) (st : Nat) : Nat := s.fld F.RAS_STRM_CFG.TRIG_MODE st

/-- The stream is locked (R76). -/
def State.locked (s : State) (st : Nat) : Bool := s.fld F.RAS_STRM_STAT.STATE st == 2

/-- Position of the next trigger: INIT for the first one after EN was set, else the skew loop's (R71, R75). -/
def State.trigPos (s : State) (st : Nat) : Int :=
  if (s.strm.get st).started then (s.strm.get st).pNext else s.sfld F.RAS_TRIG_INIT.INIT st

/-- The first multiple of DIV at or after frame count `f`; frame counts wrap (R63, R71). -/
def State.alignDiv (s : State) (st f : Nat) : Nat :=
  let div := max 1 (s.fld F.RAS_STRM_CFG.DIV st)
  let g := ceilDiv f div * div
  if g < 2 ^ 32 then g else 0

/-- The next trigger frame of a stream. -/
def State.nextTrigger (s : State) (st : Nat) : Nat := s.alignDiv st (s.strm.get st).nextF

/-- The first trigger frame whose position still lies ahead (R71): a multiple of DIV. -/
def State.firstTrigger (s : State) (st : Nat) : Nat :=
  let n := s.strmRaster st
  let cur : Int := ((s.ras.get n).line * 256 + s.frac n : Nat)
  let per : Int := (s.lines n * 256 : Nat)
  let need : Int := if per = 0 then 0 else (cur - s.trigPos st + per - 1) / per
  s.alignDiv st (((((s.ras.get n).frame : Nat) : Int) + need).toNat % 2 ^ 32)

/-- The raster starts or the stream is enabled: the trigger frames whose position lies in the past are skipped (R71). -/
def State.skipTriggers (st : Nat) (s : State) : State :=
  let f := s.firstTrigger st
  s.modStrm st (fun q => { q with nextF := f })

/-- A jump has shortened a frame: the trigger frames not yet issued whose position now lies in the past are skipped (R71). DESIGN CHOICE
(log entry 78): the same when a commit has changed DIV. -/
def State.skipAhead (st : Nat) (s : State) : State :=
  let f := s.firstTrigger st
  s.modStrm st (fun q => { q with nextF := if frameGt q.nextF f then q.nextF else f })

/-- Enabled streams that raster `n` times. -/
def State.streamsOf (s : State) (n : Nat) : List Nat :=
  (List.range 64).filter (fun st => s.flag F.RAS_STRM_CFG.EN st && s.strmRaster st == n)

/-- EN, TRIG_MODE or the raster of a stream has changed: the loop starts afresh (R71, R100). DESIGN CHOICE (log entry 78): IN_WIN and
UNLOCKED go to 0; RATIO_ERR, LOST, MISSED and MISS_CNT stay. -/
def State.streamReset (st : Nat) (s : State) : State :=
  let en := s.flag F.RAS_STRM_CFG.EN st
  let s := { s with strm := s.strm.set st {} }
  let s := s.setFld F.RAS_STRM_STAT.STATE (if ¬ en then 0 else if s.trigMode st = 0 then 3 else 1) st
  let s := (s.setFld F.RAS_STRM_STAT.IN_WIN 0 st).setFld F.RAS_STRM_STAT.UNLOCKED 0 st
  s.when (en && (s.ras.get (s.strmRaster st)).running) (·.skipTriggers st)

/-- Port block of a stream. -/
def State.portOf (s : State) (st : Nat) : Nat := ((s.mapOf st).getD (0, 0)).1

/-- A locked stream returns to acquiring (R77). -/
def State.loseLock (st : Nat) (s : State) : State :=
  (((s.pmuAdd 0x04C (s.portOf st)).setFld F.RAS_STRM_STAT.STATE 1 st).setFlag F.RAS_STRM_STAT.LOST true st).setFld F.RAS_STRM_STAT.IN_WIN 0 st
    |>.modStrm st (fun q => { q with outWin := 0 })

/-- Raster frame in which line H − 1 of a stream frame is due (R70). -/
def State.lineDueFrame (s : State) (st : Nat) (t : TrigFrame) : Nat :=
  let n := s.strmRaster st
  (t.frame + (s.target st t.frame (s.heightFor st t.frame - 1)).toNat / (256 * s.linesFor n t.frame)) % 2 ^ 32

/-- A raster frame of a stream frame's span is a jump frame (R79): from the frame in which its trigger was issued up to the frame in
which its line H − 1 is due. -/
def State.spansJump (s : State) (st : Nat) (t : TrigFrame) : Bool :=
  (s.ras.get (s.strmRaster st)).jumps.any (fun j => frameGe j t.issued && frameGe (s.lineDueFrame st t) j)

/-- A trigger frame is missed (R78): it counts, and without send its ratio is not measurable (R101). One that contains a jump counts
neither toward lock nor toward its loss (R79). -/
def State.missFrame (st : Nat) (t : TrigFrame) (s : State) : State :=
  let s := ((s.setFlag F.RAS_STRM_STAT.MISSED true st).count F.RAS_STRM_STAT.MISS_CNT st).pmuAdd 0x04D (s.portOf st)
  let s := s.setFld F.RAS_STRM_MEAS.RATIO_MEAS 0 st
  if s.spansJump st t then s else if s.locked st then s.loseLock st else s.setFld F.RAS_STRM_STAT.IN_WIN 0 st

/-- The raster has passed T(H − 1) + 64 lines of frame `f` of a stream (R78, R117). -/
def State.overdue (s : State) (st f : Nat) : Bool :=
  decide (s.target st f (s.heightFor st f - 1) + 64 * 256 ≤ s.posFrom (s.strmRaster st) f)

/-- A trigger frame leaves the stream's list. -/
def State.endTrig (st f : Nat) (s : State) : State :=
  s.modStrm st (fun q => { q with frames := q.frames.filter (fun t => t.frame != f) })

/-- The trigger frames whose line H − 1 has not arrived by T(H − 1) + 64 lines are missed (R78). One without an FS stays: an FS that still
comes before the next trigger starts its frame (R109). DESIGN CHOICE (log entry 78): a frame of a free-running stream is never missed. -/
def State.settleMissed (st : Nat) (s : State) : State :=
  if s.trigMode st = 0 then s
  else s.each ((s.strm.get st).frames.filter (fun t => !t.missed && s.overdue st t.frame)) (fun t s =>
    let s := s.missFrame st t
    if t.bound then s.endTrig st t.frame
    else s.modStrm st (fun q => { q with frames := q.frames.map (fun u => if u.frame = t.frame then { u with missed := true } else u) }))

/-- The stream feeds a class-0 or class-1 product (R82). -/
def State.feedsReserved (s : State) (st : Nat) : Bool := (s.consumers st).any (fun i => pdbClass (s.product i).pdb ≤ 1)

/-- Enter one trigger in a stream's frames: an earlier trigger that no FS has answered is missed, and ends (R78, R109); a trigger that is
not sent is missed. DESIGN CHOICE (log entry 78): UNLOCKED counts at the issue of each trigger of a stream that is not locked, and not
for the frames that R71 skips (R100). -/
def State.enterTrigger (st f : Nat) (p : Int) (sent : Bool) (s : State) : State :=
  let s := s.settleMissed st
  let s := s.each ((s.strm.get st).frames.filter (fun t => !t.bound)) (fun t s =>
    (s.when (!t.missed) (·.missFrame st t)).endTrig st t.frame)
  let s := s.when (!s.locked st) (·.count F.RAS_STRM_STAT.UNLOCKED st)
  let t : TrigFrame :=
    { frame := f, p := p, issued := (s.ras.get (s.strmRaster st)).frame, sent := sent, locked := s.locked st }
  if sent then s.modStrm st (fun q => { q with trigCnt := q.trigCnt + 1, frames := q.frames ++ [t] }) else s.missFrame st t

/-- Followers of a stream (R73). -/
def State.followers (s : State) (st : Nat) : List Nat :=
  (List.range 64).filter (fun q => s.flag F.RAS_STRM_CFG.EN q && s.trigMode q == 3 && s.fld F.RAS_STRM_CFG.OWNER q == st && q != st)

/-- A port runs with its link up (R72, R125). -/
def State.portUp (s : State) (p : Nat) : Bool :=
  s.flag F.ING_PORT_CTRL.RUN p && s.flag F.ING_PORT_STAT.LINK_UP p

/-- The trigger line of a stream: asserted now, with the polarity of TRIG_POL, and released after 1.0 µs (R72, R123). -/
def State.pulse (st port : Nat) (s : State) : State :=
  let line := if s.trigMode st = 1 then s.fld F.RAS_STRM_CFG.TRIG_IDX st else 0
  let q : Pulse := { port := port, line := line, rest := bit (s.fld F.ING_PORT_CTRL.TRIG_POL port) line, until_ := s.time.now + 1200 }
  ((s.pmuAdd 0x04A port).emit (q.level (!q.rest))).modTime (fun t => { t with
    pulses := t.pulses.filter (fun u => u.port != port || u.line != line) ++ [q] })

/-- The raster has reached the next trigger position of a triggered stream (R71). -/
def State.triggerDue (s : State) (st : Nat) : Bool :=
  s.flag F.RAS_STRM_CFG.EN st && (s.trigMode st == 1 || s.trigMode st == 2) && (s.ras.get (s.strmRaster st)).running
    && s.reached (s.strmRaster st) (s.nextTrigger st) (s.trigPos st)

/-- The trigger of a stream is issued (R71, R72, R540): it is sent while the port's link is up and Korlet is not in the safe state.
DESIGN CHOICE (log entry 78): one that is not sent is issued all the same, for p_last and for the first use of INIT. -/
def State.issueTrigger (st : Nat) (s : State) : State :=
  let f := s.nextTrigger st
  let p := s.trigPos st
  let port := (s.mapOf st).map (·.1)
  let up := match port with
    | some port => s.portUp port && !s.fcl.safe
    | none => false
  let s := if up then s.pulse st (port.getD 0) else s
  let s := s.setFld F.RAS_TRIG_POS.POS (unsigned 24 p) st
  let s := s.modStrm st (fun q => { q with started := true, pNext := p, nextF := (f + 1) % 2 ^ 32 })
  let s := s.enterTrigger st f p up
  s.each (s.followers st) (fun q s => s.enterTrigger q f p up)

/-- Triggers on the same uplink with a lower TRIG_IDX that are due as well, in TRIG_IDX order: they leave first (R72). -/
def State.coincident (s : State) (st : Nat) : List Nat :=
  (List.range (s.fld F.RAS_STRM_CFG.TRIG_IDX st)).flatMap (fun i => (List.range 64).filter (fun u =>
    s.trigMode st == 1 && s.trigMode u == 1 && s.fld F.RAS_STRM_CFG.TRIG_IDX u == i && (s.mapOf u).isSome
      && s.portOf u == s.portOf st && s.triggerDue u))

/-- TRIGGER: the raster reaches the trigger position of a triggered stream (R71, R72). -/
def State.trigger (st : Nat) (s : State) : State :=
  if s.triggerDue st then (s.each (s.coincident st) State.issueTrigger).issueTrigger st else s

/-- An FS of a stream's virtual channel arrives (R109): the frame it starts, when one does. The FS of a free-running owner stands for
the trigger of its followers (R73). -/
def State.bindFrame (st : Nat) (s : State) : State × Option TrigFrame :=
  if s.trigMode st == 0 then
    let f := (s.ras.get (s.strmRaster st)).frame
    let t : TrigFrame := { frame := f, issued := f, sent := true, locked := s.locked st, bound := true }
    let s := s.modStrm st (fun q => { q with frames := q.frames ++ [t] })
    (s.each (s.followers st) (fun q s => s.enterTrigger q f 0 true), some t)
  else match (s.strm.get st).frames.getLast? with
    | some t =>
      if t.bound then (s, none)
      else (s.modStrm st (fun q => { q with frames := q.frames.map (fun u => if u.frame = t.frame then { u with bound := true } else u) }),
            some { t with bound := true })
    | none => (s, none)

/-- Saturate to signed 16 bits (R101). -/
def sat16 (v : Int) : Nat := unsigned 16 (clampI (-32768) 32767 v)

/-- Quotient by `2 ^ k` rounded to the nearest, ties toward zero (R75). -/
def roundTz (v : Int) (k : Nat) : Int :=
  let h : Int := (2 ^ k / 2 : Nat)
  let d : Int := (2 ^ k : Nat)
  if k = 0 then v else if 0 ≤ v then (v + h - 1) / d else -((-v + h - 1) / d)

/-- The trigger position update of R75. -/
def State.stepTrigger (st : Nat) (t : TrigFrame) (sref : Int) (s : State) : State :=
  let est := t.p - sref
  let last := s.sfld F.RAS_TRIG_POS.POS st
  let step := clampI (-2048) 2048 (roundTz (est - last) (3 - s.fld F.RAS_STRM_CFG.GAIN st))
  s.modStrm st (fun q => { q with pNext := last + step })

/-- The outcome of a counted frame whose last line has arrived (R76, R77). -/
def State.windowOutcome (st : Nat) (sref : Option Int) (send : Int) (s : State) : State :=
  let ratioErr := s.flag F.RAS_STRM_STAT.RATIO_ERR st
  let inWin := match sref with
    | some r => decide (r.natAbs ≤ 256) && decide (send.natAbs ≤ 256) && !ratioErr
    | none => false
  let far := decide (1024 < send.natAbs) || match sref with
    | some r => decide (1024 < r.natAbs)
    | none => false
  let s := s.when inWin (·.pmuAdd 0x04B (s.portOf st))
  let s := s.setFld F.RAS_STRM_STAT.IN_WIN (if inWin then min 4 (s.fld F.RAS_STRM_STAT.IN_WIN st + 1) else 0) st
  if s.fld F.RAS_STRM_STAT.STATE st = 1 then
    if 4 ≤ s.fld F.RAS_STRM_STAT.IN_WIN st then
      ((s.setFld F.RAS_STRM_STAT.STATE 2 st).setFld F.RAS_STRM_STAT.UNLOCKED 0 st).modStrm st (fun q => { q with outWin := 0, episode := false })
    else s
  else if s.locked st then
    if far then s.loseLock st
    else if inWin then s.modStrm st (fun q => { q with outWin := 0 })
    else if (s.strm.get st).outWin = 1 then s.loseLock st
    else s.modStrm st (fun q => { q with outWin := 1 })
  else s

/-- Line REF_LINE of stream frame `t` has ended: its sref, and the trigger position's update (R74, R75, R79). -/
def State.refTimed (st : Nat) (t : TrigFrame) (sref : Int) (s : State) : State :=
  let s := s.setFld F.RAS_STRM_SKEW.SKEW_REF (sat16 sref) st
  let s := s.modStrm st (fun q => { q with
    frames := q.frames.map (fun u => if u.frame = t.frame then { u with sref := some sref } else u) })
  s.when ((s.trigMode st == 1 || s.trigMode st == 2) && !s.spansJump st t && !t.missed) (·.stepTrigger st t sref)

/-- RATIO_MEAS and RATIO_ERR of a frame (R80, R101). DESIGN CHOICE (log entry 78): the quotient is rounded to the nearest unit of Q4.20,
halves away from zero; a ratio that Q4.20 does not hold is taken modulo 2^24; RATIO_ERR of a frame without sref stays as it was. -/
def State.ratioTimed (st f h ref : Nat) (sref : Option Int) (send : Int) (s : State) : State :=
  match sref with
  | some r =>
    let m : Int := (s.strmFld F.RAS_STRM_RATIO.RATIO st f : Nat) + roundDiv ((send - r) * 4096) (h - 1 - ref)
    (s.setFlag F.RAS_STRM_STAT.RATIO_ERR (decide (256 < (send - r).natAbs)) st).setFld F.RAS_STRM_MEAS.RATIO_MEAS
      (if h - 1 = ref then 0 else unsigned 24 m) st
  | none => s.setFld F.RAS_STRM_MEAS.RATIO_MEAS 0 st

/-- Line `l` of the stream frame `f` has ended at position `a` (R74 to R80): skews, the loop, the measured ratio, lock. A line H − 1 later
than T(H − 1) + 64 lines belongs to a missed frame (R78). -/
def State.lineTimed (st f l : Nat) (a : Int) (s : State) : State :=
  match (s.strm.get st).frames.find? (fun t => t.frame == f && t.bound) with
  | none => s
  | some t =>
    let skew := a - s.target st f l
    let ref := s.strmFld F.RAS_STRM_TARGET.REF_LINE st f
    let h := s.heightFor st f
    let s := if l = ref then s.refTimed st t skew else s
    if l + 1 = h then
      let sref := if l = ref then some skew else t.sref
      let s := (s.setFld F.RAS_STRM_SKEW.SKEW_END (sat16 skew) st).ratioTimed st f h ref sref skew
      let s := s.endTrig st f
      if t.missed ∨ s.trigMode st = 0 then s
      else if 64 * 256 < skew then s.missFrame st t
      else s.when (!s.spansJump st t) (·.windowOutcome st sref skew)
    else s

/-- Stream frame `f` has closed (R78, R117): it ends when it is missed; a frame without line H − 1 waits for its limit. -/
def State.trigClosed (st f : Nat) (s : State) : State :=
  let s := s.settleMissed st
  s.modStrm st (fun q => { q with frames := q.frames.filter (fun u => u.frame != f || !(u.missed || s.trigMode st == 0)) })

/-- A trigger frame of the free-running streams on raster `n` begins: they are never locked, so it counts (R70, R73, R100). -/
def State.freeFrames (n : Nat) (s : State) : State :=
  s.each ((s.streamsOf n).filter (fun st => s.trigMode st == 0 && (s.ras.get n).frame % max 1 (s.fld F.RAS_STRM_CFG.DIV st) == 0))
    (fun st s => s.count F.RAS_STRM_STAT.UNLOCKED st)

/-- More than UNLOCK_LIM successive trigger frames without lock, on a stream that feeds a class-0 or class-1 product (R82). -/
def State.unlockLimit (st : Nat) (s : State) : State :=
  if s.flag F.RAS_STRM_CFG.EN st ∧ ¬ s.locked st ∧ s.feedsReserved st ∧ ¬ (s.strm.get st).episode
      ∧ s.fld F.RAS_STRM_CFG.UNLOCK_LIM st < s.fld F.RAS_STRM_STAT.UNLOCKED st then
    (s.modStrm st (fun q => { q with episode := true })).raise 20 st
  else s

/-! Rasters (R60, R61, R67). -/

/-- Record a frame boundary (R69). -/
def State.boundaryRecord (n : Nat) (s : State) : State :=
  s.modRas n (fun r => { r with hist := ({ frame := r.frame, tod := s.time.tod, peff := s.peff n } :: r.hist).take 256 })

/-- The line period of the frame that has begun is settled: the record takes it (R69). -/
def State.recordPeff (n : Nat) (s : State) : State :=
  s.modRas n (fun r => { r with hist := match r.hist with
    | b :: l => { b with peff := s.peff n } :: l
    | [] => [] })

/-- The alignment of a raster: PERIOD_MS in ns, FRAMES, PHASE_NS. -/
def State.alignNs (s : State) (n : Nat) : Nat := s.fld F.RAS_ALIGN.PERIOD_MS n * 1000000

/-- Frame count with which a raster starts at the present TOD (R61). -/
def State.startFrame (s : State) (n : Nat) : Nat :=
  let fr := s.fld F.RAS_ALIGN.FRAMES n
  let per := s.alignNs n
  if fr = 0 ∨ per = 0 then 0
  else
    let t : Int := (s.time.tod : Int) - (s.fld F.RAS_PHASE.PHASE_NS n : Nat)
    let k := t / per
    let j := (t - k * per) * fr / per
    ((k * fr + j) % (2 ^ 32 : Nat)).toNat

/-- Frame count at an alignment instant (R61). -/
def State.alignedFrame (s : State) (n : Nat) : Nat :=
  let per := s.alignNs n
  if per = 0 then 0 else
  ((((s.time.tod : Int) - (s.fld F.RAS_PHASE.PHASE_NS n : Nat)) / per * s.fld F.RAS_ALIGN.FRAMES n) % (2 ^ 32 : Nat)).toNat

/-- TOD is an alignment instant of a raster (R61, R67). -/
def State.atAlign (s : State) (n : Nat) : Bool :=
  s.alignNs n != 0 && ((s.time.tod : Int) - (s.fld F.RAS_PHASE.PHASE_NS n : Nat)) % (s.alignNs n : Int) == 0

/-- Begin a jump of `j` (2^-32 cycles, positive to shorten) in the frame that begins now: whole lines at its end, and the length of its
last line; the frame keeps between 50 % and 150 % of its length (R67). -/
def State.beginJump (n : Nat) (j : Int) (s : State) : State :=
  let p : Int := (s.peff n : Nat)
  let lines := s.lines n
  let half := p * (lines : Int) / 2
  let now := clampI (-half) half j
  if now = 0 ∨ p = 0 then s.modRas n (fun r => { r with jumpCarry := 0 })
  else
    let cnt : Nat := (now.natAbs : Int) / p |>.toNat
    let cnt := if now < 0 then min cnt (65536 - lines) else cnt
    let rest : Int := (now.natAbs : Int) - (cnt : Int) * p
    let spent := decide (now < 0) && decide (p ≤ rest)
    let s := s.modRas n (fun r => { r with
      jumping := true
      jumpLines := if 0 < now then -(cnt : Int) else cnt
      jumpAt := if 0 < now then lines - 1 - cnt else if spent then lines - 1 + cnt else lines - 1
      jumpCyc := if 0 < now then -rest else rest
      jumpCarry := j - now
      jumps := (r.frame :: r.jumps).take 256 })
    s.setFlag F.RAS_POS.JUMPED true n

/-- The phase alignment of the frame that begins (R67), under the generation that its boundary made active; a raster that stops here gets
its phase error measured and no correction. -/
def State.phaseAlign (n : Nat) (stop : Bool) (s : State) : State :=
  let fr := s.fld F.RAS_ALIGN.FRAMES n
  let per := s.alignNs n
  let r := s.ras.get n
  let jumps := s.fld F.RAS_CTRL.ALIGN_MODE n = 1
  let s := s.modRas n (fun r => { r with
    jumping := false, jumpLines := 0, jumpCyc := 0, jumpCarry := if jumps then r.jumpCarry else 0 })
  if fr = 0 ∨ per = 0 ∨ s.follows n then s.modRas n (fun r => { r with slew := 0, jumpCarry := 0 })
  else if r.frame % fr = 0 then
    let t : Int := (s.time.tod : Int) - (s.fld F.RAS_PHASE.PHASE_NS n : Nat)
    let er : Int := -(nearestErr (t % per).toNat per)
    let s := s.setFlag F.RAS_POS.PH_LOCK (decide (er.natAbs ≤ 1000)) n
    if stop then s
    else if jumps then (s.modRas n (fun r => { r with slew := 0 })).beginJump n (er * 6 * (2 ^ 32 : Nat) / 5)
    else
      let lim : Int := (s.fld F.RAS_CTRL.SLEW_MAX n * 2 ^ 64 / 1000000 : Nat)
      s.modRas n (fun r => { r with slew := clampI (-lim) lim (er * (2 ^ 64 : Nat) / (2 * per : Nat)) })
  else if jumps ∧ r.jumpCarry ≠ 0 ∧ ¬ stop then s.beginJump n r.jumpCarry
  else s

/-- The commit of the present boundary of raster `n` has written the class-S fields of RAS_STRM_CFG of stream `st`. -/
def State.cfgSwitched (s : State) (n st : Nat) : Bool :=
  s.cfg.since.get n == some (s.ras.get n).frame && (s.cfg.old.get n).any (fun w => w.reg == ⟨.RAS_STRM_CFG, st, 0⟩)

/-- The frame that begins is aligned, and its line period recorded (R67, R69); after a frame that a jump shortened, the trigger frames left
behind are skipped (R71). -/
def State.alignFrame (n : Nat) (stop jumped : Bool) (s : State) : State :=
  let s := (s.phaseAlign n stop).recordPeff n
  s.each ((s.streamsOf n).filter (fun st => jumped || s.cfgSwitched n st)) State.skipAhead

/-- Raster `n` starts at line 0 of frame `f` (R61): it is a frame boundary, whose events the caller lets act. -/
def State.rasterBegin (n f : Nat) (s : State) : State :=
  let s := s.modRas n (fun r => { hist := r.hist, latch := r.latch, running := true, frame := f % 2 ^ 32 })
  let s := s.modCfg (fun c => { c with since := c.since.set n none, old := c.old.set n [] })
  (s.setFlag F.RAS_POS.PH_LOCK false n).boundaryRecord n

/-- The present line is the last one of its frame (R60, R67). -/
def State.lastLine (s : State) (n : Nat) : Bool :=
  let r := s.ras.get n
  (s.lines n : Int) - 1 + (if r.jumping then r.jumpLines else 0) ≤ (r.line : Int)

/-- The accumulated cycles have reached the end of the present line of a running raster (R60). -/
def State.lineDue (s : State) (n : Nat) : Bool := (s.ras.get n).running && decide (s.lineLen n ≤ (s.ras.get n).acc)

/-- Advance the position of a running raster to the next line; the accumulator keeps the remainder (R60, R67). -/
def State.advanceLine (n : Nat) (s : State) : State :=
  let len := s.lineLen n
  if s.lastLine n then
    (s.modRas n (fun r => { r with acc := r.acc - len, line := 0, frame := (r.frame + 1) % 2 ^ 32 })).boundaryRecord n
  else s.modRas n (fun r => { r with acc := r.acc - len, line := r.line + 1 })

/-- The raster stops at the frame boundary it has reached (R61). -/
def State.rasterHalt (n : Nat) (s : State) : State := s.modRas n (fun r => { r with running := false, acc := 0 })

/-- CRC-8 of a sync word's bits 47:8 (R50). -/
def syncCrc (w : Nat) : Nat := crc8 (beBytes 5 (w / 256))

/-- Sync word for a frame (R50). -/
def syncWord (frame : Nat) : Nat :=
  let w := 1 <<< 44 + (frame % 2 ^ 32) <<< 12
  w + syncCrc w

end Sys2Proof.Machine
end

