-- ==== Sys2Proof/Machine/Frames.lean ====
section
/-!
DEFINITION. Machine/Frames.lean: product frames: the tiles they are cut into, the source lines each tile reads, how a product loses
a line or a frame (R14, R168, R187 to R189, R264), and when a frame reaches its end (R48, R209).
-/
namespace Sys2Proof.Machine

/-- Footprint of tile row `r` on branch `i`, clipped to a source of `h` lines (R188); the last line lies before the first one where it is
empty. -/
def rowFoot (pdb area : List Byte) (i r h : Nat) : Nat × Nat :=
  (branchFootIn pdb area i h (r * pdbRowH pdb) (min (pdbOutH pdb) ((r + 1) * pdbRowH pdb) - 1)).getD (1, 0)

/-- Line `l` lies in the footprint of tile row `r` on branch `i`. -/
def rowReads (pdb area : List Byte) (i r h l : Nat) : Bool :=
  decide ((rowFoot pdb area i r h).1 ≤ l) && decide (l ≤ (rowFoot pdb area i r h).2)

/-- Line `l` of stream `st` lies in the footprint of some tile row from `r0` on (R14). -/
def rowsNeed (pdb area : List Byte) (st h l r0 : Nat) : Bool :=
  (List.range (pdbNbr pdb)).any (fun i => pdbBrStream pdb i == st &&
    (List.range (pdbRows pdb)).any (fun r => r0 ≤ r && rowReads pdb area i r h l))

/-- The stream frame `(st, f)` is open on some map entry (R117). -/
def State.frameOpen (s : State) (st f : Nat) : Bool :=
  s.ports.cells.any (fun c => c.2.opens.cells.any (fun o => match o.2 with
    | some q => q.stream == st && q.frame == f
    | none => false))

/-- The stream frame `(st, f)` has closed, or a later one of the stream has opened (R117, R189). -/
def State.frameClosed (s : State) (st f : Nat) : Bool :=
  match (s.strm.get st).lastOpen with
  | some l => frameGe l f && !s.frameOpen st f
  | none => false

/-- The branches of a slow product differ in source raster or DIV (R296): its branches after the first are read from stitch stages. -/
def State.hasStitch (s : State) (pdb : List Byte) : Bool :=
  !pdbFast pdb && (pdbStreams pdb).any (fun st =>
    s.strmRaster st != s.strmRaster (pdbSrc0 pdb) || s.fld F.RAS_STRM_CFG.DIV st != s.fld F.RAS_STRM_CFG.DIV (pdbSrc0 pdb))

/-- Branches whose source a tile reads from the pool. -/
def State.poolBranches (s : State) (pdb : List Byte) : List Nat :=
  if s.hasStitch pdb then [0] else List.range (pdbNbr pdb)

/-- Source frame of stream `st` for a product frame (R264): the same FRAME for branch 0's source and for fast products, else the one
already taken or the latest one not after it that has opened. -/
def State.srcFrame (s : State) (q : PFrame) (st : Nat) : Option Nat :=
  if st = pdbSrc0 q.pdb ∨ pdbFast q.pdb then some q.frame
  else if s.hasStitch q.pdb then none
  else match q.srcs.find? (fun u => u.1 == st) with
    | some u => some u.2
    | none => (s.strm.get st).opened.find? (fun l => frameGe q.frame l)

/-- Source frame that branch `b` contributes to a product frame: of a stitched branch the frame of its stage (R264, R296). -/
def State.branchFrame (s : State) (q : PFrame) (b : Nat) : Option Nat :=
  if s.hasStitch q.pdb ∧ b ≠ 0 then (q.stages.find? (fun u => u.branch == b)).map (·.frame) else s.srcFrame q (pdbBrStream q.pdb b)

/-- Product frames that read the stream frame `(st, f)` and still produce. -/
def State.readers (s : State) (st f : Nat) : List (Nat × PFrame) :=
  s.products.flatMap (fun i => ((s.product i).frames.filter (fun q =>
    !q.dead && !q.ended && (pdbStreams q.pdb).any (· == st) && s.srcFrame q st == some f)).map (fun q => (i, q)))

/-- Lines of the raw stream frame `(st, f)`: the clip of footprints. -/
def State.srcH (s : State) (st f : Nat) : Nat := max 1 (s.heightFor st f)

/-- Products that hold line `l` of `(st, f)` when it is published: those with a tile still to emit that reads it (R14, R163). -/
def State.lineHolders (s : State) (st f l : Nat) : List Nat :=
  ((s.readers st f).filter (fun r => rowsNeed r.2.pdb r.2.area st (s.srcH st f) l (r.2.next / max 1 (pdbCols r.2.pdb)))).map (·.1)
    |>.eraseDups

/-- Bytes that some branches of a product read of a line of `n` bytes (R140): of each segment the window of a CROP at the branch's start,
else all; `w` and `e` are the pixels and the exposures of the line, `px` the bytes of a pixel. -/
def readRanges (pdb : List Byte) (brs : List Nat) (n w e px : Nat) : List (Nat × Nat) :=
  joinRanges (brs.flatMap (fun i =>
    let d := pdbOp pdb (pdbBrFirst pdb i)
    if opCode d = 0x01 then (List.range e).map (fun k =>
      (min n ((k * w + dfld d 4 15 0) * px), min n ((k * w + dfld d 4 15 0 + dfld d 8 15 0) * px)))
    else [(0, n)]))

/-- Slow products whose stitched branches take the lines of a stream (R296). -/
def State.stitchers (s : State) (st : Nat) : List Nat :=
  s.products.filter (fun i => 2 ≤ s.prdSt i && s.hasStitch (s.product i).pdb
    && (List.range (pdbNbr (s.product i).pdb)).any (fun b => b != 0 && pdbBrStream (s.product i).pdb b == st))

/-- Enter a line into the ledger for each slow product that holds it (R140). A stitched branch reads a line as a whole when it is
published. -/
def State.ledgerFor (d : Nat) (s : State) : State :=
  match s.line d with
  | none => s
  | some l =>
    let n := l.data.length
    let px := match s.mapOf l.owner with
      | some (p, e) => dtSamples (s.fld F.ING_MAP.DT p e) * dtContainer (s.fld F.ING_MAP.DT p e)
      | none => 1
    let entries := (l.holders.filter (fun i => !pdbFast (s.product i).pdb)).map (fun i =>
      let pdb := (s.product i).pdb
      let brs := (s.poolBranches pdb).filter (fun b => pdbBrStream pdb b == l.owner)
      let e : LedgerEnt := { line := d, prd := i, st := l.owner, frame := l.frame, lineNo := l.line, n := n }
      if brs.isEmpty then { e with ranges := [(0, n)], frags := [fragOf l.data 0 n] }
      else { e with ranges := readRanges pdb brs n (bits l.size 15 0) (bits l.fmt 27 26 + 1) px })
    s.modSeals (fun q => { q with ledger := q.ledger ++ entries })

/-! Losing lines and frames. -/

/-- A product frame is dropped by class (R14): DROPPED counts it, and a host product reports it with a cause of R403. -/
def State.dropByClass (i f : Nat) (s : State) (cause : Nat := 2) : State × List Note :=
  match s.pframe i f with
  | some q =>
    if q.dead then (s, [])
    else
      let b := s.abandonBuf i f
      let s := (b.1.killFrame i f false).setFld F.PRD_COST.DROPPED ((b.1.fld F.PRD_COST.DROPPED i + 1) % 256) i
      (s, b.2 ++ s.frameLoss i f cause)
  | none => (s, [])

/-- A product frame is marked invalid: every line from here on carries FRAME_INVALID (R278). -/
def State.markInvalid (i f : Nat) (s : State) : State := s.modPFrame i f (fun q => { q with invalid := true })

/-- A slow product loses a source line of `(st, f)` (R14, R168): class 0 and 1 mark the product frame invalid, class 2 and 3 drop it. -/
def State.loseLine (i st f : Nat) (s : State) : State × List Note :=
  ((s.readers st f).filter (fun r => r.1 == i)).foldl (fun p r =>
    if pdbClass r.2.pdb ≤ 1 then (p.1.markInvalid i r.2.frame, p.2)
    else let q := p.1.dropByClass i r.2.frame
         (q.1, p.2 ++ q.2)) (s, [])

/-! Frame ends (R48, R209). -/

/-- The tile former closes a product frame when every source frame of it has closed and its last tile is emitted, at once when the
product is retired or the frame is dead (R209). -/
def State.closeIfDone (i f : Nat) (s : State) : State :=
  match s.pframe i f with
  | none => s
  | some q =>
    let srcs := (pdbStreams q.pdb).all (fun st => match s.srcFrame q st with
      | some g => s.frameClosed st g
      | none => true)
    if q.closed then s
    else if q.dead || s.prdSt i == 3 || (srcs && pdbTiles q.pdb ≤ q.next) then s.modPFrame i f (fun q => { q with closed := true }) else s

end Sys2Proof.Machine
end

