-- ==== Sys2Proof/Machine/Lines.lean ====
section
/-!
DEFINITION. Machine/Lines.lean: raw lines between ingress and the tile former: the format of a stream frame, where a line finds room
(R164 to R168, R171), substitutes (R119 to R121, R158, R169), and publication (R104).
-/
namespace Sys2Proof.Machine

/-! Format of a stream frame: the ING fields in force when it began (R39, R130 to R132). -/

def OpenFrame.width (o : OpenFrame) : Nat := bits o.size 15 0
def OpenFrame.height (o : OpenFrame) : Nat := bits o.size 31 16
def OpenFrame.exposures (o : OpenFrame) : Nat := bits o.fmt 27 26 + 1
def OpenFrame.policy (o : OpenFrame) : Nat := bits o.fmt 25 24
def OpenFrame.repDist (o : OpenFrame) : Nat := repDistOf (bits o.fmt 23 22)
def OpenFrame.lsNum (o : OpenFrame) : Bool := bit o.fmt 21
def OpenFrame.fill (o : OpenFrame) : Nat := bits o.len 31 16
def OpenFrame.lineBytes (o : OpenFrame) : Nat := bits o.len 15 0
/-- Stored bytes of a line of the frame (R107). -/
def OpenFrame.stored (o : OpenFrame) : Nat := storedBytes o.dt o.width o.exposures
/-- Granules of a line of the frame (R155). -/
def OpenFrame.g (o : OpenFrame) : Nat := ceilDiv o.stored 1024

/-- Bytes of one stored FILL sample (R119). -/
def fillSample (dt fill : Nat) : List Byte := match dtContainer dt with
  | 1 => leBytes 1 fill
  | 2 => leBytes 2 fill
  | _ => leBytes 4 (fill <<< 8)

/-- A line of FILL throughout (R119). -/
def OpenFrame.fillLine (o : OpenFrame) : List Byte :=
  (List.replicate (o.stored / dtContainer o.dt) (fillSample o.dt o.fill)).flatten

/-- The open frame of map entry `(p, e)`. -/
def State.openAt (s : State) (p e : Nat) : Option OpenFrame := (s.ports.get p).opens.get e

/-- Change the open frame of map entry `(p, e)`. -/
def State.modOpen (p e : Nat) (f : OpenFrame → OpenFrame) (s : State) : State :=
  s.modPort p (fun q => { q with opens := q.opens.upd e (·.map f) })

/-- Frame `f` of the entry's stream under the values in force for it (R39), with the lock state at its trigger (R111) and what its
substitutes before its FS or after its close have left (R121). -/
def State.newFrame (s : State) (p e f : Nat) : OpenFrame :=
  let st := s.fld F.ING_MAP.STREAM p e
  let q := s.strm.get st
  let x := s.asOf (s.strmRaster st) f
  { stream := st, frame := f, vc := s.fld F.ING_MAP.VC p e, fmt := x.rd .ING_STRM_FMT p e, size := x.rd .ING_STRM_SIZE p e
    len := x.rd .ING_STRM_LEN p e, dt := s.fld F.ING_MAP.DT p e, gen := s.fld F.CFG_STATE.GEN (s.streamGroup st)
    locked := match q.frames.find? (fun t => t.frame == f) with
      | some t => t.locked
      | none => match q.closed with
        | some c => if c.frame = f then c.locked else s.locked st
        | none => s.locked st
    invalid := q.closed.any (fun c => c.frame == f && c.invalid)
    subst := (q.substs.filter (fun u => u.1 == f)).map (·.2) }

/-- Format of stream frame `(st, f)`: of the open frame, else the values in force. -/
def State.frameFmt (s : State) (st f : Nat) : OpenFrame :=
  match s.mapOf st with
  | some (p, e) => match s.openAt p e with
    | some o => if o.frame = f then o else s.newFrame p e f
    | none => s.newFrame p e f
  | none => {}

/-- An open frame is marked invalid; INVALID counts it once (R114, R117, R121, R133). -/
def State.invalidateOpen (p e : Nat) (s : State) : State :=
  match s.openAt p e with
  | some o => if o.invalid then s else
    (s.modOpen p e (fun o => { o with invalid := true })).count F.ING_STRM_FCNT.INVALID p e
  | none => s

/-- More than 64 lines of an open frame have been substituted (R121). -/
def State.limitSubst (p e : Nat) (s : State) : State :=
  match s.openAt p e with
  | some o => s.when (decide (64 < o.subst.length)) (·.invalidateOpen p e)
  | none => s

/-- Line `l` of `(st, f)` has been substituted (R121, R133): it counts once, and the 65th marks an open frame invalid. Of a frame that is
not open the stream keeps the line. -/
def State.noteSubst (st f l : Nat) (s : State) : State :=
  match s.mapOf st with
  | none => s
  | some (p, e) =>
    let o := s.frameFmt st f
    if o.subst.any (· == l) then s
    else
      let s := (s.count F.ING_STRM_CNT.SUBST p e).pmuAdd 0x048 p
      if (s.openAt p e).any (fun o => o.frame == f) then (s.modOpen p e (fun o => { o with subst := l :: o.subst })).limitSubst p e
      else s.modStrm st (fun q => { q with substs := ((f, l) :: q.substs).take 131072 })

/-! Directory. -/

/-- Directory entry of raw line `l` of `(st, f)` as ingress stored it. -/
def State.rawLine (s : State) (st f l : Nat) : Option Nat :=
  (s.dirLines.find? (fun c => c.2.kind == .raw && !c.2.tfSub && c.2.owner == st && c.2.frame == f && c.2.line == l)).map (·.1)

/-- Directory entry of the tile former's substitute for line `l` of `(st, f)` (R158). -/
def State.subLine (s : State) (st f l : Nat) : Option Nat :=
  (s.dirLines.find? (fun c => c.2.kind == .raw && c.2.tfSub && c.2.owner == st && c.2.frame == f && c.2.line == l)).map (·.1)

/-- Peak of a class's overflow use (R182). -/
def State.notePeak (c : Nat) (s : State) : State :=
  s.setFld F.POOL_OVF_USE.PEAK (max (s.fld F.POOL_OVF_USE.PEAK c) (s.ovfUse c)) c

/-- Put a line into the lowest free directory entry; none is left when all are in use. -/
def State.putLine (l : PLine) (s : State) : State × Option Nat :=
  match s.freeEntry with
  | some d =>
    let s := s.modPool (fun p => { p with dir := p.dir.set d (some l) })
    (match l.zone with
      | .ovf c => s.notePeak c
      | .resv => s, some d)
  | none => (s, none)

/-- The stamp of a line of stream frame `o` that arrives now (R110, R112): position, seal, origin. -/
def State.stamp (s : State) (p : Nat) (o : OpenFrame) (l flags : Nat) (data : List Byte) : PLine :=
  let n := s.strmRaster o.stream
  let r := s.ras.get n
  { kind := .raw, owner := o.stream, frame := o.frame, line := l, flags := flags, data := data
    sealVal := lineSeal o.stream 0xFF o.frame l data, arrFrame := r.frame, arrLine := r.line, arrFrac := s.frac n, raster := n
    sensorFn := o.sensorFn, port := p, vc := o.vc, fmt := o.fmt, size := o.size, ready := true, ingHold := true }

/-! Room (R164 to R167). -/

/-- A claim of `g` granules at class `c` is admitted to the overflow zone by the writer's view, the last broadcast word (R167). -/
def State.admitLine (s : State) (c g : Nat) : Bool :=
  let f := s.fld F.POOL_OCC0.OVF_FREE
  let dir := s.fld F.POOL_OCC1.DIR_FREE
  if c ≤ 1 then g ≤ f && 1 ≤ dir
  else
    let cap := s.fld F.POOL_OVF_CLS.CAP c
    s.fld F.POOL_OVF_CLS.THR c + g ≤ f && (cap == 0 || (if c = 2 then s.pool.occ2 else s.pool.occ3) + g ≤ cap) && 64 ≤ dir

/-- Room of a stream's reservation (R162). -/
def State.resvRoom (s : State) (st g : Nat) : Bool := s.resvUse .raw st + g ≤ s.fld F.POOL_RESV.GRANULES st

/-- Products that still hold a line, ledger entries included (R157). -/
def State.holdersOf (s : State) (d : Nat) (l : PLine) : List Nat :=
  l.holders ++ (s.seals.ledger.filter (fun e => e.line == d && !e.output)).map (·.prd)

/-- A line of a reservation that only slow consumers of class 2 or 3 hold may migrate (R166, R171). -/
def State.mayMigrate (s : State) (st d : Nat) (l : PLine) : Bool :=
  l.kind == .raw && l.owner == st && l.zone == .resv && l.published && !l.ingHold && l.charge != 0
    && (s.holdersOf d l).all (fun i => 2 ≤ pdbClass (s.product i).pdb)

/-- The older of two lines of one stream. -/
def olderLine (a b : Nat × PLine) : Nat × PLine :=
  if a.2.frame = b.2.frame then (if a.2.line ≤ b.2.line then a else b) else if frameGt b.2.frame a.2.frame then a else b

/-- The oldest element of a list of lines. -/
def oldestLine : List (Nat × PLine) → Option (Nat × PLine)
  | [] => none
  | a :: r => some (r.foldl olderLine a)

/-- Migrate one line (R171): charged to the overflow zone at the lowest class that still holds it, or lost by its holders. -/
def State.migrate (d : Nat) (l : PLine) (s : State) : State × List Note :=
  let hs := s.holdersOf d l
  let c := hs.foldl (fun c i => min c (pdbClass (s.product i).pdb)) 3
  if s.admitLine c l.charge ∧ l.charge ≤ s.ovfFree then
    (((s.modLine d (fun l => { l with zone := .ovf c })).notePeak c).pmuAdd 0x084 l.owner 1 (some c), [])
  else
    let q := hs.eraseDups.foldl (fun (q : State × List Note) i =>
      let r := q.1.loseLine i l.owner l.frame
      (r.1.release d i, q.2 ++ r.2)) (s, [])
    let s := (q.1.modSeals (fun t => { t with ledger := t.ledger.filter (fun e => e.line != d || e.output) })).settle d
    (((s.setFlag F.POOL_STAT.MIG_LOSS).count F.POOL_RESV_CNT.MIG_LOSS l.owner).pmuAdd 0x085 l.owner, q.2)

/-- Migrate lines, oldest first, until the reservation has room (R166 step 2). -/
def State.migrateFor : Nat → Nat → Nat → State → State × List Note
  | 0, _, _, s => (s, [])
  | k + 1, st, g, s =>
    if s.resvRoom st g then (s, [])
    else match oldestLine (s.dirLines.filter (fun c => s.mayMigrate st c.1 c.2)) with
      | none => (s, [])
      | some (d, l) =>
        let q := s.migrate d l
        let r := State.migrateFor k st g q.1
        (r.1, q.2 ++ r.2)

/-- Where an arriving line of `g` granules goes (R166): a zone with its granules, or refused, late or not. -/
inductive Place where
  | room (zone : Zone) (grans : List Nat)
  | refused (late : Bool)
  deriving DecidableEq, Repr

/-- Claim at the allocator for a line of stream `st` at port `p`: the granules follow the port's last bank (R155). -/
def State.claimPort (p st g : Nat) (zone : Zone) (s : State) : State × Place :=
  match s.claim g (s.ports.get p).bank, s.freeEntry with
  | some (gr, b), some _ =>
    let s := s.modPort p (fun q => { q with bank := b })
    (match zone with
      | .resv => s.pmuAdd 0x080 st
      | .ovf c => s.pmuAdd 0x081 st 1 (some c), .room zone gr)
  | _, _ => (s, .refused (zone != .resv))

/-- Place a raw line of stream `st` (R166): reservation, migration, overflow, refusal. -/
def State.place (p st g : Nat) (s : State) : State × Place × List Note :=
  let m := s.migrateFor 16384 st g
  let s := m.1
  if s.resvRoom st g then let r := s.claimPort p st g .resv
                          (r.1, r.2, m.2)
  else
    let c := s.streamClass st
    if s.admitLine c g then
      if g ≤ s.ovfFree then let r := s.claimPort p st g (.ovf c)
                            (r.1, r.2, m.2)
      else (s, .refused true, m.2)
    else (s, .refused false, m.2)

/-! Substitutes of the tile former (R119, R158, R168, R169). -/

/-- The tile former substitutes line `l` of `(st, f)` for fast product `i`: a copy of line L − REP_DIST when that was received intact,
else FILL. One substitute serves every product. Without a directory entry the strip uses FILL. -/
def State.tfSubstitute (st f l i : Nat) (s : State) : State :=
  match s.subLine st f l with
  | some d => s.modLine d (fun q => { q with holders := if q.holders.any (· == i) then q.holders else i :: q.holders })
  | none =>
    let o := s.frameFmt st f
    let s := s.noteSubst st f l
    let src := if l < o.repDist then none
      else (s.rawLine st f (l - o.repDist)).bind (fun d => (s.line d).filter (fun q => q.intact))
    let port := match s.mapOf st with
      | some (p, _) => p
      | none => 0
    let base := 2 + 8 * b2n (s.frameFmt st f).invalid + 16 * b2n (!o.locked)
    let q := match src with
      | some c => { s.stamp port o l base c.data with shares := true, grans := c.grans }
      | none => { s.stamp port o l (base + 4) o.fillLine with fill := true }
    let r := s.putLine { q with tfSub := true, ingHold := false, published := true, holders := [i] }
    match r.2 with
    | some _ => r.1
    | none => (r.1.setFlag F.POOL_STAT.DIR_EXHAUST).pmuAdd 0x089 st

/-! Publication (R104). -/

/-- Ingress no longer holds line `l` of `(st, f)` (R119). -/
def State.dropHold (st f l : Nat) (s : State) : State :=
  match s.rawLine st f l with
  | some d => (s.modLine d (fun q => { q with ingHold := false })).settle d
  | none => s

/-- The branches that read a stitch stage take the line (R296). -/
def State.stitchTake (l : PLine) (s : State) : State :=
  s.each (s.stitchers l.owner) (fun i s =>
    let pdb := (s.product i).pdb
    s.each ((List.range (pdbNbr pdb)).filter (fun b => b != 0 && pdbBrStream pdb b == l.owner)) (fun b s =>
      let k : StageLine := { line := l.line, flags := l.flags, data := l.data }
      s.modProduct i (fun p => { p with stageIn := p.stageIn.upd b (fun o => match o with
        | some q => if q.frame = l.frame then some { q with lines := q.lines ++ [k] } else some { frame := l.frame, lines := [k] }
        | none => some { frame := l.frame, lines := [k] }) })))

/-- Publish the line of directory entry `d`: its holders, its ledger entries; ingress lets go of line L − REP_DIST. -/
def State.publish (d : Nat) (s : State) : State :=
  match s.line d with
  | none => s
  | some l =>
    let hs := (s.lineHolders l.owner l.frame l.line ++ s.stitchers l.owner).eraseDups
    let s := (s.modLine d (fun q => { q with published := true, pendingSub := false, holders := hs })).ledgerFor d
    let s := (s.pmuAdd 0x042 l.port).stitchTake l
    let dist := repDistOf (bits l.fmt 23 22)
    let s := s.when (decide (dist ≤ l.line)) (·.dropHold l.owner l.frame (l.line - dist))
    s.settle d

/-- Publish the lines of stream `st` that are complete, in line order, up to the first that is not (R104). -/
def State.publishStream : Nat → Nat → State → State
  | 0, _, s => s
  | k + 1, st, s =>
    match oldestLine (s.dirLines.filter (fun c => c.2.kind == .raw && !c.2.tfSub && c.2.owner == st && !c.2.published)) with
    | some (d, l) => if l.ready && !l.pendingSub then State.publishStream k st (s.publish d) else s
    | none => s

/-- Publish what can be published of stream `st`. -/
def State.publishAll (st : Nat) (s : State) : State := State.publishStream 16384 st s

/-! Storing and refusing. -/

/-- A raw line is refused (R168). -/
def State.refuse (p e : Nat) (o : OpenFrame) (l : Nat) (late : Bool) (s : State) : State × List Note :=
  let st := o.stream
  let hs := s.lineHolders st o.frame l
  let cls := s.streamClass st
  let s := ((s.setFlag F.POOL_STAT.REFUSE).count F.POOL_RESV_CNT.REFUSED st).pmuAdd 0x082 st 1 (some cls)
  let s := s.when late (fun s => (s.setFlag F.POOL_STAT.LATE_REFUSE).pmuAdd 0x083 st 1 (some cls))
  let s := s.when (o.policy == 1 || o.policy == 2) (·.invalidateOpen p e)
  let s := s.each (hs.filter (fun i => pdbFast (s.product i).pdb)) (fun i s => s.tfSubstitute st o.frame l i)
  let q := (hs.filter (fun i => !pdbFast (s.product i).pdb)).foldl (fun (q : State × List Note) i =>
    let r := q.1.loseLine i st o.frame
    (r.1, q.2 ++ r.2)) (s, [])
  let s := q.1.when (decide (o.repDist ≤ l)) (·.dropHold st o.frame (l - o.repDist))
  (s, q.2 ++ (if cls ≤ 1 then [.fault 23 st] else []))

/-- The substitute that ingress makes for line `l` (R119): the data of line L − REP_DIST of the frame, or FILL; the second component
says that it is FILL. -/
def State.ingSubst (s : State) (o : OpenFrame) (l : Nat) : List Byte × Bool :=
  let src := if l < o.repDist then none else (s.rawLine o.stream o.frame (l - o.repDist)).bind s.line
  match src with
  | some c => (c.data, bit c.flags 2)
  | none => (o.fillLine, true)

/-- Flags that a line takes from its frame and its arrival (R111): FRAME_INVALID and UNLOCKED. -/
def State.frameFlags (s : State) (p e l : Nat) (timed : Bool) : Nat :=
  match s.openAt p e with
  | some o =>
    let a := s.posFrom (s.strmRaster o.stream) o.frame
    8 * b2n o.invalid + 16 * b2n (!o.locked || (timed && decide (256 < (a - s.target o.stream o.frame l).natAbs)))
  | none => 0

/-- Store a substitute of ingress for line `l` (R119, R120): it is published when its copy has completed. FILL needs no granules. -/
def State.storeSubst (p e : Nat) (o : OpenFrame) (l flags : Nat) (zone : Zone) (grans : List Nat) (s : State) : State :=
  let c := s.ingSubst o l
  let q := s.stamp p o l (flags + 2 + 4 * b2n c.2) c.1
  let s := s.noteSubst o.stream o.frame l
  let inv := match s.openAt p e with
    | some o => o.invalid
    | none => false
  let q := { q with flags := if inv ∧ ¬ bit q.flags 3 then q.flags + 8 else q.flags, pendingSub := true }
  let r := s.putLine (if c.2 then { q with fill := true } else { q with zone := zone, grans := grans })
  match r.2 with
  | some _ => r.1
  | none => (r.1.setFlag F.POOL_STAT.DIR_EXHAUST).pmuAdd 0x089 o.stream

end Sys2Proof.Machine
end

