-- ==== Sys2Proof/Machine/Resources.lean ====
section
/-!
DEFINITION. Machine/Resources.lean: what a product takes and what it reports: the least reservations of its sources (R160), its grants
(R161, R268, R295), its bloom share (R193), its token demand (R599 to R601), and the registers that show them (R196, R211: the tile former runs while a product is defined).
-/
namespace Sys2Proof.Machine

/-- Sources of the branches with no sample read: shapes only. -/
def State.shapeSrc (s : State) (pdb : List Byte) (i : Nat) : Img := s.srcImgOf pdb i (fun _ _ _ _ => 0)

/-- FOOT_TILE on stream `st`: source lines in the footprint of one tile row, the largest (R160). -/
def footTile (pdb area : List Byte) (st : Nat) : Nat :=
  (List.range (pdbRows pdb)).foldl (fun m r => max m (rowSpan pdb area st r (pdbRowH pdb))) 0

/-- Lines that one definition asks of the reservation of stream `st` (R160). -/
def State.leastTerm (s : State) (st : Nat) (pdb area : List Byte) : Nat :=
  let ratio := s.fld F.RAS_STRM_RATIO.RATIO st
  let skew := if ratio = 0 then 0 else ceilDiv (2 * 2 ^ 20) ratio
  let rep := match s.mapOf st with
    | some (p, e) => repDistOf (s.fld F.ING_STRM_FMT.REP_DIST p e)
    | none => 0
  if ¬ (pdbStreams pdb).any (· == st) then 0
  else if pdbFast pdb then skew + max (footFast pdb st) rep + 2
  else if pdbClass pdb ≤ 1 then skew + 2 * footTile pdb area st + 2
  else 0

/-- Least reservation of stream `st` in lines, counted with further definitions (R160). -/
def State.leastLines (s : State) (st : Nat) (extra : List (List Byte × List Byte) := []) : Nat :=
  let defs := (s.products.filter (fun i => s.prdSt i != 0)).map (fun i => ((s.product i).pdb, (s.product i).area))
  (defs ++ extra).foldl (fun m d => max m (s.leastTerm st d.1 d.2)) (s.baseLines st)

/-- POOL_RESV_MIN is recomputed (R180). -/
def State.recomputeMin (s : State) : State :=
  s.each (List.range 64) (fun st s => s.showMin st (s.leastLines st))

/-! Grants. -/

/-- Granules of a product's output reservation (R161). -/
def State.outGrant (s : State) (pdb : List Byte) : Nat := pdbResvLines pdb * ceilDiv (s.prdLineBytes pdb) 1024

/-- Granules of a table area that the pool holds: both halves (R268). -/
def areaGrant (bytes : Nat) : Nat := 2 * ceilDiv bytes 1024

/-- Granules granted to product `i` from the product region (R184). -/
def State.granted (s : State) (i : Nat) : Nat :=
  if s.prdSt i = 0 then 0
  else s.outGrant (s.product i).pdb + (if (s.product i).areaPool then areaGrant (s.product i).tblMax else 0)

/-- Granules granted to all products but those in `but`. -/
def State.grantedAll (s : State) : Nat := s.products.foldl (fun n i => n + s.granted i) 0

/-- Ledger entries that a definition is granted (R161). -/
def ledgerNeed (pdb area : List Byte) : Nat :=
  if pdbFast pdb then 0
  else ((pdbStreams pdb).eraseDups).foldl (fun n st => n + 2 * footTile pdb area st) 0 + 2 * pdbTh pdb

/-- Ledger entries granted to all products. -/
def State.ledgerGranted (s : State) : Nat :=
  s.products.foldl (fun n i => if s.prdSt i = 0 then n else n + ledgerNeed (s.product i).pdb (s.product i).area) 0

/-- Lines per frame with chroma and statistics lines (R292). -/
def pdbFrameLines (pdb : List Byte) : Nat := pdbLines pdb + pdbStatLines pdb

/-- Pitch of a line in the frame store: its stored bytes and its seal, in whole KiB (R291). -/
def pitchOf (bytes : Nat) : Nat := ceilDiv (bytes + 4) 1024 * 1024

/-- Pitch of a product's lines; statistics lines have 1,024 bytes (R253, R291). -/
def State.prdPitch (s : State) (pdb : List Byte) : Nat :=
  pitchOf (max (s.prdLineBytes pdb) (if pdbStatLines pdb = 0 then 0 else 1024))

/-- Output lines and pitch of branch `i`'s stitch stage (R295, R296). -/
def State.stageShape (s : State) (pdb : List Byte) (i : Nat) : Nat × Nat :=
  let g := runBranch pdb [] false (fun _ _ => none) (pdbBranch pdb i) (s.shapeSrc pdb i)
  (g.h, pitchOf g.lineSize)

/-- 16 KiB granules that a slow product takes in SYS regions (R295): for its table area, its spill ring, the stage of each branch. Before
training has ended it has no spill ring and its table area lies in the pool (R302). -/
def tblNeed (pdb : List Byte) (areaPool : Bool) : Nat :=
  if pdbFast pdb || areaPool then 0 else ceilDiv (2 * pdbTblBytes pdb) 16384

def State.spillNeed (s : State) (pdb : List Byte) (areaPool : Bool) : Nat :=
  if !pdbFast pdb && pdbDestKind pdb == 0 && pdbSpill pdb && !areaPool then ceilDiv (2 * pdbFrameLines pdb * s.prdPitch pdb) 16384 else 0

def State.stageNeed (s : State) (pdb : List Byte) (i : Nat) : Nat :=
  if s.hasStitch pdb ∧ i ≠ 0 ∧ i < pdbNbr pdb then ceilDiv (2 * (s.stageShape pdb i).1 * (s.stageShape pdb i).2) 16384 else 0

def State.sysNeed (s : State) (pdb : List Byte) (areaPool : Bool) : Nat :=
  tblNeed pdb areaPool + s.spillNeed pdb areaPool + s.stageNeed pdb 1 + s.stageNeed pdb 2 + s.stageNeed pdb 3

/-- The first 16 KiB granules of each enabled SYS region, at most `m` of each, by address. -/
def State.sysGranules (s : State) (m : Nat) : List Nat :=
  (List.range 64).flatMap (fun r =>
    if s.flag F.FST_RGN.EN r ∧ s.fld F.FST_RGN.KIND r = 2 then
      (List.range (min m (128 * s.fld F.FST_RGN.SIZE r))).map (fun k => 128 * s.fld F.FST_RGN.BASE r + k)
    else [])

/-- Granules of SYS regions that a product holds. -/
def Product.sysG (p : Product) : List Nat := p.tblSys ++ p.spillSys ++ [1, 2, 3].flatMap p.stageSys.get

/-- Granules of SYS regions in use. -/
def State.sysUsed (s : State) : Nat := s.products.foldl (fun n i => n + (s.product i).sysG.length) 0

/-! Homes (R193). -/

/-- Hash of a tile key (R192). -/
def State.tileHash (s : State) (k : Nat) : Nat × Nat :=
  let lo := s.rd .BLM_HASH_SEED_LO
  let hi := s.rd .BLM_HASH_SEED_HI ||| 1
  let x := ((k ^^^ lo) * hi) % 2 ^ 32
  (x >>> 29, (x >>> 24) % 32)

/-- Key of a tile (R192). -/
def tileKey (st col row : Nat) : Nat := (st % 64) <<< 22 + (col % 1024) <<< 12 + row % 4096

/-- Fast products homed in bloom `b`. -/
def State.homed (s : State) (b : Nat) : List Nat :=
  s.products.filter (fun i => s.prdSt i != 0 && s.flag F.PRD_STATE.FAST i && s.fld F.PRD_STATE.HOME i == b)

/-- Petals that the fast products of a bloom reserve, and their carry in KiB. -/
def State.homeLoad (s : State) (b : Nat) : Nat × Nat :=
  (s.homed b).foldl (fun t i => (t.1 + s.fld F.PRD_COST.S i, t.2 + s.fld F.PRD_FOOT.CARRY_KIB i)) (0, 0)

/-- Home bloom for a fast product of demand `n` and carry `kib` (R193). -/
def State.findHome (s : State) (st n kib : Nat) : Option Nat :=
  let b0 := (s.tileHash (tileKey st 0 0)).1
  ((List.range 8).map (fun k => (b0 + k) % 8)).find? (fun b =>
    let l := s.homeLoad b
    l.1 + n ≤ s.fld F.BLM_FAST_CTRL.FAST_PETALS && l.2 + kib ≤ 384)

/-- BLM_FAST_LOAD shows the loads (R218). -/
def State.showLoads (s : State) : State :=
  s.each (List.range 8) (fun b s =>
    let l := s.homeLoad b
    (s.setFld F.BLM_FAST_LOAD.RESV_PETALS (min 31 l.1) b).setFld F.BLM_FAST_LOAD.CARRY_KIB (min 511 l.2) b)

/-- The most elements of a rising list that lie within one span, its end excluded. -/
def mostWithin (span : Nat) (l : List Nat) : Nat :=
  (l.foldl (fun (a : List Nat × Nat) v =>
    let w := a.1.filter (fun u => decide (v < u + span)) ++ [v]
    (w, max a.2 w.length)) ([], 0)).2

/-- Instant at which strip `n` of a fast product becomes ready, in 2^-20 lines of its timing raster: the end of the last line of its
footprint (R73, R189). -/
def State.stripReady (s : State) (pdb area : List Byte) (n : Nat) : Nat :=
  (List.range (pdbNbr pdb)).foldl (fun m i =>
    let st := pdbBrStream pdb i
    let u := rowFoot pdb area i n (max 1 (s.height st))
    if u.2 < u.1 then m else max m (s.fld F.RAS_STRM_TARGET.TARGET0 st * 2 ^ 20 + u.2 * s.fld F.RAS_STRM_RATIO.RATIO st)) 0

/-- S: the most strips that become ready in one line of the timing raster (R193). -/
def State.demandS (s : State) (pdb area : List Byte) : Nat :=
  if s.fld F.RAS_STRM_RATIO.RATIO (pdbSrc0 pdb) = 0 then 1
  else max 1 (mostWithin (2 ^ 20) ((List.range (pdbOutH pdb)).map (s.stripReady pdb area)))

/-! Token demand (R599 to R601). -/

/-- Line period of a raster at trim 0 in CORE cycles. -/
def State.linePeriod (s : State) (n : Nat) : Rat := (s.period n : Rat) / (2 ^ 32 : Nat)

/-- TD: tokens of one product frame per line of the master raster (R600). -/
def State.tokenDemand (s : State) (pdb area : List Byte) : Rat :=
  let st := pdbSrc0 pdb
  let n := s.strmRaster st
  let ps := slowPasses pdb area false (s.shapeSrc pdb)
    { y0 := 0, y1 := (pdbOutH pdb : Int) - 1, x0 := 0, x1 := (pdbOutW pdb : Int) - 1 }
  let tok : Rat := (s.passTokens ps : Rat) / 1024
  let per := s.linePeriod s.master
  let lines : Rat := if per = 0 then 0
    else (s.fld F.RAS_STRM_CFG.DIV st : Nat) * (s.lines n : Nat) * s.linePeriod n / per
  if lines = 0 then 0 else tok / lines

/-- Definitions of class 0 and 1 with their home, when fast. -/
def State.reservedDefs (s : State) : List (List Byte × List Byte × Option Nat) :=
  (s.products.filter (fun i => s.prdSt i != 0 && pdbClass (s.product i).pdb ≤ 1)).map (fun i =>
    ((s.product i).pdb, (s.product i).area,
      if s.flag F.PRD_STATE.FAST i then some (s.fld F.PRD_STATE.HOME i) else none))

/-- r_b of bloom `b` for given definitions (R600). -/
def State.demandOf (s : State) (ds : List (List Byte × List Byte × Option Nat)) (b : Nat) : Nat :=
  let t : Rat := ds.foldl (fun (t : Rat) d => match d.2.2 with
    | some h => if h = b then t + s.tokenDemand d.1 d.2.1 else t
    | none => t + s.tokenDemand d.1 d.2.1 / 8) 0
  (t * (16 + s.fld F.EGV_COST1.MARGIN : Nat) / 16).ceil.toNat

/-- r_b is recomputed (R600). -/
def State.recomputeDemand (s : State) : State :=
  let ds := s.reservedDefs
  let s := s.each (List.range 8) (fun b s => s.setFld F.EGV_BLOOM.R_B (s.demandOf ds b) b)
  s.setFld F.EGV_DEMAND.TOKENS ((List.range 8).foldl (fun n b => n + s.fld F.EGV_BLOOM.R_B b) 0)

/-- The largest `n ≤ hi` with `p n`, by halving; `p` falls once from true to false. -/
def bisect (p : Nat → Bool) : Nat → Nat → Nat → Nat
  | 0, lo, _ => lo
  | k + 1, lo, hi => if hi ≤ lo + 1 then lo else
    let m := (lo + hi) / 2
    if p m then bisect p k m hi else bisect p k lo m

/-- `leak × 2 ^ (t / 16)` in mW for a temperature difference of `t16` sixteenths of a degree, rounded to the nearest (R599; the
examples of R601 and R610 round so). -/
def leakMw (leak : Nat) (t16 : Int) : Nat :=
  let e := t16.natAbs
  let ok := fun (n : Nat) => n == 0 || (if 0 ≤ t16 then (2 * n - 1) ^ 256 ≤ (2 * leak) ^ 256 * 2 ^ e
    else (2 * n - 1) ^ 256 * 2 ^ e ≤ (2 * leak) ^ 256)
  bisect ok 64 0 (leak * 2 ^ (e / 256 + 1) + 2)

/-- Reserved ceiling in tokens per master-raster line (R601). -/
def State.ceiling (s : State) : Rat :=
  let tj : Int := (s.fld F.EGV_THERM.TJ_MAX : Nat)
  let room : Int := 28000 - (s.fld F.EGV_BUDGET.BASE_MW : Nat) - (leakMw (s.fld F.EGV_OTHER.LEAK85_MW) (16 * (tj - 85)) : Nat)
  (room : Rat) * s.linePeriod s.master / 1200

/-- The reserved demand of given definitions stays within the ceiling (R601). -/
def State.demandFits (s : State) (ds : List (List Byte × List Byte × Option Nat)) : Bool :=
  decide ((((List.range 8).foldl (fun n b => n + s.demandOf ds b) 0 : Nat) : Rat) ≤ s.ceiling)

/-! Registers of a product (R282 to R284, R184). -/

/-- The registers that a definition sets, PRD_STATE apart from STATE and HOME. -/
def State.showProduct (i : Nat) (s : State) : State :=
  let q := s.product i
  let pdb := q.pdb
  let src := s.shapeSrc pdb
  let foot := if pdbFast pdb then (pdbStreams pdb).foldl (fun m st => max m (footFast pdb st)) 0
    else (pdbStreams pdb).foldl (fun m st => max m (footTile pdb q.area st)) 0
  let s := ((s.setFlag F.PRD_STATE.FAST (pdbFast pdb) i).setFld F.PRD_STATE.CLASS (pdbClass pdb) i).setFld
    F.PRD_STATE.DEST_KIND (pdbDestKind pdb) i
  let s := (s.setFld F.PRD_FOOT.LMIN (min 255 (pdbLmin pdb)) i).setFld F.PRD_FOOT.FOOT (min 255 foot) i
  let s := s.setFld F.PRD_FOOT.CARRY_KIB (if pdbFast pdb then min 511 (carryKib pdb q.area src) else 0) i
  let s := s.setFld F.PRD_COST.COST (if pdbFast pdb then min 65535 (stripCost pdb q.area src) else 0) i
  s.setFld F.PRD_COST.S (if pdbFast pdb then min 255 (s.demandS pdb q.area) else 0) i

/-- Everything that follows from the set of products is shown: least sizes, bloom loads, demand, free SYS granules. -/
def State.showResources (s : State) : State :=
  let s := ((s.recomputeMin).showLoads).recomputeDemand
  let s := s.setFlag F.BLM_TF_CTRL.RUNNING (s.flag F.BLM_TF_CTRL.RUN && s.products.any (fun i => s.prdSt i != 0))
  s.setFld F.FST_SYS_FREE.FREE (s.sysTotal - s.sysUsed)

end Sys2Proof.Machine
end

