-- ==== Sys2Proof/Machine/FstMem.lean ====
section
/-!
DEFINITION. Machine/FstMem.lean: the frame store's address hash (R288), the rows that it holds (R286), and where regions and grants keep
their lines (R291 to R296).
-/
namespace Sys2Proof.Machine

/-! Address hash (R288). -/

/-- Where a chunk lies. -/
structure FstPlace where
  pc : Nat := 0
  bank : Nat := 0
  col : Nat := 0
  row : Nat := 0
  deriving DecidableEq, Repr

/-- The map of R288 for chunk index `c` under the seed `(sx, sm)`. -/
def fstMap (sx sm c : Nat) : FstPlace :=
  let u := bits c 25 6
  let r := bits c 25 11
  let hp := ((u ^^^ sx) * sm % 2 ^ 20) >>> 16
  let hb := ((r ^^^ (sx >>> 5)) * sm % 2 ^ 15) >>> 10
  { pc := bits c 5 2 ^^^ hp, bank := bits c 10 6 ^^^ hb, col := bits c 1 0, row := r }

/-- The map under the seed in use (R290). -/
def State.fstMap (s : State) (c : Nat) : FstPlace :=
  Sys2Proof.Machine.fstMap (s.fld F.FST_HASH_SX.SX) (s.fld F.FST_HASH_SM.SM) c

/-! Contents, by rows of 1 KiB (R286). The SECDED code of the stack's check bits is given nowhere (R299): its verdict on a word comes with
the request's end. -/

/-- Row `k` of the frame store. -/
def State.fstRow (s : State) (k : Nat) : List Byte := padTo 1024 (s.fst.rows.get k)

/-- Store one row. -/
def State.putRow (k : Nat) (b : List Byte) (s : State) : State :=
  let b := padTo 1024 b
  s.modFst (fun f => { f with rows := f.rows.set k (if b.all (· == 0) then [] else b) })

/-- The bytes of some rows. -/
def State.getRows (s : State) (ks : List Nat) : List Byte := ks.flatMap s.fstRow

/-- Store bytes in some rows, in their order. -/
def State.putRows (ks : List Nat) (b : List Byte) (s : State) : State :=
  s.each ks.zipIdx (fun u s => s.putRow u.1 (bytesAt b (1024 * u.2) 1024))

/-- Rows of `n` bytes from a 1 KiB-aligned address on. -/
def rowsAt (a n : Nat) : List Nat := (List.range (ceilDiv n 1024)).map (a / 1024 + ·)

/-- Rows of `n` bytes from byte `a` on of a grant made of 16 KiB granules (R295). -/
def grantRows (g : List Nat) (a n : Nat) : List Nat :=
  (List.range (ceilDiv n 1024)).map (fun k => 16 * g.getD ((a / 1024 + k) / 16) 0 + (a / 1024 + k) % 16)

/-- A line as its pitch holds it: its bytes, zeros, and its seal in the last four bytes (R291). -/
def pitched (pitch : Nat) (data : List Byte) (sl : Nat) : List Byte := padTo (pitch - 4) data ++ leBytes 4 sl

/-- The seal at the end of a pitch. -/
def pitchSeal (b : List Byte) : Nat := leAt b (b.length - 4) 4

/-! Regions and grants. -/

/-- Byte address of a region. -/
def State.rgnBase (s : State) (r : Nat) : Nat := s.fld F.FST_RGN.BASE r * 2 ^ 21

/-- The lowest free granules of the SYS regions (R295; which granules a grant takes is left open: DESIGN CHOICE, log 81). -/
def State.takeSys (s : State) (n : Nat) (but : List Nat) : List Nat :=
  let used := s.products.flatMap (fun i => (s.product i).sysG) ++ but
  ((s.sysGranules (n + used.length)).filter (fun g => !used.any (· == g))).take n

/-- The table area of a definition goes into half `h` of its place: into the pool's granules or into the frame store (R268). The writes of
the area are no stream of R297: they are done when the command acts. -/
def State.placeTable (i h : Nat) (area : List Byte) (s : State) : State :=
  let p := s.product i
  let s := s.modProduct i (fun p => { p with tbls := p.tbls.set h (area, false) })
  if p.areaPool then s else s.putRows (grantRows p.tblSys (h * ceilDiv p.tblMax 1024 * 1024) area.length) area

/-- Positions of TNR in a chain. -/
def tnrPos (pdb : List Byte) : List Nat := (List.range (pdbNops pdb)).filter (fun k => opCode (pdbOp pdb k) == 0x10)

/-- REGION of the TNR at position `k`. -/
def tnrRegion (b : List Byte) (k : Nat) : Nat := dfld (pdbOp b k) 4 15 0

/-- Pitch of the lines of the TNR at position `k` (R294). -/
def State.tnrPitch (s : State) (pdb : List Byte) (k : Nat) : Nat := pitchOf (stageImg pdb [] false (s.shapeSrc pdb) k).lineSize

/-- Rows of reference line `y` of position `k`, half `h`: a half has OUT_H places, and a line of a taller TNR output comes round to the place
of another (R294; DESIGN CHOICE, log 81). -/
def State.refRows (s : State) (pdb : List Byte) (k h y : Nat) : List Nat :=
  let pitch := s.tnrPitch pdb k
  rowsAt (s.rgnBase (tnrRegion pdb k % 64) + (h * pdbOutH pdb + y % max 1 (pdbOutH pdb)) * pitch) pitch

/-- Rows of line `y` of the stage of branch `b`, half `h` (R295, R296). -/
def State.stageRows (s : State) (i b h y : Nat) : List Nat :=
  let p := s.product i
  let g := s.stageShape p.pdb b
  grantRows (p.stageSys.get b) ((h * g.1 + y) * g.2) g.2

/-- Rows of place `k` of the spill ring of product `i` (R173, R295). -/
def State.spillRows (s : State) (i k : Nat) : List Nat :=
  let p := s.product i
  let pitch := s.prdPitch p.pdb
  grantRows p.spillSys (k * pitch) pitch

/-- The work that product `i` has under way at the frame store ends with it (R273): its rows not yet moved are not moved. -/
def State.dropWork (i : Nat) (s : State) : State :=
  let of := fun (w : FstWork) => match w with
    | .header j _ _ | .dropped j _ _ | .line j _ _ | .spillOut j _ | .spillIn j | .keep j | .fetch j _ _ _ | .table j _ => j == i
    | .copy _ => false
  let gone := (s.fst.jobs.filter (fun j => of j.work)).map (·.id)
  s.modFst (fun f => { f with
    jobs := f.jobs.filter (fun j => !of j.work)
    queues := (List.range 16).foldl (fun t c => t.upd c (·.filter (fun r => !gone.any (· == r.job)))) f.queues })

end Sys2Proof.Machine
end

