-- ==== Sys2Proof/Machine/Output.lean ====
section
/-!
DEFINITION. Machine/Output.lean: product lines from the petals to the output units, in order (R279), the frame's end (R48, R253), and
the end of a product (R273, R275, R276).
-/
namespace Sys2Proof.Machine

/-! Completions of commands. -/

/-- Common header of a descriptor (R390). -/
def descCmd (b : List Byte) : Nat := leAt b 3 1
def descFence (b : List Byte) : Bool := bit (leAt b 0 4) 23
def descUser (b : List Byte) : Nat := leAt b 4 4

/-- The completion of the descriptor `idx` of ring `g` (R401). -/
def State.completion (s : State) (g idx : Nat) (bytes : List Byte) (status detail arg8 arg : Nat) (p : Pos) : List Note :=
  [.entry (s.cmpOf g) (cmdEntry g idx status detail (descUser bytes) (descCmd bytes) arg8 arg p)]

/-- Fields of the three product commands (R265). -/
def prdCmdPdb (b : List Byte) : Nat := leAt b 8 8
def prdCmdAtFrame (b : List Byte) : Nat := bits (leAt b 16 4) 31 16
def prdCmdAtEn (b : List Byte) : Bool := bit (leAt b 16 4) 15
def prdCmdId (b : List Byte) : Nat := bits (leAt b 16 4) 7 0
def prdCmdReplEn (b : List Byte) : Bool := bit (leAt b 20 4) 8
def prdCmdReplId (b : List Byte) : Nat := bits (leAt b 20 4) 7 0

/-- PRD_REJECT records the first rejection (R285). -/
def State.noteReject (s : State) (c : PrdCmd) (status detail : Nat) : State :=
  if s.flag F.PRD_REJECT.VALID then s
  else
    let op := match c.op with
      | .define => 0
      | .update => 1
      | .retire => 2
    s.wr .PRD_REJECT (1 <<< 31 + op <<< 29 + status <<< 24 + detail <<< 16 + prdCmdId c.bytes <<< 8 + c.dom)

/-- A product command completes (R267, R401): at the boundary it acted at, or where it was refused, on the timing raster `n`. A
rejection is recorded; a command that was overtaken (R276) or malformed (R663) is none of R267's rejections. -/
def State.finishPrd (c : PrdCmd) (status detail arg n : Nat) (s : State) : State × List Note :=
  let s := s.when (status != 0 && status != 0x15 && status < 0x20) (·.noteReject c status detail)
  let s := s.when (c.boot && status != 0 && c.op == .define) (·.setFlag F.SEC_BOOT_STAT.PROD_ERR)
  (s, if c.boot then []
    else s.completion c.ring c.idx c.bytes status detail (prdCmdId c.bytes) arg (c.acted.getD (s.pos n)))

/-! The end of a product. -/

/-- Products that a domain owns. -/
def State.ownedBy (s : State) (d : Nat) : List Nat :=
  s.products.filter (fun i => s.prdSt i != 0 && s.fld F.PRD_STATE.DOMAIN i == d && !(s.product i).boot)

/-- DOM_RESET of domain `d` completes once its last product is FREE (R393). -/
def State.resetDone (d : Nat) (s : State) : State × List Note :=
  match (s.dom d).resetBy with
  | some (g, idx) =>
    if (s.ownedBy d).isEmpty then
      let b := ((s.ring g).started.find? (fun x => x.idx == idx)).elim [] (·.bytes)
      (s.modDom d (fun q => { q with resetBy := none }), s.completion g idx b 0 0xFF 0 0 s.now)
    else (s, [])
  | none => (s, [])

/-- A product becomes FREE (R273): its lines, grants, home share and binding are returned, the commands that waited for it complete. -/
def State.freeProduct (i : Nat) (s : State) : State × List Note :=
  let q := s.product i
  let n := s.prdRaster q.pdb
  let d := s.fld F.PRD_STATE.DOMAIN i
  let s := s.each (q.frames.map (·.frame)) (fun f s => (s.cancelTiles i f).dropPFrameLines i f)
  let s := s.each ((s.dirLines.filter (fun c => c.2.kind == .product && c.2.owner == i)).map (·.1)) State.dropLine
  let s := s.modSeals (fun t => { t with ledger := t.ledger.filter (fun e => e.prd != i) })
  let s := s.each ((s.dirLines.filter (fun c => c.2.holders.any (· == i))).map (·.1)) (fun d s => s.release d i)
  let s := s.dropWork i
  let s := s.when (pdbDestKind q.pdb == 0) (·.modRing (pdbRing q.pdb) (fun r => if r.product = i then { r with bound := 0 } else r))
  let s := ((s.wr .PRD_STATE 0 i).wr .PRD_FOOT 0 i).wr .PRD_COST (s.fld F.PRD_COST.DROPPED i) i
  let s := (s.modPrd (fun p => { p with tab := p.tab.set i {} })).showResources
  let r1 := match q.retire with
    | some c => if q.silent then (s, []) else s.finishPrd c 0 0xFF 0 n
    | none => (s, [])
  let r2 := r1.1.products.foldl (fun (t : State × List Note) j => match (t.1.product j).replOf with
    | some c =>
      if prdCmdReplId c.bytes = i then
        let u := (t.1.modProduct j (fun p => { p with replOf := none })).finishPrd c 0 0xFF (t.1.product j).first n
        (u.1, t.2 ++ u.2)
      else t
    | none => t) r1
  let r3 := r2.1.resetDone d
  (r3.1, r2.2 ++ r3.2)

/-- A frame of product `i` before frame `u` is numbered or still to be triggered, and has not opened yet (R71, R264, R273). -/
def State.awaitsFrame (s : State) (i u : Nat) : Bool :=
  let p := s.product i
  let st := pdbSrc0 p.pdb
  let mine := fun (f : Nat) => frameGe f p.first && !frameGe f u
  s.flag F.RAS_STRM_CFG.EN st && s.trigMode st != 0
    && ((s.strm.get st).frames.any (fun t => !t.bound && mine t.frame)
      || ((s.ras.get (s.strmRaster st)).running && s.trigMode st != 3 && mine (s.strm.get st).nextF))

/-- A retiring product whose last frame has ended becomes FREE (R273), once the headers of its dropped frames are written (R292). -/
def State.freeIfDone (i : Nat) (s : State) : State × List Note :=
  let p := s.product i
  if s.prdSt i = 3 ∧ p.frames = [] ∧ p.slotDrops = [] ∧ ¬ p.until_.any (s.awaitsFrame i) then s.freeProduct i else (s, [])

/-- Let every retiring product become FREE that can (R273). -/
def State.tryFrees (s : State) : State :=
  s.each (s.products.filter (fun i => s.prdSt i == 3)) (fun i s => State.andReport (s.freeIfDone i))

/-! Publication of output lines (R279). -/

/-- Tile row that produces output line `n` (R255). -/
def rowOfLine (pdb : List Byte) (n : Nat) : Nat :=
  if pdbOutH pdb ≤ n then (2 * (n - pdbOutH pdb) + 1) / pdbRowH pdb else n / pdbRowH pdb

/-- Branches of product frame `q` whose tile row `r` reads line `l` of the frame `f` that stream `st` contributes (R188, R264, R296). -/
def State.rowUses (s : State) (q : PFrame) (r st f l : Nat) : Bool :=
  (List.range (pdbNbr q.pdb)).any (fun b => pdbBrStream q.pdb b == st && s.branchFrame q b == some f
    && rowReads q.pdb q.area b r (s.srcH st f) l)

/-- Every input line in the footprint of tile row `r` has its ledger verdict (R142). -/
def State.rowVerdicts (s : State) (i : Nat) (q : PFrame) (r : Nat) : Bool :=
  !s.seals.ledger.any (fun e => !e.output && e.prd == i && s.rowUses q r e.st e.frame e.lineNo)

/-- An input line of tile row `r` has failed its verdict (R147); lines of the stage of branch `b` stand under 64 + `b`. -/
def State.rowBad (s : State) (q : PFrame) (r : Nat) : Bool :=
  !pdbFast q.pdb && q.badLines.any (fun u => (List.range (pdbNbr q.pdb)).any (fun b =>
    (if s.hasStitch q.pdb ∧ b ≠ 0 then u.1 == 64 + b else u.1 == pdbBrStream q.pdb b)
    && rowReads q.pdb q.area b r (s.srcH (pdbBrStream q.pdb b) ((s.branchFrame q b).getD q.frame)) u.2))

/-- Mark of a fast strip whose line is discarded or was never produced (R170, R207). -/
def strDiscarded : Nat := 2

/-- Publish what can be published of frame `(i, f)`, in output order (R279). -/
def State.publishPrd : Nat → Nat → Nat → State → State
  | 0, _, _, s => s
  | k + 1, i, f, s =>
    match s.pframe i f with
    | none => s
    | some q =>
      let n := pdbLineAt q.pdb q.pub
      if q.dead ∨ pdbLines q.pdb ≤ q.pub then s
      else if pdbFast q.pdb ∧ q.rows.get (rowOfLine q.pdb n) = strDiscarded then
        State.publishPrd k i f (s.modPFrame i f (fun q => { q with pub := q.pub + 1, rel := q.rel + 1 }))
      else match s.findLine .product i f n with
        | none => s
        | some d => match s.line d with
          | none => s
          | some l =>
            if l.ready ∧ (pdbFast q.pdb ∨ s.rowVerdicts i q (rowOfLine q.pdb n)) then
              let fl := l.flags ||| 8 * b2n q.invalid ||| b2n (s.rowBad q (rowOfLine q.pdb n))
              let s := s.modLine d (fun l => { l with published := true, flags := fl })
              State.publishPrd k i f (s.modPFrame i f (fun q => { q with pub := q.pub + 1, flags := q.flags ||| fl }))
            else s

/-- Publish frame `(i, f)`. -/
def State.publishFrame (i f : Nat) (s : State) : State := s.publishPrd 131072 i f

/-- The product reservation has room for `n` more granules (R159, R161). -/
def State.prdFits (s : State) (i : Nat) (pdb : List Byte) (n : Nat) : Bool := s.resvUse .product i + n ≤ s.outGrant pdb

/-- Statistics line `k` of frame `(i, f)`, sealed under the product's prefix (R253). -/
def statPLine (i f k raster : Nat) (q : PFrame) (op : OpDesc) (grans : List Nat) : PLine :=
  let data := statLine op f q.invalid (q.stat.headD {}) k
  { kind := .product, owner := i, frame := f, line := 0xF000 + k, flags := 0x40 + 8 * b2n q.invalid, data := data, grans := grans
    sealVal := lineSeal (pdbSrc0 q.pdb) i f (0xF000 + k) data, holders := [i], ready := true, published := true, raster := raster }

/-- STAT publishes its lines after the barrier (R253), while the product reservation takes them (R159): the others follow as lines leave
it. -/
def State.publishStat (i f : Nat) (op : OpDesc) : Nat → State → State
  | 0, s => s
  | n + 1, s =>
    match s.pframe i f with
    | none => s
    | some q =>
      if statLines op ≤ q.statPub ∨ ¬ s.prdFits i q.pdb 1 then s
      else match s.claim 1 s.pool.tfBank with
        | none => s
        | some (g, bank) =>
          let r := (s.modPool (fun p => { p with tfBank := bank })).putLine (statPLine i f q.statPub (s.prdRaster q.pdb) q op g)
          match r.2 with
          | none => s
          | some _ => State.publishStat i f op n (r.1.modPFrame i f (fun q => { q with statPub := q.statPub + 1, flags := q.flags ||| 0x40 }))

/-- The output unit of a product needs no further line of the frame: the host ring and the frame store take every line; a display
takes lines while its port and layer run, the transmit builder copies a host product's lines in full (R172), and a slot
gets its last header (R293). -/
def State.outputDone (s : State) (i : Nat) (q : PFrame) : Bool :=
  let total := pdbFrameLines q.pdb
  if pdbDestKind q.pdb = 1 then
    total ≤ q.rel || !s.flag F.DEG_PORT_CTRL.RUN (pdbPort q.pdb) || !s.flag F.DEG_LAYER_CFG.EN (pdbPort q.pdb) (pdbLayer q.pdb)
  else if pdbDestKind q.pdb = 2 then total ≤ q.rel && (s.product i).slotFrame != some q.frame
  else total ≤ q.rel && (pdbDestKind q.pdb != 0
    || !s.dirLines.any (fun c => c.2.kind == .product && c.2.owner == i && c.2.frame == q.frame && c.2.sent))

/-- The references that TNR has written for the frame are complete, and good unless the frame is invalid (R258). -/
def State.finishRefs (i f : Nat) (bad : Bool) (s : State) : State :=
  s.modProduct i (fun p => { p with refs := (List.range 32).foldl (fun t h =>
    t.upd h (·.map (fun k => if k.frame = f then { k with done := true, bad := bad } else k))) p.refs })

/-- The frame-end barrier and what follows it (R48, R209, R253, R279): statistics lines, the end-of-frame event after the last line,
and the end of a retiring product. -/
def State.frameEnd (i f : Nat) (s : State) : State × List Note :=
  match (s.closeIfDone i f).pframe i f with
  | none => (s, [])
  | some q =>
    let s := s.closeIfDone i f
    if q.dead then
      if ¬ q.barrier then (s, [])
      else
      let s := (s.releaseSources i f).modProduct i (fun p => { p with frames := p.frames.filter (fun r => r.frame != f) })
      s.freeIfDone i
    else
      let s := s.publishFrame i f
      match s.pframe i f with
      | none => (s, [])
      | some q =>
        if ¬ q.barrier then (s, [])
        else
          let s := match (pdbChain q.pdb).find? (fun d => opCode d == 0x0D) with
            | some op => s.publishStat i f op 64
            | none => s
          let q := (s.pframe i f).getD q
          if s.outputDone i q then
            let s := ((s.releaseSources i f).dropPFrameLines i f).finishRefs i f q.invalid
            let s := s.setFld F.PRD_FRAME.FRAME f i
            let s := s.modProduct i (fun p => { p with frames := p.frames.filter (fun r => r.frame != f) })
            let s := s.pmuAdd 0x0CD (s.fld F.PRD_STATE.HOME i)
            let ev := if pdbDestKind q.pdb = 0 then
                [Note.entry (s.cmpOf (pdbRing q.pdb))
                  (evtEntry 1 q.flags f (i <<< 24 + q.rel % 65536) 0 (pdbRing q.pdb) (s.pos (s.prdRaster q.pdb)))]
              else []
            let r := s.freeIfDone i
            (r.1, ev ++ r.2)
          else (s, [])

/-- Let the frame's end act where it can. -/
def State.tryEnd (i f : Nat) (s : State) : State := State.andReport (s.frameEnd i f)

/-- Let the ends of all frames of product `i` act, oldest first. -/
def State.tryEnds (i : Nat) (s : State) : State := s.each ((s.product i).frames.map (·.frame)) (fun f s => s.tryEnd i f)

/-! Commits that waited for older work (R37, R40). -/

/-- A display frame of a port of group `g` still runs under an older generation. -/
def State.dispOld (s : State) (g : Nat) : Bool :=
  (List.range 4).any (fun n => s.fld F.DEG_PORT_CTRL.RASTER n == g
    && (s.disp.get n).frames.any (fun q => !q.spent && q.gen != s.fld F.CFG_STATE.GEN g))

/-- A staged generation of a stopped raster takes effect as soon as no older work runs (R37). -/
def State.retryCommits (s : State) : State :=
  s.each (List.range 8) (fun g s => match s.cfg.stg.get g with
    | some q => if q.passed ∧ ¬ (s.ras.get g).running ∧ ¬ s.olderWork g (s.dispOld g) then (s.switchGen g).showResources else s
    | none => s)

end Sys2Proof.Machine
end

