-- ==== Sys2Proof/Machine/Seals.lean ====
section
/-!
DEFINITION. Machine/Seals.lean: what a failed check records (R147, R152, R153), and the contexts of the seal units (R145, R151).
-/
namespace Sys2Proof.Machine

/-- Seal units (R151). -/
def unitPort (p : Nat) : Nat := p
def unitPetal (p : Nat) : Nat := 32 + p
def unitEgress (n : Nat) : Nat := 288 + n
def unitGwTx : Nat := 292
def unitGwRx : Nat := 293
def unitLedger : Nat := 294
def unitFst : Nat := 295

/-- A failed check at a seal unit (R147): counted, recorded when no failure is held or when it is of the same cycle as the one held and
found by a lower unit (R153), and the seal fault source raised. -/
def State.sealFail (unit : Nat) (cnt : Fld) (st prd line frame stored computed : Nat) (s : State) : State × List Note :=
  let s := (s.count cnt).pmuAdd 0x2C1 (unit / 2)
  let first := !s.flag F.SEAL_FAIL_REC0.VALID || (s.seals.failAt == s.time.now && decide (unit < s.fld F.SEAL_FAIL_REC0.UNIT))
  let s := s.when first (fun s =>
    (((((s.wr .SEAL_FAIL_REC0 (1 <<< 31 + unit <<< 22 + (st % 64) <<< 16 + (prd % 256) <<< 8)).wr .SEAL_FAIL_REC1 ((line % 65536) <<< 16)).wr
      .SEAL_FAIL_REC2 frame).wr .SEAL_FAIL_REC3 stored).wr .SEAL_FAIL_REC4 computed).modSeals (fun q => { q with failAt := s.time.now }))
  (s, [.fault 21 unit])

/-! Running contexts (R145, R146). -/

/-- The context of a line whose seal a unit begins to produce, under its prefix (R134, R145). -/
def SealCtx.line (head : List Byte) : SealCtx := { run := crc32cRun 0xFFFFFFFF head, valid := true, pfx := head }

/-- The context of a fragment of a line that the ledger seals (R140, R144). -/
def SealCtx.piece (head : List Byte) : SealCtx := { valid := true, pfx := head }

/-- Further bytes of the line pass. -/
def SealCtx.take (c : SealCtx) (b : List Byte) : SealCtx :=
  { c with run := crc32cRun c.run b, count := (c.count + b.length) % 65536 }

/-- The rest of a line or piece passes, from COUNT on. -/
def SealCtx.rest (c : SealCtx) (b : List Byte) : SealCtx := c.take (b.drop c.count)

/-- The seal of a line that has passed. -/
def SealCtx.seal (c : SealCtx) : Nat := c.run ^^^ 0xFFFFFFFF

/-- The 16 bytes of a context (R145). -/
def SealCtx.bytes (c : SealCtx) : List Byte :=
  leBytes 4 c.run ++ leBytes 2 c.count ++ leBytes 2 (2 * b2n c.frag + b2n c.valid) ++ padTo 8 c.pfx

/-- The context that 16 bytes spell. -/
def ctxOfBytes (b : List Byte) : SealCtx :=
  { run := leAt b 0 4, count := leAt b 4 2, frag := bit (leAt b 6 2) 1, valid := bit (leAt b 6 2) 0
    pfx := if (bytesAt b 8 8).all (· == 0) then [] else bytesAt b 8 8 }

/-- Context `k` of unit `u`. -/
def State.ctxOf (s : State) (u k : Nat) : SealCtx := s.seals.ctx.get (64 * u + k)

/-- Set context `k` of unit `u`. -/
def State.setCtx (u k : Nat) (c : SealCtx) (s : State) : State := s.modSeals (fun q => { q with ctx := q.ctx.set (64 * u + k) c })

/-- Unit `u` opens lines with these contexts, from slot 0 on. -/
def State.openCtx (u : Nat) (cs : List SealCtx) (s : State) : State := s.each cs.zipIdx (fun c s => s.setCtx u c.2 c.1)

/-- Unit `u` has no line open any more. -/
def State.closeCtx (u : Nat) (s : State) : State :=
  s.modSeals (fun q => { q with ctx := (List.range 64).foldl (fun t k => t.set (64 * u + k) {}) q.ctx })

/-- A seal unit is stopped (R151). -/
def State.unitStopped (s : State) (u : Nat) : Bool :=
  if u < 30 then !s.flag F.ING_PORT_CTRL.RUN u
  else if 32 ≤ u && u < 288 then
    s.flag F.BLM_CTRL.HALT ((u - 32) / 32) && (List.range 32).all (fun k => ((s.blm.get ((u - 32) / 32)).run.get k).isNone)
  else if 288 ≤ u && u < 292 then !s.flag F.DEG_PORT_CTRL.RUN (u - 288)
  else s.fcl.safe

/-- GO of SEAL_ACC_CTRL (R151): one context copied into SEAL_ACC_DATA, or loaded from it. -/
def State.sealAccess (s : State) : State :=
  let u := s.fld F.SEAL_ACC_CTRL.UNIT
  let k := s.fld F.SEAL_ACC_CTRL.SLOT
  if s.unitStopped u then
    if s.flag F.SEAL_ACC_CTRL.WRITE then
      let b := (List.range 4).flatMap (fun i => leBytes 4 (s.rd .SEAL_ACC_DATA i))
      s.setCtx u k (ctxOfBytes b)
    else
      let b := (s.ctxOf u k).bytes
      s.each (List.range 4) (fun i s => s.wr .SEAL_ACC_DATA (leAt b (4 * i) 4) i)
  else s.setFlag F.SEAL_ACC_CTRL.REFUSED

end Sys2Proof.Machine
end

