-- ==== Sys2Proof/Machine/Reads.lean ====
section
/-!
DEFINITION. Machine/Reads.lean: reads and writes of host memory on behalf of a domain: the window check of R408, the extent and
length rules of R363, and the read jobs whose completions the transaction layer gathers (R364 to R366).
-/
namespace Sys2Proof.Machine

/-- Largest data length of one transaction to the host: the far end's MAX_LEN (R352, R363). -/
def State.farMax (s : State) : Nat := 2 ^ (max 7 (min 12 s.gwl.farMaxLen))

/-- Cut an extent into transactions that each lie within one 4 KiB block and are no longer than `m` (R363). -/
def cutExtent (m : Nat) : Nat → Nat → Nat → List (Nat × Nat)
  | 0, _, _ => []
  | k + 1, a, n =>
    if n = 0 then []
    else
      let c := min (max 1 m) (min n (4096 - a % 4096))
      (a, c) :: cutExtent m k (a + c) (n - c)

/-- The transactions of an extent. -/
def State.extents (s : State) (a n : Nat) : List (Nat × Nat) := cutExtent s.farMax n a n

/-- One refused transaction of domain `d` is counted (R408, R424). -/
def State.windowRefused (s : State) (d : Nat) : State := (s.count F.HQE_CNT1.WINDOW).pmuAdd 0x209 d

/-- The transactions of an extent that go before the first one that the window check refuses (R408). -/
def State.openExtents (s : State) (d a n : Nat) (wr : Bool) : List (Nat × Nat) :=
  (s.extents a n).takeWhile (fun e => s.inWindow d e.1 e.2 wr)

/-- Address of the first refused transaction of an extent (R410). -/
def State.refusedAt (s : State) (d a n : Nat) (wr : Bool) : Nat :=
  (((s.extents a n).find? (fun e => !s.inWindow d e.1 e.2 wr)).map (·.1)).getD a

/-- The MRDs of some extents for job `id`. -/
def State.pushReads (org : Org) (d cls id : Nat) (ex : List (Nat × Nat)) (s : State) : State :=
  s.each ex (fun e s => s.txPush { kind := .mrd, dom := d, cls := cls, len := e.2, addr := e.1, org := org, job := id })

/-- The MWRs of some extents of `data`, which lies at `addr`; the last of `n` carries the line's end. -/
def State.pushWrites (org : Org) (d cls addr : Nat) (data : List Byte) (ro : Bool) (ends : Option (Nat × Nat × Nat)) (n : Nat)
    (ex : List (Nat × Nat)) (s : State) : State :=
  s.each ex.zipIdx (fun e s => s.txPush {
    kind := .mwr, dom := d, cls := cls, ro := ro, len := e.1.2, addr := e.1.1, data := bytesAt data (e.1.1 - addr) e.1.2, org := org
    ends := if e.2 + 1 = n then ends else none })

/-- Read host memory (R363, R408): a job with its MRDs. None when the window check refuses one of them; `readRefused` then says what
happens. -/
def State.readHost (org : Org) (d cls addr len : Nat) (s : State) : Option State :=
  let ex := s.extents addr len
  if ex.all (fun e => s.inWindow d e.1 e.2 false) then
    let id := s.gwl.nextJob
    let s := s.modGwl (fun g => { g with
      nextJob := id + 1
      jobs := g.jobs ++ [{ id := id, org := org, dom := d, addr := addr, buf := List.replicate len 0, left := ex.length }] })
    some (s.pushReads org d cls id ex)
  else none

/-- A read one of whose MRDs is refused (R408): those before it are sent, and no job waits for what they bring. -/
def State.readRefused (org : Org) (d cls addr len : Nat) (s : State) : State :=
  let id := s.gwl.nextJob
  ((s.modGwl (fun g => { g with nextJob := id + 1 })).pushReads org d cls id (s.openExtents d addr len false)).windowRefused d

/-- Write host memory (R363, R408): MWRs in rising order. None when the window check refuses one of them; `writeRefused` then says what
happens. -/
def State.writeHost (org : Org) (d cls addr : Nat) (data : List Byte) (ro : Bool) (s : State)
    (ends : Option (Nat × Nat × Nat) := none) : Option State :=
  let ex := s.extents addr data.length
  if ex.all (fun e => s.inWindow d e.1 e.2 true) then some (s.pushWrites org d cls addr data ro ends ex.length ex) else none

/-- A write one of whose MWRs is refused (R408): those before it are sent. -/
def State.writeRefused (org : Org) (d cls addr : Nat) (data : List Byte) (ro : Bool) (s : State) : State :=
  let ex := s.openExtents d addr data.length true
  (s.pushWrites org d cls addr data ro none ex.length ex).windowRefused d

/-- Writes one after another, up to the first that is refused; the second component says that all were sent. -/
def State.writeEach (org : Org) (d cls : Nat) : List (Nat × List Byte) → State → State × Bool
  | [], s => (s, true)
  | (a, b) :: l, s => match s.writeHost org d cls a b false with
    | some s => State.writeEach org d cls l s
    | none => (s.writeRefused org d cls a b false, false)

/-- Completions of a read of `n` bytes at `a`: each at most `m` long, split at multiples of 64 (R364). -/
def cutCpl (m : Nat) : Nat → Nat → Nat → List (Nat × Nat)
  | 0, _, _ => []
  | k + 1, a, n =>
    let c := min n (m - a % 64)
    if c = n then [(a, n)] else (a, c) :: cutCpl m k (a + c) (n - c)

/-- Korlet answers a read of the host (R364); `e` is the open read that it collects. -/
def State.answer (t : HostTxn) (status : Nat) (data : List Byte) (s : State) (e : Option OpenRead := none) : State :=
  let cuts := if status = 0 then cutCpl s.farMax data.length t.addr.toNat data.length else [(t.addr.toNat, 0)]
  s.each cuts.zipIdx (fun c s => s.txPush {
    kind := .cpl, tag := t.tag.toNat, dom := t.dom.toNat, cls := t.cls.toNat
    sub := (if c.2 + 1 = cuts.length then 0x80 else 0) + status, len := c.1.2, addr := c.1.1
    data := bytesAt data (c.1.1 - t.addr.toNat) c.1.2, read := if c.2 + 1 = cuts.length then e else none })

/-- Reads of a kind that serve a ring are dropped: their data is not used when it comes (R396). -/
def State.dropJobs (k : OrgKind) (g : Nat) (s : State) : State :=
  s.modGwl (fun l => { l with jobs := l.jobs.filter (fun j => !(j.org.kind == k && j.org.ring == g)) })

end Sys2Proof.Machine
end

