-- ==== Sys2Proof/Machine/PrdChecks.lean ====
section
/-!
DEFINITION. Machine/PrdChecks.lean: the checks of a product definition that read the definition, its tables and the shape of its
sources (R221 to R263, R267): BRANCH, FORMAT, TABLE, MESH, FAST, CLASS, ALIGN and the scope of an update (R272).
-/
namespace Sys2Proof.Machine

/-! Layout of the definition (R261, R266). -/

/-- The branch layout breaks R261: the branch concerned, or none for the trunk and INPUTS. -/
def badBranch (b : List Byte) : Option Nat :=
  let n := pdbNbr b
  let run := (List.range n).find? (fun i =>
    pdbBrLast b i < pdbBrFirst b i || pdbNops b ≤ pdbBrLast b i
      || pdbBrFirst b i != (if i = 0 then 0 else pdbBrLast b (i - 1) + 1))
  let join := if n = 1 then none else some (pdbTrunk b)
  let inputs := (List.range (pdbNops b)).find? (fun k =>
    let d := pdbOp b k
    if join == some k then
      !((opCode d == 0x0C || (opCode d == 0x04 && dfld d 4 31 30 == 1)) && opInputs d == 2 ^ n - 1)
    else opInputs d != 0)
  match run with
  | some i => some i
  | none => if n ≠ 1 ∧ pdbNops b ≤ pdbTrunk b then some 0xFF else inputs

/-- Some header field of the definition is out of range or reserved bits of it are set (R266, R281). TBL_BYTES is a positive multiple
of 64 (R260). -/
def badHeader (b : List Byte) : Bool :=
  pfld b 0 19 8 != 0 || pfld b 8 26 26 != 0 || pfld b 8 15 0 != 0 || pfld b 12 31 18 != 0
  || (List.range 4).any (fun i => pfld b (32 + 4 * i) 31 14 != 0) || leAt b 48 16 != 0
  || pdbDestKind b == 3 || pdbTwCode b == 3 || pdbThCode b == 3 || 1020 < pdbHold b
  || pdbNops b == 0 || 16 < pdbNops b || pdbTblBytes b == 0 || pdbTblBytes b % 64 != 0 || pdbTblAddr b % 64 != 0
  || pdbOutW b < 16 || 16384 < pdbOutW b || pdbOutH b == 0

/-! One operation (R221, R223, R234 to R259). -/

/-- Bits of words 1 to 7 of a descriptor that its operation's section lists (R221). -/
def opUsed (code : Nat) : List Nat :=
  let a := 0xFFFFFFFF
  match code with
  | 0x01 => [a, a, 1, 0, 0, 0, 0]
  | 0x02 => [a, a, 0x7F, a, 0, 0, 0]
  | 0x03 => [a, 0x3FFF, a, 0, 0, 0, 0]
  | 0x04 => [0xF00FFFFF, 0xFFFFFF, 0xFFFFFF, 0xFFFFFF, 0, 0, 0]
  | 0x05 => [a, 0xFF00FFFF, 0, 0, 0, 0, 0]
  | 0x06 => [3, a, 0xFFFF, 0, 0, 0, 0]
  | 0x07 => [a, a, a, a, a, a, 0x1F]
  | 0x08 => [a, a, 0x0FFFFFFF, 0, 0, 0, 0]
  | 0x09 => [a, a, a, 0x1FF, a, 0xFFFF, 0]
  | 0x0A => [0xFFFFFF, 0xFFFFFF, a, a, a, a, a]
  | 0x0B => [0xFF, a, a, a, a, a, a]
  | 0x0C => [a, a, a, a, a, a, 0xF]
  | 0x0D => [a, a, 0x1F0FFFFF, 0xFFFFFF, 0, 0, 0]
  | 0x0E => [0x3FFF, 0xFF, 0, 0, 0, 0, 0]
  | 0x0F => [a, 1, 0, 0, 0, 0, 0]
  | 0x10 => [0xFFFF, a, a, a, a, 0x1F, 0]
  | 0x11 => [a, a, a, a, 0, 0, 0]
  | _ => [0, 0, 0, 0, 0, 0, 0]

/-- Reserved bits of a descriptor are set, or its OP code is none of R228. -/
def opReserved (d : OpDesc) : Bool :=
  dfld d 0 31 24 != 0 || dfld d 0 19 16 != 0 || opCode d == 0 || 0x11 < opCode d
  || (List.range 7).any (fun k =>
      let w := leAt d (4 + 4 * k) 4
      w &&& ((opUsed (opCode d)).getD k 0) != w)

/-- Fields of an operation that have a range of their own (R234 to R259). -/
def opFieldBad (d : OpDesc) : Bool :=
  match opCode d with
  | 0x01 => dfld d 8 31 16 == 0 || dfld d 8 15 0 == 0 || 16384 < dfld d 8 15 0
  | 0x02 => dfld d 12 4 0 == 1 || 17 < dfld d 12 4 0
  | 0x04 => dfld d 4 31 30 == 3 || 12 < dfld d 4 19 16 || (dfld d 4 31 30 != 2 && dfld d 4 29 28 == 0)
  | 0x05 => dfld d 8 31 28 < 3 || 10 < dfld d 8 31 28 || dfld d 8 27 24 < 3 || 10 < dfld d 8 27 24
      || dfld d 8 15 8 < 2 || 65 < dfld d 8 15 8 || dfld d 8 7 0 < 2 || 65 < dfld d 8 7 0
  | 0x06 => dfld d 4 1 0 == 3 || (dfld d 4 1 0 != 0 && (opCfa d).1 != 3)
  | 0x08 => dfld d 12 19 19 == 1 && (dfld d 12 17 14 < 4 || 10 < dfld d 12 17 14 || dfld d 12 13 10 < 4 || 10 < dfld d 12 13 10
      || dfld d 12 9 5 == 0 || 16 < dfld d 12 9 5 || dfld d 12 4 0 == 0 || 16 < dfld d 12 4 0)
  | 0x09 => dfld d 12 31 16 == 0 || dfld d 12 15 0 == 0 || 28 < dfld d 16 7 3 || dfld d 16 2 0 < 4 || 5 < dfld d 16 2 0
  | 0x0A => dfld d 4 23 0 < 0x10000 || 0x200000 < dfld d 4 23 0 || dfld d 8 23 0 < 0x10000 || 0x200000 < dfld d 8 23 0
      || dfld d 20 31 16 == 0 || dfld d 20 15 0 == 0
  | 0x0B => dfld d 4 6 5 == 3 || (dfld d 4 7 7 == 1 && (dfld d 4 4 3 != 3 || dfld d 4 6 5 != 0))
  | 0x0C => dfld d 4 31 16 == 0 || dfld d 4 15 0 == 0 || 3 < dfld d 28 3 1
  | 0x0D => 16 < dfld d 12 28 24 || dfld d 12 15 8 == 0 || 32 < dfld d 12 15 8 || dfld d 12 7 0 == 0 || 32 < dfld d 12 7 0
  | 0x0E => dfld d 4 13 9 == 0 || 16 < dfld d 4 13 9
  | 0x10 => 16 < dfld d 24 4 0
  | _ => false

/-- Input formats of each PACK format, and its existence (R254). -/
def packInput (fmt : Nat) (f : Fmt) : Bool := match fmt with
  | 0x00 | 0x01 | 0x02 | 0x03 => f == .raw16 || f == .y16
  | 0x08 | 0x09 | 0x0A | 0x0B | 0x0C => f == .yuv422
  | 0x0D => f == .yuv16
  | 0x10 | 0x11 | 0x12 | 0x13 | 0x14 => f == .rgb16
  | _ => false

/-- Pixels that the product width is a multiple of (R254). -/
def packWhole (fmt : Nat) : Nat := match fmt with
  | 0x01 => 4
  | 0x02 | 0x08 | 0x09 | 0x0A | 0x0B | 0x0C => 2
  | _ => 1

/-- Operations that take a line of several exposures (R223). -/
def takesExposures (code : Nat) : Bool :=
  code == 0x01 || code == 0x02 || code == 0x03 || code == 0x04 || code == 0x05 || code == 0x08 || code == 0x0D || code == 0x0E

/-- The operation takes its input: format, exposures and size (R223, R234 to R259). -/
def opAccepts (d : OpDesc) (i : Img) (ins : List (Nat × Img)) : Bool :=
  (i.e == 1 || takesExposures (opCode d)) &&
  (match opCode d with
  | 0x01 => dfld d 4 15 0 + dfld d 8 15 0 ≤ i.w && dfld d 4 31 16 + dfld d 8 31 16 ≤ i.h
      && (i.fmt != .yuv422 || (dfld d 4 0 0 == 0 && dfld d 8 0 0 == 0))
  | 0x02 => i.fmt.isRaw && (dfld d 12 4 0 == 0 || i.fmt == .raw16)
  | 0x03 => i.fmt.isRaw
  | 0x04 =>
    let e := dfld d 4 29 28 + 1
    if dfld d 4 31 30 = 1 then
      ins.length == e && ins.all (fun p => p.2.fmt == .raw16 && p.2.e == 1 && p.2.w == i.w && p.2.h == i.h)
    else i.fmt == .raw16 && i.e == e
  | 0x05 => i.fmt.isRaw || i.fmt == .rgb16 || i.fmt == .rgb24
  | 0x06 => i.fmt.isRaw && i.fam != 0
  | 0x07 => if dfld d 28 4 4 = 1 then i.fmt == .rgbi16 || i.fmt == .rgbi24 else i.fmt == .rgb16 || i.fmt == .rgb24
  | 0x08 => i.fmt.isRaw || i.fmt == .rgb16 || i.fmt == .rgb24
  | 0x09 | 0x0A | 0x10 => i.fmt == .rgb16 || i.fmt == .yuv16 || i.fmt == .y16
  | 0x0B => if dfld d 4 7 7 = 1 then i.fmt == .yuv16 else i.fmt == .rgb16
  | 0x0C => (i.fmt == .rgb16 || i.fmt == .yuv16 || i.fmt == .y16) && ins.all (fun p => p.2.fmt == i.fmt && p.2.e == 1)
  | 0x0D => i.fmt != .packed
  | 0x0E =>
    let f := dfld d 4 7 0
    packInput f i.fmt && i.w * i.e % packWhole f == 0 && (!packPlanar d || (i.h % 2 == 0 && i.h ≤ 40960))
  | 0x0F => i.fmt == .packed
  | 0x11 => i.fmt == .rgb16 || i.fmt == .yuv16
  | _ => false)

/-- Position of the demosaic, when the chain has one. -/
def firstDms (b : List Byte) : Option Nat := (List.range (pdbNops b)).find? (fun k => opCode (pdbOp b k) == 0x06)

/-- CFA fields of position `k` break R225: one set of fields up to DMS and 0 behind it; 0 throughout for a source that is not raw.
DEDUCED: with several branches the rule holds along each branch and the trunk behind it. -/
def cfaBad (b : List Byte) (raw : Nat → Bool) (k : Nat) : Bool :=
  let c := opCfa (pdbOp b k)
  let p := cfaPeriod c.1
  let own := (List.range (pdbNbr b)).filter (fun i => (pdbBranch b i).any (· == k))
  let brs := if own.isEmpty then List.range (pdbNbr b) else own
  let path := fun (i : Nat) => (pdbBranch b i ++ pdbTrunkPos b).filter (· < k)
  let past := brs.any (fun i => (path i).any (fun j => opCode (pdbOp b j) == 0x06))
  let first := brs.headD 0
  p ≤ c.2.1 || p ≤ c.2.2
  || (if past || brs.any (fun i => !raw i) then c != (0, 0, 0) else c != opCfa (pdbOp b (pdbBrFirst b first)))

/-- Width and lines of the product in its own terms: pixels before the last PACK, without chroma lines (R255, R266). -/
def outSize (b : List Byte) (src : Nat → Img) : Nat × Nat :=
  let last := ((List.range (pdbNops b)).filter (fun k => opCode (pdbOp b k) != 0x0F)).getLast?
  match last with
  | some k =>
    if opCode (pdbOp b k) = 0x0E then
      let i := chainIn b [] false src k
      (i.w * i.e, i.h)
    else
      let i := chainImg b [] false (fun _ _ => none) src
      (i.w, i.h)
  | none => (0, 0)

/-- The chain breaks FORMAT: the position concerned, or 0xFF (R267, R281, R431). -/
def badFormat (b : List Byte) (src : Nat → Img) (raw : Nat → Bool) : Option Nat :=
  if badHeader b then some 0xFF
  else
    let bad := (List.range (pdbNops b)).find? (fun k =>
      let d := pdbOp b k
      let brs := branchImgs b [] false (fun _ _ => none) src
      opReserved d || opFieldBad d || cfaBad b raw k || !opAccepts d (chainIn b [] false src k) (joinInputs d brs))
    match bad with
    | some k => some k
    | none =>
      let n := pdbNops b
      let d := pdbOp b (n - 1)
      if pdbDestKind b = 1 ∧ ¬ (opCode d = 0x0E ∧ (dfld d 4 7 0 = 0x10 ∨ dfld d 4 7 0 = 0x12 ∨ dfld d 4 7 0 = 0x13)) then some (n - 1)
      else
        let o := outSize b src
        let i := chainImg b [] false (fun _ _ => none) src
        if o.1 ≠ pdbOutW b ∨ o.2 ≠ pdbOutH b ∨ 65536 < i.lineSize then some 0xFF else none

/-! Tables (R222). -/

/-- Mask extents of MERGE (R251): for each input with a mask, its offset and its bytes. -/
def mergeMasks (d : OpDesc) (t : List Byte) (ins : List (Nat × Img)) : List (Nat × Nat) :=
  ins.filterMap (fun p =>
    let off := leAt t (8 + 8 * p.1) 4
    if off = 0 then none else some (off, leAt t (12 + 8 * p.1) 2 * ceilDiv p.2.h (2 ^ dfld d 28 3 1)))

/-- Tables that an operation names: TBL and size in bytes (R222). -/
def opTables (d : OpDesc) (area : List Byte) (ins : List (Nat × Img)) : List (Nat × Nat) :=
  match opCode d with
  | 0x02 => if dfld d 12 4 0 = 0 then [] else [(leAt d 16 4, 8 * dfld d 12 4 0)]
  | 0x03 => if dfld d 8 13 13 = 1 ∧ dfld d 8 11 0 ≠ 0 then [(leAt d 12 4, 4 * dfld d 8 11 0)] else []
  | 0x05 => [(leAt d 4 4, 8 * (dfld d 8 15 8 * dfld d 8 7 0))]
  | 0x08 => (leAt d 4 4, 354) ::
      (if dfld d 12 19 19 = 1 then [(leAt d 8 4, 354 * (dfld d 12 9 5 * dfld d 12 4 0))] else [])
  | 0x09 => [(leAt d 4 4, 8 * (dfld d 8 15 0 * dfld d 8 31 16))]
  | 0x0A => [(leAt d 24 4, 1024), (leAt d 28 4, 512)]
  | 0x0C =>
    let t := tblAt area (leAt d 24 4)
    [(leAt d 24 4, (mergeMasks d t ins).foldl (fun m p => max m (p.1 + p.2)) 64)]
  | 0x11 => [(leAt d 12 4, dfld d 8 31 16 * dfld d 8 15 0), (leAt d 16 4, 1024)]
  | _ => []

/-- A table lies in the area with its CRC behind it, and the CRC is good (R222). -/
def tableGood (area : List Byte) (bytes : Nat) (t : Nat × Nat) : Bool :=
  64 * t.1 + t.2 + 4 ≤ bytes && crc32c (bytesAt area (64 * t.1) t.2) == leAt area (64 * t.1 + t.2) 4

/-- The curve of BLC (R235). -/
def curveGood (d : OpDesc) (area : List Byte) : Bool :=
  let t := tblAt area (leAt d 16 4)
  let n := dfld d 12 4 0
  n == 0 ||
    ((List.range n).all (fun k => leAt t (8 * k + 2) 2 == 0 && leAt t (8 * k + 7) 1 == 0)
      && (curvePoint t 0).1 == 0 && (curvePoint t (n - 1)).1 == 0xFFFF
      && (List.range (n - 1)).all (fun k => (curvePoint t k).1 < (curvePoint t (k + 1)).1 && (curvePoint t k).2 ≤ (curvePoint t (k + 1)).2))

/-- The static list of DPC is sorted by Y, then X, and lies within the stream (R222, R236). -/
def dpcGood (d : OpDesc) (area : List Byte) (sw sh : Nat) : Bool :=
  let t := tblAt area (leAt d 12 4)
  let n := dfld d 8 11 0
  let at_ := fun (k : Nat) => (leAt t (4 * k) 2, leAt t (4 * k + 2) 2)
  dfld d 8 13 13 == 0 ||
    ((List.range n).all (fun k => (at_ k).1 < sw && (at_ k).2 < sh)
      && (List.range (n - 1)).all (fun k => (at_ k).2 < (at_ (k + 1)).2 || ((at_ k).2 == (at_ (k + 1)).2 && (at_ k).1 < (at_ (k + 1)).1)))

/-- The grid of LSC covers every position of its input (R238). -/
def lscGood (d : OpDesc) (i : Img) : Bool :=
  let m := i.streamPx (i.w - 1) (i.h - 1)
  let xm := m.1
  let ym := m.2
  xm ≤ (dfld d 8 7 0 - 1) * 2 ^ dfld d 8 27 24 && ym ≤ (dfld d 8 15 8 - 1) * 2 ^ dfld d 8 31 28

/-- Coefficients of SCALE are Q2.10 numbers (R222, R247). DEDUCED: a 16-bit entry holds the 12-bit value with its sign extended. -/
def scaleGood (d : OpDesc) (area : List Byte) : Bool :=
  let ok := fun (tbl n : Nat) => (List.range n).all (fun k =>
    let v := signed 16 (leAt (tblAt area tbl) (2 * k) 2)
    decide (-2048 ≤ v) && decide (v < 2048))
  ok (leAt d 24 4) 512 && ok (leAt d 28 4) 256

/-- The mask header of MERGE (R251): reserved bytes are 0; a mask lies behind the header and has rows. -/
def masksGood (d : OpDesc) (area : List Byte) (ins : List (Nat × Img)) : Bool :=
  let t := tblAt area (leAt d 24 4)
  leAt t 6 2 == 0 && leAt t 40 24 == 0 && (List.range 4).all (fun k => leAt t (15 + 8 * k) 1 == 0)
    && ins.all (fun p => let off := leAt t (8 + 8 * p.1) 4
                         off == 0 || (64 ≤ off && leAt t (12 + 8 * p.1) 2 != 0))

/-- The chain breaks TABLE: the position concerned (R222, R238). -/
def badTable (b area : List Byte) (src : Nat → Img) : Option Nat :=
  (List.range (pdbNops b)).find? (fun k =>
    let d := pdbOp b k
    let brs := branchImgs b area false (fun _ _ => none) src
    let ins := joinInputs d brs
    let br := ((List.range (pdbNbr b)).find? (fun i => (pdbBranch b i).any (· == k))).getD 0
    !(opTables d area ins).all (tableGood area (pdbTblBytes b))
    || (match opCode d with
      | 0x02 => !curveGood d area
      | 0x03 => !dpcGood d area (src br).w (src br).h
      | 0x05 => !lscGood d (chainIn b area false src k)
      | 0x09 => 262144 < 8 * (dfld d 8 15 0 * dfld d 8 31 16)
      | 0x0A => !scaleGood d area
      | 0x0C => !masksGood d area ins
      | _ => false))

/-- The mesh of a WARP keeps R243 and R245. -/
def meshGood (d : OpDesc) (area : List Byte) : Bool :=
  let t := tblAt area (leAt d 4 4)
  let mw := dfld d 8 15 0
  let mh := dfld d 8 31 16
  let cell := 2 ^ dfld d 16 2 0
  let ys := fun (r : Nat) => [r, r + 1].flatMap (fun q => (List.range mw).map (fun a => (meshNode t mw a q).2 / 256))
  let lo := fun (r : Nat) => (ys r).foldl min ((ys r).headD 0)
  let hi := fun (r : Nat) => (ys r).foldl max ((ys r).headD 0)
  ceilDiv (dfld d 12 15 0 - 1) cell + 1 ≤ mw && ceilDiv (dfld d 12 31 16 - 1) cell + 1 ≤ mh
    && (List.range (mh - 1)).all (fun r => decide (hi r - lo r ≤ dfld d 16 7 3))
    && (List.range (mh - 2)).all (fun r => decide (lo r ≤ lo (r + 1)))

/-- The chain breaks MESH: the position concerned. -/
def badMesh (b area : List Byte) : Option Nat :=
  (List.range (pdbNops b)).find? (fun k => opCode (pdbOp b k) == 0x09 && !meshGood (pdbOp b k) area)

/-! Marks of the product (R20, R228, R230, R253, R256). -/

/-- The product breaks FAST: the position concerned, or 0xFF (R20, R228). -/
def badFast (b : List Byte) : Option Nat :=
  if ¬ pdbFast b then none
  else if 2 ≤ pdbClass b ∨ pdbDestKind b = 2 then some 0xFF
  else (List.range (pdbNops b)).find? (fun k => opCode (pdbOp b k) == 0x10)

/-- The product breaks CLASS: the position concerned (R230, R253, R256). -/
def badClass (b : List Byte) : Option Nat :=
  (List.range (pdbNops b)).find? (fun k =>
    let d := pdbOp b k
    (pdbClass b == 0 && opHasLean (opCode d) && (opLeanOk d || opLeanOnly d))
    || (opCode d == 0x0F && (k + 1 != pdbNops b || pdbDestKind b != 0))
    || (opCode d == 0x0D && (pdbDestKind b == 1 || 61440 ≤ pdbLines b)))

/-- The footprint of one branch holds that of another for output line `n` of a fast product, clipped to a source of `h` lines. -/
def footHolds (b area : List Byte) (h n i j : Nat) : Bool :=
  let p := rowFoot b area i n h
  let q := rowFoot b area j n h
  p.1 ≤ q.1 && q.2 ≤ p.2

/-- A fast product breaks ALIGN (R267): the stream concerned. `counts` says which branches are compared: without a table area, those
whose footprint needs no mesh. -/
def badAlign (b area : List Byte) (height : Nat → Nat) (counts : Nat → Bool) : Option Nat :=
  if ¬ pdbFast b then none
  else (pdbStreams b).eraseDups.find? (fun st =>
    let brs := (List.range (pdbNbr b)).filter (fun i => pdbBrStream b i == st && counts i)
    2 ≤ brs.length && (List.range (pdbOutH b)).any (fun n =>
      !brs.any (fun i => brs.all (fun j => footHolds b area (height st) n i j))))

/-! Tile limits (R187). -/

/-- Bytes of one tile's staged footprint: of the sources that it reads from the pool. -/
def stagedBytes (b area : List Byte) (src : Nat → Img) (brs : List Nat) (r : Rect) : Nat :=
  footArea b area src brs (fun i => let g := src i
                                    g.e * g.fmt.comps * g.fmt.sampleBytes) r

/-- A slow product breaks the tile limits; `brs` are the branches whose footprint counts. -/
def badSlowTile (b area : List Byte) (src : Nat → Img) (brs : List Nat) : Bool :=
  let warp := pdbHas b 0x09
  4096 < pdbTw b * pdbTh b || (warp && (pdbTwCode b == 2 || pdbThCode b == 0))
  || (List.range (pdbRows b)).any (fun r => (List.range (pdbCols b)).any (fun c => 24576 < stagedBytes b area src brs (tileRect b r c)))

/-! Updates (R272). -/

/-- Shape of an operation in a chain: what an update must keep (R272). -/
def opShape (b : List Byte) (src : Nat → Img) (k : Nat) : List Nat :=
  let d := pdbOp b k
  let i := stageImg b [] false src k
  [opCode d, opInputs d, dfld d 0 15 10, (opSupport d).1, (opSupport d).2, i.w, i.h, i.e, i.fmt.ctorIdx,
    if opCode d = 0x0E then dfld d 4 7 0 else 0, if opCode d = 0x0D then statLines d else 0]

/-- The new definition changes more than R272 allows. -/
def badScope (old new : List Byte) (src : Nat → Img) : Bool :=
  bytesAt old 0 20 != bytesAt new 0 20 || bytesAt old 32 32 != bytesAt new 32 32
  || (List.range (pdbNops old)).any (fun k => opShape old src k != opShape new src k)

end Sys2Proof.Machine
end

