-- ==== Sys2Proof/Machine/Tiles.lean ====
section
/-!
DEFINITION. Machine/Tiles.lean: what a tile reads and what it computes (R188, R189, R227): source lines as images, the chain's output for
one tile, stitch stages (R296), TNR references (R257, R294), the sampler (R615).
-/
namespace Sys2Proof.Machine

/-! Source lines. -/

/-- The line that product `i` reads as line `l` of `(st, f)`: the tile former's substitute that it has used, else the published line
(R121). -/
def State.srcLine (s : State) (i st f l : Nat) : Option (Nat × PLine) :=
  let sub := (s.subLine st f l).bind (fun d => (s.line d).map (fun q => (d, q)))
  match sub with
  | some c => if c.2.holders.any (· == i) then some c else raw
  | none => raw
where
  raw : Option (Nat × PLine) :=
    (s.rawLine st f l).bind (fun d => (s.line d).bind (fun q => if q.published then some (d, q) else none))

/-- Bytes, flags and arrival of a source line; a line that is not there is FILL (R117, R169). -/
def State.srcData (s : State) (i st f l : Nat) : List Byte × Nat × Option Pos :=
  match s.srcLine i st f l with
  | some (_, q) => (q.data, q.flags % 32, some { raster := q.raster, frame := q.arrFrame, line := q.arrLine, frac := q.arrFrac })
  | none => ((s.frameFmt st f).fillLine, 2 + 4 + 8, none)

/-- Sample of a source line. -/
def lineSample (dt w : Nat) (b : List Byte) (seg : Nat) (x : Int) (c : Nat) : Nat :=
  let n := dtContainer dt
  leAt b (((seg * w + x.toNat) * dtSamples dt + c) * n) n

/-- A stream frame as an image, from the bytes of its lines. -/
def OpenFrame.img (o : OpenFrame) (first : OpDesc) (lines : List (Nat × List Byte)) : Img :=
  srcImg o.dt o.width o.height o.exposures first (fun seg x y c =>
    match lines.find? (fun l => l.1 == y.toNat) with
    | some l => lineSample o.dt o.width l.2 seg x c
    | none => 0)

/-- The later of two arrivals. -/
def laterPos2 (a b : Pos) : Pos :=
  if frameGt b.frame a.frame ∨ (b.frame = a.frame ∧ a.line * 256 + a.frac < b.line * 256 + b.frac) then b else a

/-! Footprints. -/

/-- Shapes of the sources under the values in force for a product frame (R39). -/
def State.frameShape (s : State) (q : PFrame) (i : Nat) : Img := (s.asOf (s.prdRaster q.pdb) q.frame).shapeSrc q.pdb i

/-- Source lines that tile row `r` of a product frame reads from the pool: (branch, stream, source frame, line). A slow tile has the lines
of its tile row (R160; DEDUCED, log 80). -/
def State.tileLines (s : State) (q : PFrame) (r : Nat) : List (Nat × Nat × Nat × Nat) :=
  (s.poolBranches q.pdb).flatMap (fun b =>
    let st := pdbBrStream q.pdb b
    match s.srcFrame q st with
    | some f =>
      let t := rowFoot q.pdb q.area b r (s.srcH st f)
      (List.range (t.2 + 1 - t.1)).map (fun k => (b, st, f, t.1 + k))
    | none => [])

/-- Some source of a slow product has not opened a frame yet (R264). -/
def State.lacksSource (s : State) (q : PFrame) : Bool :=
  (s.poolBranches q.pdb).any (fun b => (s.srcFrame q (pdbBrStream q.pdb b)).isNone)

/-- A line of a footprint is present (R189). -/
def State.present (s : State) (i : Nat) (fast : Bool) (st f l : Nat) : Bool :=
  (s.srcLine i st f l).isSome || (fast && (s.subLine st f l).isSome) || s.frameClosed st f

/-- Bytes of a tile's footprint (R187, R201): the columns that it spans of every line that it reads, each source once (R263). -/
def State.footBytes (s : State) (q : PFrame) (r c : Nat) : Nat :=
  stagedBytes q.pdb q.area (s.frameShape q) (s.poolBranches q.pdb) (tileRect q.pdb r c)

/-- A source line as a strip reads it: one that an earlier strip has read stays in the carry lines (R139, R188). -/
def State.readLine (s : State) (i : Nat) (q : PFrame) (st f l : Nat) : CarryLine :=
  match q.carry.find? (fun c => c.st == st && c.frame == f && c.line == l) with
  | some c => c
  | none =>
    let d := s.srcData i st f l
    { st := st, frame := f, line := l, flags := d.2.1, arr := d.2.2, data := d.1 }

/-- What fast strip `r` reads, by branch. -/
def State.stripRead (s : State) (i : Nat) (q : PFrame) (r : Nat) : List (Nat × CarryLine) :=
  (s.tileLines q r).map (fun u => (u.1, s.readLine i q u.2.1 u.2.2.1 u.2.2.2))

/-- The carry lines once strip `r` has completed: what strips not yet completed still need of what it has read. -/
def State.carryOn (i : Nat) (q : PFrame) (r : Nat) (s : State) : State :=
  let got := (s.stripRead i q r).map (·.2) ++ q.carry
  let open_ := (List.range (pdbRows q.pdb)).filter (fun k => k != r && q.rows.get k == 0)
  let keep := got.eraseDups.filter (fun c => open_.any (fun k => (s.tileLines q k).any (fun u => u.2 == (c.st, c.frame, c.line))))
  s.modPFrame i q.frame (fun q => { q with carry := keep })

/-! Tables (R222, R268). -/

/-- Some operation of the chain reads a table. -/
def usesTables (pdb area : List Byte) : Bool := (pdbChain pdb).any (fun d => opTables d area [] != [])

/-- The table area as the memory that holds it delivers it, and whether a word of it is bad; none while the frame store has not been read. -/
def State.tableNow (s : State) (i : Nat) (q : PFrame) : Option (List Byte × Bool) :=
  if (s.product i).areaPool then some ((s.product i).tbls.get q.half) else q.tbl

/-- The tile reads a table with an uncorrectable error in it (R222). -/
def State.tableBad (s : State) (i : Nat) (q : PFrame) : Bool :=
  usesTables q.pdb q.area && (s.tableNow i q).any (·.2)

/-! Stitch stages (R296) and TNR references (R257, R258, R294). -/

/-- FILL value of the stream of branch `b`. -/
def State.fillOf (s : State) (pdb : List Byte) (b : Nat) : Nat := (s.frameFmt (pdbBrStream pdb b) 0).fill

/-- STREAM of the stage prefix of position `k`: of its branch, or of source 0 in the trunk (R262). -/
def stageStream (pdb : List Byte) (k : Nat) : Nat := match branchOf pdb k with
  | some i => pdbBrStream pdb i
  | none => pdbSrc0 pdb

/-- The latest complete stage frame of branch `b` that is not after frame `f` (R264): what a product frame keeps of it. -/
def Product.stageNow (p : Product) (b f : Nat) : Option (StageUse × List Nat) :=
  let here := fun (h : Nat) => ((p.stages.get (2 * b + h)).filter (fun k => k.done && frameGe f k.frame)).map (fun k =>
    (({ branch := b, frame := k.frame, half := h, flags := k.flags } : StageUse), k.badLines))
  match here 0, here 1 with
  | some x, some y => some (if frameGt y.1.frame x.1.frame then y else x)
  | some x, none => some x
  | none, y => y

/-- A line on its way into the frame store, under the stage seal of position `k` (R232, R291). -/
def keptWrite (rows : List Nat) (st prd f y k : Nat) (data : List Byte) : KeptWrite :=
  { rows := rows, data := pitched (1024 * rows.length) data (stageSeal st prd f y k data) }

/-- A source frame of a stitched branch has closed: the branch writes its last operation's lines to the next half of its stage
(R296). -/
def State.stitchBranch (i b f : Nat) (s : State) : State :=
  let p := s.product i
  match p.stageIn.get b with
  | none => s
  | some k =>
    if k.frame ≠ f then s
    else
      let st := pdbBrStream p.pdb b
      let o := s.frameFmt st f
      let first := pdbOp p.pdb (pdbBrFirst p.pdb b)
      let ls := (List.range o.height).map (fun l => match k.lines.find? (fun x => x.line == l) with
        | some x => (l, x.data)
        | none => (l, o.fillLine))
      let fl := k.lines.foldl (fun a x => a ||| x.flags % 32) (if k.lines.length < o.height then 14 else 0)
      let g := runBranch p.pdb p.area false (fun _ _ => none) (pdbBranch p.pdb b) (o.img first ls)
      let half := match p.stages.get (2 * b), p.stages.get (2 * b + 1) with
        | none, _ => 0
        | some _, none => 1
        | some x, some y => if frameGt y.frame x.frame then 0 else 1
      let ws := (List.range g.h).map (fun n =>
        keptWrite (s.stageRows i b half n) st i f n (pdbBrLast p.pdb b) (g.lineBytes n))
      s.modProduct i (fun p => { p with
        stages := p.stages.set (2 * b + half) (some { frame := f, done := true, flags := fl, badLines := k.bad })
        stageIn := p.stageIn.set b none, writes := p.writes ++ ws })

/-- The stream frame `(st, f)` has closed: every stitched branch on it writes its stage. -/
def State.stitchClose (st f : Nat) (s : State) : State :=
  s.each (s.stitchers st) (fun i s =>
    s.each ((List.range (pdbNbr (s.product i).pdb)).filter (fun b => b != 0 && pdbBrStream (s.product i).pdb b == st))
      (fun b s => s.stitchBranch i b f))

/-- Half that position `k` writes in the present frame; the other one is read. -/
def Product.tnrHalf (p : Product) (k : Nat) : Nat := (p.refCnt.get k + 1) % 2

/-- The product's frame before frame `f`: DIV raster frames earlier. -/
def State.prevFrame (s : State) (pdb : List Byte) (f : Nat) : Nat :=
  (f + 2 ^ 32 - max 1 (s.strmFld F.RAS_STRM_CFG.DIV (pdbSrc0 pdb) f)) % 2 ^ 32

/-- A frame begins at the TNR positions: the next half takes it (R294); the reference of the frame before is there when that frame was
completed and is valid (R258). -/
def State.beginRefs (i f : Nat) (pdb : List Byte) (s : State) : State :=
  s.each (tnrPos pdb) (fun k s =>
    let p := s.product i
    if (p.refs.get (2 * k + p.tnrHalf k)).any (fun h => h.frame == f && !h.done) then s
    else
      let s := s.modProduct i (fun p =>
        let p := { p with refCnt := p.refCnt.upd k (· + 1) }
        { p with refs := p.refs.set (2 * k + p.tnrHalf k) (some { frame := f }) })
      let p := s.product i
      let ok := (p.refs.get (2 * k + 1 - p.tnrHalf k)).any (fun h => h.done && !h.bad && h.frame == s.prevFrame pdb f)
      s.when ok (·.modPFrame i f (fun q => { q with refOk := q.refOk ++ [k] })))

/-- Lines that a product frame has read back from the frame store: of the reference of position `k` (key `k`), of the stage of branch `b`
(key 16 + `b`). -/
def PFrame.keptLine (q : PFrame) (key y : Nat) : Option KeptLine := (q.kept.get key).find? (fun l => l.line == y)

/-- Lines of position `k`'s output that an output rectangle of a product frame needs. -/
def State.stageSpan (s : State) (q : PFrame) (k : Nat) (o : Rect) : Rect :=
  let g := stageImg q.pdb q.area false (s.frameShape q) k
  (stageRect q.pdb q.area (s.frameShape q) k o).clip g.w g.h

/-- Numbers of the lines of a rectangle. -/
def Rect.lines (r : Rect) : List Nat := (List.range r.height).map (r.y0.toNat + ·)

/-- Lines that an output rectangle needs from the frame store: key and line. TNR reads the lines beside a line for its means (R257). -/
def State.keptNeed (s : State) (q : PFrame) (o : Rect) : List (Nat × Nat) :=
  let refs := (tnrPos q.pdb).flatMap (fun k =>
    let r := s.stageSpan q k o
    let h := (stageImg q.pdb q.area false (s.frameShape q) k).h
    if q.refOk.any (· == k) ∧ ¬ r.isEmpty then
      ({ r with y0 := max 0 (r.y0 - 1), y1 := min ((h : Int) - 1) (r.y1 + 1) } : Rect).lines.map (fun y => (k, y))
    else [])
  refs ++ q.stages.flatMap (fun u =>
    ((joinRect q.pdb q.area (s.frameShape q) u.branch o).meet 16384 (s.stageShape q.pdb u.branch).1).lines.map (fun y => (16 + u.branch, y)))

/-- What the tile reads from the frame store has come: its tables and its kept lines. -/
def State.readBack (s : State) (i : Nat) (q : PFrame) (t : Tile) : Bool :=
  (!usesTables q.pdb q.area || (s.tableNow i q).isSome)
    && (s.keptNeed q (tileRect q.pdb t.row t.col)).all (fun u => (q.keptLine u.1 u.2).isSome)

/-- Sample of a stored line of a format. -/
def fmtSample (g : Img) (d : List Byte) (seg : Nat) (x : Int) (c : Nat) : Nat :=
  let n := g.fmt.sampleBytes
  leAt d (((seg * g.w + x.toNat) * g.fmt.comps + c) * n) n

/-- Output of branch `b` as the trunk reads it from its stage: FILL where no complete stage frame exists (R296). -/
def State.stageRead (s : State) (q : PFrame) (b : Nat) : Img :=
  let g := runBranch q.pdb q.area false (fun _ _ => none) (pdbBranch q.pdb b) (s.frameShape q b)
  let fill := s.fillOf q.pdb b
  { g with px := fun seg x y c => match q.keptLine (16 + b) y.toNat with
      | some l => fmtSample g l.data seg x c
      | none => fill }

/-- FLAGS that the stages of stitched branches give the lines: bit 2 where a branch has none (R296). -/
def State.stageFlags (s : State) (q : PFrame) : Nat :=
  if s.hasStitch q.pdb then
    ((List.range (pdbNbr q.pdb)).filter (· != 0)).foldl (fun a b => a ||| match q.stages.find? (fun u => u.branch == b) with
      | some u => u.flags
      | none => 4) 0
  else 0

/-- References as the chain reads them: samples of reference line `y` at position `k`, none when it is missing (R258). -/
def State.refs (s : State) (q : PFrame) (k y : Nat) : Option (Nat → Nat → Nat) :=
  match (q.keptLine k y).filter (fun l => !l.bad) with
  | some l =>
    let n := (stageImg q.pdb q.area false (s.frameShape q) k).fmt.comps
    some (fun x c => leAt l.data (2 * (x * n + c)) 2)
  | none => none

/-- A reference line that an output rectangle needs is missing (R258). -/
def State.lacksRef (s : State) (q : PFrame) (o : Rect) : Bool :=
  (tnrPos q.pdb).any (fun k => (s.stageSpan q k o).lines.any (fun y => (s.refs q k y).isNone))

/-- A line that an output rectangle reads from the frame store has failed its seal (R139, R147). -/
def State.keptBad (s : State) (q : PFrame) (o : Rect) : Bool :=
  (s.keptNeed q o).any (fun u => (q.keptLine u.1 u.2).any (·.bad))

/-- Output rectangle of output line `n` in tile column `c`; a chroma line lies on two lines (R255). -/
def lineRect (pdb : List Byte) (c n : Nat) : Rect :=
  let t := tileRect pdb 0 c
  if pdbOutH pdb ≤ n then { t with y0 := 2 * (n - pdbOutH pdb : Nat), y1 := 2 * (n - pdbOutH pdb : Nat) + 1 }
  else { t with y0 := n, y1 := n }

/-! Running a tile. -/

/-- The source lines that a tile computes from: by branch, line and bytes. -/
def State.tileGot (s : State) (i : Nat) (q : PFrame) (t : Tile) : List (Nat × Nat × List Byte) :=
  if t.fast then (s.stripRead i q t.row).map (fun u => (u.1, u.2.line, u.2.data)) else t.src

/-- The images that a tile's chain starts from. -/
def State.tileSrc (s : State) (q : PFrame) (got : List (Nat × Nat × List Byte)) (b : Nat) : Img :=
  let st := pdbBrStream q.pdb b
  let o := s.frameFmt st ((s.srcFrame q st).getD q.frame)
  o.img (pdbOp q.pdb (pdbBrFirst q.pdb b)) ((got.filter (fun u => u.1 == b)).map (·.2))

/-- Output of the chain up to position `stop` for a tile, from its source lines, its tables, its references and stages. -/
def State.tileImg (s : State) (i : Nat) (q : PFrame) (t : Tile) (stop : Nat := 16) : Img :=
  let src := s.tileSrc q (s.tileGot i q t)
  let area := ((s.tableNow i q).map (·.1)).getD q.area
  let stitch := s.hasStitch q.pdb
  let brs := (List.range (pdbNbr q.pdb)).map (fun b =>
    if stitch ∧ b ≠ 0 then s.stageRead q b
    else runBranch q.pdb area t.lean (s.refs q) ((pdbBranch q.pdb b).filter (· < stop)) (src b))
  match (List.range (pdbNbr q.pdb)).find? (fun b => (pdbBranch q.pdb b).any (· + 1 == stop)) with
  | some b => brs.getD b noImg
  | none => runTrunk q.pdb area t.lean (s.refs q) brs ((pdbTrunkPos q.pdb).filter (· < stop)) (brs.headD noImg)

/-- The later of two arrivals, if any. -/
def laterArr (a b : Option Pos) : Option Pos := match a, b with
  | some x, some y => some (laterPos2 x y)
  | none, y => y
  | x, none => x

/-- Flags that the source lines of a tile row give its lines (R278), with the latest arrival (R256). -/
def State.footFlags (s : State) (i : Nat) (q : PFrame) (r : Nat) : Nat × Pos :=
  let ls := (s.stripRead i q r).map (·.2)
  ((ls.foldl (fun a x => a ||| x.flags) 0 ||| s.stageFlags q) % 32,
    (ls.foldl (fun a x => laterArr a x.arr) none).getD { raster := s.prdRaster q.pdb })

/-! Stage seals (R232, R233). -/

/-- Bytes of stage line `y` as scratch holds it: the whole line of a strip, of a slow tile the segment that it holds of each exposure. -/
def stageBytes (pdb : List Byte) (g : Img) (r : Rect) (y : Nat) : List Byte :=
  let full := g.lineBytes y
  let x0 := r.x0.toNat
  if pdbFast pdb then full
  else if g.fmt = .packed then
    let w := max 1 (pdbOutW pdb)
    (full.take (full.length * min w (x0 + r.width) / w)).drop (full.length * min w x0 / w)
  else
    let px := g.fmt.comps * g.fmt.sampleBytes
    (List.range g.e).flatMap (fun e => bytesAt full ((e * g.w + x0) * px) (r.width * px))

/-- A failed stage seal: STREAM and LINE of its prefix, the seal stored and the seal computed. -/
structure StageFail where
  st : Nat := 0
  line : Nat := 0
  stored : Nat := 0
  computed : Nat := 0
  deriving DecidableEq, Repr, Inhabited

/-- The stage line that an upset of scratch has hit fails its seal when the next operation reads it (R232); none where the tile holds no
such byte. -/
def State.stageFail (s : State) (i : Nat) (q : PFrame) (t : Tile) (u : StageUpset) : Option StageFail :=
  let k := u.pos.val
  let y := u.line.toNat
  let r := s.stageSpan q k (tileRect q.pdb t.row t.col)
  let staged := s.hasStitch q.pdb && (branchOf q.pdb k).any (· != 0)
  if pdbNops q.pdb ≤ k + 1 ∨ staged ∨ ¬ r.lines.any (· == y) ∨ u.mask = 0 then none
  else
    let b := stageBytes q.pdb (s.tileImg i q t (k + 1)) r y
    if b.length ≤ u.ofs.toNat then none
    else
      let st := stageStream q.pdb k
      let hit := putBytes b u.ofs.toNat [b.getD u.ofs.toNat 0 ^^^ u.mask]
      some { st := st, line := y, stored := stageSeal st i q.frame y k b, computed := stageSeal st i q.frame y k hit }

/-- The stage lines of a run that fail, the first upset of each line (one seal is verified per line and pass). -/
def State.stageFails (s : State) (i : Nat) (q : PFrame) (t : Tile) (us : List StageUpset) : List StageFail :=
  (us.zipIdx.filter (fun u => !(us.take u.2).any (fun v => v.pos == u.1.pos && v.line == u.1.line))).filterMap (fun u => s.stageFail i q t u.1)

/-! References and statistics. -/

/-- The tile adds its TNR output lines to the next reference (R257): the columns that it computes. -/
def State.writeRefs (i : Nat) (q : PFrame) (t : Tile) (s : State) : State :=
  s.each (tnrPos q.pdb) (fun k u =>
    let g := s.tileImg i q t (k + 1)
    let r := s.stageSpan q k (tileRect q.pdb t.row t.col)
    let px := g.fmt.comps * g.fmt.sampleBytes
    let put := fun (h : KeptFrame) (y : Nat) =>
      let old := ((h.lines.find? (fun l => l.line == y)).map (·.data)).getD (List.replicate (g.w * px) 0)
      let new := putBytes old (r.x0.toNat * px) (bytesAt (g.lineBytes y) (r.x0.toNat * px) (r.width * px))
      if new = old ∧ h.lines.any (fun l => l.line == y) then h
      else { h with lines := h.lines.filter (fun l => l.line != y) ++ [{ line := y, data := new }], whole := h.whole.filter (· != y) }
    u.modProduct i (fun p => { p with refs := p.refs.upd (2 * k + p.tnrHalf k) (·.map (fun h => r.lines.foldl put h)) }))

/-- Every tile of row `r` has completed: the reference lines that the row computes go to the frame store, in line order (R257, R294). -/
def State.flushRefs (i : Nat) (q : PFrame) (r : Nat) (s : State) : State :=
  s.each (tnrPos q.pdb) (fun k s =>
    let p := s.product i
    let half := p.tnrHalf k
    let ys := ((List.range (pdbCols q.pdb)).flatMap (fun c => (s.stageSpan q k (tileRect q.pdb r c)).lines)).eraseDups
    match p.refs.get (2 * k + half) with
    | none => s
    | some h =>
      let due := (h.lines.filter (fun l => ys.any (· == l.line) && !h.whole.any (· == l.line))).mergeSort (fun a b => decide (a.line ≤ b.line))
      let ws := due.map (fun l => keptWrite (s.refRows q.pdb k half l.line) (stageStream q.pdb k) i q.frame l.line k l.data)
      s.modProduct i (fun p => { p with
        writes := p.writes ++ ws
        refs := p.refs.set (2 * k + half) (some { h with whole := h.whole ++ due.map (·.line) }) }))

/-- Tiles whose sums already hold their part of STAT's input when tile `t` adds its own: of a slow product those emitted before it, of a fast
one the strips that have completed. -/
def PFrame.statBefore (q : PFrame) (t : Tile) : List (Nat × Nat) :=
  if t.fast then ((List.range (pdbRows q.pdb)).filter (fun r => q.rows.get r == 1)).map (fun r => (r, 0))
  else (List.range (t.row * pdbCols q.pdb + t.col)).map (fun n => (n / max 1 (pdbCols q.pdb), n % max 1 (pdbCols q.pdb)))

/-- Columns of line `y` of STAT's input that a tile counts (R252): what it computes there less what other tiles count; a strip computes the
full width of the stage (R231). -/
def State.statOwn (s : State) (q : PFrame) (k : Nat) (t : Tile) (w y : Nat) : List (Nat × Nat) :=
  let cols := fun (u : Nat × Nat) =>
    let r := s.stageSpan q k (tileRect q.pdb u.1 u.2)
    if ¬ r.lines.any (· == y) then (0, 0)
    else if t.fast then (0, w) else (r.x0.toNat, r.x0.toNat + r.width)
  let mine := cols (t.row, t.col)
  gaps mine.1 mine.2 (joinRanges ((q.statBefore t).map cols))

/-- The tile adds its sums to the frame's statistics (R252). -/
def State.addStat (i : Nat) (q : PFrame) (t : Tile) (s : State) : State :=
  match (List.range (pdbNops q.pdb)).find? (fun k => opCode (pdbOp q.pdb k) == 0x0D) with
  | none => s
  | some k =>
    let g := s.tileImg i q t (k + 1)
    let d := pdbOp q.pdb k
    let acc := (s.stageSpan q k (tileRect q.pdb t.row t.col)).lines.foldl (fun a y =>
      (s.statOwn q k t g.w y).foldl (fun a u => statRegion d (opLean d t.lean) g u.1 u.2 y (y + 1) a) a) (q.stat.headD {})
    s.modPFrame i q.frame (fun q => { q with stat := [acc] })

/-- Passes of a tile (R231). -/
def State.tilePasses (s : State) (q : PFrame) (t : Tile) : List Pass :=
  if t.fast then
    if t.row = 0 then slowPasses q.pdb q.area t.lean (s.frameShape q) (tileRect q.pdb 0 0)
    else fastPasses q.pdb q.area t.lean (s.frameShape q) t.row
  else slowPasses q.pdb q.area t.lean (s.frameShape q) (tileRect q.pdb t.row t.col)

/-! The precise sampler (R615). -/

/-- Bytes of a sample record; what the model's instants do not fix is drawn as FREE VALUES: the start of the pass, its length, its stalls. -/
def sampleRecord (petal : Nat) (t : Tile) (p : Pass) (pdbAddr ras frame seq a b : Nat) : List Byte :=
  leBytes 4 (p.code <<< 24 + t.prd <<< 16 + petal <<< 8 + p.pos <<< 4 + a % 7)
  ++ leBytes 8 (pdbAddr + 64 + 32 * p.pos)
  ++ leBytes 4 ((a / 8) % 2 ^ 24 <<< 8 + ras <<< 5 + b2n p.lean <<< 4 + b2n t.fast <<< 3 + b2n t.stolen <<< 2)
  ++ leBytes 4 frame ++ leBytes 4 (b % 2 ^ 32) ++ leBytes 4 (b / 2 ^ 32)
  ++ leBytes 4 (seq % 65536 <<< 16 + min 65535 (p.lines * p.width))

/-- Store a record in the sample buffer. -/
def State.putSample (r : List Byte) (s : State) : State :=
  let n := s.pmu.samples.length
  if n < 1024 then
    let s := s.modPmu (fun q => { q with samples := q.samples ++ [r], seq := q.seq + 1 })
    let s := s.setFld F.PMU_SAMP_STAT.COUNT (n + 1)
    s.when (n + 1 == 1024 && !s.flag F.PMU_SAMP_CTRL.WRAP) (·.setFlag F.PMU_SAMP_STAT.FULL)
  else if s.flag F.PMU_SAMP_CTRL.WRAP then
    s.modPmu (fun q => { q with samples := q.samples.set (q.seq % 1024) r, seq := q.seq + 1 })
  else s.count F.PMU_SAMP_STAT.LOST

/-- Interval to the next selection (R615). -/
def State.nextInterval (s : State) : State :=
  let per := max 1 (s.fld F.PMU_SAMP_CTRL.PERIOD)
  if s.flag F.PMU_SAMP_CTRL.DITHER then
    (s.modPmu (fun q => { q with left := some (per + s.free % (per / 8 + 1)) })).draw
  else s.modPmu (fun q => { q with left := some per })

/-- A pass has ended (R615). -/
def State.samplePass (petal : Nat) (t : Tile) (p : Pass) (s : State) : State :=
  if s.flag F.PMU_CTRL.FREEZE ∨ ¬ s.flag F.PMU_SAMP_CTRL.EN
      ∨ (s.flag F.PMU_SAMP_FILT.PRD_EN ∧ s.fld F.PMU_SAMP_FILT.PRODUCT ≠ t.prd)
      ∨ (s.flag F.PMU_SAMP_FILT.OP_EN ∧ s.fld F.PMU_SAMP_FILT.OP ≠ p.code) then s
  else
    let s := if s.pmu.left.isNone then s.nextInterval else s
    let n := s.pmu.left.getD 1
    if 1 < n then s.modPmu (fun q => { q with left := some (n - 1) })
    else
      let a := s.free
      let s := s.draw
      let b := s.free
      let s := s.draw
      let prd := s.product t.prd
      let ras := s.prdRaster prd.pdb
      let r := sampleRecord petal t p prd.pdbAddr ras (s.ras.get ras).frame s.pmu.seq a b
      (s.putSample r).nextInterval

/-- The passes of a tile have ended: events of R613 and samples. -/
def State.passesEnd (petal : Nat) (t : Tile) (ps : List Pass) (s : State) : State :=
  s.each ps (fun p s =>
    let s := (s.pmuAdd 0x102 petal 1 (some t.cls)).pmuAdd 0x104 petal (p.lines * p.width / 1024) (some t.cls)
    (s.when p.lean (·.pmuAdd 0x103 petal 1 (some t.cls))).samplePass petal t p)

end Sys2Proof.Machine
end

