-- ==== Sys2Proof/Machine/Bloom.lean ====
section
/-!
DEFINITION. Machine/Bloom.lean: the tile former, the queues of the blooms, the petals' choice, staging, preemption, completion, and the
ledger (R140 to R147, R157, R165, R189 to R220).
-/
namespace Sys2Proof.Machine

/-! Deadlines (R70, R191, R207). -/

/-- Nanoseconds of a distance in 1/256 line of raster `n`. -/
def State.posNs (s : State) (n : Nat) (d : Int) : Int := d * (s.peff n : Int) * 10 / (256 * 2 ^ 32 * 12 : Nat)

/-- TOD of the boundary into frame `f` of raster `n`: recorded, or reckoned from the present position (R69). -/
def State.frameTod (s : State) (n f : Nat) : Int :=
  match (s.ras.get n).hist.find? (fun b => b.frame == f) with
  | some b => b.tod
  | none => (s.time.tod : Int) - s.posNs n (s.posFrom n f)

/-- End of line `l` of `(st, f)` in 1/256 line from the boundary of `f`: T(L), or the arrival of a free-running source (R191). -/
def State.lineEnd (s : State) (i st f l : Nat) : Int :=
  if s.trigMode st = 0 then
    match (s.srcLine i st f l).map (·.2) with
    | some q => signed 32 (q.arrFrame + 2 ^ 32 - f % 2 ^ 32) * (s.lines (s.strmRaster st) * 256 : Nat) + (q.arrLine * 256 + q.arrFrac : Nat)
    | none => s.posFrom (s.strmRaster st) f
  else s.target st f l

/-- Latest end of a footprint on the product's timing raster, in 1/256 line from the boundary of the product frame; a source on another
raster enters through the TOD record (R191). -/
def State.footEnd (s : State) (i : Nat) (q : PFrame) (r : Nat) : Int :=
  let n := s.prdRaster q.pdb
  let ends := (s.poolBranches q.pdb).filterMap (fun b =>
    let st := pdbBrStream q.pdb b
    (s.srcFrame q st).bind (fun f =>
      let u := rowFoot q.pdb q.area b r (s.srcH st f)
      let e := s.lineEnd i st f u.2
      let m := s.strmRaster st
      if u.2 < u.1 then none
      else if m = n ∧ f = q.frame then some e
      else
        let t := s.frameTod m f + s.posNs m e - s.frameTod n q.frame
        some (if s.peff n = 0 then 0 else t * (256 * 2 ^ 32 * 12 : Nat) / ((s.peff n : Int) * 10))))
  ends.foldl max (ends.headD 0)

/-- BLM_SLACK.LINES[c] for a product frame (R39). -/
def State.slack (s : State) (q : PFrame) (c : Nat) : Nat :=
  let s := s.asOf (s.prdRaster q.pdb) q.frame
  match c with
  | 0 => s.fld F.BLM_SLACK.LINES0
  | 1 => s.fld F.BLM_SLACK.LINES1
  | 2 => s.fld F.BLM_SLACK.LINES2
  | _ => s.fld F.BLM_SLACK.LINES3

/-- Deadline of a tile row, in 1/256 line from the boundary of the product frame (R191). -/
def State.deadline (s : State) (i : Nat) (q : PFrame) (r : Nat) : Int :=
  s.footEnd i q r + 256 * (if pdbFast q.pdb then 2 else (s.slack q (pdbClass q.pdb) : Int))

/-- The deadline of a tile has been reached. -/
def State.pastD (s : State) (t : Tile) : Bool := decide (t.dPos ≤ s.posFrom t.dRas t.dFrame)

/-! Choosing (R198). -/

/-- Tile `a` is better than tile `b` for a petal whose own queue is `k` (R198); a rerun goes ahead of every other tile of its class
(R147). -/
def tileLt (k : Nat) (a b : Tile) : Bool :=
  if a.cls ≠ b.cls then a.cls < b.cls
  else if a.rerun ≠ b.rerun then a.rerun
  else if a.dTod ≠ b.dTod then a.dTod < b.dTod
  else if a.fast ≠ b.fast then a.fast
  else if (a.slot == k && !a.fast) ≠ (b.slot == k && !b.fast) then a.slot == k && !a.fast
  else a.seq < b.seq

/-- The best tile of a list. -/
def bestTile (k : Nat) : List Tile → Option Tile
  | [] => none
  | t :: r => some (r.foldl (fun a b => if tileLt k b a then b else a) t)

/-- Tiles in the queues of a bloom. -/
def Bloom.queued (b : Bloom) : List Tile := (List.range 32).flatMap b.q.get

/-- Tiles that a bloom's petals run. -/
def Bloom.running (b : Bloom) : List (Nat × Tile) := (List.range 32).filterMap (fun k => (b.run.get k).map (fun t => (k, t)))

/-- Slow tiles of a bloom that no one has staged. -/
def Bloom.unstaged (b : Bloom) : List Tile := (b.queued ++ b.backlog).filter (fun t => !t.staged && !t.preempted)

/-- The petals of the bloom may start tiles: not halted, no clock change in progress, its clock and CORE running, not in the safe state (R25,
R217, R540, R607). -/
def State.canStart (s : State) (b : Nat) : Bool :=
  !s.flag F.BLM_CTRL.HALT b && (s.egv.clk.get b).isNone && s.clockUp (4 + b) && s.clockUp 3 && !s.fcl.safe

/-! Queues (R192, R197). -/

/-- Note the highest backlog (R216). -/
def State.noteBacklog (b : Nat) (s : State) : State :=
  let n := (s.blm.get b).backlog.length
  let s := s.setFld F.BLM_TF_STAT.BACKLOG_MAX (max n (s.fld F.BLM_TF_STAT.BACKLOG_MAX))
  s.when (decide (1024 ≤ n)) (fun s => s.setFld F.BLM_TF_STAT.BACKLOG_FULL (s.fld F.BLM_TF_STAT.BACKLOG_FULL ||| 1 <<< b))

/-- Put a slow tile into bloom `b`: queue of its slot, the next one with room, else the backlog (R192). -/
def State.enqueue (b : Nat) (t : Tile) (s : State) : State :=
  match (s.blm.get b).roomAt t.slot with
  | some k => s.modBlm b (fun x => { x with q := x.q.upd k (· ++ [{ t with slot := k }]) })
  | none => (s.modBlm b (fun x => { x with backlog := x.backlog ++ [t] })).noteBacklog b

/-- A queue entry that is free takes the oldest backlog tile (R197). -/
def State.refill (b : Nat) (s : State) : State := s.modBlm b (Bloom.refills 1)

/-- Remove a tile from the queues, the fast list and the backlog of bloom `b`; a freed entry takes the oldest backlog tile. -/
def State.takeTile (b : Nat) (t : Tile) (s : State) : State :=
  (s.modBlm b (fun x => { x with
    q := (List.range 32).foldl (fun q k => q.upd k (·.filter (fun u => u.seq != t.seq))) x.q
    fast := x.fast.filter (fun u => u.seq != t.seq)
    backlog := x.backlog.filter (fun u => u.seq != t.seq) })).refill b

/-! Staging and fragments (R140, R194, R195). -/

/-- Bytes of a line that tile column `c` owns (R140): of each interval of the read range its part by the tile's nominal columns. -/
def ownRanges (pdb : List Byte) (e : LedgerEnt) (c : Nat) : List (Nat × Nat) :=
  let w := max 1 (pdbOutW pdb)
  (e.ranges.map (fun u =>
    (u.1 + (u.2 - u.1) * min w (c * pdbTw pdb) / w, u.1 + (u.2 - u.1) * min w ((c + 1) * pdbTw pdb) / w))).filter (fun u => u.1 < u.2)

/-- Add a fragment to the ledger entry of line `d` for product `i`. -/
def State.addFrag (d i : Nat) (output : Bool) (fr : Fragment) (s : State) : State :=
  s.modSeals (fun q => { q with ledger := q.ledger.map (fun e =>
    if e.line = d ∧ e.prd = i ∧ e.output = output then { e with frags := e.frags ++ [fr] } else e) })

/-- The tile reports the fragments that it owns (R140): the first tile row whose footprint holds the line reports it. -/
def State.reportFrags (i : Nat) (q : PFrame) (t : Tile) (s : State) : State :=
  s.each ((s.tileLines q t.row).map (·.2)).eraseDups (fun u s =>
    let st := u.1
    let f := u.2.1
    let l := u.2.2
    let earlier := (List.range t.row).any (fun r => (s.poolBranches q.pdb).any (fun b => pdbBrStream q.pdb b == st
      && rowReads q.pdb q.area b r (s.srcH st f) l))
    if earlier then s
    else match s.srcLine i st f l with
      | none => s
      | some (d, x) => match s.seals.ledger.find? (fun e => e.line == d && e.prd == i && !e.output) with
        | none => s
        | some e => s.each (ownRanges q.pdb e t.col) (fun u s => s.addFrag d i false (fragOf x.data u.1 u.2)))

/-- Stage a slow tile (R195): its footprint is copied, its fragments are reported, once (R141, R205). -/
def State.stage (t : Tile) (s : State) : State × Tile :=
  if t.staged ∨ t.fast then (s, t)
  else match s.pframe t.prd t.frame with
    | none => (s, t)
    | some q =>
      let src := (s.tileLines q t.row).map (fun u => (u.1, u.2.2.2, (s.srcData t.prd u.2.1 u.2.2.1 u.2.2.2).1))
      let fl := s.footFlags t.prd q t.row
      let s := if t.reported then s else s.reportFrags t.prd q t
      (s.pmuAdd 0x0C4 t.bloom 1 (some t.cls),
        { t with staged := true, reported := true, src := src, srcFlags := fl.1, arr := fl.2 })

/-- The tile gives up its footprint slot: it is staged again later. -/
def Tile.unstage (t : Tile) : Tile := { t with staged := false, src := [], srcFlags := 0, arr := {} }

/-- The first `n` staged tiles of a queue keep their footprints (R194). -/
def trimQueue : Nat → List Tile → List Tile
  | _, [] => []
  | n, t :: l => if t.staged then (match n with
      | 0 => t.unstage :: trimQueue 0 l
      | k + 1 => t :: trimQueue k l) else t :: trimQueue n l

/-- Footprints in the scratch of a bloom: those of waiting tiles and those of the slow tiles that run. -/
def Bloom.foots (x : Bloom) : Nat := (x.queued.filter (·.staged)).length + (x.running.filter (fun c => !c.2.fast)).length

/-- The last waiting footprint of the highest queue that has one is given up, up to `n` times. -/
def Bloom.dropFoots : Nat → Bloom → Bloom
  | 0, x => x
  | n + 1, x => match (List.range 32).reverse.find? (fun k => (x.q.get k).any (·.staged)) with
    | some k => Bloom.dropFoots n { x with q := x.q.upd k (fun l => trimQueue ((l.filter (·.staged)).length - 1) l) }
    | none => x

/-- The footprint slots of a bloom hold two waiting tiles of each queue, 64 tiles in all (R194; which ones give way is a DESIGN CHOICE,
log 80). -/
def Bloom.trimFoots (x : Bloom) : Bloom :=
  let x := { x with q := (List.range 32).foldl (fun q k => q.upd k (trimQueue 2)) x.q }
  x.dropFoots (x.foots - 64)

/-! Starting a tile (R202, R603). -/

/-- A class-2 or class-3 tile that bloom `b` cannot pay waits for the next grant (R202); class 3 waits from level 2 on (R605). -/
def State.mustWait (s : State) (b : Nat) (t : Tile) : Bool :=
  2 ≤ t.cls && !t.paid && (decide ((s.blm.get b).gen < 256 * (t.cost : Int)) || (t.cls == 3 && 2 ≤ s.fld F.EGV_STAT.LEVEL))

/-- Pay a tile's cost from the pools of bloom `b` (R202). -/
def State.payTile (b : Nat) (t : Tile) (s : State) : State :=
  if t.paid then s
  else
    let c : Int := 256 * (t.cost : Int)
    if 2 ≤ t.cls then (s.modBlm b (fun x => { x with gen := x.gen - c })).pmuAdd 0x143 b t.cost (some t.cls)
    else
      let x := s.blm.get b
      let r := min c (max x.resv 0)
      let g := min (c - r) (max x.gen 0)
      let s := s.modBlm b (fun x => { x with resv := x.resv - (c - g), gen := x.gen - g })
      (s.pmuAdd 0x142 b ((c - g) / 256).toNat (some t.cls)).pmuAdd 0x143 b (g / 256).toNat (some t.cls)

/-- The contexts with which a tile opens its output lines (R145): a line that one tile makes is sealed as a whole, of another its fragment
goes to the ledger (R144). A preempted tile has its own (R146). -/
def State.tileCtx (s : State) (t : Tile) : List SealCtx :=
  match s.pframe t.prd t.frame with
  | some q =>
    if t.seals ≠ [] then t.seals
    else (pdbRowLines q.pdb t.row).map (fun n =>
      let head := sealHead (pdbSrc0 q.pdb) t.prd t.frame n
      if pdbCols q.pdb = 1 then SealCtx.line head else SealCtx.piece head)
  | none => []

/-- Petal `k` of bloom `b` starts a tile that has left its queue. -/
def State.startTile (b k : Nat) (t : Tile) (s : State) : State :=
  let g := s.stage t
  let s := (g.1.payTile b g.2).openCtx (unitPetal (32 * b + k)) (g.1.tileCtx g.2)
  let s := s.when g.2.preempted (·.pmuAdd 0x0CA b 1 (some t.cls))
  (s.modBlm b (fun x => Bloom.trimFoots { x with
    run := x.run.set k (some { g.2 with paid := true, preempted := false, seals := [] }) })).modTf
      (fun x => { x with thieves := x.thieves.filter (· != 32 * b + k) })

/-! Preemption (R204, R205). -/

/-- The victim among running slow tiles: highest class number, latest deadline, highest petal. -/
def victim : List (Nat × Tile) → Option (Nat × Tile)
  | [] => none
  | v :: r => some (r.foldl (fun a b =>
      if a.2.cls < b.2.cls ∨ (a.2.cls = b.2.cls ∧ (a.2.dTod < b.2.dTod ∨ (a.2.dTod = b.2.dTod ∧ a.1 < b.1))) then b else a) v)

/-- Saved contexts in the scratch of a bloom. -/
def Bloom.contexts (b : Bloom) : Nat :=
  ((b.queued.filter (·.ctx)) ++ (b.running.map (·.2)).filter (·.ctx)).length

/-- A preempted tile goes back to the head of its queue (R205); of a full queue the last tile gives way: to another queue, else to the head
of the backlog (R197; DESIGN CHOICE, log 80). -/
def Bloom.giveBack (v : Tile) (x : Bloom) : Bloom :=
  let l := x.q.get v.slot
  if l.length < 16 then { x with q := x.q.set v.slot (v :: l) }
  else
    let last := (l.getLast?.getD {}).unstage
    let y := { x with q := x.q.set v.slot (v :: l.dropLast) }
    match y.roomAt v.slot with
    | some k => { y with q := y.q.upd k (· ++ [{ last with slot := k }]) }
    | none => { y with backlog := last :: y.backlog }

/-- A fast strip that finds no free petal in its home bloom takes one from a running slow tile (R204, R205). The contexts of its open lines
are saved with the victim's (R146). -/
def State.preempt (b : Nat) (t : Tile) (s : State) : State :=
  let x := s.blm.get b
  if ¬ s.canStart b ∨ (List.range 32).any (fun k => (x.run.get k).isNone) then s
  else
    let slow := x.running.filter (fun c => !c.2.fast)
    let full := decide (256 ≤ x.contexts)
    let held := slow.filter (fun c => c.2.ctx)
    match (if full ∧ held ≠ [] then victim held else victim slow) with
    | none => s
    | some (k, v) =>
      let save := !full || v.ctx
      let u := unitPetal (32 * b + k)
      let open_ := (List.range (s.tileCtx v).length).map (s.ctxOf u)
      let back := { v with preempted := save, ctx := save, seals := if save then open_ else [] }
      let s := (s.modBlm b (fun x => { x with run := x.run.set k none }.giveBack back)).closeCtx u
      let s := (s.count F.BLM_CNT1.PREEMPT b).pmuAdd 0x0C9 b 1 (some v.cls)
      let s := s.when save (·.pmuAdd 0x10B (32 * b + k))
      (s.takeTile b t).startTile b k t

/-- The strips that wait in the fast list of bloom `b` take petals, best first (R204): no petal could be taken while the bloom started no
tile. -/
def State.preemptAll (b : Nat) : Nat → State → State
  | 0, s => s
  | n + 1, s => match bestTile 32 (s.blm.get b).fast with
    | some t => State.preemptAll b n (s.preempt b t)
    | none => s

/-- A strip enters the fast list of its home bloom. -/
def State.pushFast (b : Nat) (t : Tile) (s : State) : State :=
  (s.modBlm b (fun x => { x with fast := x.fast ++ [t] })).preempt b t

/-! Emission (R170, R173, R189, R190). -/

/-- The product frame whose tile comes next, in frame order. A TNR product begins a frame once the one before it has left, so that its
reference is whole (DESIGN CHOICE). -/
def State.nextFrame (s : State) (i : Nat) : Option PFrame :=
  match (s.product i).frames.find? (fun q => !q.dead && q.next < pdbTiles q.pdb) with
  | some q => if pdbHas q.pdb 0x10 ∧ ((s.product i).frames.head?.map (·.frame)) ≠ some q.frame then none else some q
  | none => none

/-- Row and column of a frame's next tile (R190). -/
def PFrame.rc (q : PFrame) : Nat × Nat := (q.next / max 1 (pdbCols q.pdb), q.next % max 1 (pdbCols q.pdb))

/-- Bloom and slot of a tile: the home of a fast product, the hash of a slow tile (R192, R193). -/
def State.bloomOf (s : State) (i : Nat) (q : PFrame) : Nat × Nat :=
  if pdbFast q.pdb then (s.fld F.PRD_STATE.HOME i, 0) else s.tileHash (tileKey (pdbSrc0 q.pdb) q.rc.2 q.rc.1)

/-- The next tile's footprint is present, at its deadline late lines of a fast strip included (R81, R189), and its bloom takes it
(R197). -/
def State.tileReady (s : State) (i : Nat) (q : PFrame) : Bool :=
  let fast := pdbFast q.pdb
  let late := fast && decide (s.deadline i q q.rc.1 ≤ s.posFrom (s.prdRaster q.pdb) q.frame)
  !s.lacksSource q && (late || (s.tileLines q q.rc.1).all (fun u => s.present i fast u.2.1 u.2.2.1 u.2.2.2))
    && (fast || (s.blm.get (s.bloomOf i q).1).backlog.length < 1024)

/-- Output lines that the next tile must claim: a slow row claims all its lines at its first tile. -/
def PFrame.claims (q : PFrame) : List Nat :=
  if pdbFast q.pdb ∨ q.rc.2 = 0 then pdbRowLines q.pdb q.rc.1 else []

/-- Published lines of a product that its output unit has not released. -/
def State.backlogLines (s : State) (i : Nat) : Nat :=
  (s.dirLines.filter (fun c => c.2.kind == .product && c.2.owner == i && c.2.published && c.2.line < 0xF000)).length

/-- The product reservation has room for `n` more lines (R161, R170). -/
def State.prdRoom (s : State) (i : Nat) (q : PFrame) (n : Nat) : Bool :=
  s.prdFits i q.pdb (n * ceilDiv (s.prdLineBytes q.pdb) 1024)

/-- The reservation of a product is free in full (R161): overflow lines occupy none of the directory entries that it was granted. Its first
tile waits for it. -/
def State.resvFree (s : State) (i : Nat) : Bool := (s.product i).began || decide (s.resvDir + s.ovfDir ≤ 16384)

/-- Claim the output lines of a tile; none when a line finds no granules or no directory entry. -/
def State.claimOut (i : Nat) (q : PFrame) : List Nat → State → Option State
  | [], s => some s
  | n :: r, s =>
    let size := s.prdLineBytes q.pdb
    match s.claim (ceilDiv size 1024) s.pool.tfBank with
    | none => none
    | some (gr, b) =>
      let p := (s.modPool (fun p => { p with tfBank := b })).putLine
        { kind := .product, owner := i, frame := q.frame, line := n, data := List.replicate size 0, grans := gr
          raster := s.prdRaster q.pdb }
      match p.2 with
      | none => none
      | some d =>
        let s := if pdbCols q.pdb = 1 then p.1
          else p.1.modSeals (fun t => { t with ledger := t.ledger ++
            [{ line := d, prd := i, st := pdbSrc0 q.pdb, frame := q.frame, lineNo := n, output := true, n := size
               ranges := [(0, size)] }] })
        State.claimOut i q r s

/-- The spill ring of a product takes lines (R173, R295). -/
def State.spillAllowed (s : State) (pdb : List Byte) : Bool :=
  pdbSpill pdb && !pdbFast pdb && pdbDestKind pdb == 0 && s.flag F.POOL_CTRL.SPILL_EN && s.flag F.FST_STAT.READY

/-- The spill ring of product `i` is full. -/
def State.spillFull (s : State) (i : Nat) : Bool := 2 * pdbFrameLines (s.product i).pdb ≤ (s.product i).spillQ.length

/-- A host product's reservation cannot take its next output lines (R173). -/
def State.hostStalled (s : State) (i : Nat) (q : PFrame) : Bool :=
  pdbDestKind q.pdb == 0
    && decide (s.outGrant q.pdb < (s.backlogLines i + q.claims.length) * ceilDiv (s.prdLineBytes q.pdb) 1024)

/-- The lack of room for the next tile has an effect of its own (R170, R173): a fast line is not produced, a stalled slow host frame that
cannot spill is lost. Otherwise the tile waits. -/
def State.noRoomActs (s : State) (i : Nat) (q : PFrame) : Bool :=
  pdbFast q.pdb || (s.hostStalled i q && !(s.spillAllowed q.pdb && !s.spillFull i))

/-- The next tile finds no room (R170, R173). -/
def State.noRoom (i : Nat) (q : PFrame) (s : State) : State × List Note :=
  let f := q.frame
  if ¬ s.noRoomActs i q then (s, [])
  else if pdbFast q.pdb then
    if pdbDestKind q.pdb = 0 then s.abandon i f
    else (s.modPFrame i f (fun q => { q with next := q.next + 1, rows := q.rows.set q.rc.1 strDiscarded }), [])
  else
    let full := s.spillAllowed q.pdb
    let s := s.when full (·.setFlag F.POOL_STAT.SPILL_FULL)
    if pdbClass q.pdb ≤ 1 then s.abandon i f else s.dropByClass i f (if full then 3 else 2)

/-- Substitutes for the lines of a fast strip that are late or were substituted for another product (R81, R119, R169). -/
def State.lateLines (i : Nat) (q : PFrame) (r : Nat) (s : State) : State :=
  s.each (s.tileLines q r) (fun u s =>
    if (s.srcLine i u.2.1 u.2.2.1 u.2.2.2).isSome then s
    else if (s.subLine u.2.1 u.2.2.1 u.2.2.2).isSome ∨ ¬ s.frameClosed u.2.1 u.2.2.1 then s.tfSubstitute u.2.1 u.2.2.1 u.2.2.2 i
    else s)

/-- Source frames that the tile takes (R264). -/
def State.noteSrcs (s : State) (q : PFrame) : List (Nat × Nat) :=
  let pool := (s.poolBranches q.pdb).filterMap (fun b => (s.srcFrame q (pdbBrStream q.pdb b)).map (fun f => (pdbBrStream q.pdb b, f)))
  pool.foldl (fun l u => if l.any (fun v => v.1 == u.1) then l else l ++ [u]) q.srcs

/-- The first tile of a product frame fixes the stage frames of its stitched branches (R296); a source line of a stage that has failed its
verdict makes the frame invalid (R147). -/
def State.takeStages (i : Nat) (q : PFrame) (s : State) : State :=
  let us := if s.hasStitch q.pdb then (List.range (pdbNbr q.pdb)).filterMap (fun b =>
      if b = 0 then none else (s.product i).stageNow b q.frame) else []
  let bad := us.flatMap (fun u => u.2.map (fun l => (64 + u.1.branch, l)))
  s.modPFrame i q.frame (fun q => { q with
    stages := us.map (·.1), badLines := q.badLines ++ bad, invalid := q.invalid || !bad.isEmpty })

/-- The variant that the tile runs where LEAN_OK allows it (R604). -/
def State.energyLean (s : State) (q : PFrame) (cls : Nat) : Bool :=
  let lv := s.fld F.EGV_STAT.LEVEL
  let c1 := s.fldFor (s.prdRaster q.pdb) q.frame F.EGV_CTRL.C1_LEAN
  (2 ≤ cls && 1 ≤ lv) || (cls == 1 && c1 != 0 && c1 ≤ lv)

/-- A bloom at another clock than NOM_CODE returns to it when it gets a tile (R607). -/
def State.wakeBloom (b : Nat) (s : State) : State :=
  s.startClock b (s.nomCode b)

/-- Emit the next tile of a product frame, its room claimed. -/
def State.emitTile (i : Nat) (q : PFrame) (s : State) : State :=
  let fast := pdbFast q.pdb
  let r := q.rc.1
  let c := q.rc.2
  let s := s.when fast (·.lateLines i q r)
  let s := s.when (q.next == 0) (fun s => ((s.beginRefs i q.frame q.pdb).takeStages i q).modProduct i (fun p => { p with began := true }))
  let srcs := s.noteSrcs q
  let s := s.modPFrame i q.frame (fun p => { p with next := p.next + 1, emitted := p.emitted + 1, srcs := srcs })
  let q := (s.pframe i q.frame).getD q
  let n := s.prdRaster q.pdb
  let d := s.deadline i q r
  let b := s.bloomOf i q
  let cls := pdbClass q.pdb
  let t : Tile := { prd := i, frame := q.frame, row := r, col := c, fast := fast, cls := cls, lean := s.energyLean q cls
                    dRas := n, dFrame := q.frame, dPos := d, dTod := s.frameTod n q.frame + s.posNs n d
                    seq := s.tf.seq, bloom := b.1, slot := b.2 }
  let t := { t with cost := (s.asOf n q.frame).tileTokens (s.tilePasses q t) }
  let s := (s.modTf (fun x => { x with seq := x.seq + 1 })).wakeBloom b.1
  let s := s.pmuAdd (if fast then 0x0C1 else 0x0C0) b.1 1 (some cls)
  let s := if fast then s.pushFast b.1 t else s.enqueue b.1 t
  s.closeIfDone i q.frame

/-- A product frame of a host product whose ring is not RUNNING is abandoned at its first line (R410). -/
def State.ringDown (s : State) (q : PFrame) : Bool :=
  pdbDestKind q.pdb == 0 && q.next == 0 && (s.ring (pdbRing q.pdb)).st != .running

/-- The next tile of a product frame may be emitted now, its room claimed, or its lack of room acts (R189, R173). -/
def State.mayEmit (s : State) (i : Nat) (q : PFrame) : Bool :=
  s.tileReady i q && s.resvFree i
    && ((s.prdRoom i q q.claims.length && (s.claimOut i q q.claims).isSome) || s.noRoomActs i q)

/-- Candidates of the tile former, by product. -/
def State.candidates (s : State) : List (Nat × PFrame) :=
  s.products.filterMap (fun i =>
    if s.prdSt i < 2 then none
    else match s.nextFrame i with
      | some q => if s.ringDown q ∨ s.mayEmit i q then some (i, q) else none
      | none => none)

/-- The candidate that goes first (R190). -/
def State.firstCandidate (s : State) : Option (Nat × PFrame) :=
  let key := fun (c : Nat × PFrame) => s.frameTod (s.prdRaster c.2.pdb) c.2.frame + s.posNs (s.prdRaster c.2.pdb) (s.deadline c.1 c.2 c.2.rc.1)
  match s.candidates with
  | [] => none
  | c :: r => some (r.foldl (fun a b =>
      if pdbClass b.2.pdb < pdbClass a.2.pdb ∨ (pdbClass b.2.pdb = pdbClass a.2.pdb ∧ key b < key a) then b else a) c)

/-- TILE_EMIT (R189, R190): the first ready tile is emitted, or its lack of room is settled. -/
def doTileEmit (s : State) : State :=
  if s.fcl.safe ∨ ¬ s.flag F.BLM_TF_CTRL.RUNNING then s
  else match s.firstCandidate with
    | none => s
    | some (i, q) =>
      let s := if s.ringDown q then State.andReport (s.abandon i q.frame)
        else if s.prdRoom i q q.claims.length then
          match s.claimOut i q q.claims with
          | some u => u.emitTile i q
          | none => State.andReport (s.noRoom i q)
        else State.andReport (s.noRoom i q)
      ((s.publishFrame i q.frame).tryEnds i).retryCommits

/-! Staging, picking, stealing. -/

/-- The petals of bloom `b` and the pool work: the clocks of the bloom and of CORE run (R25). -/
def State.blmClocked (s : State) (b : Nat) : Bool := s.clockUp (4 + b) && s.clockUp 3

/-- Source 0 of the product of a tile, under which what the pool corrects for the tile counts. -/
def State.srcOf (s : State) (t : Tile) : Nat := pdbSrc0 (s.product t.prd).pdb

/-- TILE_STAGE (R194, R195): the first tile not yet staged among the first two of a queue, when a footprint slot is free; the pool corrected
`n` words of its footprint (R176). -/
def doTileStage (b k n : Nat) (s : State) : State :=
  if ¬ s.blmClocked b ∨ 64 ≤ (s.blm.get b).foots then s
  else match ((s.blm.get b).q.get k).take 2 |>.find? (fun t => !t.staged) with
  | none => s
  | some t =>
    let g := (s.poolRead n (s.srcOf t)).stage t
    g.1.modBlm b (fun x => { x with q := x.q.upd k (·.map (fun u => if u.seq = t.seq then g.2 else u)) })

/-- The best tile that a petal of bloom `b` may take in its bloom (R198). -/
def State.bestIn (s : State) (b k : Nat) : Option Tile := bestTile k ((s.blm.get b).fast ++ (s.blm.get b).queued)

/-- Victim bloom and tile of a cross-bloom steal by bloom `b` (R200, R217). -/
def State.stealFrom (s : State) (b : Nat) : Option (Nat × Tile) :=
  if ¬ s.flag F.BLM_XSTEAL.EN then none
  else
    let cs := (List.range 8).filterMap (fun v =>
      if v = b then none
      else
        let u := (s.blm.get v).unstaged
        let need := if s.flag F.BLM_CTRL.HALT v then 1 else max 1 (s.fld F.BLM_XSTEAL.MIN_Q)
        if need ≤ u.length then (bestTile 32 u).map (fun t => (v, t)) else none)
    match cs with
    | [] => none
    | c :: r => some (r.foldl (fun a x => if tileLt 32 x.2 a.2 then x else a) c)

/-- Footprint bytes of a tile. -/
def State.tileBytes (s : State) (t : Tile) : Nat :=
  match s.pframe t.prd t.frame with
  | some q => s.footBytes q t.row t.col
  | none => 0

/-- Petal `p` is free and its bloom has nothing for it: it may steal across blooms (R200). -/
def State.isThief (s : State) (p : Nat) : Bool :=
  s.canStart (p / 32) && ((s.blm.get (p / 32)).run.get (p % 32)).isNone && (s.bestIn (p / 32) (p % 32)).isNone

/-- No other thief that waits on the budget goes ahead of a steal of tile `t` by bloom `b` (R201): lower class first, then lower bloom. -/
def State.thiefFirst (s : State) (b : Nat) (t : Tile) : Bool :=
  s.tf.thieves.all (fun o => !s.isThief o || (match s.stealFrom (o / 32) with
    | some (_, u) => s.mustWait (o / 32) u || !(decide (u.cls < t.cls) || (u.cls == t.cls && decide (o / 32 < b)))
    | none => true))

/-- Petal `k` of bloom `b` steals across blooms when the budget holds the footprint's bytes and it is its turn (R200, R201); a steal that
begins to wait on the budget is counted. -/
def State.steal (b k : Nat) (s : State) : State :=
  match s.stealFrom b with
  | none => s
  | some (v, t) =>
    if s.mustWait b t then s
    else
      let n := s.tileBytes t
      let p := 32 * b + k
      if s.tf.budget < 100 * n ∨ ¬ s.thiefFirst b t then
        if s.tf.thieves.any (· == p) then s
        else (s.count F.BLM_XSTEAL_STAT.CAP_WAIT).modTf (fun x => { x with thieves := x.thieves ++ [p] })
      else
        let s := s.modTf (fun x => { x with budget := x.budget - 100 * n, xBytes := x.xBytes + n })
        let s := ((s.takeTile v t).count F.BLM_CNT0.STEAL_IN b).count F.BLM_CNT0.STEAL_OUT v
        let s := (s.pmuAdd 0x0C6 b 1 (some t.cls)).pmuAdd 0x0C7 b (ceilDiv n 64) (some t.cls)
        s.startTile b k { t with stolen := true, bloom := b }

/-- PETAL_PICK (R198, R200, R202). -/
def doPetalPick (p : Nat) (s : State) : State :=
  let b := p / 32
  let k := p % 32
  if ¬ s.canStart b ∨ ((s.blm.get b).run.get k).isSome then s
  else match s.bestIn b k with
    | some t =>
      if s.mustWait b t then s
      else
        let s := s.when (!t.fast && t.slot != k) (·.pmuAdd 0x0C5 b 1 (some t.cls))
        (s.takeTile b t).startTile b k t
    | none => s.steal b k

/-- CROSS_BLOOM_STEAL (R201): a waiting thief. -/
def doCrossBloomSteal (p : Nat) (s : State) : State := if s.isThief p then s.steal (p / 32) (p % 32) else s

/-! Completion (R209, R143, R144, R147, R232, R233). -/

/-- Input lines that fast strip `r` reads from the pool and that fail their check: each line that no strip before it has read and
verified (R139). -/
def State.badInputs (s : State) (i : Nat) (q : PFrame) (r : Nat) : List (Nat × Nat × Nat × PLine) :=
  (((s.tileLines q r).map (·.2)).eraseDups.filter (fun u => !q.carry.any (fun c => (c.st, c.frame, c.line) == u))).filterMap (fun u =>
    match s.srcLine i u.1 u.2.1 u.2.2 with
    | some (_, l) => if l.tfSub ∨ lineSeal u.1 0xFF u.2.1 u.2.2 l.data = l.sealVal then none
      else some (u.1, u.2.1, u.2.2, l)
    | none => none)

/-- The petal lets go of its tile. -/
def State.leavePetal (p : Nat) (s : State) : State :=
  (s.modBlm (p / 32) (fun x => { x with run := x.run.set (p % 32) none })).closeCtx (unitPetal p)

/-- The strip runs again, ahead of every other tile of its class (R147). -/
def State.runAgain (t : Tile) (s : State) : State :=
  s.pushFast (s.fld F.PRD_STATE.HOME t.prd) { t with rerun := true, paid := false, preempted := false, seals := [] }

/-- A fast strip has met failed input lines (R147): the pass is discarded and the strip runs again with the lines replaced. -/
def State.rerun (petal : Nat) (t : Tile) (bad : List (Nat × Nat × Nat × PLine)) (s : State) : State :=
  let r := bad.foldl (fun (a : State × List Note) u =>
    let p := a.1.sealFail (unitPetal petal) F.SEAL_FAIL_CNT0.STRIP u.1 0xFF u.2.2.1 u.2.1 u.2.2.2.sealVal
      (lineSeal u.1 0xFF u.2.1 u.2.2.1 u.2.2.2.data)
    let s := p.1.tfSubstitute u.1 u.2.1 u.2.2.1 t.prd
    let s := match s.subLine u.1 u.2.1 u.2.2.1 with
      | some d => s.modLine d (fun l => { l with flags := l.flags ||| 1 })
      | none => s
    (s, a.2 ++ p.2)) (s, [])
  (State.andReport r).runAgain t

/-- The stage seals that failed in a run are counted, recorded and reported (R233). -/
def State.stageSealFails (petal : Nat) (t : Tile) (fs : List StageFail) (s : State) : State :=
  s.each fs (fun u s =>
    State.andReport ((s.pmuAdd 0x10A petal).sealFail (unitPetal petal) F.SEAL_FAIL_CNT0.STRIP u.st t.prd u.line t.frame u.stored u.computed))

/-- Stage seals of a tile's first run have failed (R233): the outputs are discarded. A strip runs again from source lines read anew; a slow
tile runs once more on its petal, or, when its energy must be waited for (R202, R603), from the head of its queue. -/
def State.secondRun (petal : Nat) (t : Tile) (s : State) : State :=
  let b := petal / 32
  let k := petal % 32
  if t.fast then
    ((s.leavePetal petal).modPFrame t.prd t.frame (fun q => { q with carry := [] })).runAgain { t with failed := 1 }
  else
    let t := { t with failed := 1, paid := false, seals := [] }
    let s := s.leavePetal petal
    if s.mustWait b t then s.modBlm b (Bloom.giveBack t) else s.startTile b k t

/-- Write one output line, or a slow tile's columns of it; the open context of the line goes on from COUNT (R143 to R146). -/
def State.writeOut (i : Nat) (q : PFrame) (t : Tile) (g : Img) (c : SealCtx) (flags : Nat) (arr : Pos) (n : Nat) (s : State) : State :=
  match s.findLine .product i q.frame n with
  | none => s
  | some d =>
    let full := g.lineBytes n
    let w := max 1 (pdbOutW q.pdb)
    let lo := full.length * min w (t.col * pdbTw q.pdb) / w
    let hi := full.length * min w ((t.col + 1) * pdbTw q.pdb) / w
    let merge := fun (l : PLine) =>
      let old : Pos := { raster := l.raster, frame := l.arrFrame, line := l.arrLine, frac := l.arrFrac }
      if l.flags = 0 ∧ l.arrFrame = 0 ∧ l.arrLine = 0 then arr else laterPos2 old arr
    let stampArr := fun (l : PLine) => let a := merge l
      { l with arrFrame := a.frame, arrLine := a.line, arrFrac := a.frac, raster := a.raster, flags := l.flags ||| flags }
    if pdbCols q.pdb = 1 then
      s.modLine d (fun l => { stampArr l with data := full, ready := true, sealVal := (c.rest full).seal })
    else
      let part := (full.take hi).drop lo
      (s.modLine d (fun l => { stampArr l with data := putBytes l.data lo part })).addFrag d i true { f := (c.rest part).run, a := lo, b := hi }

/-- FLAGS of an output line by what its tile met: the tile's own, a missing reference (R258), a line read back that failed (R147). -/
def State.lineFlags (s : State) (q : PFrame) (t : Tile) (base n : Nat) : Nat :=
  let o := lineRect q.pdb t.col n
  base ||| 2 * b2n (s.lacksRef q o) ||| b2n (s.keptBad q o)

/-- The output of a tile whose passes have ended is written and sealed (R143, R279); `stageBad` when a stage seal of its second run has
failed (R233). -/
def State.finishTile (p i : Nat) (q : PFrame) (t : Tile) (stageBad : Bool) (s : State) : State :=
  let ns := pdbRowLines q.pdb t.row
  let done := fun (u : State) => u.modPFrame i q.frame (fun q => { q with completed := q.completed + 1 })
  if t.fast ∧ q.rows.get t.row = strDiscarded then
    done (s.each ns (fun n u => match u.findLine .product i q.frame n with
      | some d => u.dropLine d
      | none => u))
  else
    let ff := if t.fast then s.footFlags i q t.row else (t.srcFlags, t.arr)
    let bad := stageBad || s.tableBad i q
    let base := ff.1 ||| b2n bad ||| 3 * b2n t.rerun ||| 8 * b2n q.invalid ||| 32 * b2n (t.fast && s.pastD t)
    let g := s.tileImg i q t
    let u := s.each ns.zipIdx (fun n u => u.writeOut i q t g (s.ctxOf (unitPetal p) n.2) (s.lineFlags q t base n.1) ff.2 n.1)
    let u := ((u.addStat i q t).writeRefs i q t).modPFrame i q.frame (fun q => { q with rows := q.rows.upd t.row (· + 1) })
    let u := u.when (q.rows.get t.row + 1 == pdbCols q.pdb) (·.flushRefs i q t.row)
    let u := u.when t.fast (·.carryOn i q t.row)
    let u := u.when (bad || s.keptBad q (tileRect q.pdb t.row t.col)) (·.markInvalid i q.frame)
    done u

/-- The passes of a tile have ended (R209): its inputs and its stage lines are checked, its output is written. -/
def State.tileEnds (p : Nat) (q : PFrame) (t : Tile) (us : List StageUpset) (s : State) : State :=
  let i := t.prd
  let s := s.passesEnd p t (s.tilePasses q t)
  let bad := if t.fast then s.badInputs i q t.row else []
  let fails := s.stageFails i q t us
  if bad ≠ [] then (s.leavePetal p).rerun p t bad
  else
    let s := s.stageSealFails p t fails
    if fails ≠ [] ∧ t.failed = 0 then s.secondRun p t
    else (s.finishTile p i q t (!fails.isEmpty)).leavePetal p

/-- TILE_COMPLETE (R209), once what the tile reads from the frame store has come; `us` are the bytes of scratch that its run found changed,
and the pool corrected `n` words that it read (R176). -/
def doTileComplete (p : Nat) (us : List StageUpset) (n : Nat) (s : State) : State :=
  if ¬ s.blmClocked (p / 32) then s
  else match (s.blm.get (p / 32)).run.get (p % 32) with
  | none => s
  | some t => match s.pframe t.prd t.frame with
    | none => s.leavePetal p
    | some q =>
      if ¬ q.dead ∧ ¬ s.readBack t.prd q t then s
      else
        let s := if q.dead then (s.leavePetal p).modPFrame t.prd t.frame (fun q => { q with completed := q.completed + 1 })
          else (s.poolRead n (s.srcOf t)).tileEnds p q t us
        (((s.publishFrame t.prd t.frame).tryEnds t.prd).retryCommits)

/-! The ledger (R140 to R142, R147). -/

/-- Bytes that an entry's fragments cover. -/
def LedgerEnt.covered (e : LedgerEnt) : Nat := e.frags.foldl (fun n f => n + (f.b - f.a)) 0

/-- Verdict on an output line built by several tiles (R144): its seal is complete. -/
def State.outVerdict (e : LedgerEnt) (l : PLine) (spent : Bool) (s : State) : State × List Note :=
  let st := pdbSrc0 (s.product e.prd).pdb
  let v := ledgerSeal (sealHead st e.prd e.frame l.line) e.n e.frags
  let s := s.modLine e.line (fun l => { l with ready := true, sealVal := v, flags := if spent then l.flags ||| 1 else l.flags })
  if spent then
    let p := (s.count F.SEAL_FAIL_CNT2.OVERCOVER).sealFail unitLedger F.SEAL_FAIL_CNT0.LEDGER st e.prd l.line e.frame l.sealVal v
    (p.1.markInvalid e.prd e.frame, p.2 ++ [.fault 22 st])
  else (s, [])

/-- A line that product `i` reads has failed its verdict (R147): every product frame that reads it is invalid, and so is every one that reads
the stage made from it. -/
def State.inputFailed (e : LedgerEnt) (s : State) : State :=
  let i := e.prd
  let pdb := (s.product i).pdb
  let s := s.each (((s.product i).frames.filter (fun q => s.srcFrame q e.st == some e.frame
      && (List.range (pdbRows q.pdb)).any (fun r => (s.poolBranches q.pdb).any (fun b => pdbBrStream q.pdb b == e.st
        && rowReads q.pdb q.area b r (s.srcH e.st e.frame) e.lineNo)))).map (·.frame)) (fun f s =>
    (s.modPFrame i f (fun q => { q with badLines := (e.st, e.lineNo) :: q.badLines })).markInvalid i f)
  if ¬ s.hasStitch pdb then s
  else s.each ((List.range (pdbNbr pdb)).filter (fun b => b != 0 && pdbBrStream pdb b == e.st)) (fun b s =>
    let half := fun (k : KeptFrame) => if k.frame = e.frame then { k with badLines := e.lineNo :: k.badLines } else k
    let s := s.modProduct i (fun p => { p with
      stageIn := p.stageIn.upd b (·.map (fun k => if k.frame = e.frame then { k with bad := e.lineNo :: k.bad } else k))
      stages := (p.stages.upd (2 * b) (·.map half)).upd (2 * b + 1) (·.map half) })
    s.each (((s.product i).frames.filter (fun q => q.stages.any (fun u => u.branch == b && u.frame == e.frame))).map (·.frame)) (fun f s =>
      (s.modPFrame i f (fun q => { q with badLines := (64 + b, e.lineNo) :: q.badLines })).markInvalid i f))

/-- Verdict on an input line of a slow product (R140, R147), under the prefix of the line that was asked for (R138). The ledger itself reads
what lies outside the read range. -/
def State.inVerdict (e : LedgerEnt) (l : PLine) (spent : Bool) (s : State) : State × List Note :=
  let sweep := (gaps 0 e.n e.ranges).map (fun u => fragOf l.data u.1 u.2)
  let v := ledgerSeal (sealHead e.st 0xFF e.frame e.lineNo) e.n (e.frags ++ sweep)
  let s := s.pmuAdd 0x2C0 (unitLedger / 2)
  if spent ∨ v ≠ l.sealVal then
    let s := s.when spent (·.count F.SEAL_FAIL_CNT2.OVERCOVER)
    let p := s.sealFail unitLedger F.SEAL_FAIL_CNT0.LEDGER e.st 0xFF e.lineNo e.frame l.sealVal v
    ((p.1.inputFailed e).pmuAdd 0x0CF 0, p.2 ++ (if spent then [.fault 22 e.st] else []))
  else (s, [])

/-- LEDGER_VERDICT (R140, R141): the first entry of the line whose owning tiles have all reported; the pool corrected `k` words of the
sweep (R176). -/
def doLedgerVerdict (d k : Nat) (s : State) : State :=
  match s.seals.ledger.find? (fun e => e.line == d && rangesLen e.ranges ≤ e.covered), s.line d with
  | some e, some l =>
    let n := e.covered + (e.n - rangesLen e.ranges)
    let spent := decide (e.n < n)
    let s := s.modSeals (fun q => { q with ledger := q.ledger.filter (fun x => !(x.line == d && x.prd == e.prd && x.output == e.output)) })
    let s := State.andReport (((s.poolRead k e.st).pmuAdd 0x0CE 0)
      |> (if e.output then State.outVerdict e l spent else State.inVerdict e l spent))
    let s := s.when (!e.output) (·.settle d)
    let s := s.each ((s.product e.prd).frames.map (·.frame)) (fun f s => s.publishFrame e.prd f)
    (s.tryEnds e.prd).retryCommits
  | _, _ => s

/-! Releases and the broadcast. -/

/-- Product `i` still needs raw line `l` (R14): a tile of it that has not completed reads the line, or its verdict is open. -/
def State.stillNeeds (s : State) (i d : Nat) (l : PLine) : Bool :=
  s.seals.ledger.any (fun e => e.line == d && e.prd == i && !e.output)
  || (s.product i).frames.any (fun q => !q.dead && !q.ended && s.srcFrame q l.owner == some l.frame
      && (List.range (pdbRows q.pdb)).any (fun r =>
        decide (if pdbFast q.pdb then q.rows.get r = 0 else q.rows.get r < pdbCols q.pdb)
        && (s.poolBranches q.pdb).any (fun b => pdbBrStream q.pdb b == l.owner
          && rowReads q.pdb q.area b r (s.srcH l.owner l.frame) l.line)))

/-- LINE_RELEASE (R157): product `i` releases the raw line in directory entry `d` once it needs it no longer. -/
def doLineRelease (d i : Nat) (s : State) : State :=
  match s.line d with
  | none => s
  | some l => if l.kind = .raw ∧ l.holders.any (· == i) ∧ ¬ s.stillNeeds i d l then s.release d i else s

/-- OCCUPANCY_BROADCAST (R165). -/
def doOccupancyBroadcast (s : State) : State :=
  let s := (s.setFld F.POOL_OCC0.OVF_FREE s.ovfFree).setFld F.POOL_OCC1.DIR_FREE s.dirFree
  let s := s.setFld F.POOL_OCC1.LEDGER_FREE (16384 - s.ledgerGranted)
  s.modPool (fun p => { p with occ2 := s.ovfUse 2, occ3 := s.ovfUse 3 })

/-! Debug and probes. -/

/-- BLOOM_HALT (R217). -/
def doBloomHalt (b : Nat) (halt : Bool) (s : State) : State :=
  if halt ∧ (¬ bit (s.fld F.SEC_UNLOCK.SCOPE) 1 ∨ s.homed b ≠ []) then s.setFlag F.BLM_CTRL.HALT_REF true b
  else
    let s := s.setFlag F.BLM_CTRL.HALT halt b
    if halt then s else s.preemptAll b 64

/-- HASH_PROBE (R213). -/
def doHashProbe (v : Nat) (s : State) : State :=
  let k := v % 2 ^ 28
  let h := s.tileHash k
  ((s.wr .BLM_HASH_PROBE k).setFld F.BLM_HASH_PROBE_OUT.BLOOM h.1).setFld F.BLM_HASH_PROBE_OUT.SLOT h.2

/-! Steps at line boundaries (R81, R84, R207). -/

/-- Late lines at the deadlines of strips not yet emitted (R81): the tile former substitutes them. -/
def State.lateAtBoundary (n : Nat) (s : State) : State :=
  s.each (s.products.filter (fun i => 2 ≤ s.prdSt i && pdbFast (s.product i).pdb && s.prdRaster (s.product i).pdb == n)) (fun i s =>
    s.each ((s.product i).frames.filter (fun q => !q.dead && !q.closed)) (fun q s =>
      let a := s.posFrom n q.frame
      s.each ((List.range (pdbRows q.pdb)).filter (fun r => q.next ≤ r && decide (s.deadline i q r ≤ a))) (fun r s => s.lateLines i q r)))

/-- One tile past its deadline is counted once (R207). -/
def State.missTile (b : Nat) (t : Tile) (s : State) : State :=
  if t.fast then
    let s := (s.count F.BLM_CNT1.MISS b).pmuAdd 0x0CB b 1 (some t.cls)
    let line : Nat := (t.dPos / 256).toNat
    let s := s.when (!s.flag F.BLM_MISS_REC0.VALID) (fun s =>
      (s.wr .BLM_MISS_REC0 (1 <<< 31 + b <<< 16 + t.prd <<< 8 + t.dRas)).wr .BLM_MISS_REC1
        ((t.row % 65536) <<< 16 + (if s.lines t.dRas = 0 then line else line % s.lines t.dRas) % 65536))
    s.raise 25 t.prd
  else (s.count F.BLM_CNT1.SLOW_LATE b).pmuAdd 0x0CC b 1 (some t.cls)

/-- Tiles of bloom `b` that have passed their deadline on raster `n` and are not counted yet, by product. -/
def State.lateTiles (s : State) (n b : Nat) : List Tile :=
  let x := s.blm.get b
  (x.fast ++ x.queued ++ x.backlog ++ x.running.map (·.2)).filter (fun t => t.dRas == n && !t.missed && s.pastD t)

/-- The tile-deadline step of a line boundary (R207). -/
def State.deadlineCheck (n : Nat) (s : State) : State :=
  let late := (List.range 8).flatMap (fun b => (s.lateTiles n b).map (fun t => (b, t)))
  let sorted := (List.range 256).flatMap (fun i => late.filter (fun c => c.2.prd == i))
  let mark := fun (t : Tile) => if late.any (fun c => c.2.seq == t.seq) then { t with missed := true } else t
  let s := s.each (List.range 8) (fun b s => s.modBlm b (fun x => { x with
    fast := x.fast.map mark, backlog := x.backlog.map mark
    q := (List.range 32).foldl (fun q k => q.upd k (·.map mark)) x.q
    run := (List.range 32).foldl (fun q k => q.upd k (·.map mark)) x.run }))
  s.each sorted (fun c s => s.missTile c.1 c.2)

def execTileEmit (s : State) : Host.Outcome State Fault Refusal := .next (doTileEmit s)
def execTileStage (b : Fin 8) (k : Fin 32) (corrected : BitVec 8) (s : State) : Host.Outcome State Fault Refusal :=
  .next (doTileStage b k corrected.toNat s)
def execPetalPick (p : Fin 256) (s : State) : Host.Outcome State Fault Refusal := .next (doPetalPick p s)
def execCrossBloomSteal (p : Fin 256) (s : State) : Host.Outcome State Fault Refusal := .next (doCrossBloomSteal p s)
def execTileComplete (p : Fin 256) (upsets : List StageUpset) (corrected : BitVec 8) (s : State) : Host.Outcome State Fault Refusal :=
  .next (doTileComplete p upsets corrected.toNat s)
def execLedgerVerdict (d : BitVec 32) (corrected : BitVec 8) (s : State) : Host.Outcome State Fault Refusal :=
  .next (doLedgerVerdict d.toNat corrected.toNat s)
def execLineRelease (d : BitVec 32) (i : BitVec 8) (s : State) : Host.Outcome State Fault Refusal :=
  .next ((doLineRelease d.toNat i.toNat s).retryCommits)
def execOccupancyBroadcast (s : State) : Host.Outcome State Fault Refusal := .next (doOccupancyBroadcast s)
def execBloomHalt (b : Fin 8) (h : Bool) (s : State) : Host.Outcome State Fault Refusal := .next (doBloomHalt b h s)
def execHashProbe (v : BitVec 32) (s : State) : Host.Outcome State Fault Refusal := .next (doHashProbe v.toNat s)

end Sys2Proof.Machine
end

