-- ==== Sys2Proof/Machine/Sha3.lean ====
section
/-!
DEFINITION. Machine/Sha3.lean: SHA3-512 of FIPS 202, which the envelopes, the device hash and the attestation report name (R569, R585,
R589). PRESUMED: the manual cites the standard and does not repeat it.
-/
namespace Sys2Proof.Machine

/-- Rotate a 64-bit lane left. -/
def rotl64 (v n : Nat) : Nat := ((v <<< (n % 64)) ||| (v >>> (64 - n % 64))) % 2 ^ 64

/-- Round constants of Keccak-f[1600]. -/
def keccakRc : List Nat := [
  0x0000000000000001, 0x0000000000008082, 0x800000000000808A, 0x8000000080008000, 0x000000000000808B, 0x0000000080000001,
  0x8000000080008081, 0x8000000000008009, 0x000000000000008A, 0x0000000000000088, 0x0000000080008009, 0x000000008000000A,
  0x000000008000808B, 0x800000000000008B, 0x8000000000008089, 0x8000000000008003, 0x8000000000008002, 0x8000000000000080,
  0x000000000000800A, 0x800000008000000A, 0x8000000080008081, 0x8000000000008080, 0x0000000080000001, 0x8000000080008008]

/-- Rotation offsets by lane `x + 5 y`. -/
def keccakRot : List Nat := [
  0, 1, 62, 28, 27, 36, 44, 6, 55, 20, 3, 10, 43, 25, 39, 41, 45, 15, 21, 8, 18, 2, 61, 56, 14]

/-- Lane `(x, y)` of a state of 25 lanes. -/
def lane (a : List Nat) (x y : Nat) : Nat := a.getD (x % 5 + 5 * (y % 5)) 0

/-- A state given lane by lane. -/
def lanes (f : Nat → Nat → Nat) : List Nat := (List.range 25).map (fun i => f (i % 5) (i / 5))

/-- One round. -/
def keccakRound (a : List Nat) (rc : Nat) : List Nat :=
  let c := (List.range 5).map (fun x => lane a x 0 ^^^ lane a x 1 ^^^ lane a x 2 ^^^ lane a x 3 ^^^ lane a x 4)
  let d := (List.range 5).map (fun x => c.getD ((x + 4) % 5) 0 ^^^ rotl64 (c.getD ((x + 1) % 5) 0) 1)
  let t := lanes (fun x y => lane a x y ^^^ d.getD x 0)
  -- lane (y, 2x + 3y) takes lane (x, y); so (x, y) takes (x + 3y, x)
  let b := lanes (fun x y => rotl64 (lane t (x + 3 * y) x) (keccakRot.getD ((x + 3 * y) % 5 + 5 * x) 0))
  lanes (fun x y =>
    let v := lane b x y ^^^ ((2 ^ 64 - 1 - lane b (x + 1) y) &&& lane b (x + 2) y)
    if x = 0 ∧ y = 0 then v ^^^ rc else v)

/-- The permutation. -/
def keccakF (a : List Nat) : List Nat := keccakRc.foldl keccakRound a

/-- Absorb blocks of 72 bytes. -/
def sha3Absorb : Nat → List Nat → List Byte → List Nat
  | 0, a, _ => a
  | k + 1, a, bs =>
    let a := keccakF ((List.range 25).map (fun i => a.getD i 0 ^^^ (if i < 9 then leAt bs (8 * i) 8 else 0)))
    sha3Absorb k a (bs.drop 72)

/-- SHA3-512. -/
def sha3 (m : List Byte) : List Byte :=
  let k := m.length / 72 + 1
  let pad := putBytes (padTo (72 * k) m) m.length [6#8]
  let pad := putBytes pad (72 * k - 1) ((bytesAt pad (72 * k - 1) 1).map (· ||| 0x80#8))
  let a := sha3Absorb k (List.replicate 25 0) pad
  ((List.range 8).flatMap (fun i => leBytes 8 (a.getD i 0)))

end Sys2Proof.Machine
end

