-- ==== Sys2Proof/Machine/Envelope.lean ====
section
/-!
DEFINITION. Machine/Envelope.lean: the signed envelope (R569 to R571), the keys and counters that it is checked against (R582, R584,
R585), and the steps of boot that displays and software bring about (R573, R581).
-/
namespace Sys2Proof.Machine

/-! Fields of an envelope (R569). -/

def envType (b : List Byte) : Nat := leAt b 6 2
def envBound (b : List Byte) : Bool := bit (leAt b 8 4) 0
def envPayBytes (b : List Byte) : Nat := leAt b 12 4
def envVersion (b : List Byte) : Nat := leAt b 16 4
def envKey (b : List Byte) : Nat := leAt b 20 1
def envCtrIdx (b : List Byte) : Nat := leAt b 21 1
def envCtrVal (b : List Byte) : Nat := leAt b 24 4
def envPayload (b : List Byte) : List Byte := b.drop 8192

/-- Hash of OEM key slot `k` (R582). -/
def State.slotHash (s : State) (k : Nat) : List Byte :=
  match s.sec.slots.get k with
  | [] => if k = 1 then padTo 64 Config.slotOne else []
  | h => h

/-- OEM slot `k` is programmed. Slot 1 is, from manufacture (R582). -/
def State.slotValid (s : State) (k : Nat) : Bool := 1 ≤ k && k ≤ 4 && s.slotHash k != []

/-- OEM slot `k` is revoked. -/
def State.slotRevoked (s : State) (k : Nat) : Bool := bit s.sec.revoked (k - 1)

/-- Identity public key, and the device hash over it (R585). -/
def identityPub : List Byte := padTo 2592 Config.identityKey
def deviceHash : List Byte := sha3 identityPub

/-- Largest and exact payload sizes by type (R568, R583, R586, R590). -/
def envSizeOk (typ n : Nat) : Bool := match typ with
  | 1 => n ≤ 1310720
  | 2 | 3 => n ≤ 262144
  | 4 => n == 64
  | 5 => n == 2616
  | 6 => n == 68
  | _ => false

/-- KEY is allowed for the type (R571). -/
def envKeyAllowed (typ key : Nat) : Bool := match typ with
  | 1 | 5 => key == 0
  | 2 | 3 | 6 => 1 ≤ key && key ≤ 4
  | _ => key ≤ 4

/-- Check 1 of R570. -/
def envFormat (typ : Nat) (b : List Byte) : Bool :=
  leAt b 0 4 == 0x4B4F524C && leAt b 4 2 == 1 && envType b == typ && bits (leAt b 8 4) 31 1 == 0 && leAt b 22 2 == 0
    && (typ == 1 || leAt b 28 4 == 0) && envCtrIdx b ≤ 63 && envCtrVal b ≤ 63
    && (bytesAt b 160 96).all (· == 0) && (bytesAt b 7475 717).all (· == 0)
    && b.length == 8192 + envPayBytes b && envSizeOk typ (envPayBytes b)

/-- Check 2 of R570. -/
def State.envKeyOk (s : State) (typ : Nat) (b : List Byte) : Bool :=
  let k := envKey b
  let h := sha3 (bytesAt b 256 2592)
  envKeyAllowed typ k && (if k == 0 then h == padTo 64 Config.rootHash else s.slotValid k && !s.slotRevoked k && h == s.slotHash k)

/-- Check 3 of R570. -/
def State.envDeviceOk (s : State) (typ : Nat) (b : List Byte) : Bool :=
  (envBound b || (typ != 4 && typ != 6)) && (!envBound b || (s.flag F.SEC_BOOT_STAT.ID_OK && bytesAt b 32 64 == deviceHash))

/-- Check 6 of R570. -/
def State.envRollbackOk (s : State) (typ : Nat) (b : List Byte) : Bool :=
  3 < typ || ((if typ == 1 then envCtrIdx b == 0 else envCtrIdx b != 0) && s.sec.arb.get (envCtrIdx b) ≤ envCtrVal b)

/-- The envelope checks in their order (R570): the result code of R595. `sig` is the outcome of the ML-DSA-87 verification. -/
def State.envCheck (s : State) (typ : Nat) (b : List Byte) (sig : Bool) : Nat :=
  if ¬ envFormat typ b then 1
  else if ¬ s.envKeyOk typ b then 2
  else if ¬ s.envDeviceOk typ b then 3
  else if ¬ sig then 4
  else if sha3 (envPayload b) ≠ bytesAt b 96 64 then 5
  else if ¬ s.envRollbackOk typ b then 6
  else 0

/-! Boot stages (R572, R573, R581). -/

/-- The boot stage. -/
def State.bootStage (s : State) : Nat := s.fld F.SEC_BOOT_STAT.STAGE

/-- Enter a boot stage. -/
def State.setStage (n : Nat) (s : State) : State := s.setFld F.SEC_BOOT_STAT.STAGE n

/-- The boot count rises once per boot (R573). -/
def State.countBoot (s : State) : State :=
  if s.sec.counted then s
  else
    let n := (s.sec.count + 1) % 2 ^ 32
    (s.modSec (fun c => { c with counted := true, count := n })).wr .SEC_BOOT_CNT n

/-- Handover (R581): the record, alert cause 4, stage 0x09. -/
def State.handOver (s : State) : State :=
  (((s.lupSubmit 0x04 0 0 0 0).alert 4).setStage 9).modSec (fun c => { c with handover := false })

/-- A stage at which a waiting HANDOVER acts has been reached. -/
def State.pendingHandover (s : State) : State := if s.sec.handover then s.handOver else s

/-- The first Primrose display line has been sent (R565, R572, R573). -/
def State.earlyView (s : State) : State := if s.bootStage = 7 then ((s.setStage 8).countBoot).pendingHandover else s

/-- Firmware enters stage 0x0A (R572, R573, R580). -/
def State.waitHost (s : State) : State := ((s.setStage 0x0A).countBoot).pendingHandover

end Sys2Proof.Machine
end

