-- ==== Sys2Proof/Machine/Pixels.lean ====
section
/-!
DEFINITION. Machine/Pixels.lean: pixels at the display ports (R428, R430), the asset store of Marigold and what it draws (R440, R443,
R450, R451).
-/
namespace Sys2Proof.Machine

/-- A pixel of 10 bits per component, with its 8-bit alpha (R430). -/
structure Pixel where
  r : Nat := 0
  g : Nat := 0
  b : Nat := 0
  a : Nat := 255
  deriving DecidableEq, Repr, Inhabited

/-- An 8-bit component widened (R430). -/
def widen8 (c : Nat) : Nat := c <<< 2 ||| c >>> 6

/-- Pixels of a layer line of `w` pixels in PACK format `fmt`: RGB888, XRGB8888 or A2RGB10 (R254, R430, R431). -/
def layerPixels (fmt w : Nat) (d : List Byte) : List Pixel :=
  (List.range w).map (fun i => match fmt with
    | 0x10 => { r := widen8 (leAt d (3 * i) 1), g := widen8 (leAt d (3 * i + 1) 1), b := widen8 (leAt d (3 * i + 2) 1) }
    | 0x12 =>
      let v := leAt d (4 * i) 4
      { r := widen8 (bits v 23 16), g := widen8 (bits v 15 8), b := widen8 (bits v 7 0), a := bits v 31 24 }
    | _ =>
      let v := leAt d (4 * i) 4
      { r := bits v 29 20, g := bits v 19 10, b := bits v 9 0, a := bits v 31 30 * 85 })

/-- Blend one pixel of a layer onto the canvas (R430). -/
def blend (pixelAlpha : Bool) (alpha : Nat) (x out : Pixel) : Pixel :=
  let a := if pixelAlpha then (x.a * alpha + 127) / 255 else alpha
  let f := fun x o => (a * x + (255 - a) * o + 127) / 255
  { r := f x.r out.r, g := f x.g out.g, b := f x.b out.b }

/-- Replace the pixels from column `x` on. -/
def overlay (row : List Pixel) (x : Nat) (f : Nat → Pixel → Pixel) (w : Nat) : List Pixel :=
  row.zipIdx.map (fun u => if x ≤ u.2 ∧ u.2 < x + w then f (u.2 - x) u.1 else u.1)

/-- Bytes of a bit stream of 10-bit components, least significant bit first. -/
def pack10 (cs : List Nat) : List Byte :=
  leBytes (ceilDiv (10 * cs.length) 8) (cs.zipIdx.foldl (fun t u => t + (u.1 % 1024) <<< (10 * u.2)) 0)

/-- The wire bytes of a row (R428). PRESUMED, from DSI-2: each pixel red first, the components least significant bit first. -/
def encodeRow (fmt : Nat) (px : List Pixel) : List Byte :=
  match fmt with
  | 1 => pack10 (px.flatMap (fun p => [p.r, p.g, p.b]))
  | 2 => px.flatMap (fun p => leBytes 2 (p.r >>> 5 + (p.g >>> 4) <<< 5 + (p.b >>> 5) <<< 11))
  | _ => px.flatMap (fun p => leBytes 1 (p.r >>> 2) ++ leBytes 1 (p.g >>> 2) ++ leBytes 1 (p.b >>> 2))

/-- Byte of a row at which pixel `x` begins (R441). -/
def wireAt (fmt x : Nat) : Nat := match fmt with
  | 1 => 15 * x / 4
  | 2 => 2 * x
  | _ => 3 * x

/-! The asset store (R450). -/

/-- An image of a store. -/
structure Image where
  id : Nat := 0
  w : Nat := 0
  h : Nat := 0
  off : Nat := 0
  refs : List Nat := []
  deriving DecidableEq, Repr, Inhabited

/-- Directory entry `i` of a store's payload. -/
def storeEntry (p : List Byte) (i : Nat) : Image :=
  let a := 32 + 32 * i
  { id := leAt p a 2, w := leAt p (a + 2) 1 + 1, h := leAt p (a + 3) 1 + 1, off := leAt p (a + 4) 4
    refs := [leAt p (a + 8) 4, leAt p (a + 12) 4, leAt p (a + 16) 4] }

/-- Images of a store's payload. -/
def storeImages (p : List Byte) : List Image := (List.range (leAt p 6 2)).map (storeEntry p)

/-- Pixels of row `y` of an image: palette entries widened (R440). -/
def imageRow (p : List Byte) (m : Image) (y : Nat) : List Pixel :=
  (List.range m.w).map (fun x =>
    let c := m.off + 4 * (leAt p (m.off + 64 + y * m.w + x) 1 % 16)
    { r := widen8 (leAt p c 1), g := widen8 (leAt p (c + 1) 1), b := widen8 (leAt p (c + 2) 1) })

/-- Marigold's own rendering of an image in a wire format gives this REF (R443, R451). -/
def imageRef (p : List Byte) (m : Image) (fmt : Nat) : Nat :=
  (List.range m.h).foldl (fun r y => crc32cRun r (encodeRow fmt (imageRow p m y))) 0

/-- Structure of an entry and its image (R450). -/
def entryOk (p : List Byte) (i : Nat) : Bool :=
  let m := storeEntry p i
  1 ≤ m.id && m.id ≤ 1023 && m.off % 4 == 0 && (bytesAt p (32 + 32 * i + 20) 12).all (· == 0)
    && m.off + 64 + m.w * m.h ≤ p.length && (List.range 16).all (fun c => leAt p (m.off + 4 * c + 3) 1 == 0)
    && (bytesAt p (m.off + 64) (m.w * m.h)).all (fun b => b.toNat < 16)

/-- Payload structure of a store (R450). -/
def storeForm (p : List Byte) : Bool :=
  let n := leAt p 6 2
  32 ≤ p.length && leAt p 0 4 == 0x4D474453 && leAt p 4 2 == 1 && 1 ≤ n && n ≤ 1023 && leAt p 8 4 == p.length && p.length ≤ 262144
    && (bytesAt p 12 20).all (· == 0) && 32 + 32 * n ≤ p.length && (List.range n).all (entryOk p)
    && ((storeImages p).map (·.id)).eraseDups.length == n

/-- Every REF agrees with Marigold's rendering (R451). -/
def storeRefs (p : List Byte) : Bool :=
  (storeImages p).all (fun m => (List.range 3).all (fun f => imageRef p m f == m.refs.getD f 0))

/-- Payload of a bank's store. -/
def State.bankPay (s : State) (b : Nat) : List Byte := envPayload (s.mgd.banks.get b)

/-- Image `id` of a VALID bank; id 0 names none. -/
def State.bankImage (s : State) (b id : Nat) : Option Image :=
  if s.flag F.MGD_BANK_STAT.VALID b ∧ id ≠ 0 then (storeImages (s.bankPay b)).find? (fun m => m.id == id) else none

/-- A verified store enters a bank (R451, R466). -/
def State.setBank (b : Nat) (store : List Byte) (s : State) : State :=
  let p := envPayload store
  (s.modMgd (fun m => { m with banks := m.banks.set b store })).wr .MGD_BANK_STAT
    (1 <<< 31 + envKey store <<< 26 + leAt p 6 2 <<< 16 + leAt p 4 2) b

end Sys2Proof.Machine
end

