-- ==== Sys2Proof/Machine/Commands.lean ====
section
/-!
DEFINITION. Machine/Commands.lean: how a unit takes up a descriptor that has started on a SUB ring, and completes it (R390, R401).
-/
namespace Sys2Proof.Machine

/-- Global index of ring `r` of domain `d` (R382). -/
def ringG (d r : Nat) : Nat := d * 4096 + r

/-- The started descriptor `idx` of ring `g` with command code `cmd` that its unit has not taken up yet. -/
def State.startedCmd (s : State) (g idx cmd : Nat) : Option Started :=
  (s.ring g).started.find? (fun x => x.idx == idx && !x.taken && !x.done && descCmd x.bytes == cmd)

/-- The unit takes up the descriptor. -/
def State.takeCmd (g idx : Nat) (s : State) : State :=
  s.modRing g (fun r => { r with started := changeFirst (fun x => x.idx == idx && !x.taken && !x.done) (fun x => { x with taken := true }) r.started })

/-- A command completes (R401) with a status of R395. -/
def State.finishCmd (g idx : Nat) (bytes : List Byte) (status : Nat) (s : State) (arg : Nat := 0) (detail : Nat := 0xFF) : State :=
  s.report (s.completion g idx bytes status detail 0 arg s.now)

/-- Run a command: its meaning takes the descriptor's bytes. Without such a started descriptor nothing happens. -/
def State.runCmd (d r idx cmd : Nat) (f : Nat → List Byte → State → State) (s : State) : State :=
  let g := ringG d r
  match s.startedCmd g idx cmd with
  | some x => f g x.bytes (s.takeCmd g idx)
  | none => s

/-- Bits `hi:lo` of the word at byte `a` of a descriptor. -/
def cfld (b : List Byte) (a hi lo : Nat) : Nat := bits (leAt b a 4) hi lo

/-- Bytes `a` to the end of a 32-byte descriptor are 0. -/
def restZero (b : List Byte) (a : Nat) : Bool := leAt b a (32 - a) == 0

end Sys2Proof.Machine
end

