-- ==== Sys2Proof/Machine/Product.lean ====
section
/-!
DEFINITION. Machine/Product.lean: the product engine (R265 to R276): its commands from their start to their completion, the checks of
R267 in their order, and what acts at a boundary of the timing raster.
-/
namespace Sys2Proof.Machine

/-! Checks on what is left (R161, R267, R268). -/

/-- The state as it would stand without product `i`: its grants, its share of a bloom and its demand put aside. -/
def State.without (i : Nat) (s : State) : State :=
  (s.setFld F.PRD_STATE.STATE 0 i).modProduct i (fun p => { p with areaG := [], tblSys := [], spillSys := [], stageSys := {} })

/-- The table area lies in the pool: of a fast product, and of a slow one defined before training has ended (R268, R302). -/
def State.areaInPool (s : State) (b : List Byte) : Bool := pdbFast b || !s.flag F.FST_STAT.READY

/-- Largest table area (R281, R302). -/
def State.areaLimit (s : State) (b : List Byte) : Nat := if s.areaInPool b then 524288 else 16777216

/-- The grants of a definition do not fit in what is left (R161, R268, R295). `t` is the state without the product. -/
def State.poolFull (t : State) (b area : List Byte) : Bool :=
  let pool := t.areaInPool b
  t.fld F.POOL_CTRL.PROD_REGION < t.grantedAll + t.outGrant b + (if pool then areaGrant (pdbTblBytes b) else 0)
  || 16384 < t.resvDir + pdbResvLines b || 16384 < t.ledgerGranted + ledgerNeed b area
  || t.sysTotal < t.sysUsed + t.sysNeed b pool

/-- A source's least size would exceed its reservation: the stream (R160). -/
def State.badResv (t : State) (b area : List Byte) : Option Nat :=
  (pdbStreams b).find? (fun st => t.fld F.POOL_RESV.GRANULES st < t.leastLines st [(b, area)] * t.streamG st)

/-- Rings whose contexts are pinned (R416): those created so, and the BUF ring of every fast host product with its CMP ring. -/
def State.pinned (s : State) : List Nat :=
  ((s.hqe.rings.keys.filter (fun g => (s.ring g).st != .disabled && (s.ring g).pin))
    ++ (s.products.filter (fun i => s.prdSt i != 0 && pdbFast (s.product i).pdb && pdbDestKind (s.product i).pdb == 0)).flatMap
      (fun i => let g := pdbRing (s.product i).pdb; [g, s.cmpOf g])).eraseDups

/-- Other products, the one that is replaced apart, with a given destination. -/
def State.destHeld (t : State) (b : List Byte) (but : Option Nat) : Bool :=
  t.products.any (fun j => t.prdSt j != 0 && some j != but && pdbDestKind (t.product j).pdb == pdbDestKind b &&
    (match pdbDestKind b with
      | 0 => pdbRing (t.product j).pdb == pdbRing b
      | 1 => pdbDestId (t.product j).pdb % 16 == pdbDestId b % 16
      | _ => pdbDestId (t.product j).pdb % 65536 == pdbDestId b % 65536))

/-- Region `r` is enabled and of kind `k` (R291). -/
def State.regionOk (s : State) (r k : Nat) : Bool := r < 64 && s.flag F.FST_RGN.EN r && s.fld F.FST_RGN.KIND r == k

/-- Bytes of a region. -/
def State.regionBytes (s : State) (r : Nat) : Nat := s.fld F.FST_RGN.SIZE r * 2097152

/-- Bytes of one frame slot of a DATA region (R292). -/
def State.slotBytes (s : State) (b : List Byte) : Nat := ceilDiv ((1 + pdbFrameLines b) * s.prdPitch b) 16384 * 16384

/-- A REF region of the chain is unallocated, too small or serves another TNR (R291, R294). -/
def State.refBad (t : State) (b : List Byte) : Bool :=
  let mine := tnrPos b
  mine.any (fun k =>
    let r := tnrRegion b k
    !t.regionOk r 1 || t.regionBytes r < 2 * pdbOutH b * t.tnrPitch b k
    || mine.any (fun j => j != k && tnrRegion b j == r)
    || t.products.any (fun p => t.prdSt p != 0 && (tnrPos (t.product p).pdb).any (fun j => tnrRegion (t.product p).pdb j == r)))

/-- The display layer does not take the product (R431). -/
def State.layerBad (t : State) (b : List Byte) : Bool :=
  let p := pdbPort b
  let l := pdbLayer b
  !t.flag F.DEG_LAYER_CFG.EN p l || t.fld F.DEG_LAYER_CFG.SRC p l != 0
  || t.fld F.DEG_HTIMING0.HACT p < t.fld F.DEG_LAYER_POS.X p l + pdbOutW b
  || t.fld F.DEG_VTIMING0.VACT p < t.fld F.DEG_LAYER_POS.Y p l + pdbOutH b
  || (pdbClass b == 0 && !t.flag F.DEG_LAYER_CFG.PROTECT p l)

/-- The destination does not take the product (R267 DEST, R291, R292, R397, R416, R431). -/
def State.destBad (t : State) (c : PrdCmd) (but : Option Nat) : Bool :=
  let b := c.pdb
  t.refBad b || t.destHeld b but ||
  (match pdbDestKind b with
    | 0 =>
      let g := pdbRing b
      let r := t.ring g
      ringDom g != c.dom || r.typ != .buf || r.st == .disabled
        || (pdbFast b && (let pins := t.pinned
                          2048 < (pins ++ [g, t.cmpOf g]).eraseDups.length))
    | 1 => t.layerBad b
    | _ => !t.regionOk (pdbDestId b % 65536) 0 || t.regionBytes (pdbDestId b % 65536) < 2 * t.slotBytes b)

/-! The checks in the order of R267. -/

/-- A check that fails with a status, with the position, branch or stream concerned. -/
def failAt (status : Nat) (o : Option Nat) : Option (Nat × Nat) := o.map (fun d => (status, d))

/-- A check that fails with a status and DETAIL 0xFF. -/
def failIf (status : Nat) (c : Bool) : Option (Nat × Nat) := if c then some (status, 0xFF) else none

/-- Timing raster, shapes and images of a definition's sources with no sample read. -/
def State.srcRaw (s : State) (b : List Byte) (i : Nat) : Bool := (s.shapeSrc b i).fmt.isRaw

/-- RASTER (R206, R267). -/
def State.badRaster (t : State) (b : List Byte) : Option (Nat × Nat) :=
  if ¬ pdbFast b then none
  else
    let n := t.prdRaster b
    let st0 := pdbSrc0 b
    failAt 0x0A ((pdbStreams b).find? (fun st => t.strmRaster st != n || t.fld F.RAS_STRM_CFG.DIV st != t.fld F.RAS_STRM_CFG.DIV st0))
    <|> failIf 0x0A ((pdbDestKind b == 1 && t.fld F.DEG_PORT_CTRL.RASTER (pdbPort b) != n) || t.fld F.RAS_PERIOD.INT n < 4800)

/-- TILE (R187): strip cost of a fast product, tile limits of a slow one. Without a table area (`big`), what needs no mesh is checked. -/
def State.badTile (t : State) (b area : List Byte) (big : Bool) : Bool :=
  if pdbFast b then
    3 * t.period (t.prdRaster b) < 4 * 2 ^ 32 * stripCost b area (t.shapeSrc b) (fun k => !big || meshFree b k)
  else badSlowTile b area (t.shapeSrc b) ((t.poolBranches b).filter (fun i => !big || branchMeshFree b i))

/-- Home bloom and carry of a fast definition (R193): the one it has, or the first that fits. -/
def State.homeFor (t : State) (b area : List Byte) (held : Option Nat) : Option Nat :=
  let n := t.demandS b area
  let kib := carryKib b area (t.shapeSrc b)
  match held with
  | some h => let l := t.homeLoad h
              if l.1 + n ≤ t.fld F.BLM_FAST_CTRL.FAST_PETALS ∧ l.2 + kib ≤ 384 then some h else none
  | none => t.findHome (pdbSrc0 b) n kib

/-- Fast products that are defined. -/
def State.fastCount (t : State) : Nat := (t.products.filter (fun i => t.prdSt i != 0 && t.flag F.PRD_STATE.FAST i)).length

/-- The checks of a PRD_DEFINE or PRD_UPDATE, first failure first; none when all pass. `again` is the check at the boundary
(R270), where the product's own grants already stand. -/
def State.checkDef (s : State) (c : PrdCmd) (again : Bool) : Option (Nat × Nat) :=
  let i := prdCmdId c.bytes
  let b := c.pdb
  let upd := c.op == .update
  let t := s.without i
  let big := s.areaLimit b < pdbTblBytes b
  let src := t.shapeSrc b
  let repl := if prdCmdReplEn c.bytes && !upd then some (prdCmdReplId c.bytes) else none
  let held := if (upd && s.prdSt i != 0) || again then some (s.fld F.PRD_STATE.HOME i) else none
  failIf 0x01 ((!upd && !again && s.prdSt i != 0) || (b != [] && pdbProduct b != i))
  <|> failIf 0x02 c.readBad
  <|> failAt 0x03 ((pdbStreams b).find? (fun st => (t.mapOf st).isNone || 15 < (t.consumers st).length))
  <|> failAt 0x04 (badBranch b)
  <|> failAt 0x05 (badFormat b src (t.srcRaw b))
  <|> failAt 0x06 (if big then none else badTable b c.area src)
  <|> failAt 0x07 (if big then none else badMesh b c.area)
  <|> failAt 0x08 (badFast b)
  <|> failAt 0x09 (badClass b)
  <|> t.badRaster b
  <|> failAt 0x0B (badAlign b c.area (fun st => max 1 (t.height st)) (fun i => !big || branchMeshFree b i))
  <|> failIf 0x0C (t.badTile b c.area big)
  <|> failIf 0x0D (big || (upd && s.prdSt i != 0 && (s.product i).tblMax < pdbTblBytes b) || (!upd && t.poolFull b c.area))
  <|> failAt 0x0E (t.badResv b c.area)
  <|> failIf 0x0F (pdbFast b && ((t.homeFor b c.area held).isNone || 96 ≤ t.fastCount))
  <|> failIf 0x16 (pdbClass b ≤ 1 && !t.demandFits (t.reservedDefs ++ [(b, c.area, if pdbFast b then t.homeFor b c.area held else none)]))
  <|> failIf 0x10 (t.destBad c repl)
  <|> failIf 0x11 (!pdbFast b && !s.flag F.FST_STAT.READY && (pdbDestKind b == 2 || !(tnrPos b).isEmpty))
  <|> failIf 0x12 ((upd && (s.prdSt i == 0 || s.prdSt i == 3)) || (match repl with
      | some r => s.prdSt r != 2
      | none => false))
  <|> failIf 0x13 (upd && badScope (s.product i).pdb b src)
  <|> failIf 0x14 (c.dom != 0 && ((upd && s.fld F.PRD_STATE.DOMAIN i != c.dom) || (match repl with
      | some r => s.fld F.PRD_STATE.DOMAIN r != c.dom
      | none => false)))

/-- The checks of a PRD_RETIRE. -/
def State.checkRetire (s : State) (c : PrdCmd) : Option (Nat × Nat) :=
  let i := prdCmdId c.bytes
  failIf 0x12 (s.prdSt i == 0 || s.prdSt i == 3) <|> failIf 0x14 (c.dom != 0 && s.fld F.PRD_STATE.DOMAIN i != c.dom)

/-! From the descriptor to the checks (R663, R266, R267). -/

/-- The descriptor of a product command is malformed (R663). -/
def prdMalformed (op : PrdOp) (b : List Byte) : Bool :=
  cfld b 16 14 8 != 0 || cfld b 20 31 9 != 0 || !restZero b 24 || prdCmdId b == 0xFF
  || (op != .define && prdCmdReplEn b) || (op != .retire && prdCmdPdb b % 64 != 0)

/-- Change the command at the head of the engine's queue. -/
def State.modHead (f : PrdCmd → PrdCmd) (s : State) : State :=
  s.modPrd (fun p => { p with queue := match p.queue with
    | [] => []
    | c :: q => f c :: q })

/-- The engine takes up the command at its head, when it has not begun yet (R266, R267): a malformed one completes at once (R663), and
the next one follows; of the others but a retirement it reads the definition. -/
def State.startPrds : Nat → State → State
  | 0, s => s
  | k + 1, s =>
    match s.prd.queue with
    | c :: q =>
      if c.stage ≠ .queued then s
      else if !c.boot && prdMalformed c.op c.bytes then
        State.startPrds k ((s.modPrd (fun p => { p with queue := q })).report
          (s.completion c.ring c.idx c.bytes 0x30 0xFF (prdCmdId c.bytes) 0 s.now))
      else if c.op = .retire then s.modHead (fun c => { c with stage := .checking })
      else
        match s.readHost { kind := .pdb, ring := c.ring, idx := c.idx } c.dom (s.ring c.ring).cls (prdCmdPdb c.bytes) 576 with
        | some s => s.modHead (fun c => { c with stage := .readPdb })
        | none => (s.readRefused { kind := .pdb, ring := c.ring, idx := c.idx } c.dom (s.ring c.ring).cls (prdCmdPdb c.bytes) 576).modHead
            (fun c => { c with stage := .checking, readBad := true })
    | [] => s

/-- The engine takes up what stands at its head. -/
def State.startPrd (s : State) : State := s.startPrds (s.prd.queue.length + 1)

/-- The definition has arrived, or its read has failed: the table area is read next, unless it is over its limit (R267). -/
def State.gotPdb (data : Option (List Byte)) (s : State) : State :=
  match s.prd.queue, data with
  | c :: _, some b =>
    if c.stage ≠ .readPdb then s
    else
      let s := s.modHead (fun c => { c with pdb := b, stage := .checking })
      if s.areaLimit b < pdbTblBytes b ∨ pdbTblBytes b = 0 then s
      else match s.readHost { kind := .table, ring := c.ring, idx := c.idx } c.dom (s.ring c.ring).cls (pdbTblAddr b) (pdbTblBytes b) with
        | some s => s.modHead (fun c => { c with stage := .readTable })
        | none => (s.readRefused { kind := .table, ring := c.ring, idx := c.idx } c.dom (s.ring c.ring).cls (pdbTblAddr b)
            (pdbTblBytes b)).modHead (fun c => { c with readBad := true })
  | c :: _, none => if c.stage = .readPdb then s.modHead (fun c => { c with stage := .checking, readBad := true }) else s
  | [], _ => s

/-- The table area has arrived, or its read has failed. -/
def State.gotTable (data : Option (List Byte)) (s : State) : State :=
  match s.prd.queue with
  | c :: _ =>
    if c.stage ≠ .readTable then s
    else match data with
      | some b => s.modHead (fun c => { c with area := b, stage := .checking })
      | none => s.modHead (fun c => { c with stage := .checking, readBad := true })
  | [] => s

/-- A product command arrives at the engine (R265, R267). -/
def State.prdCommand (op : PrdOp) (g idx : Nat) (b : List Byte) (s : State) : State :=
  (s.modPrd (fun p => { p with queue := p.queue ++ [{ op := op, dom := ringDom g, ring := g, idx := idx, bytes := b }] })).startPrd

def doPrdDefine (d r idx : Nat) (s : State) : State := s.runCmd d r idx 0x20 (fun g b => State.prdCommand .define g idx b)
def doPrdUpdate (d r idx : Nat) (s : State) : State := s.runCmd d r idx 0x21 (fun g b => State.prdCommand .update g idx b)
def doPrdRetire (d r idx : Nat) (s : State) : State := s.runCmd d r idx 0x22 (fun g b => State.prdCommand .retire g idx b)

/-! Acting (R269 to R276). -/

/-- Frame at which a command with AT_EN = 1 is due (R53, R271); none when the target has begun or lies behind. -/
def State.dueFrame (s : State) (n at_ : Nat) : Option Nat :=
  let next := ((s.ras.get n).frame + 1) % 2 ^ 32
  let d := subMod 65536 at_ (next % 65536)
  if d < 32768 then some ((next + d) % 2 ^ 32) else none

/-- Waiting commands of product `i` that satisfy `f` complete with a status and wait no longer. -/
def State.dropWaits (i status : Nat) (f : PrdCmd → Bool) (s : State) : State × List Note :=
  let p := s.product i
  let n := s.prdRaster p.pdb
  let s := s.modProduct i (fun p => { p with waits := p.waits.filter (fun c => !f c) })
  (p.waits.filter f).foldl (fun (t : State × List Note) c =>
    let u := t.1.finishPrd c status 0xFF 0 n
    (u.1, t.2 ++ u.2)) (s, [])

/-- The lowest `n` granules that are free, for a table area (R268; which ones is left open: DESIGN CHOICE, log 81). -/
def State.lowGrans (s : State) (n : Nat) : List Nat :=
  let used := s.usedGrans
  ((List.range (n + used.length)).filter (fun g => !used.any (· == g))).take n

/-- The granules of SYS regions that a definition takes (R295): its table area, its spill ring, its stages. -/
def State.sysGrants (s : State) (b : List Byte) (pool : Bool) (p : Product) : Product :=
  let t := s.takeSys (tblNeed b pool) []
  let sp := s.takeSys (s.spillNeed b pool) t
  let st := [1, 2, 3].foldl (fun (a : Tbl (List Nat) × List Nat) k =>
    let g := s.takeSys (s.stageNeed b k) (t ++ sp ++ a.2)
    (a.1.set k g, a.2 ++ g)) ({}, [])
  { p with tblSys := t, spillSys := sp, stageSys := st.1 }

/-- A definition that passed its checks is granted what it needs: PENDING until its boundary (R161, R193, R269). -/
def State.grantPrd (c : PrdCmd) (s : State) : State :=
  let i := prdCmdId c.bytes
  let b := c.pdb
  let pool := s.areaInPool b
  let home := if pdbFast b then (s.homeFor b c.area none).getD 0 else 0
  let p : Product := {
    pdb := b, area := c.area, tblMax := pdbTblBytes b, waits := [c], boot := c.boot, pdbAddr := prdCmdPdb c.bytes
    areaPool := pool, areaG := if pool then s.lowGrans (areaGrant (pdbTblBytes b)) else [] }
  let p := s.sysGrants b pool p
  let s := (s.wr .PRD_STATE 0 i).wr .PRD_COST 0 i
  let s := (s.modPrd (fun q => { q with tab := q.tab.set i p })).placeTable i 0 c.area
  let s := ((s.setFld F.PRD_STATE.STATE 1 i).setFld F.PRD_STATE.DOMAIN c.dom i).setFld F.PRD_STATE.HOME home i
  let s := (s.showProduct i).showResources
  s.when (pdbDestKind b == 0 && (s.ring (pdbRing b)).bound == 0) (·.modRing (pdbRing b) (fun r => { r with bound := 1, product := i }))

/-- The checks of the command at the head end (R267): it is refused, waits for its boundary, or takes back a definition that has not
acted (R276). -/
def State.checksDone (c : PrdCmd) (s : State) : State × List Note :=
  let i := prdCmdId c.bytes
  let fails := match c.op with
    | .retire => s.checkRetire c
    | _ => s.checkDef c false
  let n := s.prdRaster (if c.op = .define then c.pdb else (s.product i).pdb)
  match fails with
  | some (status, detail) => s.finishPrd c status detail 0 n
  | none =>
    let c := { c with stage := .pending, target := if prdCmdAtEn c.bytes then s.dueFrame n (prdCmdAtFrame c.bytes) else none }
    match c.op with
    | .define => (s.grantPrd c, [])
    | .update =>
      let r := s.dropWaits i 0x15 (fun w => w.op == .update)
      (r.1.modProduct i (fun p => { p with waits := p.waits ++ [c] }), r.2)
    | .retire =>
      let r := s.dropWaits i 0x15 (fun w => w.op == .update)
      if r.1.prdSt i = 1 then
        let u := r.1.dropWaits i 0x15 (fun _ => true)
        let f := u.1.finishPrd c 0 0xFF 0 n
        let w := f.1.freeProduct i
        (w.1, r.2 ++ u.2 ++ f.2 ++ w.2)
      else (r.1.modProduct i (fun p => { p with waits := p.waits ++ [c] }), r.2)

/-- PRODUCT_CHECKS_DONE (R267): the command at the head of the engine, once what it reads has arrived; the next one begins. -/
def doProductChecksDone (s : State) : State :=
  match s.prd.queue with
  | c :: q =>
    if c.stage ≠ .checking then s
    else (State.andReport ((s.modPrd (fun p => { p with queue := q })).checksDone c)).startPrd
  | [] => s

/-- Frames of the product that belong to settings before those in force hold a change back (R271): until their barrier, and while they
are numbered and have not opened. -/
def State.prdHeldBack (s : State) (i : Nat) : Bool :=
  let p := s.product i
  p.frames.any (fun q => q.setting != p.settings && !q.barrier) || p.past.any (fun x => s.awaitsFrame i x.until_)

/-- First product frame of a definition that acts at frame `f` (R269): a multiple of DIV for a triggered source. -/
def State.firstFrame (s : State) (b : List Byte) (f : Nat) : Nat :=
  let st := pdbSrc0 b
  let div := max 1 (s.fld F.RAS_STRM_CFG.DIV st)
  if s.trigMode st = 0 then f else (f + (div - f % div) % div) % 2 ^ 32

/-- The product is due at the boundary into frame `f`. -/
def PrdCmd.due (c : PrdCmd) (f : Nat) : Bool := match c.target with
  | some t => frameGe f t
  | none => true

/-- A definition acts at the boundary into frame `f` of raster `n` (R269, R270, R275). -/
def State.actDefine (n f i : Nat) (c : PrdCmd) (s : State) : State × List Note :=
  let s := s.modProduct i (fun p => { p with waits := p.waits.filter (fun w => w.op != .define) })
  match s.checkDef c true with
  | some (status, detail) =>
    let r := s.dropWaits i 0x12 (fun _ => true)
    let u := r.1.freeProduct i
    let w := u.1.finishPrd c status detail 0 n
    (w.1, r.2 ++ u.2 ++ w.2)
  | none =>
    let c := { c with acted := some (s.pos n) }
    let first := s.firstFrame c.pdb f
    let s := (s.setFld F.PRD_STATE.STATE 2 i).modProduct i (fun p => { p with first := first })
    if prdCmdReplEn c.bytes then
      let j := prdCmdReplId c.bytes
      let r := s.dropWaits j 0x15 (fun _ => true)
      let s := (r.1.setFld F.PRD_STATE.STATE 3 j).modProduct j (fun p => { p with until_ := some f })
      let s := s.modProduct i (fun p => { p with replOf := some c })
      let s := s.when (pdbDestKind c.pdb == 0) (·.modRing (pdbRing c.pdb) (fun g => { g with bound := 1, product := i }))
      let u := s.freeIfDone j
      (u.1, r.2 ++ u.2)
    else s.finishPrd c 0 0xFF first n

/-- An update acts at the boundary into frame `f` (R271, R272): its tables go to the other half of the area (R268), and frames numbered before
run under what it replaces. -/
def State.actUpdate (n f i : Nat) (c : PrdCmd) (s : State) : State × List Note :=
  let s := s.modProduct i (fun p => { p with waits := p.waits.filter (fun w => w.idx != c.idx || w.ring != c.ring) })
  let c := { c with acted := some (s.pos n) }
  match s.checkDef c true with
  | some (status, detail) => s.finishPrd c status detail 0 n
  | none =>
    let s := s.modProduct i (fun p => { p with
      pdb := c.pdb, area := c.area, pdbAddr := prdCmdPdb c.bytes, settings := p.settings + 1
      past := some { pdb := p.pdb, area := p.area, half := p.settings % 2, until_ := f } })
    let s := s.placeTable i ((s.product i).settings % 2) c.area
    let s := s.setFld F.PRD_STATE.GEN ((s.fld F.PRD_STATE.GEN i + 1) % 256) i
    ((s.showProduct i).showResources).finishPrd c 0 0xFF 0 n

/-- A retirement acts: frame `f` is the first that is not produced (R273). -/
def State.actRetire (n f i : Nat) (c : PrdCmd) (s : State) : State × List Note :=
  let s := s.modProduct i (fun p => { p with waits := p.waits.filter (fun w => w.idx != c.idx || w.ring != c.ring) })
  let r := s.dropWaits i 0x12 (fun _ => true)
  let s := (r.1.setFld F.PRD_STATE.STATE 3 i).modProduct i (fun p => { p with
    until_ := some f, retire := some { c with acted := some (r.1.pos n) } })
  let u := s.freeIfDone i
  (u.1, r.2 ++ u.2)

/-- One waiting command of product `i`, at the boundary into frame `f` of its timing raster. -/
def State.actPrd (n f i : Nat) (c : PrdCmd) (s : State) : State × List Note :=
  if ¬ (s.product i).waits.any (· == c) ∨ ¬ c.due f then (s, [])
  else match c.op with
    | .define => s.actDefine n f i c
    | .update => if s.prdSt i = 1 ∨ s.prdHeldBack i then (s, []) else s.actUpdate n f i c
    | .retire => if s.prdHeldBack i then (s, []) else s.actRetire n f i c

/-- Product commands act at the boundary into frame `f` of raster `n`, definitions first (R269, R276). -/
def State.prdBoundary (n f : Nat) (s : State) : State :=
  let due := fun (s : State) (d : Bool) => (s.products.filter (fun i => s.prdRaster (s.product i).pdb == n)).flatMap (fun i =>
    ((s.product i).waits.filter (fun c => (c.op == .define) == d)).map (fun c => (i, c)))
  let s := s.each (due s true) (fun u s => State.andReport (s.actPrd n f u.1 u.2))
  (s.each (due s false) (fun u s => State.andReport (s.actPrd n f u.1 u.2))).tryFrees

/-! Meanings. -/

def execPrdDefine (dom : Fin 64) (ring : Fin 4096) (idx : BitVec 32) (s : State) : Host.Outcome State Fault Refusal :=
  .next (doPrdDefine dom ring idx.toNat s)
def execPrdUpdate (dom : Fin 64) (ring : Fin 4096) (idx : BitVec 32) (s : State) : Host.Outcome State Fault Refusal :=
  .next (doPrdUpdate dom ring idx.toNat s)
def execPrdRetire (dom : Fin 64) (ring : Fin 4096) (idx : BitVec 32) (s : State) : Host.Outcome State Fault Refusal :=
  .next (doPrdRetire dom ring idx.toNat s)
def execProductChecksDone (s : State) : Host.Outcome State Fault Refusal := .next (doProductChecksDone s)

end Sys2Proof.Machine
end

