-- ==== Sys2Proof/Machine/Consistency.lean ====
section
/-!
DEFINITION. Machine/Consistency.lean: the consistency rules of a commit (R42 to R44, R86, R126, R177, R210, R305, R418, R456, R497,
R618). `o` is the state with the values in force; `s` is the same state with the staged writes applied.
-/
namespace Sys2Proof.Machine

/-! Rules 1 to 3 (R43). -/

/-- Fields whose register table states a range. -/
def ranges : List (Fld × Nat × Nat) :=
  [(F.RAS_DISC_CTRL.TIMEOUT_MS, 1, 65535), (F.RAS_DISC_PARAM.STEP_US, 1, 4095), (F.RAS_DISC_PARAM.LOCK_NS, 1, 65535),
   (F.RAS_TSYNC_PERIOD.PERIOD_NS, 1000000, 4000000000), (F.RAS_CTRL.SLEW_MAX, 1, 255), (F.RAS_PERIOD.LINES, 2, 65535),
   (F.RAS_PERIOD.INT, 1000, 65535), (F.RAS_ALIGN.PERIOD_MS, 1, 65535), (F.RAS_STRM_CFG.DIV, 1, 15),
   (F.RAS_STRM_CFG.UNLOCK_LIM, 1, 15), (F.ING_STRM_SIZE.HEIGHT, 2, 65535), (F.ING_STRM_SIZE.WIDTH, 16, 16384),
   (F.ING_STRM_LEN.LINE_BYTES, 1, 65535)]
  ++ [(F.SEAL_E2E_PROF.WIDTH, 8, 32), (F.FST_CTRL.SCRUB_H, 1, 255), (F.DEG_VTIMING1.VSA, 1, 255), (F.DEG_VTIMING1.VBP, 1, 255),
   (F.DEG_HTIMING0.HACT, 16, 4096), (F.DEG_HTIMING1.HSA, 1, 255), (F.DEG_HTIMING1.HBP, 1, 255), (F.MGD_PORT_CTRL.FAIL_LIM, 1, 255),
   (F.MGD_SLOT_RB.RB_LAG, 1, 7), (F.VBR_CTRL.RETRY_MS, 1, 255), (F.VBR_CTRL.PF_LIFE, 1, 255), (F.VBR_LVT_CTRL.LINES, 1, 65535),
   (F.VBR_RPORT.XFER_MS, 1, 255), (F.EGV_CTRL.DROP_N, 2, 8), (F.EGV_CTRL.UP_LINES, 1, 255)]

/-- Class-S fields with reserved values that their register table marks. -/
def reservedVals : List (Fld × List Nat) :=
  [(F.RAS_DISC_CTRL.SRC, [3]), (F.RAS_CTRL.ALIGN_MODE, [2, 3]), (F.RAS_STRM_CFG.DIV, [0]), (F.RAS_STRM_CFG.UNLOCK_LIM, [0]),
   (F.ING_STRM_FMT.POLICY, [3]), (F.ING_STRM_FMT.REP_DIST, [3]), (F.SEAL_E2E_PROF.IDFOLD, [3]), (F.FST_RGN.KIND, [3]),
   (F.DEG_LAYER_CFG.SRC, [2, 3]), (F.MGD_TT_CFG.SRC, [3]), (F.VBR_RPORT.SPEED, [3])]

/-- Index of a register instance as CFG_REJECT numbers it (R44). -/
def RegId.number (r : RegId) : Nat := r.i * r.kind.row.n2 + r.j

/-- The least element of a list. -/
def leastOf (l : List Nat) : Option Nat := l.foldl (fun m n => some (m.elim n (min n))) none

/-- Registers that the staged generation writes. -/
def writtenRegs (ws : List CfgWrite) : List RegId := (ws.map (·.reg)).eraseDups

/-- Rule 1: every field lies within its stated range. -/
def rule1 (ws : List CfgWrite) (s : State) : Option Nat :=
  leastOf ((writtenRegs ws).filterMap (fun r =>
    if ranges.any (fun f => f.1.reg == r.kind && (s.fld f.1 r.i r.j < f.2.1 || f.2.2 < s.fld f.1 r.i r.j)) then some r.number else none))

/-- Rule 3: no field holds a reserved value. -/
def rule3 (ws : List CfgWrite) (s : State) : Option Nat :=
  leastOf ((writtenRegs ws).filterMap (fun r =>
    if reservedVals.any (fun f => f.1.reg == r.kind && f.2.any (· == s.fld f.1 r.i r.j)) then some r.number else none))

/-- The lowest instance below `n` for which a rule does not hold. -/
def firstBad (n : Nat) (bad : Nat → Bool) : Option Nat := (List.range n).find? bad

/-- A rule without instance. -/
def badIf (b : Bool) : Option Nat := if b then some 0 else none

/-! RAS (R86). -/

/-- Enabled streams that raster `g` times. -/
def State.timed (s : State) (g st : Nat) : Bool := s.flag F.RAS_STRM_CFG.EN st && s.strmRaster st == g

/-- DIV × LINES of a stream's raster. -/
def State.spanLines (s : State) (st : Nat) : Nat := s.fld F.RAS_STRM_CFG.DIV st * s.lines (s.strmRaster st)

def rule16 (g : Nat) (s : State) : Option Nat :=
  if s.fld F.RAS_PERIOD.INT g < 4800 ∧ (List.range 64).any (fun st => s.timed g st && s.trigMode st == 1) then some g else none

def rule17 (g : Nat) (s : State) : Option Nat :=
  let fr := s.fld F.RAS_ALIGN.FRAMES g
  let total : Int := (fr * s.lines g * s.period g : Nat)
  let want : Int := (s.fld F.RAS_ALIGN.PERIOD_MS g * 1200000 * 2 ^ 32 : Nat)
  if fr ≠ 0 ∧ (want < (total - want).natAbs * 1000000 ∨ s.fld F.RAS_ALIGN.PERIOD_MS g * 1000000 ≤ s.fld F.RAS_PHASE.PHASE_NS g) then some g
  else none

def rule18 (s : State) : Option Nat :=
  badIf (s.fld F.RAS_DISC_CTRL.SRC == 1
    && decide (s.fld F.RAS_DISC_CTRL.TIMEOUT_MS * 1000000 < 2 * s.fld F.RAS_TSYNC_PERIOD.PERIOD_NS))

def rule19 (s : State) : Option Nat := badIf (decide (s.fld F.RAS_DISC_CTRL.KI_SHIFT < s.fld F.RAS_DISC_CTRL.KP_SHIFT))

/-- A stream without a map entry has no H; rule 100 refuses it. -/
def rule20 (g : Nat) (s : State) : Option Nat := firstBad 64 (fun st => s.timed g st && (s.mapOf st).isSome
  && decide (s.spanLines st * 2 ^ 20 ≤ s.fld F.RAS_STRM_TARGET.TARGET0 st * 2 ^ 20 + (s.height st - 1) * s.fld F.RAS_STRM_RATIO.RATIO st))

def rule21 (g : Nat) (s : State) : Option Nat := firstBad 64 (fun st => s.timed g st
  && (s.fld F.RAS_STRM_RATIO.RATIO st == 0
    || ((s.mapOf st).isSome && decide (s.height st ≤ s.fld F.RAS_STRM_TARGET.REF_LINE st))))

def rule22 (g : Nat) (s : State) : Option Nat := firstBad 64 (fun st => s.timed g st
  && decide (s.spanLines st * 256 ≤ (s.sfld F.RAS_TRIG_INIT.INIT st).natAbs))

def rule23 (g : Nat) (s : State) : Option Nat := firstBad 64 (fun st =>
  let w := s.fld F.RAS_STRM_CFG.OWNER st
  s.timed g st && s.trigMode st == 3 && (!s.flag F.RAS_STRM_CFG.EN w || s.trigMode w == 3 || s.strmRaster w != g
    || s.fld F.RAS_STRM_CFG.DIV w != s.fld F.RAS_STRM_CFG.DIV st))

def rule24 (g : Nat) (s : State) : Option Nat := firstBad 64 (fun st => s.timed g st && (match s.mapOf st with
  | none => false
  | some (p, _) =>
    let m := s.trigMode st
    (m == 1 && 28 ≤ p) || (m == 2 && p < 28)
    || (List.range 64).any (fun t => t != st && s.flag F.RAS_STRM_CFG.EN t && (match s.mapOf t with
      | some (q, _) => q == p && (s.strmRaster t != g
          || (s.trigMode t == m && (m == 2 || (m == 1 && s.fld F.RAS_STRM_CFG.TRIG_IDX t == s.fld F.RAS_STRM_CFG.TRIG_IDX st))))
      | none => false))))

/-- The class-S fields that name a line of a raster are those of the display ports (R447, R438, R445, R427): a port's group is that
of its raster, so each lies in one group with LINES. -/
def rule25 (g : Nat) (s : State) : Option Nat := firstBad 4 (fun n => s.fld F.DEG_PORT_CTRL.RASTER n == g &&
  [F.DEG_VTIMING1.VSTART, F.MGD_PORT_CTRL.RB_LINE, F.MGD_PORT_LINES.LATCH, F.MGD_PORT_LINES.PROOF_LINE].any (fun f =>
    decide (s.lines g ≤ s.fld f n)))

def rule26 (g : Nat) (s : State) : Option Nat :=
  if s.fld F.RAS_PERIOD.INT g < 4800 ∧ s.products.any (fun i => (s.prdSt i == 1 || s.prdSt i == 2) && s.flag F.PRD_STATE.FAST i
      && s.prdRaster (s.product i).pdb == g) then some g else none

/-! ING (R126). -/

/-- Pixels per group and bytes per group of a data type of R106. -/
def dtGroup (dt : Nat) : Option (Nat × Nat) := match dt with
  | 0x2A | 0x12 => some (1, 1)
  | 0x2B => some (4, 5)
  | 0x2C => some (2, 3)
  | 0x2D => some (4, 7)
  | 0x2E => some (1, 2)
  | 0x2F => some (2, 5)
  | 0x27 | 0x24 => some (1, 3)
  | 0x1E => some (2, 4)
  | _ => if 0x30 ≤ dt ∧ dt ≤ 0x37 then some (1, 1) else none

/-- Map entry `8 p + e` is enabled. -/
def State.entryOn (s : State) (i : Nat) : Bool := s.flag F.ING_MAP.EN (i / 8) (i % 8)

/-- Group `g` holds ING fields (R33, R126): its commits check the rules of ING over every enabled map entry of the device. -/
def State.holdsIng (s : State) (g : Nat) : Bool := (List.range 240).any (fun i => s.groupOf .ING_STRM_FMT (i / 8) (i % 8) == g)

/-- The lowest instance below `n` for which a rule of ING does not hold. -/
def State.ingBad (s : State) (g n : Nat) (bad : Nat → Bool) : Option Nat := if s.holdsIng g then firstBad n bad else none

def rule96 (g : Nat) (s : State) : Option Nat := s.ingBad g 240 (fun i => s.entryOn i &&
  (let n := s.fld F.ING_STRM_SIZE.WIDTH (i / 8) (i % 8) * (s.fld F.ING_STRM_FMT.EXPOSURES (i / 8) (i % 8) + 1)
   match dtGroup (s.fld F.ING_MAP.DT (i / 8) (i % 8)) with
   | some (px, by_) => n % px != 0 || s.fld F.ING_STRM_LEN.LINE_BYTES (i / 8) (i % 8) != n / px * by_
   | none => true))

def rule97 (g : Nat) (s : State) : Option Nat := s.ingBad g 240 (fun i => s.entryOn i &&
  (s.flag F.ING_STRM_FMT.SAMPLE (i / 8) (i % 8) != (dtContainer (s.fld F.ING_MAP.DT (i / 8) (i % 8)) == 4)))

/-- A RAW data type. -/
def dtRaw (dt : Nat) : Bool := dt == 0x27 || (0x2A ≤ dt && dt ≤ 0x2F)

def rule98 (g : Nat) (s : State) : Option Nat := s.ingBad g 240 (fun i => s.entryOn i &&
  s.fld F.ING_STRM_FMT.EXPOSURES (i / 8) (i % 8) != 0 && !dtRaw (s.fld F.ING_MAP.DT (i / 8) (i % 8)))

def rule99 (g : Nat) (s : State) : Option Nat := s.ingBad g 240 (fun i => s.entryOn i &&
  (List.range 8).any (fun e => e != i % 8 && s.flag F.ING_MAP.EN (i / 8) e
    && s.fld F.ING_MAP.VC (i / 8) e == s.fld F.ING_MAP.VC (i / 8) (i % 8)
    && s.fld F.ING_MAP.DT (i / 8) e == s.fld F.ING_MAP.DT (i / 8) (i % 8)))

/-- Enabled entries in the device that name a stream. -/
def State.namings (s : State) (st : Nat) : Nat :=
  ((List.range 240).filter (fun i => s.flag F.ING_MAP.EN (i / 8) (i % 8) && s.fld F.ING_MAP.STREAM (i / 8) (i % 8) == st)).length

def rule100 (g : Nat) (s : State) : Option Nat := s.ingBad g 64 (fun st =>
  decide (1 < s.namings st) || (s.flag F.RAS_STRM_CFG.EN st && s.namings st == 0))

/-- Gear rate in Gbit/s (R102, R426). -/
def gearRate (n : Nat) : Nat := match n with
  | 1 => 2
  | 2 => 4
  | 3 => 8
  | 4 => 12
  | 5 => 16
  | _ => 0

/-- Capacity of an ingress port in Mbit/s (R126). -/
def State.portRate (s : State) (p : Nat) : Nat :=
  if p < 28 then gearRate (s.fld F.ING_PORT_CTRL.GEAR p) * 950
  else (match s.fld F.ING_PORT_CTRL.LANES p with
    | 0 => 1
    | 1 => 2
    | 2 => 4
    | _ => 0) * 4275

/-- Rate of an entry in Mbit/s while its stream's lines are active (rule 101); RATIO 0 is refused by rule 21. -/
def State.entryRate (s : State) (p e : Nat) : Rat :=
  let st := s.fld F.ING_MAP.STREAM p e
  let d := s.fld F.RAS_STRM_RATIO.RATIO st * s.period (s.strmRaster st)
  if s.flag F.ING_MAP.EN p e ∧ d ≠ 0 then
    (((s.fld F.ING_STRM_LEN.LINE_BYTES p e + 6) * 8 * 1200 * 2 ^ 52 : Nat) : Rat) / d
  else 0

def rule101 (g : Nat) (s : State) : Option Nat := s.ingBad g 30 (fun p =>
  decide ((s.portRate p : Rat) < (List.range 8).foldl (fun t e => t + s.entryRate p e) 0))

def rule102 (g : Nat) (s : State) : Option Nat := s.ingBad g 240 (fun i => s.entryOn i &&
  decide (4 ≤ s.fld F.ING_MAP.VC (i / 8) (i % 8)) && !s.flag F.ING_PORT_CTRL.VCX_EN (i / 8))

/-! POOL (R177) and BLM (R210). -/

def rule224 (s : State) : Option Nat := badIf (decide
  (64512 < s.sumFld F.POOL_RESV.GRANULES 64 + s.fld F.POOL_CTRL.PROD_REGION + s.sumFld F.POOL_HOST_RESV.GRANULES 4))

def rule225 (s : State) : Option Nat := firstBad 64 (fun st => s.flag F.RAS_STRM_CFG.EN st
  && decide (s.fld F.POOL_RESV.GRANULES st < s.leastLines st * s.streamG st))

def rule226 (s : State) : Option Nat := firstBad 64 (fun st => s.flag F.RAS_STRM_CFG.EN st && decide (64 < s.streamG st))

def rule227 (s : State) : Option Nat := badIf (decide (12288 < s.resvDir))

def rule228 (s : State) : Option Nat := firstBad 4 (fun c =>
  let t := s.fld F.POOL_OVF_CLS.THR c
  match c with
  | 0 | 1 => t != 0 || s.fld F.POOL_OVF_CLS.CAP c != 0
  | 2 => decide (t < 128)
  | _ => decide (t < s.fld F.POOL_OVF_CLS.THR 2))

def rule229 (s : State) : Option Nat := if s.ovfSize ≤ s.fld F.POOL_OVF_CLS.THR 3 then some 3 else none

def rule230 (s : State) : Option Nat := badIf (decide (s.fld F.POOL_CTRL.PROD_REGION < s.grantedAll))

def rule304 (s : State) : Option Nat :=
  badIf (decide (s.fld F.BLM_FAST_CTRL.FAST_PETALS < 8 ∨ 28 < s.fld F.BLM_FAST_CTRL.FAST_PETALS))

def rule305 (s : State) : Option Nat := firstBad 8 (fun b => decide (s.fld F.BLM_FAST_CTRL.FAST_PETALS < (s.homeLoad b).1))

def rule306 (s : State) : Option Nat :=
  let l := fun (f : Fld) => s.fld f
  badIf (decide (l F.BLM_SLACK.LINES1 < l F.BLM_SLACK.LINES0 ∨ l F.BLM_SLACK.LINES2 < l F.BLM_SLACK.LINES1
    ∨ l F.BLM_SLACK.LINES3 < l F.BLM_SLACK.LINES2 ∨ l F.BLM_SLACK.LINES0 < 2))

def rule307 (s : State) : Option Nat := badIf (decide (s.fld F.BLM_XSTEAL.CAP_PCT < 1 ∨ 20 < s.fld F.BLM_XSTEAL.CAP_PCT))
def rule308 (s : State) : Option Nat := badIf (s.fld F.BLM_XSTEAL.MIN_Q == 0)

/-! FST (R305) and HQE (R418). -/

/-- Two regions share a block. -/
def State.regionsMeet (s : State) (r q : Nat) : Bool :=
  s.fld F.FST_RGN.BASE r < s.fld F.FST_RGN.BASE q + s.fld F.FST_RGN.SIZE q
    && s.fld F.FST_RGN.BASE q < s.fld F.FST_RGN.BASE r + s.fld F.FST_RGN.SIZE r

def rule400 (s : State) : Option Nat := firstBad 64 (fun r => s.flag F.FST_RGN.EN r &&
  (s.fld F.FST_RGN.SIZE r == 0 || decide (8191 < s.fld F.FST_RGN.BASE r + s.fld F.FST_RGN.SIZE r)
    || (List.range 64).any (fun q => q != r && s.flag F.FST_RGN.EN q && s.regionsMeet r q)))

/-- A region in use (rule 401): a product's DATA region, the REF region of a TNR, and a region in which a granted SYS granule lies. -/
def State.regionUsed (o : State) (r : Nat) : Bool :=
  o.products.any (fun i => o.prdSt i != 0 && (let b := (o.product i).pdb
    (pdbDestKind b == 2 && pdbDestId b % 65536 == r) || (tnrPos b).any (fun k => tnrRegion b k == r)
      || (o.product i).sysG.any (fun g => o.fld F.FST_RGN.BASE r ≤ g / 128 && g / 128 < o.fld F.FST_RGN.BASE r + o.fld F.FST_RGN.SIZE r)))

def rule401 (o s : State) : Option Nat := firstBad 64 (fun r => o.regionUsed r && o.rd .FST_RGN r != s.rd .FST_RGN r)
def rule402 (s : State) : Option Nat := firstBad 64 (fun r => s.flag F.FST_RGN.EN r && s.fld F.FST_RGN.KIND r == 3)
def rule403 (s : State) : Option Nat := badIf (s.fld F.FST_CTRL.SCRUB_H == 0)
def rule544 (s : State) : Option Nat := firstBad 64 (fun r => s.flag F.FST_RGN.EN r
  && decide (s.fld F.FST_RGN.BASE r ≤ 8190 ∧ 8183 < s.fld F.FST_RGN.BASE r + s.fld F.FST_RGN.SIZE r))

/-! DEG and MGD (R456). -/

/-- Display port `n` is in group `g`. -/
def State.portIn (s : State) (g n : Nat) : Bool := s.fld F.DEG_PORT_CTRL.RASTER n == g

def rule608 (g : Nat) (s : State) : Option Nat := firstBad 4 (fun n => s.portIn g n && decide
  (s.fld F.DEG_VTIMING0.VTOTAL n ≤ s.fld F.DEG_VTIMING1.VSA n + s.fld F.DEG_VTIMING1.VBP n + s.fld F.DEG_VTIMING0.VACT n
   ∨ s.fld F.DEG_HTIMING0.HTOTAL n ≤ s.fld F.DEG_HTIMING1.HSA n + s.fld F.DEG_HTIMING1.HBP n + s.fld F.DEG_HTIMING0.HACT n
   ∨ 4 * s.fld F.DEG_VTIMING0.VTOTAL n < s.lines g))

/-- Four times the wire bytes of one pixel (R441). -/
def bpp4 (fmt : Nat) : Nat := match fmt with
  | 0 => 12
  | 1 => 15
  | 2 => 8
  | _ => 0

def rule609 (g : Nat) (s : State) : Option Nat := firstBad 4 (fun n => s.portIn g n &&
  (let per := s.lines g * s.period g
   let vt := s.fld F.DEG_VTIMING0.VTOTAL n
   decide (5 * per < s.fld F.DEG_HTIMING0.HTOTAL n * vt * 12 * 2 ^ 32)
   || decide (95 * gearRate (s.fld F.DEG_PORT_CTRL.GEAR n) * per
        < (s.fld F.DEG_HTIMING0.HACT n * bpp4 (s.fld F.DEG_PORT_CTRL.FORMAT n) + 64) * 2 * vt * 120 * 2 ^ 32)))

def rule610 (g : Nat) (s : State) : Option Nat := firstBad 16 (fun i =>
  let n := i / 4
  let l := i % 4
  s.portIn g n && s.flag F.DEG_LAYER_CFG.EN n l && s.fld F.DEG_LAYER_CFG.SRC n l == 1 && decide
    (s.fld F.DEG_HTIMING0.HACT n < s.fld F.DEG_LAYER_POS.X n l + s.fld F.DEG_LAYER_SIZE.W n l
     ∨ s.fld F.DEG_VTIMING0.VACT n < s.fld F.DEG_LAYER_POS.Y n l + s.fld F.DEG_LAYER_SIZE.H n l))

/-- Width and height of a layer: of a host layer its size, of a product layer its product's; without a product it has none
(DESIGN CHOICE). -/
def State.layerSize (s : State) (n l : Nat) : Nat × Nat :=
  if s.fld F.DEG_LAYER_CFG.SRC n l = 1 then (s.fld F.DEG_LAYER_SIZE.W n l, s.fld F.DEG_LAYER_SIZE.H n l)
  else match s.products.find? (fun i => s.prdSt i != 0 && pdbDestKind (s.product i).pdb == 1 && pdbPort (s.product i).pdb == n
      && pdbLayer (s.product i).pdb == l) with
    | some i => (pdbOutW (s.product i).pdb, pdbOutH (s.product i).pdb)
    | none => (0, 0)

/-- Two rectangles (x, y, w, h) overlap. -/
def boxesMeet (a b : Nat × Nat × Nat × Nat) : Bool :=
  a.1 < b.1 + b.2.2.1 && b.1 < a.1 + a.2.2.1 && a.2.1 < b.2.1 + b.2.2.2 && b.2.1 < a.2.1 + a.2.2.2

/-- Rectangle of a layer. -/
def State.layerRect (s : State) (n l : Nat) : Nat × Nat × Nat × Nat :=
  (s.fld F.DEG_LAYER_POS.X n l, s.fld F.DEG_LAYER_POS.Y n l, (s.layerSize n l).1, (s.layerSize n l).2)

def rule611 (g : Nat) (s : State) : Option Nat := firstBad 16 (fun i =>
  let n := i / 4
  s.portIn g n && s.flag F.DEG_LAYER_CFG.EN n (i % 4) && (List.range (i % 4)).any (fun l =>
    s.flag F.DEG_LAYER_CFG.EN n l && s.flag F.DEG_LAYER_CFG.PROTECT n l && boxesMeet (s.layerRect n l) (s.layerRect n (i % 4))))

def rule612 (g : Nat) (s : State) : Option Nat := firstBad 4 (fun n => s.portIn g n &&
  (let vt := s.fld F.DEG_VTIMING0.VTOTAL n
   let p := s.fld F.DEG_VTIMING1.VSTART n * 256
     + (if vt = 0 then 0 else (s.fld F.DEG_VTIMING1.VSA n + s.fld F.DEG_VTIMING1.VBP n) * s.lines g * 256 / vt)
   decide (p < (s.fld F.MGD_PORT_LINES.LATCH n + 2) * 256 ∨ s.lines g ≤ s.fld F.MGD_PORT_LINES.PROOF_LINE n
     ∨ s.lines g ≤ s.fld F.MGD_PORT_CTRL.RB_LINE n)))

/-- Rectangle of a slot. -/
def State.slotRect (s : State) (k : Nat) : Nat × Nat × Nat × Nat :=
  (s.fld F.MGD_SLOT_POS.X k, s.fld F.MGD_SLOT_POS.Y k, s.fld F.MGD_SLOT_CFG.W1 k + 1, s.fld F.MGD_SLOT_CFG.H1 k + 1)

/-- Slot `k` is enabled on a port of group `g`. -/
def State.slotIn (s : State) (g k : Nat) : Bool := s.flag F.MGD_SLOT_CFG.EN k && s.portIn g (s.fld F.MGD_SLOT_CFG.PORT k)

def rule613 (g : Nat) (s : State) : Option Nat := firstBad 32 (fun k => s.slotIn g k &&
  (let n := s.fld F.MGD_SLOT_CFG.PORT k
   let r := s.slotRect k
   decide (s.fld F.DEG_HTIMING0.HACT n < r.1 + r.2.2.1 ∨ s.fld F.DEG_VTIMING0.VACT n < r.2.1 + r.2.2.2)
   || (s.fld F.DEG_PORT_CTRL.FORMAT n == 1 && (r.1 % 4 != 0 || r.2.2.1 % 4 != 0))
   || (List.range 32).any (fun q => q != k && s.flag F.MGD_SLOT_CFG.EN q && s.fld F.MGD_SLOT_CFG.PORT q == n
        && boxesMeet r (s.slotRect q))))

/-- Image `id` exists in the bank of slot `k`'s port with the slot's size. -/
def State.imageFits (s : State) (k id : Nat) : Bool :=
  match s.bankImage (s.fld F.MGD_PORT_CTRL.BANK (s.fld F.MGD_SLOT_CFG.PORT k)) id with
  | some m => m.w == s.fld F.MGD_SLOT_CFG.W1 k + 1 && m.h == s.fld F.MGD_SLOT_CFG.H1 k + 1
  | none => false

/-- Rule 614: tell-tales first, then slots; image id 0 of a tell-tale names no image (R450 gives ids 1 to 1023, DEDUCED). -/
def rule614 (g : Nat) (s : State) : Option Nat :=
  firstBad 64 (fun t => s.flag F.MGD_TT_CFG.EN t && s.portIn g (s.fld F.MGD_TT_CFG.PORT t) &&
    (let k := s.fld F.MGD_TT_CFG.SLOT t
     !s.flag F.MGD_SLOT_CFG.EN k || s.fld F.MGD_SLOT_CFG.PORT k != s.fld F.MGD_TT_CFG.PORT t
     || [s.fld F.MGD_TT_IMG.IMG_ON t, s.fld F.MGD_TT_IMG.IMG_ALT t].any (fun i => i != 0 && !s.imageFits k i)
     || (s.fld F.MGD_TT_CFG.BLINK t != 0 && (s.fld F.MGD_TT_CFG.ON_FR t == 0 || s.fld F.MGD_TT_CFG.OFF_FR t == 0))))
  <|> firstBad 32 (fun k => s.slotIn g k && !s.imageFits k (s.fld F.MGD_SLOT_CFG.BLANK k))

/-- Rule 615, for ports on which Marigold draws (DEDUCED: every port names bank 0 from reset). -/
def rule615 (g : Nat) (s : State) : Option Nat := firstBad 4 (fun n => s.portIn g n && s.flag F.MGD_PORT_CTRL.EN n
  && !s.flag F.MGD_BANK_STAT.VALID (s.fld F.MGD_PORT_CTRL.BANK n))

def rule616 (g : Nat) (s : State) : Option Nat := firstBad 4 (fun n => s.portIn g n && s.fld F.DEG_PORT_CTRL.FORMAT n == 3)

/-! VBR (R497). -/

/-- Bit length in CANCLK cycles (R501): PRE, TSEG1 and TSEG2 as the registers code them. -/
def canBits (pre t1 t2 : Nat) : Nat := (pre + 1) * (3 + t1 + t2)

def State.canNom (s : State) (c : Nat) : Nat := canBits (s.fld F.VBR_CAN_NBT.BRP c) (s.fld F.VBR_CAN_NBT.TSEG1 c) (s.fld F.VBR_CAN_NBT.TSEG2 c)
def State.canData (s : State) (c : Nat) : Nat := canBits (s.fld F.VBR_CAN_DBT.BRP c) (s.fld F.VBR_CAN_DBT.TSEG1 c) (s.fld F.VBR_CAN_DBT.TSEG2 c)

def rule704 (s : State) : Option Nat := firstBad 4 (fun c => s.flag F.VBR_CAN_CTRL.EN c && decide
  (s.canNom c < 80 ∨ s.fld F.VBR_CAN_NBT.TSEG1 c + 1 < 2 ∨ s.fld F.VBR_CAN_NBT.TSEG2 c < s.fld F.VBR_CAN_NBT.SJW c))

def rule705 (s : State) : Option Nat := firstBad 4 (fun c => s.flag F.VBR_CAN_CTRL.EN c && s.flag F.VBR_CAN_CTRL.FD_EN c && decide
  (s.canData c < 10 ∨ s.canNom c < s.canData c ∨ s.fld F.VBR_CAN_DBT.TSEG2 c < s.fld F.VBR_CAN_DBT.SJW c))

def rule706 (s : State) : Option Nat :=
  let n := s.fld F.VBR_LVT_CTRL.RASTER
  badIf (s.flag F.VBR_LVT_CTRL.EN && decide (s.fld F.VBR_LVT_CTRL.LINES * s.fld F.RAS_PERIOD.INT n < 120000))

/-- VBR_RSLOT belongs to the group of its port (R497). -/
def rule707 (o : State) (g : Nat) (s : State) : Option Nat := firstBad 112 (fun i => o.portGroup (i / 4) == g
  && s.flag F.VBR_RSLOT.EN (i / 4) (i % 4) && !s.flag F.VBR_RSLOT.REG16 (i / 4) (i % 4)
  && decide (255 < s.fld F.VBR_RSLOT.REG_BASE (i / 4) (i % 4)))

/-! EGV (R618). -/

def rule768 (s : State) : Option Nat := badIf (decide
  (s.fld F.EGV_BUDGET.BUDGET_MW ≤ s.fld F.EGV_BUDGET.BASE_MW + s.fld F.EGV_OTHER.LEAK85_MW ∨ 28000 < s.fld F.EGV_BUDGET.BUDGET_MW))

def rule769 (s : State) : Option Nat := badIf (decide
  (s.fld F.EGV_THERM.ALERT ≤ s.fld F.EGV_THERM.SOFT ∨ s.fld F.EGV_THERM.TJ_MAX < s.fld F.EGV_THERM.ALERT))

/-- A list of numbers never falls. -/
def neverFalls : List Nat → Bool
  | a :: b :: l => a ≤ b && neverFalls (b :: l)
  | _ => true

def rule770 (s : State) : Option Nat := badIf (!neverFalls [1, s.fld F.EGV_COST0.TOK1, s.fld F.EGV_COST0.TOK2, s.fld F.EGV_COST0.TOK3,
  s.fld F.EGV_COST0.TOK4, s.fld F.EGV_COST1.TOK5, s.fld F.EGV_COST1.TOK6])

def rule771 (s : State) : Option Nat :=
  badIf (!neverFalls [16, s.fld F.EGV_CLK.IDLE_CODE, 48, s.fld F.EGV_CLK.NOM_CODE, 56])

def rule772 (s : State) : Option Nat := badIf (decide
  (s.fld F.EGV_CTRL.DROP_N < 2 ∨ 8 < s.fld F.EGV_CTRL.DROP_N ∨ s.fld F.EGV_CTRL.UP_LINES < 1
   ∨ s.fld F.EGV_CTRL.DOWN_LINES < s.fld F.EGV_CTRL.UP_LINES ∨ 4 < s.fld F.EGV_CTRL.C1_LEAN))

def rule773 (s : State) : Option Nat := badIf (!s.demandFits s.reservedDefs)

/-! The check (R35, R42 to R44). -/

/-- Rules that every commit of group `g` checks, in rising order. No field can name an instance that does not exist (rule 2): the
width of each naming field admits only existing ones. -/
def groupRules (o s : State) (g : Nat) : List (Nat × Option Nat) :=
  [(16, rule16 g s), (17, rule17 g s), (20, rule20 g s), (21, rule21 g s), (22, rule22 g s), (23, rule23 g s), (24, rule24 g s),
   (25, rule25 g s), (26, rule26 g s), (96, rule96 g s), (97, rule97 g s), (98, rule98 g s), (99, rule99 g s), (100, rule100 g s),
   (101, rule101 g s), (102, rule102 g s)]
  ++ [(608, rule608 g s), (609, rule609 g s), (610, rule610 g s), (611, rule611 g s), (612, rule612 g s), (613, rule613 g s),
   (614, rule614 g s), (615, rule615 g s), (616, rule616 g s), (707, rule707 o g s)]

/-- Rules of the device-wide fields, which the master raster's group checks. -/
def masterRules (o s : State) : List (Nat × Option Nat) :=
  [(18, rule18 s), (19, rule19 s), (224, rule224 s), (225, rule225 s), (226, rule226 s), (227, rule227 s), (228, rule228 s),
   (229, rule229 s), (230, rule230 s), (304, rule304 s), (305, rule305 s), (306, rule306 s), (307, rule307 s), (308, rule308 s)]
  ++ [(400, rule400 s), (401, rule401 o s), (402, rule402 s), (403, rule403 s), (544, rule544 s), (704, rule704 s), (705, rule705 s),
   (706, rule706 s), (768, rule768 s), (769, rule769 s), (770, rule770 s), (771, rule771 s), (772, rule772 s), (773, rule773 s)]

/-- Lowest failing rule and its first failing instance, among named results. -/
def lowestFail (l : List (Nat × Option Nat)) : Option (Nat × Nat) :=
  l.foldl (fun m r => match r.2 with
    | none => m
    | some i => match m with
      | some k => if r.1 < k.1 then some (r.1, i) else m
      | none => some (r.1, i)) none

/-- The consistency check of the staged generation `ws` of group `g`: the lowest failing rule and its instance. A generation with no
write passes (R38). -/
def State.checkGen (o : State) (g : Nat) (ws : List CfgWrite) : Option (Nat × Nat) :=
  if ws = [] then none
  else
    let s := o.applyWrites ws
    lowestFail ([(1, rule1 ws s), (3, rule3 ws s)] ++ groupRules o s g ++ (if g = o.master then masterRules o s else []))

/-! Commit commands. -/

/-- The end of a passing check (R37, R53): with the raster stopped the generation takes effect at once; else it becomes due at the next
frame boundary or at its target. -/
def State.passGen (g : Nat) (q : Staged) (s : State) : State :=
  let en := s.flag F.CFG_TARGET.EN g
  let n := ((s.ras.get g).frame + 1) % 2 ^ 32
  let d := subMod 65536 (s.fld F.CFG_TARGET.FRAME g) n
  let late := en && decide (32768 ≤ d)
  let running := (s.ras.get g).running
  let q := { q with passed := true, tookEn := en, late := late && running, due := if en && !late then (n + d) % 2 ^ 32 else n }
  let s := (s.modCfg (fun c => { c with stg := c.stg.set g (some q) })).setFld F.CFG_STATE.STATE 2 g
  if running then s else (s.switchGen g).showResources

/-- CONSISTENCY_CHECK_END: the check of group `g`'s staged generation ends (R35). -/
def doConsistencyCheckEnd (g : Nat) (s : State) : State :=
  match s.cfg.stg.get g with
  | none => s
  | some q =>
    if q.passed then s
    else match s.checkGen g q.writes with
      | some (rule, i) => s.rejectGen g rule i
      | none => s.passGen g q

/-- The boundary into the present frame of raster `g`, or the one at which it stops (R37, R39, R40, R53): the staged generation becomes
active, or is deferred. -/
def State.commitBoundary (g : Nat) (stop : Bool) (s : State) : State :=
  match s.cfg.stg.get g with
  | none => s
  | some q =>
    let f := (s.ras.get g).frame
    if q.passed ∧ (stop ∨ frameGe f q.due) then
      if s.olderWork g (s.dispOld g) then
        let s := (s.setFlag F.CFG_STATE.DEFERRED true g).pmuAdd 0x006 0
        s.modCfg (fun c => { c with stg := c.stg.set g (some { q with due := (f + 1) % 2 ^ 32 }) })
      else (s.switchGen g).showResources
    else s

def execCommitRequest (group : Fin 8) (s : State) : Host.Outcome State Fault Refusal := .next (s.commitRequest group)
def execDiscard (group : Fin 8) (s : State) : Host.Outcome State Fault Refusal := .next (s.discardOpen group)
def execConsistencyCheckEnd (group : Fin 8) (s : State) : Host.Outcome State Fault Refusal := .next (doConsistencyCheckEnd group s)

end Sys2Proof.Machine
end

