-- ==== Sys2Proof/Machine/Marigold.lean ====
section
/-!
DEFINITION. Machine/Marigold.lean: tell-tales (R436 to R440), their proofs (R441 to R448), the proof log (R449), asset store banks
(R451) and Marigold's commands (R454).
-/
namespace Sys2Proof.Machine

/-! The register file as a display frame sees it (R429). -/

/-- Field of a register in a table of register values. -/
def fldIn (t : Tbl (Option Word)) (f : Fld) (i : Nat := 0) (j : Nat := 0) : Nat :=
  bits (match t.get (f.reg.key i j) with
    | some w => w.toNat
    | none => (f.reg.resetVal i).toNat) f.hi f.lo

/-- Field at the boundary of a display frame. -/
def DispFrame.fld (q : DispFrame) (f : Fld) (i : Nat := 0) (j : Nat := 0) : Nat := fldIn q.snap f i j

/-- Change display frame `f` of port `n`. -/
def State.modDFrame (n f : Nat) (g : DispFrame → DispFrame) (s : State) : State :=
  s.modDisp n (fun d => { d with frames := d.frames.map (fun q => if q.frame = f then g q else q) })

/-- Display frame `f` of port `n`. -/
def State.dframe (s : State) (n f : Nat) : Option DispFrame := (s.disp.get n).frames.find? (fun q => q.frame == f)

/-- Change one slot of a display frame. -/
def State.modSlot (n f k : Nat) (g : SlotRun → SlotRun) (s : State) : State :=
  s.modDFrame n f (fun q => { q with slots := q.slots.map (fun r => if r.slot = k then g r else r) })

/-- Raster of a display port. -/
def State.portRaster (s : State) (n : Nat) : Nat := s.fld F.DEG_PORT_CTRL.RASTER n

/-! Inputs and effective states (R437). -/

/-- A host input is fresh: fewer than HOST_TMO frame boundaries of the port's raster since its last MGD_SET (R437). -/
def State.hostFresh (s : State) (t : Nat) : Bool :=
  match (s.mgd.ins.get t).setAt with
  | none => false
  | some f =>
    let tmo := s.fld F.MGD_CTRL.HOST_TMO
    tmo == 0 || subMod (2 ^ 32) (s.ras.get (s.portRaster (s.fld F.MGD_TT_CFG.PORT t))).frame f < tmo

/-- The input of tell-tale `t` is valid. -/
def State.ttValid (s : State) (t : Nat) : Bool :=
  match s.fld F.MGD_TT_CFG.SRC t with
  | 0 => (s.mgd.ins.get t).valid
  | 1 => s.hostFresh t
  | _ => true

/-- Last input value of tell-tale `t` from its source. -/
def State.ttIn (s : State) (t : Nat) : Nat :=
  if s.fld F.MGD_TT_CFG.SRC t = 1 then (s.mgd.ins.get t).hostVal else (s.mgd.ins.get t).val

/-- Effective state of a tell-tale, and whether it comes from STALE_STATE (R437). -/
def State.ttEff (s : State) (t : Nat) : Nat × Bool :=
  let stale := (s.fld F.MGD_TT_CFG.STALE_STATE t, true)
  match s.fld F.MGD_TT_CFG.SRC t with
  | 2 => if s.fld F.MGD_TT_CFG.FIXED t = 3 then stale else (s.fld F.MGD_TT_CFG.FIXED t, false)
  | _ => if s.ttValid t ∧ s.ttIn t ≠ 3 then (s.ttIn t, false) else stale

/-- HOST_INPUT_TIMEOUT (R437): host inputs on the port whose time is over take STALE_STATE. -/
def doHostInputTimeout (n : Nat) (s : State) : State :=
  s.each ((List.range 64).filter (fun t => s.fld F.MGD_TT_CFG.SRC t == 1 && s.fld F.MGD_TT_CFG.PORT t == n && !s.hostFresh t))
    (fun t s => s.modMgd (fun m => { m with ins := m.ins.upd t (fun i => { i with setAt := none }) }))

/-! The content of a slot (R438, R439, R443). -/

/-- Proof prefix (R442). -/
def proofHead (f x y w h n k disp : Nat) : List Byte :=
  leBytes 4 f ++ leBytes 2 x ++ leBytes 2 y ++ leBytes 2 w ++ leBytes 2 h ++ leBytes 1 n ++ leBytes 1 k ++ leBytes 2 disp

/-- Lowest PRIO, then lowest index. -/
def firstPrio : List (Nat × Nat) → Option Nat
  | [] => none
  | (p, t) :: r => match firstPrio r with
    | none => some t
    | some u => match r.find? (fun x => x.2 == u) with
      | some x => some (if x.1 < p then u else t)
      | none => some t

/-- What slot `k` shows in display frame `q` of port `n` (R439), with the values its proof is formed from (R442, R443, R447). -/
def State.slotRun (s : State) (n : Nat) (q : DispFrame) (tts : List TtLatch) (k : Nat) : SlotRun :=
  let fmt := q.fld F.DEG_PORT_CTRL.FORMAT n
  let mem := tts.filter (fun t => q.fld F.MGD_TT_CFG.SLOT t.tt == k)
  let act := mem.filter (fun t => t.eff == 1 || t.eff == 2)
  let shown := firstPrio (act.map (fun t => (q.fld F.MGD_TT_CFG.PRIO t.tt, t.tt)))
  let eff := ((shown.bind (fun t => mem.find? (fun u => u.tt == t))).map (·.eff)).getD 0
  let lit := match shown with
    | some t =>
      let on := q.fld F.MGD_TT_CFG.ON_FR t
      let per := on + q.fld F.MGD_TT_CFG.OFF_FR t
      !bit (q.fld F.MGD_TT_CFG.BLINK t) (eff - 1) || (per != 0 && q.frame % per < on)
    | none => false
  let blank := q.fld F.MGD_SLOT_CFG.BLANK k
  let named := match shown with
    | some t => if lit then (if eff = 1 then q.fld F.MGD_TT_IMG.IMG_ON t else q.fld F.MGD_TT_IMG.IMG_ALT t) else blank
    | none => blank
  let img := if named = 0 then blank else named
  let x := q.fld F.MGD_SLOT_POS.X k
  let y := q.fld F.MGD_SLOT_POS.Y k
  let w := q.fld F.MGD_SLOT_CFG.W1 k + 1
  let h := q.fld F.MGD_SLOT_CFG.H1 k + 1
  let ref := ((s.bankImage (q.fld F.MGD_PORT_CTRL.BANK n) img).map (fun m => m.refs.getD fmt 0)).getD 0
  let len := (wireAt fmt (x + w) - wireAt fmt x) * h
  let head := crc32cRun 0xFFFFFFFF (proofHead q.frame x y w h n k (q.fld F.DEG_PORT_CTRL.DISP_ID n))
  { slot := k, x := x, y := y, w := w, h := h, img := img, shown := shown, lit := lit, mem := mem.map (·.tt), crc := head
    expect := crcAdvance len head ^^^ ref ^^^ 0xFFFFFFFF, plain := crcAdvance len 0xFFFFFFFF ^^^ ref ^^^ 0xFFFFFFFF }

/-- Marigold latches the tell-tales of port `n` for display frame `f` (R438). -/
def State.latchTts (n f : Nat) (s : State) : State :=
  match s.dframe n f with
  | none => s
  | some q =>
    if q.latched ∨ q.fld F.MGD_PORT_CTRL.EN n = 0 then s
    else
      let tts := ((List.range 64).filter (fun t => q.fld F.MGD_TT_CFG.EN t == 1 && q.fld F.MGD_TT_CFG.PORT t == n)).map (fun t =>
        let e := s.ttEff t
        ({ tt := t, eff := e.1, stale := e.2 } : TtLatch))
      let slots := ((List.range 32).filter (fun k => q.fld F.MGD_SLOT_CFG.EN k == 1 && q.fld F.MGD_SLOT_CFG.PORT k == n)).map
        (s.slotRun n q tts)
      let s := s.modDFrame n f (fun q => { q with latched := true, tts := tts, slots := slots })
      s.each tts (fun t s => (s.setFld F.MGD_TT_STAT.EFF t.eff t.tt).setFlag F.MGD_TT_STAT.SHOWN
        (slots.any (fun r => r.shown == some t.tt)) t.tt)

/-! Drawing and the tap (R440 to R442). -/

/-- Marigold draws its slots into active row `r` (R440). -/
def State.drawSlots (s : State) (n : Nat) (q : DispFrame) (r : Nat) (row : List Pixel) : List Pixel :=
  q.slots.foldl (fun row u =>
    match s.bankImage (q.fld F.MGD_PORT_CTRL.BANK n) u.img with
    | some m =>
      if u.y ≤ r ∧ r < u.y + u.h ∧ m.w = u.w ∧ m.h = u.h then
        let px := imageRow (s.bankPay (q.fld F.MGD_PORT_CTRL.BANK n)) m (r - u.y)
        overlay row u.x (fun i _ => px.getD i {}) u.w
      else row
    | none => row) row

/-! Proof records (R444 to R449). -/

/-- An event of Marigold or egress (R455). -/
def State.mgdEvent (code detail a0 a1 a2 : Nat) (s : State) : State :=
  s.event (s.fld F.MGD_CTRL.HOST_DOMAIN) code detail a0 a1 a2

/-- A record enters the on-chip buffer (R449). -/
def State.pushProof (r : ProofRec) (s : State) : State :=
  let b := s.mgd.buf
  let s :=
    if b.length < 4096 then s.modMgd (fun m => { m with buf := m.buf ++ [r] })
    else if ¬ r.fail then (s.count F.MGD_LOG_CNT.LOST_PASS).mgdEvent 0x42 1 1 0 0
    else match b.find? (fun x => !x.fail) with
      | some x => ((s.count F.MGD_LOG_CNT.LOST_PASS).modMgd (fun m => { m with buf := m.buf.erase x ++ [r] })).mgdEvent 0x42 1 1 0 0
      | none => (s.count F.MGD_LOG_CNT.LOST_FAIL).mgdEvent 0x42 2 1 0 0
  s.setFld F.MGD_LOG_STAT.BUF_USED s.mgd.buf.length

/-- Bytes of a record (R448). -/
def State.proofBytes (s : State) (n : Nat) (q : DispFrame) (u : SlotRun) (t : TtLatch) (kind outcome obs exp : Nat) : List Byte :=
  let p := s.pos (q.fld F.DEG_PORT_CTRL.RASTER n)
  leBytes 4 q.frame
  ++ leBytes 4 (kind <<< 31 + outcome <<< 28 + b2n t.stale <<< 27 + b2n u.lit <<< 26 + (t.eff % 4) <<< 24 + t.tt <<< 18 + n <<< 16
    + u.slot <<< 11 + (u.shown.getD 0) <<< 5 + b2n u.shown.isNone <<< 4)
  ++ leBytes 4 obs ++ leBytes 4 exp ++ leBytes 4 (u.img <<< 22)
  ++ leBytes 4 ((p.line % 65536) <<< 16 + p.frac <<< 8 + p.raster <<< 5 + (subMod (2 ^ 32) p.frame q.frame % 8) <<< 2)
  ++ leBytes 8 p.tod

/-- What a failure does (R446). -/
def State.proofFails (n : Nat) (q : DispFrame) (u : SlotRun) (t code outcome obs : Nat) (s : State) : State :=
  let c := s.fld F.MGD_TT_STAT.CONSEC t
  let a1 := t <<< 8 + n <<< 6 + u.slot
  let s := if c = 0 then (s.mgdEvent code outcome q.frame a1 obs).lupSubmit 0x20 0 0 a1 obs else s
  let s := s.setFld F.MGD_TT_STAT.CONSEC (min 511 (c + 1)) t
  if q.fld F.MGD_PORT_CTRL.FAIL_LIM n ≤ c + 1 ∧ ¬ s.mgd.raised.any (· == t) then
    (s.modMgd (fun m => { m with raised := t :: m.raised })).raise 31 t
  else s

/-- Write one proof record with its consequences (R444, R446, R448). -/
def State.proofRecord (n : Nat) (q : DispFrame) (u : SlotRun) (t : TtLatch) (outcome obs : Nat) (s : State) : State :=
  let fail := 2 ≤ outcome
  let r : ProofRec := { bytes := s.proofBytes n q u t 0 outcome obs u.expect, fail := fail }
  let s := (s.modDFrame n q.frame (fun q => { q with recs := t.tt :: q.recs })).setFld F.MGD_TT_STAT.LAST outcome t.tt
  let s := if fail then ((s.count F.MGD_TT_CNT1.FAIL t.tt).pmuAdd 0x244 n).proofFails n q u t.tt 0x40 outcome obs
    else ((s.count F.MGD_TT_CNT0.PASS t.tt).pmuAdd 0x243 n).setFld F.MGD_TT_STAT.CONSEC 0 t.tt
      |>.modMgd (fun m => { m with raised := m.raised.filter (· != t.tt) })
  s.pushProof r

/-- Outcome of a tell-tale of a slot whose last row has passed (R444). -/
def proofOutcome (u : SlotRun) (t : TtLatch) (obs : Nat) : Nat :=
  if u.missed then 3
  else if obs ≠ u.expect then 2
  else if (t.eff = 1 ∨ t.eff = 2) ∧ u.shown ≠ some t.tt then 1
  else 0

/-- Records of a slot whose last row has passed the tap, sent or not (R444). What OBSERVED holds for rows that were not sent is a FREE
VALUE. -/
def State.proveSlot (n f k : Nat) (s : State) : State :=
  match s.dframe n f with
  | none => s
  | some q => match q.slots.find? (fun u => u.slot == k) with
    | none => s
    | some u =>
      let obs := if u.missed then s.free % 2 ^ 32 else u.crc ^^^ 0xFFFFFFFF
      let s := s.when u.missed State.draw
      let s := s.modSlot n f k (fun u => { u with fin := true })
      s.each (q.tts.filter (fun t => u.mem.any (· == t.tt) && !q.recs.any (· == t.tt))) (fun t s =>
        s.proofRecord n q u t (proofOutcome u t obs) obs)

/-- Active row `r` of display frame `f` passes the tap with its wire bytes, none when it is not sent or is black (R441, R444). -/
def State.tapRow (n f r : Nat) (wire : Option (List Byte)) (s : State) : State :=
  match s.dframe n f with
  | none => s
  | some q =>
    let fmt := q.fld F.DEG_PORT_CTRL.FORMAT n
    s.each (q.slots.filter (fun u => u.y ≤ r && r < u.y + u.h && !u.fin)) (fun u s =>
      let s := s.modSlot n f u.slot (fun v => match wire with
        | some b => { v with crc := crc32cRun v.crc (bytesAt b (wireAt fmt u.x) (wireAt fmt (u.x + u.w) - wireAt fmt u.x)) }
        | none => { v with missed := true })
      if r + 1 = u.y + u.h then s.proveSlot n f u.slot else s)

/-- Slots of a frame whose rows will not all be sent get NOT_SENT at once (R444, R453). -/
def State.notSent (n f : Nat) (s : State) : State :=
  match s.dframe n f with
  | none => s
  | some q => s.each (q.slots.filter (fun u => !u.fin)) (fun u s =>
      (s.modSlot n f u.slot (fun u => { u with missed := true })).proveSlot n f u.slot)

/-- The proof deadline of display frame `f` (R445): MISSING for every tell-tale without a record. -/
def State.proofDeadline (n f : Nat) (s : State) : State :=
  match s.dframe n f with
  | none => s
  | some q =>
    s.each (q.tts.filter (fun t => !q.recs.any (· == t.tt))) (fun t s =>
      let obs := s.free % 2 ^ 32
      let u := (q.slots.find? (fun u => u.mem.any (· == t.tt))).getD {}
      s.draw.proofRecord n q u t 4 obs)

/-! Readback (R447). -/

/-- The display frame whose readback of slot `k` ends now: from RB_LINE of frame F + RB_LAG on, up to RB_LINE of the next frame (R447). -/
def State.rbFrame (s : State) (n k : Nat) : Option (DispFrame × SlotRun) :=
  let p := s.pos (s.portRaster n)
  (s.disp.get n).frames.findSome? (fun q =>
    let d := subMod (2 ^ 32) p.frame q.frame
    let lag := q.fld F.MGD_SLOT_RB.RB_LAG k
    let line := q.fld F.MGD_PORT_CTRL.RB_LINE n
    if q.fld F.MGD_SLOT_RB.RB_EN k = 1 ∧ ((d = lag ∧ line ≤ p.line) ∨ (d = lag + 1 ∧ p.line < line)) then
      (q.slots.find? (fun u => u.slot == k && !u.read)).map (fun u => (q, u))
    else none)

/-- A readback ends with the display's value, or without one (R446, R447). -/
def State.endReadback (n k : Nat) (q : DispFrame) (u : SlotRun) (v : Option Nat) (s : State) : State :=
  let obs := v.getD (s.free % 2 ^ 32)
  let s := (s.when v.isNone State.draw).pmuAdd 0x245 n
  let outcome := match v with
    | none => 5
    | some x => if x = u.plain then 0 else 2
  let s := s.modSlot n q.frame k (fun u => { u with read := true })
  s.each (q.tts.filter (fun t => u.mem.any (· == t.tt))) (fun t s =>
    let r : ProofRec := { bytes := s.proofBytes n q u t 1 outcome obs u.plain, fail := outcome != 0 }
    let s := if outcome = 0 then s else (s.count F.MGD_TT_CNT1.RB_FAIL t.tt).proofFails n q u t.tt 0x41 outcome obs
    s.pushProof r)

/-- The readbacks of port `n` that have not completed by line `line` of the frame after theirs: NO_RESPONSE (R447). -/
def State.lateReadbacks (n f line : Nat) (s : State) : State :=
  s.each (s.disp.get n).frames (fun q s =>
    if q.fld F.MGD_PORT_CTRL.RB_LINE n ≠ line then s
    else s.each (q.slots.filter (fun u => !u.read && q.fld F.MGD_SLOT_RB.RB_EN u.slot == 1
        && subMod (2 ^ 32) f q.frame == q.fld F.MGD_SLOT_RB.RB_LAG u.slot + 1)) (fun u s => s.endReadback n u.slot q u none))

/-- READBACK (R447, R446): the display's value for a slot has been read, or its transfer has failed. -/
def doReadback (n k : Nat) (v : Option Nat) (s : State) : State :=
  if s.fcl.safe then s
  else match s.rbFrame n k with
    | none => s
    | some (q, u) => s.endReadback n k q u v

/-- The tell-tale steps of a line boundary of raster `r` (R84, R438, R445, R447): the deadlines of proofs and readbacks, then the latch. Nothing
acts in the safe state (R453). -/
def State.mgdLine (r : Nat) (s : State) : State :=
  if s.fcl.safe then s
  else
    let line := (s.ras.get r).line
    let f := (s.ras.get r).frame
    s.each ((List.range 4).filter (fun n => s.portRaster n == r)) (fun n s =>
      let old := (f + 2 ^ 32 - 1) % 2 ^ 32
      let s := match s.dframe n old with
        | some q => if q.fld F.MGD_PORT_LINES.PROOF_LINE n = line then s.proofDeadline n old else s
        | none => s
      let s := s.lateReadbacks n f line
      match s.dframe n f with
      | some q => if q.fld F.MGD_PORT_LINES.LATCH n = line then s.latchTts n f else s
      | none => s)

/-! The proof log (R449). -/

/-- The log is disabled, with PROOF_LOSS (R449). -/
def State.logOff (flag : Fld) (detail : Nat) (s : State) : State :=
  (((s.modMgd (fun m => { m with log := none })).setFlag F.MGD_LOG_STAT.EN false).setFlag flag).mgdEvent 0x42 detail 0 0 0

/-- The writes of a batch of records from index `pi` on, and of the producer index behind it (R449). -/
def logWrites (l : ProofLog) (t : List ProofRec) : List (Nat × List Byte) :=
  t.zipIdx.map (fun r => (l.base + 32 * ((l.pi + r.2) % 2 ^ l.k), r.1.bytes)) ++ [(l.piAddr, leBytes 8 ((l.pi + t.length) % 2 ^ 32))]

/-- PROOF_LOG_DELIVERY (R449): a batch of up to 32 records, then the producer index. -/
def doProofLogDelivery (s : State) : State :=
  match s.mgd.log with
  | none => s
  | some l =>
    let room := 2 ^ l.k - subMod (2 ^ 32) l.pi (s.rd .MGD_LOG_CI)
    let m := min (min 32 s.mgd.buf.length) room
    if m = 0 ∨ s.fcl.safe then s
    else
      let w := s.writeEach { kind := .proof } 0 0 (logWrites l (s.mgd.buf.take m))
      if w.2 then
        let s := w.1.modMgd (fun g => { g with buf := g.buf.drop m, log := some { l with pi := (l.pi + m) % 2 ^ 32 } })
        s.setFld F.MGD_LOG_STAT.BUF_USED s.mgd.buf.length
      else w.1.logOff F.MGD_LOG_STAT.WIN_OFF 4

/-- A write of the log has failed (R449). -/
def State.logFault (s : State) : State := if s.mgd.log.isSome then s.logOff F.MGD_LOG_STAT.WF_OFF 3 else s

/-! Commands (R454). -/

/-- MGD_SET (R437, R454). -/
def doMgdSet (d r idx : Nat) (s : State) : State := s.runCmd d r idx 0x30 (fun g b s =>
  if d ≠ s.fld F.MGD_CTRL.HOST_DOMAIN then s.finishCmd g idx b 0x32
  else
    let ts := (List.range 64).filter (fun t => bit (leAt b 8 8) t && s.fld F.MGD_TT_CFG.SRC t == 1)
    let s := s.each ts (fun t s =>
      let f := (s.ras.get (s.portRaster (s.fld F.MGD_TT_CFG.PORT t))).frame
      s.modMgd (fun m => { m with ins := m.ins.upd t (fun i => { i with hostVal := bits (leAt b 16 16) (2 * t + 1) (2 * t), setAt := some f }) }))
    s.finishCmd g idx b 0 ts.length)

/-- A port names bank `b` in its active or staged generation while it draws (R451). -/
def State.bankNamed (s : State) (b : Nat) : Bool :=
  (List.range 4).any (fun n =>
    let v := s.rd .MGD_PORT_CTRL n
    let st := match s.cfg.stg.get (s.groupOf .MGD_PORT_CTRL n 0) with
      | some q => q.writes.foldl (fun v w => if w.reg = ⟨.MGD_PORT_CTRL, n, 0⟩ then v - (v &&& w.mask) + w.val else v) v
      | none => v
    [v, st].any (fun v => bit v 31 && bits v 30 30 == b))

/-- MGD_LOAD (R451, R454). A store that no envelope size allows is refused without a read (DESIGN CHOICE). -/
def doMgdLoad (d r idx : Nat) (s : State) : State := s.runCmd d r idx 0x31 (fun g b s =>
  let n := leAt b 16 4
  let bank := cfld b 20 0 0
  if cfld b 20 31 1 ≠ 0 ∨ ¬ restZero b 24 then s.finishCmd g idx b 0x30
  else if s.bankNamed bank ∨ s.flag F.MGD_BANK_STAT.LOADING bank then s.finishCmd g idx b 0x42
  else if n < 8192 ∨ 8192 + 262144 < n then s.finishCmd g idx b 0x40
  else match s.readHost { kind := .asset, ring := g, idx := bank } 0 (s.ring g).cls (leAt b 8 8) n with
    | none => (s.readRefused { kind := .asset, ring := g, idx := bank } 0 (s.ring g).cls (leAt b 8 8) n).finishCmd g idx b 0x36
    | some s =>
      (s.wr .MGD_BANK_STAT (1 <<< 30) bank).modMgd (fun m => { m with
        banks := m.banks.set bank [], loads := m.loads.set bank (some { ring := g, idx := idx, cmd := b }) }))

/-- The store of a load has been read, or its read has failed. -/
def State.gotAsset (bank : Nat) (data : Option (List Byte)) (s : State) : State :=
  s.modMgd (fun m => { m with loads := m.loads.upd bank (·.map (fun l => { l with got := some data })) })

/-- ASSET_LOAD_DONE (R451, R454): the checks of a store that has been read end, with the outcome of its signature. -/
def doAssetLoadDone (sig : Bool) (s : State) : State :=
  match (List.range 2).findSome? (fun b => (s.mgd.loads.get b).bind (fun l => l.got.map (fun d => (b, l, d)))) with
  | none => s
  | some (b, l, d) =>
    let s := (s.modMgd (fun m => { m with loads := m.loads.set b none })).setFlag F.MGD_BANK_STAT.LOADING false b
    match d with
    | none => s.finishCmd l.ring l.idx l.cmd 0x37
    | some e =>
      if s.envCheck 3 e sig ≠ 0 then s.finishCmd l.ring l.idx l.cmd 0x40
      else if storeForm (envPayload e) ∧ storeRefs (envPayload e) then (s.setBank b e).finishCmd l.ring l.idx l.cmd 0
      else s.finishCmd l.ring l.idx l.cmd 0x41

/-- MGD_LOG (R449, R454). The manual names no status for a misaligned address: RING_PARAM (DESIGN CHOICE). -/
def doMgdLog (d r idx : Nat) (s : State) : State := s.runCmd d r idx 0x32 (fun g b s =>
  if cfld b 24 30 4 ≠ 0 ∨ leAt b 28 4 ≠ 0 then s.finishCmd g idx b 0x30
  else if ¬ bit (leAt b 24 4) 31 then
    ((s.modMgd (fun m => { m with log := none })).setFlag F.MGD_LOG_STAT.EN false).finishCmd g idx b 0
  else if leAt b 8 8 % 32 ≠ 0 ∨ leAt b 16 8 % 8 ≠ 0 then s.finishCmd g idx b 0x34
  else
    (((s.modMgd (fun m => { m with log := some { base := leAt b 8 8, piAddr := leAt b 16 8, k := cfld b 24 3 0 + 4 } })).wr .MGD_LOG_CI
      0).setFlag F.MGD_LOG_STAT.EN).finishCmd g idx b 0)

/-- BANK_RECHECK (R530): the hourly re-check of a VALID bank; `ok` is its outcome. -/
def doBankRecheck (b : Nat) (ok : Bool) (s : State) : State :=
  if s.flag F.MGD_BANK_STAT.VALID b ∧ ¬ ok then s.raise 32 b else s

/-! Meanings. -/

def execHostInputTimeout (port : Fin 4) (s : State) : Host.Outcome State Fault Refusal := .next (doHostInputTimeout port s)
def execReadback (port : Fin 4) (slot : Fin 32) (value : Option (BitVec 32)) (s : State) : Host.Outcome State Fault Refusal :=
  .next (doReadback port slot (value.map (·.toNat)) s)
def execProofLogDelivery (s : State) : Host.Outcome State Fault Refusal := .next (doProofLogDelivery s)
def execMgdSet (dom : Fin 64) (ring : Fin 4096) (idx : BitVec 32) (s : State) : Host.Outcome State Fault Refusal :=
  .next (doMgdSet dom ring idx.toNat s)
def execMgdLoad (dom : Fin 64) (ring : Fin 4096) (idx : BitVec 32) (s : State) : Host.Outcome State Fault Refusal :=
  .next (doMgdLoad dom ring idx.toNat s)
def execAssetLoadDone (signatureOk : Bool) (s : State) : Host.Outcome State Fault Refusal := .next (doAssetLoadDone signatureOk s)
def execMgdLog (dom : Fin 64) (ring : Fin 4096) (idx : BitVec 32) (s : State) : Host.Outcome State Fault Refusal :=
  .next (doMgdLog dom ring idx.toNat s)
def execBankRecheck (bank : Fin 2) (ok : Bool) (s : State) : Host.Outcome State Fault Refusal := .next (doBankRecheck bank ok s)

end Sys2Proof.Machine
end

