-- ==== Sys2Proof/Machine/Csi.lean ====
section
/-!
DEFINITION. Machine/Csi.lean: the check values of a CSI-2 packet: the header's ECC and the payload's CRC-16 (R105, R114, R149). PRESUMED
(log entry 63): the manual leaves both to CSI-2; they are those of MIPI CSI-2.
-/
namespace Sys2Proof.Machine

/-- The bytes of a header as it is sent: data identifier, word count with its low byte first, ECC with the VCX bits above it. -/
def csiHeaderBytes (h : CsiHeader) : List Byte :=
  [BitVec.ofNat 8 (h.vc.toNat % 4 * 64 + h.dt.toNat)] ++ leBytes 2 h.wc.toNat ++ [BitVec.ofNat 8 (h.vc.toNat / 4 * 64 + h.ecc.toNat)]

/-- A header from its bytes. -/
def csiHeaderOf (b : List Byte) : CsiHeader :=
  { vc := BitVec.ofNat 4 (leAt b 3 1 / 64 * 4 + leAt b 0 1 / 64), dt := BitVec.ofNat 6 (leAt b 0 1)
    wc := BitVec.ofNat 16 (leAt b 1 2), ecc := BitVec.ofNat 6 (leAt b 3 1) }

/-- ECC of each header bit: data identifier, word count, VCX. -/
def eccCodes : List Nat :=
  [0x07, 0x0B, 0x0D, 0x0E, 0x13, 0x15, 0x16, 0x19, 0x1A, 0x1C, 0x23, 0x25, 0x26,
   0x29, 0x2A, 0x2C, 0x31, 0x32, 0x34, 0x38, 0x1F, 0x2F, 0x37, 0x3B, 0x3D, 0x3E]

/-- The header bits that the ECC covers, bit 0 first: 24, and the VCX bits where the port uses them. -/
def csiHeaderBits (vcx : Bool) (h : CsiHeader) : Nat :=
  h.dt.toNat + (h.vc.toNat % 4) <<< 6 + h.wc.toNat <<< 8 + (if vcx then (h.vc.toNat / 4) <<< 24 else 0)

/-- ECC of a header's bits. -/
def eccOf (v : Nat) : Nat := (eccCodes.zipIdx.filter (fun c => bit v c.2)).foldl (fun t c => t ^^^ c.1) 0

/-- A header after its ECC: as received, with one bit corrected, or uncorrectable (R114). -/
def checkHeader (vcx : Bool) (h : CsiHeader) : Option (CsiHeader × Bool) :=
  let v := csiHeaderBits vcx h
  let syn := eccOf v ^^^ h.ecc.toNat
  if syn = 0 then some (h, false)
  else if popcount 6 syn = 1 then some ({ h with ecc := BitVec.ofNat 6 (eccOf v) }, true)
  else match (eccCodes.take (if vcx then 26 else 24)).zipIdx.find? (fun c => c.1 == syn) with
    | some c =>
      let w := v ^^^ (1 <<< c.2)
      some ({ h with dt := BitVec.ofNat 6 w, vc := BitVec.ofNat 4 (bits w 25 24 * 4 + bits w 7 6), wc := BitVec.ofNat 16 (w >>> 8) }, true)
    | none => none

/-- CRC-16 of a payload: x^16 + x^12 + x^5 + 1, least significant bit first, from all ones. -/
def csiCrc (b : List Byte) : Nat := b.foldl (fun r x => crcStepsR 0x8408 8 (r ^^^ x.toNat)) 0xFFFF

/-- The header of a packet with the ECC that a sender gives it. -/
def csiHeader (vcx : Bool) (vc : BitVec 4) (dt : BitVec 6) (wc : BitVec 16) : CsiHeader :=
  let h : CsiHeader := { vc := vc, dt := dt, wc := wc, ecc := 0 }
  { h with ecc := BitVec.ofNat 6 (eccOf (csiHeaderBits vcx h)) }

end Sys2Proof.Machine
end

