-- ==== Sys2Proof/Machine/Inject.lean ====
section
/-!
DEFINITION. Machine/Inject.lean: the injectors at their points of action (R549 to R551): every unit of a target passes them in order.
-/
namespace Sys2Proof.Machine

/-- Corrupt the byte at OFS mod the length (R550). -/
def xorAt (ofs mask : Nat) (b : List Byte) : List Byte :=
  if b.isEmpty then b
  else
    let a := ofs % b.length
    b.take a ++ [b.getD a 0 ^^^ BitVec.ofNat 8 mask] ++ b.drop (a + 1)

/-- Corrupt a long packet of header, payload and checksum (R550). -/
def corruptPacket (ofs mask : Nat) (p : LongPacket) : LongPacket :=
  let n := p.payload.length
  let b := xorAt ofs mask (csiHeaderBytes p.hdr ++ p.payload ++ leBytes 2 p.crc.toNat)
  { p with hdr := csiHeaderOf b, payload := bytesAt b 4 n, crc := BitVec.ofNat 16 (leAt b (4 + n) 2)
           cseCrcOk := p.cseCrcOk && mask % 256 == 0 }

/-- Corrupt one unit (R550). -/
def InjUnit.corrupt (ofs mask : Nat) : InjUnit → InjUnit
  | .frame b => .frame (xorAt ofs mask b)
  | .packet p => .packet (corruptPacket ofs mask p)
  | .canRx m => .canRx { m with data := xorAt ofs mask m.data }
  | .canTx f => .canTx { f with data := xorAt ofs mask f.data }
  | .job j => .job (if j.wr then { j with data := xorAt ofs mask j.data } else { j with mask := j.mask ^^^ mask })

/-- A dropped tunnel transfer stays, to fail as TIMEOUT; every other dropped unit vanishes (R550). -/
def InjUnit.drop : InjUnit → List InjUnit
  | .job j => [.job { j with lost := true }]
  | _ => []

/-- The unit has been dropped by an earlier injector. -/
def InjUnit.gone : InjUnit → Bool
  | .job j => j.lost
  | _ => false

/-- A firing ends (R551). -/
def State.injEnd (i : Nat) (s : State) : State :=
  let s := (s.setFlag F.FIJ_CTRL.ARM false i).wr .FIJ_STAT (putBits (s.rd .FIJ_STAT) i i 0 ||| 1 <<< (8 + i))
  s.modFcl (fun f => { f with fij := f.fij.upd i (fun x => { x with firing := false, left := 0 }) })

/-- The first affected unit of a firing writes the INJECT record and event (R551). -/
def State.injNote (i : Nat) (s : State) : State :=
  let c := s.rd .FIJ_CTRL i
  (s.lupSubmit 0x40 0 0 c i).event 0 0x82 i c 0 0

/-- The target of injector `i` (R550). -/
def State.injTarget (s : State) (i link inst : Nat) : Bool :=
  s.fld F.FIJ_CTRL.LINK i == link && (link < 2 || s.fld F.FIJ_CTRL.INST i == inst)

/-- A unit passes injector `i`: what goes on (R550, R551). -/
def State.injOne (link inst i : Nat) (u : InjUnit) (s : State) : List InjUnit × State :=
  let x := s.fcl.fij.get i
  let mine := x.held != [] && x.link == link && (link < 2 || x.inst == inst)
  let held := if mine then x.held else []
  let s := s.when mine (·.modFcl (fun f => { f with fij := f.fij.upd i (fun x => { x with held := [], cut := false }) }))
  if ¬ (x.firing ∧ s.injTarget i link inst) ∨ u.gone then (u :: held, s)
  else if x.gap ≠ 0 then (u :: held, s.modFcl (fun f => { f with fij := f.fij.upd i (fun x => { x with gap := x.gap - 1 }) }))
  else
    let act := s.fld F.FIJ_CTRL.ACTION i
    let s := s.when (!x.hit) (·.injNote i)
    let s := s.modFcl (fun f => { f with fij := f.fij.upd i (fun x =>
      { x with hit := true, left := x.left - 1, gap := s.fld F.FIJ_CTRL.INTERVAL i }) })
    let s := s.when (x.left ≤ 1) (·.injEnd i)
    match act with
    | 0 => (u.drop ++ held, s)
    | 1 => (u.corrupt (s.fld F.FIJ_PAT.OFS i) (s.fld F.FIJ_PAT.MASK i) :: held, s)
    | 2 => ([], s.modFcl (fun f => { f with fij := f.fij.upd i (fun x => { x with held := u :: held, link := link, inst := inst }) }))
    | _ => (u :: held, s)

/-- A unit of a target passes the injectors of a list in order: the units that go on. -/
def State.injectThrough (l : List Nat) (link inst : Nat) (u : InjUnit) (s : State) : List InjUnit × State :=
  l.foldl (fun (t : List InjUnit × State) i =>
    t.1.foldl (fun (r : List InjUnit × State) u => let q := r.2.injOne link inst i u
                                                  (r.1 ++ q.1, q.2)) ([], t.2)) ([u], s)

/-- A unit of a target passes the injectors in index order (R551). -/
def State.inject (link inst : Nat) (u : InjUnit) (s : State) : List InjUnit × State := s.injectThrough (List.range 8) link inst u

/-- Injector `i` begins to fire (R551). On the collector it raises source OFS[5:0] with its DETAIL, or fails the periodic test (R550). -/
def State.injStart (i : Nat) (s : State) : State :=
  let x := s.fcl.fij.get i
  if ¬ s.flag F.FIJ_CTRL.ARM i ∨ ¬ s.flag F.FIJ_STAT.UNLOCKED ∨ x.firing ∨ s.fcl.safe then s
  else
    let s := s.modFcl (fun f => { f with fij := f.fij.upd i (fun x =>
      { x with firing := true, hit := false, gap := 0, left := max 1 (s.fld F.FIJ_CTRL.COUNT i) }) })
    if s.fld F.FIJ_CTRL.LINK i = 6 then
      let ofs := s.fld F.FIJ_PAT.OFS i
      let s := (s.injNote i).injEnd i
      if bit ofs 15 then (s.setBit64 .FCL_STATUS_LO .FCL_STATUS_HI 0).report [.safe 2 0 4] else s.raise (ofs % 64) i
    else s

end Sys2Proof.Machine
end

