-- ==== Sys2Proof/Machine/VbrTables.lean ====
section
/-!
DEFINITION. Machine/VbrTables.lean: the five tables of the vehicle bridge (R471 to R473, R477, R483, R485, R489), the check of a load
(R472), and the writes of invalid values that a changed filter causes (R476).
-/
namespace Sys2Proof.Machine

/-- Entries and entry size of a table (R471). -/
def vbrSize (t : Nat) : Nat × Nat := match t with
  | 0 => (256, 16)
  | 1 => (512, 32)
  | 2 => (64, 16)
  | 3 => (256, 8)
  | 4 => (1792, 8)
  | _ => (0, 0)

/-- Entry `i` of table `t`. -/
def Vbr.entry (v : Vbr) (t i : Nat) : List Byte := padTo (vbrSize t).2 (v.tabs.get (4096 * t + i))

/-- Entry `i` of table `t`. -/
def State.vbrEntry (s : State) (t i : Nat) : List Byte := s.vbr.entry t i

/-- A 32-bit word of an entry. -/
def word (b : List Byte) (k : Nat) : Nat := leAt b (4 * k) 4

/-- Bits `hi:lo` of word `k` of an entry. -/
def wfld (b : List Byte) (k hi lo : Nat) : Nat := bits (word b k) hi lo

/-! Fields. -/

/-- EN of an entry of tables 0 to 3. -/
def entEn (b : List Byte) : Bool := bit (word b 0) 31

def rfCh (b : List Byte) : Nat := wfld b 1 31 30
def rfE2e (b : List Byte) : Bool := bit (word b 2) 13
def rfStaleMs (b : List Byte) : Nat := wfld b 3 31 16

def smKind (b : List Byte) : Nat := wfld b 0 30 29
def smRange (b : List Byte) : Nat := wfld b 0 28 27
def smOnChange (b : List Byte) : Bool := bit (word b 0) 26
def smSigned (b : List Byte) : Bool := bit (word b 0) 25
def smMoto (b : List Byte) : Bool := bit (word b 0) 24
def smLen (b : List Byte) : Nat := wfld b 0 23 18
def smStart (b : List Byte) : Nat := wfld b 0 17 9
def smFilter (b : List Byte) : Nat := wfld b 0 7 0
def smFactor (b : List Byte) : Int := signed 32 (word b 1)
def smOffset (b : List Byte) : Int := signed 32 (word b 2)
def smMin (b : List Byte) : Int := signed 32 (word b 3)
def smMax (b : List Byte) : Int := signed 32 (word b 4)
def smTgt (b : List Byte) : Nat := wfld b 5 31 23
def smTgtStart (b : List Byte) : Nat := wfld b 5 22 14
def smTgtLen (b : List Byte) : Nat := wfld b 5 13 8
def smTgtMoto (b : List Byte) : Bool := bit (word b 5) 7
def smTgtSigned (b : List Byte) : Bool := bit (word b 5) 6

def lvPoll (b : List Byte) : Bool := bit (word b 0) 30
def lvPort (b : List Byte) : Nat := wfld b 0 29 25
def lvRegs (b : List Byte) : Nat := 1 <<< wfld b 0 24 23
def lvDev (b : List Byte) : Nat := wfld b 0 22 16
def lvReg (b : List Byte) : Nat := wfld b 0 15 0
def lvReg16 (b : List Byte) : Bool := bit (word b 1) 0

/-- Motorola position of a bit; its own inverse (R478). -/
def moto (b : Nat) : Nat := 8 * (b / 8) + 7 - b % 8

/-- Payload bits of a field, least significant first (R478). -/
def fieldBits (isMoto : Bool) (start len : Nat) : List Nat :=
  if isMoto then ((List.range len).map (fun i => moto (moto start + i))).reverse else (List.range len).map (fun i => start + i)

/-- A field lies within bits 0 to `n - 1`. -/
def fieldIn (isMoto : Bool) (start len n : Nat) : Bool := (fieldBits isMoto start len).all (fun b => decide (b < n))

/-! Checks of a load (R472). -/

/-- Every field of an entry is in range and no reserved bit is set. -/
def vbrEntryOk (t : Nat) (b : List Byte) : Bool :=
  let en := entEn b
  match t with
  | 0 => wfld b 0 29 29 == 0 && wfld b 1 29 29 == 0 && wfld b 2 12 12 == 0 && wfld b 2 7 0 == 0 && wfld b 3 0 0 == 0
      && (!en || !rfE2e b || 1 ≤ wfld b 2 11 8)
  | 1 => wfld b 0 8 8 == 0 && wfld b 5 5 0 == 0 && leAt b 24 8 == 0
      && (!en || (smRange b != 3 && 1 ≤ smLen b && smLen b ≤ 32 && fieldIn (smMoto b) (smStart b) (smLen b) 512
        && (!smMoto b || moto (smStart b) + smLen b - 1 ≤ 511)
        && (match smKind b with
            | 0 => smTgt b ≤ 63 && decide (0 ≤ smMin b) && decide (smMin b ≤ smMax b) && decide (smMax b ≤ 3)
            | 1 => smTgt b == 0
            | 2 => smTgt b ≤ 63 && 1 ≤ smTgtLen b && smTgtLen b ≤ 32 && fieldIn (smTgtMoto b) (smTgtStart b) (smTgtLen b) 512
                && (!smTgtMoto b || moto (smTgtStart b) + smTgtLen b - 1 ≤ 511)
            | _ => smTgt b ≤ 255)))
  | 2 => wfld b 1 20 16 == 0 && wfld b 2 0 0 == 0 && word b 3 == 0
  | 3 => wfld b 1 15 1 == 0
      && (!en || (wfld b 0 24 23 != 3 && lvPort b ≤ 27 && lvReg b + lvRegs b ≤ (if lvReg16 b then 65536 else 256)
        && (!lvPoll b || 1 ≤ wfld b 1 31 16)))
  | _ => bits (leAt b 5 1) 7 1 == 0 && leAt b 6 2 == 0

/-- Register `r` of device `dev` on port `p` is prefetchable (R489). -/
def Vbr.prefetch (v : Vbr) (p dev r : Nat) : Bool :=
  let rs := ((List.range 64).map (fun i => v.entry 4 (64 * p + i))).filter (fun b =>
    bit (leAt b 4 1) 7 && bits (leAt b 4 1) 6 0 == dev && leAt b 0 2 ≤ r && r ≤ leAt b 2 2)
  !rs.isEmpty && rs.all (fun b => bit (leAt b 5 1) 0)

/-- Every register of an extent is prefetchable. -/
def Vbr.prefetchAll (v : Vbr) (p dev r n : Nat) : Bool := (List.range n).all (fun i => v.prefetch p dev (r + i))

/-- Every enabled poll reads prefetchable registers only (R485). -/
def Vbr.pollsOk (v : Vbr) : Bool :=
  (List.range 256).all (fun i =>
    let b := v.entry 3 i
    !(entEn b && lvPoll b) || v.prefetchAll (lvPort b) (lvDev b) (lvReg b) (lvRegs b))

/-- Replace entry `i` of a table. -/
def Vbr.put (v : Vbr) (t i : Nat) (b : List Byte) : Vbr :=
  { v with tabs := v.tabs.set (4096 * t + i) (if b.all (· == 0) then [] else b) }

/-- A list cut into pieces of `n` bytes. -/
def pieces (n : Nat) : Nat → List Byte → List (List Byte)
  | 0, _ => []
  | k + 1, b => bytesAt b 0 n :: pieces n k (b.drop n)

/-- Status of a load of entries (R472): 0, TBL_PARAM or TBL_PREFETCH. -/
def Vbr.loadStatus (v : Vbr) (t first : Nat) (es : List (List Byte)) : Nat :=
  if !es.all (vbrEntryOk t) then 0x48
  else if (es.zipIdx.foldl (fun v e => v.put t (first + e.2) e.1) v).pollsOk then 0
  else 0x49

/-! Replacing entries (R472). -/

/-- VALID = 0 at the state that a map entry's target holds (R476): nothing is reported. -/
def State.clearTarget (i : Nat) (s : State) : State :=
  let b := s.vbrEntry 1 i
  match smKind b with
  | 0 => s.modMgd (fun m => { m with ins := m.ins.upd (smTgt b) (fun q => { q with valid := false }) })
  | 2 =>
    s.modVbr (fun v => { v with objs := v.objs.upd (smTgt b) (fun o =>
      { o with payload := (fieldBits (smTgtMoto b) (smTgtStart b) (smTgtLen b)).foldl (fun p k =>
          let p := padTo 64 p
          putBytes p (k / 8) [p.getD (k / 8) 0 ||| BitVec.ofNat 8 (1 <<< (k % 8))]) o.payload }) })
  | 3 => s.modVbr (fun v => { v with lvt := v.lvt.upd (smTgt b) (fun e => { e with valid := false }) })
  | _ => s

/-- Enabled map entries that a filter feeds. -/
def State.mapsOf (s : State) (f : Nat) : List Nat :=
  (List.range 512).filter (fun i => entEn (s.vbrEntry 1 i) && smFilter (s.vbrEntry 1 i) == f)

/-- One entry is replaced: an unchanged one keeps its state, a changed one starts anew (R472). -/
def State.replaceEntry (t i : Nat) (b : List Byte) (s : State) : State :=
  if s.vbrEntry t i = b then s
  else
    let s := s.modVbr (·.put t i b)
    match t with
    | 0 => (s.modVbr (fun v => { v with filt := v.filt.set i {} })).each (s.mapsOf i) State.clearTarget
    | 1 =>
      let s := s.modVbr (fun v => { v with maps := v.maps.set i {} })
      s.when (entEn b && !(s.vbr.filt.get (smFilter b)).started) (State.clearTarget i)
    | 2 => s.modVbr (fun v => { v with objs := v.objs.set i {} })
    | 3 => s.modVbr (fun v => { v with lvt := v.lvt.set i {} })
    | _ => s

/-- VBR_CTRL.EN goes to 1 (R475, R476): every filter starts anew, and until its first accepted message its entries have VALID = 0. -/
def State.bridgeStart (s : State) : State :=
  let s := s.modVbr (fun v => { v with filt := {} })
  s.each (List.range 256) (fun f s => s.each (s.mapsOf f) State.clearTarget)

/-- Replace entries from `first` on, all at once. -/
def State.replaceEntries (t first : Nat) (es : List (List Byte)) (s : State) : State :=
  s.each es.zipIdx (fun e s => s.replaceEntry t (first + e.2) e.1)

/-! VBR_LOAD (R472). -/

/-- Fields of the command. -/
def vlTable (b : List Byte) : Nat := cfld b 16 31 29
def vlFirst (b : List Byte) : Nat := cfld b 16 28 16
def vlCount (b : List Byte) : Nat := cfld b 16 12 0

/-- VBR_LOAD: the command's checks, then the read of its entries. -/
def doVbrLoad (d r idx : Nat) (s : State) : State := s.runCmd d r idx 0x40 (fun g b s =>
  let sz := vbrSize (vlTable b)
  if d ≠ 0 then s.finishCmd g idx b 0x32
  else if cfld b 16 15 13 ≠ 0 ∨ ¬ restZero b 20 then s.finishCmd g idx b 0x48
  else if vlCount b = 0 ∨ 1792 < vlCount b ∨ sz.1 < vlFirst b + vlCount b ∨ leAt b 8 8 % 8 ≠ 0 then s.finishCmd g idx b 0x48
  else match s.readHost { kind := .cmdRead, ring := g, idx := idx } d (s.ring g).cls (leAt b 8 8) (vlCount b * sz.2) with
    | some s => s
    | none => (s.readRefused { kind := .cmdRead, ring := g, idx := idx } d (s.ring g).cls (leAt b 8 8) (vlCount b * sz.2)).finishCmd g idx b 0x36)

/-- The entries of a VBR_LOAD have been read, or the read has failed. -/
def State.gotEntries (g idx : Nat) (b : List Byte) (data : Option (List Byte)) (s : State) : State :=
  match data with
  | none => s.finishCmd g idx b 0x37
  | some x =>
    let es := pieces (vbrSize (vlTable b)).2 (vlCount b) x
    let st := s.vbr.loadStatus (vlTable b) (vlFirst b) es
    if st = 0 then (s.replaceEntries (vlTable b) (vlFirst b) es).finishCmd g idx b 0
    else s.finishCmd g idx b st

/-- TABLE_READ (R507): a write of `v` to VBR_TBL_ACC. What is copied for an entry that no table has is a FREE VALUE. -/
def doTableRead (v : Nat) (s : State) : State :=
  let t := bits v 14 12
  let i := bits v 11 0
  let s := (s.setFld F.VBR_TBL_ACC.TABLE t).setFld F.VBR_TBL_ACC.INDEX i
  if ¬ bit v 31 then s
  else if i < (vbrSize t).1 then
    let b := padTo 32 (s.vbrEntry t i)
    s.each (List.range 8) (fun k s => s.wr .VBR_TBL_DATA (leAt b (4 * k) 4) k)
  else s.each (List.range 8) (fun k s => (s.wr .VBR_TBL_DATA (s.free % 2 ^ 32) k).draw)

def execVbrLoad (dom : Fin 64) (ring : Fin 4096) (idx : BitVec 32) (s : State) : Host.Outcome State Fault Refusal :=
  .next (doVbrLoad dom ring idx.toNat s)
def execTableRead (value : BitVec 32) (s : State) : Host.Outcome State Fault Refusal := .next (doTableRead value.toNat s)

end Sys2Proof.Machine
end

