-- ==== Sys2Proof/Machine/Tunnel.lean ====
section
/-!
DEFINITION. Machine/Tunnel.lean: the sensor back-channel of the vehicle bridge: tunnelled I2C transfers (R487), the remote windows
with their open reads, prefetch cache, parked reads and posted writes (R488 to R493), polls (R485) and VBR_XFER (R494).
-/
namespace Sys2Proof.Machine

/-- The link of tunnel port `q` is up: 0 to 27 are AP[q], 28 to 31 are DP[q − 28]. -/
def State.tunUp (s : State) (q : Nat) : Bool :=
  if q < 28 then s.flag F.ING_PORT_CTRL.RUN q && s.flag F.ING_PORT_STAT.LINK_UP q
  else s.flag F.DEG_PORT_CTRL.RUN (q - 28) && s.flag F.DEG_PORT_STAT.LINK_UP (q - 28)

/-- Change the tunnel of a port. -/
def State.modTun (q : Nat) (f : Tunnel → Tunnel) (s : State) : State := s.modVbr (fun v => { v with tun := v.tun.upd q f })

/-- Change an open-read entry. -/
def State.modRead (e : Nat) (f : OpenRead → OpenRead) (s : State) : State :=
  s.modVbr (fun v => { v with reads := v.reads.upd e (·.map f) })

/-- Free an open-read entry. -/
def State.freeRead (e : Nat) (s : State) : State := s.modVbr (fun v => { v with reads := v.reads.set e none })

/-- Next number in the bridge's order of uses. -/
def State.bump (s : State) : State := s.modVbr (fun v => { v with seq := v.seq + 1 })

/-! Prefetch cache (R490). -/

/-- Slots of a port's cache that hold a line. -/
def State.cacheOf (s : State) (p : Nat) : List (Nat × CacheLine) :=
  (List.range 4).filterMap (fun k => (s.vbr.cache.get (4 * p + k)).map (fun c => (4 * p + k, c)))

/-- Byte `r` of device `dev` from a cache line. -/
def CacheLine.byte (c : CacheLine) (dev : Nat) (reg16 : Bool) (r : Nat) : Option Byte :=
  if c.dev = dev ∧ c.reg16 = reg16 ∧ c.first ≤ r ∧ r < c.first + c.data.length then some (c.data.getD (r - c.first) 0) else none

/-- Registers of an extent, when every one lies in a valid line of the port. -/
def State.cached (s : State) (p dev : Nat) (reg16 : Bool) (r n : Nat) : Option (List Byte) :=
  (List.range n).mapM (fun i => (s.cacheOf p).findSome? (fun c => c.2.byte dev reg16 (r + i)))

/-- Lines that an extent was read from become the most recently used. -/
def State.touchCache (p dev : Nat) (reg16 : Bool) (r n : Nat) (s : State) : State :=
  s.each (((s.cacheOf p).filter (fun c => (List.range n).any (fun i => (c.2.byte dev reg16 (r + i)).isSome))).map (·.1)) (fun k s =>
    (s.modVbr (fun v => { v with cache := v.cache.upd k (·.map (fun c => { c with used := v.seq })) })).bump)

/-- Slot for a new line: a free one, else the least recently used. -/
def State.cacheVictim (s : State) (p : Nat) : Nat :=
  match (List.range 4).find? (fun k => (s.vbr.cache.get (4 * p + k)).isNone) with
  | some k => 4 * p + k
  | none => ((s.cacheOf p).foldl (fun (b : Nat × Nat) c => if c.2.used < b.2 then (c.1, c.2.used) else b)
      (4 * p, ((s.vbr.cache.get (4 * p)).getD {}).used)).1

/-- Prefetched data fills a line. -/
def State.fillCache (p dev : Nat) (reg16 : Bool) (first : Nat) (data : List Byte) (s : State) : State :=
  let k := s.cacheVictim p
  (s.modVbr (fun v => { v with cache := v.cache.set k (some { dev := dev, reg16 := reg16, first := first, data := data, used := v.seq }) })).bump

/-- Queueing a write invalidates every line that it overlaps. -/
def State.invalidate (p dev r n : Nat) (s : State) : State :=
  s.each ((s.cacheOf p).filter (fun c => c.2.dev == dev && c.2.first < r + n && r < c.2.first + c.2.data.length)) (fun c s =>
    s.modVbr (fun v => { v with cache := v.cache.set c.1 none }))

/-- CACHE_LINE_EXPIRY (R490). -/
def doCacheLineExpiry (p k : Nat) (s : State) : State := s.modVbr (fun v => { v with cache := v.cache.set (4 * p + k) none })

/-! Parked reads (R491, R492). -/

/-- ARG0 of the bridge's transfer events (R496). -/
def xferArg (port dev len : Nat) : Nat := port <<< 17 + dev <<< 10 + len

/-- Record that a new park takes: a free one, else the oldest. -/
def State.parkSlot (s : State) : Nat × Bool :=
  match (List.range 32).find? (fun j => (s.vbr.park.get j).isNone) with
  | some j => (j, false)
  | none => (((List.range 32).foldl (fun (b : Nat × Nat) j =>
      let q := ((s.vbr.park.get j).getD {}).seq
      if q < b.2 then (j, q) else b) (0, ((s.vbr.park.get 0).getD {}).seq)).1, true)

/-- An uncollected read is parked (R491, R492). -/
def State.parkRead (e : OpenRead) (s : State) : State :=
  let done := e.st == .done
  let cause := match e.st with
    | .failed c => c
    | _ => 0
  let j := s.parkSlot
  let data := if done then bytesAt e.data (e.reg - e.first) e.len else []
  let rec_ : ParkRec :=
    { bytes := leBytes 4 (1 <<< 31 + b2n done <<< 30 + cause <<< 28 + e.dom <<< 22 + e.port <<< 17 + e.dev <<< 10 + e.slot <<< 7 + e.len)
        ++ leBytes 4 (e.reg <<< 16) ++ leBytes 8 e.tod ++ padTo 64 data
      seq := s.vbr.seq }
  let s := (s.when j.2 (·.count F.VBR_CNT1.PARK_LOST)).modVbr (fun v => { v with park := v.park.set j.1 (some rec_) })
  let arg := xferArg e.port e.dev e.len
  (s.bump.event e.dom 0x61 (b2n done <<< 7 + cause <<< 5 + j.1) arg e.reg (leAt data 0 4)).lupSubmit 0x31 0 0 arg j.1

/-- What an uncollected read leaves behind (R491). -/
def State.expired (e : OpenRead) (s : State) : State :=
  match e.st with
  | .pending => s
  | .done => if e.pf then s.count F.VBR_CNT2.PF_DROP else s.parkRead e
  | .failed _ => s.parkRead e

/-- An entry expires (R491). -/
def State.expireRead (k : Nat) (s : State) : State :=
  match s.vbr.reads.get k with
  | none => s
  | some e => (s.freeRead k).expired e

/-- OPEN_READ_EXPIRY (R491). -/
def doOpenReadExpiry (k : Nat) (s : State) : State :=
  match s.vbr.reads.get k with
  | some e => if e.st = .pending then s else s.expireRead k
  | none => s

/-- PARK_RECORD_FREE (R492). -/
def doParkRecordFree (j : Nat) (s : State) : State := s.modVbr (fun v => { v with park := v.park.set j none })

/-- The Geward link goes down (R495): every open-read entry expires at once, a PENDING one when its transfer ends. -/
def State.bridgeLinkDown (s : State) : State :=
  s.each s.vbr.reads.keys (fun k s => match s.vbr.reads.get k with
    | some e => if e.st = .pending then s.modRead k (fun e => { e with orphan := true }) else s.expireRead k
    | none => s)

/-! The end of a transfer (R487). -/

/-- A posted write of the host has failed (R493). -/
def State.writeLate (p : Nat) (j : TunJob) (dom tag cause : Nat) (s : State) : State :=
  let s := s.count F.VBR_CNT2.LATE
  let s := s.when (!s.flag F.VBR_LATE_REC0.VALID) (fun s =>
    (s.wr .VBR_LATE_REC0 (1 <<< 31 + cause <<< 29 + dom <<< 23 + p <<< 18 + j.dev <<< 11 + j.len)).wr .VBR_LATE_REC1 (j.reg <<< 16 + tag))
  s.event dom 0x62 cause (xferArg p j.dev j.len) (tag <<< 16 + j.reg) 0

/-- What a transfer's end does for its user: the data read, or the cause of its failure. -/
def State.xferUser (p : Nat) (j : TunJob) (res : Except Nat (List Byte)) (s : State) : State :=
  match j.use, res with
  | .poll k, .ok d => s.modVbr (fun v => { v with lvt := v.lvt.upd k (fun e =>
      { e with value := d, fresh := true, valid := true, fail := false, tod := s.now.tod }) })
  | .poll k, .error _ => s.modVbr (fun v => { v with lvt := v.lvt.upd k (fun e => { e with fail := true }) })
  | .write _ _, .ok _ => s
  | .write d t, .error c => s.writeLate p j d t c
  | .read k, r =>
    let s := match r with
      | .ok d =>
        let whole := ((s.vbr.reads.get k).map (fun (e : OpenRead) => e.pf && e.n == 64)).getD false
        (s.modRead k (fun e => { e with st := .done, data := d, tod := s.now.tod })).when whole (State.fillCache p j.dev j.reg16 j.reg d)
      | .error c => s.modRead k (fun e => { e with st := .failed c, tod := s.now.tod })
    match s.vbr.reads.get k with
    | some e => if e.orphan then s.expireRead k else s
    | none => s
  | .xfer g i b, .ok d =>
    if j.wr then s.finishCmd g i b 0 j.len
    else match s.writeHost { kind := .cmdWrite, ring := g, idx := i } (ringDom g) (s.ring g).cls (leAt b 8 8) d false with
      | some s => s.finishCmd g i b 0 j.len
      | none => (s.writeRefused { kind := .cmdWrite, ring := g, idx := i } (ringDom g) (s.ring g).cls (leAt b 8 8) d false).finishCmd g i b
          0x36
  | .xfer g i b, .error c => s.finishCmd g i b (0x49 + c)

/-- A transfer has ended on port `p` (R487): a failure raises the sensor bridge fault source and makes a Lupin record. -/
def State.xferEnd (p : Nat) (j : TunJob) (res : Except Nat (List Byte)) (s : State) : State :=
  let s := match res with
    | .ok _ => s.pmuAdd 0x284 p
    | .error c => ((s.pmuAdd 0x285 p).raise 35 p).lupSubmit 0x30 0 0 (xferArg p j.dev j.len) (j.reg <<< 16 + c)
  s.xferUser p j res

/-- Window writes among a port's transfers (R493). -/
def Tunnel.writes (t : Tunnel) : Nat := (t.jobs.filter (fun j => match j.use with
  | .write _ _ => true
  | _ => false)).length

/-- A transfer is queued on a port; without a link it fails at once with LINK (R125, R487). One that an injector dropped fails as
TIMEOUT. -/
def State.admitXfer (p : Nat) (j : TunJob) (s : State) : State :=
  if j.lost then s.xferEnd p j (.error 2)
  else if s.tunUp p then s.modTun p (fun t => { t with jobs := t.jobs ++ [j] }) else s.xferEnd p j (.error 3)

/-- A transfer passes the injectors and is queued (R550). -/
def State.passXfer (p : Nat) (j : TunJob) (s : State) : State :=
  let q := s.inject 5 p (.job j)
  q.2.each q.1 (fun u s => match u with
    | .job j => s.admitXfer p j
    | _ => s)

/-- A transfer is to run on a port; a write invalidates the cache lines that it overlaps (R490). -/
def State.queueXfer (p : Nat) (j : TunJob) (s : State) : State :=
  (s.when j.wr (State.invalidate p j.dev j.reg j.len)).passXfer p j

/-- Withheld writes enter the queue as it gets room, and their credits are returned (R493). -/
def State.admitHeld (p : Nat) (s : State) : State :=
  match (s.vbr.tun.get p).held with
  | [] => s
  | (j, h, d) :: r =>
    if (s.vbr.tun.get p).writes < 16 then
      let s := (s.modTun p (fun t => { t with held := r })).queueXfer p j
      if h = 0 then s else s.giveCredit 0 h d
    else s

/-- The transfer in flight on port `p` ends. -/
def State.tunEnd (p : Nat) (res : TunJob → Except Nat (List Byte)) (s : State) : State :=
  match (s.vbr.tun.get p).jobs with
  | [] => s
  | j :: r => ((s.modTun p (fun t => { t with jobs := r })).admitHeld p).xferEnd p j (res j)

/-- TUNNEL_XFER_DONE (R487): with the data read, or with a cause: 1 NACK, 2 TIMEOUT, 3 LINK. -/
def doTunnelXferDone (p : Nat) (data : Option (List Byte)) (cause : Nat) (s : State) : State :=
  match data with
  | some d => s.tunEnd p (fun j => .ok (if j.wr then [] else xorAt 0 j.mask (padTo j.len d)))
  | none => if cause = 0 then s else s.tunEnd p (fun _ => .error cause)

/-- TUNNEL_XFER_TIMEOUT (R487). -/
def doTunnelXferTimeout (p : Nat) (s : State) : State := s.tunEnd p (fun _ => .error 2)

/-- A port's link is lost (R495): the transfer in flight and every queued one fail with LINK; the cache lines are invalidated. -/
def State.tunDown (p : Nat) (s : State) : State :=
  let t := s.vbr.tun.get p
  let s := s.each (List.range 4) (fun k s => doCacheLineExpiry p k s)
  let s := s.modTun p (fun _ => {})
  let s := s.each t.jobs (fun j s => s.xferEnd p j (.error 3))
  s.each t.held (fun h s => (if h.2.1 = 0 then s else s.giveCredit 0 h.2.1 h.2.2).xferEnd p h.1 (.error 3))

/-! The remote windows (R488 to R493). -/

/-- An address of the register window lies in a remote window. -/
def inRemote (a : Nat) : Bool := 0x3000000 ≤ a && a < 0x3000000 + 28 * 0x10000

/-- Domain `d` reaches the remote window of AP[p] (R409). -/
def State.reachRemote (s : State) (d p : Nat) : Bool := d == 0 || ((s.dom d).en && bit (s.dom d).remote p)

/-- Port, slot and first register of an access to a remote window. -/
def State.remoteAt (s : State) (a : Nat) : Nat × Nat × Nat :=
  let o := a - 0x3000000
  let p := o / 0x10000
  let k := o % 0x10000 / 0x4000
  (p, k, s.fld F.VBR_RSLOT.REG_BASE p k + o % 0x4000)

/-- The access keeps R488: length, one slot, an enabled slot, registers that exist. -/
def State.remoteOk (s : State) (a n : Nat) : Bool :=
  let q := s.remoteAt a
  1 ≤ n && n ≤ 64 && a % 0x4000 + n ≤ 0x4000 && s.flag F.VBR_RSLOT.EN q.1 q.2.1
    && q.2.2 + n ≤ (if s.flag F.VBR_RSLOT.REG16 q.1 q.2.1 then 65536 else 256)

/-- The registers that the transfer of a read covers (R490): the aligned block of 64, when it is prefetchable as a whole and lies in
the slot, else those requested. -/
def State.readSpan (s : State) (p k dev r n : Nat) (pf : Bool) : Nat × Nat :=
  let b := r / 64 * 64
  let base := s.fld F.VBR_RSLOT.REG_BASE p k
  let top := min (base + 0x4000) (if s.flag F.VBR_RSLOT.REG16 p k then 65536 else 256)
  if pf ∧ r + n ≤ b + 64 ∧ base ≤ b ∧ b + 64 ≤ top ∧ s.vbr.prefetchAll p dev b 64 then (b, 64) else (r, n)

/-- A RETRY completion (R490). -/
def State.retry (t : HostTxn) (p : Nat) (s : State) : State := (s.pmuAdd 0x286 p).answer t 1 []

/-- An MRD to a remote window (R490). -/
def State.remoteRead (t : HostTxn) (s : State) : State :=
  let a := t.addr.toNat
  let n := t.len.toNat
  let d := t.dom.toNat
  let q := s.remoteAt a
  let p := q.1
  if ¬ s.reachRemote d p ∨ s.fcl.safe then s.answer t 3 []
  else if ¬ s.remoteOk a n then s.answer t 2 []
  else
    let dev := s.fld F.VBR_RSLOT.DEV p q.2.1
    let r16 := s.flag F.VBR_RSLOT.REG16 p q.2.1
    let pf := s.vbr.prefetchAll p dev q.2.2 n
    match (if pf then s.cached p dev r16 q.2.2 n else none) with
    | some x => (s.touchCache p dev r16 q.2.2 n).answer t 0 x
    | none =>
      match s.vbr.reads.keys.find? (fun k => match s.vbr.reads.get k with
          | some e => e.dom == d && e.addr == a && e.len == n && !e.orphan
          | none => false) with
      | some k => match s.vbr.reads.get k with
        | some e => match e.st with
          | .pending => s.retry t p
          | .done => (s.freeRead k).answer t 0 (bytesAt e.data (e.reg - e.first) n) (some e)
          | .failed _ => (s.freeRead k).answer t 4 [] (some e)
        | none => s
      | none =>
        if ¬ s.tunUp p then s.answer t 4 []
        else match (List.range 64).find? (fun k => (s.vbr.reads.get k).isNone) with
          | none => (s.count F.VBR_CNT2.RD_BUSY).retry t p
          | some k =>
            let sp := s.readSpan p q.2.1 dev q.2.2 n pf
            let e : OpenRead := { dom := d, addr := a, len := n, port := p, slot := q.2.1, dev := dev, reg := q.2.2, pf := pf
                                  first := sp.1, n := sp.2 }
            let s := s.modVbr (fun v => { v with reads := v.reads.set k (some e) })
            (s.queueXfer p { use := .read k, reg16 := r16, dev := dev, reg := sp.1, len := sp.2 }).retry t p

/-- An MWR to a remote window (R488, R493); `ch` and `cd` are its posted credits, which a full queue withholds. -/
def State.remoteWrite (t : HostTxn) (ch cd : Nat) (s : State) : State :=
  let a := t.addr.toNat
  let n := t.len.toNat
  let d := t.dom.toNat
  let q := s.remoteAt a
  let p := q.1
  let back := fun (s : State) => if ch = 0 then s else s.giveCredit 0 ch cd
  if ¬ s.reachRemote d p ∨ ¬ s.remoteOk a n ∨ s.fcl.safe then back (s.count F.GWL_CNT4.DISCARD)
  else
    let j : TunJob := { use := .write d t.tag.toNat, wr := true, reg16 := s.flag F.VBR_RSLOT.REG16 p q.2.1
                        dev := s.fld F.VBR_RSLOT.DEV p q.2.1, reg := q.2.2, len := n, data := padTo n t.data }
    let u := s.vbr.tun.get p
    if s.tunUp p ∧ 16 ≤ u.writes + u.held.length then
      (s.invalidate p j.dev j.reg j.len).modTun p (fun u => { u with held := u.held ++ [(j, ch, cd)] })
    else back (s.queueXfer p j)

/-- LVT_POLL (R485). -/
def doLvtPoll (k : Nat) (s : State) : State :=
  let b := s.vbrEntry 3 k
  if s.flag F.VBR_CTRL.EN ∧ entEn b ∧ lvPoll b ∧ ¬ s.fcl.safe then
    s.queueXfer (lvPort b) { use := .poll k, reg16 := lvReg16 b, dev := lvDev b, reg := lvReg b, len := lvRegs b }
  else s

/-! VBR_XFER (R494). -/

/-- Fields of the command. -/
def vxPort (b : List Byte) : Nat := cfld b 16 31 27
def vxWr (b : List Byte) : Bool := cfld b 16 26 26 == 1
def vxLen (b : List Byte) : Nat := cfld b 20 6 0

/-- The transfer of a VBR_XFER. -/
def vxJob (g idx : Nat) (b data : List Byte) : TunJob :=
  { use := .xfer g idx b, wr := vxWr b, reg16 := cfld b 16 25 25 == 1, dev := cfld b 16 24 18, reg := cfld b 16 15 0
    len := vxLen b, data := data }

/-- VBR_XFER: a write first reads its data. A LEN outside 1 to 64 completes BAD_CMD (DESIGN CHOICE). -/
def doVbrXfer (d r idx : Nat) (s : State) : State :=
  if s.fcl.safe then s
  else s.runCmd d r idx 0x41 (fun g b s =>
    if cfld b 16 17 16 ≠ 0 ∨ cfld b 20 31 7 ≠ 0 ∨ ¬ restZero b 24 ∨ vxLen b = 0 ∨ 64 < vxLen b then s.finishCmd g idx b 0x30
    else if d ≠ 0 ∧ ¬ (vxPort b < 28 ∧ bit (s.dom d).remote (vxPort b)) then s.finishCmd g idx b 0x32
    else if vxWr b then
      match s.readHost { kind := .cmdRead, ring := g, idx := idx } d (s.ring g).cls (leAt b 8 8) (vxLen b) with
      | some s => s
      | none => (s.readRefused { kind := .cmdRead, ring := g, idx := idx } d (s.ring g).cls (leAt b 8 8) (vxLen b)).finishCmd g idx b 0x36
    else s.queueXfer (vxPort b) (vxJob g idx b []))

/-- The data of a VBR_XFER write has been read, or the read has failed. -/
def State.gotXferData (g idx : Nat) (b : List Byte) (data : Option (List Byte)) (s : State) : State :=
  match data with
  | some x => s.queueXfer (vxPort b) (vxJob g idx b x)
  | none => s.finishCmd g idx b 0x37

/-! Meanings. A read or a write that does not address a remote window is no such command. -/

def execRemoteRead (txn : HostTxn) (s : State) : Host.Outcome State Fault Refusal :=
  .next (if inRemote txn.addr.toNat then s.remoteRead txn else s)
def execRemoteWrite (txn : HostTxn) (s : State) : Host.Outcome State Fault Refusal :=
  .next (if inRemote txn.addr.toNat then s.remoteWrite txn 0 0 else s)
def execTunnelXferDone (port : Fin 32) (data : Option (List Byte)) (cause : BitVec 2) (s : State) : Host.Outcome State Fault Refusal :=
  .next (doTunnelXferDone port data cause.toNat s)
def execTunnelXferTimeout (port : Fin 32) (s : State) : Host.Outcome State Fault Refusal := .next (doTunnelXferTimeout port s)
def execOpenReadExpiry (entry : Fin 64) (s : State) : Host.Outcome State Fault Refusal := .next (doOpenReadExpiry entry s)
def execCacheLineExpiry (port : Fin 28) (slot : Fin 4) (s : State) : Host.Outcome State Fault Refusal :=
  .next (doCacheLineExpiry port slot s)
def execParkRecordFree (record : Fin 32) (s : State) : Host.Outcome State Fault Refusal := .next (doParkRecordFree record s)
def execLvtPoll (source : Fin 256) (s : State) : Host.Outcome State Fault Refusal := .next (doLvtPoll source s)
def execVbrXfer (dom : Fin 64) (ring : Fin 4096) (idx : BitVec 32) (s : State) : Host.Outcome State Fault Refusal :=
  .next (doVbrXfer dom ring idx.toNat s)

end Sys2Proof.Machine
end

