-- ==== Sys2Proof/Machine/Display.lean ====
section
/-!
DEFINITION. Machine/Display.lean: the display ports (R426 to R432), the lines that the host writes for them (R433 to R435), and the
ports' part of a frame boundary.
-/
namespace Sys2Proof.Machine

/-! Frames of a port. -/

/-- Products whose destination is layer `l` of port `n` (R277, R431): the ACTIVE one. -/
def State.layerProduct (s : State) (n l : Nat) : Option Nat :=
  s.products.find? (fun i => s.prdSt i == 2 && pdbDestKind (s.product i).pdb == 1 && pdbPort (s.product i).pdb == n
    && pdbLayer (s.product i).pdb == l)

/-- Format code of a definition's PACK. -/
def pdbPackFmt (b : List Byte) : Nat :=
  match (pdbChain b).find? (fun d => opCode d == 0x0E) with
  | some d => dfld d 4 7 0
  | none => 0x10

/-- The source of a product layer for a display frame. -/
def State.layerSrc (s : State) (n l : Nat) : Option LayerSrc :=
  if s.flag F.DEG_LAYER_CFG.EN n l ∧ s.fld F.DEG_LAYER_CFG.SRC n l = 0 then
    (s.layerProduct n l).map (fun i =>
      let b := (s.product i).pdb
      { layer := l, prd := i, w := pdbOutW b, h := pdbOutH b, fmt := pdbPackFmt b, stream := pdbSrc0 b })
  else none

/-- Layers of port `n` that are held hidden until their show boundary (R579): at this boundary those that meet their rule are shown. A
layer without an ACTIVE product has no source stream to wait for. -/
def State.layerShow (n : Nat) (s : State) : State :=
  s.each ((List.range 4).filter (fun l => bit (s.fld F.DEG_PORT_STAT.HIDDEN n) l)) (fun l s =>
    let sts := match s.layerProduct n l with
      | some i => pdbStreams (s.product i).pdb
      | none => []
    let show_ := match s.sec.shows.find? (fun r => r.port == n && r.layer == l) with
      | some r => sts.all (fun st => r.settle ≤ (s.strm.get st).trigCnt && s.locked st)
          || sts.all (fun st => r.maxFr ≤ (s.strm.get st).trigCnt)
      | none => true
    if show_ then s.setFld F.DEG_PORT_STAT.HIDDEN (putBits (s.fld F.DEG_PORT_STAT.HIDDEN n) l l 0) n else s)

/-- The display frame that begins at the boundary into raster frame `f` (R427, R429, R431). -/
def State.beginDisplay (n f : Nat) (s : State) : State :=
  let srcs := (List.range 4).filterMap (s.layerSrc n)
  let noSrc := (List.range 4).filter (fun l =>
    s.flag F.DEG_LAYER_CFG.EN n l && s.fld F.DEG_LAYER_CFG.SRC n l == 0 && !srcs.any (fun q => q.layer == l))
  let s := s.setFld F.DEG_PORT_STAT.NOSRC (noSrc.foldl (fun v l => v + 1 <<< l) 0) n
  let q : DispFrame := { frame := f, gen := s.fld F.CFG_STATE.GEN (s.portRaster n), snap := s.regs, srcs := srcs
                         ok := s.flag F.DEG_PORT_STAT.LINK_UP n }
  s.modDisp n (fun d => { d with frames := (d.frames ++ [q]).drop (d.frames.length + 1 - 9) })

/-- The display ports' part of a boundary into frame `f` of raster `r`. -/
def State.dispBoundary (r f : Nat) (s : State) : State :=
  s.each ((List.range 4).filter (fun n => s.portRaster n == r && s.flag F.DEG_PORT_CTRL.RUN n)) (fun n s =>
    (s.layerShow n).beginDisplay n f)

/-- A display frame has sent its last line; what waited for it may act (R40). -/
def State.dispOver (n f : Nat) (s : State) : State := (s.modDFrame n f (fun q => { q with spent := true })).retryCommits

/-- Display line `k` of a frame begins at this raster position, in 1/256 line from the frame's boundary (R427). -/
def DispFrame.lineAt (q : DispFrame) (n r k : Nat) : Nat :=
  q.fld F.DEG_VTIMING1.VSTART n * 256 + k * q.fld F.RAS_PERIOD.LINES r * 256 / max 1 (q.fld F.DEG_VTIMING0.VTOTAL n)

/-- First active display line. -/
def DispFrame.top (q : DispFrame) (n : Nat) : Nat := q.fld F.DEG_VTIMING1.VSA n + q.fld F.DEG_VTIMING1.VBP n

/-- Rows of a layer in a display frame: its top row and its size. -/
def DispFrame.layerBox (q : DispFrame) (n l : Nat) : Nat × Nat × Nat :=
  match q.srcs.find? (fun u => u.layer == l) with
  | some u => (q.fld F.DEG_LAYER_POS.Y n l, u.w, u.h)
  | none => (q.fld F.DEG_LAYER_POS.Y n l, q.fld F.DEG_LAYER_SIZE.W n l, q.fld F.DEG_LAYER_SIZE.H n l)

/-- The layer takes lines in this frame: enabled, with a product or with the host as its source (R431, R433). -/
def DispFrame.live (q : DispFrame) (n l : Nat) : Bool :=
  q.fld F.DEG_LAYER_CFG.EN n l == 1
    && (q.srcs.any (fun u => u.layer == l) || q.fld F.DEG_LAYER_CFG.SRC n l == 1)

/-- Class of a layer: its product's, or CLASS of a host layer (R431). -/
def State.layerClass (s : State) (q : DispFrame) (n l : Nat) : Nat :=
  match q.srcs.find? (fun u => u.layer == l) with
  | some u => pdbClass (s.product u.prd).pdb
  | none => q.fld F.DEG_LAYER_CFG.CLASS n l

/-! Fetch (R429, R432, R435). -/

/-- Prefix and line seal of a host line (R434). -/
def hostHead (n layer frame line : Nat) : List Byte :=
  leBytes 8 ((frame % 2 ^ 32) <<< 32 + (line % 2 ^ 16) <<< 16 + 0xFF00 + 0xC0 + 4 * n + layer)
def hostSeal (n layer frame line : Nat) (data : List Byte) : Nat := crc32c (hostHead n layer frame line ++ data)

/-- Egress verifies a line it has read (R139, R147): its bytes when the seal passes. -/
def State.egressCheck (n st prd line frame want : Nat) (l : PLine) (s : State) : State × Option (List Byte) :=
  if l.sealVal = want then (s, some l.data)
  else (State.andReport (s.sealFail (unitEgress n) F.SEAL_FAIL_CNT1.EGRESS st prd line frame l.sealVal want), none)

/-- Egress has taken, or passed over, a product line (R172). -/
def State.takeProductLine (d : Nat) (s : State) : State :=
  match s.line d with
  | some l => (s.dropLine d).modPFrame l.owner l.frame (fun q => { q with rel := q.rel + 1 })
  | none => s

/-- The newest of some frame numbers. -/
def newestFrame : List Nat → Option Nat
  | [] => none
  | f :: r => match newestFrame r with
    | some g => some (if frameGt f g then f else g)
    | none => some f

/-- The product frame whose line `y` egress asks for: the newest that has published it (R138, R429). -/
def State.askedFrame (s : State) (i y : Nat) : Option Nat :=
  newestFrame (((s.product i).frames.filter (fun q => !q.dead && y < q.pub && q.rows.get y != strDiscarded)).map (·.frame))

/-- The strip for line `y` of a fast product that was emitted and has not published it is late: its output is discarded (R207). -/
def State.discardLate (i y : Nat) (s : State) : State :=
  match (s.product i).frames.find? (fun q => pdbFast q.pdb && !q.dead && q.pub ≤ y && y < q.next) with
  | some q =>
    let s := match s.findLine .product i q.frame y with
      | some d => s.dropLine d
      | none => s
    (s.modPFrame i q.frame (fun q => { q with rows := q.rows.set y strDiscarded })).publishFrame i q.frame
  | none => s

/-- Line `y` of the product of a layer, of the newest frame that has published it, verified under what egress has asked for (R138); older
frames' lines `y` are released unused. -/
def State.fetchProduct (n : Nat) (u : LayerSrc) (y : Nat) (s : State) : State × Option (List Byte) :=
  match (s.askedFrame u.prd y).bind (fun f => ((s.findLine .product u.prd f y).bind s.line).map (fun l => (f, l))) with
  | none => (s.discardLate u.prd y, none)
  | some (f, l) =>
    let p := s.egressCheck n u.stream u.prd y f (lineSeal u.stream u.prd f y l.data) l
    let c := p.1.dirLines.filter (fun c => c.2.kind == .product && c.2.owner == u.prd && c.2.line == y && c.2.published)
    let s := p.1.each (c.map (·.1)) State.takeProductLine
    ((s.tryEnds u.prd).retryCommits, p.2)

/-- A complete host line's place: layer in `vc`. -/
def PLine.isHost (l : PLine) (n layer : Nat) : Bool := l.kind == .host && l.owner == n && l.vc == layer && l.ready

/-- A host line lies behind row `r` of frame `f` (R435). -/
def PLine.behind (l : PLine) (f r : Nat) : Bool := frameGt f l.frame || (l.frame == f && l.line < r)

/-- Put a waiting host line into the pool once its reservation has room (R174, R433): granules, directory entry, credits. -/
def State.claimHost (n : Nat) (h : HostOpen) (s : State) : State × HostOpen :=
  let g := ceilDiv h.bytes 1024
  if h.dir.isSome ∨ s.fld F.POOL_HOST_RESV.GRANULES n < s.resvUse .host n + g then (s, h)
  else match s.claim g s.pool.rxBank with
    | none => (s, h)
    | some (gr, b) =>
      let p := (s.modPool (fun q => { q with rxBank := b })).putLine
        { kind := .host, owner := n, frame := h.frame, line := h.line, vc := h.layer, port := n, grans := gr }
      match p.2 with
      | none => (s, h)
      | some d =>
        let s := p.1.when (h.credHdr != 0) (·.giveCredit 0 h.credHdr h.credData)
        (s, { h with dir := some d, credHdr := 0, credData := 0 })

/-- A complete host line with its granules is published under the seal that the receive unit has formed (R143, R434). -/
def State.sealHost (n d : Nat) (h : HostOpen) (s : State) : State :=
  (s.modLine d (fun l => { l with
    data := h.data, sealVal := h.sealVal, ready := true, published := true, holders := [n] })).pmuAdd
    0x242 n

/-- Lines of port `n` that wait for room are taken as far as room goes, oldest first. -/
def State.retryHost (n : Nat) (s : State) : State :=
  let w := (s.disp.get n).stalled
  let r := w.foldl (fun (t : State × List HostOpen) h =>
    if t.2 ≠ [] then (t.1, t.2 ++ [h])
    else
      let p := t.1.claimHost n h
      match p.2.dir with
      | some d => (p.1.sealHost n d p.2, [])
      | none => (p.1, [h])) (s, [])
  let s := r.1.modDisp n (fun d => { d with stalled := r.2 })
  match r.2, (s.disp.get n).host with
  | [], some h => let p := s.claimHost n h
                  p.1.modDisp n (fun d => { d with host := some p.2 })
  | _, _ => s

/-- Line `y` of host layer `l` for frame `f` (R435): lines behind it are released, and counted. -/
def State.fetchHost (n l f y : Nat) (s : State) : State × Option (List Byte) :=
  let old := s.dirLines.filter (fun c => c.2.isHost n l && c.2.behind f y)
  let s := s.each (old.map (·.1)) (fun d s => (s.dropLine d).count F.DEG_LAYER_CNT.STALE n l)
  let p := match s.dirLines.find? (fun c => c.2.isHost n l && c.2.frame == f && c.2.line == y) with
    | some (d, e) =>
      let p := s.egressCheck n (4 * n + l) 0xFF y f (hostSeal n l f y e.data) e
      (p.1.dropLine d, p.2)
    | none => (s, none)
  (p.1.retryHost n, p.2)

/-- Fetch row `r` of layer `l` for display frame `q`: the line, or what stands for it (R432). A hidden layer's lines are released
unused (R579). -/
def State.fetchLayer (n : Nat) (q : DispFrame) (r l : Nat) (s : State) : State :=
  let box := q.layerBox n l
  if q.live n l ∧ box.1 ≤ r ∧ r < box.1 + box.2.2 then
    let y := r - box.1
    let p := match q.srcs.find? (fun u => u.layer == l) with
      | some u => s.fetchProduct n u y
      | none => s.fetchHost n l q.frame y
    if bit (q.fld F.DEG_PORT_STAT.HIDDEN n) l then p.1
    else
      let s := if p.2.isNone then (p.1.count F.DEG_LAYER_CNT.REPEAT n l).pmuAdd 0x241 n else p.1
      let prev := if y = 0 then none else (q.last.find? (fun x => x.layer == l)).bind (·.data)
      let e : LayerLine := { layer := l, row := r, data := p.2 <|> prev }
      s.modDFrame n q.frame (fun q => { q with fifo := q.fifo ++ [e], last := e :: q.last.filter (fun x => x.layer != l) })
  else s

/-- Fetch the layer lines of the next row of a display frame, class-0 layers first (R19, R429). -/
def State.fetchRow (n : Nat) (q : DispFrame) (s : State) : State :=
  let r := q.fetch
  let ls := (List.range 4).filter (fun l => s.layerClass q n l == 0) ++ (List.range 4).filter (fun l => s.layerClass q n l != 0)
  (s.each ls (fun l s => match s.dframe n q.frame with
    | some q => s.fetchLayer n q r l
    | none => s)).modDFrame n q.frame (fun q => { q with fetch := r + 1 })

/-- The running raster of port `n` has reached a position of a display frame, in 1/256 line from the frame's boundary (R61, R427). -/
def State.dispReached (s : State) (n : Nat) (q : DispFrame) (p : Int) : Bool :=
  (s.ras.get (s.portRaster n)).running && s.reached (s.portRaster n) q.frame p

/-- LAYER_FETCH (R429): the layer lines of the next active row, one line before the row begins; the pool corrected `k` words of them
(R176), which are no lines of a stream. -/
def doLayerFetch (n k : Nat) (s : State) : State :=
  if s.fcl.safe ∨ ¬ s.flag F.DEG_PORT_CTRL.RUN n then s
  else match (s.disp.get n).frames.find? (fun q => !q.spent && q.fetch < q.fld F.DEG_VTIMING0.VACT n) with
    | some q => s.when (s.dispReached n q ((q.lineAt n (s.portRaster n) (q.top n + q.fetch) : Nat) - 256)) (fun s => (s.poolRead k 64).fetchRow n q)
    | none => s

/-! Composition and sending (R427, R428, R430). -/

/-- Compose active row `r` of display frame `q` from the line FIFO; a black opaque line hides what lies beneath it (R430, R432). -/
def DispFrame.compose (q : DispFrame) (n r : Nat) : List Pixel :=
  (List.range 4).foldl (fun row l =>
    match q.fifo.find? (fun e => e.layer == l && e.row == r) with
    | none => row
    | some e =>
      let w := (q.layerBox n l).2.1
      let fmt := match q.srcs.find? (fun u => u.layer == l) with
        | some u => u.fmt
        | none => if q.fld F.DEG_LAYER_CFG.HFMT n l = 0 then 0x12 else 0x13
      let x := q.fld F.DEG_LAYER_POS.X n l
      match e.data with
      | some d =>
        let px := layerPixels fmt w d
        overlay row x
          (fun i o => blend (q.fld F.DEG_LAYER_CFG.PIXEL_ALPHA n l == 1) (q.fld F.DEG_LAYER_CFG.ALPHA n l) (px.getD i {}) o) w
      | none => overlay row x (fun _ _ => {}) w)
    (List.replicate (q.fld F.DEG_HTIMING0.HACT n) {})

/-- Black output has begun: 2 µs after the latch of the safe state (R541). -/
def State.blackOut (s : State) : Bool := s.fcl.safe && s.fcl.safeAt + 2400 ≤ s.time.now

/-- Send active row `r` of display frame `q`: composed, drawn, encoded and tapped; black in the safe state; not sent at all without a
link that was up at the frame's boundary, or while the transmitter's clock fails (R25, R428, R440, R453). -/
def State.sendRow (n r : Nat) (q : DispFrame) (s : State) : State :=
  let fmt := q.fld F.DEG_PORT_CTRL.FORMAT n
  let black := List.replicate (q.fld F.DEG_HTIMING0.HACT n) ({} : Pixel)
  if ¬ q.ok ∨ ¬ s.clockUp (33 + n) then (if s.fcl.safe then s else s.tapRow n q.frame r none)
  else if s.fcl.safe then
    (if s.blackOut then s.setFlag F.DEG_PORT_STAT.SAFE_BLACK true n else s).emit
      (.row n q.frame r (encodeRow fmt (if s.blackOut then black else q.compose n r)) (s.flag F.DEG_PORT_CTRL.E2E_EN n))
  else
    let row := encodeRow fmt (s.drawSlots n q r (q.compose n r))
    let early := q.fifo.any (fun e => e.row == r && e.data.isSome
      && q.srcs.any (fun u => u.layer == e.layer && (s.product u.prd).boot))
    ((s.emit (.row n q.frame r row (s.flag F.DEG_PORT_CTRL.E2E_EN n))).when early State.earlyView).tapRow n q.frame r (some row)

/-- A frame in progress on a port will not be sent whole: its slots get NOT_SENT (R444, R453). -/
def State.cutDisplay (n : Nat) (s : State) : State :=
  s.each (((s.disp.get n).frames.filter (fun q => !q.spent)).map (·.frame)) (fun f s => s.notSent n f)

/-- The frames of port `n` that are not spent will not be sent whole. -/
def State.endDisplay (n : Nat) (s : State) : State :=
  (s.cutDisplay n).modDisp n (fun d => { d with frames := d.frames.map (fun q => { q with spent := true, fifo := [] }) })

/-- The raster has reached the next display line of port `n` (R61, R427). -/
def State.displayDue (s : State) (n : Nat) : Bool :=
  s.flag F.DEG_PORT_CTRL.RUN n && match (s.disp.get n).frames.find? (fun q => !q.spent) with
    | some q => s.dispReached n q (q.lineAt n (s.portRaster n) q.line : Nat)
    | none => false

/-- DISPLAY_LINE (R427, R428): the next display line of the port begins where the raster has reached it. The first one in the safe state
records the slots of a frame in progress whose rows had not all been sent as not sent (R453). -/
def doDisplayLine (n : Nat) (s : State) : State :=
  if ¬ s.displayDue n then s
  else
    let s := s.when s.fcl.safe (State.cutDisplay n)
    match (s.disp.get n).frames.find? (fun q => !q.spent) with
    | none => s
    | some q0 =>
      let r := q0.line - q0.top n
      let act := q0.top n ≤ q0.line && r < q0.fld F.DEG_VTIMING0.VACT n
      let s := if act ∧ q0.fetch = r ∧ ¬ s.fcl.safe then s.fetchRow n q0 else s
      match s.dframe n q0.frame with
      | none => s
      | some q =>
        let s := s.pmuAdd 0x240 n
        let s := if act then s.sendRow n r q else s
        let s := s.modDFrame n q.frame (fun q => { q with line := q.line + 1, fifo := q.fifo.filter (fun e => r < e.row) })
        if q.line + 1 < q.fld F.DEG_VTIMING0.VTOTAL n then s else s.dispOver n q.frame

/-! The port's link (R428, R453). -/

/-- DISPLAY_LINK_UP: the link of a running port has come up. -/
def doDisplayLinkUp (n : Nat) (s : State) : State :=
  if s.flag F.DEG_PORT_CTRL.RUN n then (s.setFlag F.DEG_PORT_STAT.LINK_UP true n).modDisp n (fun d => { d with seen := true }) else s

/-- The link of port `n` goes down: rows stop until it returns at a frame boundary. `lost`: it is a loss (R428), not RUN = 0. -/
def State.dispDown (n : Nat) (lost : Bool) (s : State) : State :=
  let up := s.flag F.DEG_PORT_STAT.LINK_UP n
  let s := (s.setFlag F.DEG_PORT_STAT.LINK_UP false n).modDisp n (fun d => { d with
    frames := d.frames.map (fun q => if q.spent then q else { q with ok := false }) })
  let s := s.tunDown (28 + n)
  if lost ∧ up then
    ((s.setFlag F.DEG_PORT_STAT.LINK_LOST true n).raise 30 n).mgdEvent 0x43 n (s.ras.get (s.portRaster n)).frame 0 0
  else s

/-- DISPLAY_LINK_DOWN: the A-PHY link of a running port goes down. -/
def doDisplayLinkDown (n : Nat) (s : State) : State :=
  if s.flag F.DEG_PORT_CTRL.RUN n then s.dispDown n (s.disp.get n).seen else s

/-- RUN of port `n` changes (R428, R453). Setting RUN starts the link; clearing it holds the link down, and a frame in progress is not
sent whole. -/
def State.displayRun (n : Nat) (run : Bool) (s : State) : State :=
  let was := s.flag F.DEG_PORT_CTRL.RUN n
  let s := s.setFlag F.DEG_PORT_CTRL.RUN run n
  if run then (if was then s else s.modDisp n (fun d => { d with seen := false }))
  else if was then
    let s := (s.dispDown n false).modDisp n (fun d => { d with seen := false })
    let s := s.endDisplay n
    ((s.setFld F.DEG_PORT_STAT.NOSRC 0 n).each s.products (fun i s => s.tryEnds i)).retryCommits
  else s

/-! Host lines (R433, R434). -/

/-- A transaction of the host is discarded (R363). -/
def State.discardTxn (s : State) : State := s.count F.GWL_CNT4.DISCARD

/-- The line that the host is writing on port `n` is discarded (R433). -/
def State.hostErr (n : Nat) (s : State) : State :=
  let s := s.setFlag F.DEG_PORT_STAT.HOST_ERR true n
  match (s.disp.get n).host with
  | some h =>
    let s := s.when (h.credHdr != 0) (·.giveCredit 0 h.credHdr h.credData)
    let s := match h.dir with
      | some d => s.dropLine d
      | none => s
    (s.setCtx unitGwRx n {}).modDisp n (fun d => { d with host := none })
  | none => s

/-- A line header of the host (R433), which in the safe state is discarded (R372): the line opens, with its seal context in slot `n` of the receive unit (R145); `ch` and `cd` are the posted credits to return once the granules are claimed (R174). -/
def State.hostHeader (n ch cd : Nat) (b : List Byte) (s : State) : State :=
  let back := fun (s : State) => s.when (ch != 0) (·.giveCredit 0 ch cd)
  if b.length ≠ 16 ∨ s.fcl.safe then back s.discardTxn
  else
    let s := if (s.disp.get n).host.isSome then s.hostErr n else s
    let l := leAt b 6 1
    let h : HostOpen := { frame := leAt b 0 4, line := leAt b 4 2, layer := l, bytes := leAt b 8 4, credHdr := ch, credData := cd }
    if l ≤ 3 ∧ s.fld F.DEG_LAYER_CFG.SRC n l = 1 ∧ h.line < s.fld F.DEG_LAYER_SIZE.H n l
        ∧ h.bytes = 4 * s.fld F.DEG_LAYER_SIZE.W n l then
      let p := if (s.disp.get n).stalled = [] then s.claimHost n h else (s, h)
      (p.1.setCtx unitGwRx n (SealCtx.line (hostHead n l h.frame h.line))).modDisp n (fun d => { d with host := some p.2 })
    else back (s.hostErr n)

/-- Line data of the host at byte `o` of the line (R433). -/
def State.hostData (n o ch cd : Nat) (b : List Byte) (s : State) : State :=
  let back := fun (s : State) => s.when (ch != 0) (·.giveCredit 0 ch cd)
  if s.fcl.safe ∨ b.length < 4 ∨ 4096 < b.length ∨ b.length % 4 ≠ 0 ∨ o % 4 ≠ 0 ∨ 4096 < o % 4096 + b.length then back s.discardTxn
  else match (s.disp.get n).host with
    | none => back (s.hostErr n)
    | some h =>
      if o ≠ h.data.length ∨ h.bytes < o + b.length then back (s.hostErr n)
      else
        let wait := h.dir.isNone
        let s := if wait then s else back s
        let h := { h with data := h.data ++ b
                          credHdr := h.credHdr + (if wait then ch else 0), credData := h.credData + (if wait then cd else 0) }
        let c := (s.ctxOf unitGwRx n).take b
        if h.data.length < h.bytes then (s.setCtx unitGwRx n c).modDisp n (fun d => { d with host := some h })
        else
          let h := { h with sealVal := c.seal }
          let s := (s.setCtx unitGwRx n {}).modDisp n (fun d => { d with host := none })
          match h.dir with
          | some d => s.sealHost n d h
          | none => s.modDisp n (fun d => { d with stalled := d.stalled ++ [h] })

/-! Meanings. -/

def execDisplayPortRun (port : Fin 4) (run : Bool) (s : State) : Host.Outcome State Fault Refusal := .next (s.displayRun port run)
def execDisplayLinkDown (port : Fin 4) (s : State) : Host.Outcome State Fault Refusal := .next (doDisplayLinkDown port s)
def execLayerFetch (port : Fin 4) (corrected : BitVec 8) (s : State) : Host.Outcome State Fault Refusal :=
  .next (doLayerFetch port corrected.toNat s)
def execDisplayLine (port : Fin 4) (s : State) : Host.Outcome State Fault Refusal := .next (doDisplayLine port s)
def execHostLineHeader (port : Fin 4) (data : List Byte) (s : State) : Host.Outcome State Fault Refusal :=
  .next (s.hostHeader port 0 0 data)
def execHostLineData (port : Fin 4) (offset : BitVec 18) (data : List Byte) (s : State) : Host.Outcome State Fault Refusal :=
  .next (s.hostData port offset.toNat 0 0 data)

end Sys2Proof.Machine
end

