-- ==== Sys2Proof/Machine/Energy.lean ====
section
/-!
DEFINITION. Machine/Energy.lean: token grants, the degrade ladder, bloom clocks, temperatures and aging (R599 to R617).
-/
namespace Sys2Proof.Machine

/-! The grant (R599 to R602). -/

/-- A temperature in 1/16 °C (R608). -/
def State.temp16 (s : State) (i : Nat) : Int := signed 16 (s.fld F.EGV_TEMP.TEMP i)

/-- The hottest die sensor, in 1/16 °C. -/
def State.dieMax16 (s : State) : Int := (List.range 10).foldl (fun m i => max m (s.temp16 (i + 1))) (s.temp16 0)

/-- Estimate of the power outside the array, in mW (R599). -/
def State.otherMw (s : State) : Nat :=
  s.fld F.EGV_BUDGET.BASE_MW + leakMw (s.fld F.EGV_OTHER.LEAK85_MW) (s.dieMax16 - 85 * 16)

/-- Degrees above the derating points, in whole °C rounded down (R599). -/
def State.derate (s : State) : Nat :=
  let a := s.dieMax16 / 16 - (s.fld F.EGV_THERM.SOFT : Nat)
  let b := s.temp16 11 / 16 - ((s.fld F.FST_CTRL.CASE_LIM : Nat) - 10 : Int)
  (max 0 (max a b)).toNat

/-- Budget in force (R599, R616). -/
def State.budget (s : State) : Nat := s.egv.cmd.getD (s.fld F.EGV_BUDGET.BUDGET_MW)

/-- b_eff in mW (R599). -/
def State.effMw (s : State) : Int := (s.budget : Int) - (10 * s.fld F.EGV_THERM.SLOPE * s.derate : Nat)

/-- EFF_MW takes the effective budget (R599, R621). -/
def State.showEff (s : State) : State := s.setFld F.EGV_STAT.EFF_MW (min F.EGV_STAT.EFF_MW.max s.effMw.toNat)

/-- Grant of a line of `len` × 2^-32 CORE cycles, in tokens (R599). -/
def State.grantOf (s : State) (len : Nat) : Nat :=
  ((s.effMw - (s.fld F.EGV_OTHER.OTHER_MW : Nat)) * (len : Int) / (1200 * 2 ^ 32 : Nat)).toNat

/-- Reserved and general share of bloom `b` of a grant `g` (R602). -/
def State.shareOf (s : State) (g b : Nat) : Nat × Nat :=
  let r := s.fld F.EGV_BLOOM.R_B b
  let sum := s.fld F.EGV_DEMAND.TOKENS
  if sum ≤ g then (r, (g - sum) / 8 + b2n (decide (b < (g - sum) % 8))) else (if sum = 0 then 0 else r * g / sum, 0)

/-- Balances of a bloom after its shares, and the tokens lost to the general cap (R602). Balances are in 1/256 token. -/
def applyShare (r : Nat) (sh : Nat × Nat) (resv gen : Int) : Int × Int × Nat :=
  let v := resv + 256 * sh.1
  let fill := min (256 * (sh.2 : Int)) (max 0 (-v))
  let v := v + fill
  let g := gen + 256 * sh.2 - fill
  let spent := max 0 (v - 512 * r)
  let g := g + spent
  let cap : Int := 1024 * sh.2
  (v - spent, min g cap, ((max 0 (g - cap)) / 256).toNat)

/-- The tile that the petals of bloom `b` wait to pay (R202): the best tile of a free petal. -/
def State.waitingTiles (s : State) (b : Nat) : List Tile :=
  if s.canStart b then
    ((List.range 32).filter (fun k => ((s.blm.get b).run.get k).isNone)).filterMap (fun k =>
      (s.bestIn b k).bind (fun t => if s.mustWait b t then some t else none))
  else []

/-- A bloom is idle (R203). -/
def State.idleBloom (s : State) (b : Nat) : Bool :=
  let x := s.blm.get b
  s.homed b == [] && x.queued == [] && x.fast == [] && x.backlog == [] && x.running == []

/-- Blooms take the clock that their state asks for (R540, R605, R607). -/
def State.setClocks (s : State) : State :=
  s.each (List.range 8) (fun b s => s.startClock b (
    if s.fcl.safe then 16
    else if s.fld F.EGV_STAT.LEVEL = 4 ∧ s.idleBloom b then s.fld F.EGV_CLK.IDLE_CODE
    else s.nomCode b))

/-- Waiting EGV_BUDGET commands act, in order (R616). -/
def State.actBudgets (s : State) : State :=
  let l := s.egv.wait
  (s.modEgv (fun e => { e with wait := [] })).each l (fun c s =>
    let s := s.modEgv (fun e => { e with cmd := if cfld c.bytes 8 31 31 = 1 then none else some (cfld c.bytes 8 15 0) })
    s.finishCmd c.ring c.idx c.bytes 0 s.budget)

/-- Judge the line after its grant (R605, R606). `waits`: the tiles that waited for tokens before the grant; `full`: every general pool
held a line's share before it. -/
def State.judgeLine (waits : List Tile) (full : Bool) (s : State) : State :=
  let lv := s.fld F.EGV_STAT.LEVEL
  let debt := (List.range 8).filter (fun b => decide ((s.blm.get b).resv < 0))
  let old := waits.filter (fun t => s.egv.waits.any (· == t.seq))
  let short := debt != [] || old.any (fun t => t.cls == 2 || (t.cls == 3 && lv < 2))
  let slack := debt == [] && waits == [] && full
  let s := s.each debt (fun b s => s.pmuAdd 0x145 b)
  let s := s.when (lv != 0) (·.pmuAdd 0x148 0)
  let s := s.when (s.derate != 0) (·.pmuAdd 0x14B 0)
  let last := lv == 4 || !s.flag F.EGV_CTRL.LADDER_EN
  s.modEgv (fun e => { e with
    up := if short then e.up + 1 else 0
    down := if slack then e.down + 1 else 0
    waits := waits.map (·.seq)
    debt := (List.range 8).foldl (fun t b => t.upd b (fun n => if last && debt.any (· == b) then n + 1 else 0)) e.debt })

/-- The token-grant step of a line of `len` × 2^-32 CORE cycles (R599 to R605). -/
def State.grant (len : Nat) (s : State) : State :=
  let s := s.actBudgets.showEff
  let waits := (List.range 8).flatMap s.waitingTiles
  let g := s.grantOf len
  let full := (List.range 8).all (fun b => decide (256 * ((s.shareOf g b).2 : Int) ≤ (s.blm.get b).gen))
  let s := s.setFld F.EGV_GRANT.TOKENS (min g (2 ^ 24 - 1))
  let s := s.each (List.range 8) (fun b s =>
    let sh := s.shareOf g b
    let x := s.blm.get b
    let a := applyShare (s.fld F.EGV_BLOOM.R_B b) sh x.resv x.gen
    let s := s.modBlm b (fun x => { x with resv := a.1, gen := a.2.1 })
    ((s.pmuAdd 0x140 b sh.1).pmuAdd 0x141 b sh.2).pmuAdd 0x144 b a.2.2)
  let s := s.when (!s.flag F.EGV_CTRL.LADDER_EN) (·.setFld F.EGV_STAT.LEVEL 0)
  (s.judgeLine waits full).setClocks

/-- GRANT_TIMER (R62): the grant while the master raster is stopped. -/
def doGrantTimer (s : State) : State :=
  if (s.ras.get s.master).running then s else s.grant (16384 * 2 ^ 32)

/-! The ladder (R605, R606). -/

/-- Sum of the reserved demands. -/
def State.demand (s : State) : Nat := s.fld F.EGV_DEMAND.TOKENS

/-- The level moves one step (R605): an event, a Lupin record, both counts anew. -/
def State.stepLevel (n : Nat) (up : Bool) (s : State) : State :=
  let s := (s.setFld F.EGV_STAT.LEVEL n).modEgv (fun e => { e with up := 0, down := 0 })
  let s := (s.pmuAdd (if up then 0x146 else 0x147) 0).setClocks
  (s.event 0 0xA0 n (s.ras.get s.master).frame (s.fld F.EGV_GRANT.TOKENS) s.demand).lupSubmit 0x50 0 0 n 0

/-- LADDER_STEP (R605). -/
def doLadderStep (s : State) : State :=
  let lv := s.fld F.EGV_STAT.LEVEL
  if ¬ s.flag F.EGV_CTRL.LADDER_EN then s
  else if s.fld F.EGV_CTRL.UP_LINES ≤ s.egv.up ∧ s.egv.up ≠ 0 ∧ lv < 4 then s.stepLevel (lv + 1) true
  else if s.fld F.EGV_CTRL.DOWN_LINES ≤ s.egv.down ∧ s.egv.down ≠ 0 ∧ lv ≠ 0 then s.stepLevel (lv - 1) false
  else s

/-- ENERGY_DEBT_LIMIT (R606). -/
def doEnergyDebtLimit (b : Nat) (s : State) : State :=
  if 16 ≤ s.egv.debt.get b then (s.modEgv (fun e => { e with debt := e.debt.set b 0 })).raise 12 b else s

/-- CLOCK_CHANGE_DONE (R607). -/
def doClockChangeDone (b : Nat) (s : State) : State :=
  match s.egv.clk.get b with
  | some c => ((s.setFld F.EGV_BLOOM.CLK_CODE c b).modEgv (fun e => { e with clk := e.clk.set b none })).preemptAll b 64
  | none => s

/-! Temperature (R608, R609). -/

/-- One sensor takes a reading. -/
def State.takeTemp (i v : Nat) (s : State) : State :=
  let m := max (signed 16 (s.fld F.EGV_TEMP.MAX i)) (signed 16 v)
  (s.setFld F.EGV_TEMP.TEMP v i).setFld F.EGV_TEMP.MAX (unsigned 16 m) i

/-- A die sensor has reached ALERT (R609). -/
def State.thermAlert (i : Nat) (s : State) : State :=
  ((s.alert 2).raise 8 i).event 0 0xA1 i (unsigned 32 (s.temp16 i)) (s.fld F.EGV_THERM.ALERT) 0

/-- TEMP_SAMPLE (R599, R608, R609): the die sensors bring readings; sensor 11 is the value of the frame store. -/
def doTempSample (temps : List (BitVec 16)) (s : State) : State :=
  let lim : Int := 16 * (s.fld F.EGV_THERM.ALERT : Nat)
  let was := (List.range 11).filter (fun i => decide (lim ≤ s.temp16 i))
  let s := s.each (List.range 11) (fun i s => match temps[i]? with
    | some v => s.takeTemp i v.toNat
    | none => s)
  let s := s.takeTemp 11 (unsigned 16 (16 * signed 8 (s.fld F.FST_STAT.TEMP)))
  let s := (s.setFld F.EGV_OTHER.OTHER_MW (min 65535 s.otherMw)).showEff
  let now := (List.range 11).filter (fun i => decide (lim ≤ s.temp16 i))
  let cool := (List.range 11).all (fun i => decide (s.temp16 i ≤ lim - 32))
  let s := s.modEgv (fun e => { e with hot := now != [] || (e.hot && !cool) })
  s.each (now.filter (fun i => !was.any (· == i))) (fun i s => s.thermAlert i)

/-! Aging and adaptive voltage (R610). -/

/-- AGING_MEASURE: every pair brings its slowdown. -/
def doAgingMeasure (pairs : List (BitVec 16)) (s : State) : State :=
  let thr := s.fld F.EGV_AVS.AGE_THR
  s.each (List.range 16) (fun m s => match pairs[m]? with
    | none => s
    | some v =>
      let d := v.toNat % 4096
      let was := thr ≤ s.fld F.EGV_AGE.D m
      let s := s.setFld F.EGV_AGE.D d m
      if thr ≤ d then
        let s := s.setFlag F.EGV_AGE.OVER true m
        if was then s else s.raise 10 m
      else s)

/-- The worst pair: its slowdown and index. -/
def State.worstAge (s : State) : Nat × Nat :=
  (List.range 16).foldl (fun (w : Nat × Nat) m => let d := s.fld F.EGV_AGE.D m
                                                  if w.1 < d then (d, m) else w) (0, 0)

/-- Voltage target in mV (R610). -/
def State.coreTarget (s : State) : Nat :=
  s.fld F.EGV_AVS.VINIT_MV + ceilDiv (Config.ageSens.toNat * 100 * s.worstAge.1) (4096 * 5) * 5

/-- AVS_STEP (R610): one step of 5 mV towards the target, recorded in OTP (DESIGN CHOICE: at every step). -/
def doAvsStep (s : State) : State :=
  let v := s.fld F.EGV_AVS.VCORE_MV
  let t := s.coreTarget
  let lim := decide (850 < t ∧ 850 ≤ v)
  let was := s.egv.avsLimit
  let s := s.modEgv (fun e => { e with avsLimit := lim })
  let s := s.when (lim && !was) (·.raise 11 0)
  let n := min 850 (v + 5)
  if v < t ∧ v < 850 then
    let s := (s.setFld F.EGV_AVS.VCORE_MV n).modSec (fun c => { c with vcore := some n })
    s.event 0 0xA2 0 n s.worstAge.1 s.worstAge.2
  else s

/-- Set points of VDD_CORE at a start (R610, R642): the fused start voltage, and the value last recorded in OTP. -/
def State.startCore (s : State) : State :=
  let vi := 700 + Config.vinitExcess.toNat % 81
  (s.setFld F.EGV_AVS.VINIT_MV vi).setFld F.EGV_AVS.VCORE_MV (s.sec.vcore.getD vi)

/-- EGV_BUDGET (R616): accepted in domain 0; it acts at the next grant. -/
def doEgvBudget (d r idx : Nat) (s : State) : State :=
  s.runCmd d r idx 0x50 (fun g b s =>
    if d ≠ 0 then s.finishCmd g idx b 0x32
    else if cfld b 8 30 16 ≠ 0 ∨ ¬ restZero b 12 then s.finishCmd g idx b 0x30
    else if cfld b 8 31 31 = 0 ∧ (cfld b 8 15 0 = 0 ∨ 28000 < cfld b 8 15 0) then s.finishCmd g idx b 0x50
    else s.modEgv (fun e => { e with wait := e.wait ++ [{ ring := g, idx := idx, bytes := b }] }))

def execGrantTimer (s : State) : Host.Outcome State Fault Refusal := .next (doGrantTimer s)
def execLadderStep (s : State) : Host.Outcome State Fault Refusal := .next (doLadderStep s)
def execEnergyDebtLimit (bloom : Fin 8) (s : State) : Host.Outcome State Fault Refusal := .next (doEnergyDebtLimit bloom s)
def execClockChangeDone (bloom : Fin 8) (s : State) : Host.Outcome State Fault Refusal := .next (doClockChangeDone bloom s)
def execTempSample (temps : List (BitVec 16)) (s : State) : Host.Outcome State Fault Refusal := .next (doTempSample temps s)
def execAgingMeasure (pairs : List (BitVec 16)) (s : State) : Host.Outcome State Fault Refusal := .next (doAgingMeasure pairs s)
def execAvsStep (s : State) : Host.Outcome State Fault Refusal := .next (doAvsStep s)
def execEgvBudget (dom : Fin 64) (ring : Fin 4096) (idx : BitVec 32) (s : State) : Host.Outcome State Fault Refusal :=
  .next (doEgvBudget dom ring idx.toNat s)

end Sys2Proof.Machine
end

