-- ==== Sys2Proof/Machine/HostRings.lean ====
section
/-!
DEFINITION. Machine/HostRings.lean: the host queue engine (R382 to R417): doorbells, descriptor fetch, ring and domain commands,
output buffers, contexts and their cache, write faults.
-/
namespace Sys2Proof.Machine

/-! Descriptor fetch (R396, R405). -/

/-- Descriptors of ring `g` whose reads are under way. -/
def State.readsOut (s : State) (g : Nat) : Nat :=
  s.gwl.jobs.foldl (fun n j => if j.org.kind = .desc ∧ j.org.ring = g then n + j.buf.length / 32 else n) 0

/-- Index of the next descriptor to start or to take. -/
def State.nextStart (s : State) (g : Nat) : Nat :=
  subMod (2 ^ 32) (s.ring g).fi ((s.ring g).fetched.length + s.readsOut g)

/-- The CMP ring of ring `g` takes entries (R405). -/
def State.cmpOpen (s : State) (g : Nat) : Bool :=
  let c := s.ring (s.cmpOf g)
  c.st == .running && 2 ≤ c.free

/-- Ring `g` runs: its descriptors are taken up (R388, R392, R414, R416). -/
def State.ringOn (s : State) (g : Nat) : Bool :=
  let r := s.ring g
  s.flag F.HQE_CTRL.EN && (s.dom (ringDom g)).en && !s.fcl.safe && r.st == .running && r.typ != .cmp

/-- Ring `g` runs and its context is cached (R416). -/
def State.ringLive (s : State) (g : Nat) : Bool := s.ringOn g && s.hqe.cache.any (· == g)

/-- Ring `g` fetches descriptors (R396, R405). -/
def State.fetches (s : State) (g : Nat) : Bool := s.ringLive g && ((s.ring g).typ != .sub || s.cmpOpen g)

/-- Read descriptors ahead (R396): each MRD lies within one 4 KiB block and within the ring. -/
def State.fetchRun : Nat → Nat → State → State × List Note
  | 0, _, s => (s, [])
  | k + 1, g, s =>
    let r := s.ring g
    let slot := r.fi % 2 ^ r.k
    let addr := r.base + 32 * slot
    let n := min (min (s.fld F.HQE_CTRL.PREFETCH - (r.fetched.length + s.readsOut g)) (subMod (2 ^ 32) r.pi r.fi))
      (min (2 ^ r.k - slot) ((4096 - addr % 4096) / 32))
    if n = 0 ∨ ¬ s.fetches g then (s, [])
    else match s.readHost { kind := .desc, ring := g, idx := r.fi } (ringDom g) r.cls addr (32 * n) with
      | some s => State.fetchRun k g ((s.modRing g (fun r => { r with fi := (r.fi + n) % 2 ^ 32 })).touchCtx g)
      | none => (s.readRefused { kind := .desc, ring := g, idx := r.fi } (ringDom g) r.cls addr (32 * n),
          [.ringErr g 2 r.fi (s.refusedAt (ringDom g) addr (32 * n) false) false])

/-- A context is not cached: its fill begins (R416). -/
def State.askFill (g : Nat) (s : State) : State :=
  ((s.count F.HQE_CNT0.CTX_MISS).pmuAdd 0x204 (ringDom g)).modHqe (fun h => { h with fills := h.fills ++ [g] })

/-- Fetch what ring `g` may fetch; its context is filled first when it is not cached. -/
def State.fetchMore (g : Nat) (s : State) : State :=
  if s.ringOn g ∧ ¬ s.hqe.cache.any (· == g) then
    (if (s.ring g).fi = (s.ring g).pi ∨ s.hqe.fills.any (· == g) then s else s.askFill g)
  else State.andReport (State.fetchRun 16 g s)

/-- Put a fetched descriptor in its place by index. -/
def insertDesc (d : Desc) : List Desc → List Desc
  | [] => [d]
  | e :: l => if subMod (2 ^ 32) d.idx e.idx < 2 ^ 31 then e :: insertDesc d l else d :: e :: l

/-- A descriptor read ends (R396, R410). -/
def State.gotDesc (j : ReadJob) (ok : Bool) (s : State) : State :=
  let g := j.org.ring
  if ok then
    let n := j.buf.length / 32
    let s := s.pmuAdd 0x202 (ringDom g) n
    s.modRing g (fun r => { r with fetched := (List.range n).foldl (fun l k =>
      insertDesc { idx := (j.org.idx + k) % 2 ^ 32, bytes := bytesAt j.buf (32 * k) 32 } l) r.fetched })
  else s.report [.ringErr g 3 j.org.idx j.addr false]

/-- What a descriptor's header says against its start on ring `(d, r)`: the status of R395, none when it starts (R390, R391). -/
def startStatus (d r : Nat) (b : List Byte) : Option Nat :=
  if bits (leAt b 0 4) 22 0 ≠ 0 then some 0x30
  else match descCmd b with
    | 0x01 | 0x10 | 0x20 | 0x21 | 0x22 | 0x30 => none
    | 0x02 | 0x03 | 0x04 | 0x05 | 0x06 => if r = 0 then none else some 0x31
    | 0x08 | 0x09 => if d ≠ 0 then some 0x32 else if r = 0 then none else some 0x31
    | 0x31 | 0x32 | 0x40 | 0x41 | 0x50 => if d = 0 then none else some 0x32
    | _ => some 0x30

/-- DESCRIPTOR_FETCH (R390, R395, R396): the next fetched descriptor of a SUB ring starts, with FENCE only after all earlier ones have
completed; one that is not accepted completes at once. A BUF ring's descriptors wait for their product. -/
def doDescriptorFetch (d r : Nat) (s : State) : State :=
  let g := ringG d r
  let x := s.ring g
  if x.typ ≠ .sub ∨ ¬ s.ringLive g then s.fetchMore g
  else match x.fetched with
    | [] => s.fetchMore g
    | e :: rest =>
      if e.idx ≠ s.nextStart g ∨ (descFence e.bytes ∧ x.started ≠ []) then s.fetchMore g
      else
        let s := s.modRing g (fun x => { x with fetched := rest, started := x.started ++ [{ idx := e.idx, bytes := e.bytes }] })
        let s := match startStatus d r e.bytes with
          | some st => (s.takeCmd g e.idx).finishCmd g e.idx e.bytes st
          | none => s
        s.fetchMore g

/-! Contexts (R415, R416). -/

/-- State code of a ring (R415). -/
def RingSt.code : RingSt → Nat
  | .disabled => 0
  | .running => 1
  | .stopped => 2
  | .error => 3

/-- Type code of a ring (R392). -/
def RingType.code : RingType → Nat
  | .sub => 0
  | .buf => 1
  | .cmp => 2

/-- The 64-byte context of ring `g` (R415). -/
def State.ctxBytes (s : State) (g : Nat) : List Byte :=
  let r := s.ring g
  let cnt := match r.typ with
    | .cmp => (s.boundTo g).length
    | _ => r.bound
  leBytes 8 r.base
  ++ leBytes 4 (r.typ.code <<< 30 + r.st.code <<< 28 + r.cls <<< 26 + b2n (s.pinned.any (· == g)) <<< 25 + b2n r.armed <<< 24 + (r.k - 4) <<< 20
    + r.err <<< 16 + r.cmp)
  ++ leBytes 4 r.pi ++ leBytes 4 r.ci ++ leBytes 4 r.fi
  ++ leBytes 4 (r.vector <<< 16 + r.modCnt <<< 8 + r.modLines)
  ++ leBytes 4 (r.modRaster <<< 29 + (if r.typ = .buf then r.product <<< 20 else 0) + cnt <<< 8)
  ++ leBytes 4 r.errIdx ++ leBytes 4 0 ++ leBytes 8 r.errAddr ++ leBytes 8 r.used ++ leBytes 8 0

/-- The context of ring `g` is written to its place in the frame store (R416). -/
def State.storeCtx (g : Nat) (s : State) : State :=
  let k := 0x3FEE00000 / 1024 + g / 16
  s.putRow k (putBytes (s.fstRow k) (64 * (g % 16)) (s.ctxBytes g))

/-- The least recently used context that is not pinned. -/
def State.victimCtx (s : State) : Option Nat :=
  let pins := s.pinned
  s.hqe.cache.find? (fun g => !pins.any (· == g))

/-- A context is used: it becomes the most recently used one. -/
def State.useCtx (g : Nat) (s : State) : State :=
  s.modHqe (fun h => { h with cache := h.cache.filter (· != g) ++ [g] })

/-- A context enters the cache; when that is full the least recently used unpinned context is evicted (R416). -/
def State.cacheCtx (g : Nat) (s : State) : State :=
  if s.hqe.cache.any (· == g) ∨ s.hqe.cache.length < 4096 then s.useCtx g
  else match s.victimCtx with
    | some v => ((s.storeCtx v).modHqe (fun h => { h with cache := h.cache.filter (· != v) })).useCtx g
    | none => s

/-- No cache entry for `n` new rings (R416): before the frame store is READY every context lives in the cache. -/
def State.noCtx (s : State) (n : Nat) (pin : Nat) : Bool :=
  (!s.flag F.FST_STAT.READY && 4096 < s.hqe.cache.length + n) || (0 < pin && 2048 < s.pinned.length + pin)

/-- CONTEXT_FILL (R416): a fill completes, and what waited for it is fetched. -/
def doContextFill (g : Nat) (s : State) : State :=
  if s.hqe.fills.any (· == g) then ((s.modHqe (fun h => { h with fills := h.fills.filter (· != g) })).cacheCtx g).fetchMore g else s

/-- While the frame store is READY it backs the contexts (R416). -/
def State.backContexts (s : State) : State := s.when (s.flag F.HQE_CTRL.EN) (·.setFlag F.HQE_STAT.CTX_HBM)

/-- READY sets: the cached contexts are written to the frame store (R416). -/
def State.storeContexts (s : State) : State := s.each s.hqe.cache State.storeCtx

/-! Doorbells (R387 to R389). -/

/-- A doorbell enters the queue, or changes the entry of its ring that waits there (R389). -/
def doDoorbell (source page value : Nat) (s : State) : State :=
  let op := bits value 31 30
  let e : DbEntry := {
    dom := page, ring := bits value 11 0, index := bits value 63 32, op := op, arm := bit value 29
    bad := source != page || 2 ≤ op || bits value 28 12 != 0 }
  let s := s.pmuAdd 0x200 page
  let same := fun (q : DbEntry) => !q.bad && q.dom == e.dom && q.ring == e.ring && q.op == e.op
  let q := if !e.bad && s.hqe.dbq.any same then
      s.hqe.dbq.map (fun q => if same q then { q with index := e.index, arm := q.arm || e.arm } else q)
    else s.hqe.dbq ++ [e]
  let s := s.modHqe (fun h => { h with dbq := q })
  s.when (s.dbFull) (·.setFlag F.HQE_STAT.DBQ_FULL)

/-- A doorbell is discarded (R388). -/
def State.dbDiscard (d : Nat) (s : State) : State := (s.count F.HQE_CNT0.DB_DISCARD).pmuAdd 0x201 d

/-- The doorbell must be discarded (R388, R409). -/
def State.dbBad (s : State) (e : DbEntry) : Bool :=
  let r := s.ring (ringG e.dom e.ring)
  e.bad || !s.flag F.HQE_CTRL.EN || !(s.dom e.dom).en || r.st == .disabled || ((e.op == 1) != (r.typ == .cmp))

/-- ARM of a consumer doorbell (R407). -/
def State.arm (g : Nat) (s : State) : State :=
  (s.modRing g (fun r => { r with armed := true, modCount := if r.pi = r.fi then none else some 0 })).signalIfCount g

/-- A doorbell acts on its ring (R388). -/
def State.ringDoorbell (e : DbEntry) (s : State) : State :=
  let g := ringG e.dom e.ring
  let r := s.ring g
  let s := (s.useCtx g).when (!e.missed) (·.pmuAdd 0x203 e.dom)
  if e.op = 0 then
    let step := subMod (2 ^ 32) e.index r.pi
    if step = 0 then s
    else if step ≤ 2 ^ r.k - subMod (2 ^ 32) r.pi r.ci then (s.modRing g (fun r => { r with pi := e.index })).fetchMore g
    else s.report [.ringErr g 1 e.index 0 false]
  else
    let step := subMod (2 ^ 32) e.index r.ci
    let ok := step = 0 ∨ (e.index % 2 = 0 ∧ step ≤ subMod (2 ^ 32) r.pi r.ci)
    if ok then
      let s := s.modRing g (fun r => { r with ci := e.index })
      let s := State.andReport (s.drainCmp g 65536)
      let s := s.when e.arm (·.arm g)
      s.each (s.boundTo g) State.fetchMore
    else s.report [.ringErr g 1 e.index 0 false]

/-- DOORBELL_PROCESS (R388, R389): the first queued doorbell whose ring's context is cached acts; a context that is not cached is
filled first (R416). -/
def doDoorbellProcess (s : State) : State :=
  let ready := fun (e : DbEntry) => s.dbBad e || s.hqe.cache.any (· == ringG e.dom e.ring)
  let miss := (s.hqe.dbq.filter (fun e => !ready e && !s.hqe.fills.any (· == ringG e.dom e.ring))).map (fun e => ringG e.dom e.ring)
  let s := s.each miss.eraseDups State.askFill
  let s := s.modHqe (fun h => { h with dbq := h.dbq.map (fun q => if ready q then q else { q with missed := true }) })
  match s.hqe.dbq.find? ready with
  | none => s
  | some e =>
    let s := (s.modHqe (fun h => { h with dbq := h.dbq.erase e })).freeCredits
    if s.dbBad e then s.dbDiscard e.dom else s.ringDoorbell e

/-! Ring commands (R391, R392). -/

/-- Fields of a ring command. -/
def rcAddr (b : List Byte) : Nat := leAt b 8 8
def rcType (b : List Byte) : Nat := cfld b 16 31 30
def rcSize (b : List Byte) : Nat := cfld b 16 26 23
def rcDom (b : List Byte) : Nat := cfld b 16 17 12
def rcRing (b : List Byte) : Nat := cfld b 16 11 0
def rcIndex (b : List Byte) : Nat := leAt b 20 4

/-- Reserved bits of a ring command are set: those of every ring command, and ADDR where it is to be 0 (R392). -/
def rcReserved (b : List Byte) (addr : Bool) : Bool :=
  cfld b 16 22 18 != 0 || leAt b 28 4 != 0 || (!addr && rcAddr b != 0)

/-- The command names a ring that it may not reach: NOT_PRIV outside domain 0, NOT_ADMIN where domain 0 is to use the other
domain's own admin ring (R391, R392). -/
def rcReach (g : Nat) (b : List Byte) (cross : Bool) : Option Nat :=
  if rcDom b = ringDom g then none
  else if ringDom g ≠ 0 then some 0x32
  else if cross then none else some 0x31

/-- Run a ring command: the first status that holds, or its effect with OK. -/
def State.ringCmd (g idx : Nat) (b : List Byte) (st : Option Nat) (f : State → State) (s : State) : State :=
  match st with
  | some c => s.finishCmd g idx b c
  | none => (f s).finishCmd g idx b 0

/-- The whole ring lies in one window of the domain (R382). -/
def State.ringInWindow (s : State) (d base bytes : Nat) (cmp : Bool) : Bool := s.inWindow d base bytes cmp

/-- Why a ring is not created (R382, R392, R395, R416). -/
def State.createStatus (s : State) (g : Nat) (b : List Byte) : Option Nat :=
  let d := rcDom b
  let t := ringG d (rcRing b)
  let typ := rcType b
  let bytes := (if typ = 2 then 16 else 32) * 2 ^ (rcSize b + 4)
  let c := s.ring (ringG d (rcIndex b % 4096))
  if rcReserved b true ∨ cfld b 24 12 0 ≠ 0 ∨ (typ ≠ 2 ∧ (rcIndex b / 4096 ≠ 0 ∨ leAt b 24 4 ≠ 0)) ∨ (typ = 2 ∧ rcIndex b % 65536 ≠ 0) then some 0x30
  else match rcReach g b false with
    | some st => some st
    | none =>
      if rcRing b < 2 ∨ (s.ring t).st ≠ .disabled then some 0x33
      else if typ = 3 ∨ 12 < rcSize b ∨ rcAddr b % min bytes 4096 ≠ 0 ∨ (typ ≠ 2 ∧ (c.typ ≠ .cmp ∨ c.st = .disabled)) then some 0x34
      else if typ ≠ 2 ∧ c.st ≠ .running then some 0x33
      else if s.noCtx 1 (if bit (leAt b 16 4) 27 then 1 else 0) then some 0x35
      else if ¬ s.ringInWindow d (rcAddr b) bytes (typ = 2) then some 0x36
      else none

/-- RING_CREATE (R392). -/
def doRingCreate (d r idx : Nat) (s : State) : State := s.runCmd d r idx 0x02 (fun g b s =>
  s.ringCmd g idx b (s.createStatus g b) (fun s =>
    let t := ringG (rcDom b) (rcRing b)
    let typ := rcType b
    let n : Ring := {
      typ := if typ = 0 then .sub else if typ = 1 then .buf else .cmp
      st := .running, cls := cfld b 16 29 28, pin := bit (leAt b 16 4) 27, armed := typ == 2, k := rcSize b + 4, base := rcAddr b
      cmp := if typ = 2 then 0 else rcIndex b % 4096
      vector := if typ = 2 then rcIndex b / 65536 else 0
      modCnt := if typ = 2 then cfld b 24 31 24 else 0
      modLines := if typ = 2 then cfld b 24 23 16 else 0
      modRaster := if typ = 2 then cfld b 24 15 13 else 0 }
    (s.modRing t (fun _ => n)).cacheCtx t))

/-- A ring becomes DISABLED: its context leaves the cache, its reads are dropped. -/
def State.disableRing (g : Nat) (s : State) : State :=
  ((s.modRing g (fun _ => {})).dropJobs .desc g).modHqe (fun h => { h with cache := h.cache.filter (· != g), fills := h.fills.filter (· != g) })

/-- RING_DESTROY (R392). -/
def doRingDestroy (d r idx : Nat) (s : State) : State := s.runCmd d r idx 0x03 (fun g b s =>
  let t := ringG (rcDom b) (rcRing b)
  let x := s.ring t
  let st := if rcReserved b false then some 0x30
    else match rcReach g b false with
      | some st => some st
      | none =>
        if rcRing b < 2 ∨ (x.st ≠ .stopped ∧ x.st ≠ .error) ∨ (x.typ = .buf ∧ x.bound ≠ 0) ∨ (x.typ = .cmp ∧ s.boundTo t ≠ []) then some 0x33
        else none
  s.ringCmd g idx b st (·.disableRing t))

/-- A ring stops fetching: what it has read ahead is discarded (R396). -/
def State.stopFetch (g : Nat) (s : State) : State :=
  let next := s.nextStart g
  (s.dropJobs .desc g).modRing g (fun r => { r with fetched := [], fi := next })

/-- RING_STOP (R392): a SUB ring at once; a BUF ring at the next frame boundary of its product's timing raster, at once without a
product. -/
def doRingStop (d r idx : Nat) (s : State) : State := s.runCmd d r idx 0x04 (fun g b s =>
  let t := ringG (rcDom b) (rcRing b)
  let x := s.ring t
  let st := if rcReserved b false then some 0x30
    else match rcReach g b false with
      | some st => some st
      | none => if x.st ≠ .running ∨ x.typ = .cmp then some 0x33 else none
  s.ringCmd g idx b st (fun s =>
    if x.typ = .buf ∧ x.bound ≠ 0 then s.modRing t (fun r => { r with stopping := true })
    else (s.stopFetch t).modRing t (fun r => { r with st := .stopped })))

/-- BUF rings that a RING_STOP has marked stop at the frame boundary of raster `n` (R392). -/
def State.stopRings (n : Nat) (s : State) : State :=
  s.each (s.hqe.rings.keys.filter (fun g => (s.ring g).stopping)) (fun g s =>
    let p := (s.ring g).product
    if (s.ring g).bound = 0 ∨ s.prdRaster (s.product p).pdb = n then
      (s.stopFetch g).modRing g (fun r => { r with st := .stopped, stopping := false })
    else s)

/-- A ring resumes at an index (R392). Descriptors that have started before still complete (R390, R410). -/
def State.resumeRing (g i : Nat) (s : State) : State :=
  let s := (s.dropJobs .desc g).modRing g (fun r => { r with
    st := .running, err := 0, pi := i, ci := i, fi := i, fetched := [], stopping := false, modCount := none
    started := (r.started.filter (!·.done)).map (fun x => { x with old := true }) })
  State.andReport (s.drainCmp g 65536)

/-- RING_RESUME (R391, R392, R414). -/
def doRingResume (d r idx : Nat) (s : State) : State := s.runCmd d r idx 0x05 (fun g b s =>
  let t := ringG (rcDom b) (rcRing b)
  let x := s.ring t
  let admin := rcRing b < 2
  let own := rcDom b = ringDom g
  let st := if rcReserved b false then some 0x30
    else if admin ∧ rcDom b ≠ 0 ∧ own then some 0x31
    else match rcReach g b admin with
      | some st => some st
      | none =>
        if (x.st ≠ .stopped ∧ x.st ≠ .error) ∨ (x.typ ≠ .cmp ∧ (s.ring (s.cmpOf t)).st ≠ .running) then some 0x33
        else if x.typ = .cmp ∧ rcIndex b % 2 = 1 then some 0x34 else none
  s.ringCmd g idx b st (·.resumeRing t (rcIndex b)))

/-- RING_QUERY (R392, R415). -/
def doRingQuery (d r idx : Nat) (s : State) : State := s.runCmd d r idx 0x06 (fun g b s =>
  let t := ringG (rcDom b) (rcRing b)
  let st := if rcReserved b true then some 0x30
    else match rcReach g b true with
      | some st => some st
      | none => if rcAddr b % 64 ≠ 0 then some 0x34 else none
  match st with
  | some c => s.finishCmd g idx b c
  | none =>
    match s.writeHost { kind := .cmdWrite, ring := g, idx := idx } (ringDom g) (s.ring g).cls (rcAddr b) (s.ctxBytes t) false with
    | some s => s.finishCmd g idx b 0
    | none => (s.writeRefused { kind := .cmdWrite, ring := g, idx := idx } (ringDom g) (s.ring g).cls (rcAddr b) (s.ctxBytes t)
        false).finishCmd g idx b 0x36)

/-- NOP (R391). -/
def doNop (d r idx : Nat) (s : State) : State := s.runCmd d r idx 0x01 (fun g b s =>
  s.finishCmd g idx b (if restZero b 8 then 0 else 0x30))

/-! Domains (R383, R384, R393). -/

/-- The eight windows of a domain block (R393). -/
def blockWins (b : List Byte) : List Win :=
  (List.range 8).map (fun w =>
    let lo := leAt b (32 + 16 * w) 8
    { base := lo / 4096 * 4096, pages := leAt b (40 + 16 * w) 4, rd := bit lo 0, wr := bit lo 1 })

/-- Reserved bits of a domain block are set. -/
def blockReserved (b : List Byte) : Bool :=
  cfld b 0 30 28 != 0 || cfld b 4 31 12 != 0 || leAt b 28 4 != 0 || leAt b 160 96 != 0
  || (List.range 8).any (fun w => bits (leAt b (32 + 16 * w) 8) 11 2 != 0 || leAt b (44 + 16 * w) 4 != 0)

/-- Create the admin rings of a domain (R383): DESIGN CHOICE, class 0, which the manual does not give. -/
def State.createAdmin (d subBase cmpBase subK cmpK vector modCnt : Nat) (pin : Bool) (s : State) : State :=
  let s := s.modRing (ringG d 0) (fun _ => { typ := .sub, st := .running, pin := pin, k := min 16 subK, cmp := 1, base := subBase })
  let s := s.modRing (ringG d 1) (fun _ => { typ := .cmp, st := .running, pin := pin, k := min 16 cmpK, base := cmpBase, armed := true
                                             vector := vector, modCnt := modCnt })
  (s.cacheCtx (ringG d 0)).cacheCtx (ringG d 1)

/-- Why a domain block does not act (R393, R395). -/
def State.blockStatus (s : State) (d : Nat) (b : List Byte) : Option Nat :=
  let wins := blockWins b
  let inW := fun (a n : Nat) (w : Bool) => wins.any (fun q => q.pages != 0 && (if w then q.wr else q.rd) && q.base ≤ a && a + n ≤ q.base + q.pages * 4096)
  let subK := cfld b 24 31 28 + 4
  let cmpK := cfld b 24 27 24 + 4
  if blockReserved b then some 0x30
  else if (s.dom d).en then none
  else if ¬ bit (leAt b 0 4) 31 ∨ (s.dom d).resetBy.isSome then some 0x33
  else if 16 < subK ∨ 16 < cmpK ∨ leAt b 8 8 % min (32 * 2 ^ subK) 4096 ≠ 0 ∨ leAt b 16 8 % min (16 * 2 ^ cmpK) 4096 ≠ 0 then some 0x34
  else if s.noCtx 2 0 then some 0x35
  else if ¬ inW (leAt b 8 8) (32 * 2 ^ subK) false ∨ ¬ inW (leAt b 16 8) (16 * 2 ^ cmpK) true then some 0x36
  else none

/-- A domain block acts on domain `d` (R393): at creation its events go to ring 1. -/
def State.applyBlock (d : Nat) (b : List Byte) (s : State) : State :=
  let fresh := !(s.dom d).en
  let s := s.modDom d (fun q => { q with
    en := true, remote := cfld b 0 27 0, evtRing := if fresh then 1 else cfld b 4 11 0, wins := blockWins b })
  s.when fresh (·.createAdmin d (leAt b 8 8) (leAt b 16 8) (cfld b 24 31 28 + 4) (cfld b 24 27 24 + 4) (cfld b 24 23 8) (cfld b 24 7 0) false)

/-- DOM_SET (R393) reads its domain block within domain 0's windows. -/
def doDomSet (d r idx : Nat) (s : State) : State := s.runCmd d r idx 0x08 (fun g b s =>
  if rcReserved b true then s.finishCmd g idx b 0x30
  else match s.readHost { kind := .cmdRead, ring := g, idx := idx } (ringDom g) (s.ring g).cls (rcAddr b) 256 with
    | some s => s
    | none => (s.readRefused { kind := .cmdRead, ring := g, idx := idx } (ringDom g) (s.ring g).cls (rcAddr b) 256).finishCmd g idx b 0x36)

/-- The domain block of a DOM_SET has arrived, or its read has failed. -/
def State.gotBlock (g idx : Nat) (data : Option (List Byte)) (s : State) : State :=
  match (s.ring g).started.find? (fun x => x.idx == idx) with
  | none => s
  | some x =>
    let d := rcDom x.bytes
    match data with
    | none => s.finishCmd g idx x.bytes 0x37
    | some b => s.ringCmd g idx x.bytes (s.blockStatus d b) (·.applyBlock d b)

/-- DOM_RESET (R393): the domain's rings become DISABLED and its products retire without completions; what they still have under way
for the domain's rings is lost by the host. -/
def doDomReset (d r idx : Nat) (s : State) : State := s.runCmd d r idx 0x09 (fun g b s =>
  let t := rcDom b
  if rcReserved b false then s.finishCmd g idx b 0x30
  else if t = 0 ∨ ¬ (s.dom t).en then s.finishCmd g idx b 0x33
  else
    let host := (s.ownedBy t).filter (fun i => pdbDestKind (s.product i).pdb == 0)
    let s := s.each host (fun i s => s.each ((s.product i).frames.map (·.frame)) (fun f s => State.andReport (s.abandon i f)))
    let s := s.each (s.hqe.rings.keys.filter (fun q => ringDom q == t)) State.disableRing
    let s := s.modDom t (fun _ => { resetBy := some (g, idx) })
    let s := (s.modPrd (fun p => { p with queue := p.queue.filter (fun c => c.dom != t || c.boot) })).startPrd
    let s := s.each (s.ownedBy t) (fun i s =>
      let s := s.modProduct i (fun p => { p with silent := true, waits := [] })
      if s.prdSt i = 1 then State.andReport (s.freeProduct i)
      else if s.prdSt i = 2 then
        s.modProduct i (fun p => { p with waits := [{ op := .retire, dom := t, boot := true, stage := .pending, bytes := leBytes 16 0 ++ leBytes 16 i }] })
      else s)
    State.andReport (s.resetDone t))

/-- HQE_CTRL.EN goes from 0 to 1 (R383, R393): domain 0 has its windows from HQE_WIN, and its admin rings are created. -/
def State.hqeEnable (s : State) : State :=
  let wins := (List.range 8).map (fun w =>
    ({ base := s.fld F.HQE_WIN1.BASE_HI w * 2 ^ 32 + s.fld F.HQE_WIN0.BASE_LO w * 4096, pages := s.fld F.HQE_WIN2.SIZE w
       rd := s.flag F.HQE_WIN0.RD w, wr := s.flag F.HQE_WIN0.WR w } : Win))
  let s := (s.setFlag F.HQE_CTRL.EN).setFlag F.HQE_STAT.RUNNING
  let s := s.modHqe (fun _ => {})
  let s := s.modDom 0 (fun _ => { en := true, remote := 0, evtRing := 1, wins := wins })
  let s := s.createAdmin 0 (s.fld F.HQE_ASUB_HI.BASE_HI * 2 ^ 32 + s.fld F.HQE_ASUB_LO.BASE_LO * 4096)
    (s.fld F.HQE_ACMP_HI.BASE_HI * 2 ^ 32 + s.fld F.HQE_ACMP_LO.BASE_LO * 4096)
    (s.fld F.HQE_ADMIN_CFG.SUB_SIZE + 4) (s.fld F.HQE_ADMIN_CFG.CMP_SIZE + 4) (s.fld F.HQE_ADMIN_CFG.VECTOR)
    (s.fld F.HQE_ADMIN_CFG.MOD_CNT) true
  s.when (s.flag F.FST_STAT.READY) State.backContexts

/-- HQE_ENABLE (R383). -/
def doHqeEnable (s : State) : State := if s.flag F.HQE_CTRL.EN then s else s.hqeEnable

/-- HQE_CTRL.EN goes from 1 to 0. The manual does not say what happens to the domains: they are discarded with their rings, as at a
warm reset (DESIGN CHOICE). -/
def State.hqeDisable (s : State) : State :=
  (((s.setFlag F.HQE_CTRL.EN false).wr .HQE_STAT (s.fld F.HQE_STAT.DBQ_FULL <<< 29)).modHqe (fun h =>
    { credHdr := h.credHdr, credData := h.credData })).freeCredits

/-- ADMIN_RESUME (R414): rings 0 and 1 of domain 0 resume at index 0. -/
def doAdminResume (s : State) : State :=
  if s.flag F.HQE_CTRL.EN then (s.resumeRing 1 0).resumeRing 0 0 else s

/-! Buffers (R397 to R399). -/

/-- Fields of a BUF descriptor (R397). -/
def bufAddr (b : List Byte) : Nat := leAt b 0 8
def bufMeta (b : List Byte) : Nat := leAt b 8 8
def bufBytes (b : List Byte) : Nat := leAt b 16 4
def bufPitch (b : List Byte) : Nat := cfld b 20 16 0
def bufUser (b : List Byte) : Nat := leAt b 24 4

/-- Largest line that the product emits. -/
def State.maxLine (s : State) (pdb : List Byte) : Nat := max (s.prdLineBytes pdb) (if pdbStatLines pdb = 0 then 0 else 1024)

/-- A product takes the next buffer of its ring (R398, R405): SMALL buffers complete at once. -/
def State.takeBuf (i g : Nat) (q : PFrame) : Nat → State → State
  | 0, s => s
  | k + 1, s =>
    let r := s.ring g
    let may := r.held.isNone && r.st == .running && s.cmpOpen g && !s.fcl.safe && (!r.stopping || q.rel != 0)
    match may, r.fetched with
    | true, e :: rest =>
      if e.idx ≠ s.nextStart g then s
      else
        let b := e.bytes
        let n := if bufPitch b = 0 then 0 else bufBytes b / bufPitch b
        let h : HeldBuf := { prd := i, idx := e.idx, addr := bufAddr b, recs := bufMeta b, bytes := bufBytes b, pitch := bufPitch b
                             user := bufUser b, frame := q.frame, first := q.rel, sof := q.rel == 0 }
        let s := s.modRing g (fun r => { r with fetched := rest })
        if n = 0 ∨ bufPitch b < s.maxLine q.pdb then
          let s := s.report [.entry (s.cmpOf g) (bufEntry g 1 false { h with sof := false } (s.pos (s.prdRaster q.pdb)))]
          State.takeBuf i g q k (s.pmuAdd 0x207 (ringDom g))
        else s.modRing g (fun r => { r with held := some h })
    | _, _ => s

/-- Line tag of R256. -/
def lineTag (op : OpDesc) (l : PLine) : List Byte :=
  leBytes 4 l.sealVal ++ leBytes 4 (l.flags <<< 16 + l.line) ++ leBytes 4 (l.arrLine <<< 16 + l.arrFrac <<< 8 + l.raster)
  ++ leBytes 4 (leAt op 4 4)

/-- Line record of R399. -/
def lineRecord (pdb : List Byte) (l : PLine) (flags : Nat) (bad : Bool) (p : Pos) : List Byte :=
  let tag := match (pdbChain pdb).find? (fun d => opCode d == 0x0F) with
    | some d => if dfld d 8 0 0 = 1 then lineTag d { l with flags := flags } else leBytes 16 0
    | none => leBytes 16 0
  tag ++ leBytes 4 (l.line <<< 16 + flags <<< 8 + b2n bad) ++ leBytes 4 (p.raster <<< 29 + p.line <<< 13 + p.frac <<< 5) ++ leBytes 8 p.tod

/-- The next line to leave a product frame: its directory entry, unless an older line lies in the spill ring (R279, R173). A line that the
transmit builder has taken has left (R172). -/
def State.nextOut (s : State) (i : Nat) (q : PFrame) : Option Nat :=
  (List.range (pdbFrameLines q.pdb)).findSome? (fun m =>
    let n := pdbLineAt q.pdb m
    if (s.product i).spillQ.any (fun k => k.line.frame == q.frame && k.line.line == n) then some none
    else match (s.findLine .product i q.frame n).bind (fun d => (s.line d).map (fun l => (d, l))) with
      | some (d, l) => if l.sent then none else if l.published then some (some d) else some none
      | none => none)
  |>.getD none

/-- Spilling ends when the backlog has fallen below SPILL_LO and the ring is empty (R173). -/
def State.settleSpill (i : Nat) (s : State) : State :=
  s.modProduct i (fun p => if p.spillQ = [] ∧ s.backlogLines i < pdbSpillLo p.pdb then { p with spilling := false } else p)

/-- The transmit builder has copied the last byte of a product line into the replay buffer: the pool lets it go (R172). -/
def State.lineCopied (e : Option (Nat × Nat × Nat)) (s : State) : State :=
  match e with
  | none => s
  | some (i, f, n) => match s.dirLines.find? (fun c => c.2.kind == .product && c.2.owner == i && c.2.frame == f && c.2.line == n && c.2.sent) with
    | some (d, _) => (((s.dropLine d).settleSpill i).tryEnds i).retryCommits
    | none => s

/-- HOST_LINE_RELEASE (R172, R398, R399, R402): the next published line of a host product goes to its buffer with its record, and
stays in the pool until it is copied; the Geward transmit builder verifies its seal (R139, R147). -/
def doHostLineRelease (i : Nat) (s : State) : State :=
  match (s.product i).frames.find? (fun q => !q.dead) with
  | none => s
  | some q =>
    if pdbDestKind q.pdb ≠ 0 then s
    else match (s.nextOut i q).bind (fun d => (s.line d).map (fun l => (d, l))) with
      | none => s
      | some (d, l) =>
        let g := pdbRing q.pdb
        let s := (s.takeBuf i g q 65536).fetchMore g
        match (s.ring g).held with
        | none => s
        | some h =>
          let n := s.prdRaster q.pdb
          let p := s.pos n
          let want := lineSeal (pdbSrc0 q.pdb) i q.frame l.line l.data
          let bad := want != l.sealVal
          let org : Org := { kind := .lineData, ring := g, idx := h.idx }
          let cls := (s.ring g).cls
          let da := h.addr + h.lines * h.pitch
          let ra := h.recs + 32 * h.lines
          let w1 := s.writeHost org (ringDom g) cls da l.data (s.flag F.GWL_CTRL.RO_EN) (some (i, q.frame, l.line))
          let rec32 := lineRecord q.pdb l l.flags bad p
          let w2 := w1.bind (fun s => if h.recs = 0 then some s
            else s.writeHost { org with kind := .lineRec } (ringDom g) cls ra rec32 false)
          match w2 with
          | none =>
            let r := match w1 with
              | none => (s.writeRefused org (ringDom g) cls da l.data (s.flag F.GWL_CTRL.RO_EN), s.refusedAt (ringDom g) da l.data.length true)
              | some s => (s.writeRefused { org with kind := .lineRec } (ringDom g) cls ra rec32 false, ra)
            (r.1.report [.ringErr g 2 h.idx r.2 false]).tryEnds i
          | some s =>
            let s := if bad then
                State.andReport ((s.markInvalid i q.frame).sealFail unitGwTx F.SEAL_FAIL_CNT1.GEWARD (pdbSrc0 q.pdb) i l.line q.frame l.sealVal want)
              else s
            let h := { h with lines := h.lines + 1, flags := h.flags ||| l.flags, sealFail := h.sealFail || bad }
            let eof := q.rel + 1 == pdbFrameLines q.pdb
            let s := (s.modLine d (fun l => { l with sent := true })).modPFrame i q.frame (fun q => { q with rel := q.rel + 1 })
            let full := eof || h.bytes / h.pitch ≤ h.lines
            let s := if full then
                ((s.modRing g (fun r => { r with held := none })).report [.entry (s.cmpOf g) (bufEntry g 0 eof h p)]).pmuAdd 0x207 (ringDom g)
              else s.modRing g (fun r => { r with held := some h })
            (((s.fetchMore g).settleSpill i).tryEnds i).retryCommits

/-! Event moderation by lines (R407). -/

/-- A line of raster `n` has passed: armed CMP rings whose interval is over signal. -/
def State.moderate (n : Nat) (s : State) : State :=
  s.each (s.hqe.rings.keys.filter (fun g => (s.ring g).typ == .cmp && (s.ring g).modLines != 0 && (s.ring g).modRaster == n)) (fun g s =>
    match (s.ring g).modCount with
    | some c =>
      let s := s.modRing g (fun r => { r with modCount := some (c + 1) })
      if (s.ring g).armed ∧ (s.ring g).modLines ≤ c + 1 then s.signal g else s
    | none => s)

/-! Write faults and link errors of rings (R412, R413). -/

/-- The completion that covers a recorded write has been written (R412). -/
def State.coveredNow (s : State) (m : MwrRec) : Bool :=
  let r := s.ring m.org.ring
  match m.org.kind with
  | .lineData | .lineRec => subMod (2 ^ 32) r.ci (m.org.idx + 1) < 2 ^ 31
  | .copy | .cmdWrite => !r.started.any (fun x => x.idx == m.org.idx && !x.done)
  | _ => false

/-- A recorded MWR has failed: the ring that it served enters ERROR with the cause given; a command whose completion is still due
completes with WFAULT (R412, R413). -/
def State.mwrFailed (m : MwrRec) (cause addr : Nat) (s : State) : State :=
  let g := m.org.ring
  match m.org.kind with
  | .lineData | .lineRec | .pair => s.report [.ringErr g cause m.org.idx addr (s.coveredNow m)]
  | .copy | .cmdWrite =>
    let due := (s.ring g).started.find? (fun x => x.idx == m.org.idx && !x.done)
    let s := s.report [.ringErr g cause m.org.idx addr (s.coveredNow m)]
    match due with
    | some x =>
      if cause = 4 then (s.modFst (fun f => { f with copies := f.copies.filter (fun c => !(c.ring == g && c.idx == m.org.idx)) })).finishCmd g m.org.idx x.bytes 0x3A
      else s
    | none => s
  | _ => s

/-! Meanings. -/

def execDoorbell (source page : Fin 64) (value : BitVec 64) (s : State) : Host.Outcome State Fault Refusal :=
  .next (doDoorbell source page value.toNat s)
def execDoorbellProcess (s : State) : Host.Outcome State Fault Refusal := .next (doDoorbellProcess s)
def execDescriptorFetch (dom : Fin 64) (ring : Fin 4096) (s : State) : Host.Outcome State Fault Refusal :=
  .next (doDescriptorFetch dom ring s)
def execNop (dom : Fin 64) (ring : Fin 4096) (idx : BitVec 32) (s : State) : Host.Outcome State Fault Refusal :=
  .next (doNop dom ring idx.toNat s)
def execRingCreate (dom : Fin 64) (ring : Fin 4096) (idx : BitVec 32) (s : State) : Host.Outcome State Fault Refusal :=
  .next (doRingCreate dom ring idx.toNat s)
def execRingDestroy (dom : Fin 64) (ring : Fin 4096) (idx : BitVec 32) (s : State) : Host.Outcome State Fault Refusal :=
  .next (doRingDestroy dom ring idx.toNat s)
def execRingStop (dom : Fin 64) (ring : Fin 4096) (idx : BitVec 32) (s : State) : Host.Outcome State Fault Refusal :=
  .next (doRingStop dom ring idx.toNat s)
def execRingResume (dom : Fin 64) (ring : Fin 4096) (idx : BitVec 32) (s : State) : Host.Outcome State Fault Refusal :=
  .next (doRingResume dom ring idx.toNat s)
def execRingQuery (dom : Fin 64) (ring : Fin 4096) (idx : BitVec 32) (s : State) : Host.Outcome State Fault Refusal :=
  .next (doRingQuery dom ring idx.toNat s)
def execDomSet (dom : Fin 64) (ring : Fin 4096) (idx : BitVec 32) (s : State) : Host.Outcome State Fault Refusal :=
  .next (doDomSet dom ring idx.toNat s)
def execDomReset (dom : Fin 64) (ring : Fin 4096) (idx : BitVec 32) (s : State) : Host.Outcome State Fault Refusal :=
  .next (doDomReset dom ring idx.toNat s)
def execHqeEnable (s : State) : Host.Outcome State Fault Refusal := .next (doHqeEnable s)
def execAdminResume (s : State) : Host.Outcome State Fault Refusal := .next (doAdminResume s)
def execContextFill (ring : BitVec 18) (s : State) : Host.Outcome State Fault Refusal := .next (doContextFill ring.toNat s)
def execHostLineRelease (product : BitVec 8) (s : State) : Host.Outcome State Fault Refusal :=
  .next (doHostLineRelease product.toNat s)

end Sys2Proof.Machine
end

