-- ==== Sys2Proof/Machine/Pmu.lean ====
section
/-!
DEFINITION. Machine/Pmu.lean: freezing, snapshots and overflow of the performance counters (R611, R612, R614).
-/
namespace Sys2Proof.Machine

/-- A snapshot copies the cycle counter and the counters, then counts itself (R614). -/
def State.takeSnapshot (s : State) : State :=
  let s := (s.wr .PMU_SNAP_CYC_LO (s.pmu.cyc % 2 ^ 32)).wr .PMU_SNAP_CYC_HI (s.pmu.cyc / 2 ^ 32)
  let s := s.each (List.range 8) (fun i s =>
    (s.wr .PMU_SNAP_LO (s.fld F.PMU_CTR_LO.COUNT i) i).wr .PMU_SNAP_HI (s.fld F.PMU_CTR_HI.COUNT i) i)
  let n := (s.fld F.PMU_SNAP_SEQ.SEQ + 1) % 2 ^ 32
  let s := s.setFld F.PMU_SNAP_SEQ.SEQ n
  if s.flag F.PMU_CTRL.SNAP_EVT then s.event 0 0xA3 0 n 0 0 else s

/-- A scheduled snapshot falls on a line of raster `n` (R614). -/
def State.snapAt (n line : Nat) (s : State) : State :=
  if s.flag F.PMU_SNAP_CTRL.AT_EN ∧ s.fld F.PMU_SNAP_CTRL.RASTER = n ∧ s.fld F.PMU_SNAP_CTRL.LINE = line then
    (s.when (!s.flag F.PMU_SNAP_CTRL.PERIODIC) (·.setFlag F.PMU_SNAP_CTRL.AT_EN false)).takeSnapshot
  else s

/-- PMU_FREEZE and PMU_UNFREEZE (R612). -/
def doPmuFreeze (on : Bool) (s : State) : State := s.setFlag F.PMU_CTRL.FREEZE on

/-- COUNTER_OVERFLOW (R611): a wrap of counter `i` acts. -/
def doCounterOverflow (i : Nat) (s : State) : State :=
  if s.pmu.ovf.any (· == i) then
    let s := s.modPmu (fun p => { p with ovf := p.ovf.filter (· != i) })
    let s := s.wr .PMU_OVF (s.rd .PMU_OVF ||| 1 <<< i)
    let s := s.when (s.flag F.PMU_CFG.OVF_FRZ i) (doPmuFreeze true)
    if s.flag F.PMU_CFG.OVF_EVT i then s.event 0 0xA4 (s.fld F.PMU_OVF.OVF) 0 0 0 else s
  else s

def execPmuFreeze (s : State) : Host.Outcome State Fault Refusal := .next (doPmuFreeze true s)
def execPmuUnfreeze (s : State) : Host.Outcome State Fault Refusal := .next (doPmuFreeze false s)
def execSnapNow (s : State) : Host.Outcome State Fault Refusal := .next s.takeSnapshot
def execCounterOverflow (counter : Fin 8) (s : State) : Host.Outcome State Fault Refusal := .next (doCounterOverflow counter s)

end Sys2Proof.Machine
end

