-- ==== Sys2Proof/Machine/Boundary.lean ====
section
/-!
DEFINITION. Machine/Boundary.lean: what acts at a line boundary and at a frame boundary of a raster, in the order of R84; the start and
the stop of rasters (R61); sync words between devices (R50 to R52); the reads that latch a position (R90).
-/
namespace Sys2Proof.Machine

/-- The leader sends a sync word at a frame boundary of its master raster (R50, R59). -/
def State.sendSync (n : Nat) (s : State) : State :=
  if n = s.master ∧ s.flag F.CFG_SYNC_CTRL.EN ∧ s.fld F.CFG_SYNC_CTRL.ROLE = 1 then s.emit (.syncWord (syncWord (s.ras.get n).frame)) else s

/-- A follower counts frames of its master raster without a good sync word (R52). -/
def State.countSync (n : Nat) (s : State) : State :=
  s.when (s.follows n) (·.modCfg (fun c => { c with syncMiss := if c.syncGood then 0 else min 3 (c.syncMiss + 1), syncGood := false }))

/-- Cross-bloom staging of the master-raster line that ends (R215). -/
def State.showXsteal (s : State) : State :=
  (s.setFld F.BLM_XSTEAL_STAT.BYTES_KIB (min 65535 (s.tf.xBytes / 1024))).modTf (fun t => { t with xBytes := 0 })

/-- Injectors placed at the present line of raster `n` begin to fire (R551). -/
def State.injLine (n : Nat) (s : State) : State :=
  s.each (List.range 8) (fun i s =>
    s.when (s.flag F.FIJ_TRIG.AT_EN i && s.fld F.FIJ_TRIG.RASTER i == n && s.fld F.FIJ_TRIG.LINE i == (s.ras.get n).line) (·.injStart i))

/-- The latest-value table's tick falls due at every LINES-th line of its raster, counted from the table's enable (R486). -/
def State.lvtLine (n : Nat) (s : State) : State :=
  if s.fld F.VBR_LVT_CTRL.RASTER ≠ n then s
  else if ¬ s.flag F.VBR_CTRL.EN ∨ ¬ s.flag F.VBR_LVT_CTRL.EN then { s with vbr := { s.vbr with lvtCnt := 0, lvtDue := false } }
  else if s.vbr.lvtCnt + 1 < s.fld F.VBR_LVT_CTRL.LINES then { s with vbr := { s.vbr with lvtCnt := s.vbr.lvtCnt + 1 } }
  else { s with vbr := { s.vbr with lvtCnt := 0, lvtDue := true } }

/-- Raster `n` stops: rows that its display ports have not sent are not sent (R61, R428, R444). -/
def State.stopRaster (n : Nat) (s : State) : State :=
  (s.rasterHalt n).each ((List.range 4).filter (fun p => s.portRaster p == n)) (fun p s => s.endDisplay p)

/-- The frame-boundary part of a boundary into the present frame of raster `n` (R39, R41, R67, R269, R392, R431, R605): the commit first,
then the frame's alignment under it, then the product commands; a raster that stops begins no display frame. `jumped`: the frame that ended
was a jump frame. -/
def State.frameBoundary (n : Nat) (stop jumped : Bool) (s : State) : State :=
  let s := (s.sendSync n).countSync n
  let s := s.when (n == s.master) (·.pmuAdd 0x003 0)
  let s := s.modEgv (fun e => { e with drop := e.drop.filter (· != n) ++ (if 3 ≤ s.fld F.EGV_STAT.LEVEL then [n] else []) })
  let s := (s.commitBoundary n stop).alignFrame n stop jumped
  let s := (s.prdBoundary n (s.ras.get n).frame).stopRings n
  if stop then s else (s.dispBoundary n (s.ras.get n).frame).freeFrames n

/-- Display lines of port `n` that the raster has reached begin (R84, R427). -/
def State.displayLines : Nat → Nat → State → State
  | 0, _, s => s
  | k + 1, n, s => if s.displayDue n then State.displayLines k n (doDisplayLine n s) else s

/-- The events of a line boundary of raster `n` in the order of R84; `len` is the length of the line that ended. -/
def State.lineEvents (n len : Nat) (frame stop jumped : Bool) (s : State) : State :=
  let s := s.when (n == s.master) (fun s => (s.pmuAdd 0x002 0).showXsteal)
  let s := s.when frame (·.frameBoundary n stop jumped)
  let s := s.snapAt n (s.ras.get n).line
  let s := s.when (n == s.master) (·.grant len)
  let s := s.each ((List.range 4).filter (fun p => s.portRaster p == n && !stop)) (fun p s => s.displayLines 65536 p)
  let s := s.mgdLine n
  let s := (s.lateAtBoundary n).deadlineCheck n
  ((s.moderate n).lvtLine n).injLine n

/-- One line boundary of a raster (R60, R61, R84). -/
def State.lineStep (n : Nat) (s : State) : State :=
  let len := s.lineLen n
  let last := s.lastLine n
  let stop := last && !s.flag F.RAS_CTRL.RUN n
  let jumped := (s.ras.get n).jumping
  let s := (s.advanceLine n).lineEvents n len last stop jumped
  if stop then s.stopRaster n else s

/-- RASTER_LINE_BOUNDARY (R60, R84): the accumulated cycles have reached the end of the line. The boundaries of lower rasters that are due
as well act first. -/
def doRasterLineBoundary (n : Nat) (s : State) : State :=
  if s.lineDue n then s.each (List.range (n + 1)) (fun m s => s.when (s.lineDue m) (·.lineStep m)) else s

/-- The start of a raster is a line boundary and a frame boundary (R61); the trigger frames whose position lies in the past are skipped
(R71). -/
def State.rasterGo (n f : Nat) (s : State) : State :=
  let s := s.rasterBegin n f
  let s := s.lineEvents n (s.lineLen n) true false false
  s.each (s.streamsOf n) State.skipTriggers

/-- RUN of raster `n` goes to 1 (R61): it starts at once or waits for its alignment instant; of a running raster a stop is cancelled. -/
def doRasterStart (n : Nat) (s : State) : State :=
  let s := s.setFlag F.RAS_CTRL.RUN true n
  let r := s.ras.get n
  if r.running ∨ r.waiting then s
  else if s.fld F.RAS_ALIGN.FRAMES n ≠ 0 ∧ s.flag F.RAS_CTRL.WAIT n then s.modRas n (fun r => { r with waiting := true })
  else s.rasterGo n (s.startFrame n)

/-- RUN of raster `n` goes to 0 (R61): a running raster stops at its next frame boundary; one that waits no longer waits. -/
def State.rasterStop (n : Nat) (s : State) : State :=
  (s.setFlag F.RAS_CTRL.RUN false n).modRas n (fun r => { r with waiting := false })

/-- RASTER_ALIGNED_START (R61): TOD has reached the alignment instant for which a raster waits. -/
def doRasterAlignedStart (n : Nat) (s : State) : State :=
  if (s.ras.get n).waiting ∧ s.atAlign n then s.rasterGo n (s.alignedFrame n) else s

/-! Sync words (R50 to R52, R68). -/

/-- The line boundaries of raster `n` that are due act, one after the other (R60). -/
def State.catchUp : Nat → Nat → State → State
  | 0, _, s => s
  | k + 1, n, s => if s.lineDue n then State.catchUp k n (s.lineStep n) else s

/-- The running raster `n` is at line `line` of its frame with `acc` cycles (2^-32) of it passed: a position ahead of the present one is
reached through its line boundaries, one behind it is taken at once (R51, R60). -/
def State.moveTo (n line acc : Nat) (s : State) : State :=
  let r := s.ras.get n
  let p := s.peff n
  let s := s.modRas n (fun r => if r.line ≤ line then { r with acc := (line - r.line) * p + acc } else { r with line := line, acc := acc })
  s.catchUp (line - r.line + 1) n

/-- The follower's master raster takes its boundary and its frame count from a word (R51, R68): `d` is the time since the boundary, in 2^-32
CORE cycles, negative when the boundary is still ahead. -/
def State.placeBoundary (n frame : Nat) (d : Int) (s : State) : State :=
  let p := max 1 (s.peff n)
  let per := max 1 (s.lines n) * p
  let s := s.modRas n (fun r => { r with jumping := false, jumpCarry := 0 })
  if d < 0 then
    let back := ceilDiv d.natAbs per
    let at_ := back * per - d.natAbs
    let f := (frame + 2 ^ 32 - back % 2 ^ 32) % 2 ^ 32
    if (s.ras.get n).frame = f then s.moveTo n (at_ / p) (at_ % p)
    else s.modRas n (fun r => { r with frame := f, line := at_ / p, acc := at_ % p })
  else if (s.ras.get n).frame = frame then s.moveTo n (d.toNat / p) (d.toNat % p)
  else
    let len := s.lineLen n
    let s := s.modRas n (fun r => { r with frame := frame, line := 0, acc := d.toNat })
    let s := (s.boundaryRecord n).modRas n (fun r => { r with hist := match r.hist with
      | b :: l => { b with tod := ((b.tod : Int) - d * 10 / (12 * 2 ^ 32 : Nat)).toNat } :: l
      | [] => [] })
    let stop := !s.flag F.RAS_CTRL.RUN n
    let s := s.lineEvents n len true stop false
    if stop then s.stopRaster n else s.catchUp (d.toNat / p + 1) n

/-- SYNC_WORD_RX (R51, R52, R59): the last bit of a word has arrived, 48 bits of 48 CORE cycles after the start edge. A relay sends each
word on. -/
def doSyncWordRx (w : Nat) (s : State) : State :=
  if ¬ s.flag F.CFG_SYNC_CTRL.EN ∨ s.fld F.CFG_SYNC_CTRL.ROLE < 2 then s
  else
    let s := s.when (s.fld F.CFG_SYNC_CTRL.ROLE == 3) (·.emit (.syncWord w))
    if w % 256 ≠ syncCrc w then s.setFlag F.CFG_SYNC_STAT.CRC_ERR
    else if bits w 47 44 ≠ 1 then s
    else
      let f := bits w 43 12
      let s := (s.setFlag F.CFG_SYNC_STAT.LOCKED).setFld F.CFG_SYNC_STAT.LAST_FRAME f
      let s := s.modCfg (fun c => { c with syncGood := true, syncMiss := 0 })
      if (s.ras.get s.master).running then
        s.placeBoundary s.master f ((48 * 48 - s.sfld F.CFG_SYNC_OFFSET.OFFSET : Int) * (2 ^ 32 : Nat))
      else s

/-- SYNC_LOSS (R52): three successive frames without a good word. -/
def doSyncLoss (s : State) : State :=
  if s.flag F.CFG_SYNC_STAT.LOCKED ∧ s.follows s.master ∧ 3 ≤ s.cfg.syncMiss then (s.setFlag F.CFG_SYNC_STAT.LOCKED false).raise 37 0 else s

/-! Latching reads (R90, R95). -/

/-- A read of RAS_POS latches RAS_FRAME (R90). -/
def State.latchFrame (n : Nat) (s : State) : State := s.modRas n (fun r => { r with latch := r.frame })

/-- A read of RAS_TOD_LO latches RAS_TOD_HI (R95). -/
def State.latchTod (s : State) : State := s.modTime (fun t => { t with todLatch := t.tod / 2 ^ 32 })

def execRasterLineBoundary (raster : Fin 8) (s : State) : Host.Outcome State Fault Refusal := .next (doRasterLineBoundary raster s)
def execRasterStart (raster : Fin 8) (s : State) : Host.Outcome State Fault Refusal := .next (doRasterStart raster s)
def execRasterAlignedStart (raster : Fin 8) (s : State) : Host.Outcome State Fault Refusal := .next (doRasterAlignedStart raster s)
def execTrigger (stream : Fin 64) (s : State) : Host.Outcome State Fault Refusal :=
  .next ((s.trigger stream).tryFrees)
def execTsyncEdge (s : State) : Host.Outcome State Fault Refusal := .next s.tsyncEdge
def execHoldoverTimeout (s : State) : Host.Outcome State Fault Refusal := .next s.holdover
def execTodSet (hi : BitVec 32) (s : State) : Host.Outcome State Fault Refusal := .next (s.loadTod hi.toNat)
def execRasPosRead (raster : Fin 8) (s : State) : Host.Outcome State Fault Refusal := .next (s.latchFrame raster)
def execRasTodLoRead (s : State) : Host.Outcome State Fault Refusal := .next s.latchTod
def execSyncWordRx (word : BitVec 48) (s : State) : Host.Outcome State Fault Refusal := .next (doSyncWordRx word.toNat s)
def execSyncLoss (s : State) : Host.Outcome State Fault Refusal := .next (doSyncLoss s)
def execUnlockLimit (stream : Fin 64) (s : State) : Host.Outcome State Fault Refusal := .next (s.unlockLimit stream)

end Sys2Proof.Machine
end

