-- ==== Sys2Proof/Machine/Can.lean ====
section
/-!
DEFINITION. Machine/Can.lean: the CAN side of the vehicle bridge: channels (R468, R469), filters and end-to-end protection (R474 to
R476), the signal map (R478 to R482), transmit objects (R484) and the latest-value table (R486).
-/
namespace Sys2Proof.Machine

/-! Channels (R469). -/

/-- The channel takes part in bus traffic: enabled, not bus-off, outside the safe state (R495). -/
def State.canOn (s : State) (c : Nat) : Bool :=
  s.flag F.VBR_CAN_CTRL.EN c && s.fld F.VBR_CAN_STAT.STATE c < 2 && !s.fcl.safe && s.clockUp 39

/-- Domain of the bridge's events (R496). -/
def State.sigDomain (s : State) : Nat := s.fld F.VBR_CTRL.SIG_DOMAIN

/-- Error active or passive by the error counts. -/
def State.canState (c : Nat) (s : State) : State :=
  s.setFld F.VBR_CAN_STAT.STATE (b2n (127 < s.fld F.VBR_CAN_STAT.REC c || 127 < s.fld F.VBR_CAN_STAT.TEC c)) c

/-- CAN_BUS_OFF (R469). -/
def doCanBusOff (c : Nat) (s : State) : State :=
  if s.canOn c then
    (((s.setFld F.VBR_CAN_STAT.STATE 2 c).setFlag F.VBR_CAN_STAT.BUS_OFF true c).event s.sigDomain 0x64 c 2 0 0).raise 33 c
  else s

/-- The channel joins the bus: error active with its counts at 0. -/
def State.canJoin (c : Nat) (s : State) : State :=
  ((s.setFld F.VBR_CAN_STAT.STATE 0 c).setFld F.VBR_CAN_STAT.REC 0 c).setFld F.VBR_CAN_STAT.TEC 0 c

/-- CAN_BUS_OFF_RECOVERY (R469): 128 occurrences of 11 recessive bits have passed. -/
def doCanBusOffRecovery (c : Nat) (s : State) : State :=
  if s.fld F.VBR_CAN_STAT.STATE c = 2 ∧ s.flag F.VBR_CAN_CTRL.AUTO_REC c ∧ ¬ s.fcl.safe then s.canJoin c else s

/-- RESTART (R469, R500). -/
def doRestart (c : Nat) (s : State) : State :=
  if s.fld F.VBR_CAN_STAT.STATE c = 2 ∧ ¬ s.fcl.safe then s.canJoin c else s

/-- EN of a channel changes (R500): it joins the bus, or stops. -/
def State.canEnable (c : Nat) (en : Bool) (s : State) : State :=
  if en then (if s.fld F.VBR_CAN_STAT.STATE c = 3 then s.canJoin c else s)
  else (s.setFld F.VBR_CAN_STAT.STATE 3 c).modVbr (fun v => { v with canQ := v.canQ.set c [] })

/-- CAN_BUS_ERROR (R469): one bus error, found as transmitter or as receiver. PRESUMED from ISO 11898-1: 8 for a transmitter, 1 for a
receiver; a transmit count above 255 is bus-off. -/
def doCanBusError (c : Nat) (tx : Bool) (s : State) : State :=
  if ¬ s.canOn c then s
  else
    let s := s.count F.VBR_CAN_CNT.ERR c
    if tx then
      if 255 < s.fld F.VBR_CAN_STAT.TEC c + 8 then doCanBusOff c (s.setFld F.VBR_CAN_STAT.TEC 255 c)
      else (s.addTo F.VBR_CAN_STAT.TEC 8 c).canState c
    else (s.addTo F.VBR_CAN_STAT.REC 1 c).canState c

/-- A message was received without error: the receive error count falls (PRESUMED from ISO 11898-1; from above 127 it returns to a
value of 119 to 127 that is a FREE VALUE). -/
def State.canGood (c : Nat) (s : State) : State :=
  let s := (s.count F.VBR_CAN_CNT.RX c).pmuAdd 0x280 c
  let r := s.fld F.VBR_CAN_STAT.REC c
  if 127 < r then ((s.setFld F.VBR_CAN_STAT.REC (119 + s.free % 9) c).draw).canState c
  else (s.setFld F.VBR_CAN_STAT.REC (r - 1) c).canState c

/-! Filters (R474 to R476). -/

/-- Filter `f` takes a message of channel `c` (R474). -/
def State.filterHit (s : State) (c : Nat) (m : CanMsg) (f : Nat) : Bool :=
  let b := s.vbrEntry 0 f
  entEn b && rfCh b == c && bit (word b 0) 30 == m.ext
    && (wfld b 0 28 0 ^^^ m.id.toNat) &&& wfld b 1 28 0 == 0

/-- Parameters of E2E profile `k` (R154). -/
def State.e2eProfile (s : State) (k : Nat) : E2eProfile :=
  { width := s.fld F.SEAL_E2E_PROF.WIDTH k, poly := s.rd .SEAL_E2E_POLY k, init := s.rd .SEAL_E2E_INIT k
    xorOut := s.rd .SEAL_E2E_XOR k, refIn := s.flag F.SEAL_E2E_PROF.REFIN k, refOut := s.flag F.SEAL_E2E_PROF.REFOUT k
    idFold := s.fld F.SEAL_E2E_PROF.IDFOLD k }

/-- Check value over a payload without its CRC field of `n` bytes at `a` (R150, R475). -/
def State.e2eOver (s : State) (k id a n : Nat) (p : List Byte) : Nat := e2eCrc (s.e2eProfile k) id (p.take a ++ p.drop (a + n))

/-- Outcome of the end-to-end check of a message at filter `f` (R475): 0 accepted, 1 CRC, 2 SEQ, 3 REPEAT, with the counter. -/
def State.e2eCheck (s : State) (f : Nat) (p : List Byte) : Nat × Nat :=
  let b := s.vbrEntry 0 f
  let k := wfld b 2 15 14
  let a := wfld b 3 15 10
  let cb := wfld b 3 9 1
  let n := ceilDiv (s.fld F.SEAL_E2E_PROF.WIDTH k) 8
  let cnt := bits (leNat p) (cb + 3) cb
  if p.length < a + n ∨ 8 * p.length < cb + 4 then (1, 0)
  else if beNat (bytesAt p a n) ≠ s.e2eOver k (wfld b 2 31 16) a n p then (1, 0)
  else match (s.vbr.filt.get f).ref with
    | none => (0, cnt)
    | some r =>
      let d := (cnt + 16 - r) % 16
      (if d = 0 then 3 else if d ≤ wfld b 2 11 8 then 0 else 2, cnt)

/-- Change the running state of a filter. -/
def State.modFilt (f : Nat) (g : FilterRun → FilterRun) (s : State) : State := s.modVbr (fun v => { v with filt := v.filt.upd f g })

/-! The signal map (R478 to R481). -/

/-- Raw value of an entry's field (R478). -/
def rawField (b p : List Byte) : Int :=
  let r := (fieldBits (smMoto b) (smStart b) (smLen b)).zipIdx.foldl (fun t x => t + (b2n (bit (leNat p) x.1)) <<< x.2) 0
  if smSigned b then signed (smLen b) r else r

/-- Rescaled value (R479). -/
def rescale (b : List Byte) (r : Int) : Int :=
  let y := r * smFactor b + smOffset b
  let v : Int := (y.natAbs + 2 ^ 15 : Nat) / (2 ^ 16 : Nat)
  clampI (-(2 ^ 31 : Nat)) ((2 ^ 31 : Nat) - 1) (if y < 0 then -v else v)

/-- Write a field of a transmit object (R478, R481); a change of it is noted (R484). -/
def State.writeObject (b : List Byte) (val : Option Int) (s : State) : State :=
  let n := smTgtLen b
  let code := match val with
    | none => 2 ^ n - 1
    | some v => if smTgtSigned b then unsigned n (clampI (-(2 ^ (n - 1) : Nat)) ((2 ^ (n - 1) : Nat) - 1) v)
        else unsigned n (clampI 0 ((2 ^ n : Nat) - 1) v)
  s.modVbr (fun v => { v with objs := v.objs.upd (smTgt b) (fun o =>
    let old := padTo 64 o.payload
    let new := (fieldBits (smTgtMoto b) (smTgtStart b) n).zipIdx.foldl (fun p x =>
      putBytes p (x.1 / 8) [BitVec.ofNat 8 (putBits (leAt p (x.1 / 8) 1) (x.1 % 8) (x.1 % 8) (b2n (bit code x.2)))]) old
    { o with payload := if new.all (· == 0) then [] else new, changed := o.changed || new != old }) })

/-- One entry writes its target (R481): v and r, VALID, the RANGE flag, and whether the filter is stale; what a stale filter writes is no new
value of the latest-value table (R486). -/
def State.writeTarget (i c : Nat) (v r : Int) (valid range stale : Bool) (s : State) : State :=
  let b := s.vbrEntry 1 i
  let s := s.pmuAdd 0x283 0
  match smKind b with
  | 0 => s.modMgd (fun m => { m with ins := m.ins.upd (smTgt b) (fun q =>
      { q with val := if valid then v.toNat else q.val, valid := valid }) })
  | 1 =>
    let m := s.vbr.maps.get i
    if smOnChange b ∧ m.last = some (v, valid) then s
    else
      (s.modVbr (fun w => { w with maps := w.maps.upd i (fun q => { q with last := some (v, valid) }) })).event s.sigDomain 0x60
        (b2n valid + 2 * b2n range + 4 * b2n stale) (smFilter b <<< 24 + c <<< 16 + i) (unsigned 32 v) (unsigned 32 r)
  | 2 => s.writeObject b (if valid then some v else none)
  | _ =>
    let e := s.vbrEntry 3 (smTgt b)
    if entEn e ∧ ¬ lvPoll e then
      s.modVbr (fun w => { w with lvt := w.lvt.upd (smTgt b) (fun q =>
        { q with value := leBytes 4 (unsigned 32 v), fresh := q.fresh || !stale, valid := valid, stale := stale, range := range, fail := false
                 tod := if stale then q.tod else s.now.tod }) })
    else s

/-- An accepted message runs entry `i` (R478 to R481). When the field reaches beyond the message, the entry is out of range with
VALID = 0; what its value is then is a FREE VALUE. -/
def State.runEntry (c : Nat) (p : List Byte) (i : Nat) (s : State) : State :=
  let b := s.vbrEntry 1 i
  let inside := fieldIn (smMoto b) (smStart b) (smLen b) (8 * p.length)
  let s0 := s
  let s := s.when (!inside) State.draw
  let r := if inside then rawField b p else signed 32 s0.free
  let v := if inside then rescale b r else signed 32 s0.free
  let s := s.modVbr (fun w => { w with maps := w.maps.upd i (fun q => { q with val := some (v, r) }) })
  if inside ∧ smMin b ≤ v ∧ v ≤ smMax b then s.writeTarget i c v r true false false
  else
    let s := s.count F.VBR_CNT1.RANGE
    if ¬ inside ∨ smRange b = 1 then s.writeTarget i c v r false false false
    else if smRange b = 0 then s.writeTarget i c (if v < smMin b then smMin b else smMax b) r true true false
    else s

/-- A message that a filter takes (R475, R476, R482). -/
def State.filterTakes (c f : Nat) (p : List Byte) (s : State) : State :=
  let e := if rfE2e (s.vbrEntry 0 f) then s.e2eCheck f p else (0, 0)
  if e.1 = 0 then
    let s := s.modFilt f (fun q => { q with started := true, stale := false, ref := some e.2 })
    s.each (s.mapsOf f) (State.runEntry c p)
  else
    let s := (s.modFilt f (fun q => { q with reason := e.1, ref := if e.1 = 2 then some e.2 else q.ref })).pmuAdd 0x282 0
    match e.1 with
    | 1 => s.count F.VBR_CNT0.E2E_CRC
    | 2 => s.count F.VBR_CNT0.E2E_SEQ
    | _ => s.count F.VBR_CNT0.E2E_REPEAT

/-- CAN_MESSAGE_RX (R468, R470, R474). A remote frame is ignored; a CAN FD message is not received while FD_EN = 0. -/
def doCanMessageRx (c : Nat) (m : CanMsg) (s : State) : State :=
  if ¬ s.canOn c ∨ m.rtr ∨ (m.fd ∧ ¬ s.flag F.VBR_CAN_CTRL.FD_EN c) then s
  else
    let s := s.canGood c
    if ¬ s.flag F.VBR_CTRL.EN then s
    else match (List.range 256).find? (s.filterHit c m) with
      | some f => s.filterTakes c f m.data
      | none => s

/-- A message passes the injectors on its way to the filters (R550). -/
def State.passMessage (c : Nat) (m : CanMsg) (s : State) : State :=
  let q := s.inject 3 c (.canRx m)
  q.2.each q.1 (fun u s => match u with
    | .canRx m => doCanMessageRx c m s
    | _ => s)

/-- Live bit STALE_ANY (R504). -/
def State.staleAny (s : State) : Bool := (List.range 256).any (fun f => (s.vbr.filt.get f).stale)

/-- FILTER_STALE (R476): STALE_MS have passed since the last accepted message. -/
def doFilterStale (f : Nat) (s : State) : State :=
  let b := s.vbrEntry 0 f
  let q := s.vbr.filt.get f
  if ¬ s.flag F.VBR_CTRL.EN ∨ s.fcl.safe ∨ ¬ entEn b ∨ rfStaleMs b = 0 ∨ ¬ q.started ∨ q.stale then s
  else
    let s := (s.modFilt f (fun q => { q with stale := true, ref := none })).count F.VBR_CNT1.STALE_ENTRY
    let s := s.each (s.mapsOf f) (fun i s =>
      let x := (s.vbr.maps.get i).val.getD (signed 32 s.free, signed 32 s.free)
      let s := s.when ((s.vbr.maps.get i).val.isNone) State.draw
      s.writeTarget i (rfCh b) x.1 x.2 false false true)
    (s.event s.sigDomain 0x63 (rfCh b) f q.reason 0).raise 34 f

/-! Transmit objects (R484). -/

/-- Data bytes of a data length code. PRESUMED from ISO 11898-1. -/
def dlcBytes (fd : Bool) (dlc : Nat) : Nat :=
  if dlc ≤ 8 then dlc
  else if ¬ fd then 8
  else match dlc with
    | 9 => 12
    | 10 => 16
    | 11 => 20
    | 12 => 24
    | 13 => 32
    | 14 => 48
    | _ => 64

/-- Order of identifiers on the bus: base identifier, then standard before extended, then the rest. PRESUMED from ISO 11898-1. -/
def CanFrame.order (f : CanFrame) : Nat :=
  if f.ext then (f.id >>> 18) <<< 19 + 1 <<< 18 + f.id % 2 ^ 18 else (f.id % 2 ^ 11) <<< 19

/-- Snapshot of an object (R484): counter, then CRC. -/
def State.snapshot (s : State) (b : List Byte) (o : TxObj) (cnt : Nat) : List Byte :=
  let n := dlcBytes (bit (word b 0) 29) (wfld b 1 27 24)
  let p := padTo n o.payload
  if ¬ bit (word b 1) 21 then p
  else
    let k := wfld b 1 23 22
    let a := wfld b 2 15 10
    let cb := wfld b 2 9 1
    let w := ceilDiv (s.fld F.SEAL_E2E_PROF.WIDTH k) 8
    let p := padTo n (leBytes (n + 64) (putBits (leNat p) (cb + 3) cb cnt))
    padTo n (putBytes p a (beBytes w (s.e2eOver k (wfld b 2 31 16) a w p)))

/-- TX_OBJECT_DUE (R484): the object's period has passed, or one of its fields has changed. An object that is to be sent as a CAN FD frame is
discarded while FD_EN = 0 (R500). -/
def doTxObjectDue (k : Nat) (s : State) : State :=
  let b := s.vbrEntry 2 k
  let c := wfld b 1 31 30
  let o := s.vbr.objs.get k
  let due := wfld b 1 15 0 ≠ 0 ∨ (bit (word b 1) 28 ∧ o.changed)
  if ¬ s.flag F.VBR_CTRL.EN ∨ s.fcl.safe ∨ ¬ entEn b ∨ ¬ due then s
  else
    let s := s.modVbr (fun v => { v with objs := v.objs.upd k (fun o => { o with changed := false }) })
    if s.flag F.VBR_CAN_CTRL.MON c ∨ ¬ s.canOn c ∨ (bit (word b 0) 29 ∧ ¬ s.flag F.VBR_CAN_CTRL.FD_EN c) then s
    else
      let cnt := match o.cnt with
        | some n => (n + 1) % 16
        | none => 0
      let f : CanFrame := { obj := k, id := wfld b 0 28 0, ext := bit (word b 0) 30, fd := bit (word b 0) 29
                            brs := bit (word b 1) 29 && bit (word b 0) 29, data := s.snapshot b o cnt }
      let s := s.modVbr (fun v => { v with canQ := v.canQ.upd c (fun q => q.filter (fun g => g.obj != k) ++ [f]) })
      s.when (bit (word b 1) 21) (fun s => s.modVbr (fun v => { v with objs := v.objs.upd k (fun o => { o with cnt := some cnt }) }))

/-- The frame that a channel sends next: lowest identifier first, then the lower object. -/
def firstFrame : List CanFrame → Option CanFrame
  | [] => none
  | f :: r => match firstFrame r with
    | some g => some (if g.order < f.order ∨ (g.order = f.order ∧ g.obj < f.obj) then g else f)
    | none => some f

/-- CAN_FRAME_TX (R484): a queued frame is sent; the transmit error count falls (PRESUMED from ISO 11898-1). -/
def doCanFrameTx (c : Nat) (s : State) : State :=
  if ¬ s.canOn c ∨ s.flag F.VBR_CAN_CTRL.MON c then s
  else match firstFrame (s.vbr.canQ.get c) with
    | none => s
    | some f =>
      let q := (s.modVbr (fun v => { v with canQ := v.canQ.upd c (·.filter (fun g => g.obj != f.obj)) })).inject 4 c (.canTx f)
      let s := q.2.each q.1 (fun u s => match u with
        | .canTx f => s.emit (.can c f)
        | _ => s)
      ((s.setFld F.VBR_CAN_STAT.TEC (s.fld F.VBR_CAN_STAT.TEC c - 1) c).canState c).pmuAdd 0x281 c

/-! The latest-value table (R486). -/

/-- The 16 bytes of entry `i` as a tick writes them. -/
def State.lvtBytes (s : State) (i : Nat) : List Byte :=
  let e := s.vbr.lvt.get i
  let b := s.vbrEntry 3 i
  padTo 4 e.value ++ leBytes 2 e.seq
    ++ leBytes 1 (b2n e.valid + 2 * b2n e.stale + 4 * b2n e.range + 8 * b2n e.fail)
    ++ leBytes 1 (if ¬ entEn b then 0 else if lvPoll b then 2 else 1) ++ leBytes 8 e.tod

/-- The table is disabled by a write that failed (R486). -/
def State.lvtOff (s : State) : State := (s.setFlag F.VBR_LVT_CTRL.EN false).setFlag F.VBR_STAT.LVT_OFF

/-- LVT_TICK (R486): at the line at which a tick falls due, the table goes to half GEN mod 2, then GEN. -/
def doLvtTick (s : State) : State :=
  if ¬ s.vbr.lvtDue ∨ ¬ s.flag F.VBR_CTRL.EN ∨ ¬ s.flag F.VBR_LVT_CTRL.EN ∨ s.fcl.safe then s
  else
    let s := s.modVbr (fun v => { v with lvtDue := false })
    let s := s.each (List.range 256) (fun i s =>
      if (s.vbr.lvt.get i).fresh then
        s.modVbr (fun v => { v with lvt := v.lvt.upd i (fun e => { e with fresh := false, seq := (e.seq + 1) % 65536 }) })
      else s)
    let d := s.sigDomain
    let base := s.rd .VBR_LVT_BASE_HI * 2 ^ 32 + s.fld F.VBR_LVT_BASE_LO.BASE_LO * 4096
    let gen := s.vbr.gen
    let tab := (List.range 256).flatMap s.lvtBytes
    let w := s.writeEach { kind := .lvt } d 0 [(base + 0x1000 * (gen % 2), tab), (base + 0x2000, leBytes 8 gen)]
    if w.2 then w.1.modVbr (fun v => { v with gen := (gen + 1) % 2 ^ 64 }) else w.1.lvtOff

/-- A write of the table has failed (R486). -/
def State.lvtFault (s : State) : State := if s.flag F.VBR_LVT_CTRL.EN then s.lvtOff else s

/-! Meanings. -/

def execCanMessageRx (channel : Fin 4) (msg : CanMsg) (s : State) : Host.Outcome State Fault Refusal := .next (s.passMessage channel msg)
def execFilterStale (filter : Fin 256) (s : State) : Host.Outcome State Fault Refusal := .next (doFilterStale filter s)
def execCanBusOff (channel : Fin 4) (s : State) : Host.Outcome State Fault Refusal := .next (doCanBusOff channel s)
def execCanBusOffRecovery (channel : Fin 4) (s : State) : Host.Outcome State Fault Refusal := .next (doCanBusOffRecovery channel s)
def execRestart (channel : Fin 4) (s : State) : Host.Outcome State Fault Refusal := .next (doRestart channel s)
def execTxObjectDue (object : Fin 64) (s : State) : Host.Outcome State Fault Refusal := .next (doTxObjectDue object s)
def execCanFrameTx (channel : Fin 4) (s : State) : Host.Outcome State Fault Refusal := .next (doCanFrameTx channel s)
def execLvtTick (s : State) : Host.Outcome State Fault Refusal := .next (doLvtTick s)
def execCanBusError (channel : Fin 4) (tx : Bool) (s : State) : Host.Outcome State Fault Refusal := .next (doCanBusError channel tx s)

end Sys2Proof.Machine
end

