-- ==== Sys2Proof/Machine/Ingress.lean ====
section
/-!
DEFINITION. Machine/Ingress.lean: the packets of the sensor ports (R105 to R121): frames opened and closed, lines numbered, checked,
unpacked, stamped, stored, substituted and published. A packet is one event: it arrives whole.
-/
namespace Sys2Proof.Machine

/-! Unpacking (R106, R107). -/

/-- Bytes per pixel group of a data type (R106). -/
def groupBytes (dt : Nat) : Nat := match dt with
  | 0x2B => 5
  | 0x2C => 3
  | 0x2D => 7
  | 0x2E => 2
  | 0x2F => 5
  | 0x27 => 3
  | 0x1E => 4
  | 0x24 => 3
  | _ => 1

/-- The four values of a RAW10 group: three bytes' worth of high bits each, the low bits together in the last byte. -/
def unpack10 (b : Nat → Nat) : List Nat :=
  (List.range 4).map (fun i => b i * 4 + bits (b 4) (2 * i + 1) (2 * i))

/-- The two values of a RAW12 group. -/
def unpack12 (b : Nat → Nat) : List Nat := [b 0 * 16 + bits (b 2) 3 0, b 1 * 16 + bits (b 2) 7 4]

/-- Samples of one pixel group by CSI-2 packing (R107). PRESUMED for RAW16, RAW20 and RAW24, whose packing the manual leaves to CSI-2:
RAW16 has its high byte first, RAW20 and RAW24 are pairs of RAW10 and RAW12 halves, high half first. -/
def unpackGroup (dt : Nat) (bs : List Byte) : List Nat :=
  let b := fun i => (bs.getD i 0).toNat
  match dt with
  | 0x2B => unpack10 b
  | 0x2C => unpack12 b
  | 0x2D =>
    let low := b 4 + 256 * b 5 + 65536 * b 6
    (List.range 4).map (fun i => b i * 64 + bits low (6 * i + 5) (6 * i))
  | 0x2E => [b 0 * 256 + b 1]
  | 0x2F => match unpack10 b with
    | [h0, l0, h1, l1] => [h0 * 1024 + l0, h1 * 1024 + l1]
    | _ => []
  | 0x27 => match unpack12 b with
    | [h, l] => [h * 4096 + l]
    | _ => []
  | 0x1E => [b 0, b 1, b 2, b 3]
  | 0x24 => [b 0, b 1, b 2]
  | _ => [b 0]

/-- Stored line of a payload: the samples of every group received whole, then FILL (R107, R114). -/
def OpenFrame.unpack (o : OpenFrame) (payload : List Byte) : List Byte :=
  let gb := groupBytes o.dt
  let c := dtContainer o.dt
  let smp := (List.range (payload.length / gb)).flatMap (fun k => unpackGroup o.dt (bytesAt payload (k * gb) gb))
  let data := (smp.flatMap (leBytes c)).take o.stored
  data ++ o.fillLine.drop data.length

/-! Frames (R105, R109, R117). -/

/-- At level 3 a class-2 product keeps one frame in DROP_N; the others are dropped before their first tile (R605). -/
def State.ladderDrop (i f : Nat) (s : State) : State :=
  let pdb := (s.product i).pdb
  if s.egv.drop.any (· == s.prdRaster pdb) ∧ pdbClass pdb = 2 ∧ f % max 1 (s.fld F.EGV_CTRL.DROP_N) ≠ 0 then
    (State.andReport (s.dropByClass i f)).pmuAdd 0x149 (s.fld F.PRD_STATE.HOME i) 1 (some 2)
  else s

/-- Product frame `f` under the settings to which its number belongs (R271): frames numbered before an update's boundary run under what it
replaced. -/
def Product.newFrame (p : Product) (f : Nat) : PFrame :=
  match p.past.filter (fun x => !frameGe f x.until_) with
  | some x => { frame := f, pdb := x.pdb, area := x.area, setting := p.settings - 1, half := x.half }
  | none => { frame := f, pdb := p.pdb, area := p.area, setting := p.settings, half := p.settings % 2 }

/-- A stream frame has opened: every producing product on it begins a product frame (R264, R269, R273). -/
def State.beginProducts (st f : Nat) (s : State) : State :=
  let s := s.modStrm st (fun q => { q with lastOpen := some f, opened := (f :: q.opened.filter (· != f)).take 256 })
  s.each (s.products.filter (fun i => 2 ≤ s.prdSt i && pdbSrc0 (s.product i).pdb == st)) (fun i s =>
    let p := s.product i
    let due := frameGe f p.first && (match p.until_ with
      | some u => !frameGe f u
      | none => true)
    if due ∧ ¬ p.frames.any (fun q => q.frame == f) then
      let srcs := if pdbFast p.pdb then (pdbStreams p.pdb).eraseDups.map (·, f) else [(st, f)]
      (s.modProduct i (fun p => { p with frames := p.frames ++
        [{ p.newFrame f with srcs := srcs, gen := s.fld F.CFG_STATE.GEN (s.prdRaster p.pdb) }] })).ladderDrop i f
    else s)

/-- Store a FILL line for line `l` that was missing at the frame's close (R119), for the products that still need it. -/
def State.storeMissing (p : Nat) (o : OpenFrame) (l : Nat) (s : State) : State :=
  let s := s.noteSubst o.stream o.frame l
  if (s.lineHolders o.stream o.frame l).isEmpty then s
  else
    let q := s.stamp p o l (2 + 4 + 8 + 16 * b2n (!o.locked)) o.fillLine
    let r := s.putLine { q with fill := true, ingHold := false }
    match r.2 with
    | some _ => r.1
    | none => (r.1.setFlag F.POOL_STAT.DIR_EXHAUST).pmuAdd 0x089 o.stream

/-- An open frame closes (R117): missing lines become FILL, the frame counts as SHORT and is invalid when there are any, and the tile
former learns of the close. -/
def State.closeFrame (p e : Nat) (s : State) : State :=
  match s.openAt p e with
  | none => s
  | some o =>
    let st := o.stream
    let missing := (List.range o.height).filter (fun l => !o.got.any (· == l))
    let s := s.when (!missing.isEmpty) (fun s =>
      ((s.invalidateOpen p e).count F.ING_STRM_FCNT.SHORT p e).pmuAdd 0x049 p)
    let s := s.each (missing.filter (fun l => !o.skipped.any (· == l))) (fun l s => s.storeMissing p o l)
    let last := (s.openAt p e).getD o
    let s := (s.modPort p (fun q => { q with opens := q.opens.set e none })).modStrm st (fun q => { q with
      closed := some { frame := o.frame, locked := o.locked, invalid := last.invalid }, substs := last.subst.map (o.frame, ·) })
    let s := (s.publishAll st).stitchClose st o.frame
    let mine := s.dirLines.filter (fun c => c.2.kind == .raw && c.2.owner == st && c.2.frame == o.frame && c.2.ingHold
      && c.2.published)
    let s := s.each (mine.map (·.1)) (fun d s => (s.modLine d (fun l => { l with ingHold := false })).settle d)
    let s := s.trigClosed st o.frame
    let s := s.each (s.products.filter (fun i => (pdbStreams (s.product i).pdb).any (· == st))) (fun i s => s.tryEnds i)
    s.retryCommits

/-- Close the open frames of a port that meet a condition. -/
def State.closeFrames (p : Nat) (which : OpenFrame → Bool) (s : State) : State :=
  s.each (List.range 8) (fun e s => match s.openAt p e with
    | some o => if which o then s.closeFrame p e else s
    | none => s)

/-- The virtual channel that a port sees: two bits unless VCX_EN is 1 (R103). -/
def State.vcOf (s : State) (p vc : Nat) : Nat := if s.flag F.ING_PORT_CTRL.VCX_EN p then vc else vc % 4

/-- A port takes packets: it runs with its link up, and Korlet is not in the safe state (R125, R540). -/
def State.receives (s : State) (p : Nat) : Bool :=
  s.portUp p && !s.fcl.safe && s.clockUp (if p < 28 then 24 + p / 4 else 3 + p)

/-- FS (R105, R109): the frames of the virtual channel close, and each of its entries opens the frame of the trigger that the FS
answers; the entries of followers come after the others, so that an owner on the same virtual channel starts its frame first. -/
def State.frameStart (p v fn : Nat) (s : State) : State :=
  let s := s.closeFrames p (fun o => o.vc == v)
  let es := (List.range 8).filter (fun e => s.flag F.ING_MAP.EN p e && s.fld F.ING_MAP.VC p e == v)
  let follows := fun (e : Nat) => s.trigMode (s.fld F.ING_MAP.STREAM p e) == 3
  s.each (es.filter (fun e => !follows e) ++ es.filter follows) (fun e s =>
    let st := s.fld F.ING_MAP.STREAM p e
    let r := s.bindFrame st
    match r.2 with
    | none => r.1
    | some t =>
      let s := r.1
      let o := { s.newFrame p e t.frame with sensorFn := fn, locked := t.locked, invalid := false }
      let s := (s.modPort p (fun q => { q with opens := q.opens.set e (some o) })).modStrm st (fun q => { q with substs := [] })
      (s.limitSubst p e).beginProducts st t.frame)

/-! Errors (R114). -/

/-- Raise the ingress data fault of a port. -/
def State.ingData (p : Nat) (s : State) : State := s.raise 17 p

/-- A packet outside a frame, or a line number that does not advance. -/
def State.orphan (p : Nat) (s : State) : State := (s.setFlag F.ING_PORT_STAT.ORPHAN true p).ingData p

/-- An uncorrectable header, or a CSE message counter gap (R114): the packet is lost, and frames that number lines by count are no
longer to be trusted. -/
def State.lostHeader (p : Nat) (s : State) : State :=
  let s := s.each (List.range 8) (fun e s => match s.openAt p e with
    | some o => if o.lsNum then s else s.invalidateOpen p e
    | none => s)
  s.ingData p

/-! Lines (R108). -/

/-- Store a substitute for line `l` where there is room for it: FILL needs no granules (R119, R158). -/
def State.substSkipped (p e l : Nat) (s : State) : State :=
  match s.openAt p e with
  | none => s
  | some o =>
    let s := s.modOpen p e (fun o => { o with skipped := l :: o.skipped })
    let fl := s.frameFlags p e l false
    if (s.ingSubst o l).2 then s.storeSubst p e o l fl .resv []
    else
      let r := s.place p o.stream o.g
      match r.2.1 with
      | .room z g => (r.1.storeSubst p e o l fl z g).report r.2.2
      | .refused late => let t := r.1.refuse p e o l late
                         t.1.report (r.2.2 ++ t.2)

/-- LS with LS_NUM = 1 (R108): its value numbers the next line of the virtual channel; a value that skips forward makes the lines
between missing, a value that does not advance makes the next packet an orphan. -/
def State.lineStart (p e n : Nat) (s : State) : State :=
  match s.openAt p e with
  | none => s
  | some o =>
    if ¬ o.lsNum then s
    else if n == 0 || o.lastLs.any (fun l => decide (n ≤ l)) then
      s.modOpen p e (fun o => { o with nextLs := none, stuck := true })
    else
      let last := o.lastLs.getD 0
      let skipped := (List.range (min n (o.height + 1) - 1 - last)).map (last + ·)
      let s := s.modOpen p e (fun o => { o with lastLs := some n, nextLs := some (n - 1), stuck := false })
      let s := s.when (!skipped.isEmpty) (·.invalidateOpen p e)
      (s.each skipped (fun l s => s.substSkipped p e l)).publishAll o.stream

/-- LS (R105, R108): every open frame of its virtual channel. -/
def State.lineStarts (p v n : Nat) (s : State) : State :=
  s.each (List.range 8) (fun e s => match s.openAt p e with
    | some o => if o.vc = v then s.lineStart p e n else s
    | none => s)

/-- A header's ECC at a port (R105, R114): an uncorrectable one loses the packet; a corrected one counts. -/
def State.withHeader (p : Nat) (h : CsiHeader) (f : CsiHeader → Bool → State → State) (s : State) : State :=
  match checkHeader (s.flag F.ING_PORT_CTRL.VCX_EN p) h with
  | none => (((s.setFlag F.ING_PORT_STAT.HDR_UNCORR true p).count F.ING_PORT_CNT0.HDR_UNCORR p).pmuAdd 0x045 p).lostHeader p
  | some (g, fixed) => f g fixed s

/-- ECC_CORR counts a header that was corrected (R114). -/
def State.noteFixed (p : Nat) (fixed : Bool) (s : State) : State :=
  s.when fixed (fun s => (s.count F.ING_PORT_CNT0.ECC_CORR p).pmuAdd 0x044 p)

/-- A short packet, by the data type that its header's ECC leaves it (R105): FS, FE and LS act; LE and every other one are ignored. -/
def State.shortPacket (p : Nat) (h : CsiHeader) (s : State) : State :=
  if s.receives p then
    (s.pmuAdd 0x041 p).withHeader p h (fun g fixed s =>
      let v := s.vcOf p g.vc.toNat
      let s := s.noteFixed p fixed
      match g.dt.toNat with
      | 0 => s.frameStart p v g.wc.toNat
      | 1 => s.closeFrames p (fun o => o.vc == v)
      | 2 => s.lineStarts p v g.wc.toNat
      | _ => s)
  else s

/-- Line number of the long packet that arrives now, with the frame after it (R108); none makes it an orphan. -/
def OpenFrame.take (o : OpenFrame) : OpenFrame × Option Nat :=
  if o.lsNum then ({ o with nextLs := none, stuck := false }, if o.stuck then none else o.nextLs)
  else ({ o with count := o.count + 1 }, some o.count)

/-- Record the footer checks of a long packet (R113 to R116): whether the line is damaged. A line that was cut in its course is damaged and
has no footer (R25, R114). -/
def State.footer (p : Nat) (o : Option OpenFrame) (k : LongPacket) (cut : Bool) (s : State) : State × Bool :=
  if cut then (s, true) else
  let crc := csiCrc k.payload != k.crc.toNat
  let cse := s.flag F.ING_PORT_CTRL.CSE_EN p && !k.cseCrcOk
  let len := match o with
    | some o => k.hdr.wc.toNat != o.lineBytes
    | none => false
  let s := s.when crc (fun s => (((s.setFlag F.ING_PORT_STAT.CRC_ERR true p).count F.ING_PORT_CNT1.CRC_ERR p).pmuAdd 0x046 p).ingData p)
  let s := s.when cse (fun s => (((s.setFlag F.ING_PORT_STAT.CSE_ERR true p).count F.ING_PORT_CNT1.CRC_ERR p).pmuAdd 0x046 p).ingData p)
  let s := s.when len (fun s => (s.setFlag F.ING_PORT_STAT.LEN_ERR true p).ingData p)
  let s := s.when (!k.repackOk) (fun s => ((s.setFlag F.ING_PORT_STAT.REPACK_ERR true p).raise 18 p).ingData p)
  let s := s.when k.overrun.isSome (fun s => (s.setFlag F.ING_PORT_STAT.OVERRUN true p).ingData p)
  (s, crc || cse || len || !k.repackOk || k.overrun.isSome)

/-- Store a line whose number is below HEIGHT (R104, R110 to R121, R166); `fixed`: its header was corrected; `cut`: it was cut in its course. -/
def State.storeLine (p e l : Nat) (k : LongPacket) (fixed cut : Bool) (s : State) : State :=
  match s.openAt p e with
  | none => s
  | some o =>
    let st := o.stream
    let a := s.posFrom (s.strmRaster st) o.frame
    let s := s.modOpen p e (fun o => { o with got := l :: o.got })
    let c := s.footer p (some o) k cut
    let s := c.1
    let damaged := c.2
    let inval := damaged && (o.policy == 1 || o.policy == 2)
    let s := s.when inval (·.invalidateOpen p e)
    let fl := s.frameFlags p e l (!cut) + 32 * b2n fixed
    let s := s.when (!cut) (·.lineTimed st o.frame l a)
    let r := s.place p st o.g
    let s := match r.2.1 with
      | .refused late => let t := r.1.refuse p e o l late
                         t.1.report (r.2.2 ++ t.2)
      | .room z g =>
        let s := r.1.report r.2.2
        let s := s.when damaged (fun s => (s.count F.ING_STRM_CNT.DAMAGED p e).pmuAdd 0x047 p)
        if damaged ∧ (o.policy = 0 ∨ o.policy = 2) then s.storeSubst p e o l (fl + 1) z g
        else
          let pay := k.payload.take (min k.hdr.wc.toNat o.lineBytes)
          let pay := match k.overrun with
            | some n => pay.take n
            | none => pay
          let q := s.stamp p o l (fl + b2n damaged) (o.unpack pay)
          let t := s.putLine { q with zone := z, grans := g, intact := !damaged }
          match t.2 with
          | some _ => t.1
          | none => (t.1.setFlag F.POOL_STAT.DIR_EXHAUST).pmuAdd 0x089 st
    let s := s.publishAll st
    s.each (s.products.filter (fun i => (pdbStreams (s.product i).pdb).any (· == st))) (fun i s => s.tryEnds i)

/-- Map entry of a long packet (R108). -/
def State.entryOf (s : State) (p vc dt : Nat) : Option Nat :=
  (List.range 8).find? (fun e => s.flag F.ING_MAP.EN p e && s.fld F.ING_MAP.VC p e == vc && s.fld F.ING_MAP.DT p e == dt)

/-- A long packet of a mapped stream (R108). -/
def State.mappedPacket (p e : Nat) (k : LongPacket) (fixed cut : Bool) (s : State) : State :=
  match s.openAt p e with
  | none => s.orphan p
  | some o =>
    let t := o.take
    let s := s.modOpen p e (fun _ => t.1)
    match t.2 with
    | none => s.orphan p
    | some l =>
      if l < o.height then s.storeLine p e l k fixed cut
      else
        let s := (s.footer p (some o) k cut).1
        let s := if o.long then s else (s.modOpen p e (fun o => { o with long := true })).count F.ING_STRM_FCNT.LONG p e
        s.ingData p

/-- A long packet (R105, R108, R114). -/
def doLongPacket (p : Nat) (k : LongPacket) (s : State) (cut : Bool := false) : State :=
  if ¬ s.receives p then s
  else
    ((s.pmuAdd 0x040 p).pmuAdd 0x043 p (ceilDiv k.payload.length 64)).withHeader p k.hdr (fun g fixed s =>
      let dt := g.dt.toNat
      if dt = 0x10 ∨ dt = 0x11 then s
      else
        let s := s.noteFixed p fixed
        if s.flag F.ING_PORT_CTRL.CSE_EN p ∧ k.cseGap then (s.setFlag F.ING_PORT_STAT.CSE_ERR true p).lostHeader p
        else match s.entryOf p (s.vcOf p g.vc.toNat) dt with
          | none => (s.setFlag F.ING_PORT_STAT.UNMAPPED true p).count F.ING_PORT_CNT1.UNMAPPED p
          | some e => s.mappedPacket p e { k with hdr := g } fixed cut)

/-- A long packet passes the injectors on its way (R550). -/
def State.passPacket (p : Nat) (k : LongPacket) (s : State) : State :=
  let q := s.inject 2 p (.packet k)
  q.2.each q.1 (fun u s => match u with
    | .packet k => doLongPacket p k s
    | _ => s)

/-- The line in progress at a port is cut: it is damaged (R25, R114). -/
def State.cutLine (p : Nat) (part : Option LongPacket) (s : State) : State :=
  match part with
  | some k => doLongPacket p k s true
  | none => s

/-- The copy of a substitute completes (R120): the substitute and the lines behind it are published. -/
def doSubstitutePublished (st l : Nat) (s : State) : State :=
  match oldestLine (s.dirLines.filter (fun c => c.2.kind == .raw && c.2.owner == st && c.2.line == l && c.2.pendingSub)) with
  | some (d, _) =>
    let s := (s.modLine d (fun q => { q with pendingSub := false })).publishAll st
    s.each (s.products.filter (fun i => (pdbStreams (s.product i).pdb).any (· == st))) (fun i s => s.tryEnds i)
  | none => s

/-- FRAME_TIMEOUT (R78, R117): position T(H − 1) + 64 lines of stream `st` has arrived: its open frame closes, and the trigger frames that
still lack line H − 1 are missed. -/
def doFrameTimeout (st : Nat) (s : State) : State :=
  let s := match s.mapOf st with
    | some (p, e) => match s.openAt p e with
      | some o => if s.overdue st o.frame then s.closeFrame p e else s
      | none => s
    | none => s
  s.settleMissed st

/-! Links (R125). -/

/-- The link of a port is no longer up: open frames close. `lost` is false when RUN fell; a link that was lost raises the link fault and
the data fault (R114). -/
def State.ingDown (p : Nat) (lost : Bool) (s : State) : State :=
  let s := (s.setFlag F.ING_PORT_STAT.LINK_UP false p).setFld F.ING_PORT_STAT.GEAR_ACT 0 p
  let s := s.when lost (fun s => ((s.setFlag F.ING_PORT_STAT.LINK_LOST true p).raise 19 p).ingData p)
  s.closeFrames p (fun _ => true)

/-- A-PHY link start-up ends with the link up, or a D-PHY link has come back (R125). -/
def doAphyLinkUp (p : Nat) (s : State) : State :=
  if s.flag F.ING_PORT_CTRL.RUN p ∧ ¬ s.flag F.ING_PORT_STAT.LINK_UP p then
    (s.setFlag F.ING_PORT_STAT.LINK_UP true p).when (decide (p < 28)) (·.setFld F.ING_PORT_STAT.GEAR_ACT (s.fld F.ING_PORT_CTRL.GEAR p) p)
  else s

def execFrameStartPacket (port : Fin 30) (hdr : CsiHeader) (s : State) : Host.Outcome State Fault Refusal :=
  .next (s.shortPacket port hdr)
def execFrameEndPacket (port : Fin 30) (hdr : CsiHeader) (s : State) : Host.Outcome State Fault Refusal :=
  .next (s.shortPacket port hdr)
def execLineStartPacket (port : Fin 30) (hdr : CsiHeader) (s : State) : Host.Outcome State Fault Refusal :=
  .next (s.shortPacket port hdr)
def execLineEndPacket (port : Fin 30) (hdr : CsiHeader) (s : State) : Host.Outcome State Fault Refusal :=
  .next (s.shortPacket port hdr)
def execLongPacket (port : Fin 30) (pkt : LongPacket) (s : State) : Host.Outcome State Fault Refusal :=
  .next (s.passPacket port pkt)
def execSubstitutePublished (st : Fin 64) (l : BitVec 16) (s : State) : Host.Outcome State Fault Refusal :=
  .next (doSubstitutePublished st l.toNat s)
def execFrameTimeout (st : Fin 64) (s : State) : Host.Outcome State Fault Refusal := .next (doFrameTimeout st s)

end Sys2Proof.Machine
end

