-- ==== Sys2Proof/Machine/PoolMem.lean ====
section
/-!
DEFINITION. Machine/PoolMem.lean: uncorrectable errors of the pool's memories (R176, R186). Which word fails, and whether it is a
granule's or an entry's, is for the environment: FREE VALUES.
-/
namespace Sys2Proof.Machine

/-- A word of granule `g` is delivered uncorrected: its bytes are free in every line that stands in the granule (R158, R176), and in the table
area that holds it (R222). -/
def State.spoilGranule (g ofs val : Nat) (s : State) : State :=
  let s := s.each (s.dirLines.filter (fun c => c.2.grans.any (· == g))) (fun c s =>
    let a := 1024 * c.2.grans.idxOf g + ofs
    s.modLine c.1 (fun l => if a + 8 ≤ l.data.length then { l with data := putBytes l.data a (leBytes 8 val) } else l))
  s.each (s.products.filter (fun i => (s.product i).areaG.any (· == g))) (fun i s => s.modProduct i (fun p =>
    let n := max 1 (ceilDiv p.tblMax 1024)
    let k := p.areaG.idxOf g
    { p with tbls := p.tbls.upd (k / n) (fun t => (putBytes t.1 (1024 * (k % n) + ofs) (leBytes 8 val) |>.take t.1.length, true)) }))

/-- The line of directory entry `d` is refused for every consumer that still holds it; its granules and the entry are quarantined. -/
def State.loseEntry (d : Nat) (s : State) : State :=
  match s.line d with
  | none => s
  | some c =>
    let s := s.dropLine d
    let s := s.modPool (fun p => { p with quarG := p.quarG ++ c.grans.filter (fun g => !p.quarG.any (· == g)), quarD := p.quarD ++ [d] })
    if c.kind ≠ .raw then s
    else
      let s := s.each (c.holders.filter (fun i => pdbFast (s.product i).pdb)) (fun i s => s.tfSubstitute c.owner c.frame c.line i)
      s.each (c.holders.filter (fun i => !pdbFast (s.product i).pdb)) (fun i s => State.andReport (s.loseLine i c.owner c.frame))

/-- An uncorrectable error in the pool (R176): its records, its effect on the lines, and the pool memory fault source. An entry of the link
table belongs to the lines whose chain holds its granule. -/
def doPoolError (detail : Nat) (s : State) : State :=
  let w := s.free
  let s := s.draw
  let isMeta := bit w 0
  let link := bit w 8
  let s := (s.count F.POOL_ECC_CNT.UNCORR).setFlag (if isMeta then F.POOL_STAT.META_UNCORR else F.POOL_STAT.ECC_UNCORR)
  let s := s.when (!s.flag F.POOL_ECC_REC.VALID) (·.wr .POOL_ECC_REC
    (1 <<< 31 + b2n isMeta <<< 30 + bits w 3 1 <<< 17 + detail % 65536))
  let s := if isMeta && link then
      s.each ((s.dirLines.filter (fun c => c.2.grans.any (· == detail % 65536))).map (·.1)) State.loseEntry
    else if isMeta then s.loseEntry (detail % 16384)
    else s.draw.spoilGranule (detail % 65536) (64 * bits w 7 4 + 8 * bits w 3 1) s.free
  s.raise 24 detail

end Sys2Proof.Machine
end

