-- ==== Sys2Proof/Machine/Faults.lean ====
section
/-!
DEFINITION. Machine/Faults.lean: the fault collector's inputs, live bits, records and self-check (R529 to R537), and the clock monitors
(R25).
-/
namespace Sys2Proof.Machine

/-- Live bit of a source (R530, R534): the condition that it follows. -/
def State.liveNow (s : State) (src : Nat) : Bool :=
  match src with
  | 2 => s.fcl.clkFail.any (fun d => d == 1 || d == 3)
  | 3 => s.fcl.clkFail.any (fun d => d != 1 && d != 3)
  | 4 => s.fcl.supplyOut != []
  | 8 => s.egv.hot
  | 9 => s.flag F.FST_STAT.HOT
  | 10 => (List.range 16).any (fun m => s.fld F.EGV_AVS.AGE_THR ≤ s.fld F.EGV_AGE.D m)
  | 11 => s.egv.avsLimit
  | 12 => (List.range 8).any (fun b => decide ((s.blm.get b).resv < 0))
  | 19 => (List.range 30).any (fun p => s.flag F.ING_PORT_CTRL.RUN p && !s.flag F.ING_PORT_STAT.LINK_UP p)
  | 20 => (List.range 64).any (fun st => (s.strm.get st).episode && !s.locked st)
  | 27 => s.flag F.FST_STAT.TRAIN_FAIL
  | 28 => s.flag F.GWP_CTRL.EN && !s.flag F.GWP_STAT.LINK_UP
  | 30 => (List.range 4).any (fun n => s.flag F.DEG_PORT_CTRL.RUN n && !s.flag F.DEG_PORT_STAT.LINK_UP n)
  | 31 => (List.range 64).any (fun t => s.fld F.MGD_TT_STAT.CONSEC t != 0
      && s.fld F.MGD_PORT_CTRL.FAIL_LIM (s.fld F.MGD_TT_CFG.PORT t) ≤ s.fld F.MGD_TT_STAT.CONSEC t)
  | 33 => (List.range 4).any (fun c => s.fld F.VBR_CAN_STAT.STATE c == 2)
  | 34 => s.staleAny
  | 37 => s.flag F.CFG_SYNC_CTRL.EN && 2 ≤ s.fld F.CFG_SYNC_CTRL.ROLE && !s.flag F.CFG_SYNC_STAT.LOCKED
  | 38 => s.flag F.RAS_DISC_STAT.HOLDOVER
  | 39 => s.sec.idDone && !s.flag F.SEC_BOOT_STAT.ID_OK
  | _ => false

/-- HBM training begins when it is due and the HBM supplies, rails 4 and 5, report good (R301, R641). -/
def State.beginTraining (s : State) : State :=
  if s.fst.trainDue ∧ ¬ s.fcl.supplyOut.any (fun i => i == 4 || i == 5) then
    (s.setFlag F.FST_STAT.TRAINING).modFst (fun f => { f with attempts := 1, trainDue := false })
  else s

/-- Whether a failing clock or supply has recovered is for the environment: a FREE VALUE, drawn whenever the live bit is consulted
(R25, R641). -/
def State.settleMonitor (src : Nat) (s : State) : State :=
  if src ∈ [2, 3, 4] ∧ s.liveNow src then
    let s' := s.draw
    if bit s.free 0 then s'
    else (s'.modFcl (fun f => match src with
      | 2 => { f with clkFail := f.clkFail.filter (fun d => d != 1 && d != 3) }
      | 3 => { f with clkFail := f.clkFail.filter (fun d => d == 1 || d == 3) }
      | _ => { f with supplyOut := [] })).beginTraining
  else s

/-- The live words are evaluated for a read. -/
def State.settleMonitors (s : State) : State := s.each [2, 3, 4] (fun n s => s.settleMonitor n)

/-- A live word: sources 0 to 31, or 32 to 63. -/
def State.liveWord (s : State) (hi : Bool) : Nat :=
  (List.range 32).foldl (fun t i => t + (b2n (s.liveNow (i + 32 * b2n hi))) <<< i) 0

/-- Clear one sticky bit, unless its live bit is 1 (R534). -/
def State.clearSticky (src : Nat) (s : State) : State :=
  if ¬ s.sticky src then s
  else
    let s := s.settleMonitor src
    if s.liveNow src then s
    else if src < 32 then s.wr .FCL_STATUS_LO (putBits (s.rd .FCL_STATUS_LO) src src 0)
    else s.wr .FCL_STATUS_HI (putBits (s.rd .FCL_STATUS_HI) (src - 32) (src - 32) 0)

/-- STATUS_CLEAR (R534, R555). -/
def doStatusClear (hi : Bool) (mask : Nat) (s : State) : State :=
  s.each (oneBits 32 mask) (fun i s => s.clearSticky (i + 32 * b2n hi))

/-- FIRST_FAULT_CLEAR (R535). -/
def doFirstFaultClear (s : State) : State :=
  ((s.setFlag F.FCL_FF0.VALID false).wr .FCL_COINC_LO 0).wr .FCL_COINC_HI 0

/-- A self-check fails (R536, R537): sticky bit 0, and the safe state directly. -/
def State.selfCheckFail (code : Nat) (s : State) : State :=
  if s.sec.pwrGood then (s.setBit64 .FCL_STATUS_LO .FCL_STATUS_HI 0).report [.safe 2 0 code] else s

/-- Clock domain of an ingress port (R23). -/
def portDomain (p : Nat) : Nat := if p < 28 then 24 + p / 4 else 3 + p

/-- The crossings into and out of domain `d` stop: the partial lines in them are damaged, those of its ingress ports and the output of the
tiles that its bloom runs (R25). -/
def State.cutDomain (d : Nat) (parts : List (Fin 30 × LongPacket)) (s : State) : State :=
  let s := s.each (parts.filter (fun q => portDomain q.1 == d)) (fun q s => s.cutLine q.1 (some q.2))
  if 4 ≤ d ∧ d ≤ 11 then
    s.modBlm (d - 4) (fun b => { b with run := (List.range 32).foldl (fun r k =>
      r.upd k (·.map (fun t => { t with srcFlags := t.srcFlags ||| 1 }))) b.run })
  else s

/-- A clock monitor finds domain `d` failing (R25, R530): D00 and D38 have none. `parts` are the lines that are crossing just then. -/
def doClockMonitorFail (d : Nat) (parts : List (Fin 30 × LongPacket)) (s : State) : State :=
  if d = 0 ∨ d = 38 ∨ 40 ≤ d ∨ ¬ s.sec.pwrGood then s
  else
    let s := s.when (s.clockUp d) (·.cutDomain d parts)
    let s := s.modFcl (fun f => { f with clkFail := if f.clkFail.any (· == d) then f.clkFail else f.clkFail ++ [d] })
    if d = 1 ∨ d = 3 then s.raise 2 d else s.raise 3 d

/-- The supply monitor of rail `i` acts (R641). -/
def State.railMonitored (s : State) (i : Nat) : Bool := i == 3 || i == 10 || (i < 10 && s.sec.pwrGood)

/-- FAULT_RAISE (R529, R533): an error line of a unit. A clock and a supply have their conditions beside the raise; source 0 is the
collector's own check. -/
def doFaultRaise (src detail : Nat) (s : State) : State :=
  match src with
  | 0 => s.selfCheckFail (detail % 8)
  | 4 =>
    if s.railMonitored detail then
      (s.modFcl (fun f => { f with supplyOut := if f.supplyOut.any (· == detail) then f.supplyOut else f.supplyOut ++ [detail] })).raise 4 detail
    else s
  | 24 => doPoolError detail s
  | _ => if (src = 2 ∨ src = 3) ∧ (src = 2 ↔ detail = 1 ∨ detail = 3) then doClockMonitorFail detail [] s else s.raise src detail

/-- FORCE_SAFE (R553): SAFE_REQ with the path as its DETAIL. -/
def doForceSafe (path : Path) (s : State) : State := s.raise 7 (pathCode path)

/-- POLICY_LOCK (R531). -/
def doPolicyLock (s : State) : State := s.setFlag F.FCL_CTRL.LOCK

def execFaultRaise (source : Fin 64) (detail : BitVec 32) (s : State) : Host.Outcome State Fault Refusal :=
  .next (doFaultRaise source detail.toNat s)
def execStatusClear (hi : Bool) (mask : BitVec 32) (s : State) : Host.Outcome State Fault Refusal := .next (doStatusClear hi mask.toNat s)
def execFirstFaultClear (s : State) : Host.Outcome State Fault Refusal := .next (doFirstFaultClear s)
/-- COLLECTOR_SELF_TEST (R536): the periodic test of one line. -/
def execCollectorSelfTest (ok : Bool) (s : State) : Host.Outcome State Fault Refusal := .next (if ok then s else s.selfCheckFail 4)
def execForceSafe (path : Path) (s : State) : Host.Outcome State Fault Refusal := .next (doForceSafe path s)
def execPolicyLock (s : State) : Host.Outcome State Fault Refusal := .next (doPolicyLock s)
def execClockMonitorFail (domain : Fin 40) (parts : List (Fin 30 × LongPacket)) (s : State) : Host.Outcome State Fault Refusal :=
  .next (doClockMonitorFail domain parts s)
/-- COLLECTOR_SELF_CHECK_FAIL (R536): checks 1 to 4 exist. -/
def execCollectorSelfCheckFail (code : BitVec 3) (s : State) : Host.Outcome State Fault Refusal :=
  .next (if 1 ≤ code.toNat ∧ code.toNat ≤ 4 then s.selfCheckFail code.toNat else s)

end Sys2Proof.Machine
end

