-- ==== Sys2Proof/Machine/FrameStore.lean ====
section
/-!
DEFINITION. Machine/FrameStore.lean: the frame store (R286 to R304): its address hash, the rows it holds, DATA regions, spill rings,
slot copies, errors, training, temperature and refresh.
-/
namespace Sys2Proof.Machine

/-- FST_PROBE (R290, R309): a write to CHUNK shows the map of that chunk. -/
def doFstProbe (v : Nat) (s : State) : State :=
  let c := bits v 25 0
  let m := s.fstMap c
  (s.wr .FST_PROBE_IN c).wr .FST_PROBE_OUT (m.pc <<< 28 + m.bank <<< 23 + m.col <<< 21 + m.row <<< 6)

/-! Errors (R299, R300). -/

/-- The frame store runs: trained, its clocks there, not in self-refresh (R25, R301, R304). -/
def State.fstRuns (s : State) : Bool := s.flag F.FST_STAT.READY && s.clockUp 12 && s.clockUp 13 && !s.fst.selfRefresh

/-- Two bits of 64-bit word `w` of a row differ; which ones is a FREE VALUE. -/
def flipWord (b : List Byte) (w v : Nat) : List Byte :=
  let i := v % 64
  let j := (i + 1 + v / 64 % 63) % 64
  putBytes b (8 * w) (leBytes 8 (leAt b (8 * w) 8 ^^^ (1 <<< i) ^^^ (1 <<< j)))

/-- Words of a row that are moved uncorrected (R299). -/
def State.flipWords (ws : List Nat) (b : List Byte) (s : State) : State × List Byte :=
  ws.foldl (fun (a : State × List Byte) w => (a.1.draw, flipWord a.2 w a.1.free)) (s, b)

/-- ECC results of a request on row `k` (R299, R313): `corr` words corrected, the words `bad` uncorrectable. -/
def State.eccResult (corr : Nat) (bad : List Nat) (k : Nat) (scrub : Bool) (s : State) : State :=
  let m := s.fstMap (4 * k)
  let s := (s.addTo F.FST_ECC_CNT.CORR corr).pmuAdd 0x184 m.pc corr
  match bad with
  | [] => s
  | w :: _ =>
    let s := (s.addTo F.FST_ECC_CNT.UNCORR bad.length).pmuAdd 0x185 m.pc bad.length
    let s := s.when (!s.flag F.FST_ECC_REC0.VALID) (fun s =>
      (s.wr .FST_ECC_REC0 (1 <<< 31 + b2n scrub <<< 30 + m.pc <<< 26 + m.bank <<< 21 + m.row <<< 6 + (w / 32 % 4) <<< 4)).wr .FST_ECC_REC1
        (w % 32))
    s.raise 26 m.pc

/-- A line read back fails its seal (R139, R147). -/
def State.fstSealFail (st prd line frame stored computed : Nat) (s : State) : State :=
  State.andReport (s.sealFail unitFst F.SEAL_FAIL_CNT2.FST st prd line frame stored computed)

/-! DATA regions (R292, R293). -/

/-- Bytes of one slot of a product (R292). -/
def State.slotSize (s : State) (pdb : List Byte) : Nat := ceilDiv ((1 + pdbFrameLines pdb) * s.prdPitch pdb) 16384 * 16384

/-- Slots of a product's region. -/
def State.slotsOf (s : State) (pdb : List Byte) : Nat :=
  max 1 (s.fld F.FST_RGN.SIZE (pdbDestId pdb % 64) * 2 ^ 21 / max 1 (s.slotSize pdb))

/-- Slot header (R292). -/
def slotHeader (frame : Nat) (valid dropped : Bool) (flags prd ras lines pitch tod0 tod1 st : Nat) : List Byte :=
  padTo 1024 (leBytes 4 frame ++ leBytes 4 (b2n valid <<< 31 + b2n dropped <<< 30 + (flags % 256) <<< 16 + prd <<< 8 + ras)
    ++ leBytes 4 lines ++ leBytes 4 pitch ++ leBytes 8 tod0 ++ leBytes 8 tod1 ++ leBytes 4 st)

/-- Line `n` of a product as its slot counts it: statistics lines follow the others. -/
def slotLine (plain n : Nat) : Nat := if n < 0xF000 then n else plain + (n - 0xF000)

/-- Number of the `m`-th line of a slot. -/
def lineOfSlot (plain m : Nat) : Nat := if m < plain then m else 0xF000 + (m - plain)

/-- Address of slot `k` of a region. -/
def State.slotAddr (s : State) (r k : Nat) : Nat := s.rgnBase r + k * (s.fst.geo.get r).size

/-- A copy of slot `k` of region `r` is in flight (R293). -/
def State.copying (s : State) (r k : Nat) : Bool :=
  s.fst.copies.any (fun c => cfld c.bytes 16 15 0 == r && cfld c.bytes 16 31 16 == k)

/-- Place of the present slot of a product. -/
def State.slotBase (s : State) (i : Nat) : Nat :=
  let p := s.product i
  s.slotAddr (pdbDestId p.pdb % 64) ((p.slotCnt - 1) % s.slotsOf p.pdb)

/-- Header of the present slot: the first one has no line and no TOD yet (R292, R293). -/
def State.headerNow (s : State) (i f : Nat) (valid dropped : Bool) (flags : Nat) : List Byte :=
  let p := s.product i
  slotHeader f valid dropped flags i (s.prdRaster p.pdb) p.slotLines (s.prdPitch p.pdb) p.slotTod p.slotLast (pdbSrc0 p.pdb)

/-- Frame `f` of DATA product `i` takes the next slot; none when a copy of it is in flight (R292, R293). -/
def State.takeSlot (i f : Nat) (s : State) : State × Bool :=
  let p := s.product i
  let r := pdbDestId p.pdb % 64
  let k := p.slotCnt % s.slotsOf p.pdb
  let busy := s.copying r k
  let s := s.modFst (fun t => { t with geo := t.geo.set r { size := s.slotSize p.pdb, plain := pdbLines p.pdb, bytes := s.prdLineBytes p.pdb } })
  let s := s.modProduct i (fun p => { p with
    slotCnt := p.slotCnt + 1, slotTod := 0, slotLast := 0, slotLines := 0, slotOpen := false, slotEnd := none
    slotFrame := if busy then none else some f })
  (s, !busy)

/-- The oldest of some frame numbers. -/
def oldestFrame : List Nat → Option Nat
  | [] => none
  | f :: r => match oldestFrame r with
    | some g => some (if frameGt f g then g else f)
    | none => some f

/-- A DATA product whose slot is done takes the slot of its next frame, complete or dropped: a frame due in a slot that is being copied is
dropped by its class, and counted (R293). -/
def State.slotStep (i : Nat) (s : State) : State :=
  let p := s.product i
  let live := p.frames.filter (fun q => !q.dead)
  if pdbDestKind p.pdb ≠ 2 ∨ p.slotFrame.isSome then s
  else match oldestFrame (p.slotDrops.map (·.1) ++ live.map (·.frame)) with
    | none => s
    | some f =>
      let gone := p.slotDrops.any (fun u => u.1 == f)
      if ¬ gone ∧ ¬ live.any (fun q => q.frame == f && (s.nextOut i q).isSome) then s
      else
        let t := s.takeSlot i f
        if t.2 then t.1
        else
          let u := if gone then t.1 else State.andReport ((t.1.count F.FST_CNT.COPY_DROP).dropByClass i f)
          (u.modProduct i (fun p => { p with slotDrops := p.slotDrops.filter (fun u => u.1 != f) })).tryEnds i

/-! Streams and their work (R297). -/

/-- Published lines of product `i` in the pool, in output order: place in the order and directory entry (R279). -/
def State.outOrder (s : State) (i : Nat) : List (Nat × Nat) :=
  let fs := (s.product i).frames.filter (fun q => !q.dead)
  (fs.zipIdx).flatMap (fun u => (List.range (pdbFrameLines u.1.pdb)).filterMap (fun m =>
    match s.findLine .product i u.1.frame (pdbLineAt u.1.pdb m) with
    | some d => if (s.line d).any (fun l => l.published && !l.sent) then some (u.2 * 2 ^ 20 + m, d) else none
    | none => none))

/-- Place of a line in the output order. -/
def State.outPlace (s : State) (i : Nat) (l : PLine) : Nat :=
  let fs := (s.product i).frames.filter (fun q => !q.dead)
  match fs.zipIdx.find? (fun u => u.1.frame == l.frame) with
  | some u => u.2 * 2 ^ 20 + ((List.range (pdbFrameLines u.1.pdb)).find? (fun m => pdbLineAt u.1.pdb m == l.line)).getD 0
  | none => 0

/-- The line that goes to the spill ring next (R173): behind the ring's last line, or behind the first SPILL_LO lines when the ring is
empty. -/
def State.spillPick (s : State) (i : Nat) : Option Nat :=
  let p := s.product i
  let l : List (Nat × Nat) := match p.spillQ.getLast? with
    | some x => (s.outOrder i).filter (fun u => s.outPlace i x.line < u.1)
    | none => (s.outOrder i).drop (pdbSpillLo p.pdb)
  (l.head?).map (·.2)

/-- Spill work of product `i`. -/
def State.spillWork (s : State) (i : Nat) : List FstWork :=
  let p := s.product i
  let back := match p.spillQ.head?, (p.frames.find? (fun q => !q.dead)) with
    | some l, some q =>
      if s.prdRoom i q 1 ∧ ((s.outOrder i).filter (fun u => u.1 < s.outPlace i l.line)).length ≤ pdbSpillLo p.pdb then [.spillIn i] else []
    | _, _ => []
  let out := if s.spillAllowed p.pdb ∧ ¬ s.spillFull i ∧ (p.spilling ∨ pdbSpillHi p.pdb < s.backlogLines i) then
      match s.spillPick i with
      | some d => [.spillOut i d]
      | none => []
    else []
  back ++ out

/-- The next work of the writer of a DATA product (R292, R293): the first header, the lines, the last header; of a frame that its class
dropped the header that says so. -/
def State.dataWork (s : State) (i : Nat) : List FstWork :=
  let p := s.product i
  match p.slotFrame with
  | none => []
  | some f =>
    match p.slotDrops.find? (fun u => u.1 == f) with
    | some u => [.dropped i f u.2]
    | none =>
      if p.slotEnd.isSome then [.header i f true]
      else if ¬ p.slotOpen then [.header i f false]
      else match (s.pframe i f).bind (s.nextOut i) with
        | some d => [.line i f d]
        | none => []

/-- Lines that a product frame needs from the frame store, in the order of its tiles up to tile `n`. -/
def State.frameNeed (s : State) (q : PFrame) (n : Nat) : List (Nat × Nat) :=
  ((List.range (min n (pdbTiles q.pdb))).flatMap (fun k =>
    s.keptNeed q (tileRect q.pdb (k / max 1 (pdbCols q.pdb)) (k % max 1 (pdbCols q.pdb))))).eraseDups

/-- What the readers of a product fetch for a frame (R257, R296, R297): the lines of the tiles emitted, and 16 KiB ahead of them. They wait until
what the writers have to write is written. -/
def State.fetchWork (s : State) (i : Nat) (q : PFrame) : List FstWork :=
  let p := s.product i
  if p.writes ≠ [] ∨ q.emitted = 0 then []
  else
    let all := s.frameNeed q (pdbTiles q.pdb)
    let now := (s.frameNeed q q.next).length
    (all.take (now + 16 * (tnrPos q.pdb ++ q.stages.map (·.branch)).length)).filterMap (fun u =>
      if (q.keptLine u.1 u.2).isSome then none else some (.fetch i q.frame u.1 u.2))

/-- The work of product `i` at the frame store, stream by stream. -/
def State.fstWork (s : State) (i : Nat) : List FstWork :=
  let p := s.product i
  let live := p.frames.filter (fun q => !q.dead)
  (match pdbDestKind p.pdb with
    | 0 => s.spillWork i
    | 2 => s.dataWork i
    | _ => [])
  ++ (if p.writes = [] then [] else [.keep i])
  ++ live.flatMap (fun q =>
      if !p.areaPool && !pdbFast q.pdb && usesTables q.pdb q.area && q.tbl.isNone && q.emitted != 0 then [FstWork.table i q.frame] else [])
  ++ (match live with
    | q :: _ => s.fetchWork i q
    | [] => [])

/-- Two pieces of work of one stream, which go one after the other (R297); a reader has several lines under way. -/
def FstWork.sameStream : FstWork → FstWork → Bool
  | .header i _ _, .header j _ _ | .header i _ _, .dropped j _ _ | .header i _ _, .line j _ _ => i == j
  | .dropped i _ _, .header j _ _ | .dropped i _ _, .dropped j _ _ | .dropped i _ _, .line j _ _ => i == j
  | .line i _ _, .header j _ _ | .line i _ _, .dropped j _ _ | .line i _ _, .line j _ _ => i == j
  | .spillOut i _, .spillOut j _ | .spillOut i _, .spillIn j | .spillIn i, .spillOut j _ | .spillIn i, .spillIn j => i == j
  | .keep i, .keep j => i == j
  | a, b => a == b

/-- Rows of a copy: the header, and the lines that it copies in whole or in part (R394). -/
def State.copyRows (s : State) (c : FstCopy) : List Nat :=
  let a := s.slotAddr (cfld c.bytes 16 15 0) (cfld c.bytes 16 31 16)
  let h := s.fstRow (a / 1024)
  let pitch := max 1024 (leAt h 12 4)
  let total := (1 + leAt h 8 4) * pitch
  rowsAt a (min total (ceilDiv (min (leAt c.bytes 20 4) total) pitch * pitch))

/-- Half from which a product frame reads the lines of a key. -/
def State.keptHalf (s : State) (i : Nat) (q : PFrame) (key : Nat) : Nat :=
  if key < 16 then 1 - (s.product i).tnrHalf key else ((q.stages.find? (fun u => u.branch + 16 == key)).map (·.half)).getD 0

/-- Rows that a piece of work moves, and the bytes that it writes; none for a read. -/
def State.workRows (s : State) : FstWork → List Nat × Option (List Byte)
  | .header i f valid =>
    (rowsAt (s.slotBase i) 1024, some (s.headerNow i f valid false (((s.product i).slotEnd).getD 0)))
  | .dropped i f flags => (rowsAt (s.slotBase i) 1024, some (s.headerNow i f false true flags))
  | .line i _ d =>
    match s.line d with
    | some l =>
      let pdb := (s.product i).pdb
      let pitch := s.prdPitch pdb
      (rowsAt (s.slotBase i + (1 + slotLine (pdbLines pdb) l.line) * pitch) pitch, some (pitched pitch l.data l.sealVal))
    | none => ([], none)
  | .spillOut i d =>
    match s.line d with
    | some l =>
      let p := s.product i
      (s.spillRows i (p.spillCnt % (2 * pdbFrameLines p.pdb)), some (pitched (s.prdPitch p.pdb) l.data l.sealVal))
    | none => ([], none)
  | .spillIn i => match (s.product i).spillQ with
    | l :: _ => (s.spillRows i l.slot, none)
    | [] => ([], none)
  | .keep i => match (s.product i).writes with
    | w :: _ => (w.rows, some w.data)
    | [] => ([], none)
  | .fetch i f key y => match s.pframe i f with
    | some q => (if key < 16 then s.refRows q.pdb key (s.keptHalf i q key) y else s.stageRows i (key - 16) (s.keptHalf i q key) y, none)
    | none => ([], none)
  | .table i f => match s.pframe i f with
    | some q =>
      let p := s.product i
      (grantRows p.tblSys (q.half * ceilDiv p.tblMax 1024 * 1024) q.area.length, none)
    | none => ([], none)
  | .copy c => (s.copyRows c, none)

/-- Class of a piece of work (R297): that of its product, or of the ring of a copy. -/
def State.workClass (s : State) : FstWork → Nat
  | .copy c => (s.ring c.ring).cls
  | .header i _ _ | .dropped i _ _ | .line i _ _ | .spillOut i _ | .spillIn i | .keep i | .fetch i _ _ _ | .table i _ => pdbClass (s.product i).pdb

/-- A piece of work begins: its row requests are made out. -/
def State.beginWork (w : FstWork) (s : State) : State :=
  if s.fst.jobs.any (fun j => j.work.sameStream w) then s
  else
    let r := s.workRows w
    let id := s.fst.jobs.foldl (fun m j => max m (j.id + 1)) 0
    let reqs := r.1.zipIdx.map (fun u => ({
      job := id, idx := u.2, row := u.1, wr := r.2.isSome, cls := s.workClass w
      data := (r.2.map (fun b => bytesAt b (1024 * u.2) 1024)).getD [] } : FstReq))
    if reqs = [] then s
    else s.modFst (fun f => { f with jobs := f.jobs ++ [{ id := id, work := w, todo := reqs, left := reqs.length }] })

/-- The requests of a job enter the queues of their pseudo-channels in order, as far as there is room: 64 in each (R297). -/
def State.queueJob : Nat → Nat → State → State
  | 0, _, s => s
  | n + 1, id, s =>
    match s.fst.jobs.find? (fun j => j.id == id) with
    | some j => match j.todo with
      | [] => s
      | r :: l =>
        let pc := (s.fstMap (4 * r.row)).pc
        if 64 ≤ (s.fst.queues.get pc).length then s
        else State.queueJob n id (s.modFst (fun f => { f with
          seq := f.seq + 1
          queues := f.queues.upd pc (· ++ [{ r with seq := f.seq }])
          jobs := f.jobs.map (fun j => if j.id = id then { j with todo := l } else j) }))
    | none => s

/-- What the streams have to move is offered to the controller, lower classes first (R19, R297). It takes no request in the safe state, in
self-refresh, or before training has ended (R302, R304). -/
def State.fstOffer (s : State) : State :=
  if ¬ s.fstRuns ∨ s.fcl.safe then s
  else
    let s := s.each s.products State.slotStep
    let works := s.products.flatMap s.fstWork ++ s.fst.copies.map FstWork.copy
    let s := s.each ((List.range 4).flatMap (fun c => works.filter (fun w => s.workClass w == c))) State.beginWork
    s.each (s.fst.jobs.map (·.id)) (fun id s => s.queueJob 131072 id)

/-! What follows when the last row of a piece of work has been moved. -/

/-- The line of a slot is in the frame store: it leaves the pool (R172, R292). -/
def State.fstLine (i f d : Nat) (s : State) : State :=
  match s.line d, s.pframe i f with
  | some l, some q =>
    if l.kind ≠ .product ∨ l.owner ≠ i ∨ l.frame ≠ f then s
    else
      let tod := (s.pos (s.prdRaster (s.product i).pdb)).tod
      let s := ((s.dropLine d).modProduct i (fun p => { p with
        slotLines := p.slotLines + 1, slotTod := if p.slotLines = 0 then tod else p.slotTod, slotLast := tod
        slotEnd := if q.rel + 1 = pdbFrameLines q.pdb then some q.flags else p.slotEnd })).modPFrame i f
        (fun q => { q with rel := q.rel + 1 })
      (s.tryEnds i).retryCommits
  | _, _ => s

/-- A slot header is written: the first opens the slot, the last ends it (R293). -/
def State.fstHeader (i f : Nat) (valid : Bool) (s : State) : State :=
  if (s.product i).slotFrame ≠ some f then s
  else if valid then ((s.modProduct i (fun p => { p with slotFrame := none, slotOpen := false, slotEnd := none })).tryEnds i).retryCommits
  else s.modProduct i (fun p => { p with slotOpen := true })

/-- The header of a dropped frame is written (R292). -/
def State.fstDropped (i f : Nat) (s : State) : State :=
  (s.modProduct i (fun p => { p with
    slotDrops := p.slotDrops.filter (fun u => u.1 != f)
    slotFrame := if p.slotFrame = some f then none else p.slotFrame, slotOpen := false, slotEnd := none })).tryFrees

/-- A line has gone to the spill ring (R173). -/
def State.fstSpillOut (i d : Nat) (s : State) : State :=
  match s.line d with
  | none => s
  | some l =>
    if l.kind ≠ .product ∨ l.owner ≠ i ∨ l.sent then s
    else
      let k : SpillLine := { slot := (s.product i).spillCnt % (2 * pdbFrameLines (s.product i).pdb), len := l.data.length
                             line := { l with grans := [], data := [] } }
      (((s.pmuAdd 0x08B (pdbSrc0 (s.product i).pdb)).dropLine d).modProduct i (fun p => { p with
        spilling := true, spillQ := p.spillQ ++ [k], spillCnt := p.spillCnt + 1 })).tryEnds i

/-- A line returns from the spill ring, checked against the seal that lay with it (R139, R147, R173, R291). -/
def State.fstSpillIn (i : Nat) (buf : List Byte) (s : State) : State :=
  let pdb := (s.product i).pdb
  match (s.product i).spillQ with
  | [] => s
  | k :: rest =>
    match s.claim (ceilDiv k.len 1024) s.pool.tfBank with
    | none => s
    | some (gr, bank) =>
      let l := k.line
      let data := buf.take k.len
      let stored := pitchSeal buf
      let want := lineSeal (pdbSrc0 pdb) i l.frame l.line data
      let ok := want == stored
      let p := (s.modPool (fun p => { p with tfBank := bank })).putLine
        { l with data := data, sealVal := stored, grans := gr, flags := if ok then l.flags else l.flags ||| 9 }
      match p.2 with
      | none => s
      | some _ =>
        let s := (p.1.pmuAdd 0x08C (pdbSrc0 pdb)).modProduct i (fun p => { p with spillQ := rest })
        let s := if ok then s else ((s.markInvalid i l.frame).fstSealFail (pdbSrc0 pdb) i l.line l.frame stored want)
        s.settleSpill i

/-- A reference or stage line has been read back for a product frame, and is checked under the prefix of the line that was asked for
(R138, R139, R257, R296). -/
def State.fstFetch (i f key y : Nat) (buf : List Byte) (s : State) : State :=
  match s.pframe i f with
  | none => s
  | some q =>
    let pdb := q.pdb
    let k := if key < 16 then key else pdbBrLast pdb (key - 16)
    let len := if key < 16 then (stageImg pdb [] false (s.frameShape q) key).lineSize
      else (runBranch pdb [] false (fun _ _ => none) (pdbBranch pdb (key - 16)) (s.frameShape q (key - 16))).lineSize
    let g := if key < 16 then s.prevFrame pdb f else ((q.stages.find? (fun u => u.branch + 16 == key)).map (·.frame)).getD f
    let st := stageStream pdb k
    let data := buf.take len
    let want := stageSeal st i g y k data
    let bad := want != pitchSeal buf
    let s := s.modPFrame i f (fun q => { q with kept := q.kept.upd key (· ++ [{ line := y, bad := bad, data := data }]) })
    if bad then (s.markInvalid i f).fstSealFail st i y g (pitchSeal buf) want else s

/-- Lines of a slot that fail their seal, of those copied in part or whole: line, stored and computed seal (R394). -/
def slotFails (mem : List Byte) (g : SlotGeo) (len : Nat) : List (Nat × Nat × Nat) :=
  let pitch := leAt mem 12 4
  (List.range (leAt mem 8 4)).filterMap (fun m =>
    let a := (1 + m) * pitch
    if len ≤ a then none
    else
      let stored := leAt mem (a + pitch - 4) 4
      let line := lineOfSlot g.plain m
      let w := lineSeal (leAt mem 32 4 % 64) (leAt mem 5 1) (leAt mem 0 4) line (bytesAt mem a (if m < g.plain then g.bytes else 1024))
      if w = stored then none else some (line, stored, w))

/-- The header of a slot has VALID = 1. -/
def slotValid (h : List Byte) : Bool := bit (leAt h 4 4) 31

/-- A slot has been read, and is copied to the host, verified line by line (R394). -/
def State.fstCopy (c : FstCopy) (mem : List Byte) (s : State) : State :=
  let b := c.bytes
  let r := cfld b 16 15 0
  let g := s.fst.geo.get r
  let len := min (min (leAt b 20 4) ((1 + leAt mem 8 4) * leAt mem 12 4)) mem.length
  let fails := slotFails mem g len
  let s := s.modFst (fun f => { f with copies := f.copies.erase c })
  let s := s.each fails (fun u s => s.fstSealFail (leAt mem 32 4 % 64) (leAt mem 5 1) u.1 (leAt mem 0 4) u.2.1 u.2.2)
  let head := leBytes 4 (leAt mem 4 4 ||| (if fails = [] then 0 else 1 <<< 16))
  let out := (putBytes mem 4 head).take len
  match s.writeHost { kind := .copy, ring := c.ring, idx := c.idx } (ringDom c.ring) (s.ring c.ring).cls (leAt b 8 8) out false with
  | none => (s.writeRefused { kind := .copy, ring := c.ring, idx := c.idx } (ringDom c.ring) (s.ring c.ring).cls (leAt b 8 8) out
      false).finishCmd c.ring c.idx b 0x36
  | some s =>
    if fails = [] then s.finishCmd c.ring c.idx b 0 len
    else s.finishCmd c.ring c.idx b 0x3B len (min 0xFE fails.length)

/-- FST_COPY (R394). The manual names no status for a misaligned DST or for a slot that no DATA region has: they complete with
RING_PARAM and NO_FRAME (DESIGN CHOICE). -/
def doFstCopy (d r idx : Nat) (s : State) : State := s.runCmd d r idx 0x10 (fun g b s =>
  let rg := cfld b 16 15 0
  let k := cfld b 16 31 16
  let geo := s.fst.geo.get rg
  let st : Option Nat :=
    if leAt b 24 8 ≠ 0 then some 0x30
    else if ¬ s.flag F.FST_STAT.READY then some 0x39
    else if leAt b 8 8 % 64 ≠ 0 then some 0x34
    else if 64 ≤ rg ∨ ¬ s.flag F.FST_RGN.EN rg ∨ s.fld F.FST_RGN.KIND rg ≠ 0 ∨ geo.size = 0
        ∨ s.fld F.FST_RGN.SIZE rg * 2 ^ 21 < (k + 1) * geo.size ∨ ¬ slotValid (s.fstRow (s.slotAddr rg k / 1024)) then some 0x38
    else none
  match st with
  | some c => s.finishCmd g idx b c
  | none => s.modFst (fun f => { f with copies := f.copies ++ [{ ring := g, idx := idx, bytes := b }] }))

/-! Requests (R297, R299, R300). -/

/-- A piece of work is done; `buf` is what it read. -/
def State.workDone (j : FstJob) (s : State) : State :=
  match j.work with
  | .header i f valid => s.fstHeader i f valid
  | .dropped i f _ => s.fstDropped i f
  | .line i f d => s.fstLine i f d
  | .spillOut i d => s.fstSpillOut i d
  | .spillIn i => s.fstSpillIn i j.buf
  | .keep i => s.modProduct i (fun p => { p with writes := p.writes.drop 1 })
  | .fetch i f key y => s.fstFetch i f key y j.buf
  | .table i f => s.modPFrame i f (fun q => { q with tbl := some (j.buf.take q.area.length, j.bad) })
  | .copy c => if s.fcl.safe then s else s.fstCopy c j.buf

/-- The request that the controller serves next among those of a queue (R297): of the requests of one row the oldest; of these the lowest
class, then the oldest. -/
def nextReq (q : List FstReq) : Option FstReq :=
  match q.filter (fun r => !q.any (fun u => u.row == r.row && u.seq < r.seq)) with
  | [] => none
  | r :: l => some (l.foldl (fun a b => if b.cls < a.cls ∨ (b.cls = a.cls ∧ b.seq < a.seq) then b else a) r)

/-- A row request is done: its row is written or read, with the words `bad` moved uncorrected; the last one of its job ends the work. -/
def State.serveReq (pc : Nat) (r : FstReq) (bad : List Nat) (s : State) : State :=
  let s := s.modFst (fun f => { f with queues := f.queues.upd pc (·.filter (fun u => u.seq != r.seq)) })
  let u := s.flipWords bad (if r.wr then padTo 1024 r.data else s.fstRow r.row)
  let s := if r.wr then u.1.putRow r.row u.2 else u.1
  match s.fst.jobs.find? (fun j => j.id == r.job) with
  | none => s
  | some j =>
    let j := { j with
      left := j.left - 1, bad := j.bad || !bad.isEmpty
      buf := if r.wr then j.buf else putBytes (j.buf ++ List.replicate (1024 * (r.idx + 1) - j.buf.length) 0) (1024 * r.idx) u.2 }
    if 0 < j.left then s.modFst (fun f => { f with jobs := f.jobs.map (fun k => if k.id = j.id then j else k) })
    else (s.modFst (fun f => { f with jobs := f.jobs.filter (fun k => k.id != j.id) })).workDone j

/-- The request in service on a pseudo-channel ends, with the words corrected and uncorrectable that it met; a write reads none (R299). `all`
when a repeated parity error makes every word of it uncorrectable (R300). -/
def State.fstDone (pc corr : Nat) (bad : List Nat) (all : Bool) (s : State) : State :=
  let s := (s.modFst (fun f => { f with parity := f.parity.filter (· != pc) })).fstOffer
  match nextReq (s.fst.queues.get pc) with
  | none => s
  | some r =>
    let bad := if all then List.range 128 else if r.wr then [] else bad.eraseDups
    let s := (s.pmuAdd (if r.wr then 0x181 else 0x180) pc).pmuAdd 0x182 pc
    ((s.eccResult (if all || r.wr then 0 else corr) bad r.row false).serveReq pc r bad).fstOffer

/-- FST_REQUEST_DONE (R297, R299): the row request in service on a pseudo-channel is done. -/
def doFstRequestDone (pc corr : Nat) (bad : List Nat) (s : State) : State :=
  if s.flag F.FST_STAT.READY ∧ s.clockUp 12 ∧ s.clockUp 13 ∧ ¬ s.fst.selfRefresh then s.fstDone pc corr bad false else s

/-- Rows of the stack. -/
def fstRowsTotal : Nat := 2 ^ 24

/-- The scrubber goes on to its next row. -/
def State.nextScrub (s : State) : State := s.modFst (fun f => { f with scrub := (f.scrub + 1) % fstRowsTotal, parity := f.parity.filter (· != 16) })

/-- The scrubber runs (R300). -/
def State.scrubs (s : State) : Bool := s.flag F.FST_CTRL.SCRUB_EN && s.fstRuns && !s.fcl.safe

/-- SCRUB_ROW (R300): the scrubber has read the next row; what it corrected it writes back. -/
def doScrubRow (corr : Nat) (bad : List Nat) (s : State) : State :=
  if s.scrubs then s.nextScrub.eccResult corr bad.eraseDups s.fst.scrub true else s

/-- CA_PARITY_ERROR (R300): a request of a pseudo-channel, or the scrubber's, is retried once; when the retry fails too, it ends as
uncorrectable on every word that it moves. -/
def doCaParityError (pc : Nat) (scrub : Bool) (s : State) : State :=
  let s := s.fstOffer
  let k := if scrub then 16 else pc
  if (if scrub then !s.scrubs else !s.fstRuns || (s.fst.queues.get pc).isEmpty) then s
  else if s.fst.parity.any (· == k) then
    (if scrub then s.nextScrub.eccResult 0 (List.range 128) s.fst.scrub true else s.fstDone pc 0 [] true).raise 27 1
  else
    ((s.count F.FST_CNT.CA_RETRY).pmuAdd 0x186 (if scrub then (s.fstMap (4 * s.fst.scrub)).pc else pc)).modFst
      (fun f => { f with parity := f.parity ++ [k] })

/-! Training, temperature, self-refresh (R301 to R304). -/

/-- TRAINING_END (R301, R416). -/
def doTrainingEnd (ok : Bool) (s : State) : State :=
  if ¬ s.flag F.FST_STAT.TRAINING then s
  else if ok then (((s.setFlag F.FST_STAT.TRAINING false).setFlag F.FST_STAT.READY).backContexts.storeContexts).showResources
  else if s.fst.attempts ≤ 1 then s.modFst (fun f => { f with attempts := 2 })
  else ((s.setFlag F.FST_STAT.TRAINING false).setFlag F.FST_STAT.TRAIN_FAIL).raise 27 0

/-- HBM_TEMP_READ (R303). -/
def doHbmTempRead (c : Nat) (s : State) : State :=
  let t := signed 8 c
  let s := s.setFld F.FST_STAT.TEMP c
  let s := if s.flag F.FST_CTRL.FORCE_2X ∨ 85 < t then s.setFlag F.FST_STAT.REFRESH_2X
    else if t < 80 then s.setFlag F.FST_STAT.REFRESH_2X false else s
  let hot := (s.fld F.FST_CTRL.CASE_LIM : Int) ≤ t
  let was := s.flag F.FST_STAT.HOT
  let s := s.setFlag F.FST_STAT.HOT hot
  if hot then
    let s := s.setFlag F.FST_STAT.HOT_SEEN
    if was then s else (s.alert 2).raise 9 c
  else s

/-- SELF_REFRESH_ENTRY (R304): in the safe state once the requests in flight have ended, and through a warm reset; what no request has been
made for is dropped. -/
def doSelfRefreshEntry (s : State) : State :=
  if (s.fcl.safe ∨ s.cfg.warm) ∧ (List.range 16).all (fun c => (s.fst.queues.get c).isEmpty) then
    s.modFst (fun f => { f with selfRefresh := true, copies := [], jobs := [], parity := [] })
  else s

/-! Meanings. -/

def execFstProbe (value : BitVec 32) (s : State) : Host.Outcome State Fault Refusal := .next (doFstProbe value.toNat s)
def execFstCopy (dom : Fin 64) (ring : Fin 4096) (idx : BitVec 32) (s : State) : Host.Outcome State Fault Refusal :=
  .next (doFstCopy dom ring idx.toNat s)
def execFstRequestDone (pc : Fin 16) (corrected : BitVec 8) (bad : List (Fin 128)) (s : State) : Host.Outcome State Fault Refusal :=
  .next (doFstRequestDone pc corrected.toNat (bad.map (·.val)) s)
def execCaParityError (pc : Fin 16) (scrub : Bool) (s : State) : Host.Outcome State Fault Refusal := .next (doCaParityError pc scrub s)
def execScrubRow (corrected : BitVec 8) (bad : List (Fin 128)) (s : State) : Host.Outcome State Fault Refusal :=
  .next (doScrubRow corrected.toNat (bad.map (·.val)) s)
def execTrainingEnd (ok : Bool) (s : State) : Host.Outcome State Fault Refusal := .next (doTrainingEnd ok s)
def execHbmTempRead (celsius : BitVec 8) (s : State) : Host.Outcome State Fault Refusal := .next (doHbmTempRead celsius.toNat s)
def execSelfRefreshEntry (s : State) : Host.Outcome State Fault Refusal := .next (doSelfRefreshEntry s)

end Sys2Proof.Machine
end

