-- ==== Sys2Proof/Machine/Fec.lean ====
section
/-!
DEFINITION. Machine/Fec.lean: the codes of a Geward link: symbols, scrambler and control blocks (R315, R325, R326), the RS(128,124)
codes (R350), the frame check (R349) and the frame layout (R345 to R347).
-/
namespace Sys2Proof.Machine

/-! GF(2^8) with 0x11D (R350). -/

/-- Double an element. -/
def gfDouble (a : Nat) : Nat := if 128 ≤ a then (2 * a) % 256 ^^^ 0x1D else 2 * a

/-- Product over the low `n` bits of `b`. -/
def gfMulRun : Nat → Nat → Nat → Nat
  | 0, _, _ => 0
  | n + 1, a, b => (if b % 2 = 1 then a else 0) ^^^ gfMulRun n (gfDouble a) (b / 2)

/-- Product. -/
def gfMul (a b : Nat) : Nat := gfMulRun 8 a b

/-- Power of an element. -/
def gfPow (a : Nat) : Nat → Nat
  | 0 => 1
  | n + 1 => gfMul a (gfPow a n)

/-- Inverse of a non-zero element. -/
def gfInv (a : Nat) : Nat := gfPow a 254

/-- One step of the division by the generator (R350); the remainder stands highest coefficient first. -/
def rsStep (r : List Nat) (d : Nat) : List Nat :=
  let f := d ^^^ r.getD 0 0
  [r.getD 1 0 ^^^ gfMul f 0x0F, r.getD 2 0 ^^^ gfMul f 0x36, r.getD 3 0 ^^^ gfMul f 0x78, gfMul f 0x40]

/-- Parity of 124 data bytes. -/
def rsParity (d : List Byte) : List Byte := (d.foldl (fun r b => rsStep r b.toNat) [0, 0, 0, 0]).map (BitVec.ofNat 8)

/-- Value of a code word, highest coefficient first, at `x`. -/
def rsEval (c : List Byte) (x : Nat) : Nat := c.foldl (fun v b => gfMul v x ^^^ b.toNat) 0

/-- Powers of alpha that a code word's coefficients have, by position 0 to 127. -/
def rsPowers : Nat → Nat → List Nat
  | 0, _ => []
  | n + 1, x => x :: rsPowers n (gfDouble x)

/-- Change the coefficient of `x ^ i` in a code word. -/
def rsFix (c : List Byte) (i v : Nat) : List Byte := putBytes c (127 - i) [c.getD (127 - i) 0 ^^^ BitVec.ofNat 8 v]

/-- Decode one code: the corrected word and the byte positions corrected, none for more than 2 errors (R350, R351). -/
def rsDecode (c : List Byte) : Option (List Byte × List Nat) :=
  let s0 := rsEval c 1
  let s1 := rsEval c 2
  let s2 := rsEval c 4
  let s3 := rsEval c 8
  let loc := fun (p : Nat → Bool) => ((rsPowers 128 1).zipIdx.filter (fun u => p u.1)).map (·.2)
  if s0 = 0 ∧ s1 = 0 ∧ s2 = 0 ∧ s3 = 0 then some (c, [])
  else
    let det := gfMul s0 s2 ^^^ gfMul s1 s1
    if det = 0 then
      if s0 = 0 then none
      else
        let x := gfMul s1 (gfInv s0)
        if s2 = gfMul x s1 ∧ s3 = gfMul x s2 then
          match loc (· == x) with
          | [i] => some (rsFix c i s0, [127 - i])
          | _ => none
        else none
    else
      let k := gfInv det
      let a := gfMul k (gfMul s0 s3 ^^^ gfMul s1 s2)
      let b := gfMul k (gfMul s2 s2 ^^^ gfMul s1 s3)
      match loc (fun x => gfMul x x ^^^ gfMul a x ^^^ b == 0) with
      | [i, j] =>
        let xi := gfPow 2 i
        let xj := gfPow 2 j
        let yi := gfMul (s1 ^^^ gfMul s0 xj) (gfInv (xi ^^^ xj))
        some (rsFix (rsFix c i yi) j (s0 ^^^ yi), [127 - i, 127 - j])
      | _ => none

/-- Even or odd bytes of a list. -/
def everyOther : List Byte → List Byte
  | [] => []
  | [a] => [a]
  | a :: _ :: r => a :: everyOther r

/-- Interleave two lists. -/
def interleave : List Byte → List Byte → List Byte
  | a :: r, b :: t => a :: b :: interleave r t
  | l, [] => l
  | [], l => l

/-! Frames (R345 to R349). -/

/-- Header word of a frame (R346). -/
def frameHead (rpl crd nak ackv : Bool) (typ ack seq : Nat) : Nat :=
  b2n rpl <<< 31 + b2n crd <<< 30 + b2n nak <<< 29 + b2n ackv <<< 28 + typ <<< 24 + (ack % 4096) <<< 12 + seq % 4096

/-- Frame check value over an epoch and frame bytes 0 to 243 (R349). -/
def frameCrc (epoch : Nat) (b : List Byte) : Nat := crc32c (leBytes 4 epoch ++ b.take 244)

/-- Frame bytes 0 to 247 from the header and body under an epoch (R345). -/
def frameBytes (epoch head : Nat) (body : List Byte) : List Byte :=
  let b := leBytes 4 head ++ padTo 240 body
  b ++ leBytes 4 (frameCrc epoch b)

/-- A frame with its FEC parity (R350). -/
def withFec (b : List Byte) : List Byte :=
  b ++ interleave (rsParity (everyOther b)) (rsParity (everyOther (b.drop 1)))

/-- A frame whose codes are decoded: its corrected bytes and the frame bytes corrected (R351). -/
def correctFrame (b : List Byte) : Option (List Byte × List Nat) :=
  if b.length ≠ 256 then none
  else
    match rsDecode (everyOther b), rsDecode (everyOther (b.drop 1)) with
    | some e, some o => some (interleave e.1 o.1, e.2.map (2 * ·) ++ o.2.map (2 * · + 1))
    | _, _ => none

/-- Fields of a frame's header. -/
def fhRpl (b : List Byte) : Bool := bit (leAt b 0 4) 31
def fhCrd (b : List Byte) : Bool := bit (leAt b 0 4) 30
def fhNak (b : List Byte) : Bool := bit (leAt b 0 4) 29
def fhAckv (b : List Byte) : Bool := bit (leAt b 0 4) 28
def fhType (b : List Byte) : Nat := bits (leAt b 0 4) 27 24
def fhAck (b : List Byte) : Nat := bits (leAt b 0 4) 23 12
def fhSeq (b : List Byte) : Nat := bits (leAt b 0 4) 11 0

/-! Symbols and scrambling (R315, R316, R325). -/

/-- Value v of a pair, the bit that is sent first being the more significant (R315). -/
def pairVal (first second : Bool) : Nat := match first, second with
  | false, false => 0
  | false, true => 1
  | true, true => 2
  | true, false => 3

/-- Pair of a value: the bit sent first, then the other. -/
def valPair (v : Nat) : Bool × Bool := match v % 4 with
  | 0 => (false, false)
  | 1 => (false, true)
  | 2 => (true, true)
  | _ => (true, false)

/-- Encode a symbol: precoder, then inversion. Symbols are level indices, level = 2 × index − 3; the second component is the precoder's
last symbol (R316, R318). -/
def sendSymbol (pre inv : Bool) (last v : Nat) : Nat × Nat :=
  let p := if pre then (v + 4 - last % 4) % 4 else v
  (if inv then 3 - p else p, p)

/-- Decode a symbol; the second component is the decided symbol (R316, R318). -/
def takeSymbol (pre inv : Bool) (last code : Nat) : Nat × Nat :=
  let p := if inv then 3 - code else code
  (if pre then (p + last) % 4 else p, p)

/-- Scramble bits: the state holds the last 58 bits sent, the newest in bit 0 (R325). -/
def scramble : Nat → List Bool → List Bool × Nat
  | st, [] => ([], st)
  | st, d :: r =>
    let b := xor d (xor (bit st 38) (bit st 57))
    let q := scramble ((2 * st + b2n b) % 2 ^ 58) r
    (b :: q.1, q.2)

/-- Descramble bits (R325). -/
def descramble : Nat → List Bool → List Bool × Nat
  | st, [] => ([], st)
  | st, b :: r =>
    let d := xor b (xor (bit st 38) (bit st 57))
    let q := descramble ((2 * st + b2n b) % 2 ^ 58) r
    (d :: q.1, q.2)

/-- Bits of bytes in the order of R324. -/
def blockBits (b : List Byte) : List Bool := b.flatMap (fun x => (List.range 8).map (fun i => bit x.toNat i))

/-- Bytes of bits in the order of R324. -/
def bitBytes : Nat → List Bool → List Byte
  | 0, _ => []
  | n + 1, l => BitVec.ofNat 8 ((l.take 8).zipIdx.foldl (fun t u => t + b2n u.1 <<< u.2) 0) :: bitBytes n (l.drop 8)

/-- Payload of a control block (R326). -/
def controlBlock (b : List Byte) : List Byte :=
  let c := padTo 31 b
  c ++ leBytes 1 (crc8 c)

/-- The control block's CRC is good. -/
def controlOk (b : List Byte) : Bool := b.length == 32 && crc8 (b.take 31) == leAt b 31 1

end Sys2Proof.Machine
end

