-- ==== Sys2Proof/Machine/GwReads.lean ====
section
/-!
DEFINITION. Machine/GwReads.lean: Korlet's reads of host memory: completions, retries and timeouts (R364 to R366), and what each
function does with the data.
-/
namespace Sys2Proof.Machine

/-- A read job is over: its data, or its failure, goes to the function that asked (R366). -/
def State.jobDone (j : ReadJob) (s : State) : State :=
  let s := s.modGwl (fun g => { g with jobs := g.jobs.filter (fun k => k.id != j.id) })
  let data := if j.failed then none else some j.buf
  match j.org.kind with
  | .desc => s.gotDesc j (!j.failed)
  | .pdb => s.gotPdb data
  | .table => s.gotTable data
  | .asset => s.gotAsset j.org.idx data
  | .cmdRead =>
    match (s.ring j.org.ring).started.find? (fun x => x.idx == j.org.idx && !x.done) with
    | some x =>
      if descCmd x.bytes = 0x40 then s.gotEntries j.org.ring j.org.idx x.bytes data
      else if descCmd x.bytes = 0x41 then s.gotXferData j.org.ring j.org.idx x.bytes data
      else s.gotBlock j.org.ring j.org.idx data
    | none => s
  | _ => s

/-- One MRD of a job has ended; the job ends with its last one. -/
def State.mrdEnd (id : Nat) (f : ReadJob → ReadJob) (s : State) : State :=
  match s.gwl.jobs.find? (fun j => j.id == id) with
  | none => s
  | some j =>
    let j := f { j with left := j.left - 1 }
    if j.left = 0 then s.jobDone j
    else s.modGwl (fun g => { g with jobs := g.jobs.map (fun k => if k.id = id then j else k) })

/-- The tag has no open read any longer. -/
def State.closeTag (tag : Nat) (s : State) : State :=
  let s := s.modGwl (fun g => { g with mrds := g.mrds.set tag none })
  s.setFld F.GWL_STAT.TAGS_OPEN s.gwl.mrds.keys.length

/-- An MRD fails as ABORT. -/
def State.mrdAbort (tag : Nat) (m : MrdOpen) (s : State) : State :=
  (s.closeTag tag).mrdEnd m.txn.job (fun j => { j with failed := true })

/-- An MRD has its last completion: bytes that no completion brought are FREE VALUES. -/
def State.mrdOk (tag : Nat) (m : MrdOpen) (s : State) : State :=
  let s := s.closeTag tag
  let r := (padTo' m.txn.len m.got).foldl (fun (t : List Byte × State) b => match b with
    | some v => (t.1 ++ [v], t.2)
    | none => (t.1 ++ [BitVec.ofNat 8 t.2.free], t.2.draw)) ([], s)
  r.2.mrdEnd m.txn.job (fun j => { j with buf := putBytes j.buf (m.txn.addr - j.addr) r.1 })
where
  /-- A list of optional bytes brought to length `n`. -/
  padTo' (n : Nat) (l : List (Option Byte)) : List (Option Byte) := (l ++ List.replicate n none).take n

/-- Put a completion's bytes at their offset. -/
def putOpt (l : List (Option Byte)) (n a : Nat) (d : List Byte) : List (Option Byte) :=
  let l := (l ++ List.replicate n none).take n
  (l.take a ++ d.map some ++ l.drop (a + d.length)).take n

/-- CPL_RX (R364, R365). -/
def doCplRx (t : HostTxn) (s : State) : State :=
  let s := s.pmuAdd 0x1CB 0
  match s.gwl.mrds.get t.tag.toNat with
  | none => s.count F.GWL_CNT5.LATE_CPL
  | some m =>
    if m.again then s.count F.GWL_CNT5.LATE_CPL
    else
      let tag := t.tag.toNat
      let st := bits t.sub.toNat 2 0
      let last := bit t.sub.toNat 7
      if st = 0 then
        let m := { m with got := putOpt m.got m.txn.len (t.addr.toNat - m.txn.addr) (t.data.take t.len.toNat) }
        if last then s.mrdOk tag m
        else s.modGwl (fun g => { g with mrds := g.mrds.set tag (some m) })
      else if st = 1 ∧ m.txn.retries < s.fld F.GWL_CTRL.HOST_RETRY then
        s.modGwl (fun g => { g with mrds := g.mrds.set tag (some { m with again := true, got := [] }) })
      else s.mrdAbort tag m

/-- CPL_TIMEOUT (R366): the tag is withheld for four times the bound. -/
def doCplTimeout (tag : Nat) (s : State) : State :=
  match s.gwl.mrds.get tag with
  | none => s
  | some m => if m.again then s else
    let until_ := s.time.now + 4 * s.fld F.GWL_CTRL.CPL_TMO_US * 1200
    ((s.count F.GWL_CNT3.CPL_TMO).modGwl (fun g => { g with heldTags := (tag, until_) :: g.heldTags })).mrdAbort tag m

/-- HOST_RETRY_REISSUE (R365): the read goes out again under any free tag. -/
def doHostRetryReissue (tag : Nat) (s : State) : State :=
  match s.gwl.mrds.get tag with
  | some m => if m.again then (s.closeTag tag).txPush { m.txn with retries := m.txn.retries + 1 } else s
  | none => s

def execCplRx (txn : HostTxn) (s : State) : Host.Outcome State Fault Refusal := .next (doCplRx txn s)
def execCplTimeout (tag : BitVec 10) (s : State) : Host.Outcome State Fault Refusal := .next (doCplTimeout tag.toNat s)
def execHostRetryReissue (tag : BitVec 10) (s : State) : Host.Outcome State Fault Refusal := .next (doHostRetryReissue tag.toNat s)

end Sys2Proof.Machine
end

