-- ==== Sys2Proof/Machine/GwDown.lean ====
section
/-!
DEFINITION. Machine/GwDown.lean: block slots of the transmit lanes (R324 to R327, R333), and the link down: what the transaction layer
loses (R372) and the restart of the lanes (R335, R336).
-/
namespace Sys2Proof.Machine

def State.modGwp (f : GwPhy → GwPhy) (s : State) : State := { s with gwp := f s.gwp }

/-- Change one receive lane. -/
def State.modRx (k : Nat) (f : GwRx → GwRx) (s : State) : State := s.modGwp (fun p => { p with rx := p.rx.upd k f })

/-! Sending (R315, R316, R324, R325). -/

/-- REFCLK_OK (R320, R339): live, and 0 in the reset state, before any time has passed for the measurement. -/
def State.refclkOk (s : State) : Bool := 0 < s.time.now && Config.refclkGw s.time.now

/-- The transmitters run: EN = 1 and the PLL locked (R336). -/
def State.gwTxOn (s : State) : Bool := s.flag F.GWP_CTRL.EN && s.gwp.pll

/-- Symbols of a lane, first symbol lowest, and the precoder's last symbol. -/
def sendSymbols (pre inv : Bool) : Nat → List Nat → Nat × Nat
  | last, [] => (0, last)
  | last, v :: r =>
    let q := sendSymbol pre inv last v
    let t := sendSymbols pre inv q.2 r
    (q.1 + 4 * t.1, t.2)

/-- Values of the symbols of a bit list. -/
def bitVals : List Bool → List Nat
  | a :: b :: r => pairVal a b :: bitVals r
  | _ => []

/-- Transmit lane `k` sends one block: data or control, with its payload. -/
def State.sendBlock (k : Nat) (data : Bool) (b : List Byte) (s : State) : State :=
  if s.flag F.GWP_LANE_CTRL.TX_DIS k then s
  else
    let pre := s.flag F.GWP_LANE_CTRL.TX_PRE k
    let inv := s.flag F.GWP_LANE_CTRL.TX_INV k
    let t := s.gwp.tx.get k
    let h := sendSymbol pre inv t.last (if data then 1 else 3)
    let sc := scramble t.scr (blockBits (padTo 32 b))
    let q := sendSymbols pre inv h.2 (bitVals sc.1)
    (s.modGwp (fun p => { p with tx := p.tx.set k { last := q.2, scr := sc.2 } })).emit (.block k h.1 q.1)

/-- One block slot of all transmit lanes: `f` gives the data of a lane, none for a control block `ctl` on it. -/
def State.sendSlot (f : Nat → Option (List Byte)) (ctl : Nat → List Byte) (s : State) : State :=
  if s.gwTxOn && s.clockUp 14 then
    s.each (List.range 8) (fun k s => match f k with
      | some b => s.sendBlock k true b
      | none => s.sendBlock k false (controlBlock (ctl k)))
  else s

/-- An IDLE block (R326). -/
def idleBlock : List Byte := [0x1E]

/-- LDN in 16 successive block slots on every lane (R335). -/
def State.sendLdn (s : State) : State :=
  s.each (List.range 16) (fun _ s => s.sendSlot (fun _ => none) (fun _ => [0x2D]))

/-- Slots of a link frame at the announced width, IDLE on the other lanes; without a frame, one slot of IDLE (R333). -/
def State.sendFrame (b : Option (List Byte)) (s : State) : State :=
  match b with
  | none => (s.pmuAdd 0x1CC 0).sendSlot (fun _ => none) (fun _ => idleBlock)
  | some b =>
    let ls := s.gwp.lanes
    let w := max 1 ls.length
    let s := s.pmuAdd 0x1C0 (ls.headD 0)
    s.each (List.range (8 / w)) (fun i s => s.sendSlot (fun k =>
      match ls.zipIdx.find? (fun u => u.1 == k) with
      | some u => some (bytesAt b (32 * (i * w + u.2)) 32)
      | none => none) (fun _ => idleBlock))

/-! Link down at the transaction layer (R372). -/

/-- Posted credits that a queue held back are not returned: the next link grants anew. -/
def State.forgetHeld (s : State) : State :=
  let s := s.modHqe (fun h => { h with credHdr := 0, credData := 0 })
  let s := s.each s.vbr.tun.keys (fun p s => s.modTun p (fun t => { t with held := t.held.map (fun h => (h.1, 0, 0)) }))
  s.each s.disp.keys (fun n s => s.modDisp n (fun d => { d with
    host := d.host.map (fun h => { h with credHdr := 0, credData := 0 })
    stalled := d.stalled.map (fun h => { h with credHdr := 0, credData := 0 }) }))

/-- The link layer leaves ACTIVE (R372): replay buffer, sequence state and credits go; open reads fail; writes not covered by an ACK
stop their rings, the lower ring first (R425); events not covered are queued again; completions owed are dropped, their bridged reads expired (R495). A line that was being copied leaves the pool. -/
def State.gwDown (s : State) : State :=
  let g := s.gwl
  let lost : List Txn := (g.replay.flatMap (·.txns) ++ g.txPartOf.toList).eraseDups
  let owed : List Txn := (lost ++ g.txq).filter (fun (t : Txn) => t.kind == TxnKind.cpl)
  let again : List Txn := lost.filter (fun (t : Txn) => t.kind == .msg && t.sub == 1)
  let s := (s.setFlag F.GWL_STAT.ACTIVE false).wr .GWL_EPOCH_RX 0
  let s := { s with gwl := { epoch := g.epoch, txq := again ++ g.txq.filter (fun (t : Txn) => t.kind != TxnKind.cpl), mrds := g.mrds
                             nextTag := g.nextTag, mwrTag := g.mwrTag, jobs := g.jobs, nextJob := g.nextJob } }
  let s := (s.forgetHeld).lineCopied (g.txPartOf.bind (·.ends))
  let s := s.each s.gwl.mrds.keys (fun k s => match s.gwl.mrds.get k with
    | some m => s.mrdAbort k m
    | none => s)
  let wr := (lost.filter (fun (t : Txn) => t.kind == TxnKind.mwr)).filterMap (fun (t : Txn) =>
    s.hqe.mwrs.find? (fun (m : MwrRec) => m.tag == t.tag))
  let s := s.each s.hqe.rings.keys (fun r s => s.each (wr.filter (fun (m : MwrRec) => m.org.ring == r)) (fun (m : MwrRec) s =>
    s.mwrFailed m 5 m.addr))
  (s.each (owed.filterMap (fun (t : Txn) => t.read)) (fun e s => s.expired e)).bridgeLinkDown

/-! Lanes (R334 to R336). -/

/-- A lock attempt starts on receive lane `k`, with the equaliser at its start values (R334), taken as the reset values; EQ_FREEZE holds
the values there are (R341). -/
def State.startAttempt (k : Nat) (s : State) : State :=
  let s := s.modRx k (fun r => { fails := r.fails })
  let s := s.when (!s.flag F.GWP_LANE_CTRL.EQ_FREEZE k) (·.wr .GWP_LANE_EQ 0 k)
  s.wr .GWP_LANE_STAT (
    let v := s.rd .GWP_LANE_STAT k
    putBits (putBits (putBits v 31 28 0) 26 26 0) 7 0 0) k

/-- Enter or leave fall-back mode on lane `k` (R320). -/
def State.setFb (k : Nat) (fb : Bool) (s : State) : State :=
  let was := s.flag F.GWP_LANE_STAT.FB_MODE k
  (s.when (fb && !was) (·.count F.GWP_LANE_CNT1.FB_ENTRY k)).setFlag F.GWP_LANE_STAT.FB_MODE fb k

/-- Every receive lane starts attempts anew (R336). -/
def State.startLanes (s : State) : State :=
  let s := s.modGwp (fun p => { p with lanes := [], said := false, lastM := none, asm := [], broken := false, slots := 0 })
  s.each (List.range 8) (fun k s =>
    ((s.modRx k (fun _ => {})).startAttempt k).setFb k (s.flag F.GWP_CTRL.FORCE_FB && s.gwTxOn && !s.flag F.GWP_LANE_CTRL.RX_DIS k))

/-- The link goes down (R335). `ldn`: Korlet sends LDN first. -/
def State.gwLinkDown (ldn : Bool) (s : State) : State :=
  let up := s.flag F.GWP_STAT.LINK_UP
  let s := s.when ldn State.sendLdn
  let s := ((s.setFlag F.GWP_STAT.LINK_UP false).setFld F.GWP_STAT.RX_W 0).setFld F.GWP_STAT.TX_W 0
  let s := s.startLanes
  if up then ((s.setFlag F.GWP_STAT.LINK_DOWN).gwDown).raise 28 0 else s

/-- A protocol error (R371): recorded, and the link goes down with LDN. -/
def State.protoError (cause seq tag : Nat) (s : State) : State :=
  let s := s.when (!s.flag F.GWL_PROTO_REC.VALID) (·.wr .GWL_PROTO_REC (1 <<< 31 + cause <<< 28 + (seq % 4096) <<< 12 + tag % 1024))
  ((s.setFlag F.GWL_STAT.PROTO_ERR).when (cause == 4) (·.setFlag F.GWL_STAT.REPLAY_LIM)).gwLinkDown true

/-- GW_PLL_LOCK (R336): blind bring-up starts on every lane. With TX_REF = 1 and no reference the PLL does not lock (R649). -/
def doGwPllLock (s : State) : State :=
  if s.flag F.GWP_CTRL.TX_REF ∧ ¬ s.refclkOk then s
  else
    let s := s.modGwp (fun p => { p with pll := true, tx := {}, amSeq := 0 })
    if s.flag F.GWP_CTRL.EN then s.startLanes else s

/-- RETRAIN (R335, R338). -/
def doRetrain (s : State) : State := if s.flag F.GWP_CTRL.EN then s.gwLinkDown true else s

/-- EN of GWP_CTRL changes (R335, R338). -/
def State.gwEnable (en : Bool) (s : State) : State :=
  let was := s.flag F.GWP_CTRL.EN
  if en then
    let s := s.setFlag F.GWP_CTRL.EN
    if was then s else (s.modGwp (fun p => { p with tx := {}, amSeq := 0 })).startLanes
  else if was then (s.gwLinkDown true).setFlag F.GWP_CTRL.EN false
  else s

/-- LINK_TIMEOUT (R336). -/
def doLinkTimeout (s : State) : State :=
  if s.flag F.GWP_CTRL.EN ∧ ¬ s.flag F.GWP_STAT.LINK_UP then (s.setFlag F.GWP_STAT.TMO).raise 28 1 else s

def execGwPllLock (s : State) : Host.Outcome State Fault Refusal := .next (doGwPllLock s)
def execRetrain (s : State) : Host.Outcome State Fault Refusal := .next (doRetrain s)
def execGwDisable (en : Bool) (s : State) : Host.Outcome State Fault Refusal := .next (s.gwEnable en)
def execLinkTimeout (s : State) : Host.Outcome State Fault Refusal := .next (doLinkTimeout s)

end Sys2Proof.Machine
end

