-- ==== Sys2Proof/Machine/Links.lean ====
section
/-!
DEFINITION. Machine/Links.lean: RUN and the link of an ingress port (R125, R495).
-/
namespace Sys2Proof.Machine

/-- RUN of ingress port `p` changes (R125): 0 holds the link down and ends the open frames, with no LINK_LOST and no fault; D-PHY
reception begins at once when RUN goes to 1. -/
def State.portRun (p : Nat) (run : Bool) (s : State) : State :=
  let was := s.flag F.ING_PORT_CTRL.RUN p
  let s := s.setFlag F.ING_PORT_CTRL.RUN run p
  if was ∧ ¬ run then
    if p < 28 then (s.ingDown p false).tunDown p else s.ingDown p false
  else if run ∧ 28 ≤ p then s.setFlag F.ING_PORT_STAT.LINK_UP true p
  else s

/-- The link of a running port is lost (R114, R125); `part` is the line in progress, as far as it has come. -/
def doAphyLinkDown (p : Nat) (part : Option LongPacket) (s : State) : State :=
  if s.flag F.ING_PORT_CTRL.RUN p ∧ s.flag F.ING_PORT_STAT.LINK_UP p then
    ((s.cutLine p part).ingDown p true).when (decide (p < 28)) (·.tunDown p)
  else s

def execPortRun (port : Fin 30) (run : Bool) (s : State) : Host.Outcome State Fault Refusal := .next (s.portRun port run)
def execAphyLinkDown (port : Fin 30) (part : Option LongPacket) (s : State) : Host.Outcome State Fault Refusal :=
  .next (doAphyLinkDown port part s)

end Sys2Proof.Machine
end

