-- ==== Sys2Proof/Machine/Lupin.lean ====
section
/-!
DEFINITION. Machine/Lupin.lean: the recorder's buffer, its freeze and its copy in flash (R543 to R548).
-/
namespace Sys2Proof.Machine

/-- The 32 bytes of a record (R544). -/
def LupRec.bytes (r : LupRec) : List Byte :=
  let b := fun (chk : Nat) =>
    leBytes 4 r.seq
    ++ leBytes 4 (r.kind <<< 24 + (r.source % 64) <<< 18 + (r.sev % 4) <<< 16 + (r.at_.raster % 8) <<< 13 + (r.boot % 32) <<< 8 + chk)
    ++ leBytes 4 r.at_.frame ++ leBytes 4 ((r.at_.line % 2 ^ 16) <<< 16 + (r.at_.frac % 256) <<< 8) ++ leBytes 8 r.at_.tod
    ++ leBytes 4 r.arg0 ++ leBytes 4 r.arg1
  b (crc8 (b 0))

/-- Record in slot `i` of the buffer; an empty slot reads as zeros (DESIGN CHOICE). -/
def State.lupSlot (s : State) (i : Nat) : List Byte :=
  match s.lup.buf.get i with
  | some r => r.bytes
  | none => List.replicate 32 0

/-- The buffer holds a SAFE_ENTRY record. -/
def State.lupSafe (s : State) : Bool :=
  s.lup.buf.keys.any (fun k => match s.lup.buf.get k with
    | some r => r.kind == 2
    | none => false)

/-- Records of the buffer in order of SEQ, oldest first. -/
def State.lupOrder (s : State) : List LupRec :=
  let n := s.fld F.LUP_SEQ.NEXT
  let c := s.fld F.LUP_STAT.COUNT
  (List.range c).filterMap (fun i => s.lup.buf.get (subMod (2 ^ 32) (n + i) c % 4096))

/-- LUPIN_RECORD_WRITE (R543): the oldest queued record goes into its slot. A frozen recorder writes nothing (R546). -/
def doLupinRecordWrite (s : State) : State :=
  if s.flag F.LUP_STAT.FROZEN ∨ s.sysStopped then s
  else match s.lup.queue with
    | [] => s
    | r :: q => (s.modLup (fun l => { l with queue := q })).lupWrite r

/-- FREEZE (R546). -/
def doFreeze (s : State) : State :=
  (s.setFlag F.LUP_STAT.UNSAVED (s.flag F.LUP_STAT.UNSAVED || s.lupSafe)).setFlag F.LUP_STAT.FROZEN

/-- The buffer is emptied and unfrozen. -/
def State.lupEmpty (s : State) : State :=
  ((s.modLup (fun l => { l with buf := {} })).setFld F.LUP_STAT.COUNT 0).setFlag F.LUP_STAT.FROZEN false

/-- CLEAR (R546). -/
def doClear (s : State) : State :=
  if s.fcl.safe ∨ s.flag F.LUP_STAT.UNSAVED then s.setFlag F.LUP_STAT.REFUSED else s.lupEmpty

/-- The buffer has been saved or given up: it is emptied and unfrozen, and takes the holding queue (R547). -/
def State.lupResume (s : State) : State :=
  let h := s.lup.hold
  let s := (s.setFlag F.LUP_STAT.UNSAVED false).lupEmpty
  (s.modLup (fun l => { l with hold := [], holding := false })).each h (fun r s => s.lupWrite r)

/-- RELEASE (R546): UNSAVED clears without a save. After a copy that failed, it ends the freeze as the save would have (R547, DEDUCED);
in the safe state the buffer stays frozen. -/
def doRelease (s : State) : State :=
  if s.flag F.LUP_STAT.SAVE_FAIL ∧ s.lup.holding ∧ ¬ s.fcl.safe then s.lupResume else s.setFlag F.LUP_STAT.UNSAVED false

/-- LUP_MARK (R545, R561). -/
def doLupMark (path : Path) (v : Nat) (s : State) : State := s.lupSubmit 0x50 0 0 v (pathCode path)

/-- Header of a dump slot (R548). -/
def State.dumpHeader (s : State) (recs : List LupRec) : List Byte :=
  let last := (recs.getLast?.map (·.seq)).getD 0
  let h := leBytes 4 0x4C555044 ++ leBytes 4 1 ++ leBytes 4 (s.rd .CHIP_ID) ++ leBytes 4 (s.fld F.SEC_BOOT_CNT.COUNT) ++ leBytes 4 last
    ++ leBytes 4 recs.length ++ leBytes 4 (s.rd .FCL_SAFE) ++ leBytes 4 (s.rd .FCL_STATUS_LO) ++ leBytes 4 (s.rd .FCL_STATUS_HI)
    ++ leBytes 4 (s.rd .FCL_FF0) ++ leBytes 4 (s.rd .FCL_FF1) ++ leBytes 4 (s.rd .FCL_FF2) ++ leBytes 4 (s.rd .FCL_FF3)
    ++ leBytes 4 (s.rd .FCL_FF4) ++ leBytes 4 (s.rd .FCL_FF5) ++ leBytes 4 (s.rd .FCL_COINC_LO) ++ leBytes 4 (s.rd .FCL_COINC_HI)
    ++ leBytes 4 (crc32c (recs.flatMap LupRec.bytes))
  h ++ leBytes 4 (crc32c h)

/-- A save is due: the buffer is frozen and unsaved in a boot that holds its records back (R547). -/
def State.saveOwed (s : State) : Bool := s.lup.holding && s.flag F.LUP_STAT.UNSAVED && !s.flag F.LUP_STAT.SAVE_FAIL

/-- LUPIN_SAVE (R547): firmware starts the copy, after the first display line of early view or in stage 0x0A. -/
def doLupinSave (s : State) : State :=
  if s.saveOwed ∧ s.lup.saving.isNone ∧ 8 ≤ s.fld F.SEC_BOOT_STAT.STAGE ∧ s.fld F.SEC_BOOT_STAT.STAGE ≤ 0x0A then
    s.modLup (fun l => { l with saving := some ((s.fld F.LUP_STAT.LAST_SLOT + 1) % 4) })
  else s

/-- LUPIN_SAVE_DONE (R547): the copy ends, or its program has failed twice; `corrected`: the memory words that its reads corrected
(R562). In the safe state the buffer stays frozen (R540, DEDUCED). -/
def doLupinSaveDone (ok : Bool) (corrected : Nat) (s : State) : State :=
  match s.lup.saving with
  | none => s
  | some k =>
    let s := s.addTo F.LUP_CNT.CORR corrected
    let recs := s.lupOrder
    let d : DumpSlot := { bootCount := s.fld F.SEC_BOOT_CNT.COUNT, lastSeq := (recs.getLast?.map (·.seq)).getD 0
                          header := s.dumpHeader recs, recs := recs }
    let s := s.modLup (fun l => { l with saving := none })
    if ok then
      let s := (s.modLup (fun l => { l with dump := l.dump.set k (some d) })).setFld F.LUP_STAT.LAST_SLOT k
      if s.fcl.safe then s else s.lupResume
    else s.setFlag F.LUP_STAT.SAVE_FAIL

/-- LAST_SLOT as the headers in flash give it (R548): the slot with the highest boot count, 3 when none is valid. -/
def State.lastDump (s : State) : Nat :=
  ((List.range 4).foldl (fun (t : Nat × Option Nat) k => match s.lup.dump.get k with
    | some d => if t.2.all (· < d.bootCount) then (k, some d.bootCount) else t
    | none => t) (3, none)).1

def execLupinRecordWrite (s : State) : Host.Outcome State Fault Refusal := .next (doLupinRecordWrite s)
def execFreeze (s : State) : Host.Outcome State Fault Refusal := .next (doFreeze s)
def execClear (s : State) : Host.Outcome State Fault Refusal := .next (doClear s)
def execRelease (s : State) : Host.Outcome State Fault Refusal := .next (doRelease s)
def execLupMark (path : Path) (value : BitVec 32) (s : State) : Host.Outcome State Fault Refusal := .next (doLupMark path value.toNat s)
def execLupinSave (s : State) : Host.Outcome State Fault Refusal := .next (doLupinSave s)
def execLupinSaveDone (ok : Bool) (corrected : BitVec 16) (s : State) : Host.Outcome State Fault Refusal :=
  .next (doLupinSaveDone ok corrected.toNat s)

end Sys2Proof.Machine
end

