-- ==== Sys2Proof/Machine/Sec.lean ====
section
/-!
DEFINITION. Machine/Sec.lean: the security operations (R583, R584, R588 to R591, R595) and the request for handover (R581, R592).
-/
namespace Sys2Proof.Machine

/-- CHIP_ID (R2). -/
def chipId : Nat := 0xDA0B4811

/-! Reports. -/

/-- `n` free words as bytes. FREE VALUE. -/
def State.freeBytes : Nat → State → List Byte × State
  | 0, s => ([], s)
  | n + 1, s =>
    let r := State.freeBytes n s.draw
    (leBytes 8 s.free ++ r.1, r.2)

/-- Power state of Korlet (R565). -/
def State.powerState (s : State) : Nat :=
  if ¬ s.sec.pwrGood then 0
  else if s.fcl.safe then 4
  else match s.bootStage with
    | 8 => 2
    | 9 | 0x0A => 3
    | 0 => 0
    | _ => 1

/-- Store of a bank, when the bank is VALID. -/
def State.validBank (s : State) (b : Nat) : List Byte := if s.flag F.MGD_BANK_STAT.VALID b then s.mgd.banks.get b else []

/-- Entry of an attestation report for an envelope: an empty one for none (R589). -/
def reportEntry (e : List Byte) : List Byte :=
  if e = [] then padTo 80 []
  else leBytes 4 (envType e) ++ leBytes 1 (envKey e) ++ leBytes 1 (envCtrIdx e) ++ leBytes 2 0 ++ leBytes 4 (envCtrVal e)
    ++ leBytes 4 (envVersion e) ++ sha3 (bytesAt e 0 256)

/-- State word of a report, bytes 156 to 159 (R589). -/
def State.reportFlags (s : State) : Nat :=
  b2n s.fcl.safe + b2n (s.flag F.FIJ_STAT.UNLOCKED) <<< 1 + s.fld F.SEC_UNLOCK.SCOPE <<< 2 + s.powerState <<< 8
    + b2n (s.flag F.FCL_CTRL.LOCK) <<< 11 + b2n (s.flag F.SEC_BOOT_STAT.POLICY) <<< 12

/-- Attestation report before its signature (R589); `otp` is the hash over the OTP state, whose message the manual does not
give. -/
def State.reportBody (s : State) (otp : List Byte) : List Byte :=
  leBytes 4 0x41545354 ++ leBytes 2 1 ++ leBytes 2 6 ++ leBytes 4 640 ++ leBytes 4 chipId
    ++ (List.range 16).flatMap (fun i => leBytes 4 (s.rd .SEC_ATT_NONCE i)) ++ deviceHash ++ leBytes 8 s.time.tod
    ++ leBytes 4 (s.fld F.SEC_BOOT_CNT.COUNT) ++ leBytes 4 s.reportFlags
    ++ reportEntry (s.sec.env.get 1) ++ reportEntry (s.sec.env.get 2) ++ reportEntry (s.validBank 0) ++ reportEntry (s.validBank 1)
    ++ (leBytes 4 0x10 ++ padTo 12 [] ++ padTo 64 otp) ++ reportEntry (s.sec.env.get 4)

/-- Bytes enter SEC_BUF at an offset; the rest stays. -/
def State.putSecBuf (a : Nat) (b : List Byte) (s : State) : State :=
  s.modSec (fun c => { c with buf := putBytes (padTo 12288 c.buf) a b })

/-! The operations. -/

/-- An operation starts: not while another one runs (R595). DESIGN CHOICE: a reserved OP starts nothing. -/
def doSecOp (op : Nat) (s : State) : State :=
  if s.flag F.SEC_OP_STAT.BUSY ∨ op = 0 ∨ 5 < op then s
  else ((s.setFld F.SEC_OP_CTRL.OP op).setFlag F.SEC_OP_STAT.BUSY).modSec (fun c => { c with op := op })

/-- ATTEST: the signed report enters SEC_BUF (R588, R589). -/
def State.secAttest (s : State) : Nat × State :=
  let h := s.freeBytes 8
  let b := s.reportBody h.1
  (0, h.2.putSecBuf 0 (b ++ padTo 4627 (Config.sign b)))

/-- The envelope that an operation takes from SEC_BUF, with a payload of `n` bytes. -/
def State.secInput (s : State) (n : Nat) : List Byte := bytesAt s.sec.buf 0 (8192 + n)

/-- UNLOCK (R590, R591). A token of another boot does not apply; the manual gives no result code for it: a free value. -/
def State.secUnlock (s : State) (sig : Bool) : Nat × State :=
  let b := s.secInput 64
  let r := s.envCheck 4 b sig
  let p := envPayload b
  let scope := leAt p 0 4
  if r ≠ 0 then (r, s)
  else if ¬ (bytesAt p 8 56).all (· == 0) then (1, s)
  else if leAt p 4 4 ≠ s.fld F.SEC_BOOT_NONCE.NONCE then (s.free % 16, s.draw)
  else if (if envKey b = 0 then 32 else 8) ≤ scope then (7, s)
  else
    let s := (s.setFld F.SEC_UNLOCK.SCOPE (s.fld F.SEC_UNLOCK.SCOPE ||| scope)).modSec (fun c => { c with env := c.env.set 4 b })
    (0, s.when (bit scope 0) (fun s => (s.setFlag F.FIJ_STAT.UNLOCKED).lupSubmit 0x41 0 0 0 0))

/-- SEC_KEY_STAT shows the key slots (R597). -/
def State.showKeys (s : State) : State :=
  s.wr .SEC_KEY_STAT ((s.sec.revoked % 16) <<< 4 + ([1, 2, 3, 4].foldl (fun t k => t + b2n (s.slotValid k) <<< (k - 1)) 0))

/-- KEY_OP (R583). -/
def State.secKeyOp (s : State) (sig otp : Bool) : Nat × State :=
  let b := s.secInput 68
  let r := s.envCheck 6 b sig
  let p := envPayload b
  let op := leAt p 0 1
  let k := leAt p 1 1
  if r ≠ 0 then (r, s)
  else if leAt p 2 2 ≠ 0 then (1, s)
  else if k < 1 ∨ 4 < k ∨ envKey b = k then (10, s)
  else if op = 1 then
    if s.slotValid k then (10, s)
    else if ¬ otp then (9, s)
    else (0, (s.modSec (fun c => { c with slots := c.slots.set k (bytesAt p 4 64) })).showKeys)
  else if op = 2 then
    if ¬ [1, 2, 3, 4].any (fun j => j != k && s.slotValid j && !s.slotRevoked j) then (10, s)
    else if ¬ otp then (9, s)
    else (0, (s.modSec (fun c => { c with revoked := c.revoked ||| 1 <<< (k - 1) })).showKeys)
  else (10, s)

/-- CERT: the certificate of the flash enters SEC_BUF (R588). The manual gives no result for a flash without one: a free value. -/
def State.secCert (s : State) : Nat × State :=
  match s.sec.env.get 5 with
  | [] => (s.free % 16, s.draw)
  | c => (0, s.putSecBuf 0 (padTo 10808 c))

/-- SEC_ARB shows the counters (R598). -/
def State.showArb (s : State) : State :=
  s.each (List.range 16) (fun j s => s.wr .SEC_ARB
    ((List.range 4).foldl (fun t n => t + (s.sec.arb.get (4 * j + n) % 64) <<< (8 * n)) 0) j)

/-- ARB_COMMIT (R584). -/
def State.secArb (s : State) (otp : Bool) : Nat × State :=
  if ¬ otp then (9, s)
  else
    let used := [s.sec.env.get 1, s.sec.env.get 2, s.validBank 0, s.validBank 1].filter (· != [])
    (0, (s.modSec (fun c => { c with
      arb := used.foldl (fun t e => t.upd (envCtrIdx e % 64) (max (envCtrVal e % 64))) c.arb })).showArb)

/-- The running operation ends (R595). Without an identity, attestation, unlocks and key operations are refused (R585). `sig` is the
outcome of the signature check, `otp` of the OTP programming. -/
def doSecOpDone (sig otp : Bool) (s : State) : State :=
  if ¬ s.flag F.SEC_OP_STAT.BUSY then s
  else
    let r : Nat × State :=
      if s.sec.op ≤ 3 ∧ ¬ s.flag F.SEC_BOOT_STAT.ID_OK then (8, s)
      else match s.sec.op with
        | 1 => s.secAttest
        | 2 => s.secUnlock sig
        | 3 => s.secKeyOp sig otp
        | 4 => s.secCert
        | _ => s.secArb otp
    ((r.2.setFlag F.SEC_OP_STAT.BUSY false).setFlag F.SEC_OP_STAT.DONE).setFld F.SEC_OP_STAT.RESULT r.1

/-- A write of SEC_CTRL.HANDOVER (R581): before stage 0x08 or 0x0A it waits; after it, another one is ignored. -/
def doHandover (s : State) : State :=
  if s.bootStage = 9 then s
  else if s.bootStage = 8 ∨ s.bootStage = 0x0A then s.handOver
  else s.modSec (fun c => { c with handover := true })

def execHandover (s : State) : Host.Outcome State Fault Refusal := .next (doHandover s)
def execAttest (s : State) : Host.Outcome State Fault Refusal := .next (doSecOp 1 s)
def execUnlock (s : State) : Host.Outcome State Fault Refusal := .next (doSecOp 2 s)
def execKeyOp (s : State) : Host.Outcome State Fault Refusal := .next (doSecOp 3 s)
def execCert (s : State) : Host.Outcome State Fault Refusal := .next (doSecOp 4 s)
def execArbCommit (s : State) : Host.Outcome State Fault Refusal := .next (doSecOp 5 s)
def execSecOpDone (sigOk otpOk : Bool) (s : State) : Host.Outcome State Fault Refusal := .next (doSecOpDone sigOk otpOk s)

end Sys2Proof.Machine
end

