-- ==== Sys2Proof/Machine/Smb1.lean ====
section
/-!
DEFINITION. Machine/Smb1.lean: the SMB[1] controller (R519 to R521, R525 to R528): one transfer on the bus, firmware's waiting ones before
the register engine's.
-/
namespace Sys2Proof.Machine

def State.modSmb (f : Smb → Smb) (s : State) : State := { s with smb := f s.smb }

/-- Start the next waiting transfer: firmware's first. -/
def State.smb1Next (s : State) : State :=
  match s.smb.job with
  | some _ => s
  | none =>
    if s.smb.fwWait ≠ 0 then s.modSmb (fun b => { b with job := some { firmware := true, attempts := 1 }, fwWait := b.fwWait - 1 })
    else if s.smb.regWait then s.modSmb (fun b => { b with job := some { attempts := 1 }, regWait := false })
    else s

/-- SMB1_TRANSFER (R526): GO of the register engine, ignored while its last transfer goes on, or a request of firmware. While EN = 0,
SMB[1] starts none (DESIGN CHOICE). -/
def doSmb1Transfer (firmware : Bool) (s : State) : State :=
  if ¬ s.flag F.SMB1_CTRL.EN then s
  else if firmware then (s.modSmb (fun b => { b with fwWait := b.fwWait + 1 })).smb1Next
  else if s.flag F.SMB1_STAT.BUSY then s
  else ((s.setFlag F.SMB1_STAT.BUSY).modSmb (fun b => { b with regWait := true })).smb1Next

/-- Store read bytes in SMB1_DATA (R527). -/
def State.smb1Data (d : List Byte) (s : State) : State :=
  let old := (List.range 4).flatMap (fun i => leBytes 4 (s.rd .SMB1_DATA i))
  let new := putBytes old 0 d
  s.each (List.range 4) (fun i s => s.wr .SMB1_DATA (leAt new (4 * i) 4) i)

/-- The transfer on the bus ends with a result (R520, R521, R528). A failure raises the fault source and alert cause 5. -/
def State.smb1End (j : Smb1Job) (res : Nat) (data : List Byte) (s : State) : State :=
  let s := (s.pmuAdd 0x287 0).modSmb (fun b => { b with job := none, lost := false })
  let s := s.when (res == 1) (·.count F.SMB1_CNT.NACK)
  let s := if j.firmware then s
    else
      let s := s.when (res == 0 && s.flag F.SMB1_XFER.DIR) (·.smb1Data (padTo (min 16 (s.fld F.SMB1_XFER.LEN)) data))
      (((s.setFlag F.SMB1_STAT.BUSY false).setFlag F.SMB1_STAT.DONE).setFld F.SMB1_STAT.RESULT res).setFld F.SMB1_STAT.ATTEMPTS j.attempts
  (s.when (res != 0) (fun s => (s.alert 5).raise 36 res)).smb1Next

/-- SMB1_TRANSFER_DONE: a result of R528; ARB_LOST is the loss of one attempt, retried up to RETRY times (R520). -/
def doSmb1TransferDone (res : Nat) (data : List Byte) (s : State) : State :=
  match s.smb.job with
  | none => s
  | some j =>
    if s.smb.lost ∨ 4 < res then s
    else if res = 2 then
      let s := s.count F.SMB1_CNT.ARB_LOST
      if j.attempts ≤ s.fld F.SMB1_CTRL.RETRY then s.modSmb (fun b => { b with lost := true }) else s.smb1End j 2 []
    else s.smb1End j res data

/-- SMB1_RETRY (R520): the bus is free again and the next attempt starts. -/
def doSmb1Retry (s : State) : State :=
  match s.smb.job with
  | some j => if s.smb.lost then s.modSmb (fun b => { b with job := some { j with attempts := j.attempts + 1 }, lost := false }) else s
  | none => s

/-- SMB1_TIMEOUT (R521): SCL held low ends the transfer; SDA held low before a start clears the bus, and ends it only if SDA stays
low. -/
def doSmb1Timeout (sdaHeld cleared : Bool) (s : State) : State :=
  match s.smb.job with
  | none => s
  | some j =>
    if sdaHeld then
      let s := s.setFlag F.SMB1_STAT.BUS_CLEAR
      if cleared then s else s.smb1End j 3 []
    else if s.flag F.SMB1_CTRL.TMO_EN then s.smb1End j 3 [] else s

def execSmb1Transfer (firmware : Bool) (s : State) : Host.Outcome State Fault Refusal := .next (doSmb1Transfer firmware s)
def execSmb1Retry (s : State) : Host.Outcome State Fault Refusal := .next (doSmb1Retry s)
def execSmb1TransferDone (result : BitVec 3) (data : List Byte) (s : State) : Host.Outcome State Fault Refusal :=
  .next (doSmb1TransferDone result.toNat data s)
def execSmb1Timeout (sdaHeld cleared : Bool) (s : State) : Host.Outcome State Fault Refusal := .next (doSmb1Timeout sdaHeld cleared s)

end Sys2Proof.Machine
end

