-- ==== Sys2Proof/Machine/Bus.lean ====
section
/-!
DEFINITION. Machine/Bus.lean: the register file as the three paths meet it (R32, R630 to R636): what a read of a register returns, the
buffers of R635, and what a write does beyond its fields.
-/
namespace Sys2Proof.Machine

/-! Reads of registers. -/

/-- A value placed at a field. -/
def Fld.place (f : Fld) (v : Nat) : Nat := (min f.max v) <<< f.lo

/-- A field's present value where it stands in its register. -/
def State.keep (s : State) (f : Fld) (i j : Nat) : Nat := f.place (s.fld f i j)

/-- Credits that Korlet may still consume in class `c` (R377). -/
def State.credWord (s : State) (c : Nat) : Nat :=
  let l := s.gwl.limit.get c
  let u := s.gwl.used.get c
  F.GWL_CRED.HDR.place (if l.hdrUnl then 0xFFF else l.hdr - u.hdr) + F.GWL_CRED.DATA.place (if l.dataUnl then 0xFFFFF else l.data - u.data)

/-- BLM_STAT of bloom `b` (R218). -/
def State.blmStat (s : State) (b : Nat) : Nat :=
  let x := s.blm.get b
  F.BLM_STAT.IDLE.place (b2n (s.idleBloom b)) + F.BLM_STAT.HALTED.place (b2n (s.flag F.BLM_CTRL.HALT b && x.running == []))
    + F.BLM_STAT.QUEUED.place x.queued.length + F.BLM_STAT.FAST_PEND.place x.fast.length + F.BLM_STAT.RUNNING.place x.running.length

/-- A balance in whole tokens (R623). -/
def wholeTokens (v : Int) : Int := v / 256

/-- What a read of a register returns (R8): write-only fields read 0, live fields follow their condition, HI registers of R90, R95 and
R627 read their latch. -/
def State.viewReg (s : State) (k : RegKind) (i j : Nat) : Nat :=
  let w := s.rd k i j
  match k with
  | .RAS_TOD_LO => s.time.tod % 2 ^ 32
  | .RAS_TOD_HI => s.time.todLatch
  | .RAS_POS =>
    let r := s.ras.get i
    r.line <<< 16 + s.frac i <<< 8 + b2n r.running <<< 7 + s.keep F.RAS_POS.PH_LOCK i j + s.keep F.RAS_POS.JUMPED i j
  | .RAS_FRAME => (s.ras.get i).latch
  | .POOL_OVF_USE => s.keep F.POOL_OVF_USE.PEAK i j + F.POOL_OVF_USE.IN_USE.place (s.ovfUse i)
  | .POOL_RESV_STAT => F.POOL_RESV_STAT.OVF.place (s.streamOvf i) + F.POOL_RESV_STAT.IN_USE.place (s.resvUse .raw i)
  | .POOL_PRD_RESV =>
    let p := s.product i
    F.POOL_PRD_RESV.GRANTED.place (s.granted i)
      + F.POOL_PRD_RESV.IN_USE.place (s.resvUse .product i + (if s.prdSt i != 0 && p.areaPool then areaGrant p.tblMax else 0))
  | .BLM_STAT => s.blmStat i
  | .GWP_STAT => putBits w F.GWP_STAT.REFCLK_OK.hi F.GWP_STAT.REFCLK_OK.lo (b2n s.refclkOk)
  | .GWL_CRED => s.credWord i
  | .HQE_STAT =>
    s.keep F.HQE_STAT.RUNNING i j + s.keep F.HQE_STAT.CTX_HBM i j + s.keep F.HQE_STAT.DBQ_FULL i j
      + F.HQE_STAT.CACHED.place s.hqe.cache.length
      + F.HQE_STAT.PINNED.place s.pinned.length
  | .MGD_TT_STAT =>
    s.keep F.MGD_TT_STAT.EFF i j + s.keep F.MGD_TT_STAT.SHOWN i j + s.keep F.MGD_TT_STAT.LAST i j + s.keep F.MGD_TT_STAT.CONSEC i j
      + F.MGD_TT_STAT.STALE.place (b2n (s.ttEff i).2) + F.MGD_TT_STAT.IN.place (s.ttIn i)
      + F.MGD_TT_STAT.IN_VALID.place (b2n (s.ttValid i))
  | .VBR_STAT =>
    s.keep F.VBR_STAT.LVT_OFF i j + F.VBR_STAT.STALE_ANY.place (b2n s.staleAny)
      + F.VBR_STAT.OPEN_READS.place s.vbr.reads.keys.length
      + F.VBR_STAT.PARKED.place (s.vbr.park.keys.filter (fun q => match s.vbr.park.get q with
          | some r => bit (leAt r.bytes 0 4) 31
          | none => false)).length
  | .SMB0_CTRL => putBits w F.SMB0_CTRL.ADDR.hi F.SMB0_CTRL.ADDR.lo (0x58 + s.sec.smbAddr)
  | .FCL_LIVE_LO => s.liveWord false
  | .FCL_LIVE_HI => s.liveWord true
  | .LUP_STAT => putBits w F.LUP_STAT.HOLD.hi F.LUP_STAT.HOLD.lo s.lup.hold.length
  | .EGV_STAT =>
    s.keep F.EGV_STAT.LEVEL i j + s.keep F.EGV_STAT.EFF_MW i j + F.EGV_STAT.DEBT.place (b2n (s.liveNow 12)) + F.EGV_STAT.DERATE.place (b2n (s.derate != 0))
      + F.EGV_STAT.CMD.place (b2n s.egv.cmd.isSome)
  | .EGV_BAL =>
    let x := s.blm.get i
    F.EGV_BAL.RESV.place (unsigned 16 (clampI (-32768) 32767 (wholeTokens x.resv)))
      + F.EGV_BAL.GEN.place (clampI 0 65535 (wholeTokens x.gen)).toNat
  | .PMU_CYC_LO => s.pmu.cyc % 2 ^ 32
  | .PMU_CYC_HI | .PMU_CTR_HI | .PMU_SNAP_CYC_HI | .PMU_SNAP_HI => s.hiLatch.get (k.off i j)
  | _ => k.fields.foldl (fun t f => match f.acc with
      | .wo => putBits t f.hi f.lo 0
      | _ => t) w

/-- What a read does (R90, R95, R627): a LO register latches its HI register; reading a live word settles the monitors' recoveries. -/
def State.readActs (k : RegKind) (i j : Nat) (s : State) : State :=
  let latch := fun (h : RegKind) (v : Nat) => { s with hiLatch := s.hiLatch.set (h.off i j) v }
  match k with
  | .RAS_POS => s.latchFrame i
  | .RAS_TOD_LO => s.latchTod
  | .PMU_CYC_LO => latch .PMU_CYC_HI (s.pmu.cyc / 2 ^ 32 % 2 ^ 32)
  | .PMU_CTR_LO => latch .PMU_CTR_HI (s.rd .PMU_CTR_HI i j)
  | .PMU_SNAP_CYC_LO => latch .PMU_SNAP_CYC_HI (s.rd .PMU_SNAP_CYC_HI i j)
  | .PMU_SNAP_LO => latch .PMU_SNAP_HI (s.rd .PMU_SNAP_HI i j)
  | .FCL_LIVE_LO | .FCL_LIVE_HI => s.settleMonitors
  | _ => s

/-- A read of the register at a byte offset; an unmapped offset has none. -/
def State.readWord (s : State) (off : Nat) : Option (Nat × State) :=
  match findReg off with
  | some r => let s := s.readActs r.kind r.i r.j
              some (s.viewReg r.kind r.i r.j, s)
  | none => none

/-! Buffers (R635). -/

/-- Base and size of each buffer. -/
def bufParks : Nat × Nat := (0x20F0000, 0x1000)
def bufLupin : Nat × Nat := (0x2210000, 0x20000)
def bufIdentity : Nat × Nat := (0x2301000, 128)
def bufSec : Nat × Nat := (0x2304000, 12288)
def bufSampler : Nat × Nat := (0x2410000, 0x8000)

/-- An offset lies in a buffer. -/
def inBuf (b : Nat × Nat) (a : Nat) : Bool := b.1 ≤ a && a < b.1 + b.2

/-- The buffer that an offset lies in. -/
def bufAt (a : Nat) : Option (Nat × Nat) := [bufParks, bufLupin, bufIdentity, bufSec, bufSampler].find? (fun b => inBuf b a)

/-- Doorbell pages, display host apertures. -/
def inDoorbells (a : Nat) : Bool := 0x1800000 ≤ a && a < 0x1840000
def inApertures (a : Nat) : Bool := 0x1E00000 ≤ a && a < 0x1F00000

/-- The identity record (R587). -/
def State.identityRecord (s : State) : List Byte :=
  leBytes 4 chipId ++ leBytes 1 (b2n (s.flag F.SEC_BOOT_STAT.ORDER)) ++ leBytes 3 0 ++ leBytes 4 (envVersion (s.sec.env.get 1))
    ++ leBytes 4 (envVersion (s.sec.env.get 2)) ++ leBytes 4 (s.fld F.SEC_BOOT_CNT.COUNT)
    ++ leBytes 4 (b2n (s.flag F.SEC_BOOT_STAT.ID_OK) + b2n (s.flag F.SEC_BOOT_STAT.CERT_OK) <<< 1) ++ leBytes 8 0
    ++ (if s.flag F.SEC_BOOT_STAT.ID_OK then deviceHash else padTo 64 []) ++ padTo 11 Config.diePosition ++ leBytes 21 0

/-- `n` bytes at offset `o` of a buffer of equal records. -/
def recordBytes (size : Nat) (rec_ : Nat → List Byte) (o n : Nat) : List Byte :=
  bytesAt ((List.range (o % size + n + size - 1)).filterMap (fun t => if t % size = 0 then some (o / size + t / size) else none)
    |>.flatMap (fun k => padTo size (rec_ k))) (o % size) n

/-- `n` bytes of the buffer at `a`. -/
def State.readBuf (s : State) (a n : Nat) : List Byte :=
  if inBuf bufParks a then
    recordBytes 128 (fun k => match s.vbr.park.get k with
      | some r => r.bytes
      | none => []) (a - bufParks.1) n
  else if inBuf bufLupin a then recordBytes 32 s.lupSlot (a - bufLupin.1) n
  else if inBuf bufIdentity a then bytesAt s.identityRecord (a - bufIdentity.1) n
  else if inBuf bufSec a then (if s.flag F.SEC_OP_STAT.BUSY then padTo n [] else bytesAt s.sec.buf (a - bufSec.1) n)
  else recordBytes 32 (fun k => s.pmu.samples.getD k []) (a - bufSampler.1) n

/-- A write into a buffer (R635): SEC_BUF takes bytes while no operation runs, a park record is freed by 0 in its bytes 0 to 3; the others
take no write. -/
def State.writeBuf (a : Nat) (b : List Byte) (s : State) : State :=
  if inBuf bufSec a then (if s.flag F.SEC_OP_STAT.BUSY then s else s.putSecBuf (a - bufSec.1) b)
  else if inBuf bufParks a then
    s.each (List.range (b.length / 4)) (fun t s =>
      let o := a - bufParks.1 + 4 * t
      if o % 128 = 0 ∧ leAt b (4 * t) 4 = 0 then doParkRecordFree (o / 128) s else s)
  else s

/-! Writes of registers. -/

/-- A write with one control field left as it is: the control acts by itself. -/
def State.writeHeld (s : State) (path : Path) (k : RegKind) (i j v : Nat) (f : Fld) : State :=
  s.writeFields path k i j (putBits v f.hi f.lo (s.fld f i j))

/-- Value that a write gives a one-bit field. -/
def Fld.on (f : Fld) (v : Nat) : Bool := bit v f.lo

/-- INJECTOR_ARM (R551, R564): ARM = 1 arms, and fires at once without AT_EN; ARM = 0 disarms. ARM = 1 is ignored while injection is
locked, and in the safe state, in which injection stays disarmed (R540). -/
def State.armInjector (i : Nat) (on : Bool) (s : State) : State :=
  if on then
    if s.fcl.safe ∨ ¬ s.flag F.FIJ_STAT.UNLOCKED ∨ s.flag F.FIJ_CTRL.ARM i then s
    else
      let s := (s.setFlag F.FIJ_CTRL.ARM true i).setFld F.FIJ_STAT.ARMED (s.fld F.FIJ_STAT.ARMED ||| 1 <<< i)
      s.when (!s.flag F.FIJ_TRIG.AT_EN i) (·.injStart i)
  else
    ((s.setFlag F.FIJ_CTRL.ARM false i).setFld F.FIJ_STAT.ARMED (putBits (s.fld F.FIJ_STAT.ARMED) i i 0)).modFcl (fun f =>
      { f with fij := f.fij.upd i (fun x => { x with firing := false, left := 0, gap := 0, cut := x.held != [] }) })

/-- EN of the sync unit has gone to 0 (R59): the master raster runs free as after a loss of sync. -/
def State.syncOff (s : State) : State :=
  (s.setFlag F.CFG_SYNC_STAT.LOCKED false).modCfg (fun c => { c with syncMiss := 0, syncGood := false })

/-- A write of `v` to a register instance: its fields (R8, R9), and the actions that the register's rules name. -/
def State.writeReg (s : State) (path : Path) (k : RegKind) (i j v : Nat) : State :=
  let plain := fun (s : State) => s.writeFields path k i j v
  match k with
  | .CFG_COMMIT =>
    let s := s.each (oneBits 8 (bits v 15 8)) State.discardOpen
    s.each (oneBits 8 (bits v 7 0)) State.commitRequest
  | .CFG_SYNC_CTRL =>
    let was := s.flag F.CFG_SYNC_CTRL.EN
    let s := plain s
    s.when (was && !s.flag F.CFG_SYNC_CTRL.EN) State.syncOff
  | .CFG_TARGET => (plain s).modCfg (fun c => { c with stg := c.stg.upd i (·.map (fun q => if q.passed then { q with tgtWritten := true } else q)) })
  | .CFG_REJECT => (plain s).when (F.CFG_REJECT.REJECTED.on v) (·.setFld F.CFG_STATE.REJ_CNT 0 i)
  | .RAS_TOD_SET_LO => s.modTime (fun t => { t with setLo := v })
  | .RAS_TOD_SET_HI => s.loadTod v
  | .RAS_MASTER | .ING_MAP | .BLM_TF_CTRL =>
    let was := s.flag F.BLM_TF_CTRL.RUN
    let s := plain s
    let s := s.when (k == .BLM_TF_CTRL && was && !s.flag F.BLM_TF_CTRL.RUN && s.products.any (fun p => s.prdSt p != 0))
      (·.setFlag F.BLM_TF_CTRL.RUN)
    s.showResources
  | .RAS_CTRL =>
    let s := s.writeHeld path k i j v F.RAS_CTRL.RUN
    if F.RAS_CTRL.RUN.on v then doRasterStart i s else s.rasterStop i
  | .RAS_STRM_CFG =>
    let old := s.rd k i j
    let s := plain s
    let new := s.rd k i j
    let moved := [F.RAS_STRM_CFG.EN, F.RAS_STRM_CFG.TRIG_MODE, F.RAS_STRM_CFG.RASTER].any (fun f => bits old f.hi f.lo != bits new f.hi f.lo)
    (s.when moved (·.streamReset i)).showResources
  | .ING_PORT_CTRL => (s.writeHeld path k i j v F.ING_PORT_CTRL.RUN).portRun i (F.ING_PORT_CTRL.RUN.on v)
  | .BLM_CTRL => doBloomHalt i (F.BLM_CTRL.HALT.on v) (s.writeHeld path k i j v F.BLM_CTRL.HALT)
  | .BLM_HASH_PROBE => doHashProbe v s
  | .SEAL_ACC_CTRL => (plain s).when (F.SEAL_ACC_CTRL.GO.on v) State.sealAccess
  | .FST_CTRL => (plain s).when (path == .firmware) (·.setFld F.FST_CTRL.CASE_LIM (bits v 23 16))
  | .FST_PROBE_IN => doFstProbe v s
  | .GWP_CTRL =>
    let s := s.writeHeld path k i j v F.GWP_CTRL.EN
    let was := s.flag F.GWP_CTRL.EN
    let s := s.gwEnable (F.GWP_CTRL.EN.on v)
    s.when (was && F.GWP_CTRL.RETRAIN.on v) doRetrain
  | .HQE_CTRL =>
    let s := s.writeHeld path k i j v F.HQE_CTRL.EN
    let was := s.flag F.HQE_CTRL.EN
    let s := if F.HQE_CTRL.EN.on v then doHqeEnable s else s.when was State.hqeDisable
    s.when (F.HQE_CTRL.ADMIN_RESUME.on v) doAdminResume
  | .DEG_PORT_CTRL => (s.writeHeld path k i j v F.DEG_PORT_CTRL.RUN).displayRun i (F.DEG_PORT_CTRL.RUN.on v)
  | .VBR_CTRL =>
    let was := s.flag F.VBR_CTRL.EN
    let s := plain s
    s.when (!was && s.flag F.VBR_CTRL.EN) State.bridgeStart
  | .VBR_TBL_ACC => doTableRead v s
  | .VBR_CAN_CTRL =>
    let was := s.flag F.VBR_CAN_CTRL.EN i
    let s := plain s
    let s := s.when (was != s.flag F.VBR_CAN_CTRL.EN i) (·.canEnable i (!was))
    s.when (F.VBR_CAN_CTRL.RESTART.on v) (doRestart i)
  | .SMB1_XFER => (plain s).when (F.SMB1_XFER.GO.on v) (doSmb1Transfer false)
  | .FCL_CTRL =>
    let s := s.when (F.FCL_CTRL.LOCK.on v) doPolicyLock
    s.when (F.FCL_CTRL.FORCE_SAFE.on v) (doForceSafe path)
  | .FCL_STATUS_LO => doStatusClear false v s
  | .FCL_STATUS_HI => doStatusClear true v s
  | .FCL_FF0 => s.when (F.FCL_FF0.VALID.on v) doFirstFaultClear
  | .LUP_CTRL =>
    let s := s.when (F.LUP_CTRL.FREEZE.on v) doFreeze
    let s := s.when (F.LUP_CTRL.CLEAR.on v) doClear
    s.when (F.LUP_CTRL.RELEASE.on v) doRelease
  | .LUP_MARK => doLupMark path v s
  | .FIJ_CTRL => (s.writeHeld path k i j v F.FIJ_CTRL.ARM).armInjector i (F.FIJ_CTRL.ARM.on v)
  | .SEC_CTRL => s.when (F.SEC_CTRL.HANDOVER.on v) doHandover
  | .SEC_OP_CTRL => (plain s).when (F.SEC_OP_CTRL.GO.on v) (doSecOp (bits v 3 0))
  | .SEC_ATT_NONCE => if s.flag F.SEC_OP_STAT.BUSY then s else plain s
  | .EGV_THERM => (plain s).when (path == .firmware) (·.setFld F.EGV_THERM.TJ_MAX (bits v 31 24))
  | .PMU_CTRL =>
    let s := plain s
    s.when (F.PMU_CTRL.SNAP_NOW.on v) State.takeSnapshot
  | .PMU_SAMP_CTRL =>
    let was := s.flag F.PMU_SAMP_CTRL.EN
    let s := plain s
    s.when (!was && s.flag F.PMU_SAMP_CTRL.EN) (·.modPmu (fun p => { p with left := none }))
  | _ => plain s

/-- REGISTER_WRITE (R8, R32): a write to the register at a byte offset; an unmapped offset takes none. -/
def doRegisterWrite (path : Path) (off v : Nat) (s : State) : State :=
  match findReg off with
  | some r => s.writeReg path r.kind r.i r.j v
  | none => s

/-- LO_REGISTER_READ (R627): what the read of a LO register leaves behind. -/
def doLoRegisterRead (off : Nat) (s : State) : State :=
  match s.readWord off with
  | some r => r.2
  | none => s

def execLoRegisterRead (offset : BitVec 26) (s : State) : Host.Outcome State Fault Refusal := .next (doLoRegisterRead offset.toNat s)

end Sys2Proof.Machine
end

