-- ==== Sys2Proof/Machine/GwTxn.lean ====
section
/-!
DEFINITION. Machine/GwTxn.lean: what a transaction of the host does (R363, R367 to R369, R409, R412, R631, R635, R636): writes and reads
of the register window, and the messages.
-/
namespace Sys2Proof.Machine

/-- Domain `d` reaches offset `a` (R409, R636): its own doorbell page, its remote windows, and domain 0 every other register; a disabled
domain nothing. -/
def State.gwReach (s : State) (d a : Nat) : Bool :=
  if inDoorbells a then (a - 0x1800000) / 0x1000 == d && (d == 0 || (s.dom d).en)
  else d == 0 || ((s.dom d).en && inRemote a && s.reachRemote d ((a - 0x3000000) / 0x10000))

/-- An extent that keeps R363: length, one 4 KiB block, inside the window. -/
def extentOk (a n : Nat) : Bool := 1 ≤ n && n ≤ 4096 && a % 4096 + n ≤ 4096 && a < 0x4000000

/-- A register access that keeps R363: 4 or 8 bytes, aligned to its length. -/
def regAccess (a n : Nat) : Bool := (n == 4 || n == 8) && a % n == 0

/-- A buffer access that keeps R635. -/
def bufAccess (b : Nat × Nat) (a n : Nat) : Bool := n % 4 == 0 && a % 4 == 0 && a + n ≤ b.1 + b.2

/-- Every register word of an access is mapped (R631). -/
def wordsMapped (a n : Nat) : Bool := (List.range (n / 4)).all (fun k => (findReg (a + 4 * k)).isSome)

/-- The registers of an access are read in rising order (R631). -/
def State.readWords (a n : Nat) (s : State) : List Byte × State :=
  (List.range (n / 4)).foldl (fun (t : List Byte × State) k => match t.2.readWord (a + 4 * k) with
    | some r => (t.1 ++ leBytes 4 r.1, r.2)
    | none => t) ([], s)

/-- The registers of an access are written in rising order (R631). -/
def State.writeWords (a : Nat) (b : List Byte) (s : State) : State :=
  s.each (List.range (b.length / 4)) (fun k s => doRegisterWrite .geward (a + 4 * k) (leAt b (4 * k) 4) s)

/-- A read of the host (R363, R364, R387, R409, R631, R635, R636). Nothing answers while SYS is stopped. -/
def State.hostRead (t : HostTxn) (s : State) : State :=
  let a := t.addr.toNat
  let n := t.len.toNat
  if s.sysStopped then s
  else if ¬ s.gwReach t.dom.toNat a then s.answer t 3 []
  else if ¬ extentOk a n then s.answer t 2 []
  else if inRemote a then s.remoteRead t
  else if inDoorbells a then (if regAccess a n then s.answer t 0 (List.replicate n 0) else s.answer t 2 [])
  else match bufAt a with
    | some b => if bufAccess b a n then s.answer t 0 (s.readBuf a n) else s.answer t 2 []
    | none =>
      if regAccess a n ∧ wordsMapped a n then
        let r := s.readWords a n
        r.2.answer t 0 r.1
      else s.answer t 2 []

/-- A write of the host (R363, R387, R388, R409, R433, R631, R635, R636); `ch` and `cd` are its posted credits, returned when it has
been served (R174). -/
def State.hostWrite (t : HostTxn) (ch cd : Nat) (s : State) : State :=
  let a := t.addr.toNat
  let n := t.len.toNat
  let d := t.dom.toNat
  let b := padTo n t.data
  let back := fun (s : State) => s.when (ch != 0) (·.giveCredit 0 ch cd)
  if s.sysStopped then s
  else if inDoorbells a then
    let page := (a - 0x1800000) / 0x1000
    back (if n = 8 ∧ a % 8 = 0 then doDoorbell d page (leNat b) s else s.dbDiscard page)
  else if ¬ s.gwReach d a ∨ ¬ extentOk a n then back s.discardTxn
  else if inRemote a then s.remoteWrite t ch cd
  else if inApertures a then
    let p := (a - 0x1E00000) / 0x40000
    let o := (a - 0x1E00000) % 0x40000
    if o = 0 then s.hostHeader p ch cd b
    else if 0x10000 ≤ o then s.hostData p (o - 0x10000) ch cd b
    else back s.discardTxn
  else match bufAt a with
    | some q => back (if bufAccess q a n ∧ q.1 ≠ bufLupin.1 then s.writeBuf a b else s.discardTxn)
    | none => back (if regAccess a n ∧ wordsMapped a n then s.writeWords a b else s.discardTxn)

/-- MWR_RX. -/
def doMwrRx (t : HostTxn) (s : State) : State := s.hostWrite t 0 0

/-- MRD_RX. -/
def doMrdRx (t : HostTxn) (s : State) : State := s.hostRead t

/-- TIME (R368): the discipline loop measures; a message out of its place is ignored and counted. -/
def doTime (host : Nat) (placed : Bool) (s : State) : State :=
  if placed then s.timeMessage host else s.count F.GWL_CNT4.TIME_BAD

/-- Side effects of a notice that no ring claims on the writers that have no ring (R449, R486). -/
def State.ringlessFault (m : MwrRec) (s : State) : State :=
  match m.org.kind with
  | .proof => s.logFault
  | .lvt => s.lvtOff
  | _ => s

/-- The record of a notice is one of a ring (R412). -/
def MwrRec.ofRing (m : MwrRec) : Bool :=
  match m.org.kind with
  | .lineData | .lineRec | .pair | .copy | .cmdWrite => true
  | _ => false

/-- WRITE_FAULT (R369, R412): the record of the notice's TAG matches when it has its DOMAIN and holds ADDR; an unmatched notice is
counted, reported and logged. The DETAIL that the fault source then has is a FREE VALUE: R530 gives a ring's index, and there is none. -/
def doWriteFault (d tag cause addr : Nat) (s : State) : State :=
  let s := s.count F.GWL_CNT5.WF_RX
  let hit := s.hqe.mwrs.find? (fun (m : MwrRec) => m.tag == tag && m.dom == d && m.addr ≤ addr && addr < m.addr + m.len)
  match hit with
  | some m =>
    if m.ofRing then s.mwrFailed m 4 addr
    else lost (s.ringlessFault m)
  | none => lost s
where
  /-- The notice finds no ring. -/
  lost (s : State) : State :=
    let a0 := tag + d <<< 12
    let s := s.count F.GWL_CNT5.WF_UNMATCHED
    let s := s.lupSubmit 0x11 0 0 a0 addr
    let s := s.event 0 0x05 cause a0 (addr % 2 ^ 32) (addr / 2 ^ 32)
    s.draw.raise 29 (s.free % 2 ^ 32)

/-- A message of the host (R367): kinds that only Korlet sends, and kinds that R367 does not list, are discarded. -/
def State.hostMsg (t : HostTxn) (info : Nat) (placed : Bool) (s : State) : State :=
  match t.sub.toNat with
  | 0x02 => doDoorbell t.dom.toNat t.dom.toNat t.addr.toNat s
  | 0x03 => doTime t.addr.toNat placed s
  | 0x04 => doWriteFault t.dom.toNat t.tag.toNat (bits info 15 8) t.addr.toNat s
  | _ => s.discardTxn

def execMrdRx (txn : HostTxn) (s : State) : Host.Outcome State Fault Refusal := .next (doMrdRx txn s)
def execTime (hostTime : BitVec 64) (placed : Bool) (s : State) : Host.Outcome State Fault Refusal :=
  .next (doTime hostTime.toNat placed s)
def execWriteFault (dom : Fin 64) (tag : BitVec 10) (cause : BitVec 8) (addr : BitVec 64) (s : State) :
    Host.Outcome State Fault Refusal := .next (doWriteFault dom tag.toNat cause.toNat addr.toNat s)

end Sys2Proof.Machine
end

