-- ==== Sys2Proof/Machine/GwFrames.lean ====
section
/-!
DEFINITION. Machine/GwFrames.lean: the link layer of Geward (R345 to R361, R368, R370, R371): frames sent and received, sequence, replay,
credits, and the stream of transactions.
-/
namespace Sys2Proof.Machine

/-- The link layer is active (R353). -/
def State.gwActive (s : State) : Bool := s.flag F.GWL_STAT.ACTIVE

/-- The receive lane that carries logical lane 0: the instance of the frame counters. -/
def State.rxLane0 (s : State) : Nat :=
  ((List.range 8).find? (fun k => s.flag F.GWP_LANE_STAT.ACTIVE k && s.fld F.GWP_LANE_STAT.LOGICAL k == 0)).getD 0

/-! Credits (R359, R360). -/

/-- Credits that Korlet grants in INIT (R360); a field 0 is unlimited. -/
def firstGrants : Tbl Credit :=
  ((({} : Tbl Credit).set 0 { hdr := 512, data := 8192 }).set 1 { hdr := 256 }).set 3 { hdr := 128 }

/-- A credit record of 16 bytes (R359). -/
def creditRecord (g : Tbl Credit) : List Byte :=
  (List.range 4).flatMap (fun c => leBytes 4 (((g.get c).data % 2 ^ 20) <<< 12 + (g.get c).hdr % 2 ^ 12))

/-- Credit class of a transaction (R359). -/
def TxnKind.credit : TxnKind → Nat
  | .mwr => 0
  | .mrd => 1
  | .cpl => 2
  | .msg => 3

/-- Data credits: one for each 16-byte unit (R359). -/
def dataUnits (n : Nat) : Nat := ceilDiv n 16

/-- A cumulative value from a record: one that lies behind the value held is ignored (R359). -/
def creditAhead (width held v : Nat) : Nat :=
  let d := subMod (2 ^ width) v held
  if d < 2 ^ (width - 1) then held + d else held

/-- A credit record of the far end (R359). -/
def State.takeCredits (b : List Byte) (s : State) : State :=
  s.each (List.range 4) (fun c s =>
    let w := leAt b (4 * c) 4
    s.modGwl (fun g => { g with limit := g.limit.upd c (fun l => { l with
      hdr := if l.hdrUnl then l.hdr else creditAhead 12 l.hdr (bits w 11 0)
      data := if l.dataUnl then l.data else creditAhead 20 l.data (bits w 31 12) }) }))

/-- The starting values of the far end, in INIT: 0 grants without limit (R359). -/
def firstLimits (b : List Byte) : Tbl Credit :=
  (List.range 4).foldl (fun (t : Tbl Credit) c =>
    let w := leAt b (4 * c) 4
    t.set c { hdr := bits w 11 0, data := bits w 31 12, hdrUnl := bits w 11 0 == 0, dataUnl := bits w 31 12 == 0 }) {}

/-- The far end has granted enough for one more transaction (R359). -/
def State.hasCredit (s : State) (c n : Nat) : Bool :=
  let l := s.gwl.limit.get c
  let u := s.gwl.used.get c
  (l.hdrUnl || u.hdr + 1 ≤ l.hdr) && (l.dataUnl || u.data + n ≤ l.data)

/-! Choice of the next transaction (R361, R370). -/

/-- `x` may pass the earlier `y` (R370). -/
def mayPass (x y : Txn) : Bool :=
  x.dom != y.dom || (match x.kind, y.kind with
    | .mwr, .mwr => x.ro
    | .mwr, .msg => false
    | .mwr, _ => true
    | .mrd, .mwr => false
    | .mrd, .msg => false
    | .mrd, _ => true
    | .cpl, .mwr => x.ro
    | .cpl, .msg => false
    | .cpl, .cpl => x.tag != y.tag
    | .cpl, .mrd => true
    | .msg, .mwr => false
    | .msg, .msg => false
    | .msg, _ => true)

/-- What Korlet still sends in the safe state: events and completions (R372). -/
def Txn.inSafe (t : Txn) : Bool := t.kind == .cpl || t.kind == .msg

/-- Completion entries and other writes of rings are written in the safe state when due (R414). -/
def Txn.due (t : Txn) : Bool := t.org.kind == .pair

/-- A tag that no open or withheld read has (R366). -/
def State.freeTag (s : State) : Option Nat :=
  ((List.range 1024).map (fun k => (s.gwl.nextTag + k) % 1024)).find? (fun t =>
    (s.gwl.mrds.get t).isNone && !s.gwl.heldTags.any (fun h => h.1 == t && s.time.now < h.2))

/-- The far end's credits cover a transaction (R359). -/
def State.credited (s : State) (t : Txn) : Bool :=
  s.hasCredit t.kind.credit (if t.kind == .mwr || t.kind == .cpl then dataUnits t.len else 0)

/-- Transaction `i` of the queue may be sent now, given credits. -/
def State.mayGo (s : State) (i : Nat) (t : Txn) : Bool :=
  (!s.fcl.safe || t.inSafe || t.due) && (s.gwl.txq.take i).all (mayPass t) && (t.kind != .mrd || s.freeTag.isSome)

/-- Transaction `i` of the queue may be sent now: its credits are there, and no transaction of its transaction class that goes first, of a
lower service class or of the same one and older, waits for credits (R19, R361). -/
def State.maySend (s : State) (i : Nat) (t : Txn) : Bool :=
  s.mayGo i t && s.credited t
    && s.gwl.txq.zipIdx.all (fun u => u.1.kind != t.kind || !(decide (u.1.cls < t.cls) || (u.1.cls == t.cls && decide (u.2 < i)))
      || !s.mayGo u.2 u.1 || s.credited u.1)

/-- Rank of a transaction (R361): completions, messages, posted writes, reads; then the lower service class. -/
def Txn.rank (t : Txn) : Nat :=
  4 * (match t.kind with
    | .cpl => 0
    | .msg => 1
    | .mwr => 2
    | .mrd => 3) + t.cls

/-- The first of the lowest rank. -/
def bestTxn : List (Txn × Nat) → Option (Txn × Nat)
  | [] => none
  | x :: r => match bestTxn r with
    | some y => if y.1.rank < x.1.rank then some y else some x
    | none => some x

/-- The next transaction to send and its place in the queue (R361): a waiting read at least once in 16. -/
def State.pickTxn (s : State) : Option (Txn × Nat) :=
  let c := s.gwl.txq.zipIdx.filter (fun u => s.maySend u.2 u.1)
  match (if 15 ≤ s.gwl.sinceMrd then bestTxn (c.filter (fun u => u.1.kind == .mrd)) else none) with
  | some u => some u
  | none => bestTxn c

/-- TYPE of a transaction (R362). -/
def TxnKind.code : TxnKind → Nat
  | .mwr => 1
  | .mrd => 2
  | .cpl => 3
  | .msg => 4

/-- Units of a transaction (R362). -/
def Txn.units (t : Txn) : List Byte :=
  leBytes 4 (t.kind.code <<< 28 + (t.tag % 1024) <<< 18 + (t.dom % 64) <<< 12 + (t.cls % 4) <<< 10 + b2n t.ro <<< 9 + t.sub % 256)
    ++ leBytes 4 ((t.info % 65536) <<< 16 + t.len % 8192) ++ leBytes 8 t.addr
    ++ (if t.kind == .mwr || t.kind == .cpl then padTo (16 * dataUnits t.data.length) t.data else [])

/-- A transaction begins to be sent: it takes its credits and its tag; a write is recorded (R412), a read is open (R364). -/
def State.startTxn (t : Txn) (i : Nat) (s : State) : State :=
  let waits := s.gwl.txq.any (fun u => u.kind == .mrd)
  let s := s.modGwl (fun g => { g with
    txq := g.txq.eraseIdx i
    sinceMrd := if t.kind == .mrd then 0 else if waits then g.sinceMrd + 1 else 0
    used := g.used.upd t.kind.credit (fun c => { c with
      hdr := c.hdr + 1, data := c.data + (if t.kind == .mwr || t.kind == .cpl then dataUnits t.len else 0) }) })
  let put := fun (t : Txn) (s : State) => s.modGwl (fun g => { g with txPart := t.units, txPartOf := some t })
  match t.kind with
  | .mwr =>
    let t := { t with tag := s.gwl.mwrTag }
    let s := (s.pmuAdd 0x1C9 0).modHqe (fun h => { h with
      mwrs := { tag := t.tag, dom := t.dom, org := t.org, addr := t.addr, len := t.len } :: h.mwrs.filter (fun m => m.tag != t.tag) })
    put t (s.modGwl (fun g => { g with mwrTag := (g.mwrTag + 1) % 1024 }))
  | .mrd =>
    let tag := s.freeTag.getD 0
    let t := { t with tag := tag }
    let s := (s.pmuAdd 0x1CA 0).modGwl (fun g => { g with
      nextTag := (tag + 1) % 1024
      heldTags := g.heldTags.filter (fun h => h.1 != tag)
      mrds := g.mrds.set tag (some { txn := t }) })
    put t (s.setFld F.GWL_STAT.TAGS_OPEN s.gwl.mrds.keys.length)
  | _ => put t s

/-- Fill the units of a frame: `n` bytes are left. -/
def State.fillUnits : Nat → Nat → List Byte → List Txn → State → (List Byte × List Txn) × State
  | 0, _, b, l, s => ((b, l), s)
  | k + 1, n, b, l, s =>
    if n = 0 then ((b, l), s)
    else match s.gwl.txPartOf with
      | some t =>
        let c := s.gwl.txPart.take n
        let r := s.gwl.txPart.drop n
        let s := s.modGwl (fun g => { g with txPart := r, txPartOf := if r = [] then none else some t })
        let s := if r = [] then s.lineCopied t.ends else s
        State.fillUnits k (n - c.length) (b ++ c) (l ++ [t]) s
      | none => match s.pickTxn with
        | some u => State.fillUnits k n b l (s.startTxn u.1 u.2)
        | none => ((b, l), s)

/-! Frames on the lanes (R333, R345 to R350, R550). -/

/-- Injectors of the Geward transmitter that act at one stage (R550). -/
def State.stageInjectors (s : State) (after : Bool) : List Nat := (List.range 8).filter (fun i => s.flag F.FIJ_CTRL.STAGE i == after)

/-- What a frame that passed injectors has become goes on with `f`; a dropped or held one leaves an IDLE slot (R550). -/
def State.slotFrames (r : List InjUnit × State) (f : List Byte → State → State) : State :=
  if r.1 = [] then r.2.sendFrame none
  else r.2.each r.1 (fun u s => match u with
    | .frame b => f b s
    | _ => s)

/-- A frame in its wire bytes passes the injectors after FEC, and is sent. -/
def State.sendWire (l : List Nat) (b : List Byte) (s : State) : State :=
  State.slotFrames (s.injectThrough l 0 0 (.frame b)) (fun b s => s.sendFrame (some b))

/-- A frame with its CRC passes the injectors before FEC, gets its parity and goes on. -/
def State.sendStage (l : List Nat) (b : List Byte) (s : State) : State :=
  State.slotFrames (s.injectThrough l 0 0 (.frame b)) (fun b s => s.sendWire (s.stageInjectors true) (withFec b))

/-- A frame with its CRC is sent. -/
def State.sendChecked (b : List Byte) (s : State) : State := s.sendStage (s.stageInjectors false) b

/-- INIT_FRAME_TX (R352, R360). Korlet's MAX_LEN is a DESIGN CHOICE: 12. -/
def doInitFrameTx (s : State) : State :=
  if s.flag F.GWP_STAT.LINK_UP ∧ ¬ s.gwActive then
    s.sendChecked (frameBytes 0 (frameHead false false false false 3 0 0)
      (leBytes 4 s.gwl.epoch ++ leBytes 2 1 ++ leBytes 1 (b2n s.gwl.rxDone) ++ leBytes 1 12 ++ leBytes 4 chipId
        ++ creditRecord firstGrants))
  else s

/-- A credit record may go now: credits have changed, and none went within 1 µs (R359). -/
def State.crdReady (s : State) : Bool :=
  s.gwl.crdDue && (match s.gwl.crdAt with
    | some t => t + 1200 ≤ s.time.now
    | none => true)

/-- Header fields that every DATA and CTRL frame carries now: ACK, and NAK once (R355, R356). -/
def State.sendFrameNow (rpl crd : Bool) (typ seq : Nat) (units : List Byte) (s : State) : State :=
  let g := s.gwl
  let head := frameHead rpl crd g.nakDue true typ (subMod 4096 g.expect 1) seq
  let rec_ := if crd || typ == 2 then creditRecord g.grant else []
  let s := s.when g.nakDue (fun s => (s.count F.GWL_CNT2.NAK_TX).pmuAdd 0x1C5 0)
  let s := s.modGwl (fun g => { g with
    nakDue := false, ackDue := false
    nakAt := if g.nakDue then some s.time.now else g.nakAt
    crdDue := g.crdDue && rec_ == []
    crdAt := if rec_ == [] then g.crdAt else some s.time.now })
  s.sendChecked (frameBytes (s.rd .GWL_EPOCH_TX) head (rec_ ++ units))

/-- A DATA frame of the replay buffer is sent again (R357): a record goes with it where its units leave room. -/
def State.resendFrame (k : Nat) (f : TxFrame) (s : State) : State :=
  let crd := s.crdReady && f.units.length ≤ 224
  let s := s.modGwl (fun g => { g with resend := if k + 1 < g.replay.length then some (k + 1) else none })
  s.sendFrameNow true crd 1 f.seq f.units

/-- The DATA frame that a replay in progress sends next, and its place in the replay buffer (R357). -/
def State.replayFrame (s : State) : Option (Nat × TxFrame) :=
  s.gwl.resend.bind (fun k => (s.gwl.replay[k]?).map (fun f => (k, f)))

/-- A CTRL frame (R347): SEQ is that of the next DATA frame. It goes only when no DATA frame is ready, a replayed one included. -/
def State.sendCtrl (s : State) : State := s.sendFrameNow false false 2 s.gwl.seq []

/-- A new DATA frame, when there is a unit to send and room in the replay buffer (R347, R354). -/
def State.newDataFrame (s : State) : Option State :=
  if 512 ≤ s.gwl.replay.length then none
  else
    let crd := s.crdReady
    let r := s.fillUnits 32 (if crd then 224 else 240) [] []
    if r.1.1 = [] then none
    else
      let seq := r.2.gwl.seq
      let s := r.2.modGwl (fun g => { g with
        seq := (seq + 1) % 4096, replay := g.replay ++ [{ seq := seq, units := r.1.1, txns := r.1.2 }] })
      some (s.sendFrameNow false crd 1 seq r.1.1)

/-- The DATA frame that is ready, sent (R347): a replayed one goes before a new one (R357). -/
def State.sendData (s : State) : Option State :=
  match s.replayFrame with
  | some x => some (s.resendFrame x.1 x.2)
  | none => s.newDataFrame

/-- LINK_FRAME_TX (R347, R354, R355, R357, R361): a replay goes on, else new units go, else an acknowledgement, a NAK or credits; else the
slot is idle, as every slot before the link layer is active (R326, R336). -/
def doLinkFrameTx (s : State) : State :=
  if ¬ s.gwTxOn then s
  else if ¬ s.flag F.GWP_STAT.LINK_UP ∨ ¬ s.gwActive then s.sendFrame none
  else s.sendData.getD (if s.gwl.ackDue ∨ s.gwl.nakDue ∨ s.crdReady then s.sendCtrl else s.sendFrame none)

/-- CREDIT_RECORD_TX (R359): the record goes in a DATA frame when one is ready, else in a CTRL frame. -/
def doCreditRecordTx (s : State) : State :=
  if s.flag F.GWP_STAT.LINK_UP ∧ s.gwActive ∧ s.crdReady then s.sendData.getD s.sendCtrl else s

/-! Receiving (R351, R353, R355 to R358). -/

/-- A NAK for the present E is due, unless one was sent within 2 µs (R356). -/
def State.wantNak (s : State) : State :=
  let old : Bool := match s.gwl.nakAt with
    | some t => decide (t + 2400 ≤ s.time.now)
    | none => true
  if s.gwActive ∧ old then s.modGwl (fun g => { g with nakDue := true }) else s

/-- A bad frame (R351). -/
def State.badFrame (s : State) : State := ((s.count F.GWL_CNT0.FRAME_BAD).pmuAdd 0x1C2 s.rxLane0).wantNak

/-- A replay begins at the oldest frame not acknowledged, or the link goes down for the last one (R357, R358). -/
def State.startReplay (timeout : Bool) (s : State) : State :=
  match s.gwl.replay with
  | [] => s
  | f :: _ =>
    let n := if s.gwl.replayAt = f.seq then s.gwl.replayCnt else 0
    if s.fld F.GWL_CTRL.REPLAY_MAX ≤ n then s.protoError 4 f.seq 0
    else
      let s := (s.count F.GWL_CNT1.REPLAY).pmuAdd 0x1C4 0
      let s := s.when timeout (·.count F.GWL_CNT3.TIMEOUT)
      s.modGwl (fun g => { g with resend := some 0, replayAt := f.seq, replayCnt := n + 1 })

/-- An acknowledgement (R355, R357): one outside the window is ignored and counted. -/
def State.takeAck (a : Nat) (s : State) : State :=
  let d := subMod 4096 a s.gwl.lastAck
  if s.gwl.replay.length < d then s.count F.GWL_CNT4.ACK_ERR
  else if d = 0 then s
  else s.modGwl (fun g => { g with
    lastAck := a, replay := g.replay.drop d, replayCnt := 0
    resend := g.resend.bind (fun k => if g.replay.length ≤ d then none else some (k - d)) })

/-- A NAK (R357): one that names the start of the replay in progress is ignored. -/
def State.takeNak (a : Nat) (s : State) : State :=
  let s := (s.count F.GWL_CNT2.NAK_RX).pmuAdd 0x1C6 0
  if s.gwl.resend.isSome ∧ s.gwl.replayAt = (a + 1) % 4096 then s else s.startReplay false

/-- Length of a transaction's data (R362): writes and completions with OK carry data. -/
def headData (h : List Byte) : Nat :=
  let t := bits (leAt h 0 4) 31 28
  let n := bits (leAt h 4 4) 12 0
  if t = 1 ∨ (t = 3 ∧ bits (leAt h 0 4) 2 0 = 0) then n else 0

/-- TAG of a transaction header. -/
def headTag (h : List Byte) : Nat := bits (leAt h 0 4) 27 18

/-- Protocol error of a header: a reserved TYPE, or a LEN out of range for the type (R362, R371). -/
def headBad (h : List Byte) : Bool :=
  let n := bits (leAt h 4 4) 12 0
  match bits (leAt h 0 4) 31 28 with
  | 1 | 2 => n == 0 || 4096 < n
  | 3 => if bits (leAt h 0 4) 2 0 = 0 then n == 0 || 4096 < n else n != 0
  | 4 => n != 0
  | _ => true

/-- Transactions of a frame: what the stream gives, a transaction left in part, the credits taken, and the protocol error that ends it. -/
structure RxRun where
  out : List (List Byte × Bool) := []
  part : List Byte := []
  taken : Tbl Credit := {}
  err : Option (Nat × Nat) := none

/-- A transaction's header is taken: its credits (R359, R371). -/
def RxRun.header (grant : Tbl Credit) (h : List Byte) (r : RxRun) : RxRun :=
  if headBad h then { r with err := some (1, headTag h) }
  else
    let c := bits (leAt h 0 4) 31 28 - 1
    let u := r.taken.get c
    let g := grant.get c
    let n := dataUnits (headData h)
    if (g.hdr ≠ 0 ∧ g.hdr < u.hdr + 1) ∨ (g.data ≠ 0 ∧ g.data < u.data + n) then { r with err := some (2, headTag h) }
    else { r with taken := r.taken.set c { u with hdr := u.hdr + 1, data := u.data + n } }

/-- Units of a frame become transactions (R348, R362); `place` is true in the unit where a TIME message must stand (R368). -/
def RxRun.units (grant : Tbl Credit) : Nat → Bool → List Byte → RxRun → RxRun
  | 0, _, _, r => r
  | k + 1, place, b, r =>
    if b = [] ∨ r.err.isSome then r
    else
      let u := b.take 16
      if r.part = [] ∧ bits (leAt u 0 4) 31 28 = 0 then r
      else
        let fresh := r.part = []
        let r := if fresh then r.header grant u else r
        let p := r.part ++ u
        let whole := 16 + 16 * dataUnits (headData p) ≤ p.length
        let r := if r.err.isSome then r
          else if whole then { r with part := [], out := r.out ++ [(p, place && fresh)] } else { r with part := p }
        RxRun.units grant k false (b.drop 16) r

/-- A transaction of the host as the stream carries it (R362). -/
def hostTxn (p : List Byte) : HostTxn :=
  let w := leAt p 0 4
  let n := bits (leAt p 4 4) 12 0
  { dom := BitVec.ofNat 6 (bits w 17 12), tag := BitVec.ofNat 10 (bits w 27 18), cls := BitVec.ofNat 2 (bits w 11 10)
    sub := BitVec.ofNat 8 (bits w 7 0), len := BitVec.ofNat 13 n, addr := BitVec.ofNat 64 (leAt p 8 8)
    data := bytesAt p 16 (headData p) }

/-- A transaction is delivered; its credits are returned when it has been served (R359, R363, R367). -/
def State.deliver (p : List Byte) (placed : Bool) (s : State) : State :=
  let t := hostTxn p
  match bits (leAt p 0 4) 31 28 with
  | 1 => s.hostWrite t 1 (dataUnits t.len.toNat)
  | 2 => (s.hostRead t).giveCredit 1 1 0
  | 3 => doCplRx t s
  | _ => (s.hostMsg t (bits (leAt p 4 4) 31 16) placed).giveCredit 3 1 0

/-- Units of an accepted DATA frame pass to the transaction layer (R348, R355). Transactions of a frame stand even when one of them takes
the link down (R372). -/
def State.takeUnits (seq : Nat) (place : Bool) (b : List Byte) (s : State) : State :=
  let r := RxRun.units s.gwl.grant 16 place b { part := s.gwl.rxPart, taken := s.gwl.taken }
  let s := s.modGwl (fun g => { g with rxPart := r.part, taken := r.taken })
  let s := s.each r.out (fun p s => s.deliver p.1 p.2)
  let s := s.when (!s.gwActive) (·.modGwl (fun g => { g with rxPart := [], taken := {} }))
  match r.err with
  | some e => if s.gwActive then s.protoError e.1 seq e.2 else s
  | none => s

/-- SEQ is ahead of E: neither E nor a duplicate (R355). -/
def State.seqAhead (s : State) (seq : Nat) : Bool :=
  seq != s.gwl.expect && !(1 ≤ subMod 4096 s.gwl.expect seq && subMod 4096 s.gwl.expect seq ≤ 2048)

/-- ACK, NAK and credits of a good frame (R355, R357, R359). -/
def State.takeReports (b : List Byte) (crd : Bool) (s : State) : State :=
  let s := s.when (fhAckv b) (·.takeAck (fhAck b))
  let s := s.when crd (·.takeCredits (bytesAt b 4 16))
  s.when (fhNak b) (·.takeNak (fhAck b))

/-- A good DATA frame (R355). -/
def State.rxData (b : List Byte) (s : State) : State :=
  let seq := fhSeq b
  let crd := fhCrd b
  let s := s.takeReports b crd
  if ¬ s.gwActive then s
  else if seq = s.gwl.expect then
    let s := s.modGwl (fun g => { g with expect := (seq + 1) % 4096, ackDue := true, nakDue := false, nakAt := none })
    s.takeUnits seq (!crd && !fhRpl b) (if crd then bytesAt b 20 224 else bytesAt b 4 240)
  else if s.seqAhead seq then s.wantNak
  else s

/-- A good CTRL frame (R347, R355). -/
def State.rxCtrl (b : List Byte) (s : State) : State :=
  let s := s.takeReports b true
  s.when (s.seqAhead (fhSeq b)) State.wantNak

/-- A good INIT frame (R352, R353, R371). -/
def State.rxInit (b : List Byte) (s : State) : State :=
  if s.gwActive ∨ leAt b 8 2 ≠ 1 then s.protoError 3 (fhSeq b) 0
  else
    let s := s.modGwl (fun g => { g with rxDone := true })
    if bit (leAt b 10 1) 0 then
      let lim := firstLimits (bytesAt b 16 16)
      let s := s.modGwl (fun g => { g with
        farMaxLen := leAt b 11 1, seq := 0, expect := 0, lastAck := 4095, limit := lim, used := {}, grant := firstGrants, taken := {} })
      (s.wr .GWL_EPOCH_RX (leAt b 4 4)).setFlag F.GWL_STAT.ACTIVE
    else s

/-- A frame is checked and acts (R351). -/
def State.rxChecked (b : List Byte) (s : State) : State :=
  let lane := s.rxLane0
  let s := s.pmuAdd 0x1C1 lane
  match correctFrame b with
  | none => s.badFrame
  | some (c, fixed) =>
    let init := fhType c = 3
    if frameCrc (if init then 0 else s.rd .GWL_EPOCH_RX) c ≠ leAt c 244 4 then s.badFrame
    else
      let s := s.when (fixed != []) (fun s => (s.count F.GWL_CNT0.FEC_CORR).pmuAdd 0x1C3 lane)
      let s := s.when (fixed != [] && fixed.all (fun p => 244 ≤ p && p < 248)) (·.count F.GWL_CNT1.CRC_FIX)
      match fhType c with
      | 1 => s.when s.gwActive (·.rxData c)
      | 2 => s.when s.gwActive (·.rxCtrl c)
      | 3 => s.rxInit c
      | _ => s.count F.GWL_CNT4.DISCARD

/-- A frame arrives; the frame layer runs from LINK_UP on (R332), and the injectors act before FEC decoding (R550). -/
def State.frameRx (b : List Byte) (s : State) : State :=
  if s.flag F.GWP_STAT.LINK_UP then
    let r := s.inject 1 0 (.frame b)
    r.2.each r.1 (fun u s => match u with
      | .frame b => s.rxChecked b
      | _ => s)
  else s

/-- DATA_FRAME_RX, CTRL_FRAME_RX and INIT_FRAME_RX bring frame bytes as received: what a frame is, is known once it has been checked
(R351). -/
def doDataFrameRx (b : List Byte) (s : State) : State := s.frameRx b
def doCtrlFrameRx (b : List Byte) (s : State) : State := s.frameRx b
def doInitFrameRx (b : List Byte) (s : State) : State := s.frameRx b

/-- REPLAY_TIMEOUT (R357). -/
def doReplayTimeout (s : State) : State := if s.gwActive then s.startReplay true else s

def execInitFrameTx (s : State) : Host.Outcome State Fault Refusal := .next (doInitFrameTx s)
def execInitFrameRx (frame : List Byte) (s : State) : Host.Outcome State Fault Refusal := .next (doInitFrameRx frame s)
def execCtrlFrameRx (frame : List Byte) (s : State) : Host.Outcome State Fault Refusal := .next (doCtrlFrameRx frame s)
def execReplayTimeout (s : State) : Host.Outcome State Fault Refusal := .next (doReplayTimeout s)
def execLinkFrameTx (s : State) : Host.Outcome State Fault Refusal := .next (doLinkFrameTx s)
def execCreditRecordTx (s : State) : Host.Outcome State Fault Refusal := .next (doCreditRecordTx s)

end Sys2Proof.Machine
end

