-- ==== Sys2Proof/Machine/Cycle.lean ====
section
/-!
DEFINITION. Machine/Cycle.lean: one CORE cycle: time passes (R60, R64), and the events of R613 that are counted in cycles count where
their condition holds in it.
-/
namespace Sys2Proof.Machine

/-- Petal `k` of bloom `b` has no tile and takes none of its own bloom, and a steal waits on the budget (R201). -/
def State.capWaits (s : State) (b k : Nat) : Bool :=
  s.canStart b && ((s.blm.get b).run.get k).isNone && (s.bestIn b k).isNone && (match s.stealFrom b with
    | some u => !s.mustWait b u.2 && decide (s.tf.budget < 100 * s.tileBytes u.2)
    | none => false)

/-- A transaction of credit class `c` waits for credit of the far end alone (R359, R370). -/
def State.creditWaits (s : State) (c : Nat) : Bool :=
  s.gwActive && s.gwl.txq.zipIdx.any (fun u => u.1.kind.credit == c && (s.gwl.txq.take u.2).all (mayPass u.1)
    && !s.hasCredit c (if u.1.kind == .mwr || u.1.kind == .cpl then dataUnits u.1.len else 0))

/-- Events of R613 in cycles, with the number of their instances: BACKLOG_FULL, CAP_WAIT, BUSY, IDLE, STALL_TOKEN, QUEUE_FULL, STALL_P
and STALL_NP. -/
def cycleEvents : List (Nat × Nat) := [(0x0C3, 8), (0x0C8, 8), (0x100, 256), (0x101, 256), (0x108, 256), (0x187, 16), (0x1C7, 1), (0x1C8, 1)]

/-- The condition of event `ev` holds at instance `i`: the service class that it then carries, if any. -/
def State.cycleHolds (s : State) (ev i : Nat) : Option (Option Nat) :=
  let b := i / 32
  let k := i % 32
  match ev with
  | 0x0C3 => if 1024 ≤ (s.blm.get i).backlog.length then some none else none
  | 0x0C8 => if (List.range 32).any (s.capWaits i) then some none else none
  | 0x100 => ((s.blm.get b).run.get k).map (fun t => some t.cls)
  | 0x101 => if ((s.blm.get b).run.get k).isNone then some none else none
  | 0x108 => if s.canStart b ∧ ((s.blm.get b).run.get k).isNone then
      ((s.bestIn b k).filter (fun t => s.mustWait b t)).map (fun t => some t.cls)
    else none
  | 0x187 => if 64 ≤ (s.fst.queues.get i).length then some none else none
  | 0x1C7 => if s.creditWaits 0 then some none else none
  | 0x1C8 => if s.creditWaits 1 then some none else none
  | _ => none

/-- The counters that select an event in cycles count this cycle (R611, R613). -/
def State.countCycles (s : State) : State :=
  s.each cycleEvents (fun e s =>
    s.when ((List.range 8).any (fun i => s.flag F.PMU_CFG.EN i && s.fld F.PMU_CFG.EVENT i == e.1)) (fun s =>
      s.each (List.range e.2) (fun i s => match s.cycleHolds e.1 i with
        | some c => s.pmuAdd e.1 i 1 c
        | none => s)))

/-- One CORE cycle. -/
def State.cycle (s : State) : State := s.countCycles.tick

end Sys2Proof.Machine
end

