-- ==== Sys2Proof/Machine/Primrose.lean ====
section
/-!
DEFINITION. Machine/Primrose.lean: the Primrose profile (R576, R577) and the Primrose check (R575), as functions on a profile's payload.
-/
namespace Sys2Proof.Machine

/-! The section table (R576). -/

/-- Section entries. -/
def profCount (p : List Byte) : Nat := leAt p 0 4
def profType (p : List Byte) (i : Nat) : Nat := leAt p (4 + 16 * i) 4
def profOff (p : List Byte) (i : Nat) : Nat := leAt p (8 + 16 * i) 4
def profBytes (p : List Byte) (i : Nat) : Nat := leAt p (12 + 16 * i) 4

/-- The section of a type; a profile without one has none. -/
def profSection (p : List Byte) (t : Nat) : Option (List Byte) :=
  ((List.range (profCount p)).find? (fun i => profType p i == t)).map (fun i => bytesAt p (profOff p i) (profBytes p i))

/-- The bytes of a section, none for an absent one. -/
def profSec (p : List Byte) (t : Nat) : List Byte := (profSection p t).getD []

/-- A list cut into pieces of equal size. -/
def chop (n : Nat) (b : List Byte) : List (List Byte) := (List.range (b.length / n)).map (fun i => bytesAt b (n * i) n)

/-- Size of a section by type. -/
def secSizeOk (t n : Nat) : Bool := match t with
  | 1 => n % 8 == 0
  | 2 => n % 4 == 0
  | 3 => n % 16 == 0
  | 4 => n % 4 == 0
  | 5 => n % 4 == 0
  | 6 => n == 20
  | _ => false

/-- The section table is well formed (R575, condition 2). -/
def profForm (p : List Byte) : Bool :=
  let n := profCount p
  4 ≤ p.length && n ≤ 6 && 4 + 16 * n ≤ p.length
    && (List.range n).all (fun i => secSizeOk (profType p i) (profBytes p i) && profOff p i + profBytes p i ≤ p.length
      && leAt p (16 + 16 * i) 4 == 0)
    && ((List.range n).map (profType p)).eraseDups.length == n

/-! REG. -/

/-- An entry of REG: a commit request for groups, or a value for an offset. -/
inductive RegEntry where
  | commit (groups : Nat)
  | write (off val : Nat)
  deriving DecidableEq, Repr

/-- Entries of REG in order. -/
def profRegs (p : List Byte) : List RegEntry :=
  (chop 8 (profSec p 1)).map (fun e =>
    if bit (leAt e 0 4) 31 then .commit (leAt e 4 4 % 256) else .write (bits (leAt e 0 4) 25 0) (leAt e 4 4))

/-- The writes among them. -/
def profWrites (p : List Byte) : List (Nat × Nat) :=
  (profRegs p).filterMap (fun e => match e with
    | .write o v => some (o, v)
    | .commit _ => none)

/-- A register that REG may write: mapped, and none of SEC, FIJ and CFG_SYNC (R576). Doorbell pages, apertures and remote windows hold no
register. -/
def regAllowed (off : Nat) : Bool :=
  (findReg off).isSome && !(0x2300000 ≤ off && off < 0x2308000) && !(0x2202000 ≤ off && off < 0x2202180)
    && !(0x10000C ≤ off && off ≤ 0x100017)

/-- REG keeps R575, condition 3. -/
def profRegsOk (p : List Byte) : Bool :=
  (profWrites p).all (fun w => regAllowed w.1)

/-- Field value that the profile leaves: its last write, else the reset value. -/
def imgFld (p : List Byte) (f : Fld) (i : Nat := 0) (j : Nat := 0) : Nat :=
  let v := match (profWrites p).reverse.find? (fun w => w.1 == f.reg.off i j) with
    | some w => w.2
    | none => (f.reg.resetVal i).toNat
  bits v f.hi f.lo

/-! What the profile starts. Ports are coded as in VBR_XFER (R494): AP[p] as p, DP[n] as 28 + n; the CSI-2 ports stand behind them, as
32 and 33. -/

/-- Ports that the profile starts. -/
def profPorts (p : List Byte) : List Nat :=
  (List.range 34).filter (fun c =>
    if c < 28 then imgFld p F.ING_PORT_CTRL.RUN c == 1
    else if c < 32 then imgFld p F.DEG_PORT_CTRL.RUN (c - 28) == 1
    else imgFld p F.ING_PORT_CTRL.RUN (c - 4) == 1)

/-- Rasters that the profile starts. -/
def profRasters (p : List Byte) : List Nat := (List.range 8).filter (fun n => imgFld p F.RAS_CTRL.RUN n == 1)

/-! PRODUCT: definition blocks, each followed by its table area. -/

/-- Definitions and table areas of a PRODUCT section, up to the first that its bytes do not hold whole. -/
def cutProducts : Nat → List Byte → List (List Byte × List Byte)
  | 0, _ => []
  | k + 1, b =>
    let d := b.take 576
    let n := pdbTblBytes d
    if b.length < 576 + n ∨ b = [] then []
    else (d, (b.drop 576).take n) :: cutProducts k (b.drop (576 + n))

/-- Products of the profile. -/
def profProducts (p : List Byte) : List (List Byte × List Byte) := cutProducts 256 (profSec p 4)

/-- The PRODUCT section is filled by its definitions. -/
def profProductsOk (p : List Byte) : Bool :=
  ((profProducts p).foldl (fun n d => n + d.1.length + d.2.length) 0) == (profSec p 4).length

/-! SHOW. -/

/-- Entry of SHOW: port, layer, SETTLE_FR, SHOW_MAX_FR. -/
def profShows (p : List Byte) : List (Nat × Nat × Nat × Nat) :=
  (chop 4 (profSec p 5)).map (fun e => (leAt e 0 1, leAt e 1 1, leAt e 2 1, leAt e 3 1))

/-- CORE cycles of the frame period of raster `n` at trim 0, in 2^-32 cycles. -/
def imgFrame (p : List Byte) (n : Nat) : Nat :=
  imgFld p F.RAS_PERIOD.LINES n * (imgFld p F.RAS_PERIOD.INT n * 2 ^ 32 + imgFld p F.RAS_PERIOD_FRAC.FRAC n)

/-- Raster time from the boundary to the start of active row 0 of port `d`, in 2^-32 CORE cycles × 256 (R427). -/
def imgTop (p : List Byte) (d : Nat) : Nat :=
  let n := imgFld p F.DEG_PORT_CTRL.RASTER d
  let k := imgFld p F.DEG_VTIMING1.VSA d + imgFld p F.DEG_VTIMING1.VBP d
  (imgFld p F.DEG_VTIMING1.VSTART d * 256 + k * imgFld p F.RAS_PERIOD.LINES n * 256 / max 1 (imgFld p F.DEG_VTIMING0.VTOTAL d))
    * (imgFld p F.RAS_PERIOD.INT n * 2 ^ 32 + imgFld p F.RAS_PERIOD_FRAC.FRAC n)

/-- 235 ms in 2^-32 CORE cycles. -/
def showLimit : Nat := 282000000 * 2 ^ 32

/-- Every display product has its SHOW entry, and each such entry keeps the bound (R575, condition 4). -/
def profShowsOk (p : List Byte) : Bool :=
  (profProducts p).all (fun d => pdbDestKind d.1 != 1 ||
    (match (profShows p).find? (fun e => e.1 == pdbPort d.1 && e.2.1 == pdbLayer d.1) with
      | some e => 256 * e.2.2.2 * imgFrame p (imgFld p F.DEG_PORT_CTRL.RASTER e.1) + imgTop p e.1 ≤ 256 * showLimit
      | none => false))

/-- No early-view raster waits for an alignment instant (R575, condition 5). -/
def profWaitsOk (p : List Byte) : Bool :=
  (profProducts p).all (fun d => pdbDestKind d.1 != 1 ||
    (imgFld p F.DEG_PORT_CTRL.RASTER (pdbPort d.1) :: (pdbStreams d.1).map (fun st => imgFld p F.RAS_STRM_CFG.RASTER st)).all (fun n =>
      imgFld p F.RAS_ALIGN.FRAMES n == 0 || imgFld p F.RAS_CTRL.WAIT n == 0))

/-! SCRIPT (R577). -/

/-- Fields of a script entry. -/
def scOp (e : List Byte) : Nat := leAt e 0 1
def scPort (e : List Byte) : Nat := leAt e 1 1
def scLen (e : List Byte) : Nat := leAt e 3 1

/-- Entries of SCRIPT. -/
def profScript (p : List Byte) : List (List Byte) := chop 16 (profSec p 3)

/-- Every entry keeps R575, condition 6. -/
def profScriptOk (p : List Byte) : Bool :=
  (profScript p).all (fun e => scPort e < 32 && (profPorts p).any (· == scPort e) && (scOp e == 1 || scOp e == 2)
    && 1 ≤ scLen e && scLen e ≤ 8)

/-- Conditions 2 to 6 of the Primrose check (R575). -/
def primroseCheck (p : List Byte) : Bool :=
  profForm p && profRegsOk p && profProductsOk p && profShowsOk p && profWaitsOk p && profScriptOk p

end Sys2Proof.Machine
end

