-- ==== Sys2Proof/Machine/Boot.lean ====
section
/-!
DEFINITION. Machine/Boot.lean: resets and power states (R7, R49, R565 to R567, R644 to R647), and boot up to the first frame of the
Primrose profile (R568 to R580).
-/
namespace Sys2Proof.Machine

/-! The stages of boot (R572). -/

/-- Korlet's TX epoch is drawn from the device's random source at PORST_N (R353), and again after standby, which no epoch outlives
(DEDUCED); WRST_N keeps it. Nothing uses it before ROM starts, so it is drawn here. -/
def State.drawEpoch (s : State) : State :=
  if s.sec.warm then s else (s.modGwl (fun g => { g with epoch := s.free % 2 ^ 32 })).draw

/-- ROM starts (R572, R646): its self-tests pass and release FAULT_N, or the security hardware has failed; which unit is open, a FREE
VALUE. -/
def State.startRom (romOk : Bool) (s : State) : State :=
  let s := s.drawEpoch.setStage 1
  if romOk then ((s.modFcl (fun f => { f with faultN := true })).setStage 2).startCore
  else s.draw.raise 6 (s.free % 2 ^ 32)

/-- Copy of an image type that is tried next: false A, true B. BOOT_MODE 2 tries B first (R567). -/
def State.nextCopy (s : State) (t : Nat) : Bool :=
  let first := s.sec.bootMode == 2
  if s.sec.tried.any (· == (t, first)) then !first else first

/-- Both copies of an image type have failed. A certificate has one copy (R568). -/
def State.bothTried (s : State) (t : Nat) : Bool :=
  s.sec.tried.any (· == (t, false)) && (t == 5 || s.sec.tried.any (· == (t, true)))

/-- Bytes of the flash from an offset on. -/
def flashFrom (f : List FlashArea) (o : Nat) : List Byte := ((f.find? (fun a => a.offset.toNat == o)).map (·.bytes)).getD []

/-- The CRC of a directory copy checks (R568). -/
def dirGood (d : List Byte) : Bool :=
  let n := leAt d 6 2
  1 ≤ n && n ≤ 32 && 16 + 16 * n ≤ d.length && leAt d 12 4 == crc32c (bytesAt d 0 12 ++ bytesAt d 16 (16 * n))

/-- The directory: the first copy whose CRC checks (R568). -/
def flashDir (f : List FlashArea) : Option (List Byte) := ([0, 0x1000].map (flashFrom f)).find? dirGood

/-- Image of a type and copy, where the directory places it (R568). -/
def flashImage (f : List FlashArea) (t : Nat) (copyB : Bool) : Option (List Byte) :=
  (flashDir f).bind (fun d =>
    ((List.range (leAt d 6 2)).find? (fun i => leAt d (16 + 16 * i) 1 == t && (t == 5 || leAt d (17 + 16 * i) 1 == b2n copyB))).map
      (fun i => (flashFrom f (leAt d (20 + 16 * i) 4)).take (leAt d (24 + 16 * i) 4)))

/-- Boot reads an image of the type: with BOOT_MODE 1 it reads no profile (R580). -/
def State.reads (s : State) (t : Nat) : Bool := (s.sec.staged.get t).isNone && !(t == 2 && s.sec.bootMode == 1)

/-- IMAGE_LOAD_DONE (R568, R572): the copies that boot tries next are in staging memory. -/
def doImageLoadDone (flash : List FlashArea) (s : State) : State :=
  if s.bootStage ≠ 2 ∧ s.bootStage ≠ 3 then s
  else (s.each ([1, 2, 3, 5].filter s.reads) (fun t s =>
    match flashImage flash t (s.nextCopy t) with
    | some b => s.modSec (fun c => { c with staged := c.staged.set t (some (s.nextCopy t, b)) })
    | none => s)).setStage 3

/-- A copy has failed with a result of R570. -/
def State.failCopy (t r : Nat) (s : State) : State :=
  (s.setFld F.SEC_BOOT_STAT.LAST_ERR r).modSec (fun c => { c with tried := c.tried ++ [(t, s.nextCopy t && t != 5)]
                                                                  staged := c.staged.set t none })

/-- Copy A or B as SEC_BOOT_STAT codes it. -/
def copyCode (b : Bool) : Nat := if b then 2 else 1

/-- Limits that firmware sets from the ordering code (R609). -/
def State.setThermal (s : State) : State :=
  let t := Config.orderT
  ((s.setFld F.EGV_THERM.TJ_MAX (if t then 115 else 125)).setFld F.EGV_THERM.ALERT (if t then 115 else 125)).setFld F.EGV_THERM.SOFT
    (if t then 105 else 115)

/-- CASE_LIM from the ordering code (R303). -/
def State.setCaseLim (s : State) : State := s.setFld F.FST_CTRL.CASE_LIM (if Config.orderT then 95 else 105)

/-- What firmware puts into Lupin at its start (R539, R545, R547, R548). -/
def State.bootRecords (s : State) : State :=
  let s := s.setFld F.LUP_STAT.LAST_SLOT s.lastDump
  let s := s.when (s.flag F.LUP_STAT.UNSAVED) (·.modLup (fun l => { l with holding := true }))
  let s := s.when s.fcl.lateDue (fun s =>
    ((s.wr .FCL_SAFE s.fcl.safeD02).lupSubmit 0x05 0 0 s.fcl.safeD02 0).modFcl (fun f => { f with lateDue := false }))
  s.lupSubmit 0x03 0 0 (b2n s.sec.warm) s.sec.count

/-- Firmware starts from a verified copy (R572, R573, R582, R585, R593). -/
def State.startFirmware (copyB : Bool) (img : List Byte) (idOk : Bool) (s : State) : State :=
  let s := s.modSec (fun c => { c with env := c.env.set 1 img, idDone := true })
  let s := (s.setFlag F.SEC_BOOT_STAT.FW_COPY copyB).setFlag F.SEC_BOOT_STAT.ORDER Config.orderT
  let s := s.setFlag F.SEC_BOOT_STAT.WARM s.sec.warm
  let s := ((s.wr .SEC_BOOT_CNT s.sec.count).wr .SEC_BOOT_NONCE (s.free % 2 ^ 32)).draw
  let s := (s.showKeys.showArb).setThermal.bootRecords
  s.when (!idOk) (·.raise 39 0)

/-- Firmware loads the seeds (R196, R290) and begins HBM training once the HBM supplies report good (R301); a trained stack keeps its
contents (R304). -/
def State.leaveVerify (s : State) : State :=
  let s := s.when (s.flag F.BLM_HASH_CTRL.MODE) (fun s =>
    ((s.wr .BLM_HASH_SEED_LO (s.free % 2 ^ 32)).wr .BLM_HASH_SEED_HI (s.free / 2 ^ 32 % 2 ^ 32 ||| 1)).draw)
  let s := s.when (s.flag F.FST_HASH_CTRL.MODE) (fun s =>
    ((s.setFld F.FST_HASH_SX.SX (s.free % 2 ^ 32)).setFld F.FST_HASH_SM.SM (s.free / 2 ^ 32 % 2 ^ 32 ||| 1)).draw)
  if s.flag F.FST_STAT.READY then s else (s.modFst (fun f => { f with trainDue := true })).beginTraining

/-- Firmware goes on without a profile (R580). -/
def State.noProfile (s : State) : State := s.leaveVerify.setCaseLim.waitHost

/-- Result of the checks of a staged image (R570, R575, R450): an image that is not in staging memory fails as FORMAT. -/
def State.verifyResult (s : State) (t : Nat) (sig : Bool) : Nat × List Byte :=
  match s.sec.staged.get t with
  | none => (1, [])
  | some m =>
    let r := s.envCheck t m.2 sig
    (if r ≠ 0 then r
      else if t = 2 ∧ ¬ primroseCheck (envPayload m.2) then 1
      else if t = 3 ∧ ¬ (storeForm (envPayload m.2) ∧ storeRefs (envPayload m.2)) then 1
      else 0, m.2)

/-- IMAGE_VERIFY_DONE (R570, R572): the check of one image of stage 0x03 ends. `sig` is the outcome of the ML-DSA-87 verification, `idOk` of
the derivation of the identity (R585). -/
def doImageVerifyDone (t : Nat) (sig idOk : Bool) (s : State) : State :=
  if s.bootStage ≠ 3 then s
  else if t = 1 then
    if s.sec.env.get 1 ≠ [] then s
    else
      let copy := s.nextCopy 1
      let s := s.setFlag F.SEC_BOOT_STAT.ID_OK idOk
      let r := s.verifyResult 1 sig
      if r.1 = 0 then
        let s := s.startFirmware copy r.2 idOk
        if s.sec.bootMode = 1 then s.noProfile else s
      else
        let s := (s.setFlag F.SEC_BOOT_STAT.ID_OK false).failCopy 1 r.1
        if s.bothTried 1 then (s.setStage 0x0F).modFcl (fun f => { f with faultN := false }) else s
  else if s.sec.env.get 1 = [] then s
  else if t = 2 then
    if s.sec.env.get 2 ≠ [] then s
    else
      let copy := s.nextCopy 2
      let r := s.verifyResult 2 sig
      if r.1 = 0 then (s.setFld F.SEC_BOOT_STAT.PROF (copyCode copy)).modSec (fun c => { c with env := c.env.set 2 r.2 })
      else
        let s := s.failCopy 2 r.1
        if s.bothTried 2 then (s.setFld F.SEC_BOOT_STAT.PROF 3).noProfile else s
  else if t = 3 then
    if s.fld F.SEC_BOOT_STAT.ASSET ≠ 0 then s
    else
      let copy := s.nextCopy 3
      let r := s.verifyResult 3 sig
      if r.1 = 0 then s.setFld F.SEC_BOOT_STAT.ASSET (copyCode copy)
      else
        let s := s.failCopy 3 r.1
        if s.bothTried 3 then s.setFld F.SEC_BOOT_STAT.ASSET 3 else s
  else if t = 5 then
    let r := s.verifyResult 5 sig
    let s := s.modSec (fun c => { c with env := c.env.set 5 r.2 })
    if r.1 = 0 then s.setFlag F.SEC_BOOT_STAT.CERT_OK (s.flag F.SEC_BOOT_STAT.ID_OK && bytesAt (envPayload r.2) 0 2592 == identityPub)
    else s.failCopy 5 r.1
  else s

/-! Applying the profile (R578). -/

/-- A port of the profile starts or stops, by its code. -/
def State.runCode (c : Nat) (run : Bool) (s : State) : State :=
  if c < 28 then s.portRun c run else if c < 32 then s.displayRun (c - 28) run else s.portRun (c - 4) run

/-- The link of a port of the profile is up; stage 5 waits for the A-PHY and display links only (R572). -/
def State.codeUp (s : State) (c : Nat) : Bool :=
  if c < 28 then s.flag F.ING_PORT_STAT.LINK_UP c else if c < 32 then s.flag F.DEG_PORT_STAT.LINK_UP (c - 28) else true

/-- POLICY, then the lock (R531, R578). -/
def State.applyPolicy (b : List Byte) (s : State) : State :=
  let s := s.each (List.range 4) (fun n s => s.writeReg .firmware .FCL_SEV n 0 (leAt b (4 * n) 4))
  (doPolicyLock (s.writeReg .firmware .FCL_REACT 0 0 (leAt b 16 4))).setFlag F.SEC_BOOT_STAT.POLICY

/-- The asset store enters bank 0 (R451, R578). -/
def State.applyAsset (s : State) : State :=
  let ok := s.fld F.SEC_BOOT_STAT.ASSET == 1 || s.fld F.SEC_BOOT_STAT.ASSET == 2
  match s.sec.staged.get 3 with
  | some m => if ok then s.setBank 0 m.2 else s.setFld F.SEC_BOOT_STAT.ASSET 3
  | none => s.setFld F.SEC_BOOT_STAT.ASSET 3

/-- Registers of Marigold. -/
def RegKind.isMgd (k : RegKind) : Bool := match k with
  | .MGD_CTRL | .MGD_LOG_CI | .MGD_LOG_STAT | .MGD_LOG_CNT | .MGD_BANK_STAT | .MGD_PORT_CTRL | .MGD_PORT_LINES | .MGD_SLOT_CFG
  | .MGD_SLOT_POS | .MGD_SLOT_RB | .MGD_TT_CFG | .MGD_TT_IMG | .MGD_TT_STAT | .MGD_TT_CNT0 | .MGD_TT_CNT1 => true
  | _ => false

/-- One entry of REG. RUN of ports and rasters waits for its own step; without a bank, Marigold's registers are left out (R578). -/
def State.applyReg (e : RegEntry) (s : State) : State :=
  match e with
  | .commit gs => s.each (oneBits 8 gs) (fun g s => doConsistencyCheckEnd g (s.commitRequest g))
  | .write off v =>
    match findReg off with
    | none => s
    | some r =>
      if r.kind.isMgd && !s.flag F.MGD_BANK_STAT.VALID then s
      else
        let hold := fun (f : Fld) => s.writeReg .firmware r.kind r.i r.j (putBits v f.hi f.lo 0)
        match r.kind with
        | .RAS_CTRL => hold F.RAS_CTRL.RUN
        | .ING_PORT_CTRL => hold F.ING_PORT_CTRL.RUN
        | .DEG_PORT_CTRL => hold F.DEG_PORT_CTRL.RUN
        | k => s.writeReg .firmware k r.i r.j v

/-- Bridge tables (R472, R576), as VBR_LOAD images one after another; an image that VBR_LOAD would refuse is left out. -/
def State.applyVbr : Nat → List Byte → State → State
  | 0, _, s => s
  | k + 1, b, s =>
    let w := leAt b 0 4
    let t := bits w 31 29
    let n := bits w 12 0
    let sz := (vbrSize t).2
    if b.length < 4 ∨ b.length < 4 + n * sz ∨ n = 0 then s
    else
      let es := pieces sz n (b.drop 4)
      let ok := bits w 28 16 + n ≤ (vbrSize t).1 && s.vbr.loadStatus t (bits w 28 16) es == 0
      State.applyVbr k (b.drop (4 + n * sz)) (if ok then s.replaceEntries t (bits w 28 16) es else s)

/-- PROFILE_APPLY (R578): policy, case limit, asset store, registers, bridge tables, ports and scripts. The products and the rasters
follow when the scripts have ended. In the safe state boot goes no further (DEDUCED). -/
def doProfileApply (s : State) : State :=
  if s.bootStage ≠ 3 ∨ s.sec.env.get 2 = [] ∨ s.fcl.safe then s
  else
    let p := envPayload (s.sec.env.get 2)
    let s := s.leaveVerify.setStage 4
    let s := match profSection p 6 with
      | some b => s.applyPolicy b
      | none => s
    let s := s.setCaseLim.applyAsset
    let s := s.each (profRegs p) State.applyReg
    let s := (State.applyVbr 4096 (profSec p 2) s).setFlag F.VBR_CTRL.EN
    let lost := fun (c : Nat) => 28 ≤ c && c < 32 && !s.flag F.MGD_BANK_STAT.VALID && imgFld p F.MGD_PORT_CTRL.EN (c - 28) == 1
    let ports := (profPorts p).filter (fun c => !lost c)
    let s := s.each ports (fun c s => s.runCode c true)
    let s := s.each ports (fun c s => match (profScript p).filter (fun e => scPort e == c) with
      | [] => s
      | es => s.modSec (fun x => { x with scripts := x.scripts.set c (some { entries := es }) }))
    let s := s.modSec (fun c => { c with
      startPorts := ports, startRas := profRasters p, due := true
      shows := (profShows p).map (fun e => { port := e.1, layer := e.2.1, settle := e.2.2.1, maxFr := e.2.2.2 }) })
    s.setStage 5

/-- Every script has ended. -/
def State.scriptsDone (s : State) : Bool :=
  s.sec.scripts.keys.all (fun c => match s.sec.scripts.get c with
    | some x => x.stopped || x.entries.isEmpty
    | none => true)

/-- A product of the profile is defined, its layer hidden until its show boundary (R578, R579). -/
def State.bootProduct (d : List Byte × List Byte) (s : State) : State :=
  let s := s.when (pdbDestKind d.1 == 1) (fun s =>
    s.setFld F.DEG_PORT_STAT.HIDDEN (s.fld F.DEG_PORT_STAT.HIDDEN (pdbPort d.1) ||| 1 <<< pdbLayer d.1) (pdbPort d.1))
  State.andReport (s.checksDone { op := .define, boot := true, stage := .checking, pdb := d.1, area := d.2
                                  bytes := leBytes 16 0 ++ leBytes 16 (pdbProduct d.1) })

/-- The links are up and the scripts have ended: products are defined and the rasters start (R572, R578). -/
def State.bootAdvance (s : State) : State :=
  let s := s.when (s.bootStage == 5 && s.sec.startPorts.all s.codeUp) (·.setStage 6)
  if s.bootStage = 6 ∧ s.sec.due ∧ s.scriptsDone ∧ ¬ s.fcl.safe then
    let p := envPayload (s.sec.env.get 2)
    let s := s.modSec (fun c => { c with due := false })
    let s := s.each (profProducts p) State.bootProduct
    (s.setStage 7).each s.sec.startRas doRasterStart
  else s

/-- The script of port `c` ends early: the port is not started (R574, R577). -/
def State.stopScript (c : Nat) (s : State) : State :=
  (s.modSec (fun x => { x with
    scripts := x.scripts.upd c (·.map (fun q => { q with entries := [], stopped := true }))
    startPorts := x.startPorts.filter (· != c) })).runCode c false

/-- SCRIPT_ENTRY (R577): the next entry of a port has run. A failed write is tried once more. -/
def doScriptEntry (c : Nat) (ok : Bool) (s : State) : State :=
  if s.bootStage ≠ 5 ∧ s.bootStage ≠ 6 then s
  else match s.sec.scripts.get c with
    | some q =>
      match q.entries with
      | [] => s
      | e :: r =>
        let s := s.setStage 6
        let next := fun (x : Script) => s.modSec (fun y => { y with scripts := y.scripts.set c (some x) })
        (if ok ∨ scOp e = 2 then next { q with entries := r, failed := false }
          else if q.failed then s.stopScript c
          else next { q with failed := true }).bootAdvance
    | none => s

/-- SCRIPT_TIMEOUT (R574): the script of a port still runs 170 ms after the port's link came up. -/
def doScriptTimeout (c : Nat) (s : State) : State :=
  if s.bootStage ≠ 5 ∧ s.bootStage ≠ 6 then s
  else match s.sec.scripts.get c with
    | some q => if q.stopped ∨ q.entries = [] ∨ ¬ s.codeUp c then s else ((s.setFlag F.SEC_BOOT_STAT.SCRIPT_CUT).stopScript c).bootAdvance
    | none => s

/-! Resets and power states. -/

/-- Cells of the registers of some kinds. -/
def keepRegs (ks : List RegKind) (t : Tbl (Option Word)) : Tbl (Option Word) :=
  ⟨t.cells.filter (fun c => ks.any (fun k => k.ctorIdx == c.1 / 2 ^ 24))⟩

/-- What outlives every reset: straps and OTP, the flash, what has left Korlet, the commands that wait, the model's own counters. -/
def State.afterReset (s : State) (regs : Tbl (Option Word)) : State :=
  { (State.reset : State) with
    pending := s.pending, freeIdx := s.freeIdx, out := s.out, regs := regs
    lup := { dump := s.lup.dump }
    sec := { bootMode := s.sec.bootMode, smbAddr := s.sec.smbAddr, gwPre := s.sec.gwPre, count := s.sec.count, vcore := s.sec.vcore
             slots := s.sec.slots, revoked := s.sec.revoked, arb := s.sec.arb } }

/-- The straps set the reset values of SEC_BOOT_STAT.MODE and of precoding (R7, R341, R567). -/
def State.strapPre (s : State) : State :=
  let s := s.setFld F.SEC_BOOT_STAT.MODE s.sec.bootMode
  if s.sec.gwPre then s.each (List.range 8) (fun k s => (s.setFlag F.GWP_LANE_CTRL.TX_PRE true k).setFlag F.GWP_LANE_CTRL.RX_PRE true k) else s

/-- PORST_N rises (R7, R567, R647): every register has its reset value, the straps are sampled. With PWR_GOOD high boot begins at once. -/
def doPorstN (mode addr : Nat) (pre romOk : Bool) (s : State) : State :=
  let q := (s.afterReset {}).modSec (fun c => { c with bootMode := mode, smbAddr := addr, gwPre := pre, pwrGood := s.sec.pwrGood
                                                       pwrEn := s.sec.pwrGood })
  let q := q.strapPre
  if s.sec.pwrGood then q.startRom romOk else q

/-- Registers that survive WRST_N (R304, R534, R554, R558 to R560, R562, R638). -/
def warmRegs : List RegKind :=
  [.TOP_SCRATCH, .FCL_STATUS_LO, .FCL_STATUS_HI, .FCL_CNT, .FCL_FF0, .FCL_FF1, .FCL_FF2, .FCL_FF3, .FCL_FF4, .FCL_FF5, .FCL_COINC_LO,
   .FCL_COINC_HI, .FCL_SAFE, .LUP_STAT, .LUP_SEQ, .FST_RGN]

/-- WRST_N rises (R7, R41, R49, R304, R335, R534, R541, R647): ignored while PWR_GOOD is low. The link goes down first. -/
def doWrstN (romOk : Bool) (s : State) : State :=
  if ¬ s.sec.pwrGood then s
  else
    let s := s.when (s.flag F.GWP_STAT.LINK_UP) (·.gwLinkDown false)
    let ready := s.flag F.FST_STAT.READY
    let q := s.afterReset (keepRegs warmRegs s.regs)
    let q := { q with
      time := { now := s.time.now }
      lup := { buf := s.lup.buf, dump := s.lup.dump }
      fcl := { safeD02 := s.fcl.safeD02, lateDue := s.fcl.lateDue, ffCycle := s.fcl.ffCycle }
      fst := { rows := s.fst.rows, attempts := s.fst.attempts, selfRefresh := true }
      pmu := { cyc := s.pmu.cyc }
      cfg := { warm := true }
      gwl := { epoch := s.gwl.epoch }
      sec := { q.sec with pwrGood := true, pwrEn := s.sec.pwrEn, warm := true } }
    let q := (q.setFlag F.FST_STAT.READY ready).strapPre.showResources
    q.startRom romOk

/-- WARM_RESET_DONE (R49): the blooms are cleared, Korlet is ready for configuration; the stack leaves self-refresh. -/
def doWarmResetDone (s : State) : State :=
  if s.cfg.warm then
    { (s.modCfg (fun c => { c with warm := false })).modFst (fun f => { f with selfRefresh := false }) with blm := {} }
  else s

/-- Standby (R28, R566, R645): every domain but D00 has lost its state; SMB[0] keeps its own. -/
def State.toStandby (s : State) : State :=
  let q := s.afterReset (keepRegs [.SMB0_CTRL, .SMB0_STAT, .SMB0_CNT, .SMB0_ALERT] s.regs)
  { q with time := { now := s.time.now }, smb := { ptr := s.smb.ptr, lupPtr := s.smb.lupPtr } }.strapPre

/-- PWR_GOOD_RISE (R565, R572): boot begins. -/
def doPwrGoodRise (romOk : Bool) (s : State) : State :=
  if s.sec.pwrGood then s else (s.modSec (fun c => { c with pwrGood := true, pwrEn := true, warm := false })).startRom romOk

/-- POWER_LOSS (R645): PWR_GOOD falls outside standby with PWR_EN high. -/
def doPowerLoss (s : State) : State := if s.sec.pwrGood then s.toStandby else s

/-- PWR_GOOD_TIMEOUT (R644). -/
def doPwrGoodTimeout (s : State) : State :=
  if s.sec.pwrEn ∧ ¬ s.sec.pwrGood then s.modSec (fun c => { c with pwrEn := false }) else s

/-- WAKE_IN (R517, R566): a wake in standby drives PWR_EN high. -/
def doWakeIn (s : State) : State :=
  if s.sec.pwrGood ∨ s.sec.pwrEn then s else (s.modSec (fun c => { c with pwrEn := true })).alert 3

/-- STANDBY_ENTRY (R566, R645): firmware completes a standby request once no Lupin save is owed or under way: ports and link stop, PWR_EN
goes low. PWR_GOOD falls with it (DEDUCED: no command stands for that fall). -/
def doStandbyEntry (s : State) : State :=
  if ¬ s.sec.pwrGood ∨ ¬ s.sec.standby ∨ s.saveOwed ∨ s.lup.saving.isSome ∨ s.fcl.safe then s
  else
    let s := s.each (List.range 30) (fun p s => s.portRun p false)
    let s := s.each (List.range 4) (fun n s => s.displayRun n false)
    (s.gwEnable false).toStandby

/-! Meanings. -/

def execPorstN (bootMode smbAddr : BitVec 2) (gwPre romOk : Bool) (s : State) : Host.Outcome State Fault Refusal :=
  .next (doPorstN bootMode.toNat smbAddr.toNat gwPre romOk s)
def execWrstN (romOk : Bool) (s : State) : Host.Outcome State Fault Refusal := .next (doWrstN romOk s)
def execWarmResetDone (s : State) : Host.Outcome State Fault Refusal := .next (doWarmResetDone s)
def execPwrGoodRise (romOk : Bool) (s : State) : Host.Outcome State Fault Refusal := .next (doPwrGoodRise romOk s)
def execPowerLoss (s : State) : Host.Outcome State Fault Refusal := .next (doPowerLoss s)
def execPwrGoodTimeout (s : State) : Host.Outcome State Fault Refusal := .next (doPwrGoodTimeout s)
def execWakeIn (s : State) : Host.Outcome State Fault Refusal := .next (doWakeIn s)
def execStandbyEntry (s : State) : Host.Outcome State Fault Refusal := .next (doStandbyEntry s)
def execImageLoadDone (flash : List FlashArea) (s : State) : Host.Outcome State Fault Refusal := .next (doImageLoadDone flash s)
def execImageVerifyDone (typ : BitVec 8) (sigOk idOk : Bool) (s : State) : Host.Outcome State Fault Refusal :=
  .next (doImageVerifyDone typ.toNat sigOk idOk s)
def execProfileApply (s : State) : Host.Outcome State Fault Refusal := .next (doProfileApply s).bootAdvance
def execScriptEntry (port : Fin 32) (ok : Bool) (s : State) : Host.Outcome State Fault Refusal := .next (doScriptEntry port ok s)
def execScriptTimeout (port : Fin 32) (s : State) : Host.Outcome State Fault Refusal := .next (doScriptTimeout port s)
/-- APHY_LINK_UP (R125): boot waits for the links of its ports (R572). -/
def execAphyLinkUp (port : Fin 30) (s : State) : Host.Outcome State Fault Refusal := .next (doAphyLinkUp port s).bootAdvance
def execDisplayLinkUp (port : Fin 4) (s : State) : Host.Outcome State Fault Refusal := .next (doDisplayLinkUp port s).bootAdvance

end Sys2Proof.Machine
end

