-- ==== Sys2Proof/Machine/GwPhy.lean ====
section
/-!
DEFINITION. Machine/GwPhy.lean: receive lanes and alignment markers of Geward (R316, R320 to R322, R325 to R336): block lock, deskew,
width, link up, and the slots that carry frames.
-/
namespace Sys2Proof.Machine

/-- Receive lane `k` works: the lane group runs with its PLL locked (R336), and the lane is not disabled. -/
def State.rxOn (s : State) (k : Nat) : Bool := s.flag F.GWP_CTRL.EN && s.gwp.pll && !s.flag F.GWP_LANE_CTRL.RX_DIS k

/-- Receive lane `k` is ready (R330). -/
def State.laneReady (s : State) (k : Nat) : Bool :=
  s.flag F.GWP_LANE_STAT.BLK_LOCK k && s.flag F.GWP_LANE_STAT.DESKEWED k && s.flag F.GWP_LANE_STAT.EQ_READY k

/-- RX_READY: far transmit lanes whose receive lanes are ready (R330). -/
def State.readyMask (s : State) : Nat :=
  (List.range 8).foldl (fun m k => if s.laneReady k then m ||| 1 <<< s.fld F.GWP_LANE_STAT.FAR_LANE k else m) 0

/-- Code of a width in RX_W and TX_W (R339). -/
def widthCode (w : Nat) : Nat := if w = 8 then 7 else w

/-- Lanes of the receive width in logical order. -/
def State.rxLanes (s : State) : List Nat :=
  let a := (List.range 8).filter (fun k => s.flag F.GWP_LANE_STAT.ACTIVE k)
  (List.range 8).filterMap (fun l => a.find? (fun k => s.fld F.GWP_LANE_STAT.LOGICAL k == l))

/-! Link up (R332). -/

/-- Both directions stand: LINK_UP sets, and the link layer starts with a new epoch (R332, R353). RX_NS is measured: a FREE VALUE between
180 and 250 ns (R368). -/
def State.tryUp (s : State) : State :=
  if s.flag F.GWP_STAT.LINK_UP ∨ s.fld F.GWP_STAT.RX_W = 0 ∨ ¬ s.gwp.said then s
  else
    let e := if (s.gwl.epoch + 1) % 2 ^ 32 = 0 then 1 else (s.gwl.epoch + 1) % 2 ^ 32
    let s := ((s.setFlag F.GWP_STAT.LINK_UP).count F.GWP_STAT.UP_CNT).wr .GWL_EPOCH_TX e
    let s := s.modGwl (fun g => { g with epoch := e, rxDone := false, grant := firstGrants, taken := {}, crdDue := false, crdAt := none })
    let s := s.modGwp (fun p => { p with asm := [], broken := false, slots := 0 })
    (s.setFld F.GWL_LAT.RX_NS (180 + s.free % 71)).draw

/-- The receive direction comes up when deskewed lanes carry each logical lane once in markers of one number (R332). -/
def State.tryWidth (seq w : Nat) (s : State) : State :=
  if s.fld F.GWP_STAT.RX_W ≠ 0 ∨ ¬ (w = 1 ∨ w = 2 ∨ w = 4 ∨ w = 8) then s
  else
    let on := fun (l : Nat) => (List.range 8).filter (fun k => s.flag F.GWP_LANE_STAT.DESKEWED k && (match (s.gwp.rx.get k).am with
      | some a => a.seq == seq && a.txw == w && a.logical == l
      | none => false))
    if (List.range w).all (fun l => (on l).length == 1) then
      let s := s.each (List.range w) (fun l s => s.each (on l) (fun k s =>
        (s.setFlag F.GWP_LANE_STAT.ACTIVE true k).setFld F.GWP_LANE_STAT.LOGICAL l k))
      (s.setFld F.GWP_STAT.RX_W (widthCode w)).tryUp
    else s

/-! Alignment markers (R327, R329 to R331). -/

/-- AM_TX (R327, R331): every lane sends its marker; the first one after the choice of a width announces it. -/
def doAmTx (s : State) : State :=
  if ¬ s.gwTxOn then s
  else
    let ls := s.gwp.lanes
    let mask := s.readyMask
    let am := fun (k : Nat) =>
      leBytes 1 0x4D ++ leBytes 1 k
        ++ leBytes 1 (match ls.zipIdx.find? (fun u => u.1 == k) with
          | some u => u.2
          | none => 0xFF)
        ++ leBytes 1 ls.length ++ leBytes 1 mask ++ leBytes 1 s.gwp.amSeq
        ++ leBytes 1 (b2n (s.flag F.GWP_LANE_CTRL.TX_PRE k) + 2 * b2n (s.flag F.GWP_LANE_STAT.FB_MODE k))
    let s := (s.sendSlot (fun _ => none) am).modGwp (fun p => { p with amSeq := (p.amSeq + 1) % 256 })
    if ls = [] then s
    else ((s.modGwp (fun p => { p with said := true })).setFld F.GWP_STAT.TX_W (widthCode ls.length)).tryUp

/-- The transmitter chooses its width on the second of two successive markers with the same mask `m` (R331). -/
def State.chooseWidth (seq m : Nat) (s : State) : State :=
  let go : Bool := match s.gwp.lastM with
    | some (q, n) => decide ((q + 1) % 256 = seq) && n == m
    | none => false
  let again : Bool := match s.gwp.lastM with
    | some (q, _) => q == seq
    | none => false
  let s := s.when (!again) (·.modGwp (fun p => { p with lastM := some (seq, m) }))
  let n := popcount 8 m
  let w := if 8 ≤ n then 8 else if 4 ≤ n then 4 else if 2 ≤ n then 2 else n
  if go ∧ s.gwp.lanes = [] ∧ 2 ^ s.fld F.GWP_CTRL.MIN_W ≤ w then
    s.modGwp (fun p => { p with lanes := (oneBits 8 m).take w })
  else s

/-- A valid alignment marker on receive lane `k`, with bytes 0 to 7 of its payload; `apart`: 16,385 blocks after the lane's last one
(R329 to R332). 15 blocks are 77 CORE cycles. -/
def doAlignmentMarkerRx (k : Nat) (am : Nat) (apart : Bool) (s : State) : State :=
  if ¬ s.rxOn k ∨ ¬ s.flag F.GWP_LANE_STAT.BLK_LOCK k then s
  else
    let lane := bits am 15 8
    let logical := bits am 23 16
    let w := bits am 31 24
    let ready := bits am 39 32
    let seq := bits am 47 40
    if 8 ≤ lane then s.count F.GWP_LANE_CNT1.AM_ERR k
    else
      let rx := s.gwp.rx.get k
      let steady : Bool := match rx.am with
        | some a => a.lane == lane && decide ((a.seq + 1) % 256 = seq) && apart
        | none => false
      let others := (List.range 8).filter (· != k)
      let dup := others.any (fun j => s.flag F.GWP_LANE_STAT.DESKEWED j && s.fld F.GWP_LANE_STAT.FAR_LANE j == lane)
      let late := others.any (fun j => s.laneReady j && (match (s.gwp.rx.get j).am with
        | some a => a.seq == seq && decide (a.time + 77 < s.time.now)
        | none => false))
      let s := s.when ((rx.am.isSome && !steady) || dup || late) (·.count F.GWP_LANE_CNT1.AM_ERR k)
      let s := s.modRx k (fun r => { r with
        am := some { lane := lane, seq := seq, txw := w, logical := logical, block := r.blocks, time := s.time.now }
        steady := steady
        fifo := if s.flag F.GWP_LANE_STAT.ACTIVE k then r.fifo else [] })
      let s := s.setFld F.GWP_LANE_STAT.FAR_LANE lane k
      let s := s.when (dup || late) (·.setFlag F.GWP_LANE_STAT.DESKEWED false k)
      let s := s.when (steady && !dup && !late) (·.setFlag F.GWP_LANE_STAT.DESKEWED true k)
      let s := s.setFld F.GWP_FAR.FAR_RX_READY ready
      let s := s.setFld F.GWP_FAR.FAR_TXLANES (putBits (s.fld F.GWP_FAR.FAR_TXLANES) lane lane (b2n (w != 0 && logical < 8)))
      let s := s.when (s.laneReady k) (·.chooseWidth seq ready)
      s.tryWidth seq w

/-! Slots of the receive width (R321, R333). -/

/-- The frame that is arriving ends: broken, or handed to the frame layer. -/
def State.endFrame (s : State) : State :=
  let b := s.gwp.asm.flatten
  let bad := s.gwp.broken
  let s := s.modGwp (fun p => { p with asm := [], broken := false, slots := 0 })
  if ¬ s.flag F.GWP_STAT.LINK_UP then s
  else if bad then s.badFrame
  else s.frameRx b

/-- One slot: what each lane of the width brought, in logical order. -/
def State.gwSlot (l : List GwBlk) (s : State) : State :=
  if l.all (· == .am) then s
  else
    let pieces := l.filterMap (fun g => match g with
      | .data b => some b
      | _ => none)
    if s.gwp.slots = 0 ∧ pieces = [] then s
    else
      let s := s.modGwp (fun p => { p with
        asm := p.asm ++ pieces, broken := p.broken || pieces.length != l.length, slots := p.slots + 1 })
      if 8 / max 1 l.length ≤ s.gwp.slots then s.endFrame else s

/-- Slots for which every lane of the width has a block. -/
def State.takeSlots : Nat → State → State
  | 0, s => s
  | n + 1, s =>
    let ls := s.rxLanes
    let heads := ls.filterMap (fun k => (s.gwp.rx.get k).fifo.head?)
    if ls = [] ∨ heads.length ≠ ls.length then s
    else State.takeSlots n ((s.each ls (fun k s => s.modRx k (fun r => { r with fifo := r.fifo.drop 1 }))).gwSlot heads)

/-- A block enters the lane's elastic buffer; while the receive direction is down a buffer holds 16 at most (R321). -/
def State.pushBlk (k : Nat) (g : GwBlk) (s : State) : State :=
  let on := s.flag F.GWP_LANE_STAT.ACTIVE k
  let s := s.when (on || decide ((s.gwp.rx.get k).fifo.length < 16)) (·.modRx k (fun r => { r with fifo := r.fifo ++ [g] }))
  if on then s.takeSlots 16 else s

/-! Blocks (R324 to R326, R328). -/

/-- LDN_RX (R335, R339): a valid LDN, in a block of a locked lane, sets LDN_RX; on a deskewed lane it takes the link down. -/
def doLdnRx (k : Nat) (s : State) : State :=
  if s.rxOn k ∧ s.flag F.GWP_LANE_STAT.BLK_LOCK k then
    (s.setFlag F.GWP_STAT.LDN_RX).when (s.flag F.GWP_LANE_STAT.DESKEWED k) (·.gwLinkDown true)
  else s

/-- Receive lane `k` leaves LOCK (R328, R335). `restart`: a new lock attempt starts. -/
def State.leaveLock (k : Nat) (restart : Bool) (s : State) : State :=
  let act := s.flag F.GWP_LANE_STAT.ACTIVE k
  let s := s.setFlag F.GWP_LANE_STAT.LOCK_LOST true k
  let s := (s.setFlag F.GWP_LANE_STAT.BLK_LOCK false k).setFlag F.GWP_LANE_STAT.DESKEWED false k
  let s := s.modRx k (fun r => { r with cnt := 0, hist := [], am := none, steady := false, fifo := [] })
  let s := s.when restart (·.startAttempt k)
  if act then s.gwLinkDown true else s

/-- A control block in LOCK (R326). -/
def State.controlRx (k : Nat) (b : List Byte) (s : State) : State :=
  let r := s.gwp.rx.get k
  let typ := leAt b 0 1
  if ¬ controlOk b ∨ ¬ (typ = 0x1E ∨ typ = 0x4D ∨ typ = 0x2D) then (s.count F.GWP_LANE_CNT0.CTRL_ERR k).pushBlk k .idle
  else if typ = 0x4D then
    let apart := match r.am with
      | some a => a.block + 16385 == r.blocks
      | none => false
    (doAlignmentMarkerRx k (leAt b 0 8) apart s).pushBlk k .am
  else if typ = 0x2D then doLdnRx k (s.pushBlk k .idle)
  else s.pushBlk k .idle

/-- A header in LOCK (R328): its place in the history, and the block's content. -/
def State.lockedRx (k v : Nat) (b : List Byte) (s : State) : State :=
  let bad := v != 1 && v != 3
  let s := s.modRx k (fun r => { r with hist := (bad :: r.hist).take 64, blocks := r.blocks + 1 })
  let s := s.when bad (·.count F.GWP_LANE_CNT0.HDR_INVALID k)
  if 16 ≤ ((s.gwp.rx.get k).hist.filter id).length then s.leaveLock k false
  else if bad then s.pushBlk k .bad
  else if v = 1 then s.pushBlk k (.data b)
  else s.controlRx k b

/-- A header in HUNT (R328). -/
def State.huntRx (k v : Nat) (s : State) : State :=
  if v = 1 ∨ v = 3 then
    let n := (s.gwp.rx.get k).cnt + 1
    let s := s.modRx k (fun r => { r with cnt := n })
    if n < 64 then s
    else (s.modRx k (fun r => { r with cnt := 0, hist := [], fails := 0, fifo := [] })).setFlag F.GWP_LANE_STAT.BLK_LOCK true k
  else (s.modRx k (fun r => { r with cnt := 0, slip := true })).setFld F.GWP_LANE_STAT.POS ((s.fld F.GWP_LANE_STAT.POS k + 1) % 129) k

/-- Decode the symbols of a payload, first symbol lowest (R315, R316, R318): their bits, and the last decided symbol. -/
def takeSymbols (pre inv : Bool) : Nat → Nat → Nat → List Bool × Nat
  | 0, last, _ => ([], last)
  | n + 1, last, w =>
    let t := takeSymbol pre inv last (w % 4)
    let p := valPair t.1
    let r := takeSymbols pre inv n t.2 (w / 4)
    (p.1 :: p.2 :: r.1, r.2)

/-- BLOCK_RX (R316, R325, R328): receive lane `k` takes the header symbol at its position, and the 128 payload symbols after it, as level
indices; after a slip the symbol `skipped` comes before them. A lane that takes blocks has its clock. -/
def doBlockRx (k skipped header payload : Nat) (s : State) : State :=
  if ¬ s.rxOn k ∨ ¬ s.clockUp (15 + k) ∨ ¬ s.clockUp 23 then s
  else
    let r := s.gwp.rx.get k
    let pre := s.flag F.GWP_LANE_CTRL.RX_PRE k
    let inv := s.flag F.GWP_LANE_CTRL.RX_INV k
    let last := if r.slip then (takeSymbol pre inv r.last skipped).2 else r.last
    let h := takeSymbol pre inv last header
    let q := takeSymbols pre inv 128 h.2 payload
    let d := descramble r.scr q.1
    let s := (s.modRx k (fun r => { r with last := q.2, scr := d.2, slip := false })).setFlag F.GWP_LANE_STAT.CLK_LOCK true k
    if s.flag F.GWP_LANE_STAT.BLK_LOCK k then s.lockedRx k h.1 (bitBytes 32 d.1) else s.huntRx k h.1

/-! Lock attempts (R320, R322, R334). -/

/-- EQ_CONVERGED (R322): the values that the equaliser has found are FREE VALUES; with EQ_FREEZE it holds those it has (R341). -/
def doEqConverged (k : Nat) (s : State) : State :=
  if s.rxOn k then
    let v := s.free
    let s := s.when (!s.flag F.GWP_LANE_CTRL.EQ_FREEZE k) (·.draw.wr .GWP_LANE_EQ ((bits v 31 28) <<< 28 + bits v 23 0) k)
    s.setFlag F.GWP_LANE_STAT.EQ_READY true k
  else s

/-- LOCK_ATTEMPT_TIMEOUT (R320, R334): the attempt has failed; three in a row change the mode. -/
def doLockAttemptTimeout (k : Nat) (s : State) : State :=
  if ¬ s.rxOn k ∨ s.flag F.GWP_LANE_STAT.BLK_LOCK k then s
  else
    let s := s.count F.GWP_LANE_STAT.ATTEMPTS k
    let n := (s.gwp.rx.get k).fails + 1
    let fb := s.flag F.GWP_LANE_STAT.FB_MODE k
    let next := if s.flag F.GWP_CTRL.FORCE_FB then true
      else if fb then decide (n < 3)
      else decide (3 ≤ n) && s.flag F.GWP_CTRL.FALLBACK_EN && s.refclkOk
    let s := s.modRx k (fun r => { r with fails := if next = fb then n else 0 })
    (s.startAttempt k).setFb k next

/-- LANE_CLOCK_LOCK_LOSS (R328, R335): the loop has lost its clock. -/
def doLaneClockLockLoss (k : Nat) (s : State) : State :=
  if ¬ s.rxOn k ∨ ¬ s.flag F.GWP_LANE_STAT.CLK_LOCK k then s
  else if s.flag F.GWP_LANE_STAT.BLK_LOCK k then s.leaveLock k true
  else s.startAttempt k

def execAlignmentMarkerRx (lane : Fin 8) (am : BitVec 64) (apart : Bool) (s : State) : Host.Outcome State Fault Refusal :=
  .next (doAlignmentMarkerRx lane am.toNat apart s)
def execAmTx (s : State) : Host.Outcome State Fault Refusal := .next (doAmTx s)
def execEqConverged (lane : Fin 8) (s : State) : Host.Outcome State Fault Refusal := .next (doEqConverged lane s)
def execLockAttemptTimeout (lane : Fin 8) (s : State) : Host.Outcome State Fault Refusal := .next (doLockAttemptTimeout lane s)
def execLdnRx (lane : Fin 8) (s : State) : Host.Outcome State Fault Refusal := .next (doLdnRx lane s)
def execLaneClockLockLoss (lane : Fin 8) (s : State) : Host.Outcome State Fault Refusal := .next (doLaneClockLockLoss lane s)

end Sys2Proof.Machine
end

