-- ==== Sys2Proof/Machine/Smb0.lean ====
section
/-!
DEFINITION. Machine/Smb0.lean: the board controller's bus SMB[0] (R508 to R518). A command of this file is one message that the
target has received or sent whole; SMB0_PROTOCOL_ERROR and SMB0_TIMEOUT are the messages that it did not.
-/
namespace Sys2Proof.Machine

/-- SYS runs (R513): it does not in standby, after its clock has stopped, or in stage 0x0F (R572). -/
def State.sysRuns (s : State) : Bool := s.sec.pwrGood && !s.sysStopped && s.bootStage != 0x0F

/-- A message is discarded (R516). -/
def State.smbDiscard (s : State) : State := s.count F.SMB0_CNT.ERR

/-- A command acts, when its code is served (R513, R523). -/
def State.smbAct (standby : Bool) (f : State → State) (s : State) : State :=
  if standby ∨ s.sysRuns then f (s.count F.SMB0_CNT.MSG) else (s.setFlag F.SMB0_STAT.CMD_NACK).smbDiscard

/-- Bytes that a read returns (R512). -/
def State.smbSend (b : List Byte) (s : State) : State := s.emit (.smb b)

/-- Data of STATUS (R510). -/
def State.smbStatus (s : State) : List Byte :=
  leBytes 1 s.powerState ++ leBytes 1 (b2n (!s.fcl.faultN) + 2 * b2n (s.flag F.SMB0_STAT.ALERT) + 4 * b2n s.sysRuns)
    ++ leBytes 1 s.bootStage ++ leBytes 1 0

def doStatus (s : State) : State := s.smbAct true (fun s => s.smbSend s.smbStatus)
def doDeviceId (s : State) : State := s.smbAct true (·.smbSend (leBytes 4 chipId))

/-- POWER_CTRL with WAKE = 1 (R510, R513, R566): it wakes Korlet from standby, and is ignored outside it. -/
def doPowerCtrlWake (s : State) : State := s.smbAct true doWakeIn

/-- POWER_CTRL with STANDBY = 1 (R510, R513): refused in the safe state; it requests standby of firmware, which runs only with SYS. -/
def doPowerCtrlStandby (s : State) : State :=
  s.smbAct true (fun s =>
    if s.fcl.safe then s.setFlag F.SMB0_STAT.STBY_REF
    else if s.sysRuns then s.modSec (fun c => { c with standby := true })
    else s)

def doTemp (s : State) : State :=
  s.smbAct false (fun s => s.smbSend ((List.range 12).flatMap (fun i => leBytes 2 (s.fld F.EGV_TEMP.TEMP i))))

def doFaults (s : State) : State :=
  s.smbAct false (fun s =>
    let s := s.settleMonitors
    s.smbSend (leBytes 4 (s.rd .FCL_STATUS_LO) ++ leBytes 4 (s.rd .FCL_STATUS_HI) ++ leBytes 4 (s.liveWord false)
      ++ leBytes 4 (s.liveWord true)))

/-- REG_PTR (R510): an offset or a LEN out of its range is not a valid pointer; the command is discarded (DEDUCED). -/
def doRegPtr (off len : Nat) (s : State) : State :=
  if s.sysRuns ∧ (off % 4 ≠ 0 ∨ len % 4 ≠ 0 ∨ len < 4 ∨ 252 < len) then s.smbDiscard
  else s.smbAct false (fun s => { s with smb := { s.smb with ptr := some (off, len) } })

/-- Offsets that SMB[0] does not reach (R511). -/
def smbExcluded (a : Nat) : Bool := inDoorbells a || inApertures a || inRemote a || 0x4000000 ≤ a

/-- One word of a REG_READ (R511, R631): 0xFF and ACC_ERR where nothing is reached. -/
def State.smbWord (a : Nat) (s : State) : List Byte × State :=
  let none_ := (List.replicate 4 (0xFF : Byte), s.setFlag F.SMB0_STAT.ACC_ERR)
  if smbExcluded a then none_
  else match bufAt a with
    | some _ => (s.readBuf a 4, s)
    | none => match s.readWord a with
      | some r => (leBytes 4 r.1, r.2)
      | none => none_

/-- REG_READ (R511, R512, R516): the registers in rising order; the pointer moves on by LEN. -/
def doRegRead (s : State) : State :=
  match s.smb.ptr with
  | none => if s.sysRuns then (s.setFlag F.SMB0_STAT.ACC_ERR).smbSend [0] else s.smbAct false id
  | some (off, len) => s.smbAct false (fun s =>
      let r := (List.range (len / 4)).foldl (fun (t : List Byte × State) n =>
        let w := t.2.smbWord (off + 4 * n)
        (t.1 ++ w.1, w.2)) ([], s)
      ({ r.2 with smb := { r.2.smb with ptr := some ((off + len) % 2 ^ 32, len) } }).smbSend (leBytes 1 len ++ r.1))

/-- A word that a REG_WRITE may write (R511, R631, R635). -/
def smbWritable (a : Nat) : Bool :=
  !smbExcluded a && (match bufAt a with
    | some b => b.1 != bufLupin.1
    | none => (findReg a).isSome)

/-- REG_WRITE (R511, R512): discarded whole when it is misaligned or touches what it does not reach; else the registers are written in
rising order. -/
def doRegWrite (off : Nat) (data : List Byte) (s : State) : State :=
  let n := data.length / 4
  if ¬ s.sysRuns then s.smbAct false id
  else if data.length % 4 ≠ 0 ∨ n = 0 ∨ 62 < n then (s.setFlag F.SMB0_STAT.PROTO).smbDiscard
  else if off % 4 ≠ 0 ∨ ¬ (List.range n).all (fun k => smbWritable (off + 4 * k)) then (s.setFlag F.SMB0_STAT.ACC_ERR).smbDiscard
  else
    (s.each (List.range n) (fun k s =>
      let a := off + 4 * k
      match bufAt a with
      | some _ => s.writeBuf a (bytesAt data (4 * k) 4)
      | none => doRegisterWrite .smb0 a (leAt data (4 * k) 4) s)).count F.SMB0_CNT.MSG

/-- LUP_PTR (R510): an index above 4,095 is discarded (DEDUCED). -/
def doLupPtr (i : Nat) (s : State) : State :=
  if s.sysRuns ∧ 4095 < i then s.smbDiscard else s.smbAct false (fun s => { s with smb := { s.smb with lupPtr := i } })

/-- LUP_READ (R510): seven records from the pointer, which stays; `corrected`: the memory words that the read corrects (R562). -/
def doLupRead (corrected : Nat) (s : State) : State :=
  s.smbAct false (fun s => (s.addTo F.LUP_CNT.CORR corrected).smbSend (leBytes 1 224 ++ (List.range 7).flatMap (fun k => s.lupSlot ((s.smb.lupPtr + k) % 4096))))

/-- Clear pending causes; cause 0 stays while Korlet is in the safe state (R517). -/
def State.clearAlerts (mask : Nat) (s : State) : State :=
  let p := s.rd .SMB0_ALERT
  s.wr .SMB0_ALERT (p - (p &&& mask) ||| b2n s.fcl.safe)

/-- ALERT_STATUS (R517): it clears the pending bits that it returns. -/
def doAlertStatus (s : State) : State :=
  s.smbAct true (fun s => (s.smbSend (leBytes 1 (s.rd .SMB0_ALERT))).clearAlerts (s.rd .SMB0_ALERT))

def doAlertClear (mask : Nat) (s : State) : State := s.smbAct true (State.clearAlerts mask)

/-- ALERT_RESPONSE (R518): answered while SMB_ALERT_N is asserted; Korlet wins or loses the arbitration. -/
def doAlertResponse (wins : Bool) (s : State) : State :=
  if s.flag F.SMB0_STAT.ALERT ∧ wins then
    ((s.setFlag F.SMB0_STAT.ALERT false).setFlag F.SMB0_STAT.ARA_WON).smbSend (leBytes 1 ((0x58 + s.sec.smbAddr) <<< 1))
  else s

/-- SMB0_TIMEOUT (R515). -/
def doSmb0Timeout (s : State) : State :=
  if s.flag F.SMB0_CTRL.TMO_EN then (s.setFlag F.SMB0_STAT.TIMEOUT).smbDiscard else s

/-- SMB0_PROTOCOL_ERROR (R513, R514, R516): the message's record; an overread discards no command, and with PEC off a PEC byte is an excess
byte. -/
def doSmb0ProtocolError (e : SmbError) (s : State) : State :=
  match e with
  | .cmdNack => (s.setFlag F.SMB0_STAT.CMD_NACK).smbDiscard
  | .proto => (s.setFlag F.SMB0_STAT.PROTO).smbDiscard
  | .rsAck => (s.setFlag F.SMB0_STAT.RS_ACK).smbDiscard
  | .overread => s.setFlag F.SMB0_STAT.OVERREAD
  | .short => (s.setFlag F.SMB0_STAT.SHORT).smbDiscard
  | .pec => (s.setFlag (if s.fld F.SMB0_CTRL.PEC_MODE = 0 then F.SMB0_STAT.PROTO else F.SMB0_STAT.PEC_ERR)).smbDiscard

def execStatus (s : State) : Host.Outcome State Fault Refusal := .next (doStatus s)
def execDeviceId (s : State) : Host.Outcome State Fault Refusal := .next (doDeviceId s)
def execPowerCtrlWake (s : State) : Host.Outcome State Fault Refusal := .next (doPowerCtrlWake s)
def execPowerCtrlStandby (s : State) : Host.Outcome State Fault Refusal := .next (doPowerCtrlStandby s)
def execTemp (s : State) : Host.Outcome State Fault Refusal := .next (doTemp s)
def execFaults (s : State) : Host.Outcome State Fault Refusal := .next (doFaults s)
def execRegPtr (offset : BitVec 32) (len : BitVec 8) (s : State) : Host.Outcome State Fault Refusal := .next (doRegPtr offset.toNat len.toNat s)
def execRegRead (s : State) : Host.Outcome State Fault Refusal := .next (doRegRead s)
def execLupPtr (index : BitVec 16) (s : State) : Host.Outcome State Fault Refusal := .next (doLupPtr index.toNat s)
def execLupRead (corrected : BitVec 8) (s : State) : Host.Outcome State Fault Refusal := .next (doLupRead corrected.toNat s)
def execAlertStatus (s : State) : Host.Outcome State Fault Refusal := .next (doAlertStatus s)
def execAlertClear (mask : BitVec 8) (s : State) : Host.Outcome State Fault Refusal := .next (doAlertClear mask.toNat s)
/-- QUICK_COMMAND (R508): acknowledged and ignored. -/
def execQuickCommand (s : State) : Host.Outcome State Fault Refusal := .next s
def execAlertResponse (wins : Bool) (s : State) : Host.Outcome State Fault Refusal := .next (doAlertResponse wins s)
def execSmb0Timeout (s : State) : Host.Outcome State Fault Refusal := .next (doSmb0Timeout s)
def execSmb0ProtocolError (kind : SmbError) (s : State) : Host.Outcome State Fault Refusal := .next (doSmb0ProtocolError kind s)

end Sys2Proof.Machine
end

