-- ==== Sys2Proof/Machine/Release.lean ====
section
/-!
DEFINITION. Machine/Release.lean: the injectors' commands (R550, R551, R564), and the commands that can disarm an injector: register
writes on every path (R8, R32), and the frames and blocks of Geward that carry them.
-/
namespace Sys2Proof.Machine

/-- A released unit passes the injectors after `i`, and goes on at its target's point of action (R550, R551). -/
def State.releaseUnit (i link inst : Nat) (u : InjUnit) (s : State) : State :=
  let later := (List.range 8).filter (fun j => decide (i < j))
  let pass := fun (f : InjUnit → State → State) => let q := s.injectThrough later link inst u
                                                   q.2.each q.1 f
  match u with
  | .frame b =>
    if link = 0 then
      let after := s.flag F.FIJ_CTRL.STAGE i
      let l := (s.stageInjectors after).filter (fun j => decide (i < j))
      if ¬ s.flag F.GWP_STAT.LINK_UP then s else if after then s.sendWire l b else s.sendStage l b
    else if s.flag F.GWP_STAT.LINK_UP then pass (fun u s => match u with
      | .frame b => s.rxChecked b
      | _ => s)
    else s
  | .packet _ => pass (fun u s => match u with
    | .packet p => doLongPacket inst p s
    | _ => s)
  | .canRx _ => pass (fun u s => match u with
    | .canRx m => doCanMessageRx inst m s
    | _ => s)
  | .canTx _ => pass (fun u s => match u with
    | .canTx f => s.emit (.can inst f)
    | _ => s)
  | .job _ => pass (fun u s => match u with
    | .job j => s.admitXfer inst j
    | _ => s)

/-- The units that injector `i` holds are released, the oldest first. -/
def State.releaseHeld (i : Nat) (s : State) : State :=
  let x := s.fcl.fij.get i
  let s := s.modFcl (fun f => { f with fij := f.fij.upd i (fun x => { x with held := [], cut := false }) })
  s.each x.held.reverse (fun u s => s.releaseUnit i x.link x.inst u)

/-- Units held by an injector that is no longer armed to hold them: ARM was written 0, or Korlet is in the safe state (R551). -/
def State.releaseDisarmed (s : State) : State :=
  s.each (List.range 8) (fun i s => s.when ((s.fcl.fij.get i).cut) (·.releaseHeld i))

/-- REORDER_RELEASE (R550): 1 ms has passed without a next unit. -/
def doReorderRelease (i : Nat) (s : State) : State := s.releaseHeld i

/-- INJECTOR_ARM (R551, R564). -/
def doInjectorArm (i : Nat) (arm : Bool) (s : State) : State := (s.armInjector i arm).releaseDisarmed

/-- INJECTOR_FIRE (R551): an armed injector fires when it has no place, or at its place. -/
def doInjectorFire (i : Nat) (s : State) : State :=
  if ¬ s.flag F.FIJ_TRIG.AT_EN i ∨ (s.ras.get (s.fld F.FIJ_TRIG.RASTER i)).line = s.fld F.FIJ_TRIG.LINE i then s.injStart i else s

def execReorderRelease (injector : Fin 8) (s : State) : Host.Outcome State Fault Refusal := .next (doReorderRelease injector s)
def execInjectorArm (injector : Fin 8) (arm : Bool) (s : State) : Host.Outcome State Fault Refusal :=
  .next (doInjectorArm injector arm s)
def execInjectorFire (injector : Fin 8) (s : State) : Host.Outcome State Fault Refusal := .next (doInjectorFire injector s)
def execRegisterWrite (path : Path) (offset : BitVec 26) (value : BitVec 32) (s : State) : Host.Outcome State Fault Refusal :=
  .next (doRegisterWrite path offset.toNat value.toNat s).releaseDisarmed
def execRegWrite (offset : BitVec 32) (data : List Byte) (s : State) : Host.Outcome State Fault Refusal :=
  .next (doRegWrite offset.toNat data s).releaseDisarmed
def execMwrRx (txn : HostTxn) (s : State) : Host.Outcome State Fault Refusal := .next (doMwrRx txn s).releaseDisarmed
def execDataFrameRx (frame : List Byte) (s : State) : Host.Outcome State Fault Refusal := .next (doDataFrameRx frame s).releaseDisarmed
def execBlockRx (lane : Fin 8) (skipped header : BitVec 2) (payload : BitVec 256) (s : State) : Host.Outcome State Fault Refusal :=
  .next (doBlockRx lane skipped.toNat header.toNat payload.toNat s).releaseDisarmed

end Sys2Proof.Machine
end

