-- ==== Sys2Proof/Machine/Dispatch.lean ====
section
/-!
DEFINITION. Machine/Dispatch.lean: one arm per constructor of Instr.
-/
namespace Sys2Proof.Machine

def exec (i : Instr) (s : State) : Host.Outcome State Fault Refusal :=
  match i with
  | .porstN bootMode smbAddr gwPre romOk => Sys2Proof.Machine.execPorstN bootMode smbAddr gwPre romOk s
  | .wrstN romOk => Sys2Proof.Machine.execWrstN romOk s
  | .warmResetDone => Sys2Proof.Machine.execWarmResetDone s
  | .pwrGoodRise romOk => Sys2Proof.Machine.execPwrGoodRise romOk s
  | .powerLoss => Sys2Proof.Machine.execPowerLoss s
  | .pwrGoodTimeout => Sys2Proof.Machine.execPwrGoodTimeout s
  | .wakeIn => Sys2Proof.Machine.execWakeIn s
  | .standbyEntry => Sys2Proof.Machine.execStandbyEntry s
  | .imageLoadDone flash => Sys2Proof.Machine.execImageLoadDone flash s
  | .imageVerifyDone typ sigOk idOk => Sys2Proof.Machine.execImageVerifyDone typ sigOk idOk s
  | .profileApply => Sys2Proof.Machine.execProfileApply s
  | .scriptEntry port ok => Sys2Proof.Machine.execScriptEntry port ok s
  | .scriptTimeout port => Sys2Proof.Machine.execScriptTimeout port s
  | .handover => Sys2Proof.Machine.execHandover s
  | .attest => Sys2Proof.Machine.execAttest s
  | .unlock => Sys2Proof.Machine.execUnlock s
  | .keyOp => Sys2Proof.Machine.execKeyOp s
  | .cert => Sys2Proof.Machine.execCert s
  | .arbCommit => Sys2Proof.Machine.execArbCommit s
  | .secOpDone sigOk otpOk => Sys2Proof.Machine.execSecOpDone sigOk otpOk s
  | .commitRequest group => Sys2Proof.Machine.execCommitRequest group s
  | .discard group => Sys2Proof.Machine.execDiscard group s
  | .consistencyCheckEnd group => Sys2Proof.Machine.execConsistencyCheckEnd group s
  | .registerWrite path offset value => Sys2Proof.Machine.execRegisterWrite path offset value s
  | .rasterLineBoundary raster => Sys2Proof.Machine.execRasterLineBoundary raster s
  | .rasterStart raster => Sys2Proof.Machine.execRasterStart raster s
  | .rasterAlignedStart raster => Sys2Proof.Machine.execRasterAlignedStart raster s
  | .trigger stream => Sys2Proof.Machine.execTrigger stream s
  | .tsyncEdge => Sys2Proof.Machine.execTsyncEdge s
  | .holdoverTimeout => Sys2Proof.Machine.execHoldoverTimeout s
  | .todSet hi => Sys2Proof.Machine.execTodSet hi s
  | .rasPosRead raster => Sys2Proof.Machine.execRasPosRead raster s
  | .rasTodLoRead => Sys2Proof.Machine.execRasTodLoRead s
  | .loRegisterRead offset => Sys2Proof.Machine.execLoRegisterRead offset s
  | .syncWordRx word => Sys2Proof.Machine.execSyncWordRx word s
  | .syncLoss => Sys2Proof.Machine.execSyncLoss s
  | .unlockLimit stream => Sys2Proof.Machine.execUnlockLimit stream s
  | .portRun port run => Sys2Proof.Machine.execPortRun port run s
  | .aphyLinkUp port => Sys2Proof.Machine.execAphyLinkUp port s
  | .aphyLinkDown port part => Sys2Proof.Machine.execAphyLinkDown port part s
  | .frameStartPacket port hdr => Sys2Proof.Machine.execFrameStartPacket port hdr s
  | .frameEndPacket port hdr => Sys2Proof.Machine.execFrameEndPacket port hdr s
  | .lineStartPacket port hdr => Sys2Proof.Machine.execLineStartPacket port hdr s
  | .lineEndPacket port hdr => Sys2Proof.Machine.execLineEndPacket port hdr s
  | .longPacket port pkt => Sys2Proof.Machine.execLongPacket port pkt s
  | .substitutePublished stream line => Sys2Proof.Machine.execSubstitutePublished stream line s
  | .frameTimeout stream => Sys2Proof.Machine.execFrameTimeout stream s
  | .occupancyBroadcast => Sys2Proof.Machine.execOccupancyBroadcast s
  | .lineRelease line consumer => Sys2Proof.Machine.execLineRelease line consumer s
  | .tileEmit => Sys2Proof.Machine.execTileEmit s
  | .tileStage bloom slot corrected => Sys2Proof.Machine.execTileStage bloom slot corrected s
  | .petalPick petal => Sys2Proof.Machine.execPetalPick petal s
  | .crossBloomSteal petal => Sys2Proof.Machine.execCrossBloomSteal petal s
  | .tileComplete petal upsets corrected => Sys2Proof.Machine.execTileComplete petal upsets corrected s
  | .ledgerVerdict line corrected => Sys2Proof.Machine.execLedgerVerdict line corrected s
  | .bloomHalt bloom halt => Sys2Proof.Machine.execBloomHalt bloom halt s
  | .hashProbe value => Sys2Proof.Machine.execHashProbe value s
  | .prdDefine dom ring idx => Sys2Proof.Machine.execPrdDefine dom ring idx s
  | .prdUpdate dom ring idx => Sys2Proof.Machine.execPrdUpdate dom ring idx s
  | .prdRetire dom ring idx => Sys2Proof.Machine.execPrdRetire dom ring idx s
  | .productChecksDone => Sys2Proof.Machine.execProductChecksDone s
  | .trainingEnd ok => Sys2Proof.Machine.execTrainingEnd ok s
  | .hbmTempRead celsius => Sys2Proof.Machine.execHbmTempRead celsius s
  | .scrubRow corrected bad => Sys2Proof.Machine.execScrubRow corrected bad s
  | .fstRequestDone pc corrected bad => Sys2Proof.Machine.execFstRequestDone pc corrected bad s
  | .caParityError pc scrub => Sys2Proof.Machine.execCaParityError pc scrub s
  | .fstProbe value => Sys2Proof.Machine.execFstProbe value s
  | .selfRefreshEntry => Sys2Proof.Machine.execSelfRefreshEntry s
  | .gwPllLock => Sys2Proof.Machine.execGwPllLock s
  | .blockRx lane skipped header payload => Sys2Proof.Machine.execBlockRx lane skipped header payload s
  | .alignmentMarkerRx lane am apart => Sys2Proof.Machine.execAlignmentMarkerRx lane am apart s
  | .amTx => Sys2Proof.Machine.execAmTx s
  | .eqConverged lane => Sys2Proof.Machine.execEqConverged lane s
  | .lockAttemptTimeout lane => Sys2Proof.Machine.execLockAttemptTimeout lane s
  | .ldnRx lane => Sys2Proof.Machine.execLdnRx lane s
  | .retrain => Sys2Proof.Machine.execRetrain s
  | .gwDisable en => Sys2Proof.Machine.execGwDisable en s
  | .linkTimeout => Sys2Proof.Machine.execLinkTimeout s
  | .initFrameTx => Sys2Proof.Machine.execInitFrameTx s
  | .initFrameRx frame => Sys2Proof.Machine.execInitFrameRx frame s
  | .dataFrameRx frame => Sys2Proof.Machine.execDataFrameRx frame s
  | .ctrlFrameRx frame => Sys2Proof.Machine.execCtrlFrameRx frame s
  | .replayTimeout => Sys2Proof.Machine.execReplayTimeout s
  | .linkFrameTx => Sys2Proof.Machine.execLinkFrameTx s
  | .creditRecordTx => Sys2Proof.Machine.execCreditRecordTx s
  | .mwrRx txn => Sys2Proof.Machine.execMwrRx txn s
  | .mrdRx txn => Sys2Proof.Machine.execMrdRx txn s
  | .cplRx txn => Sys2Proof.Machine.execCplRx txn s
  | .cplTimeout tag => Sys2Proof.Machine.execCplTimeout tag s
  | .hostRetryReissue tag => Sys2Proof.Machine.execHostRetryReissue tag s
  | .time hostTime placed => Sys2Proof.Machine.execTime hostTime placed s
  | .writeFault dom tag cause addr => Sys2Proof.Machine.execWriteFault dom tag cause addr s
  | .doorbell source page value => Sys2Proof.Machine.execDoorbell source page value s
  | .doorbellProcess => Sys2Proof.Machine.execDoorbellProcess s
  | .descriptorFetch dom ring => Sys2Proof.Machine.execDescriptorFetch dom ring s
  | .nop dom ring idx => Sys2Proof.Machine.execNop dom ring idx s
  | .ringCreate dom ring idx => Sys2Proof.Machine.execRingCreate dom ring idx s
  | .ringDestroy dom ring idx => Sys2Proof.Machine.execRingDestroy dom ring idx s
  | .ringStop dom ring idx => Sys2Proof.Machine.execRingStop dom ring idx s
  | .ringResume dom ring idx => Sys2Proof.Machine.execRingResume dom ring idx s
  | .ringQuery dom ring idx => Sys2Proof.Machine.execRingQuery dom ring idx s
  | .domSet dom ring idx => Sys2Proof.Machine.execDomSet dom ring idx s
  | .domReset dom ring idx => Sys2Proof.Machine.execDomReset dom ring idx s
  | .fstCopy dom ring idx => Sys2Proof.Machine.execFstCopy dom ring idx s
  | .hqeEnable => Sys2Proof.Machine.execHqeEnable s
  | .adminResume => Sys2Proof.Machine.execAdminResume s
  | .contextFill ring => Sys2Proof.Machine.execContextFill ring s
  | .hostLineRelease product => Sys2Proof.Machine.execHostLineRelease product s
  | .displayPortRun port run => Sys2Proof.Machine.execDisplayPortRun port run s
  | .displayLinkUp port => Sys2Proof.Machine.execDisplayLinkUp port s
  | .displayLinkDown port => Sys2Proof.Machine.execDisplayLinkDown port s
  | .layerFetch port corrected => Sys2Proof.Machine.execLayerFetch port corrected s
  | .displayLine port => Sys2Proof.Machine.execDisplayLine port s
  | .readback port slot value => Sys2Proof.Machine.execReadback port slot value s
  | .hostLineHeader port data => Sys2Proof.Machine.execHostLineHeader port data s
  | .hostLineData port offset data => Sys2Proof.Machine.execHostLineData port offset data s
  | .hostInputTimeout port => Sys2Proof.Machine.execHostInputTimeout port s
  | .proofLogDelivery => Sys2Proof.Machine.execProofLogDelivery s
  | .mgdSet dom ring idx => Sys2Proof.Machine.execMgdSet dom ring idx s
  | .mgdLoad dom ring idx => Sys2Proof.Machine.execMgdLoad dom ring idx s
  | .assetLoadDone signatureOk => Sys2Proof.Machine.execAssetLoadDone signatureOk s
  | .mgdLog dom ring idx => Sys2Proof.Machine.execMgdLog dom ring idx s
  | .bankRecheck bank ok => Sys2Proof.Machine.execBankRecheck bank ok s
  | .canMessageRx channel msg => Sys2Proof.Machine.execCanMessageRx channel msg s
  | .filterStale filter => Sys2Proof.Machine.execFilterStale filter s
  | .canBusOff channel => Sys2Proof.Machine.execCanBusOff channel s
  | .canBusOffRecovery channel => Sys2Proof.Machine.execCanBusOffRecovery channel s
  | .restart channel => Sys2Proof.Machine.execRestart channel s
  | .txObjectDue object => Sys2Proof.Machine.execTxObjectDue object s
  | .canFrameTx channel => Sys2Proof.Machine.execCanFrameTx channel s
  | .vbrLoad dom ring idx => Sys2Proof.Machine.execVbrLoad dom ring idx s
  | .vbrXfer dom ring idx => Sys2Proof.Machine.execVbrXfer dom ring idx s
  | .lvtTick => Sys2Proof.Machine.execLvtTick s
  | .lvtPoll source => Sys2Proof.Machine.execLvtPoll source s
  | .remoteRead txn => Sys2Proof.Machine.execRemoteRead txn s
  | .remoteWrite txn => Sys2Proof.Machine.execRemoteWrite txn s
  | .tunnelXferDone port data cause => Sys2Proof.Machine.execTunnelXferDone port data cause s
  | .tunnelXferTimeout port => Sys2Proof.Machine.execTunnelXferTimeout port s
  | .openReadExpiry entry => Sys2Proof.Machine.execOpenReadExpiry entry s
  | .cacheLineExpiry port slot => Sys2Proof.Machine.execCacheLineExpiry port slot s
  | .parkRecordFree record => Sys2Proof.Machine.execParkRecordFree record s
  | .tableRead value => Sys2Proof.Machine.execTableRead value s
  | .status => Sys2Proof.Machine.execStatus s
  | .deviceId => Sys2Proof.Machine.execDeviceId s
  | .powerCtrlWake => Sys2Proof.Machine.execPowerCtrlWake s
  | .powerCtrlStandby => Sys2Proof.Machine.execPowerCtrlStandby s
  | .temp => Sys2Proof.Machine.execTemp s
  | .faults => Sys2Proof.Machine.execFaults s
  | .regPtr offset len => Sys2Proof.Machine.execRegPtr offset len s
  | .regRead => Sys2Proof.Machine.execRegRead s
  | .regWrite offset data => Sys2Proof.Machine.execRegWrite offset data s
  | .lupPtr index => Sys2Proof.Machine.execLupPtr index s
  | .lupRead corrected => Sys2Proof.Machine.execLupRead corrected s
  | .alertStatus => Sys2Proof.Machine.execAlertStatus s
  | .alertClear mask => Sys2Proof.Machine.execAlertClear mask s
  | .quickCommand => Sys2Proof.Machine.execQuickCommand s
  | .alertResponse wins => Sys2Proof.Machine.execAlertResponse wins s
  | .smb0Timeout => Sys2Proof.Machine.execSmb0Timeout s
  | .smb1Transfer firmware => Sys2Proof.Machine.execSmb1Transfer firmware s
  | .smb1Retry => Sys2Proof.Machine.execSmb1Retry s
  | .smb1TransferDone result data => Sys2Proof.Machine.execSmb1TransferDone result data s
  | .smb1Timeout sdaHeld cleared => Sys2Proof.Machine.execSmb1Timeout sdaHeld cleared s
  | .faultRaise source detail => Sys2Proof.Machine.execFaultRaise source detail s
  | .statusClear hi mask => Sys2Proof.Machine.execStatusClear hi mask s
  | .firstFaultClear => Sys2Proof.Machine.execFirstFaultClear s
  | .collectorSelfTest ok => Sys2Proof.Machine.execCollectorSelfTest ok s
  | .forceSafe path => Sys2Proof.Machine.execForceSafe path s
  | .policyLock => Sys2Proof.Machine.execPolicyLock s
  | .lupinRecordWrite => Sys2Proof.Machine.execLupinRecordWrite s
  | .freeze => Sys2Proof.Machine.execFreeze s
  | .clear => Sys2Proof.Machine.execClear s
  | .release => Sys2Proof.Machine.execRelease s
  | .lupMark path value => Sys2Proof.Machine.execLupMark path value s
  | .lupinSave => Sys2Proof.Machine.execLupinSave s
  | .lupinSaveDone ok corrected => Sys2Proof.Machine.execLupinSaveDone ok corrected s
  | .injectorArm injector arm => Sys2Proof.Machine.execInjectorArm injector arm s
  | .injectorFire injector => Sys2Proof.Machine.execInjectorFire injector s
  | .reorderRelease injector => Sys2Proof.Machine.execReorderRelease injector s
  | .grantTimer => Sys2Proof.Machine.execGrantTimer s
  | .ladderStep => Sys2Proof.Machine.execLadderStep s
  | .energyDebtLimit bloom => Sys2Proof.Machine.execEnergyDebtLimit bloom s
  | .clockChangeDone bloom => Sys2Proof.Machine.execClockChangeDone bloom s
  | .tempSample temps => Sys2Proof.Machine.execTempSample temps s
  | .agingMeasure pairs => Sys2Proof.Machine.execAgingMeasure pairs s
  | .avsStep => Sys2Proof.Machine.execAvsStep s
  | .egvBudget dom ring idx => Sys2Proof.Machine.execEgvBudget dom ring idx s
  | .pmuFreeze => Sys2Proof.Machine.execPmuFreeze s
  | .pmuUnfreeze => Sys2Proof.Machine.execPmuUnfreeze s
  | .snapNow => Sys2Proof.Machine.execSnapNow s
  | .counterOverflow counter => Sys2Proof.Machine.execCounterOverflow counter s
  | .clockMonitorFail domain parts => Sys2Proof.Machine.execClockMonitorFail domain parts s
  | .collectorSelfCheckFail code => Sys2Proof.Machine.execCollectorSelfCheckFail code s
  | .laneClockLockLoss lane => Sys2Proof.Machine.execLaneClockLockLoss lane s
  | .canBusError channel tx => Sys2Proof.Machine.execCanBusError channel tx s
  | .smb0ProtocolError kind => Sys2Proof.Machine.execSmb0ProtocolError kind s

end Sys2Proof.Machine
end

