-- ==== Sys2Proof/Machine/Step.lean ====
section
/-!
DEFINITION. Machine/Step.lean: one step of the block takes the command at the front of the queue; on an empty queue one CORE
cycle passes.
-/
namespace Sys2Proof.Machine

/-- One step: the front command acts on the state with the queue's rest. On an empty queue one CORE cycle passes (R60, R64).
DESIGN CHOICE (log entry 2). -/
def step (s : State) : Host.Outcome State Fault Refusal :=
  match s.pending with
  | c :: rest => exec c { s with pending := rest }
  | [] => .next s.cycle

/-- Put the command that a table word spells at the front of the queue. The table of this hardware gives no bits, so no word spells
a command and the state stays. -/
def State.withFetchWord (s : State) (nbits w : Nat) : State :=
  match decodeTableWord nbits w with
  | some c => { s with pending := c :: s.pending }
  | none => s

end Sys2Proof.Machine
end

