-- ==== Sys2Proof/Safety.lean ====
section
/-!
DEFINITION. Safety.lean: what counts as a safe run, and how the statements say what a command leaves unchanged.
-/
namespace Sys2Proof.Machine

/-- A run of `k` steps from `s` ends in a next state. -/
def SafeRun (k : Nat) (s : State) : Prop := ∃ t, Sys2Proof.core.run k s = .next t

/-- Everything but the register file is the same in both states. -/
def OnlyRegs (s t : State) : Prop := { t with regs := s.regs } = s

/-- Every register instance outside a list reads the same in both states. Every index of the map is below 4,096. -/
def SameRegs (l : List RegId) (s t : State) : Prop :=
  ∀ k i j, i < 4096 → j < 4096 → (⟨k, i, j⟩ : RegId) ∉ l → t.rd k i j = s.rd k i j

/-- Registers that a report can change: those of the collector, of Lupin, of the injectors, of the performance monitor and of the board
alert, the records and counters of host rings, and what the entry into the safe state clears (R403 to R412, R529 to R547). -/
def RegKind.reported (k : RegKind) : Bool := match k with
  | .FCL_SAFE | .FCL_STATUS_LO | .FCL_STATUS_HI | .FCL_COINC_LO | .FCL_COINC_HI | .FCL_FF0 | .FCL_FF1 | .FCL_FF2 | .FCL_FF3 | .FCL_FF4
  | .FCL_FF5 | .FCL_CNT | .LUP_STAT | .LUP_SEQ | .LUP_CNT | .FIJ_CTRL | .FIJ_STAT | .PMU_CTRL | .PMU_CTR_LO | .PMU_CTR_HI | .SMB0_ALERT
  | .SMB0_STAT | .HQE_CNT1 | .HQE_ERR_REC0 | .HQE_ERR_REC1 | .HQE_ERR_REC2 | .PRD_STATE | .PRD_FOOT | .PRD_COST | .CFG_STATE | .POOL_STAT
  | .POOL_RESV_MIN | .BLM_FAST_LOAD | .EGV_BLOOM | .EGV_DEMAND | .BLM_TF_CTRL | .FST_SYS_FREE => true
  | _ => false

/-- The state without the parts that a report can change: the registers above, and the units that a report or the entry into the safe
state reaches. Two states of one `quiet` part agree in everything else. -/
def State.quiet (s : State) : State :=
  { s with regs := ⟨s.regs.cells.filter (fun c => !(RegKind.ofNat (c.1 / 2 ^ 24)).reported)⟩
           cfg := {}, pmu := {}, hqe := {}, gwl := {}, lup := {}, fcl := {}, prd := {}, blm := {}, vbr := {}, egv := {}
           pool := {}, seals := {}, tf := {} }

/-- Registers on which a write does no more than set fields by access type and class (R8, R9): no control field, no shown bit, no report
changes them. -/
def RegKind.plain (k : RegKind) : Bool := !k.reported && match k with
  | .CFG_COMMIT | .CFG_SYNC_CTRL | .CFG_TARGET | .CFG_REJECT | .RAS_TOD_SET_LO | .RAS_TOD_SET_HI | .RAS_MASTER | .ING_MAP | .BLM_TF_CTRL
  | .RAS_CTRL | .RAS_STRM_CFG | .ING_PORT_CTRL | .BLM_CTRL | .BLM_HASH_PROBE | .BLM_HASH_SEED_HI | .SEAL_ACC_CTRL | .FST_CTRL
  | .FST_PROBE_IN | .FST_HASH_SM | .GWP_CTRL | .HQE_CTRL | .DEG_PORT_CTRL | .VBR_TBL_ACC | .VBR_CAN_CTRL | .SMB0_CTRL | .SMB1_XFER
  | .FCL_CTRL | .FCL_SEV | .LUP_CTRL | .LUP_MARK | .SEC_CTRL | .SEC_OP_CTRL | .SEC_ATT_NONCE | .EGV_THERM | .PMU_SAMP_CTRL => false
  | _ => true

/-- No injector holds a unit (R550). -/
def State.noHeld (s : State) : Prop := ∀ i, i < 8 → (s.fcl.fij.get i).held = [] ∧ (s.fcl.fij.get i).cut = false

/-- No injector fires and none holds a unit: every unit passes unchanged (R551). -/
def State.injIdle (s : State) : Prop :=
  ∀ i, i < 8 → (s.fcl.fij.get i).firing = false ∧ (s.fcl.fij.get i).held = [] ∧ (s.fcl.fij.get i).cut = false

/-- What holds in every state that a run reaches: the register file is in its canonical form, and while Korlet is in the safe state FAULT_N is
low and PWR_GOOD high (R538, R541, R565). -/
structure State.Inv (s : State) : Prop where
  regs : s.regs.wf = true
  faultN : s.fcl.safe = true → s.fcl.faultN = false
  power : s.fcl.safe = true → s.sec.pwrGood = true

end Sys2Proof.Machine
end

