-- ==== Sys2Proof/Certificates/Slice0/Obligations.lean ====
section
/-!
DEFINITION. Certificates/Slice0/Obligations.lean: the statements about this hardware. A register of the map is named by its kind and its
two indices; `fld` and `flag` read a field of it as it is stored. `exec` acts on everything but the queue, `step` on the queue's front.
-/
open Sys2Proof Sys2Proof.Machine

/-! Power, resets and boot. -/

/-- R566, R644, R645: what moves Korlet between standby and a boot. -/
def Obligations.PowerEventsMoveBetweenStandbyAndBoot : Prop :=
  ∀ s : State,
    (s.sec.pwrEn = true → s.sec.pwrGood = false →
      exec .pwrGoodTimeout s = .next { s with sec := { s.sec with pwrEn := false } })
    ∧ (s.sec.pwrEn = false → s.sec.pwrGood = false →
      ∃ t, exec .wakeIn s = .next t ∧ t.sec = { s.sec with pwrEn := true } ∧ bit (t.rd .SMB0_ALERT) 3 = true
        ∧ SameRegs [⟨.SMB0_ALERT, 0, 0⟩, ⟨.SMB0_STAT, 0, 0⟩] s t ∧ { t with regs := s.regs, sec := s.sec } = s)
    ∧ (s.sec.pwrGood = false →
      ∃ t, exec (.pwrGoodRise true) s = .next t ∧ t.sec = { s.sec with pwrGood := true, pwrEn := true, warm := false }
        ∧ t.bootStage = 2 ∧ t.fcl.faultN = true ∧ SameRegs [⟨.SEC_BOOT_STAT, 0, 0⟩, ⟨.EGV_AVS, 0, 0⟩] s t
        ∧ t.gwl = { s.gwl with epoch := t.gwl.epoch }
        ∧ { t with regs := s.regs, sec := s.sec, fcl := s.fcl, gwl := s.gwl, freeIdx := s.freeIdx } = s)
    ∧ (s.sec.pwrGood = true →
      ∃ t, exec .powerLoss s = .next t ∧ t.sec.pwrEn = false ∧ t.sec.pwrGood = false ∧ t.sec.standby = false
        ∧ t.lup = { dump := s.lup.dump } ∧ t.prd = {} ∧ t.hqe = {} ∧ t.gwl = {} ∧ t.pending = s.pending ∧ t.out = s.out
        ∧ t.sec.count = s.sec.count ∧ t.sec.slots = s.sec.slots ∧ t.sec.revoked = s.sec.revoked ∧ t.sec.arb = s.sec.arb
        ∧ (∀ k i j, i < 4096 → j < 4096 → k ∈ [RegKind.SMB0_CTRL, .SMB0_STAT, .SMB0_CNT, .SMB0_ALERT] → t.rd k i j = s.rd k i j)
        ∧ (∀ k i j, i < 4096 → j < 4096 → k ∉ [RegKind.SMB0_CTRL, .SMB0_STAT, .SMB0_CNT, .SMB0_ALERT, .GWP_LANE_CTRL, .SEC_BOOT_STAT] →
            t.rd k i j = (k.resetVal i).toNat)
        ∧ t.fld F.SEC_BOOT_STAT.MODE = s.sec.bootMode % 4)
    ∧ (s.sec.pwrGood = true → s.sec.standby = true → s.saveOwed = false → s.lup.saving = none → s.fcl.safe = false →
      ∃ t, exec .standbyEntry s = .next t ∧ t.sec.pwrEn = false ∧ t.sec.pwrGood = false ∧ t.sec.standby = false
        ∧ (∀ k i j, i < 4096 → j < 4096 → k ∉ [RegKind.SMB0_CTRL, .SMB0_STAT, .SMB0_CNT, .SMB0_ALERT, .GWP_LANE_CTRL, .SEC_BOOT_STAT] →
            t.rd k i j = (k.resetVal i).toNat)
        ∧ t.fld F.SEC_BOOT_STAT.MODE = s.sec.bootMode % 4)

/-- R7, R49: power-on reset gives every register its reset value; warm reset too, but for what survives it. With the link up, the warm
reset follows the fall of the link. -/
def Obligations.ResetsGiveTheResetValues : Prop :=
  ∀ s : State,
    (∀ m a p r, s.sec.pwrGood = false →
      ∃ t, exec (.porstN m a p r) s = .next t ∧ t.pending = s.pending ∧ t.lup = { dump := s.lup.dump } ∧ t.prd = {} ∧ t.hqe = {} ∧ t.cfg = {}
        ∧ t.sec.bootMode = m.toNat ∧ t.sec.smbAddr = a.toNat ∧ t.sec.gwPre = p ∧ t.sec.slots = s.sec.slots ∧ t.sec.arb = s.sec.arb
        ∧ (∀ k i j, i < 4096 → j < 4096 → k ≠ .GWP_LANE_CTRL → k ≠ .SEC_BOOT_STAT → t.rd k i j = (k.resetVal i).toNat)
        ∧ t.fld F.SEC_BOOT_STAT.MODE = m.toNat ∧ t.bootStage = 0
        ∧ (∀ l, l < 8 → t.flag F.GWP_LANE_CTRL.TX_PRE l = p ∧ t.flag F.GWP_LANE_CTRL.RX_PRE l = p))
    ∧ (s.sec.pwrGood = true →
      ∃ t, exec (.wrstN true) s = .next t ∧ t.pending = s.pending ∧ t.prd = {} ∧ t.hqe = {} ∧ t.cfg = { warm := true } ∧ t.bootStage = 2
        ∧ t.sec.warm = true ∧ t.fcl.safe = false ∧ t.fcl.faultN = true
        ∧ (let u := if s.flag F.GWP_STAT.LINK_UP then s.gwLinkDown false else s
           t.lup.buf = u.lup.buf ∧ t.fst.rows = u.fst.rows
           ∧ (∀ k i j, i < 4096 → j < 4096 → k ∈ warmRegs → t.rd k i j = u.rd k i j)
           ∧ t.flag F.FST_STAT.READY = u.flag F.FST_STAT.READY)
        ∧ (∀ k i j, i < 4096 → j < 4096 → k ∈ [RegKind.CFG_STATE, .CFG_REJECT, .CFG_LDROP, .RAS_CTRL, .RAS_PERIOD, .RAS_STRM_CFG, .ING_PORT_CTRL, .ING_PORT_STAT,
              .ING_MAP, .POOL_CTRL, .PRD_STATE, .HQE_CTRL, .GWP_CTRL, .GWP_STAT, .GWL_STAT, .DEG_PORT_CTRL, .MGD_CTRL, .MGD_BANK_STAT, .VBR_CTRL,
              .SMB0_CTRL, .SMB1_CTRL, .FCL_CTRL, .FCL_SEV, .FCL_REACT, .FIJ_CTRL, .FIJ_STAT, .SEC_UNLOCK, .EGV_CTRL, .PMU_CTRL, .PMU_CFG] →
            t.rd k i j = (k.resetVal i).toNat))
    ∧ (s.cfg.warm = true →
      exec .warmResetDone s = .next { s with cfg := { s.cfg with warm := false }, fst := { s.fst with selfRefresh := false }, blm := {} })

/-- R572, R570: images enter staging memory; the checks of an envelope run in order, and the first that fails gives the result. -/
def Obligations.BootImagesAreStagedAndChecked : Prop :=
  ∀ s : State,
    (∀ flash, (s.bootStage = 2 ∨ s.bootStage = 3) →
      ∃ t, exec (.imageLoadDone flash) s = .next t ∧ t.bootStage = 3
        ∧ (∀ k, k ∈ [1, 2, 3, 5] → s.sec.staged.get k = none → ¬ (k = 2 ∧ s.sec.bootMode = 1) →
            t.sec.staged.get k = (flashImage flash k (s.nextCopy k)).map (fun b => (s.nextCopy k, b)))
        ∧ (∀ k, (k ∉ [1, 2, 3, 5] ∨ s.sec.staged.get k ≠ none ∨ (k = 2 ∧ s.sec.bootMode = 1)) → t.sec.staged.get k = s.sec.staged.get k)
        ∧ t.sec = { s.sec with staged := t.sec.staged }
        ∧ SameRegs [⟨.SEC_BOOT_STAT, 0, 0⟩] s t ∧ { t with regs := s.regs, sec := s.sec } = s)
    ∧ (∀ c b, s.bootStage = 3 → s.sec.env.get 1 ≠ [] → s.sec.env.get 2 = [] → s.sec.staged.get 2 = some (c, b) → envFormat 2 b = true →
        s.envKeyOk 2 b = true → s.envDeviceOk 2 b = true → sha3 (envPayload b) = bytesAt b 96 64 → s.envRollbackOk 2 b = true →
        primroseCheck (envPayload b) = true →
      ∃ t, exec (.imageVerifyDone 2 true true) s = .next t ∧ t.fld F.SEC_BOOT_STAT.PROF = (if s.nextCopy 2 then 2 else 1)
        ∧ t.sec = { s.sec with env := s.sec.env.set 2 b } ∧ t.bootStage = 3
        ∧ SameRegs [⟨.SEC_BOOT_STAT, 0, 0⟩] s t ∧ { t with regs := s.regs, sec := s.sec } = s)
    ∧ (∀ c b, s.bootStage = 3 → s.sec.env.get 1 ≠ [] → s.sec.env.get 2 = [] → s.sec.staged.get 2 = some (c, b) → envFormat 2 b = true →
        s.envKeyOk 2 b = true → s.envDeviceOk 2 b = true → s.sec.tried = [] →
      ∃ t, exec (.imageVerifyDone 2 false true) s = .next t ∧ t.fld F.SEC_BOOT_STAT.LAST_ERR = 4 ∧ t.sec.env = s.sec.env
        ∧ t.sec.staged.get 2 = none ∧ t.sec.tried = [(2, s.nextCopy 2)] ∧ t.bootStage = 3)

/-- R576 to R579: applying the profile takes its show rules, its rasters and its ports, and boot waits for the links. What boot then does
by itself, once the links are up and the scripts have ended, is `bootAdvance`. -/
def Obligations.ProfileIsAppliedAndScriptsRunWithOneRetry : Prop :=
  ∀ s : State,
    (s.bootStage = 3 → s.sec.env.get 2 ≠ [] → s.fcl.safe = false →
      ∃ u : State, exec .profileApply s = .next u.bootAdvance ∧ u.bootStage = 5 ∧ u.sec.due = true
        ∧ u.sec.startRas = profRasters (envPayload (s.sec.env.get 2))
        ∧ u.sec.shows = (profShows (envPayload (s.sec.env.get 2))).map
            (fun e => { port := e.1, layer := e.2.1, settle := e.2.2.1, maxFr := e.2.2.2 }))
    ∧ (∀ (c : Fin 32) e r, s.bootStage = 6 → s.sec.scripts.get c = some { entries := e :: r } →
        (∃ u : State, exec (.scriptEntry c true) s = .next u.bootAdvance ∧ u.bootStage = 6 ∧ u.sec.scripts.get c = some { entries := r }
          ∧ SameRegs [⟨.SEC_BOOT_STAT, 0, 0⟩] s u ∧ { u with regs := s.regs, sec := s.sec } = s)
        ∧ (scOp e ≠ 2 → ∃ u : State, exec (.scriptEntry c false) s = .next u.bootAdvance ∧ u.bootStage = 6
          ∧ u.sec.scripts.get c = some { entries := e :: r, failed := true }))
    ∧ (∀ (c : Fin 32) e r, s.bootStage = 6 → s.sec.scripts.get c = some { entries := e :: r, failed := true } → scOp e ≠ 2 →
        ∃ u : State, exec (.scriptEntry c false) s = .next (u.runCode c false).bootAdvance
          ∧ u.sec.scripts.get c = some { entries := [], failed := true, stopped := true } ∧ c.val ∉ u.sec.startPorts)
    ∧ (∀ (c : Fin 32) e r f, s.bootStage = 6 → s.codeUp c = true → s.sec.scripts.get c = some { entries := e :: r, failed := f } →
        ∃ u : State, exec (.scriptTimeout c) s = .next (u.runCode c false).bootAdvance ∧ u.flag F.SEC_BOOT_STAT.SCRIPT_CUT = true
          ∧ u.sec.scripts.get c = some { entries := [], failed := f, stopped := true } ∧ c.val ∉ u.sec.startPorts)

/-- R581, R585, R595, R584: handover, and the operations of the security unit. -/
def Obligations.HandoverAndSecurityOperations : Prop :=
  ∀ s : State,
    ((s.bootStage = 8 ∨ s.bootStage = 0x0A) →
      ∃ t, exec .handover s = .next t ∧ t.bootStage = 9 ∧ bit (t.rd .SMB0_ALERT) 4 = true ∧ t.sec = { s.sec with handover := false }
        ∧ t.lup = (s.lupSubmit 0x04 0 0 0 0).lup
        ∧ SameRegs [⟨.SEC_BOOT_STAT, 0, 0⟩, ⟨.SMB0_ALERT, 0, 0⟩, ⟨.SMB0_STAT, 0, 0⟩, ⟨.LUP_CNT, 0, 0⟩] s t)
    ∧ (s.bootStage < 8 → exec .handover s = .next { s with sec := { s.sec with handover := true } })
    ∧ (s.bootStage = 9 → exec .handover s = .next s)
    ∧ (∀ p, p ∈ [(Instr.attest, 1), (Instr.unlock, 2), (Instr.keyOp, 3), (Instr.cert, 4), (Instr.arbCommit, 5)] →
        (s.flag F.SEC_OP_STAT.BUSY = false →
          ∃ t, exec p.1 s = .next t ∧ t.flag F.SEC_OP_STAT.BUSY = true ∧ t.fld F.SEC_OP_CTRL.OP = p.2 ∧ t.sec = { s.sec with op := p.2 }
            ∧ SameRegs [⟨.SEC_OP_CTRL, 0, 0⟩, ⟨.SEC_OP_STAT, 0, 0⟩] s t ∧ { t with regs := s.regs, sec := s.sec } = s)
        ∧ (s.flag F.SEC_OP_STAT.BUSY = true → exec p.1 s = .next s))
    ∧ (∀ sig otp, s.flag F.SEC_OP_STAT.BUSY = true → s.sec.op ∈ [1, 2, 3] → s.flag F.SEC_BOOT_STAT.ID_OK = false →
        ∃ t, exec (.secOpDone sig otp) s = .next t ∧ t.flag F.SEC_OP_STAT.BUSY = false ∧ t.flag F.SEC_OP_STAT.DONE = true
          ∧ t.fld F.SEC_OP_STAT.RESULT = 8 ∧ SameRegs [⟨.SEC_OP_STAT, 0, 0⟩] s t ∧ { t with regs := s.regs } = s)
    ∧ (∀ sig, s.flag F.SEC_OP_STAT.BUSY = true → s.sec.op = 5 →
        ∃ t, exec (.secOpDone sig true) s = .next t ∧ t.flag F.SEC_OP_STAT.BUSY = false ∧ t.flag F.SEC_OP_STAT.DONE = true
          ∧ t.fld F.SEC_OP_STAT.RESULT = 0 ∧ (∀ i, s.sec.arb.get i ≤ t.sec.arb.get i)
          ∧ (∀ e, e ∈ [s.sec.env.get 1, s.sec.env.get 2, s.validBank 0, s.validBank 1] → e ≠ [] →
              envCtrVal e % 64 ≤ t.sec.arb.get (envCtrIdx e % 64)))

/-! Configuration and commits. -/

/-- R35, R36, R38, R44: the life of a generation, from the request to the end of its check. -/
def Obligations.CommitsFreezeCheckAndReject : Prop :=
  ∀ (s : State) (g : Fin 8),
    (s.cfg.stg.get g = none →
      ∃ t, exec (.commitRequest g) s = .next t ∧ t.cfg.stg.get g = some { writes := s.cfg.opn.get g } ∧ t.cfg.opn.get g = []
        ∧ t.fld F.CFG_STATE.STATE g = 1 ∧ t.flag F.CFG_STATE.OPEN_DIRTY g = false
        ∧ SameRegs [⟨.CFG_STATE, g, 0⟩] s t ∧ { t with regs := s.regs, cfg := s.cfg } = s)
    ∧ (∃ t, exec (.discard g) s = .next t ∧ t.cfg = { s.cfg with opn := s.cfg.opn.set g [] } ∧ t.flag F.CFG_STATE.OPEN_DIRTY g = false
        ∧ SameRegs [⟨.CFG_STATE, g, 0⟩] s t ∧ { t with regs := s.regs, cfg := s.cfg } = s)
    ∧ (∀ q rule i, s.cfg.stg.get g = some q → q.passed = false → s.checkGen g q.writes = some (rule, i) →
        ∃ u t : State, exec (.consistencyCheckEnd g) s = .next t ∧ u.cfg.stg.get g = none ∧ u.cfg.opn.get g = s.cfg.opn.get g
          ∧ u.fld F.CFG_STATE.STATE g = 0 ∧ u.fld F.CFG_STATE.REJ_CNT g = min F.CFG_STATE.REJ_CNT.max (s.fld F.CFG_STATE.REJ_CNT g + 1)
          ∧ (s.flag F.CFG_REJECT.REJECTED g = false → u.rd .CFG_REJECT g = (1 <<< 31 + rule <<< 16 + i % 65536) % 2 ^ 32)
          ∧ (s.flag F.CFG_REJECT.REJECTED g = true → u.rd .CFG_REJECT g = s.rd .CFG_REJECT g)
          ∧ SameRegs [⟨.CFG_STATE, g, 0⟩, ⟨.CFG_REJECT, g, 0⟩] s u
          ∧ t = ((u.pmuAdd 0x005 0).raise 16 g).event 0 3 g (u.rd .CFG_REJECT g) 0 0)
    ∧ (∀ q, s.cfg.stg.get g = some q → q.passed = false → s.checkGen g q.writes = none → s.flag F.CFG_TARGET.EN g = false →
        ((s.ras.get g).running = true →
          ∃ t, exec (.consistencyCheckEnd g) s = .next t ∧ t.fld F.CFG_STATE.STATE g = 2
            ∧ t.cfg.stg.get g = some { q with passed := true, tookEn := false, late := false, due := ((s.ras.get g).frame + 1) % 2 ^ 32 }
            ∧ SameRegs [⟨.CFG_STATE, g, 0⟩] s t ∧ { t with regs := s.regs, cfg := s.cfg } = s)
        ∧ (∀ w, (s.ras.get g).running = false → q.writes = [w] → w.reg.kind.reported = false → w.reg.i < 4096 → w.reg.j < 4096 →
          ∃ u : State, exec (.consistencyCheckEnd g) s = .next u.showResources ∧ u.cfg.stg.get g = none ∧ u.fld F.CFG_STATE.STATE g = 0
            ∧ u.fld F.CFG_STATE.GEN g = (s.fld F.CFG_STATE.GEN g + 1) % 65536
            ∧ u.rd w.reg.kind w.reg.i w.reg.j
                = (s.rd w.reg.kind w.reg.i w.reg.j - (s.rd w.reg.kind w.reg.i w.reg.j &&& w.mask) + w.val) % 2 ^ 32))

/-- R8, R9, R45: a write of a register without a row of its own sets its fields by access type and class. The registers named by
`RegKind.plain` have no control field beside it; no unit is held by an injector that has been disarmed. -/
def Obligations.RegisterWriteFollowsAccessTypeAndClass : Prop :=
  ∀ (s : State) (path : Path) (off : BitVec 26) (v : BitVec 32) (r : RegId),
    findReg off.toNat = some r → r.kind.plain = true → s.noHeld →
    ∃ t, exec (.registerWrite path off v) s = .next t ∧ ∀ f, f ∈ r.kind.fields →
      (f.acc = .ro → t.fld f r.i r.j = s.fld f r.i r.j)
      ∧ (f.acc = .rw → f.cls = .s → t.fld f r.i r.j = s.fld f r.i r.j)
      ∧ (f.acc = .rw → f.cls = .l →
          t.fld f r.i r.j = if s.ownerRuns r.kind r.i r.j v.toNat then s.fld f r.i r.j else bits v.toNat f.hi f.lo)
      ∧ (f.acc = .rw → f.cls ≠ .s → f.cls ≠ .l → t.fld f r.i r.j = bits v.toNat f.hi f.lo)
      ∧ (f.acc = .w1c → ∀ b, b < f.hi + 1 - f.lo →
          bit (t.fld f r.i r.j) b = (bit (s.fld f r.i r.j) b && !bit (bits v.toNat f.hi f.lo) b))
      ∧ (f.acc = .w1cn → t.fld f r.i r.j = if bits v.toNat f.hi f.lo = 0 then s.fld f r.i r.j else 0)

/-- R35: a write of class-S fields enters the open generation of its group, and leaves the register. -/
def Obligations.ClassSWritesWaitInTheOpenGeneration : Prop :=
  ∀ (s : State) (path : Path) (off : BitVec 26) (v : BitVec 32) (r : RegId),
    findReg off.toNat = some r → r.kind.plain = true → (∀ f, f ∈ r.kind.fields → f.acc = .rw → f.cls = .s) → maskS r.kind.fields ≠ 0 →
    s.noHeld →
    ∃ t, exec (.registerWrite path off v) s = .next t
      ∧ t.cfg.opn.get (s.groupOf r.kind r.i r.j)
          = s.cfg.opn.get (s.groupOf r.kind r.i r.j)
            ++ [{ reg := r, mask := maskS r.kind.fields, val := v.toNat &&& maskS r.kind.fields }]
      ∧ (∀ g, g ≠ s.groupOf r.kind r.i r.j → t.cfg.opn.get g = s.cfg.opn.get g) ∧ t.cfg.stg = s.cfg.stg
      ∧ t.flag F.CFG_STATE.OPEN_DIRTY (s.groupOf r.kind r.i r.j) = true

/-- R45: a write that would change a class-L field of a running block is recorded and counted, and raises the configuration fault. -/
def Obligations.DroppedClassLWritesAreRecorded : Prop :=
  ∀ (s : State) (path : Path) (off : BitVec 26) (v : BitVec 32) (r : RegId),
    findReg off.toNat = some r → r.kind.plain = true → s.ownerRuns r.kind r.i r.j v.toNat = true →
    changesL r.kind.fields v.toNat (s.rd r.kind r.i r.j) = true → s.noHeld →
    ∃ u : State, exec (.registerWrite path off v) s = .next (u.raise 16 0xFF)
      ∧ u.fld F.CFG_LDROP_CNT.COUNT = min F.CFG_LDROP_CNT.COUNT.max (s.fld F.CFG_LDROP_CNT.COUNT + 1)
      ∧ (s.flag F.CFG_LDROP.VALID = false → u.rd .CFG_LDROP = (1 <<< 31 + pathCode path <<< 26 + r.kind.off r.i r.j) % 2 ^ 32)
      ∧ (s.flag F.CFG_LDROP.VALID = true → u.rd .CFG_LDROP = s.rd .CFG_LDROP)

/-- R38: DISCARD empties the open generation and leaves the staged one; with both bits in one write the discard acts first, and the commit
stages an empty generation, which passes its check and changes nothing. -/
def Obligations.DiscardActsBeforeCommit : Prop :=
  ∀ (s : State) (path : Path) (g : Fin 8), s.noHeld →
    (∃ t, exec (.registerWrite path (BitVec.ofNat 26 (RegKind.off .CFG_COMMIT 0 0)) (BitVec.ofNat 32 (1 <<< (8 + g.val)))) s = .next t
      ∧ t.cfg.opn.get g = [] ∧ t.cfg.stg = s.cfg.stg ∧ t.flag F.CFG_STATE.OPEN_DIRTY g = false)
    ∧ (s.cfg.stg.get g = none →
      ∃ t, exec (.registerWrite path (BitVec.ofNat 26 (RegKind.off .CFG_COMMIT 0 0)) (BitVec.ofNat 32 (1 <<< (8 + g.val) + 1 <<< g.val))) s = .next t
        ∧ t.cfg.opn.get g = [] ∧ t.cfg.stg.get g = some { writes := [] })
    ∧ s.checkGen g [] = none ∧ s.applyWrites [] = s

/-- R36: a request for a group that has a staged generation is refused; the open generation keeps its writes. -/
def Obligations.CommitIsRefusedWhileOneIsStaged : Prop :=
  ∀ (s : State) (g : Fin 8), s.cfg.stg.get g ≠ none →
    ∃ t, exec (.commitRequest g) s = .next t ∧ t.flag F.CFG_STATE.REFUSED g = true ∧ t.cfg = s.cfg
      ∧ t.fld F.CFG_STATE.STATE g = s.fld F.CFG_STATE.STATE g ∧ t.flag F.CFG_STATE.OPEN_DIRTY g = s.flag F.CFG_STATE.OPEN_DIRTY g
      ∧ SameRegs [⟨.CFG_STATE, g, 0⟩] s t ∧ { t with regs := s.regs } = s

/-! Rasters, triggers and time. -/

/-- R60, R61, R84: when the accumulated cycles have reached the end of a line, its boundary moves the raster to the next line or to line 0 of the
next frame, and the remainder of the accumulator is carried; a raster whose RUN is 0 stops at its frame boundary. `lineEvents` is what acts at
the boundary, after the position has moved. -/
def Obligations.RastersStepStartAndStop : Prop :=
  ∀ (s : State) (n : Fin 8),
    (s.lineDue n = false → exec (.rasterLineBoundary n) s = .next s)
    ∧ (s.lineDue n = true → (∀ m, m < n.val → s.lineDue m = false) → s.lastLine n = false →
      ∃ u : State, exec (.rasterLineBoundary n) s = .next (u.lineEvents n (s.lineLen n) false false (s.ras.get n).jumping)
        ∧ u.ras = s.ras.set n { s.ras.get n with acc := (s.ras.get n).acc - s.lineLen n, line := (s.ras.get n).line + 1 }
        ∧ { u with ras := s.ras } = s)
    ∧ (s.lineDue n = true → (∀ m, m < n.val → s.lineDue m = false) → s.lastLine n = true → s.flag F.RAS_CTRL.RUN n = true →
      ∃ u : State, exec (.rasterLineBoundary n) s = .next (u.lineEvents n (s.lineLen n) true false (s.ras.get n).jumping)
        ∧ (u.ras.get n).line = 0 ∧ (u.ras.get n).frame = ((s.ras.get n).frame + 1) % 2 ^ 32
        ∧ (u.ras.get n).acc = (s.ras.get n).acc - s.lineLen n ∧ (u.ras.get n).running = true ∧ { u with ras := s.ras } = s)
    ∧ (s.lineDue n = true → (∀ m, m < n.val → s.lineDue m = false) → s.lastLine n = true → s.flag F.RAS_CTRL.RUN n = false →
      ∃ u : State, exec (.rasterLineBoundary n) s = .next ((u.lineEvents n (s.lineLen n) true true (s.ras.get n).jumping).stopRaster n)
        ∧ (u.ras.get n).line = 0 ∧ (u.ras.get n).frame = ((s.ras.get n).frame + 1) % 2 ^ 32 ∧ { u with ras := s.ras } = s)
    ∧ ((s.rasterHalt n).ras.get n).running = false
    ∧ ((s.ras.get n).running = false → (s.ras.get n).waiting = false → s.fld F.RAS_ALIGN.FRAMES n ≠ 0 → s.flag F.RAS_CTRL.WAIT n = true →
      ∃ t, exec (.rasterStart n) s = .next t ∧ t.flag F.RAS_CTRL.RUN n = true ∧ t.ras = s.ras.set n { s.ras.get n with waiting := true }
        ∧ SameRegs [⟨.RAS_CTRL, n, 0⟩] s t ∧ { t with regs := s.regs, ras := s.ras } = s)
    ∧ ((s.ras.get n).running = false → (s.ras.get n).waiting = false → (s.fld F.RAS_ALIGN.FRAMES n = 0 ∨ s.flag F.RAS_CTRL.WAIT n = false) →
      ∃ u v : State, exec (.rasterStart n) s = .next (v.each (v.streamsOf n) State.skipTriggers) ∧ v = u.lineEvents n (u.lineLen n) true false false
        ∧ u.flag F.RAS_CTRL.RUN n = true ∧ u.flag F.RAS_POS.PH_LOCK n = false ∧ (u.ras.get n).running = true ∧ (u.ras.get n).line = 0
        ∧ (u.ras.get n).acc = 0 ∧ (u.ras.get n).frame = if s.fld F.RAS_ALIGN.FRAMES n = 0 then 0 else s.startFrame n % 2 ^ 32)
    ∧ ((s.ras.get n).waiting = true → s.atAlign n = true →
      ∃ u v : State, exec (.rasterAlignedStart n) s = .next (v.each (v.streamsOf n) State.skipTriggers)
        ∧ v = u.lineEvents n (u.lineLen n) true false false
        ∧ (u.ras.get n).running = true ∧ (u.ras.get n).waiting = false ∧ (u.ras.get n).line = 0 ∧ (u.ras.get n).frame = s.alignedFrame n % 2 ^ 32)
    ∧ (s.atAlign n = false → exec (.rasterAlignedStart n) s = .next s)

/-- R71, R72, R82, R123: a trigger leaves when the raster reaches its position, on the line of its port while the port is up, with the line's
polarity; the next trigger frame is a later one; the limit of frames without lock raises the trigger-lock fault once for the episode. -/
def Obligations.TriggersLeaveAtTheirPosition : Prop :=
  ∀ (s : State) (st : Fin 64),
    (s.triggerDue st = false → exec (.trigger st) s = .next s.tryFrees)
    ∧ (∀ port e, s.triggerDue st = true → s.coincident st = [] → s.mapOf st = some (port, e) → s.portUp port = true → s.fcl.safe = false →
      ∃ u : State, exec (.trigger st) s = .next u.tryFrees
        ∧ (∀ line rest, line = (if s.trigMode st = 1 then s.fld F.RAS_STRM_CFG.TRIG_IDX st else 0) →
            rest = bit (s.fld F.ING_PORT_CTRL.TRIG_POL port) line →
          u.out = s.out ++ [if 28 ≤ port then .fsync (port - 28) (!rest) else .trigger port line (!rest)]
          ∧ { port := port, line := line, rest := rest, until_ := s.time.now + 1200 } ∈ u.time.pulses)
        ∧ u.fld F.RAS_TRIG_POS.POS st = unsigned 24 (s.trigPos st) ∧ (u.strm.get st).started = true
        ∧ (u.strm.get st).nextF = (s.nextTrigger st + 1) % 2 ^ 32)
    ∧ (∀ port e, s.triggerDue st = true → s.coincident st = [] → s.mapOf st = some (port, e) → s.portUp port = false →
      ∃ u : State, exec (.trigger st) s = .next u.tryFrees ∧ u.out = s.out)
    ∧ (s.flag F.RAS_STRM_CFG.EN st = true → s.locked st = false → s.feedsReserved st = true → (s.strm.get st).episode = false →
        s.fld F.RAS_STRM_CFG.UNLOCK_LIM st < s.fld F.RAS_STRM_STAT.UNLOCKED st →
      ∃ u : State, exec (.unlockLimit st) s = .next (u.raise 20 st) ∧ u.strm = s.strm.set st { s.strm.get st with episode := true }
        ∧ { u with strm := s.strm } = s)
    ∧ ((s.strm.get st).episode = true → exec (.unlockLimit st) s = .next s)

/-- R64, R65, R66, R96: a TSYNC_IN edge is one measurement of the discipline loop; holdover; loading TOD. -/
def Obligations.TheTimeBaseFollowsItsSource : Prop :=
  ∀ s : State,
    (s.fld F.RAS_DISC_CTRL.SRC = 1 →
      let p := s.fld F.RAS_TSYNC_PERIOD.PERIOD_NS
      let e := nearestErr s.time.tod p
      (s.fld F.RAS_DISC_PARAM.STEP_US * 1000 < e.natAbs →
        ∃ t, exec .tsyncEdge s = .next t ∧ t.time.tod = (((s.time.tod : Int) + e) % (2 ^ 64 : Nat)).toNat ∧ t.time.lockCnt = 0
          ∧ t.flag F.RAS_DISC_STAT.STEPPED = true ∧ t.flag F.RAS_DISC_STAT.LOCKED = false ∧ t.flag F.RAS_DISC_STAT.HOLDOVER = false
          ∧ SameRegs [⟨.RAS_DISC_STAT, 0, 0⟩] s t ∧ { t with regs := s.regs, time := s.time } = s)
      ∧ (e.natAbs ≤ s.fld F.RAS_DISC_PARAM.STEP_US * 1000 →
        ∃ t, exec .tsyncEdge s = .next t ∧ t.time.tod = s.time.tod
          ∧ t.time.integ = clampI (-trimMax) trimMax
              (s.time.integ + roundDiv (e * (2 ^ 64 : Nat)) p / (2 ^ s.fld F.RAS_DISC_CTRL.KI_SHIFT : Nat))
          ∧ t.time.trim = clampI (-trimMax) trimMax
              (roundDiv (e * (2 ^ 64 : Nat)) p / (2 ^ s.fld F.RAS_DISC_CTRL.KP_SHIFT : Nat) + t.time.integ)
          ∧ t.flag F.RAS_DISC_STAT.HOLDOVER = false
          ∧ (t.time.lockCnt = 8 → t.flag F.RAS_DISC_STAT.LOCKED = true)
          ∧ (t.time.badCnt = 4 → t.flag F.RAS_DISC_STAT.LOCKED = false)
          ∧ SameRegs [⟨.RAS_DISC_STAT, 0, 0⟩] s t ∧ { t with regs := s.regs, time := s.time } = s))
    ∧ (s.fld F.RAS_DISC_CTRL.SRC ≠ 0 → s.flag F.RAS_DISC_STAT.HOLDOVER = false →
      ∃ u : State, exec .holdoverTimeout s = .next (u.raise 38 0) ∧ u.flag F.RAS_DISC_STAT.HOLDOVER = true
        ∧ u.flag F.RAS_DISC_STAT.LOCKED = false ∧ u.time = { s.time with trim := s.time.integ, lockCnt := 0, badCnt := 0 }
        ∧ SameRegs [⟨.RAS_DISC_STAT, 0, 0⟩] s u ∧ { u with regs := s.regs, time := s.time } = s)
    ∧ (∀ hi, ∃ t, exec (.todSet hi) s = .next t
        ∧ t.time = { s.time with tod := hi.toNat * 2 ^ 32 + s.time.setLo, todFrac := 0, lockCnt := 0 }
        ∧ t.flag F.RAS_DISC_STAT.STEPPED = true ∧ SameRegs [⟨.RAS_DISC_STAT, 0, 0⟩] s t ∧ { t with regs := s.regs, time := s.time } = s)

/-- R51, R52, R59: what a follower takes from a sync word, and the loss of sync. -/
def Obligations.FollowersTakeSyncWords : Prop :=
  ∀ (s : State) (w : BitVec 48),
    (s.flag F.CFG_SYNC_CTRL.EN = true → s.fld F.CFG_SYNC_CTRL.ROLE = 2 → w.toNat % 256 ≠ syncCrc w.toNat →
      ∃ t, exec (.syncWordRx w) s = .next t ∧ t.flag F.CFG_SYNC_STAT.CRC_ERR = true ∧ SameRegs [⟨.CFG_SYNC_STAT, 0, 0⟩] s t
        ∧ { t with regs := s.regs } = s)
    ∧ (s.flag F.CFG_SYNC_CTRL.EN = true → s.fld F.CFG_SYNC_CTRL.ROLE = 3 → w.toNat % 256 ≠ syncCrc w.toNat →
      ∃ t, exec (.syncWordRx w) s = .next t ∧ t.out = s.out ++ [.syncWord w.toNat] ∧ t.flag F.CFG_SYNC_STAT.CRC_ERR = true)
    ∧ (s.flag F.CFG_SYNC_CTRL.EN = true → s.fld F.CFG_SYNC_CTRL.ROLE = 2 → w.toNat % 256 = syncCrc w.toNat → bits w.toNat 47 44 = 1 →
        (s.ras.get s.master).running = false →
      ∃ t, exec (.syncWordRx w) s = .next t ∧ t.flag F.CFG_SYNC_STAT.LOCKED = true
        ∧ t.fld F.CFG_SYNC_STAT.LAST_FRAME = bits w.toNat 43 12 % 2 ^ (F.CFG_SYNC_STAT.LAST_FRAME.hi + 1 - F.CFG_SYNC_STAT.LAST_FRAME.lo)
        ∧ t.cfg = { s.cfg with syncGood := true, syncMiss := 0 } ∧ SameRegs [⟨.CFG_SYNC_STAT, 0, 0⟩] s t)
    ∧ (∀ d, d = (2304 - s.sfld F.CFG_SYNC_OFFSET.OFFSET).toNat * 2 ^ 32 →
        s.flag F.CFG_SYNC_CTRL.EN = true → s.fld F.CFG_SYNC_CTRL.ROLE = 2 → w.toNat % 256 = syncCrc w.toNat → bits w.toNat 47 44 = 1 →
        (s.ras.get s.master).running = true → (s.ras.get s.master).frame = bits w.toNat 43 12 → s.sfld F.CFG_SYNC_OFFSET.OFFSET ≤ 2304 →
        0 < s.peff s.master → d / s.peff s.master ≤ (s.ras.get s.master).line →
      ∃ t, exec (.syncWordRx w) s = .next t ∧ t.flag F.CFG_SYNC_STAT.LOCKED = true
        ∧ (t.ras.get s.master).frame = bits w.toNat 43 12 ∧ (t.ras.get s.master).line = d / s.peff s.master
        ∧ (t.ras.get s.master).acc = d % s.peff s.master)
    ∧ (s.flag F.CFG_SYNC_STAT.LOCKED = true → s.follows s.master = true → 3 ≤ s.cfg.syncMiss →
      ∃ u : State, exec .syncLoss s = .next (u.raise 37 0) ∧ u.flag F.CFG_SYNC_STAT.LOCKED = false
        ∧ SameRegs [⟨.CFG_SYNC_STAT, 0, 0⟩] s u ∧ { u with regs := s.regs } = s)

/-! Camera ingress and the line pool. -/

/-- R125: RUN of a port, and its link. A link that is lost closes the open frames of the port, fails its tunnelled transfers and raises the
ingress link fault and the ingress data fault (R114), after the line in progress has been taken as damaged; D-PHY reception begins with RUN;
a port whose RUN falls does so without LINK_LOST and without a fault. -/
def Obligations.PortLinksComeAndGo : Prop :=
  ∀ (s : State) (p : Fin 30),
    (s.flag F.ING_PORT_CTRL.RUN p = false →
      ∃ t, exec (.portRun p true) s = .next t ∧ t.flag F.ING_PORT_CTRL.RUN p = true
        ∧ (if p.val < 28 then SameRegs [⟨.ING_PORT_CTRL, p, 0⟩] s t
           else t.flag F.ING_PORT_STAT.LINK_UP p = true ∧ SameRegs [⟨.ING_PORT_CTRL, p, 0⟩, ⟨.ING_PORT_STAT, p, 0⟩] s t)
        ∧ { t with regs := s.regs } = s)
    ∧ (s.flag F.ING_PORT_CTRL.RUN p = true →
      ∃ u : State, exec (.portRun p false) s
            = .next (if p.val < 28 then (u.closeFrames p (fun _ => true)).tunDown p else u.closeFrames p (fun _ => true))
        ∧ u.flag F.ING_PORT_CTRL.RUN p = false ∧ u.flag F.ING_PORT_STAT.LINK_UP p = false ∧ u.fld F.ING_PORT_STAT.GEAR_ACT p = 0
        ∧ u.flag F.ING_PORT_STAT.LINK_LOST p = s.flag F.ING_PORT_STAT.LINK_LOST p
        ∧ SameRegs [⟨.ING_PORT_CTRL, p, 0⟩, ⟨.ING_PORT_STAT, p, 0⟩] s u ∧ { u with regs := s.regs } = s)
    ∧ (s.flag F.ING_PORT_CTRL.RUN p = true → s.flag F.ING_PORT_STAT.LINK_UP p = false →
      ∃ u : State, exec (.aphyLinkUp p) s = .next u.bootAdvance ∧ u.flag F.ING_PORT_STAT.LINK_UP p = true
        ∧ u.fld F.ING_PORT_STAT.GEAR_ACT p = (if p.val < 28 then s.fld F.ING_PORT_CTRL.GEAR p else s.fld F.ING_PORT_STAT.GEAR_ACT p)
        ∧ SameRegs [⟨.ING_PORT_STAT, p, 0⟩] s u ∧ { u with regs := s.regs } = s)
    ∧ (s.flag F.ING_PORT_CTRL.RUN p = true → s.flag F.ING_PORT_STAT.LINK_UP p = true →
      (∃ u : State, exec (.aphyLinkDown p none) s
            = .next ((((u.raise 19 p).raise 17 p).closeFrames p (fun _ => true)).when (decide (p.val < 28)) (·.tunDown p))
        ∧ u.flag F.ING_PORT_STAT.LINK_UP p = false ∧ u.fld F.ING_PORT_STAT.GEAR_ACT p = 0 ∧ u.flag F.ING_PORT_STAT.LINK_LOST p = true
        ∧ SameRegs [⟨.ING_PORT_STAT, p, 0⟩] s u ∧ { u with regs := s.regs } = s)
      ∧ ∀ k, exec (.aphyLinkDown p (some k)) s = .next (((doLongPacket p k s true).ingDown p true).when (decide (p.val < 28)) (·.tunDown p)))
    ∧ ((s.flag F.ING_PORT_CTRL.RUN p = false ∨ s.flag F.ING_PORT_STAT.LINK_UP p = false) → ∀ k, exec (.aphyLinkDown p k) s = .next s)

/-- R105, R108, R109, R114: the short packets of a virtual channel, by the header that the ECC leaves. `receives` holds for a running port whose
link is up, outside the safe state. -/
def Obligations.ShortPacketsOpenNumberAndCloseFrames : Prop :=
  ∀ (s : State) (p : Fin 30) (h : CsiHeader), s.receives p = true →
    (∀ c, c ∈ [Instr.frameStartPacket p h, .frameEndPacket p h, .lineStartPacket p h, .lineEndPacket p h] →
      checkHeader (s.flag F.ING_PORT_CTRL.VCX_EN p) h = none →
      ∃ u : State, exec c s = .next ((u.pmuAdd 0x045 p).lostHeader p) ∧ u.flag F.ING_PORT_STAT.HDR_UNCORR p = true
        ∧ u.fld F.ING_PORT_CNT0.HDR_UNCORR p = min F.ING_PORT_CNT0.HDR_UNCORR.max (s.fld F.ING_PORT_CNT0.HDR_UNCORR p + 1)
        ∧ u.ports = s.ports ∧ u.pool = s.pool)
    ∧ (∀ g, checkHeader (s.flag F.ING_PORT_CTRL.VCX_EN p) h = some (g, true) → g.dt.toNat = 3 →
      ∃ t, exec (.lineEndPacket p h) s = .next t ∧ t.ports = s.ports ∧ t.pool = s.pool
        ∧ t.fld F.ING_PORT_CNT0.ECC_CORR p = min F.ING_PORT_CNT0.ECC_CORR.max (s.fld F.ING_PORT_CNT0.ECC_CORR p + 1))
    ∧ (∀ g, checkHeader (s.flag F.ING_PORT_CTRL.VCX_EN p) h = some (g, false) →
      (∀ e st, g.dt.toNat = 0 → e < 8 → (∀ x, x < 8 → s.openAt p x = none) → s.flag F.ING_MAP.EN p e = true →
          s.fld F.ING_MAP.VC p e = s.vcOf p g.vc.toNat → (∀ x, x < 8 → x ≠ e → s.flag F.ING_MAP.EN p x = false) →
          s.fld F.ING_MAP.STREAM p e = st → s.trigMode st = 0 →
        ∃ (u : State) (o : OpenFrame), exec (.frameStartPacket p h) s = .next ((u.limitSubst p e).beginProducts st o.frame)
          ∧ u.openAt p e = some o ∧ o.stream = st ∧ o.frame = (s.ras.get (s.strmRaster st)).frame ∧ o.sensorFn = g.wc.toNat
          ∧ o.size = (s.asOf (s.strmRaster st) o.frame).rd .ING_STRM_SIZE p e ∧ o.fmt = (s.asOf (s.strmRaster st) o.frame).rd .ING_STRM_FMT p e
          ∧ o.count = 0 ∧ o.got = [] ∧ o.invalid = false)
      ∧ (g.dt.toNat = 1 →
        exec (.frameEndPacket p h) s = .next ((s.pmuAdd 0x041 p).closeFrames p (fun o => o.vc == s.vcOf p g.vc.toNat)))
      ∧ (∀ e o, g.dt.toNat = 2 → e < 8 → s.openAt p e = some o → o.vc = s.vcOf p g.vc.toNat → (∀ x, x < 8 → x ≠ e → s.openAt p x = none) →
          o.lsNum = true → 0 < g.wc.toNat → g.wc.toNat = o.lastLs.getD 0 + 1 →
        ∃ u : State, exec (.lineStartPacket p h) s = .next (u.publishAll o.stream)
          ∧ u.openAt p e = some { o with lastLs := some g.wc.toNat, nextLs := some (g.wc.toNat - 1), stuck := false })
      ∧ (g.dt.toNat = 3 → ∃ t, exec (.lineEndPacket p h) s = .next t ∧ t.quiet = s.quiet ∧ t.ports = s.ports ∧ t.pool = s.pool))

/-- R105, R108, R113, R114: where a long packet goes. With no injector in its way it is lost with an uncorrectable header, counted as unmapped
without a map entry, an orphan outside a frame, else the next line of its frame. -/
def Obligations.LongPacketsAreCheckedAndMapped : Prop :=
  ∀ (s : State) (p : Fin 30) (k : LongPacket), s.receives p = true → s.injIdle →
    let a := (s.pmuAdd 0x040 p).pmuAdd 0x043 p (ceilDiv k.payload.length 64)
    (checkHeader (s.flag F.ING_PORT_CTRL.VCX_EN p) k.hdr = none →
      ∃ u : State, exec (.longPacket p k) s = .next ((u.pmuAdd 0x045 p).lostHeader p) ∧ u.flag F.ING_PORT_STAT.HDR_UNCORR p = true
        ∧ u.fld F.ING_PORT_CNT0.HDR_UNCORR p = min F.ING_PORT_CNT0.HDR_UNCORR.max (s.fld F.ING_PORT_CNT0.HDR_UNCORR p + 1)
        ∧ SameRegs [⟨.ING_PORT_STAT, p, 0⟩, ⟨.ING_PORT_CNT0, p, 0⟩] a u ∧ { u with regs := a.regs } = a)
    ∧ (∀ g, checkHeader (s.flag F.ING_PORT_CTRL.VCX_EN p) k.hdr = some (g, false) → g.dt.toNat ≠ 0x10 → g.dt.toNat ≠ 0x11 →
        (s.flag F.ING_PORT_CTRL.CSE_EN p = false ∨ k.cseGap = false) →
      (s.entryOf p (s.vcOf p g.vc.toNat) g.dt.toNat = none →
        ∃ t, exec (.longPacket p k) s = .next t ∧ t.flag F.ING_PORT_STAT.UNMAPPED p = true
          ∧ t.fld F.ING_PORT_CNT1.UNMAPPED p = min F.ING_PORT_CNT1.UNMAPPED.max (s.fld F.ING_PORT_CNT1.UNMAPPED p + 1)
          ∧ SameRegs [⟨.ING_PORT_STAT, p, 0⟩, ⟨.ING_PORT_CNT1, p, 0⟩] a t ∧ t.ports = s.ports ∧ t.pool = s.pool)
      ∧ (∀ e, s.entryOf p (s.vcOf p g.vc.toNat) g.dt.toNat = some e →
        (s.openAt p e = none →
          ∃ u : State, exec (.longPacket p k) s = .next (u.raise 17 p) ∧ u.flag F.ING_PORT_STAT.ORPHAN p = true
            ∧ SameRegs [⟨.ING_PORT_STAT, p, 0⟩] a u ∧ u.ports = s.ports ∧ u.pool = s.pool)
        ∧ (∀ o, s.openAt p e = some o → o.lsNum = false → o.count < o.height →
          ∃ u : State, exec (.longPacket p k) s = .next (u.storeLine p e o.count { k with hdr := g } false false)
            ∧ u.openAt p e = some { o with count := o.count + 1 } ∧ SameRegs [] a u ∧ u.pool = s.pool)))

/-- R78, R109, R117, R120, R157, R165: a completed substitute is published; a stream frame that is overdue closes, and a trigger frame without
its last line is missed; the occupancy word; the release of a line. Each of the four commands answers a next state in every state. -/
def Obligations.LinesAreSubstitutedTimedOutAndReleased : Prop :=
  ∀ s : State,
    (∀ (st : Fin 64) (l : BitVec 16),
      let subs := s.dirLines.filter (fun c => c.2.kind == .raw && c.2.owner == st.val && c.2.line == l.toNat && c.2.pendingSub)
      (oldestLine subs = none → exec (.substitutePublished st l) s = .next s)
      ∧ (∀ d q, oldestLine subs = some (d, q) →
        ∃ u v : State, exec (.substitutePublished st l) s
              = .next (v.each (v.products.filter (fun i => (pdbStreams (v.product i).pdb).any (· == st.val))) (fun i x => x.tryEnds i))
          ∧ v = u.publishAll st ∧ (∀ r, s.line d = some r → u.line d = some { r with pendingSub := false })
          ∧ (∀ x, x ≠ d → u.line x = s.line x) ∧ u.regs = s.regs))
    ∧ (∀ st : Fin 64,
      (∀ p e o, s.mapOf st = some (p, e) → s.openAt p e = some o → s.overdue st o.frame = true →
        exec (.frameTimeout st) s = .next ((s.closeFrame p e).settleMissed st))
      ∧ ((∀ p e o, s.mapOf st = some (p, e) → s.openAt p e = some o → s.overdue st o.frame = false) →
        exec (.frameTimeout st) s = .next (s.settleMissed st))
      ∧ (s.trigMode st = 0 → s.settleMissed st = s)
      ∧ (∀ f, s.trigMode st ≠ 0 → (s.strm.get st).frames = [f] → f.missed = false → s.overdue st f.frame = true →
        ((s.settleMissed st).strm.get st).frames = (if f.bound then [] else [{ f with missed := true }])
        ∧ (s.settleMissed st).flag F.RAS_STRM_STAT.MISSED st = true ∧ (s.settleMissed st).fld F.RAS_STRM_MEAS.RATIO_MEAS st = 0
        ∧ (s.settleMissed st).fld F.RAS_STRM_STAT.MISS_CNT st = min F.RAS_STRM_STAT.MISS_CNT.max (s.fld F.RAS_STRM_STAT.MISS_CNT st + 1)))
    ∧ (∃ t, exec .occupancyBroadcast s = .next t ∧ t.fld F.POOL_OCC0.OVF_FREE = s.ovfFree % 2 ^ (F.POOL_OCC0.OVF_FREE.hi + 1 - F.POOL_OCC0.OVF_FREE.lo)
        ∧ t.fld F.POOL_OCC1.DIR_FREE = s.dirFree % 2 ^ (F.POOL_OCC1.DIR_FREE.hi + 1 - F.POOL_OCC1.DIR_FREE.lo)
        ∧ t.pool = { s.pool with occ2 := s.ovfUse 2, occ3 := s.ovfUse 3 }
        ∧ SameRegs [⟨.POOL_OCC0, 0, 0⟩, ⟨.POOL_OCC1, 0, 0⟩] s t ∧ { t with regs := s.regs, pool := s.pool } = s)
    ∧ (∀ (d : BitVec 32) (i : BitVec 8),
      ((∀ l, s.line d.toNat = some l → l.kind ≠ .raw ∨ i.toNat ∉ l.holders ∨ s.stillNeeds i.toNat d.toNat l = true) →
        exec (.lineRelease d i) s = .next s.retryCommits)
      ∧ (∀ l, s.line d.toNat = some l → l.kind = .raw → i.toNat ∈ l.holders → s.stillNeeds i.toNat d.toNat l = false →
        ∃ u : State, exec (.lineRelease d i) s = .next (u.settle d.toNat).retryCommits
          ∧ u.line d.toNat = some { l with holders := l.holders.filter (· != i.toNat) } ∧ (∀ x, x ≠ d.toNat → u.line x = s.line x)
          ∧ u.regs = s.regs))
    ∧ (∀ d l, s.line d = some l → l.published = true → l.holders = [] → l.ingHold = false → s.inLedger d = false → (s.settle d).line d = none)

/-! Tiles, blooms and petals. -/

/-- R189, R190, R195: the tile former emits the first candidate that has room for its output lines; a queue's next tile is staged while the
bloom has a footprint slot free. -/
def Obligations.TilesAreEmittedAndStaged : Prop :=
  ∀ s : State,
    (∀ i q u, s.fcl.safe = false → s.flag F.BLM_TF_CTRL.RUNNING = true → s.firstCandidate = some (i, q) → s.ringDown q = false →
        s.prdRoom i q q.claims.length = true → s.claimOut i q q.claims = some u →
      exec .tileEmit s = .next ((((u.emitTile i q).publishFrame i q.frame).tryEnds i).retryCommits))
    ∧ (∀ i q, s.fcl.safe = false → s.flag F.BLM_TF_CTRL.RUNNING = true → s.firstCandidate = some (i, q) → s.ringDown q = true →
      exec .tileEmit s = .next ((((State.andReport (s.abandon i q.frame)).publishFrame i q.frame).tryEnds i).retryCommits))
    ∧ ((s.fcl.safe = true ∨ s.flag F.BLM_TF_CTRL.RUNNING = false ∨ s.firstCandidate = none) → exec .tileEmit s = .next s)
    ∧ (∀ (b : Fin 8) (k : Fin 32) (n : BitVec 8) t q, s.blmClocked b.val = true → (s.blm.get b).foots < 64 →
        (((s.blm.get b).q.get k).take 2).find? (fun x => !x.staged) = some t → t.fast = false → s.pframe t.prd t.frame = some q →
      ∃ u : State, exec (.tileStage b k n) s = .next u ∧ ((s.poolRead n.toNat (s.srcOf t)).stage t).2.staged = true
        ∧ ((s.poolRead n.toNat (s.srcOf t)).stage t).2.seq = t.seq
        ∧ (u.blm.get b).q.get k
            = ((s.blm.get b).q.get k).map (fun x => if x.seq = t.seq then ((s.poolRead n.toNat (s.srcOf t)).stage t).2 else x)
        ∧ (∀ c, c ≠ b.val → u.blm.get c = s.blm.get c) ∧ u.pool = s.pool ∧ u.prd = s.prd ∧ u.tf = s.tf ∧ u.out = s.out)
    ∧ (∀ (b : Fin 8) (k : Fin 32) (n : BitVec 8), (s.blmClocked b.val = false ∨ 64 ≤ (s.blm.get b).foots
          ∨ (((s.blm.get b).q.get k).take 2).find? (fun x => !x.staged) = none) → exec (.tileStage b k n) s = .next s)

/-- R198, R200, R201, R202: a free petal takes the best tile of its bloom that is paid for, else it steals across blooms within the byte
budget, in turn; a steal that begins to wait is counted. A petal of a halted bloom, of a bloom whose clock changes or stands, or of Korlet in
the safe state takes none. -/
def Obligations.PetalsTakeTheBestTileOrSteal : Prop :=
  ∀ (s : State) (p : Fin 256),
    (∀ t, s.canStart (p.val / 32) = true → (s.blm.get (p.val / 32)).run.get (p.val % 32) = none →
        s.bestIn (p.val / 32) (p.val % 32) = some t →
        (s.mustWait (p.val / 32) t = true → exec (.petalPick p) s = .next s)
        ∧ (s.mustWait (p.val / 32) t = false →
          ∃ (u : State) (x : Tile), exec (.petalPick p) s = .next u ∧ (u.blm.get (p.val / 32)).run.get (p.val % 32) = some x
            ∧ x.seq = t.seq ∧ x.prd = t.prd ∧ x.frame = t.frame ∧ x.row = t.row ∧ x.col = t.col ∧ x.paid = true ∧ x.preempted = false
            ∧ u.pool = s.pool ∧ u.prd = s.prd ∧ u.tf.budget = s.tf.budget ∧ u.out = s.out)
        ∧ exec (.crossBloomSteal p) s = .next s)
    ∧ (∀ v t, s.canStart (p.val / 32) = true → (s.blm.get (p.val / 32)).run.get (p.val % 32) = none →
        s.bestIn (p.val / 32) (p.val % 32) = none → s.stealFrom (p.val / 32) = some (v, t) → s.mustWait (p.val / 32) t = false →
        exec (.crossBloomSteal p) s = exec (.petalPick p) s
        ∧ ((s.tf.budget < 100 * s.tileBytes t ∨ s.thiefFirst (p.val / 32) t = false) →
          (p.val ∈ s.tf.thieves → exec (.petalPick p) s = .next s)
          ∧ (p.val ∉ s.tf.thieves → exec (.petalPick p) s = .next ((s.count F.BLM_XSTEAL_STAT.CAP_WAIT).modTf
              (fun x => { x with thieves := x.thieves ++ [p.val] }))))
        ∧ (100 * s.tileBytes t ≤ s.tf.budget → s.thiefFirst (p.val / 32) t = true →
          ∃ (u : State) (x : Tile), exec (.petalPick p) s = .next u
            ∧ (u.blm.get (p.val / 32)).run.get (p.val % 32) = some x ∧ x.seq = t.seq ∧ x.stolen = true ∧ x.bloom = p.val / 32
            ∧ x.paid = true ∧ u.tf.budget = s.tf.budget - 100 * s.tileBytes t ∧ u.tf.xBytes = s.tf.xBytes + s.tileBytes t
            ∧ p.val ∉ u.tf.thieves ∧ u.pool = s.pool ∧ u.prd = s.prd ∧ u.out = s.out))
    ∧ ((s.canStart (p.val / 32) = false ∨ (s.blm.get (p.val / 32)).run.get (p.val % 32) ≠ none) →
        exec (.petalPick p) s = .next s ∧ exec (.crossBloomSteal p) s = .next s)

/-- R209, R233, R140, R141: a petal whose tile has what it reads finishes it, a slow tile whose stage seals fail for the first time runs once
more, and the ledger gives the verdict on a line once its fragments cover the read range. -/
def Obligations.TilesFinishAndLedgerVerdictsFollow : Prop :=
  ∀ s : State,
    (∀ (p : Fin 256) us (n : BitVec 8) t q, s.blmClocked (p.val / 32) = true → (s.blm.get (p.val / 32)).run.get (p.val % 32) = some t →
        s.pframe t.prd t.frame = some q → q.dead = true →
      ∃ u : State, exec (.tileComplete p us n) s = .next (((u.publishFrame t.prd t.frame).tryEnds t.prd).retryCommits)
        ∧ (u.blm.get (p.val / 32)).run.get (p.val % 32) = none ∧ u.pframe t.prd t.frame = some { q with completed := q.completed + 1 }
        ∧ u.regs = s.regs ∧ u.pool = s.pool ∧ u.out = s.out)
    ∧ (∀ (p : Fin 256) us (n : BitVec 8) t q w, s.blmClocked (p.val / 32) = true →
        (s.blm.get (p.val / 32)).run.get (p.val % 32) = some t → s.pframe t.prd t.frame = some q → q.dead = false →
        s.readBack t.prd q t = true → t.fast = false →
        w = (s.poolRead n.toNat (s.srcOf t)).passesEnd p.val t ((s.poolRead n.toNat (s.srcOf t)).tilePasses q t) →
      (w.stageFails t.prd q t us = [] →
        ∃ u : State, exec (.tileComplete p us n) s = .next (((u.publishFrame t.prd t.frame).tryEnds t.prd).retryCommits)
          ∧ u = (w.finishTile p.val t.prd q t false).leavePetal p.val
          ∧ (u.blm.get (p.val / 32)).run.get (p.val % 32) = none ∧ (∀ k, k < 64 → u.ctxOf (unitPetal p.val) k = {}))
      ∧ (w.stageFails t.prd q t us ≠ [] → t.failed = 0 →
        exec (.tileComplete p us n) s = .next (((((w.stageSealFails p.val t (w.stageFails t.prd q t us)).secondRun p.val t).publishFrame
          t.prd t.frame).tryEnds t.prd).retryCommits)))
    ∧ (∀ (p : Fin 256) us (n : BitVec 8), (s.blmClocked (p.val / 32) = false
          ∨ (s.blm.get (p.val / 32)).run.get (p.val % 32) = none) → exec (.tileComplete p us n) s = .next s)
    ∧ (∀ (p : Fin 256) us (n : BitVec 8) t q, (s.blm.get (p.val / 32)).run.get (p.val % 32) = some t → s.pframe t.prd t.frame = some q →
        q.dead = false → s.readBack t.prd q t = false → exec (.tileComplete p us n) s = .next s)
    ∧ (∀ (d : BitVec 32) (k : BitVec 8) e l, s.seals.ledger.find? (fun x => x.line == d.toNat && rangesLen x.ranges ≤ x.covered) = some e →
        s.line d.toNat = some l → e.output = false → e.covered + (e.n - rangesLen e.ranges) ≤ e.n →
        ledgerSeal (sealHead e.st 0xFF e.frame e.lineNo) e.n (e.frags ++ (gaps 0 e.n e.ranges).map (fun u => fragOf l.data u.1 u.2))
          = l.sealVal →
      ∃ u : State, exec (.ledgerVerdict d k) s = .next ((((u.settle d.toNat).each
            (((u.settle d.toNat).product e.prd).frames.map (·.frame)) (fun f x => x.publishFrame e.prd f)).tryEnds e.prd).retryCommits)
        ∧ u.seals.ledger = s.seals.ledger.filter (fun x => !(x.line == d.toNat && x.prd == e.prd && x.output == e.output))
        ∧ SameRegs [] (s.poolRead k.toNat e.st).quiet u.quiet ∧ u.pool = s.pool ∧ u.prd = s.prd ∧ u.out = s.out)

/-- R217, R213, R192: HALT of a bloom, and the hash of a tile key under the seed in use. A bloom that starts again looks for petals for its
waiting strips (R204). -/
def Obligations.HaltAndHashFollowTheirRegisters : Prop :=
  ∀ s : State,
    (∀ b : Fin 8, (bit (s.fld F.SEC_UNLOCK.SCOPE) 1 = false ∨ s.homed b ≠ []) →
      ∃ t, exec (.bloomHalt b true) s = .next t ∧ t.flag F.BLM_CTRL.HALT_REF b = true ∧ t.flag F.BLM_CTRL.HALT b = s.flag F.BLM_CTRL.HALT b
        ∧ SameRegs [⟨.BLM_CTRL, b, 0⟩] s t ∧ { t with regs := s.regs } = s)
    ∧ (∀ (b : Fin 8) (h : Bool), (h = true → bit (s.fld F.SEC_UNLOCK.SCOPE) 1 = true ∧ s.homed b = []) →
      ∃ t, exec (.bloomHalt b h) s = .next (if h then t else t.preemptAll b.val 64) ∧ t.flag F.BLM_CTRL.HALT b = h
        ∧ t.flag F.BLM_CTRL.HALT_REF b = s.flag F.BLM_CTRL.HALT_REF b
        ∧ ((s.blm.get b).fast = [] → t.preemptAll b.val 64 = t)
        ∧ SameRegs [⟨.BLM_CTRL, b, 0⟩] s t ∧ { t with regs := s.regs } = s)
    ∧ (∀ v : BitVec 32,
      let k := v.toNat % 2 ^ 28
      let x := ((k ^^^ s.rd .BLM_HASH_SEED_LO) * (s.rd .BLM_HASH_SEED_HI ||| 1)) % 2 ^ 32
      ∃ t, exec (.hashProbe v) s = .next t ∧ t.rd .BLM_HASH_PROBE = k ∧ t.fld F.BLM_HASH_PROBE_OUT.BLOOM = x / 2 ^ 29
        ∧ t.fld F.BLM_HASH_PROBE_OUT.SLOT = x / 2 ^ 24 % 32
        ∧ SameRegs [⟨.BLM_HASH_PROBE, 0, 0⟩, ⟨.BLM_HASH_PROBE_OUT, 0, 0⟩] s t ∧ { t with regs := s.regs } = s)

/-! Products and the frame store. -/

/-- R265, R266, R267: a product command queues at the engine, in its order of arrival; the engine reads its definition, or completes it when it
is malformed; it answers the first check that fails, or grants what the definition needs. -/
def Obligations.ProductCommandsQueueReadAndCheck : Prop :=
  ∀ (s : State) (d : Fin 64) (r : Fin 4096) (i : BitVec 32) (x : Started),
    (∀ p, p ∈ [(Instr.prdDefine d r i, PrdOp.define, 0x20), (Instr.prdUpdate d r i, PrdOp.update, 0x21), (Instr.prdRetire d r i, PrdOp.retire, 0x22)] →
        s.startedCmd (ringG d r) i.toNat p.2.2 = some x →
        let v := s.takeCmd (ringG d r) i.toNat
        let c : PrdCmd := { op := p.2.1, dom := ringDom (ringG d r), ring := ringG d r, idx := i.toNat, bytes := x.bytes }
        (prdMalformed p.2.1 x.bytes = true → s.prd.queue = [] →
          exec p.1 s = .next ((v.report (v.completion (ringG d r) i.toNat x.bytes 0x30 0xFF (prdCmdId x.bytes) 0 v.now)).startPrds 1))
        ∧ (∀ h q, s.prd.queue = h :: q → h.stage ≠ .queued →
          exec p.1 s = .next { v with prd := { v.prd with queue := s.prd.queue ++ [c] } })
        ∧ (prdMalformed p.2.1 x.bytes = false → s.prd.queue = [] →
          ∃ t, exec p.1 s = .next t ∧ (∃ y, t.prd.queue = [y] ∧ y.op = c.op ∧ y.bytes = c.bytes ∧ y.stage ≠ .queued)
            ∧ t.prd.tab = s.prd.tab ∧ t.pool = s.pool ∧ t.sec = s.sec ∧ t.out = s.out))
    ∧ (∀ c q, s.prd.queue = c :: q → c.stage = .checking →
        let u := s.modPrd (fun p => { p with queue := q })
        (∀ status detail, c.op ≠ .retire → u.checkDef c false = some (status, detail) →
          exec .productChecksDone s
            = .next (State.andReport (u.finishPrd c status detail 0 (u.prdRaster (if c.op = .define then c.pdb else (u.product (prdCmdId c.bytes)).pdb)))).startPrd)
        ∧ (c.op = .define → u.checkDef c false = none →
          ∃ v : State, exec .productChecksDone s = .next v.startPrd ∧ (v.product (prdCmdId c.bytes)).pdb = c.pdb
            ∧ v.fld F.PRD_STATE.STATE (prdCmdId c.bytes) = 1 ∧ v.prd.queue = q
            ∧ (∀ k, k ≠ prdCmdId c.bytes → v.product k = s.product k) ∧ v.pool = s.pool ∧ v.out = s.out)
        ∧ (∀ status detail, c.op = .retire → u.checkRetire c = some (status, detail) →
          exec .productChecksDone s
            = .next (State.andReport (u.finishPrd c status detail 0 (u.prdRaster (u.product (prdCmdId c.bytes)).pdb))).startPrd))
    ∧ (∀ c q, s.prd.queue = c :: q → c.stage ≠ .checking → exec .productChecksDone s = .next s)

/-- R301, R303: the end of training, and the stack's temperature. -/
def Obligations.TrainingAndTemperatureOfTheStack : Prop :=
  ∀ s : State,
    (s.flag F.FST_STAT.TRAINING = true →
      (∃ u : State, exec (.trainingEnd true) s = .next u.showResources ∧ u.flag F.FST_STAT.TRAINING = false ∧ u.flag F.FST_STAT.READY = true
        ∧ SameRegs [⟨.FST_STAT, 0, 0⟩, ⟨.HQE_STAT, 0, 0⟩] s u ∧ { u with regs := s.regs } = s)
      ∧ (s.fst.attempts ≤ 1 → exec (.trainingEnd false) s = .next { s with fst := { s.fst with attempts := 2 } })
      ∧ (1 < s.fst.attempts → ∃ u : State, exec (.trainingEnd false) s = .next (u.raise 27 0) ∧ u.flag F.FST_STAT.TRAINING = false
        ∧ u.flag F.FST_STAT.TRAIN_FAIL = true ∧ u.flag F.FST_STAT.READY = s.flag F.FST_STAT.READY
        ∧ SameRegs [⟨.FST_STAT, 0, 0⟩] s u ∧ { u with regs := s.regs } = s))
    ∧ (∀ c : BitVec 8, c.toInt < (s.fld F.FST_CTRL.CASE_LIM : Int) →
      ∃ t, exec (.hbmTempRead c) s = .next t ∧ t.fld F.FST_STAT.TEMP = c.toNat ∧ t.flag F.FST_STAT.HOT = false
        ∧ t.flag F.FST_STAT.HOT_SEEN = s.flag F.FST_STAT.HOT_SEEN
        ∧ ((85 < c.toInt ∨ s.flag F.FST_CTRL.FORCE_2X = true) → t.flag F.FST_STAT.REFRESH_2X = true)
        ∧ (c.toInt < 80 → s.flag F.FST_CTRL.FORCE_2X = false → t.flag F.FST_STAT.REFRESH_2X = false)
        ∧ (80 ≤ c.toInt → c.toInt ≤ 85 → s.flag F.FST_CTRL.FORCE_2X = false → t.flag F.FST_STAT.REFRESH_2X = s.flag F.FST_STAT.REFRESH_2X)
        ∧ SameRegs [⟨.FST_STAT, 0, 0⟩] s t ∧ { t with regs := s.regs } = s)
    ∧ (∀ c : BitVec 8, (s.fld F.FST_CTRL.CASE_LIM : Int) ≤ c.toInt → s.flag F.FST_STAT.HOT = false →
      ∃ u : State, exec (.hbmTempRead c) s = .next ((u.alert 2).raise 9 c.toNat) ∧ u.flag F.FST_STAT.HOT = true
        ∧ u.flag F.FST_STAT.HOT_SEEN = true ∧ SameRegs [⟨.FST_STAT, 0, 0⟩] s u ∧ { u with regs := s.regs } = s)

/-- R297 to R300, R304: requests, the scrubber, command parity and self-refresh of the frame store. -/
def Obligations.FrameStoreRequestsAndErrors : Prop :=
  ∀ s : State,
    (∀ (k : BitVec 8) (bad : List (Fin 128)), s.scrubs = true →
      (bad = [] →
        ∃ t : State, exec (.scrubRow k bad) s = .next t ∧ t.fst = s.nextScrub.fst ∧ t.fst.scrub = (s.fst.scrub + 1) % 2 ^ 24
          ∧ t.fld F.FST_ECC_CNT.CORR = min F.FST_ECC_CNT.CORR.max (s.fld F.FST_ECC_CNT.CORR + k.toNat)
          ∧ t.fld F.FST_ECC_CNT.UNCORR = s.fld F.FST_ECC_CNT.UNCORR ∧ SameRegs [⟨.FST_ECC_CNT, 0, 0⟩] s.quiet t.quiet
          ∧ t.prd = s.prd ∧ t.pool = s.pool ∧ t.out = s.out)
      ∧ (bad ≠ [] →
        ∃ u : State, exec (.scrubRow k bad) s = .next (u.raise 26 (s.fstMap (4 * s.fst.scrub)).pc)
          ∧ u.fld F.FST_ECC_CNT.CORR = min F.FST_ECC_CNT.CORR.max (s.fld F.FST_ECC_CNT.CORR + k.toNat)
          ∧ u.fld F.FST_ECC_CNT.UNCORR
              = min F.FST_ECC_CNT.UNCORR.max (s.fld F.FST_ECC_CNT.UNCORR + (bad.map (·.val)).eraseDups.length)
          ∧ u.flag F.FST_ECC_REC0.VALID = true ∧ u.fst = s.nextScrub.fst ∧ u.prd = s.prd ∧ u.pool = s.pool))
    ∧ (s.scrubs = false → ∀ k bad, exec (.scrubRow k bad) s = .next s)
    ∧ (∀ (pc : Fin 16) (k : BitVec 8) (bad : List (Fin 128)) (o : State) r, s.fstRuns = true →
        o = (s.modFst (fun f => { f with parity := f.parity.filter (· != pc.val) })).fstOffer → nextReq (o.fst.queues.get pc) = some r →
      (r.wr = true ∨ bad = [] →
        ∃ u : State, exec (.fstRequestDone pc k bad) s = .next ((u.serveReq pc r []).fstOffer) ∧ u.fst = o.fst ∧ u.prd = o.prd
          ∧ u.pool = o.pool ∧ u.out = o.out
          ∧ u.fld F.FST_ECC_CNT.CORR
              = (if r.wr then o.fld F.FST_ECC_CNT.CORR else min F.FST_ECC_CNT.CORR.max (o.fld F.FST_ECC_CNT.CORR + k.toNat))
          ∧ SameRegs [⟨.FST_ECC_CNT, 0, 0⟩] o.quiet u.quiet)
      ∧ (r.wr = false → bad ≠ [] →
        ∃ u : State, exec (.fstRequestDone pc k bad) s
            = .next (((u.raise 26 (o.fstMap (4 * r.row)).pc).serveReq pc r (bad.map (·.val)).eraseDups).fstOffer) ∧ u.fst = o.fst
          ∧ u.fld F.FST_ECC_CNT.UNCORR
              = min F.FST_ECC_CNT.UNCORR.max (o.fld F.FST_ECC_CNT.UNCORR + (bad.map (·.val)).eraseDups.length)
          ∧ u.flag F.FST_ECC_REC0.VALID = true ∧ u.prd = o.prd ∧ u.pool = o.pool))
    ∧ (∀ (pc : Fin 16) k bad, s.fstRuns = false → exec (.fstRequestDone pc k bad) s = .next s)
    ∧ (∀ (pc : Fin 16) (w : Bool) (o : State), o = s.fstOffer →
      let k := if w then 16 else pc.val
      ((if w then o.scrubs = false else o.fstRuns = false ∨ o.fst.queues.get pc = []) → exec (.caParityError pc w) s = .next o)
      ∧ ((if w then o.scrubs = true else o.fstRuns = true ∧ o.fst.queues.get pc ≠ []) → k ∉ o.fst.parity →
        ∃ t, exec (.caParityError pc w) s = .next t ∧ t.fst = { o.fst with parity := o.fst.parity ++ [k] }
          ∧ t.fld F.FST_CNT.CA_RETRY = min F.FST_CNT.CA_RETRY.max (o.fld F.FST_CNT.CA_RETRY + 1)
          ∧ SameRegs [⟨.FST_CNT, 0, 0⟩] o.quiet t.quiet ∧ t.prd = o.prd ∧ t.pool = o.pool ∧ t.out = o.out)
      ∧ ((if w then o.scrubs = true else o.fstRuns = true ∧ o.fst.queues.get pc ≠ []) → k ∈ o.fst.parity →
        exec (.caParityError pc w) s = .next ((if w then o.nextScrub.eccResult 0 (List.range 128) o.fst.scrub true
          else o.fstDone pc 0 [] true).raise 27 1)))
    ∧ (∀ v : BitVec 32,
      let m := s.fstMap (v.toNat % 2 ^ 26)
      ∃ t, exec (.fstProbe v) s = .next t ∧ t.rd .FST_PROBE_IN = v.toNat % 2 ^ 26
        ∧ t.rd .FST_PROBE_OUT = (m.pc * 2 ^ 28 + m.bank * 2 ^ 23 + m.col * 2 ^ 21 + m.row * 2 ^ 6) % 2 ^ 32
        ∧ SameRegs [⟨.FST_PROBE_IN, 0, 0⟩, ⟨.FST_PROBE_OUT, 0, 0⟩] s t ∧ { t with regs := s.regs } = s)
    ∧ ((s.fcl.safe = true ∨ s.cfg.warm = true) → (∀ c, c < 16 → s.fst.queues.get c = []) →
      exec .selfRefreshEntry s = .next { s with fst := { s.fst with selfRefresh := true, copies := [], jobs := [], parity := [] } })
    ∧ ((s.fcl.safe = false ∧ s.cfg.warm = false ∨ ∃ c, c < 16 ∧ s.fst.queues.get c ≠ []) → exec .selfRefreshEntry s = .next s)

/-! Geward: lanes. -/

/-- R316, R328: in HUNT a lane counts valid headers up to its lock, and moves its position by one after an invalid one, so that the next
header is decoded behind the symbol skipped; in LOCK 16 invalid headers of the last 64 end the lock, and a data block goes to the lane's
elastic buffer. -/
def Obligations.ReceiveLanesHuntAndLock : Prop :=
  ∀ (s : State) (k : Fin 8) (sk h : BitVec 2) (w : BitVec 256), s.rxOn k = true → s.clockUp (15 + k) = true → s.clockUp 23 = true →
      (∀ i, i < 8 → (s.fcl.fij.get i).cut = false) →
    let r := s.gwp.rx.get k
    let p := if s.flag F.GWP_LANE_CTRL.RX_INV k then 3 - h.toNat else h.toNat
    let skipped := if s.flag F.GWP_LANE_CTRL.RX_INV k then 3 - sk.toNat else sk.toNat
    let v := if s.flag F.GWP_LANE_CTRL.RX_PRE k then (p + (if r.slip then skipped else r.last)) % 4 else p
    let q := takeSymbols (s.flag F.GWP_LANE_CTRL.RX_PRE k) (s.flag F.GWP_LANE_CTRL.RX_INV k) 128 p w.toNat
    (s.flag F.GWP_LANE_STAT.BLK_LOCK k = false →
      ∃ t, exec (.blockRx k sk h w) s = .next t ∧ t.flag F.GWP_LANE_STAT.CLK_LOCK k = true
        ∧ ((v = 1 ∨ v = 3) → r.cnt < 63 → (t.gwp.rx.get k).cnt = r.cnt + 1 ∧ t.flag F.GWP_LANE_STAT.BLK_LOCK k = false
            ∧ t.fld F.GWP_LANE_STAT.POS k = s.fld F.GWP_LANE_STAT.POS k)
        ∧ ((v = 1 ∨ v = 3) → r.cnt = 63 → (t.gwp.rx.get k).cnt = 0 ∧ t.flag F.GWP_LANE_STAT.BLK_LOCK k = true
            ∧ t.fld F.GWP_LANE_STAT.POS k = s.fld F.GWP_LANE_STAT.POS k)
        ∧ ((v = 0 ∨ v = 2) → (t.gwp.rx.get k).cnt = 0 ∧ t.flag F.GWP_LANE_STAT.BLK_LOCK k = false
            ∧ t.fld F.GWP_LANE_STAT.POS k = (s.fld F.GWP_LANE_STAT.POS k + 1) % 129)
        ∧ (t.gwp.rx.get k).slip = (v == 0 || v == 2) ∧ (t.gwp.rx.get k).last = q.2
        ∧ SameRegs [⟨.GWP_LANE_STAT, k, 0⟩] s t ∧ { t with regs := s.regs, gwp := s.gwp } = s)
    ∧ (s.flag F.GWP_LANE_STAT.BLK_LOCK k = true → (v = 0 ∨ v = 2) → s.flag F.GWP_LANE_STAT.ACTIVE k = false →
        16 ≤ (((true :: r.hist).take 64).filter id).length →
      ∃ t, exec (.blockRx k sk h w) s = .next t ∧ t.flag F.GWP_LANE_STAT.LOCK_LOST k = true ∧ t.flag F.GWP_LANE_STAT.BLK_LOCK k = false
        ∧ t.flag F.GWP_LANE_STAT.DESKEWED k = false ∧ t.fld F.GWP_LANE_STAT.POS k = s.fld F.GWP_LANE_STAT.POS k ∧ (t.gwp.rx.get k).cnt = 0
        ∧ SameRegs [⟨.GWP_LANE_STAT, k, 0⟩, ⟨.GWP_LANE_CNT0, k, 0⟩] s t ∧ { t with regs := s.regs, gwp := s.gwp } = s)
    ∧ (s.flag F.GWP_LANE_STAT.BLK_LOCK k = true → v = 1 → (((false :: r.hist).take 64).filter id).length < 16 →
      ∃ u : State, exec (.blockRx k sk h w) s = .next (u.pushBlk k (.data (bitBytes 32 (descramble r.scr q.1).1))).releaseDisarmed
        ∧ u.gwp.rx.get k
            = { r with last := q.2, scr := (descramble r.scr q.1).2, slip := false, hist := (false :: r.hist).take 64, blocks := r.blocks + 1 }
        ∧ (∀ j, j ≠ k.val → u.gwp.rx.get j = s.gwp.rx.get j) ∧ { u.gwp with rx := s.gwp.rx } = s.gwp
        ∧ SameRegs [⟨.GWP_LANE_STAT, k, 0⟩] s u ∧ { u with regs := s.regs, gwp := s.gwp } = s)

/-- R329, R330, R331: alignment markers deskew a lane and report the far end; one that repeats another lane's TX_LANE leaves its lane not
deskewed; each marker sent carries the next AM_SEQ. -/
def Obligations.AlignmentMarkersDeskewAndAnnounce : Prop :=
  ∀ s : State,
    (∀ (k : Fin 8) (am : BitVec 64) (apart : Bool), s.rxOn k = true → s.flag F.GWP_LANE_STAT.BLK_LOCK k = true →
        (∀ j, j < 8 → j ≠ k.val → s.flag F.GWP_LANE_STAT.DESKEWED j = false) →
      (8 ≤ bits am.toNat 15 8 →
        ∃ t, exec (.alignmentMarkerRx k am apart) s = .next t
          ∧ t.fld F.GWP_LANE_CNT1.AM_ERR k = min F.GWP_LANE_CNT1.AM_ERR.max (s.fld F.GWP_LANE_CNT1.AM_ERR k + 1)
          ∧ SameRegs [⟨.GWP_LANE_CNT1, k, 0⟩] s t ∧ { t with regs := s.regs } = s)
      ∧ (∀ a, bits am.toNat 15 8 < 8 → (s.gwp.rx.get k).am = some a →
        let good := a.lane == bits am.toNat 15 8 && decide ((a.seq + 1) % 256 = bits am.toNat 47 40) && apart
        ∃ u : State, exec (.alignmentMarkerRx k am apart) s = .next (u.tryWidth (bits am.toNat 47 40) (bits am.toNat 31 24))
          ∧ (good = true → u.flag F.GWP_LANE_STAT.DESKEWED k = true ∧ u.fld F.GWP_LANE_CNT1.AM_ERR k = s.fld F.GWP_LANE_CNT1.AM_ERR k)
          ∧ (good = false → u.flag F.GWP_LANE_STAT.DESKEWED k = s.flag F.GWP_LANE_STAT.DESKEWED k
              ∧ u.fld F.GWP_LANE_CNT1.AM_ERR k = min F.GWP_LANE_CNT1.AM_ERR.max (s.fld F.GWP_LANE_CNT1.AM_ERR k + 1))
          ∧ u.fld F.GWP_LANE_STAT.FAR_LANE k = bits am.toNat 15 8 ∧ u.fld F.GWP_FAR.FAR_RX_READY = bits am.toNat 39 32
          ∧ SameRegs [⟨.GWP_LANE_STAT, k, 0⟩, ⟨.GWP_LANE_CNT1, k, 0⟩, ⟨.GWP_FAR, 0, 0⟩] s u))
    ∧ (∀ (k j : Fin 8) (am : BitVec 64) (apart : Bool), s.rxOn k = true → s.flag F.GWP_LANE_STAT.BLK_LOCK k = true → j ≠ k →
        s.flag F.GWP_LANE_STAT.DESKEWED j = true → s.fld F.GWP_LANE_STAT.FAR_LANE j = bits am.toNat 15 8 → bits am.toNat 15 8 < 8 →
      ∃ u : State, exec (.alignmentMarkerRx k am apart) s = .next (u.tryWidth (bits am.toNat 47 40) (bits am.toNat 31 24))
        ∧ u.flag F.GWP_LANE_STAT.DESKEWED k = false
        ∧ u.fld F.GWP_LANE_CNT1.AM_ERR k = min F.GWP_LANE_CNT1.AM_ERR.max (s.fld F.GWP_LANE_CNT1.AM_ERR k + 1)
        ∧ SameRegs [⟨.GWP_LANE_STAT, k, 0⟩, ⟨.GWP_LANE_CNT1, k, 0⟩, ⟨.GWP_FAR, 0, 0⟩] s u)
    ∧ (s.gwTxOn = true → s.gwp.lanes = [] →
      ∃ t, exec .amTx s = .next t ∧ t.gwp.amSeq = (s.gwp.amSeq + 1) % 256 ∧ t.gwp.said = s.gwp.said ∧ t.gwp.lanes = [] ∧ t.regs = s.regs
        ∧ (∀ k, (t.gwp.rx.get k) = s.gwp.rx.get k) ∧ ∃ l, t.out = s.out ++ l)
    ∧ (s.gwTxOn = true → s.gwp.lanes ≠ [] →
      ∃ u : State, exec .amTx s = .next u.tryUp ∧ u.gwp.said = true ∧ u.gwp.amSeq = (s.gwp.amSeq + 1) % 256
        ∧ u.fld F.GWP_STAT.TX_W = widthCode s.gwp.lanes.length % 8 ∧ SameRegs [⟨.GWP_STAT, 0, 0⟩] s u)
    ∧ (s.gwTxOn = false → exec .amTx s = .next s)

/-- R320, R322, R328, R334, R336: the attempts of a lane. The values that the equaliser finds are free values (log entry 2), its start
values are taken as the reset values (log entry 82). -/
def Obligations.LaneAttemptsStartFailAndFallBack : Prop :=
  ∀ s : State,
    ((s.flag F.GWP_CTRL.TX_REF = false ∨ s.refclkOk = true) →
      ∃ t, exec .gwPllLock s = .next t ∧ t.gwp.pll = true ∧ t.gwp.amSeq = 0
      ∧ (s.flag F.GWP_CTRL.EN = false → t.regs = s.regs)
      ∧ (s.flag F.GWP_CTRL.EN = true → ∀ k, k < 8 → t.flag F.GWP_LANE_STAT.BLK_LOCK k = false ∧ t.fld F.GWP_LANE_STAT.POS k = 0
          ∧ (t.gwp.rx.get k) = {}))
    ∧ (s.flag F.GWP_CTRL.TX_REF = true → s.refclkOk = false → exec .gwPllLock s = .next s)
    ∧ (∀ k : Fin 8, s.rxOn k = true → s.flag F.GWP_LANE_CTRL.EQ_FREEZE k = true →
      ∃ t, exec (.eqConverged k) s = .next t ∧ t.flag F.GWP_LANE_STAT.EQ_READY k = true ∧ SameRegs [⟨.GWP_LANE_STAT, k, 0⟩] s t
        ∧ { t with regs := s.regs } = s)
    ∧ (∀ k : Fin 8, s.rxOn k = true → s.flag F.GWP_LANE_CTRL.EQ_FREEZE k = false →
      ∃ t, exec (.eqConverged k) s = .next t ∧ t.flag F.GWP_LANE_STAT.EQ_READY k = true ∧ t.freeIdx = s.freeIdx + 1
        ∧ SameRegs [⟨.GWP_LANE_STAT, k, 0⟩, ⟨.GWP_LANE_EQ, k, 0⟩] s t ∧ { t with regs := s.regs, freeIdx := s.freeIdx } = s)
    ∧ (∀ k : Fin 8, s.rxOn k = true → s.flag F.GWP_LANE_STAT.BLK_LOCK k = false →
      ∃ t, exec (.lockAttemptTimeout k) s = .next t
        ∧ t.fld F.GWP_LANE_STAT.ATTEMPTS k = min F.GWP_LANE_STAT.ATTEMPTS.max (s.fld F.GWP_LANE_STAT.ATTEMPTS k + 1)
        ∧ t.fld F.GWP_LANE_STAT.POS k = 0 ∧ t.flag F.GWP_LANE_STAT.EQ_READY k = false
        ∧ (s.flag F.GWP_CTRL.FORCE_FB = true → t.flag F.GWP_LANE_STAT.FB_MODE k = true)
        ∧ (s.flag F.GWP_CTRL.FORCE_FB = false → (s.gwp.rx.get k).fails + 1 < 3 →
            t.flag F.GWP_LANE_STAT.FB_MODE k = s.flag F.GWP_LANE_STAT.FB_MODE k ∧ (t.gwp.rx.get k).fails = (s.gwp.rx.get k).fails + 1)
        ∧ (s.flag F.GWP_CTRL.FORCE_FB = false → 3 ≤ (s.gwp.rx.get k).fails + 1 → s.flag F.GWP_LANE_STAT.FB_MODE k = false →
            t.flag F.GWP_LANE_STAT.FB_MODE k = (s.flag F.GWP_CTRL.FALLBACK_EN && s.refclkOk))
        ∧ (s.flag F.GWP_CTRL.FORCE_FB = false → 3 ≤ (s.gwp.rx.get k).fails + 1 → s.flag F.GWP_LANE_STAT.FB_MODE k = true →
            t.flag F.GWP_LANE_STAT.FB_MODE k = false ∧ (t.gwp.rx.get k).fails = 0)
        ∧ t.rd .GWP_LANE_EQ k = (if s.flag F.GWP_LANE_CTRL.EQ_FREEZE k then s.rd .GWP_LANE_EQ k else 0)
        ∧ SameRegs [⟨.GWP_LANE_STAT, k, 0⟩, ⟨.GWP_LANE_CNT1, k, 0⟩, ⟨.GWP_LANE_EQ, k, 0⟩] s t ∧ { t with regs := s.regs, gwp := s.gwp } = s)
    ∧ (∀ k : Fin 8, s.rxOn k = true → s.flag F.GWP_LANE_STAT.CLK_LOCK k = true → s.flag F.GWP_LANE_STAT.BLK_LOCK k = true →
        s.flag F.GWP_LANE_STAT.ACTIVE k = false →
      ∃ t, exec (.laneClockLockLoss k) s = .next t ∧ t.flag F.GWP_LANE_STAT.LOCK_LOST k = true ∧ t.flag F.GWP_LANE_STAT.CLK_LOCK k = false
        ∧ t.flag F.GWP_LANE_STAT.BLK_LOCK k = false ∧ t.flag F.GWP_LANE_STAT.DESKEWED k = false ∧ t.fld F.GWP_LANE_STAT.POS k = 0
        ∧ SameRegs [⟨.GWP_LANE_STAT, k, 0⟩, ⟨.GWP_LANE_EQ, k, 0⟩] s t ∧ { t with regs := s.regs, gwp := s.gwp } = s)

/-- R335, R336, R338: what takes the link down, and the time-out of a bring-up. `gwDown` is what the link layer does then. -/
def Obligations.TheLinkGoesDownAndTimesOut : Prop :=
  ∀ s : State,
    (s.flag F.GWP_CTRL.EN = true → s.flag F.GWP_STAT.LINK_UP = true →
      ∃ u : State, exec .retrain s = .next (u.gwDown.raise 28 0) ∧ u.flag F.GWP_STAT.LINK_UP = false ∧ u.flag F.GWP_STAT.LINK_DOWN = true
        ∧ u.fld F.GWP_STAT.RX_W = 0 ∧ u.fld F.GWP_STAT.TX_W = 0 ∧ u.gwp.lanes = [] ∧ u.gwp.said = false
        ∧ (∀ k, k < 8 → u.flag F.GWP_LANE_STAT.BLK_LOCK k = false ∧ u.flag F.GWP_LANE_STAT.ACTIVE k = false)
        ∧ { u with regs := s.regs, gwp := s.gwp, out := s.out } = s)
    ∧ (s.flag F.GWP_CTRL.EN = true → s.flag F.GWP_STAT.LINK_UP = false →
      ∃ t, exec .retrain s = .next t ∧ t.flag F.GWP_STAT.LINK_UP = false ∧ t.flag F.GWP_STAT.LINK_DOWN = s.flag F.GWP_STAT.LINK_DOWN
        ∧ t.gwl = s.gwl ∧ t.hqe = s.hqe ∧ (∀ k, k < 8 → t.flag F.GWP_LANE_STAT.BLK_LOCK k = false))
    ∧ (s.flag F.GWP_CTRL.EN = false → exec .retrain s = .next s ∧ exec (.gwDisable false) s = .next s)
    ∧ (s.flag F.GWP_CTRL.EN = true → s.flag F.GWP_STAT.LINK_UP = false →
      ∃ t, exec (.gwDisable false) s = .next t ∧ t.flag F.GWP_CTRL.EN = false ∧ t.flag F.GWP_STAT.LINK_UP = false ∧ t.gwl = s.gwl ∧ t.hqe = s.hqe)
    ∧ (s.flag F.GWP_CTRL.EN = true → s.flag F.GWP_STAT.LINK_UP = true →
      ∃ u : State, exec (.gwDisable false) s = .next ((u.gwDown.raise 28 0).setFlag F.GWP_CTRL.EN false)
        ∧ u.flag F.GWP_STAT.LINK_UP = false ∧ u.gwl = s.gwl ∧ u.hqe = s.hqe)
    ∧ (s.flag F.GWP_CTRL.EN = false →
      ∃ t, exec (.gwDisable true) s = .next t ∧ t.flag F.GWP_CTRL.EN = true ∧ t.gwp.amSeq = 0 ∧ t.gwl = s.gwl ∧ t.hqe = s.hqe
        ∧ (∀ k, k < 8 → t.fld F.GWP_LANE_STAT.POS k = 0 ∧ t.flag F.GWP_LANE_STAT.BLK_LOCK k = false))
    ∧ (∀ k : Fin 8, s.rxOn k = true → s.flag F.GWP_LANE_STAT.BLK_LOCK k = true → s.flag F.GWP_LANE_STAT.DESKEWED k = false →
      ∃ t, exec (.ldnRx k) s = .next t ∧ t.flag F.GWP_STAT.LDN_RX = true ∧ SameRegs [⟨.GWP_STAT, 0, 0⟩] s t ∧ { t with regs := s.regs } = s)
    ∧ (∀ k : Fin 8, s.rxOn k = true → s.flag F.GWP_LANE_STAT.BLK_LOCK k = true → s.flag F.GWP_LANE_STAT.DESKEWED k = true →
        s.flag F.GWP_STAT.LINK_UP = true →
      ∃ u : State, exec (.ldnRx k) s = .next (u.gwDown.raise 28 0) ∧ u.flag F.GWP_STAT.LDN_RX = true ∧ u.flag F.GWP_STAT.LINK_UP = false
        ∧ u.flag F.GWP_STAT.LINK_DOWN = true ∧ { u with regs := s.regs, gwp := s.gwp, out := s.out } = s)
    ∧ (s.flag F.GWP_CTRL.EN = true → s.flag F.GWP_STAT.LINK_UP = false →
      ∃ u : State, exec .linkTimeout s = .next (u.raise 28 1) ∧ u.flag F.GWP_STAT.TMO = true ∧ SameRegs [⟨.GWP_STAT, 0, 0⟩] s u
        ∧ { u with regs := s.regs } = s)
    ∧ ((s.flag F.GWP_CTRL.EN = false ∨ s.flag F.GWP_STAT.LINK_UP = true) → exec .linkTimeout s = .next s)

/-! Geward: frames, replay and credits. -/

/-- R351, R352, R353: a frame that fails its codes or its check is counted and asks for a NAK, one of a reserved type is counted and
dropped; a good INIT with RX_DONE makes the link layer active under the far epoch and credits. -/
def Obligations.FramesAreCheckedAndInitStartsTheLinkLayer : Prop :=
  ∀ (s : State) (b : List Byte), s.injIdle → s.flag F.GWP_STAT.LINK_UP = true →
    (∀ p, p ∈ [Instr.initFrameRx b, .dataFrameRx b, .ctrlFrameRx b] → correctFrame b = none →
      ∃ t, exec p s = .next t ∧ t.fld F.GWL_CNT0.FRAME_BAD = min F.GWL_CNT0.FRAME_BAD.max (s.fld F.GWL_CNT0.FRAME_BAD + 1)
        ∧ t.gwl.expect = s.gwl.expect ∧ t.gwl.replay = s.gwl.replay ∧ t.gwl.rxPart = s.gwl.rxPart
        ∧ (s.gwActive = true → s.gwl.nakAt = none → t.gwl.nakDue = true)
        ∧ (∀ n, s.gwl.nakAt = some n → s.time.now < n + 2400 → t.gwl.nakDue = s.gwl.nakDue)
        ∧ t.hqe = s.hqe ∧ t.pool = s.pool ∧ t.out = s.out)
    ∧ (∀ c, correctFrame b = some (c, []) → fhType c = 3 → frameCrc 0 c = leAt c 244 4 → s.gwActive = false → leAt c 8 2 = 1 →
        (bit (leAt c 10 1) 0 = true →
          ∃ t, exec (.initFrameRx b) s = .next t ∧ t.gwActive = true ∧ t.rd .GWL_EPOCH_RX = leAt c 4 4 ∧ t.gwl.seq = 0 ∧ t.gwl.expect = 0
            ∧ t.gwl.limit = firstLimits (bytesAt c 16 16) ∧ t.gwl.grant = firstGrants ∧ t.gwl.rxDone = true ∧ t.gwl.txq = s.gwl.txq)
        ∧ (bit (leAt c 10 1) 0 = false →
          ∃ t, exec (.initFrameRx b) s = .next t ∧ t.gwActive = false ∧ t.gwl = { s.gwl with rxDone := true }))
    ∧ (∀ p c, p ∈ [Instr.initFrameRx b, .dataFrameRx b, .ctrlFrameRx b] → correctFrame b = some (c, []) → fhType c ≠ 1 → fhType c ≠ 2 →
        fhType c ≠ 3 → frameCrc (s.rd .GWL_EPOCH_RX) c = leAt c 244 4 →
      ∃ t, exec p s = .next t ∧ t.fld F.GWL_CNT4.DISCARD = min F.GWL_CNT4.DISCARD.max (s.fld F.GWL_CNT4.DISCARD + 1)
        ∧ t.gwl = s.gwl ∧ t.hqe = s.hqe ∧ t.pool = s.pool ∧ t.out = s.out)
    ∧ (∀ c, correctFrame b = some (c, []) → fhType c = 3 → frameCrc 0 c = leAt c 244 4 → s.gwActive = true →
      ∃ u : State, exec (.initFrameRx b) s = .next (u.protoError 3 (fhSeq c) 0) ∧ u.gwl = s.gwl)

/-- R355, R356, R357: what a good DATA or CTRL frame does by its sequence number and its acknowledgement. -/
def Obligations.SequenceNumbersAcceptDiscardAndAcknowledge : Prop :=
  ∀ (s : State) (b c : List Byte), s.injIdle → s.flag F.GWP_STAT.LINK_UP = true → s.gwActive = true → correctFrame b = some (c, []) →
      frameCrc (s.rd .GWL_EPOCH_RX) c = leAt c 244 4 →
    (fhType c = 1 → fhAckv c = false → fhCrd c = false → fhNak c = false → fhSeq c = s.gwl.expect →
      ∃ u : State, exec (.dataFrameRx b) s = .next (u.takeUnits (fhSeq c) (!fhRpl c) (bytesAt c 4 240)).releaseDisarmed
        ∧ u.gwl = { s.gwl with expect := (s.gwl.expect + 1) % 4096, ackDue := true, nakDue := false, nakAt := none }
        ∧ u.hqe = s.hqe ∧ u.pool = s.pool ∧ u.out = s.out)
    ∧ (fhType c = 1 → fhAckv c = false → fhCrd c = false → fhNak c = false → s.gwl.expect < 4096 → 1 ≤ (s.gwl.expect + 4096 - fhSeq c) % 4096 →
        (s.gwl.expect + 4096 - fhSeq c) % 4096 ≤ 2048 →
      ∃ t, exec (.dataFrameRx b) s = .next t ∧ t.gwl = s.gwl ∧ t.hqe = s.hqe ∧ t.pool = s.pool ∧ t.out = s.out)
    ∧ (fhType c = 1 → fhAckv c = false → fhCrd c = false → fhNak c = false → s.gwl.expect < 4096 → 2048 < (s.gwl.expect + 4096 - fhSeq c) % 4096 →
        s.gwl.nakAt = none →
      ∃ t, exec (.dataFrameRx b) s = .next t ∧ t.gwl = { s.gwl with nakDue := true } ∧ t.hqe = s.hqe ∧ t.out = s.out)
    ∧ (fhType c = 2 → fhAckv c = true → fhNak c = false → fhSeq c = s.gwl.expect → s.gwl.lastAck < 4096 →
        let d := (fhAck c + 4096 - s.gwl.lastAck) % 4096
        (0 < d → d ≤ s.gwl.replay.length → s.gwl.resend = none →
          ∃ t, exec (.ctrlFrameRx b) s = .next t ∧ t.gwl.replay = s.gwl.replay.drop d ∧ t.gwl.lastAck = fhAck c ∧ t.gwl.replayCnt = 0
            ∧ t.gwl.resend = none ∧ t.gwl.expect = s.gwl.expect ∧ t.hqe = s.hqe ∧ t.out = s.out)
        ∧ (s.gwl.replay.length < d →
          ∃ t, exec (.ctrlFrameRx b) s = .next t ∧ t.gwl.replay = s.gwl.replay ∧ t.gwl.lastAck = s.gwl.lastAck
            ∧ t.fld F.GWL_CNT4.ACK_ERR = min F.GWL_CNT4.ACK_ERR.max (s.fld F.GWL_CNT4.ACK_ERR + 1)))

/-- R347, R352, R354, R357: what leaves in a frame slot. A frame's bytes are its header, its body and its check under the epoch, with the
FEC parity. A slot without a frame is idle. -/
def Obligations.FramesLeaveInOrderAndReplayUnchanged : Prop :=
  ∀ s : State, s.injIdle → s.flag F.GWP_STAT.LINK_UP = true →
    (s.gwActive = false →
      exec .initFrameTx s = .next (s.sendFrame (some (withFec (frameBytes 0 (frameHead false false false false 3 0 0)
        (leBytes 4 s.gwl.epoch ++ leBytes 2 1 ++ leBytes 1 (b2n s.gwl.rxDone) ++ leBytes 1 12 ++ leBytes 4 chipId
          ++ creditRecord firstGrants))))) ∧ (s.gwTxOn = true → exec .linkFrameTx s = .next (s.sendFrame none)))
    ∧ (s.gwTxOn = false → exec .linkFrameTx s = .next s)
    ∧ (s.gwActive = true → exec .initFrameTx s = .next s)
    ∧ (∀ k f, s.gwTxOn = true → s.gwActive = true → s.gwl.resend = some k → s.gwl.replay[k]? = some f → s.crdReady = false → s.gwl.nakDue = false →
      ∃ u : State, exec .linkFrameTx s = .next (u.sendFrame (some (withFec (frameBytes (s.rd .GWL_EPOCH_TX)
            (frameHead true false false true 1 (subMod 4096 s.gwl.expect 1) f.seq) f.units))))
        ∧ u.gwl.replay = s.gwl.replay ∧ u.gwl.seq = s.gwl.seq ∧ u.gwl.ackDue = false
        ∧ u.gwl.resend = (if k + 1 < s.gwl.replay.length then some (k + 1) else none) ∧ u.regs = s.regs)
    ∧ (s.gwTxOn = true → s.gwActive = true → s.gwl.resend = none → s.gwl.txPartOf = none → s.pickTxn = none → s.gwl.ackDue = false →
        s.gwl.nakDue = false → s.crdReady = false → exec .linkFrameTx s = .next (s.sendFrame none))
    ∧ (s.gwTxOn = true → s.gwActive = true → s.gwl.resend = none → s.gwl.txPartOf = none → s.pickTxn = none → s.gwl.ackDue = true → s.crdReady = false →
        s.gwl.nakDue = false → s.gwl.replay.length < 512 →
      ∃ u : State, exec .linkFrameTx s = .next (u.sendFrame (some (withFec (frameBytes (s.rd .GWL_EPOCH_TX)
            (frameHead false false false true 2 (subMod 4096 s.gwl.expect 1) s.gwl.seq) (creditRecord s.gwl.grant)))))
        ∧ u.gwl.ackDue = false ∧ u.gwl.seq = s.gwl.seq ∧ u.gwl.replay = s.gwl.replay ∧ u.regs = s.regs)
    ∧ (s.gwActive = true → s.gwl.resend = none → s.crdReady = true → s.gwl.txPartOf = none → s.pickTxn = none → s.gwl.nakDue = false →
      ∃ u : State, exec .creditRecordTx s = .next (u.sendFrame (some (withFec (frameBytes (s.rd .GWL_EPOCH_TX)
            (frameHead false false false true 2 (subMod 4096 s.gwl.expect 1) s.gwl.seq) (creditRecord s.gwl.grant)))))
        ∧ u.gwl.crdDue = false ∧ u.gwl.crdAt = some s.time.now ∧ u.gwl.replay = s.gwl.replay)
    ∧ (∀ r, s.gwTxOn = true → s.gwActive = true → s.gwl.resend = none → s.gwl.replay.length < 512 →
        r = s.fillUnits 32 (if s.crdReady then 224 else 240) [] [] → r.1.1 ≠ [] → r.2.injIdle →
      ∃ u, exec .linkFrameTx s = .next u ∧ u.gwl.seq = (r.2.gwl.seq + 1) % 4096
        ∧ u.gwl.replay = r.2.gwl.replay ++ [{ seq := r.2.gwl.seq, units := r.1.1, txns := r.1.2 }])
    ∧ (s.crdReady = false → exec .creditRecordTx s = .next s)

/-- R357, R358: a replay starts at the oldest frame without acknowledgement; after REPLAY_MAX of them at one frame the link goes down. -/
def Obligations.ReplaysStartAndGiveUp : Prop :=
  ∀ (s : State) (f : TxFrame) (r : List TxFrame), s.gwActive = true → s.gwl.replay = f :: r →
    let n := if s.gwl.replayAt = f.seq then s.gwl.replayCnt else 0
    (n < s.fld F.GWL_CTRL.REPLAY_MAX →
      ∃ t, exec .replayTimeout s = .next t ∧ t.gwl = { s.gwl with resend := some 0, replayAt := f.seq, replayCnt := n + 1 }
        ∧ t.fld F.GWL_CNT1.REPLAY = min F.GWL_CNT1.REPLAY.max (s.fld F.GWL_CNT1.REPLAY + 1)
        ∧ t.fld F.GWL_CNT3.TIMEOUT = min F.GWL_CNT3.TIMEOUT.max (s.fld F.GWL_CNT3.TIMEOUT + 1) ∧ t.out = s.out)
    ∧ (s.fld F.GWL_CTRL.REPLAY_MAX ≤ n →
      ∃ u : State, exec .replayTimeout s = .next (u.gwLinkDown true) ∧ u.flag F.GWL_STAT.PROTO_ERR = true ∧ u.flag F.GWL_STAT.REPLAY_LIM = true
        ∧ (s.flag F.GWL_PROTO_REC.VALID = false → u.rd .GWL_PROTO_REC = (2 ^ 31 + 4 * 2 ^ 28 + (f.seq % 4096) * 2 ^ 12) % 2 ^ 32)
        ∧ { u with regs := s.regs } = s)

/-! Geward: transactions and messages of the host. -/

/-- R363, R364, R387, R409, R631: reads and writes of the register window over Geward. Nothing answers while SYS has stopped. -/
def Obligations.HostTransactionsReachTheRegisterWindow : Prop :=
  ∀ (s : State) (t : HostTxn),
    (s.sysStopped = true → exec (.mrdRx t) s = .next s)
    ∧ (s.sysStopped = false → s.gwReach t.dom.toNat t.addr.toNat = false → exec (.mrdRx t) s = .next (s.answer t 3 []))
    ∧ (s.sysStopped = false → s.gwReach t.dom.toNat t.addr.toNat = true → extentOk t.addr.toNat t.len.toNat = false →
        exec (.mrdRx t) s = .next (s.answer t 2 []))
    ∧ (s.sysStopped = false → s.gwReach t.dom.toNat t.addr.toNat = true → extentOk t.addr.toNat t.len.toNat = true →
        inRemote t.addr.toNat = false → inDoorbells t.addr.toNat = true → regAccess t.addr.toNat t.len.toNat = true →
        exec (.mrdRx t) s = .next (s.answer t 0 (List.replicate t.len.toNat 0)))
    ∧ (∀ r, s.sysStopped = false → s.gwReach t.dom.toNat t.addr.toNat = true → inRemote t.addr.toNat = false →
        inDoorbells t.addr.toNat = false → bufAt t.addr.toNat = none → t.len.toNat = 4 → t.addr.toNat % 4 = 0 → t.addr.toNat < 0x4000000 →
        (findReg t.addr.toNat = some r →
          let u := s.readActs r.kind r.i r.j
          exec (.mrdRx t) s = .next (u.answer t 0 (leBytes 4 (u.viewReg r.kind r.i r.j))))
        ∧ (findReg t.addr.toNat = none → exec (.mrdRx t) s = .next (s.answer t 2 [])))
    ∧ (s.sysStopped = false → s.noHeld → inDoorbells t.addr.toNat = false → s.gwReach t.dom.toNat t.addr.toNat = false →
      ∃ u : State, exec (.mwrRx t) s = .next u ∧ u.fld F.GWL_CNT4.DISCARD = min F.GWL_CNT4.DISCARD.max (s.fld F.GWL_CNT4.DISCARD + 1)
        ∧ SameRegs [⟨.GWL_CNT4, 0, 0⟩] s u ∧ { u with regs := s.regs } = s)
    ∧ (s.sysStopped = false → s.noHeld → inDoorbells t.addr.toNat = true →
        let page := (t.addr.toNat - 0x1800000) / 0x1000
        (∀ p : Fin 64, p.val = page → t.len.toNat = 8 → t.addr.toNat % 8 = 0 →
          exec (.mwrRx t) s = exec (.doorbell ⟨t.dom.toNat, t.dom.isLt⟩ p (BitVec.ofNat 64 (leNat (padTo 8 t.data)))) s)
        ∧ ((t.len.toNat ≠ 8 ∨ t.addr.toNat % 8 ≠ 0) →
          ∃ u : State, exec (.mwrRx t) s = .next u ∧ u.hqe = s.hqe
            ∧ u.fld F.HQE_CNT0.DB_DISCARD = min F.HQE_CNT0.DB_DISCARD.max (s.fld F.HQE_CNT0.DB_DISCARD + 1)))
    ∧ (s.sysStopped = false → t.dom.toNat = 0 → t.len.toNat = 4 → t.addr.toNat % 4 = 0 → (findReg t.addr.toNat).isSome = true →
        inDoorbells t.addr.toNat = false → inRemote t.addr.toNat = false → inApertures t.addr.toNat = false → bufAt t.addr.toNat = none →
        t.addr.toNat < 0x4000000 →
        exec (.mwrRx t) s = exec (.registerWrite .geward (BitVec.ofNat 26 t.addr.toNat) (BitVec.ofNat 32 (leAt (padTo 4 t.data) 0 4))) s)

/-- R364, R365, R366: completions of Korlet's own reads, their time-out, and the re-issue after RETRY. -/
def Obligations.CompletionsEndOrRetryReads : Prop :=
  ∀ (s : State),
    (∀ t : HostTxn, s.gwl.mrds.get t.tag.toNat = none →
      ∃ u : State, exec (.cplRx t) s = .next u ∧ u.fld F.GWL_CNT5.LATE_CPL = min F.GWL_CNT5.LATE_CPL.max (s.fld F.GWL_CNT5.LATE_CPL + 1)
        ∧ u.gwl = s.gwl ∧ u.hqe = s.hqe ∧ u.prd = s.prd ∧ u.out = s.out)
    ∧ (∀ (t : HostTxn) m, s.gwl.mrds.get t.tag.toNat = some m → m.again = false →
        (bits t.sub.toNat 2 0 = 1 → m.txn.retries < s.fld F.GWL_CTRL.HOST_RETRY →
          ∃ u : State, exec (.cplRx t) s = .next u ∧ u.gwl = { s.gwl with mrds := s.gwl.mrds.set t.tag.toNat (some { m with again := true, got := [] }) })
        ∧ (bits t.sub.toNat 2 0 = 0 → bit t.sub.toNat 7 = false →
          ∃ u : State, exec (.cplRx t) s = .next u ∧ u.gwl = { s.gwl with mrds := s.gwl.mrds.set t.tag.toNat (some { m with
            got := putOpt m.got m.txn.len (t.addr.toNat - m.txn.addr) (t.data.take t.len.toNat) }) })
        ∧ (bits t.sub.toNat 2 0 = 0 → bit t.sub.toNat 7 = true →
          ∃ u : State, exec (.cplRx t) s = .next (u.mrdOk t.tag.toNat { m with
              got := putOpt m.got m.txn.len (t.addr.toNat - m.txn.addr) (t.data.take t.len.toNat) }) ∧ u.gwl = s.gwl ∧ u.hqe = s.hqe)
        ∧ (2 ≤ bits t.sub.toNat 2 0 →
          ∃ u : State, exec (.cplRx t) s = .next (u.mrdAbort t.tag.toNat m) ∧ u.gwl = s.gwl ∧ u.hqe = s.hqe ∧ u.prd = s.prd))
    ∧ (∀ (tag : BitVec 10) m, s.gwl.mrds.get tag.toNat = some m → m.again = false →
      ∃ u : State, exec (.cplTimeout tag) s = .next (u.mrdAbort tag.toNat m)
        ∧ u.fld F.GWL_CNT3.CPL_TMO = min F.GWL_CNT3.CPL_TMO.max (s.fld F.GWL_CNT3.CPL_TMO + 1)
        ∧ u.gwl = { s.gwl with heldTags := (tag.toNat, s.time.now + 4 * s.fld F.GWL_CTRL.CPL_TMO_US * 1200) :: s.gwl.heldTags })
    ∧ (∀ (tag : BitVec 10) m, s.gwl.mrds.get tag.toNat = some m → m.again = true →
      ∃ u : State, exec (.hostRetryReissue tag) s = .next u ∧ u.gwl.mrds.get tag.toNat = none
        ∧ u.gwl.txq = s.gwl.txq ++ [{ m.txn with retries := m.txn.retries + 1 }]
        ∧ SameRegs [⟨.GWL_STAT, 0, 0⟩] s u ∧ { u with regs := s.regs, gwl := s.gwl } = s)
    ∧ (∀ tag : BitVec 10, s.gwl.mrds.get tag.toNat = none →
        exec (.cplTimeout tag) s = .next s ∧ exec (.hostRetryReissue tag) s = .next s)

/-- R64, R367, R368, R369, R412: the messages of the host. The detail of an unmatched write fault is a free value (log entry 2). -/
def Obligations.TimeAndWriteFaultMessages : Prop :=
  ∀ s : State,
    (∀ h : BitVec 64,
      (∃ t, exec (.time h false) s = .next t ∧ t.fld F.GWL_CNT4.TIME_BAD = min F.GWL_CNT4.TIME_BAD.max (s.fld F.GWL_CNT4.TIME_BAD + 1)
        ∧ SameRegs [⟨.GWL_CNT4, 0, 0⟩] s t ∧ { t with regs := s.regs } = s)
      ∧ (s.fld F.RAS_DISC_CTRL.SRC ≠ 2 → exec (.time h true) s = .next s)
      ∧ (s.fld F.RAS_DISC_CTRL.SRC = 2 → s.time.lastMsg = none →
          exec (.time h true) s = .next { s with time := { s.time with lastMsg := some s.time.tod } })
      ∧ (∀ l, s.fld F.RAS_DISC_CTRL.SRC = 2 → s.time.lastMsg = some l → l < s.time.tod →
          let e : Int := (h.toNat + s.fld F.RAS_GW_DELAY.DELAY_NS : Nat) - (s.time.tod : Nat)
          ∃ u : State, exec (.time h true) s = .next { u with time := { u.time with lastMsg := some u.time.tod } }
            ∧ u = s.measure e (s.time.tod - l)
            ∧ (s.fld F.RAS_DISC_PARAM.STEP_US * 1000 < e.natAbs → u.time.tod = (((s.time.tod : Int) + e) % (2 ^ 64 : Nat)).toNat
                ∧ u.flag F.RAS_DISC_STAT.STEPPED = true)))
    ∧ (∀ (d : Fin 64) (tag : BitVec 10) (c : BitVec 8) (a : BitVec 64),
        let hit := s.hqe.mwrs.find? (fun m => m.tag == tag.toNat && m.dom == d.val && m.addr ≤ a.toNat && a.toNat < m.addr + m.len)
        (hit = none →
          ∃ u : State, exec (.writeFault d tag c a) s = .next (u.draw.raise 29 (u.free % 2 ^ 32)) ∧ u.freeIdx = s.freeIdx
            ∧ u.fld F.GWL_CNT5.WF_RX = min F.GWL_CNT5.WF_RX.max (s.fld F.GWL_CNT5.WF_RX + 1)
            ∧ u.fld F.GWL_CNT5.WF_UNMATCHED = min F.GWL_CNT5.WF_UNMATCHED.max (s.fld F.GWL_CNT5.WF_UNMATCHED + 1) ∧ u.out = s.out)
        ∧ (∀ m, hit = some m → m.ofRing = true →
          ∃ u : State, exec (.writeFault d tag c a) s = .next (u.mwrFailed m 4 a.toNat)
            ∧ u.fld F.GWL_CNT5.WF_RX = min F.GWL_CNT5.WF_RX.max (s.fld F.GWL_CNT5.WF_RX + 1)
            ∧ SameRegs [⟨.GWL_CNT5, 0, 0⟩] s u ∧ { u with regs := s.regs } = s))

/-! Host rings. -/

/-- R387, R388, R389: a doorbell waits in the queue and replaces an earlier one of its ring; the first whose context is cached moves the
index of its ring, or is discarded, or fails the ring. -/
def Obligations.DoorbellsQueueAndMoveTheIndex : Prop :=
  ∀ s : State,
    (∀ (d p : Fin 64) (v : BitVec 64),
      let bad := d.val != p.val || 2 ≤ bits v.toNat 31 30 || bits v.toNat 28 12 != 0
      let same := fun (q : DbEntry) => !q.bad && q.dom == p.val && q.ring == bits v.toNat 11 0 && q.op == bits v.toNat 31 30
      ∃ t, exec (.doorbell d p v) s = .next t
        ∧ ((bad = true ∨ s.hqe.dbq.any same = false) → t.hqe.dbq = s.hqe.dbq ++ [{
            dom := p, ring := bits v.toNat 11 0, index := bits v.toNat 63 32, op := bits v.toNat 31 30, arm := bit v.toNat 29, bad := bad }])
        ∧ (bad = false → s.hqe.dbq.any same = true → t.hqe.dbq = s.hqe.dbq.map (fun q =>
            if same q then { q with index := bits v.toNat 63 32, arm := q.arm || bit v.toNat 29 } else q))
        ∧ { t.hqe with dbq := s.hqe.dbq } = s.hqe ∧ (1024 ≤ t.hqe.dbq.length → t.flag F.HQE_STAT.DBQ_FULL = true)
        ∧ t.gwl = s.gwl ∧ t.prd = s.prd ∧ t.out = s.out)
    ∧ (∀ e r, s.hqe.dbq = e :: r → s.hqe.credHdr = 0 →
        (s.dbBad e = true → r = [] →
          ∃ t, exec .doorbellProcess s = .next t ∧ t.hqe = { s.hqe with dbq := [] }
            ∧ t.fld F.HQE_CNT0.DB_DISCARD = min F.HQE_CNT0.DB_DISCARD.max (s.fld F.HQE_CNT0.DB_DISCARD + 1))
        ∧ (s.dbBad e = false → r = [] → s.hqe.cache.any (· == ringG e.dom e.ring) = true → e.op = 0 →
            let x := s.ring (ringG e.dom e.ring)
            let step := (e.index + 2 ^ 32 - x.pi % 2 ^ 32) % 2 ^ 32
            (0 < step → step ≤ 2 ^ x.k - (x.pi + 2 ^ 32 - x.ci % 2 ^ 32) % 2 ^ 32 →
              ∃ u : State, exec .doorbellProcess s = .next (u.fetchMore (ringG e.dom e.ring))
                ∧ u.ring (ringG e.dom e.ring) = { x with pi := e.index } ∧ (∀ g, g ≠ ringG e.dom e.ring → u.ring g = s.ring g)
                ∧ u.hqe.dbq = [])
            ∧ (2 ^ x.k - (x.pi + 2 ^ 32 - x.ci % 2 ^ 32) % 2 ^ 32 < step →
              ∃ u : State, exec .doorbellProcess s = .next (u.report [.ringErr (ringG e.dom e.ring) 1 e.index 0 false])
                ∧ (∀ g, u.ring g = s.ring g) ∧ u.hqe.dbq = [])))
    ∧ (s.hqe.dbq = [] → exec .doorbellProcess s = .next s)

/-- R390, R391, R395, R396: the next fetched descriptor of a SUB ring starts, or is refused at once with the status that its header gives. -/
def Obligations.DescriptorsStartInRingOrder : Prop :=
  ∀ (s : State) (d : Fin 64) (r : Fin 4096) (e : Desc) (rest : List Desc),
    let g := ringG d r
    let u := s.modRing g (fun x => { x with fetched := rest, started := x.started ++ [{ idx := e.idx, bytes := e.bytes }] })
    (s.ring g).typ = .sub → s.fetches g = true → (s.ring g).fetched = e :: rest → e.idx = s.nextStart g →
    (descFence e.bytes = true → (s.ring g).started ≠ [] → exec (.descriptorFetch d r) s = .next (s.fetchMore g))
    ∧ ((descFence e.bytes = false ∨ (s.ring g).started = []) →
        (startStatus d r e.bytes = none → exec (.descriptorFetch d r) s = .next (u.fetchMore g))
        ∧ (∀ c, startStatus d r e.bytes = some c → exec (.descriptorFetch d r) s = .next (((u.takeCmd g e.idx).finishCmd g e.idx e.bytes c).fetchMore g)))
    ∧ (bits (leAt e.bytes 0 4) 22 0 = 0 → descCmd e.bytes = 0x02 → (startStatus d r e.bytes = none ↔ r.val = 0))
    ∧ (bits (leAt e.bytes 0 4) 22 0 = 0 → descCmd e.bytes = 0x08 → (startStatus d r e.bytes = none ↔ d.val = 0 ∧ r.val = 0))
    ∧ (bits (leAt e.bytes 0 4) 22 0 ≠ 0 → startStatus d r e.bytes = some 0x30)

/-- R391, R392, R395, R415: the ring commands, each with one completion on the CMP ring of its own ring. `v` is the state in which the unit has
taken the descriptor up. -/
def Obligations.RingCommandsChangeTheirRing : Prop :=
  ∀ (s : State) (d : Fin 64) (r : Fin 4096) (i : BitVec 32) (x : Started),
    let g := ringG d r
    let v := s.takeCmd g i.toNat
    let t := ringG (rcDom x.bytes) (rcRing x.bytes)
    (s.startedCmd g i.toNat 0x01 = some x →
      exec (.nop d r i) s = .next (v.finishCmd g i.toNat x.bytes (if leAt x.bytes 8 24 = 0 then 0 else 0x30)))
    ∧ (s.startedCmd g i.toNat 0x02 = some x →
        (∀ c, v.createStatus g x.bytes = some c → exec (.ringCreate d r i) s = .next (v.finishCmd g i.toNat x.bytes c))
        ∧ (v.createStatus g x.bytes = none → v.hqe.cache.length < 4096 →
          ∃ u : State, exec (.ringCreate d r i) s = .next (u.finishCmd g i.toNat x.bytes 0) ∧ (u.ring t).st = .running ∧ (u.ring t).pi = 0
            ∧ (u.ring t).ci = 0 ∧ (u.ring t).fi = 0 ∧ (u.ring t).base = rcAddr x.bytes ∧ (u.ring t).k = rcSize x.bytes + 4
            ∧ ((u.ring t).armed = true ↔ rcType x.bytes = 2) ∧ t ∈ u.hqe.cache ∧ (∀ q, q ≠ t → u.ring q = v.ring q)
            ∧ { u with hqe := s.hqe } = s))
    ∧ (s.startedCmd g i.toNat 0x03 = some x → rcReserved x.bytes false = false → rcReach g x.bytes false = none →
        ((rcRing x.bytes < 2 ∨ ((v.ring t).st ≠ .stopped ∧ (v.ring t).st ≠ .error)) →
          exec (.ringDestroy d r i) s = .next (v.finishCmd g i.toNat x.bytes 0x33))
        ∧ (2 ≤ rcRing x.bytes → (v.ring t).st = .stopped → (v.ring t).typ = .sub →
          ∃ u : State, exec (.ringDestroy d r i) s = .next (u.finishCmd g i.toNat x.bytes 0) ∧ u.ring t = {} ∧ t ∉ u.hqe.cache
            ∧ (∀ q, q ≠ t → u.ring q = v.ring q)))
    ∧ (s.startedCmd g i.toNat 0x04 = some x → rcReserved x.bytes false = false → rcReach g x.bytes false = none →
        ((v.ring t).st ≠ .running → exec (.ringStop d r i) s = .next (v.finishCmd g i.toNat x.bytes 0x33))
        ∧ ((v.ring t).st = .running → (v.ring t).typ = .sub →
          ∃ u : State, exec (.ringStop d r i) s = .next (u.finishCmd g i.toNat x.bytes 0)
            ∧ u.ring t = { v.ring t with fetched := [], fi := v.nextStart t, st := .stopped })
        ∧ ((v.ring t).st = .running → (v.ring t).typ = .buf → (v.ring t).bound ≠ 0 →
          ∃ u : State, exec (.ringStop d r i) s = .next (u.finishCmd g i.toNat x.bytes 0) ∧ u.ring t = { v.ring t with stopping := true }))
    ∧ (s.startedCmd g i.toNat 0x05 = some x → rcReserved x.bytes false = false → rcReach g x.bytes false = none → 2 ≤ rcRing x.bytes →
        ((v.ring t).st = .running → exec (.ringResume d r i) s = .next (v.finishCmd g i.toNat x.bytes 0x33))
        ∧ ((v.ring t).st = .error → (v.ring t).typ = .sub → (v.ring (v.cmpOf t)).st = .running → (v.ring t).waitQ = [] → (v.ring t).lost = 0 →
          ∃ u : State, exec (.ringResume d r i) s = .next (u.finishCmd g i.toNat x.bytes 0) ∧ (u.ring t).st = .running ∧ (u.ring t).err = 0
            ∧ (u.ring t).pi = rcIndex x.bytes ∧ (u.ring t).ci = rcIndex x.bytes ∧ (u.ring t).fi = rcIndex x.bytes))
    ∧ (s.startedCmd g i.toNat 0x06 = some x → rcReserved x.bytes true = false → rcReach g x.bytes true = none → rcAddr x.bytes % 64 = 0 →
        (∀ u, v.writeHost { kind := .cmdWrite, ring := g, idx := i.toNat } (ringDom g) (v.ring g).cls (rcAddr x.bytes) (v.ctxBytes t) false = some u →
          exec (.ringQuery d r i) s = .next (u.finishCmd g i.toNat x.bytes 0))
        ∧ (v.writeHost { kind := .cmdWrite, ring := g, idx := i.toNat } (ringDom g) (v.ring g).cls (rcAddr x.bytes) (v.ctxBytes t) false = none →
          ∃ u : State, exec (.ringQuery d r i) s = .next (u.finishCmd g i.toNat x.bytes 0x36)
            ∧ u.fld F.HQE_CNT1.WINDOW = min F.HQE_CNT1.WINDOW.max (s.fld F.HQE_CNT1.WINDOW + 1)))

/-- R383, R384, R393, R394: domains and copies. DOM_SET and FST_COPY read first; DOM_RESET leaves the domain's rings DISABLED. -/
def Obligations.DomainCommandsAndCopiesStart : Prop :=
  ∀ (s : State) (d : Fin 64) (r : Fin 4096) (i : BitVec 32) (x : Started),
    let g := ringG d r
    let v := s.takeCmd g i.toNat
    (s.startedCmd g i.toNat 0x08 = some x →
        (rcReserved x.bytes true = true → exec (.domSet d r i) s = .next (v.finishCmd g i.toNat x.bytes 0x30))
        ∧ (rcReserved x.bytes true = false → ∀ u,
            v.readHost { kind := .cmdRead, ring := g, idx := i.toNat } (ringDom g) (v.ring g).cls (rcAddr x.bytes) 256 = some u →
            exec (.domSet d r i) s = .next u ∧ u.hqe = v.hqe))
    ∧ (s.startedCmd g i.toNat 0x09 = some x → rcReserved x.bytes false = false →
        ((rcDom x.bytes = 0 ∨ (v.dom (rcDom x.bytes)).en = false) → exec (.domReset d r i) s = .next (v.finishCmd g i.toNat x.bytes 0x33))
        ∧ (rcDom x.bytes ≠ 0 → (v.dom (rcDom x.bytes)).en = true → v.ownedBy (rcDom x.bytes) = [] → v.prd.queue = [] →
          ∃ (u : State) (n : List Note), exec (.domReset d r i) s = .next (u.report n) ∧ (u.dom (rcDom x.bytes)).en = false
            ∧ (∀ q, ringDom q = rcDom x.bytes → u.ring q = {}) ∧ (∀ q, ringDom q ≠ rcDom x.bytes → u.ring q = v.ring q) ∧ n ≠ []))
    ∧ (s.startedCmd g i.toNat 0x10 = some x → leAt x.bytes 24 8 = 0 →
        (s.flag F.FST_STAT.READY = false → exec (.fstCopy d r i) s = .next (v.finishCmd g i.toNat x.bytes 0x39))
        ∧ (s.flag F.FST_STAT.READY = true → leAt x.bytes 8 8 % 64 = 0 →
            let rg := cfld x.bytes 16 15 0
            let k := cfld x.bytes 16 31 16
            rg < 64 → s.flag F.FST_RGN.EN rg = true → s.fld F.FST_RGN.KIND rg = 0 → (s.fst.geo.get rg).size ≠ 0 →
            (k + 1) * (s.fst.geo.get rg).size ≤ s.fld F.FST_RGN.SIZE rg * 2 ^ 21 →
            (slotValid (v.fstRow (v.slotAddr rg k / 1024)) = true →
              exec (.fstCopy d r i) s
                = .next { v with fst := { s.fst with copies := s.fst.copies ++ [{ ring := g, idx := i.toNat, bytes := x.bytes }] } })
            ∧ (slotValid (v.fstRow (v.slotAddr rg k / 1024)) = false → exec (.fstCopy d r i) s = .next (v.finishCmd g i.toNat x.bytes 0x38))))

/-- R383, R414, R416: the engine's enable, its admin rings, and the context cache. -/
def Obligations.TheQueueEngineEnablesAndCaches : Prop :=
  ∀ s : State,
    (s.flag F.HQE_CTRL.EN = false →
      ∃ t, exec .hqeEnable s = .next t ∧ t.flag F.HQE_CTRL.EN = true ∧ t.flag F.HQE_STAT.RUNNING = true ∧ (t.dom 0).en = true
        ∧ (t.ring 0).typ = .sub ∧ (t.ring 0).st = .running ∧ (t.ring 0).cmp = 1 ∧ (t.ring 0).pin = true
        ∧ (t.ring 0).base = s.fld F.HQE_ASUB_HI.BASE_HI * 2 ^ 32 + s.fld F.HQE_ASUB_LO.BASE_LO * 4096
        ∧ (t.ring 1).typ = .cmp ∧ (t.ring 1).st = .running ∧ (t.ring 1).armed = true
        ∧ (t.ring 1).base = s.fld F.HQE_ACMP_HI.BASE_HI * 2 ^ 32 + s.fld F.HQE_ACMP_LO.BASE_LO * 4096
        ∧ (∀ q, 2 ≤ q → t.ring q = {}) ∧ t.hqe.cache = [0, 1] ∧ t.hqe.dbq = []
        ∧ SameRegs [⟨.HQE_CTRL, 0, 0⟩, ⟨.HQE_STAT, 0, 0⟩] s t ∧ { t with regs := s.regs, hqe := s.hqe } = s)
    ∧ (s.flag F.HQE_CTRL.EN = true → exec .hqeEnable s = .next s)
    ∧ (s.flag F.HQE_CTRL.EN = true → (s.ring 0).waitQ = [] → (s.ring 0).lost = 0 → (s.ring 1).waitQ = [] → (s.ring 1).lost = 0 →
      ∃ t, exec .adminResume s = .next t ∧ (∀ q, q < 2 → (t.ring q).st = .running ∧ (t.ring q).err = 0 ∧ (t.ring q).pi = 0 ∧ (t.ring q).ci = 0
          ∧ (t.ring q).fi = 0 ∧ (t.ring q).base = (s.ring q).base ∧ (t.ring q).k = (s.ring q).k)
        ∧ (∀ q, 2 ≤ q → t.ring q = s.ring q) ∧ t.regs = s.regs ∧ t.prd = s.prd ∧ t.out = s.out)
    ∧ (s.flag F.HQE_CTRL.EN = false → exec .adminResume s = .next s)
    ∧ (∀ g : BitVec 18, g.toNat ∈ s.hqe.fills → s.hqe.cache.length < 4096 →
      ∃ u : State, exec (.contextFill g) s = .next (u.fetchMore g.toNat) ∧ g.toNat ∈ u.hqe.cache ∧ g.toNat ∉ u.hqe.fills
        ∧ (∀ q, q ∈ s.hqe.cache → q ∈ u.hqe.cache)
        ∧ { u.hqe with cache := s.hqe.cache, fills := s.hqe.fills } = s.hqe ∧ { u with hqe := s.hqe } = s)
    ∧ (∀ g : BitVec 18, g.toNat ∉ s.hqe.fills → exec (.contextFill g) s = .next s)

/-- R172, R398, R399: a published line of a host product goes into the buffer that the product holds; it stays in the pool, marked, until its
bytes have been copied. -/
def Obligations.HostLinesFillTheirBuffer : Prop :=
  ∀ (s : State) (i : BitVec 8) (q : PFrame) (d : Nat) (l : PLine) (h0 h : HeldBuf) (a : State),
    (s.product i.toNat).frames.find? (fun x => !x.dead) = some q → pdbDestKind q.pdb = 0 → s.nextOut i.toNat q = some d → s.line d = some l →
    let g := pdbRing q.pdb
    let v := s.fetchMore g
    (s.ring g).held = some h0 → (v.ring g).held = some h → h.recs = 0 → lineSeal (pdbSrc0 q.pdb) i.toNat q.frame l.line l.data = l.sealVal →
    v.writeHost { kind := .lineData, ring := g, idx := h.idx } (ringDom g) (v.ring g).cls (h.addr + h.lines * h.pitch) l.data
        (v.flag F.GWL_CTRL.RO_EN) (some (i.toNat, q.frame, l.line)) = some a →
    h.lines + 1 < h.bytes / h.pitch → q.rel + 1 ≠ pdbFrameLines q.pdb →
    ∃ u : State, exec (.hostLineRelease i) s = .next ((((u.fetchMore g).settleSpill i.toNat).tryEnds i.toNat).retryCommits)
      ∧ u.line d = some { l with sent := true } ∧ (∀ x, x ≠ d → u.line x = s.line x)
      ∧ (u.ring g).held = some { h with lines := h.lines + 1, flags := h.flags ||| l.flags } ∧ u.gwl = a.gwl ∧ u.out = a.out

/-! Displays and Marigold. -/

/-- R125, R427, R428, R429: the link of a display port, and the lines of its frames, each where the raster has reached it. A port whose link
was down at the frame's boundary sends no row; outside the safe state an active row leaves composed and encoded. -/
def Obligations.DisplayPortsStartSendAndStop : Prop :=
  ∀ (s : State) (n : Fin 4),
    (s.flag F.DEG_PORT_CTRL.RUN n = false →
      ∃ t, exec (.displayPortRun n true) s = .next t ∧ t.flag F.DEG_PORT_CTRL.RUN n = true ∧ t.disp.get n = { s.disp.get n with seen := false }
        ∧ (∀ k, k ≠ n.val → t.disp.get k = s.disp.get k) ∧ SameRegs [⟨.DEG_PORT_CTRL, n, 0⟩] s t ∧ { t with regs := s.regs, disp := s.disp } = s)
    ∧ (s.flag F.DEG_PORT_CTRL.RUN n = true → (∀ q, q ∈ (s.disp.get n).frames → q.spent = true) → (s.vbr.tun.get (28 + n)).jobs = [] →
        (s.vbr.tun.get (28 + n)).held = [] →
      ∃ u : State, exec (.displayPortRun n false) s = .next ((u.each u.products (fun i x => x.tryEnds i)).retryCommits)
        ∧ u.flag F.DEG_PORT_CTRL.RUN n = false ∧ u.flag F.DEG_PORT_STAT.LINK_UP n = false ∧ (u.disp.get n).seen = false
        ∧ u.flag F.DEG_PORT_STAT.LINK_LOST n = s.flag F.DEG_PORT_STAT.LINK_LOST n ∧ u.prd = s.prd ∧ u.pool = s.pool ∧ u.out = s.out)
    ∧ (s.flag F.DEG_PORT_CTRL.RUN n = true →
      ∃ u : State, exec (.displayLinkUp n) s = .next u.bootAdvance ∧ u.flag F.DEG_PORT_STAT.LINK_UP n = true ∧ (u.disp.get n).seen = true
        ∧ SameRegs [⟨.DEG_PORT_STAT, n, 0⟩] s u ∧ { u with regs := s.regs, disp := s.disp } = s)
    ∧ (s.flag F.DEG_PORT_CTRL.RUN n = true → s.flag F.DEG_PORT_STAT.LINK_UP n = true → (s.disp.get n).seen = true →
        (s.vbr.tun.get (28 + n)).jobs = [] → (s.vbr.tun.get (28 + n)).held = [] →
      ∃ u : State, exec (.displayLinkDown n) s = .next ((u.raise 30 n).mgdEvent 0x43 n (s.ras.get (s.portRaster n)).frame 0 0)
        ∧ u.flag F.DEG_PORT_STAT.LINK_UP n = false ∧ u.flag F.DEG_PORT_STAT.LINK_LOST n = true
        ∧ (∀ q, q ∈ (u.disp.get n).frames → q.spent = false → q.ok = false) ∧ u.prd = s.prd ∧ u.pool = s.pool ∧ u.out = s.out)
    ∧ (∀ q (c : BitVec 8), s.fcl.safe = false → s.flag F.DEG_PORT_CTRL.RUN n = true → (s.disp.get n).frames = [q] → q.spent = false →
        q.fetch < q.fld F.DEG_VTIMING0.VACT n → (∀ l, l < 4 → q.live n l = false) →
      let at_ : Int := (q.lineAt n (s.portRaster n) (q.top n + q.fetch) : Nat) - 256
      (s.dispReached n q at_ = true →
        ∃ t, exec (.layerFetch n c) s = .next t ∧ (t.disp.get n).frames = [{ q with fetch := q.fetch + 1 }]
          ∧ { t with disp := s.disp } = s.poolRead c.toNat 64)
      ∧ (s.dispReached n q at_ = false → exec (.layerFetch n c) s = .next s))
    ∧ (s.displayDue n = false → exec (.displayLine n) s = .next s)
    ∧ (∀ q, s.displayDue n = true → (s.disp.get n).frames = [q] → q.spent = false → q.line < q.top n → (s.fcl.safe = true → q.slots = []) →
        q.line + 1 < q.fld F.DEG_VTIMING0.VTOTAL n →
      ∃ t, exec (.displayLine n) s = .next t ∧ t.out = s.out ∧ (∃ p, (t.disp.get n).frames = [p] ∧ p.line = q.line + 1 ∧ p.fetch = q.fetch))
    ∧ (∀ q, s.fcl.safe = false → s.displayDue n = true → (s.disp.get n).frames = [q] → q.spent = false → q.slots = [] →
        q.top n ≤ q.line → q.line - q.top n < q.fld F.DEG_VTIMING0.VACT n → q.fetch ≠ q.line - q.top n → q.line + 1 < q.fld F.DEG_VTIMING0.VTOTAL n →
        (q.ok = false → ∃ t, exec (.displayLine n) s = .next t ∧ t.out = s.out)
        ∧ (q.ok = true → s.clockUp (33 + n) = true → q.srcs = [] →
          ∃ t, exec (.displayLine n) s = .next t ∧ t.out = s.out ++ [.row n q.frame (q.line - q.top n)
              (encodeRow (q.fld F.DEG_PORT_CTRL.FORMAT n) (q.compose n (q.line - q.top n))) (s.flag F.DEG_PORT_CTRL.E2E_EN n)]
            ∧ t.pool = s.pool ∧ t.prd = s.prd))

/-- R143, R145, R433, R434: the lines that the host writes. A header or data that breaks the lengths, or that comes in the safe state, is
discarded; data without a header sets HOST_ERR; data in order joins the line, and its seal. -/
def Obligations.HostWritesLinesThroughItsAperture : Prop :=
  ∀ (s : State) (n : Fin 4) (b : List Byte),
    ((b.length ≠ 16 ∨ s.fcl.safe = true) →
      ∃ t, exec (.hostLineHeader n b) s = .next t ∧ t.fld F.GWL_CNT4.DISCARD = min F.GWL_CNT4.DISCARD.max (s.fld F.GWL_CNT4.DISCARD + 1)
        ∧ SameRegs [⟨.GWL_CNT4, 0, 0⟩] s t ∧ { t with regs := s.regs } = s)
    ∧ (s.fcl.safe = false → b.length = 16 → (s.disp.get n).host = none → leAt b 6 1 ≤ 3 → s.fld F.DEG_LAYER_CFG.SRC n (leAt b 6 1) = 1 →
        leAt b 4 2 < s.fld F.DEG_LAYER_SIZE.H n (leAt b 6 1) → leAt b 8 4 = 4 * s.fld F.DEG_LAYER_SIZE.W n (leAt b 6 1) →
      ∃ t h, exec (.hostLineHeader n b) s = .next t ∧ (t.disp.get n).host = some h ∧ h.frame = leAt b 0 4 ∧ h.line = leAt b 4 2
        ∧ h.layer = leAt b 6 1 ∧ h.bytes = leAt b 8 4 ∧ h.data = []
        ∧ t.ctxOf unitGwRx n = SealCtx.line (hostHead n (leAt b 6 1) (leAt b 0 4) (leAt b 4 2)) ∧ (t.disp.get n).stalled = (s.disp.get n).stalled ∧ t.regs = s.regs)
    ∧ (s.fcl.safe = false → b.length = 16 → (s.disp.get n).host = none → 3 < leAt b 6 1 →
      ∃ t, exec (.hostLineHeader n b) s = .next t ∧ t.flag F.DEG_PORT_STAT.HOST_ERR n = true ∧ SameRegs [⟨.DEG_PORT_STAT, n, 0⟩] s t
        ∧ { t with regs := s.regs } = s)
    ∧ (∀ o : BitVec 18, s.fcl.safe = false → 4 ≤ b.length → b.length ≤ 4096 → b.length % 4 = 0 → o.toNat % 4 = 0 → o.toNat % 4096 + b.length ≤ 4096 →
        ((s.disp.get n).host = none →
          ∃ t, exec (.hostLineData n o b) s = .next t ∧ t.flag F.DEG_PORT_STAT.HOST_ERR n = true ∧ SameRegs [⟨.DEG_PORT_STAT, n, 0⟩] s t
            ∧ { t with regs := s.regs } = s)
        ∧ (∀ h, (s.disp.get n).host = some h → o.toNat = h.data.length → o.toNat + b.length < h.bytes →
          ∃ t, exec (.hostLineData n o b) s = .next t ∧ (t.disp.get n).host = some { h with data := h.data ++ b }
            ∧ t.ctxOf unitGwRx n = (s.ctxOf unitGwRx n).take b ∧ { t with disp := s.disp, seals := s.seals } = s)
        ∧ (∀ h d l, (s.disp.get n).host = some h → h.dir = some d → s.line d = some l → o.toNat = h.data.length →
            o.toNat + b.length = h.bytes → s.ctxOf unitGwRx n = (SealCtx.line (hostHead n h.layer h.frame h.line)).take h.data →
          ∃ t m, exec (.hostLineData n o b) s = .next t ∧ (t.disp.get n).host = none ∧ t.line d = some m ∧ m.data = h.data ++ b
            ∧ m.published = true ∧ m.sealVal = hostSeal n h.layer h.frame h.line (h.data ++ b) ∧ (∀ x, x ≠ d → t.line x = s.line x)))
    ∧ (∀ o : BitVec 18, (s.fcl.safe = true ∨ b.length < 4 ∨ 4096 < b.length ∨ b.length % 4 ≠ 0 ∨ o.toNat % 4 ≠ 0 ∨ 4096 < o.toNat % 4096 + b.length) →
      ∃ t, exec (.hostLineData n o b) s = .next t ∧ t.fld F.GWL_CNT4.DISCARD = min F.GWL_CNT4.DISCARD.max (s.fld F.GWL_CNT4.DISCARD + 1)
        ∧ SameRegs [⟨.GWL_CNT4, 0, 0⟩] s t ∧ { t with regs := s.regs } = s)

/-- R437, R446, R447, R449, R530: tell-tale inputs, readbacks, the delivery of proof records, and the re-check of a bank. -/
def Obligations.TellTalesProveAndLog : Prop :=
  ∀ s : State,
    (∀ n : Fin 4, ∃ t, exec (.hostInputTimeout n) s = .next t ∧ { t with mgd := s.mgd } = s ∧ { t.mgd with ins := s.mgd.ins } = s.mgd
      ∧ ∀ k, k < 64 →
        (s.fld F.MGD_TT_CFG.SRC k = 1 → s.fld F.MGD_TT_CFG.PORT k = n.val → s.hostFresh k = false →
          t.mgd.ins.get k = { s.mgd.ins.get k with setAt := none } ∧ t.ttEff k = (s.fld F.MGD_TT_CFG.STALE_STATE k, true))
        ∧ ((s.fld F.MGD_TT_CFG.SRC k ≠ 1 ∨ s.fld F.MGD_TT_CFG.PORT k ≠ n.val ∨ s.hostFresh k = true) → t.mgd.ins.get k = s.mgd.ins.get k))
    ∧ (∀ (n : Fin 4) (k : Fin 32) (v : BitVec 32) q u tt, s.fcl.safe = false → s.rbFrame n k = some (q, u) →
        q.tts.filter (fun x => u.mem.any (· == x.tt)) = [tt] →
        (v.toNat = u.plain → s.mgd.buf.length < 4096 →
          ∃ t r, exec (.readback n k (some v)) s = .next t ∧ t.mgd.buf = s.mgd.buf ++ [r] ∧ r.fail = false
            ∧ t.fld F.MGD_TT_CNT1.RB_FAIL tt.tt = s.fld F.MGD_TT_CNT1.RB_FAIL tt.tt ∧ t.fld F.MGD_TT_STAT.CONSEC tt.tt = s.fld F.MGD_TT_STAT.CONSEC tt.tt)
        ∧ (v.toNat ≠ u.plain →
          ∃ (w : State) (r : ProofRec), exec (.readback n k (some v)) s = .next ((w.proofFails n q u tt.tt 0x41 2 v.toNat).pushProof r)
            ∧ r.fail = true ∧ w.fld F.MGD_TT_CNT1.RB_FAIL tt.tt = min F.MGD_TT_CNT1.RB_FAIL.max (s.fld F.MGD_TT_CNT1.RB_FAIL tt.tt + 1)))
    ∧ ((s.mgd.log = none ∨ s.mgd.buf = [] ∨ s.fcl.safe = true) → exec .proofLogDelivery s = .next s)
    ∧ (∀ l, s.mgd.log = some l → s.fcl.safe = false →
        let m := min (min 32 s.mgd.buf.length) (2 ^ l.k - subMod (2 ^ 32) l.pi (s.rd .MGD_LOG_CI))
        let w := s.writeEach { kind := .proof } 0 0 (logWrites l (s.mgd.buf.take m))
        m ≠ 0 →
        (w.2 = true → ∃ t, exec .proofLogDelivery s = .next t ∧ t.mgd.buf = s.mgd.buf.drop m
            ∧ t.mgd.log = some { l with pi := (l.pi + m) % 2 ^ 32 } ∧ t.gwl = w.1.gwl ∧ t.out = s.out)
        ∧ (w.2 = false → ∃ u : State, exec .proofLogDelivery s = .next (u.mgdEvent 0x42 4 0 0 0) ∧ u.mgd.log = none ∧ u.mgd.buf = s.mgd.buf
            ∧ u.flag F.MGD_LOG_STAT.WIN_OFF = true ∧ u.flag F.MGD_LOG_STAT.EN = false))
    ∧ (∀ b : Fin 2, exec (.bankRecheck b true) s = .next s
        ∧ (s.flag F.MGD_BANK_STAT.VALID b = true → exec (.bankRecheck b false) s = .next (s.raise 32 b)))

/-- R437, R451, R454: Marigold's commands, which HOST_DOMAIN or domain 0 sends, and the end of a store's checks. `v` is the state in which
Marigold has taken the descriptor up. -/
def Obligations.MarigoldCommandsSetLoadAndLog : Prop :=
  ∀ (s : State) (d : Fin 64) (r : Fin 4096) (i : BitVec 32) (x : Started),
    let g := ringG d r
    let v := s.takeCmd g i.toNat
    (s.startedCmd g i.toNat 0x30 = some x →
        (d.val ≠ s.fld F.MGD_CTRL.HOST_DOMAIN → exec (.mgdSet d r i) s = .next (v.finishCmd g i.toNat x.bytes 0x32))
        ∧ (d.val = s.fld F.MGD_CTRL.HOST_DOMAIN →
          ∃ (u : State) (n : Nat), exec (.mgdSet d r i) s = .next (u.finishCmd g i.toNat x.bytes 0 n) ∧ { u with mgd := v.mgd } = v
            ∧ ∀ t, t < 64 →
              (bit (leAt x.bytes 8 8) t = true → s.fld F.MGD_TT_CFG.SRC t = 1 → u.mgd.ins.get t = { s.mgd.ins.get t with
                hostVal := bits (leAt x.bytes 16 16) (2 * t + 1) (2 * t), setAt := some (s.ras.get (s.portRaster (s.fld F.MGD_TT_CFG.PORT t))).frame })
              ∧ ((bit (leAt x.bytes 8 8) t = false ∨ s.fld F.MGD_TT_CFG.SRC t ≠ 1) → u.mgd.ins.get t = s.mgd.ins.get t)))
    ∧ (s.startedCmd g i.toNat 0x31 = some x → cfld x.bytes 20 31 1 = 0 → leAt x.bytes 24 8 = 0 →
        let bank := cfld x.bytes 20 0 0
        ((v.bankNamed bank = true ∨ s.flag F.MGD_BANK_STAT.LOADING bank = true) →
          exec (.mgdLoad d r i) s = .next (v.finishCmd g i.toNat x.bytes 0x42))
        ∧ (∀ a, v.bankNamed bank = false → s.flag F.MGD_BANK_STAT.LOADING bank = false → 8192 ≤ leAt x.bytes 16 4 →
            leAt x.bytes 16 4 ≤ 8192 + 262144 →
            v.readHost { kind := .asset, ring := g, idx := bank } 0 (v.ring g).cls (leAt x.bytes 8 8) (leAt x.bytes 16 4) = some a →
          ∃ t, exec (.mgdLoad d r i) s = .next t ∧ t.flag F.MGD_BANK_STAT.LOADING bank = true ∧ t.flag F.MGD_BANK_STAT.VALID bank = false
            ∧ t.mgd.loads.get bank = some { ring := g, idx := i.toNat, cmd := x.bytes } ∧ t.gwl = a.gwl))
    ∧ (s.startedCmd g i.toNat 0x32 = some x → cfld x.bytes 24 30 4 = 0 → leAt x.bytes 28 4 = 0 →
        (bit (leAt x.bytes 24 4) 31 = false →
          ∃ u : State, exec (.mgdLog d r i) s = .next (u.finishCmd g i.toNat x.bytes 0) ∧ u.mgd.log = none ∧ u.flag F.MGD_LOG_STAT.EN = false
            ∧ u.mgd.buf = s.mgd.buf)
        ∧ (bit (leAt x.bytes 24 4) 31 = true → leAt x.bytes 8 8 % 32 = 0 → leAt x.bytes 16 8 % 8 = 0 →
          ∃ u : State, exec (.mgdLog d r i) s = .next (u.finishCmd g i.toNat x.bytes 0) ∧ u.flag F.MGD_LOG_STAT.EN = true
            ∧ u.mgd.log = some { base := leAt x.bytes 8 8, piAddr := leAt x.bytes 16 8, k := cfld x.bytes 24 3 0 + 4 } ∧ u.mgd.buf = s.mgd.buf))
    ∧ (∀ l e sig, s.mgd.loads.get 0 = some l → l.got = some (some e) →
        let u := (s.modMgd (fun m => { m with loads := m.loads.set 0 none })).setFlag F.MGD_BANK_STAT.LOADING false 0
        (u.envCheck 3 e sig ≠ 0 → exec (.assetLoadDone sig) s = .next (u.finishCmd l.ring l.idx l.cmd 0x40))
        ∧ (u.envCheck 3 e sig = 0 → storeForm (envPayload e) = true → storeRefs (envPayload e) = true →
          exec (.assetLoadDone sig) s = .next ((u.setBank 0 e).finishCmd l.ring l.idx l.cmd 0) ∧ (u.setBank 0 e).flag F.MGD_BANK_STAT.VALID 0 = true)
        ∧ (u.envCheck 3 e sig = 0 → storeForm (envPayload e) = false →
          exec (.assetLoadDone sig) s = .next (u.finishCmd l.ring l.idx l.cmd 0x41)))

/-! Sensor bridge. -/

/-- R469, R470, R474, R475, R476, R484: a CAN channel's error states and its frames, a message taken by the first filter that matches,
a filter that becomes stale. The steps of the error counts are the model's (PRESUMED, log entry 23). -/
def Obligations.CanChannelsCountSendAndReceive : Prop :=
  ∀ (s : State) (c : Fin 4),
    (s.canOn c = true →
      ∃ u : State, exec (.canBusOff c) s = .next ((u.event s.sigDomain 0x64 c 2 0 0).raise 33 c) ∧ u.fld F.VBR_CAN_STAT.STATE c = 2
        ∧ u.flag F.VBR_CAN_STAT.BUS_OFF c = true ∧ SameRegs [⟨.VBR_CAN_STAT, c, 0⟩] s u ∧ { u with regs := s.regs } = s)
    ∧ (s.fld F.VBR_CAN_STAT.STATE c = 2 → s.fcl.safe = false →
      (s.flag F.VBR_CAN_CTRL.AUTO_REC c = false → exec (.canBusOffRecovery c) s = .next s)
      ∧ ∃ t, exec (.restart c) s = .next t ∧ (s.flag F.VBR_CAN_CTRL.AUTO_REC c = true → exec (.canBusOffRecovery c) s = .next t)
        ∧ t.fld F.VBR_CAN_STAT.STATE c = 0 ∧ t.fld F.VBR_CAN_STAT.REC c = 0 ∧ t.fld F.VBR_CAN_STAT.TEC c = 0
        ∧ t.flag F.VBR_CAN_STAT.BUS_OFF c = s.flag F.VBR_CAN_STAT.BUS_OFF c ∧ SameRegs [⟨.VBR_CAN_STAT, c, 0⟩] s t
        ∧ { t with regs := s.regs } = s)
    ∧ (s.canOn c = true →
      (∃ t, exec (.canBusError c false) s = .next t ∧ t.fld F.VBR_CAN_CNT.ERR c = min F.VBR_CAN_CNT.ERR.max (s.fld F.VBR_CAN_CNT.ERR c + 1)
        ∧ t.fld F.VBR_CAN_STAT.REC c = min 255 (s.fld F.VBR_CAN_STAT.REC c + 1)
        ∧ t.fld F.VBR_CAN_STAT.STATE c = (if 126 < s.fld F.VBR_CAN_STAT.REC c ∨ 127 < s.fld F.VBR_CAN_STAT.TEC c then 1 else 0)
        ∧ SameRegs [⟨.VBR_CAN_STAT, c, 0⟩, ⟨.VBR_CAN_CNT, c, 0⟩] s t ∧ { t with regs := s.regs } = s)
      ∧ (s.fld F.VBR_CAN_STAT.TEC c + 8 ≤ 255 →
        ∃ t, exec (.canBusError c true) s = .next t ∧ t.fld F.VBR_CAN_STAT.TEC c = s.fld F.VBR_CAN_STAT.TEC c + 8
          ∧ t.fld F.VBR_CAN_STAT.STATE c = (if 127 < s.fld F.VBR_CAN_STAT.REC c ∨ 119 < s.fld F.VBR_CAN_STAT.TEC c then 1 else 0)
          ∧ SameRegs [⟨.VBR_CAN_STAT, c, 0⟩, ⟨.VBR_CAN_CNT, c, 0⟩] s t ∧ { t with regs := s.regs } = s))
    ∧ (∀ k : Fin 64, s.flag F.VBR_CTRL.EN = true → s.fcl.safe = false → entEn (s.vbrEntry 2 k) = true →
        (wfld (s.vbrEntry 2 k) 1 15 0 ≠ 0 ∨ (bit (word (s.vbrEntry 2 k) 1) 28 = true ∧ (s.vbr.objs.get k).changed = true)) →
        wfld (s.vbrEntry 2 k) 1 31 30 = c →
      ∃ t, exec (.txObjectDue k) s = .next t ∧ (t.vbr.objs.get k).changed = false
        ∧ (t.vbr.objs.get k).payload = (s.vbr.objs.get k).payload ∧ t.regs = s.regs
        ∧ ((s.flag F.VBR_CAN_CTRL.MON c = true ∨ s.canOn c = false ∨ (bit (word (s.vbrEntry 2 k) 0) 29 = true ∧ s.flag F.VBR_CAN_CTRL.FD_EN c = false)) →
          t.vbr.canQ = s.vbr.canQ)
        ∧ (s.flag F.VBR_CAN_CTRL.MON c = false → s.canOn c = true → (bit (word (s.vbrEntry 2 k) 0) 29 = false ∨ s.flag F.VBR_CAN_CTRL.FD_EN c = true) →
          let n := ((s.vbr.objs.get k).cnt.map (fun n => (n + 1) % 16)).getD 0
          (bit (word (s.vbrEntry 2 k) 1) 21 = true → (t.vbr.objs.get k).cnt = some n)
          ∧ ∃ f : CanFrame, t.vbr.canQ.get c = (s.vbr.canQ.get c).filter (fun g => g.obj != k.val) ++ [f] ∧ f.obj = k.val
            ∧ f.id = wfld (s.vbrEntry 2 k) 0 28 0
            ∧ f.data = s.snapshot (s.vbrEntry 2 k) (s.vbr.objs.get k) n))
    ∧ (s.injIdle → s.canOn c = true → s.flag F.VBR_CAN_CTRL.MON c = false → ∀ f, firstFrame (s.vbr.canQ.get c) = some f →
      (∀ g, g ∈ s.vbr.canQ.get c → f.order ≤ g.order)
      ∧ ∃ u : State, exec (.canFrameTx c) s = .next (u.pmuAdd 0x281 c) ∧ u.out = s.out ++ [.can c f]
        ∧ u.vbr.canQ.get c = (s.vbr.canQ.get c).filter (fun g => g.obj != f.obj)
        ∧ u.fld F.VBR_CAN_STAT.TEC c = s.fld F.VBR_CAN_STAT.TEC c - 1 ∧ SameRegs [⟨.VBR_CAN_STAT, c, 0⟩] s u)
    ∧ (∀ m : CanMsg, s.injIdle → m.rtr = true → exec (.canMessageRx c m) s = .next s)
    ∧ (∀ m : CanMsg, s.injIdle → s.canOn c = true → m.rtr = false → m.fd = false → s.flag F.PMU_CTRL.FREEZE = true → s.fld F.VBR_CAN_STAT.REC c ≤ 127 →
      ∃ t, exec (.canMessageRx c m) s = .next t
        ∧ t.fld F.VBR_CAN_CNT.RX c = min F.VBR_CAN_CNT.RX.max (s.fld F.VBR_CAN_CNT.RX c + 1)
        ∧ t.fld F.VBR_CAN_STAT.REC c = s.fld F.VBR_CAN_STAT.REC c - 1
        ∧ ((s.flag F.VBR_CTRL.EN = false ∨ ∀ f, f < 256 → s.filterHit c m f = false) → t.vbr = s.vbr)
        ∧ (∀ f, s.flag F.VBR_CTRL.EN = true → (List.range 256).find? (s.filterHit c m) = some f → s.mapsOf f = [] →
          (rfE2e (s.vbrEntry 0 f) = false → t.vbr.filt.get f = { s.vbr.filt.get f with started := true, stale := false, ref := some 0 })
          ∧ (∀ r, rfE2e (s.vbrEntry 0 f) = true → s.e2eCheck f m.data = (0, r) →
            t.vbr.filt.get f = { s.vbr.filt.get f with started := true, stale := false, ref := some r })
          ∧ (∀ r, rfE2e (s.vbrEntry 0 f) = true → s.e2eCheck f m.data = (1, r) →
            t.vbr.filt.get f = { s.vbr.filt.get f with reason := 1 }
              ∧ t.fld F.VBR_CNT0.E2E_CRC = min F.VBR_CNT0.E2E_CRC.max (s.fld F.VBR_CNT0.E2E_CRC + 1)))
        ∧ (∀ f i, s.flag F.VBR_CTRL.EN = true → (List.range 256).find? (s.filterHit c m) = some f → s.mapsOf f = [i] →
            rfE2e (s.vbrEntry 0 f) = false → smKind (s.vbrEntry 1 i) = 0 →
            fieldIn (smMoto (s.vbrEntry 1 i)) (smStart (s.vbrEntry 1 i)) (smLen (s.vbrEntry 1 i)) (8 * m.data.length) = true →
            let v := rescale (s.vbrEntry 1 i) (rawField (s.vbrEntry 1 i) m.data)
            smMin (s.vbrEntry 1 i) ≤ v → v ≤ smMax (s.vbrEntry 1 i) →
          t.mgd.ins.get (smTgt (s.vbrEntry 1 i)) = { s.mgd.ins.get (smTgt (s.vbrEntry 1 i)) with val := v.toNat, valid := true }))
    ∧ (∀ f : Fin 256, s.flag F.VBR_CTRL.EN = true → s.fcl.safe = false → entEn (s.vbrEntry 0 f) = true → rfStaleMs (s.vbrEntry 0 f) ≠ 0 →
        (s.vbr.filt.get f).started = true → (s.vbr.filt.get f).stale = false → s.mapsOf f = [] →
      ∃ u : State, exec (.filterStale f) s
          = .next ((u.event s.sigDomain 0x63 (rfCh (s.vbrEntry 0 f)) f (s.vbr.filt.get f).reason 0).raise 34 f)
        ∧ u.vbr.filt.get f = { s.vbr.filt.get f with stale := true, ref := none }
        ∧ u.fld F.VBR_CNT1.STALE_ENTRY = min F.VBR_CNT1.STALE_ENTRY.max (s.fld F.VBR_CNT1.STALE_ENTRY + 1)
        ∧ SameRegs [⟨.VBR_CNT1, 0, 0⟩] s u ∧ u.out = s.out ∧ u.mgd = s.mgd)

/-- R487, R488, R490, R491, R492, R493: reads and writes of a remote window, the transfers they queue, and the end of each. A port without
queued transfers is told by `jobs = []`. -/
def Obligations.RemoteWindowsReadThroughOpenEntries : Prop :=
  ∀ (s : State) (x : HostTxn),
    let a := x.addr.toNat
    let n := x.len.toNat
    let p := (s.remoteAt a).1
    let k := (s.remoteAt a).2.1
    let r := (s.remoteAt a).2.2
    let dev := s.fld F.VBR_RSLOT.DEV p k
    (inRemote a = true →
      ((s.reachRemote x.dom.toNat p = false ∨ s.fcl.safe = true) →
        exec (.remoteRead x) s = .next (s.answer x 3 [])
        ∧ ∃ t, exec (.remoteWrite x) s = .next t ∧ t.fld F.GWL_CNT4.DISCARD = min F.GWL_CNT4.DISCARD.max (s.fld F.GWL_CNT4.DISCARD + 1)
          ∧ SameRegs [⟨.GWL_CNT4, 0, 0⟩] s t ∧ { t with regs := s.regs } = s)
      ∧ (s.reachRemote x.dom.toNat p = true → s.fcl.safe = false → s.remoteOk a n = false →
        exec (.remoteRead x) s = .next (s.answer x 2 [])
        ∧ ∃ t, exec (.remoteWrite x) s = .next t ∧ t.fld F.GWL_CNT4.DISCARD = min F.GWL_CNT4.DISCARD.max (s.fld F.GWL_CNT4.DISCARD + 1)
          ∧ SameRegs [⟨.GWL_CNT4, 0, 0⟩] s t ∧ { t with regs := s.regs } = s)
      ∧ (s.reachRemote x.dom.toNat p = true → s.fcl.safe = false → s.remoteOk a n = true → s.vbr.prefetchAll p dev r n = false →
        (∀ i e, s.vbr.reads.keys.find? (fun i => match s.vbr.reads.get i with
            | some e => e.dom == x.dom.toNat && e.addr == a && e.len == n && !e.orphan
            | none => false) = some i → s.vbr.reads.get i = some e →
          (e.st = .pending → exec (.remoteRead x) s = .next (s.retry x p))
          ∧ (e.st = .done → ∃ u : State, exec (.remoteRead x) s = .next (u.answer x 0 (bytesAt e.data (e.reg - e.first) n) (some e))
              ∧ u.vbr.reads.get i = none ∧ (∀ j, j ≠ i → u.vbr.reads.get j = s.vbr.reads.get j) ∧ u.regs = s.regs)
          ∧ (∀ c, e.st = .failed c → ∃ u : State, exec (.remoteRead x) s = .next (u.answer x 4 [] (some e)) ∧ u.vbr.reads.get i = none
              ∧ u.regs = s.regs))
        ∧ (s.vbr.reads.keys = [] → s.tunUp p = false → exec (.remoteRead x) s = .next (s.answer x 4 []))
        ∧ (s.vbr.reads.keys = [] → s.tunUp p = true → s.injIdle →
          ∃ (u : State) (e : OpenRead) (j : TunJob), exec (.remoteRead x) s = .next (u.retry x p) ∧ u.vbr.reads.get 0 = some e ∧ e.st = .pending
            ∧ e.dom = x.dom.toNat ∧ e.addr = a ∧ e.len = n ∧ (u.vbr.tun.get p).jobs = (s.vbr.tun.get p).jobs ++ [j] ∧ j.use = .read 0
            ∧ j.wr = false ∧ j.dev = dev ∧ j.reg = r ∧ j.len = n ∧ u.regs = s.regs))
      ∧ (s.reachRemote x.dom.toNat p = true → s.fcl.safe = false → s.remoteOk a n = true → s.tunUp p = true → s.injIdle →
          (s.vbr.tun.get p).writes + (s.vbr.tun.get p).held.length < 16 →
        ∃ t, exec (.remoteWrite x) s = .next t ∧ (t.vbr.tun.get p).jobs = (s.vbr.tun.get p).jobs ++
            [{ use := .write x.dom.toNat x.tag.toNat, wr := true, reg16 := s.flag F.VBR_RSLOT.REG16 p k, dev := dev, reg := r, len := n
               data := padTo n x.data }] ∧ t.regs = s.regs))
    ∧ (∀ (q : Fin 32) (b : List Byte) (i : Nat) (e : OpenRead) (j : TunJob) (rest : List TunJob), (s.vbr.tun.get q).jobs = j :: rest →
        (s.vbr.tun.get q).held = [] → j.use = .read i → j.wr = false → j.mask = 0 → s.vbr.reads.get i = some e → e.orphan = false → e.pf = false →
        s.flag F.PMU_CTRL.FREEZE = true →
      (∃ t f, exec (.tunnelXferDone q (some b) 0) s = .next t ∧ (t.vbr.tun.get q).jobs = rest ∧ t.vbr.reads.get i = some f ∧ f.st = .done
        ∧ f.data = padTo j.len b ∧ t.regs = s.regs ∧ (∀ y, y ≠ i → t.vbr.reads.get y = s.vbr.reads.get y)))
    ∧ (∀ (q : Fin 32) (d tag : Nat) (j : TunJob) (rest : List TunJob), (s.vbr.tun.get q).jobs = j :: rest → (s.vbr.tun.get q).held = [] →
        j.use = .write d tag →
      ∃ u : State, exec (.tunnelXferTimeout q) s = .next ((((u.pmuAdd 0x285 q).raise 35 q).lupSubmit 0x30 0 0 (xferArg q j.dev j.len)
            (j.reg <<< 16 + 2)).writeLate q j d tag 2)
        ∧ exec (.tunnelXferDone q none 2) s = exec (.tunnelXferTimeout q) s ∧ (u.vbr.tun.get q).jobs = rest ∧ u.regs = s.regs)
    ∧ (∀ (i : Fin 64) (e : OpenRead), s.vbr.reads.get i = some e →
        (e.st = .pending → exec (.openReadExpiry i) s = .next s)
        ∧ (e.st = .done → e.pf = true → ∃ t, exec (.openReadExpiry i) s = .next t ∧ t.vbr.reads.get i = none
            ∧ t.fld F.VBR_CNT2.PF_DROP = min F.VBR_CNT2.PF_DROP.max (s.fld F.VBR_CNT2.PF_DROP + 1) ∧ SameRegs [⟨.VBR_CNT2, 0, 0⟩] s t
            ∧ t.vbr.park = s.vbr.park)
        ∧ (e.st = .done → e.pf = false → ∃ u : State, exec (.openReadExpiry i) s = .next (u.parkRead e) ∧ u.vbr.reads.get i = none
            ∧ (∀ y, y ≠ i.val → u.vbr.reads.get y = s.vbr.reads.get y) ∧ { u with vbr := s.vbr } = s))
    ∧ (∀ (q : Fin 28) (y : Fin 4), ∃ t, exec (.cacheLineExpiry q y) s = .next t ∧ t.vbr.cache.get (4 * q + y) = none
        ∧ (∀ z, z ≠ 4 * q.val + y → t.vbr.cache.get z = s.vbr.cache.get z) ∧ { t with vbr := s.vbr } = s)
    ∧ (∀ y : Fin 32, ∃ t, exec (.parkRecordFree y) s = .next t ∧ t.vbr.park.get y = none
        ∧ (∀ z, z ≠ y.val → t.vbr.park.get z = s.vbr.park.get z) ∧ { t with vbr := s.vbr } = s)

/-- R472, R485, R486, R494, R507: the commands of the bridge, its latest-value table, and the copy of an entry. `v` is the state in which the
bridge has taken the descriptor up. -/
def Obligations.BridgeCommandsAndValueTable : Prop :=
  ∀ s : State,
    (∀ (d : Fin 64) (r : Fin 4096) (i : BitVec 32) (x : Started),
      let g := ringG d r
      let v := s.takeCmd g i.toNat
      let b := x.bytes
      (s.startedCmd g i.toNat 0x40 = some x →
        (d.val ≠ 0 → exec (.vbrLoad d r i) s = .next (v.finishCmd g i.toNat b 0x32))
        ∧ (d.val = 0 → (vbrSize (vlTable b)).1 < vlFirst b + vlCount b → exec (.vbrLoad d r i) s = .next (v.finishCmd g i.toNat b 0x48))
        ∧ (∀ u, d.val = 0 → cfld b 16 15 13 = 0 → leAt b 20 12 = 0 → 1 ≤ vlCount b → vlCount b ≤ 1792 →
            vlFirst b + vlCount b ≤ (vbrSize (vlTable b)).1 → leAt b 8 8 % 8 = 0 →
            v.readHost { kind := .cmdRead, ring := g, idx := i.toNat } d (v.ring g).cls (leAt b 8 8) (vlCount b * (vbrSize (vlTable b)).2) = some u →
          exec (.vbrLoad d r i) s = .next u ∧ u.vbr = s.vbr))
      ∧ (s.startedCmd g i.toNat 0x41 = some x → s.fcl.safe = false → cfld b 16 17 16 = 0 → cfld b 20 31 7 = 0 → leAt b 24 8 = 0 →
          1 ≤ vxLen b → vxLen b ≤ 64 →
        (d.val ≠ 0 → (28 ≤ vxPort b ∨ bit (s.dom d).remote (vxPort b) = false) →
          exec (.vbrXfer d r i) s = .next (v.finishCmd g i.toNat b 0x32))
        ∧ ((d.val = 0 ∨ (vxPort b < 28 ∧ bit (s.dom d).remote (vxPort b) = true)) →
          (vxWr b = false → s.injIdle → s.tunUp (vxPort b) = true →
            ∃ t, exec (.vbrXfer d r i) s = .next t ∧ (t.vbr.tun.get (vxPort b)).jobs = (s.vbr.tun.get (vxPort b)).jobs ++ [vxJob g i.toNat b []]
              ∧ t.regs = s.regs)
          ∧ (vxWr b = false → s.injIdle → s.tunUp (vxPort b) = false →
            exec (.vbrXfer d r i) s = .next (v.xferEnd (vxPort b) (vxJob g i.toNat b []) (.error 3)))
          ∧ (∀ u, vxWr b = true → v.readHost { kind := .cmdRead, ring := g, idx := i.toNat } d (v.ring g).cls (leAt b 8 8) (vxLen b) = some u →
            exec (.vbrXfer d r i) s = .next u))))
    ∧ (∀ k : Fin 256, let b := s.vbrEntry 3 k
        s.flag F.VBR_CTRL.EN = true → entEn b = true → lvPoll b = true → s.fcl.safe = false → s.injIdle → s.tunUp (lvPort b) = true →
      ∃ t, exec (.lvtPoll k) s = .next t ∧ (t.vbr.tun.get (lvPort b)).jobs = (s.vbr.tun.get (lvPort b)).jobs ++
          [{ use := .poll k, reg16 := lvReg16 b, dev := lvDev b, reg := lvReg b, len := lvRegs b }] ∧ t.regs = s.regs)
    ∧ ((s.vbr.lvtDue = false ∨ s.flag F.VBR_CTRL.EN = false ∨ s.flag F.VBR_LVT_CTRL.EN = false ∨ s.fcl.safe = true) → exec .lvtTick s = .next s)
    ∧ (s.vbr.lvtDue = true → s.flag F.VBR_CTRL.EN = true → s.flag F.VBR_LVT_CTRL.EN = true → s.fcl.safe = false → (∀ i, i < 256 → (s.vbr.lvt.get i).fresh = false) →
        let base := s.rd .VBR_LVT_BASE_HI * 2 ^ 32 + s.fld F.VBR_LVT_BASE_LO.BASE_LO * 4096
        let w := (s.writeHost { kind := .lvt } s.sigDomain 0 (base + 0x1000 * (s.vbr.gen % 2)) ((List.range 256).flatMap s.lvtBytes) false).bind
          (fun s => s.writeHost { kind := .lvt } s.sigDomain 0 (base + 0x2000) (leBytes 8 s.vbr.gen) false)
        (∀ u, w = some u → ∃ t, exec .lvtTick s = .next t ∧ t.vbr = { u.vbr with gen := (s.vbr.gen + 1) % 2 ^ 64, lvtDue := false } ∧ t.gwl = u.gwl ∧ t.regs = u.regs)
        ∧ (w = none → ∃ t, exec .lvtTick s = .next t ∧ t.flag F.VBR_LVT_CTRL.EN = false ∧ t.flag F.VBR_STAT.LVT_OFF = true ∧ t.vbr.gen = s.vbr.gen))
    ∧ (∀ w : BitVec 32, let tb := bits w.toNat 14 12
        let e := bits w.toNat 11 0
        (bit w.toNat 31 = false → ∃ t, exec (.tableRead w) s = .next t ∧ t.fld F.VBR_TBL_ACC.TABLE = tb ∧ t.fld F.VBR_TBL_ACC.INDEX = e
          ∧ SameRegs [⟨.VBR_TBL_ACC, 0, 0⟩] s t ∧ { t with regs := s.regs } = s)
        ∧ (bit w.toNat 31 = true → e < (vbrSize tb).1 → ∃ t, exec (.tableRead w) s = .next t ∧ { t with regs := s.regs } = s
          ∧ t.fld F.VBR_TBL_ACC.TABLE = tb ∧ t.fld F.VBR_TBL_ACC.INDEX = e
          ∧ (∀ k, k < 8 → t.rd .VBR_TBL_DATA k = leAt (padTo 32 (s.vbrEntry tb e)) (4 * k) 4)
          ∧ SameRegs (⟨.VBR_TBL_ACC, 0, 0⟩ :: (List.range 8).map (fun k => ⟨.VBR_TBL_DATA, k, 0⟩)) s t))

/-! Board bus. -/

/-- R510 to R518: the commands of SMB[0]. A code that answers in standby acts in every power state, the others only while SYS runs; `m` is the
state with the message counted, `e` the state with an error counted. -/
def Obligations.BoardControllerCommandsAnswer : Prop :=
  ∀ s : State,
    let m := s.count F.SMB0_CNT.MSG
    let e := s.count F.SMB0_CNT.ERR
    (m.fld F.SMB0_CNT.MSG = min 65535 (s.fld F.SMB0_CNT.MSG + 1) ∧ e.fld F.SMB0_CNT.ERR = min 65535 (s.fld F.SMB0_CNT.ERR + 1)
      ∧ SameRegs [⟨.SMB0_CNT, 0, 0⟩] s m ∧ SameRegs [⟨.SMB0_CNT, 0, 0⟩] s e ∧ { m with regs := s.regs } = s ∧ { e with regs := s.regs } = s)
    ∧ exec .status s = .next { m with out := s.out ++ [.smb s.smbStatus] }
    ∧ s.smbStatus.length = 4 ∧ (s.sec.pwrGood = false → s.smbStatus.head? = some 0)
    ∧ (s.sec.pwrGood = true → s.fcl.safe = true → s.smbStatus.head? = some 4)
    ∧ exec .deviceId s = .next { m with out := s.out ++ [.smb [0x11, 0x48, 0x0B, 0xDA]] }
    ∧ (s.sec.pwrGood = true → exec .powerCtrlWake s = .next m)
    ∧ (s.sec.pwrGood = false → s.sec.pwrEn = false →
      exec .powerCtrlWake s = .next (({ m with sec := { s.sec with pwrEn := true } } : State).alert 3))
    ∧ (s.fcl.safe = true → ∃ t, exec .powerCtrlStandby s = .next t ∧ t.flag F.SMB0_STAT.STBY_REF = true ∧ t.sec = s.sec
        ∧ SameRegs [⟨.SMB0_CNT, 0, 0⟩, ⟨.SMB0_STAT, 0, 0⟩] s t ∧ { t with regs := s.regs } = s)
    ∧ (s.fcl.safe = false → s.sysRuns = true → exec .powerCtrlStandby s = .next { m with sec := { s.sec with standby := true } })
    ∧ (s.sysRuns = false → ∀ (o : BitVec 32) (l : BitVec 8) (b : List Byte) (i : BitVec 16),
      ∃ t, exec .temp s = .next t ∧ exec .faults s = .next t ∧ exec (.regPtr o l) s = .next t ∧ exec .regRead s = .next t
        ∧ (s.noHeld → exec (.regWrite o b) s = .next t) ∧ exec (.lupPtr i) s = .next t ∧ (∀ c, exec (.lupRead c) s = .next t)
        ∧ t.flag F.SMB0_STAT.CMD_NACK = true ∧ t.fld F.SMB0_CNT.ERR = e.fld F.SMB0_CNT.ERR
        ∧ SameRegs [⟨.SMB0_CNT, 0, 0⟩, ⟨.SMB0_STAT, 0, 0⟩] s t ∧ { t with regs := s.regs } = s)
    ∧ (s.sysRuns = true →
      exec .temp s = .next { m with out := s.out ++ [.smb ((List.range 12).flatMap (fun i => leBytes 2 (s.fld F.EGV_TEMP.TEMP i)))] }
      ∧ (∃ u : State, u = m.settleMonitors ∧ exec .faults s = .next { u with out := u.out ++ [.smb (leBytes 4 (u.rd .FCL_STATUS_LO)
          ++ leBytes 4 (u.rd .FCL_STATUS_HI) ++ leBytes 4 (u.liveWord false) ++ leBytes 4 (u.liveWord true))] })
      ∧ (∀ (o : BitVec 32) (l : BitVec 8),
        (o.toNat % 4 = 0 → l.toNat % 4 = 0 → 4 ≤ l.toNat → l.toNat ≤ 252 →
          exec (.regPtr o l) s = .next { m with smb := { s.smb with ptr := some (o.toNat, l.toNat) } })
        ∧ ((o.toNat % 4 ≠ 0 ∨ l.toNat % 4 ≠ 0 ∨ l.toNat < 4 ∨ 252 < l.toNat) → exec (.regPtr o l) s = .next e))
      ∧ (s.smb.ptr = none → ∃ t, exec .regRead s = .next t ∧ t.flag F.SMB0_STAT.ACC_ERR = true ∧ t.out = s.out ++ [.smb [0]]
        ∧ SameRegs [⟨.SMB0_STAT, 0, 0⟩] s t ∧ { t with regs := s.regs, out := s.out } = s)
      ∧ (∀ o, s.smb.ptr = some (o, 4) →
        (∀ r, smbExcluded o = false → bufAt o = none → m.readWord o = some r →
          exec .regRead s = .next { r.2 with smb := { r.2.smb with ptr := some ((o + 4) % 2 ^ 32, 4) }
                                             out := r.2.out ++ [.smb (leBytes 1 4 ++ leBytes 4 r.1)] })
        ∧ (smbExcluded o = true → ∃ t, exec .regRead s = .next t ∧ t.flag F.SMB0_STAT.ACC_ERR = true
          ∧ t.out = s.out ++ [.smb [4, 0xFF, 0xFF, 0xFF, 0xFF]] ∧ t.smb.ptr = some ((o + 4) % 2 ^ 32, 4)
          ∧ SameRegs [⟨.SMB0_CNT, 0, 0⟩, ⟨.SMB0_STAT, 0, 0⟩] s t))
      ∧ (∀ (o : BitVec 32) (a : BitVec 26) (b : List Byte), b.length = 4 → a.toNat = o.toNat →
        (o.toNat % 4 = 0 → smbExcluded o.toNat = false → bufAt o.toNat = none → findReg o.toNat ≠ none →
          ∃ u : State, exec (.regWrite o b) s = .next (u.count F.SMB0_CNT.MSG).releaseDisarmed
            ∧ exec (.registerWrite .smb0 a (BitVec.ofNat 32 (leAt b 0 4))) s = .next u.releaseDisarmed)
        ∧ (s.noHeld → (o.toNat % 4 ≠ 0 ∨ smbExcluded o.toNat = true) → ∃ t, exec (.regWrite o b) s = .next t ∧ t.flag F.SMB0_STAT.ACC_ERR = true
          ∧ t.fld F.SMB0_CNT.ERR = e.fld F.SMB0_CNT.ERR ∧ SameRegs [⟨.SMB0_CNT, 0, 0⟩, ⟨.SMB0_STAT, 0, 0⟩] s t ∧ { t with regs := s.regs } = s))
      ∧ (∀ i : BitVec 16, (i.toNat ≤ 4095 → exec (.lupPtr i) s = .next { m with smb := { s.smb with lupPtr := i.toNat } })
        ∧ (4095 < i.toNat → exec (.lupPtr i) s = .next e))
      ∧ (∀ c, exec (.lupRead c) s = .next { m.addTo F.LUP_CNT.CORR c.toNat with out := s.out ++
          [.smb (leBytes 1 224 ++ (List.range 7).flatMap (fun k => s.lupSlot ((s.smb.lupPtr + k) % 4096)))] }))
    ∧ (∃ t, exec .alertStatus s = .next t ∧ t.out = s.out ++ [.smb (leBytes 1 (s.rd .SMB0_ALERT))] ∧ t.rd .SMB0_ALERT = b2n s.fcl.safe
        ∧ SameRegs [⟨.SMB0_CNT, 0, 0⟩, ⟨.SMB0_ALERT, 0, 0⟩] s t ∧ { t with regs := s.regs, out := s.out } = s)
    ∧ (∀ k : BitVec 8, ∃ t, exec (.alertClear k) s = .next t ∧ (s.fcl.safe = true → bit (t.rd .SMB0_ALERT) 0 = true)
        ∧ (∀ i, i < 8 → (i ≠ 0 ∨ s.fcl.safe = false) → bit (t.rd .SMB0_ALERT) i = (bit (s.rd .SMB0_ALERT) i && !bit k.toNat i))
        ∧ SameRegs [⟨.SMB0_CNT, 0, 0⟩, ⟨.SMB0_ALERT, 0, 0⟩] s t ∧ { t with regs := s.regs } = s)
    ∧ exec .quickCommand s = .next s
    ∧ (s.flag F.SMB0_STAT.ALERT = true → exec (.alertResponse false) s = .next s
        ∧ ∃ t, exec (.alertResponse true) s = .next t ∧ t.flag F.SMB0_STAT.ALERT = false ∧ t.flag F.SMB0_STAT.ARA_WON = true
          ∧ t.rd .SMB0_ALERT = s.rd .SMB0_ALERT ∧ t.out = s.out ++ [.smb (leBytes 1 (2 * (0x58 + s.sec.smbAddr)))]
          ∧ SameRegs [⟨.SMB0_STAT, 0, 0⟩] s t ∧ { t with regs := s.regs, out := s.out } = s)
    ∧ (s.flag F.SMB0_CTRL.TMO_EN = false → exec .smb0Timeout s = .next s)
    ∧ (s.flag F.SMB0_CTRL.TMO_EN = true → ∃ t, exec .smb0Timeout s = .next t ∧ t.flag F.SMB0_STAT.TIMEOUT = true
        ∧ t.fld F.SMB0_CNT.ERR = e.fld F.SMB0_CNT.ERR ∧ SameRegs [⟨.SMB0_CNT, 0, 0⟩, ⟨.SMB0_STAT, 0, 0⟩] s t ∧ { t with regs := s.regs } = s)
    ∧ (∀ x, x ∈ [(SmbError.proto, F.SMB0_STAT.PROTO), (.rsAck, F.SMB0_STAT.RS_ACK), (.short, F.SMB0_STAT.SHORT), (.pec, F.SMB0_STAT.PEC_ERR),
          (.cmdNack, F.SMB0_STAT.CMD_NACK)] → (x.1 = .pec → s.fld F.SMB0_CTRL.PEC_MODE ≠ 0) →
        ∃ t, exec (.smb0ProtocolError x.1) s = .next t ∧ t.flag x.2 = true ∧ t.fld F.SMB0_CNT.ERR = e.fld F.SMB0_CNT.ERR
          ∧ SameRegs [⟨.SMB0_CNT, 0, 0⟩, ⟨.SMB0_STAT, 0, 0⟩] s t ∧ { t with regs := s.regs } = s)
    ∧ (∃ t, exec (.smb0ProtocolError .overread) s = .next t ∧ t.flag F.SMB0_STAT.OVERREAD = true ∧ SameRegs [⟨.SMB0_STAT, 0, 0⟩] s t
        ∧ { t with regs := s.regs } = s)

/-- R520, R521, R526, R527, R528: the transfers of SMB[1]. A lost attempt is repeated up to RETRY times; a failed transfer sets alert cause 5
and raises the fault source. -/
def Obligations.PowerBusTransfersRetryAndEnd : Prop :=
  ∀ s : State,
    (s.flag F.SMB1_CTRL.EN = true → s.smb.job = none → s.smb.fwWait = 0 → s.smb.regWait = false →
      (s.flag F.SMB1_STAT.BUSY = true → exec (.smb1Transfer false) s = .next s)
      ∧ (s.flag F.SMB1_STAT.BUSY = false → ∃ t, exec (.smb1Transfer false) s = .next t ∧ t.flag F.SMB1_STAT.BUSY = true
        ∧ t.smb.job = some { attempts := 1 } ∧ SameRegs [⟨.SMB1_STAT, 0, 0⟩] s t ∧ { t with regs := s.regs, smb := s.smb } = s)
      ∧ exec (.smb1Transfer true) s = .next { s with smb := { s.smb with job := some { firmware := true, attempts := 1 } } })
    ∧ (∀ j, s.smb.job = some j → s.smb.lost = true → exec .smb1Retry s
        = .next { s with smb := { s.smb with job := some { j with attempts := j.attempts + 1 }, lost := false } })
    ∧ (∀ (j : Smb1Job) (b : List Byte), s.smb.job = some j → s.smb.lost = false → j.firmware = false → s.smb.fwWait = 0 → s.smb.regWait = false →
      (s.flag F.PMU_CTRL.FREEZE = true → s.flag F.SMB1_XFER.DIR = true → s.fld F.SMB1_XFER.LEN = 4 → b.length = 4 → j.attempts < 32 →
        ∃ t, exec (.smb1TransferDone 0 b) s = .next t ∧ t.flag F.SMB1_STAT.DONE = true ∧ t.flag F.SMB1_STAT.BUSY = false
          ∧ t.fld F.SMB1_STAT.RESULT = 0 ∧ t.fld F.SMB1_STAT.ATTEMPTS = j.attempts ∧ t.smb.job = none ∧ t.rd .SMB1_DATA 0 = leAt b 0 4
          ∧ (∀ k, 1 ≤ k → k < 4 → t.rd .SMB1_DATA k = s.rd .SMB1_DATA k % 2 ^ 32) ∧ { t with regs := s.regs, smb := s.smb } = s)
      ∧ (∃ u : State, exec (.smb1TransferDone 1 b) s = .next (((u.alert 5).raise 36 1).smb1Next) ∧ u.fld F.SMB1_STAT.RESULT = 1
          ∧ u.flag F.SMB1_STAT.DONE = true ∧ u.smb.job = none ∧ u.fld F.SMB1_CNT.NACK = min 65535 (s.fld F.SMB1_CNT.NACK + 1)
          ∧ (∀ k, k < 4 → u.rd .SMB1_DATA k = s.rd .SMB1_DATA k))
      ∧ (j.attempts ≤ s.fld F.SMB1_CTRL.RETRY → ∃ t, exec (.smb1TransferDone 2 b) s = .next t ∧ t.smb = { s.smb with lost := true }
          ∧ t.fld F.SMB1_CNT.ARB_LOST = min 65535 (s.fld F.SMB1_CNT.ARB_LOST + 1) ∧ SameRegs [⟨.SMB1_CNT, 0, 0⟩] s t
          ∧ { t with regs := s.regs, smb := s.smb } = s)
      ∧ (s.fld F.SMB1_CTRL.RETRY < j.attempts → ∃ u : State, exec (.smb1TransferDone 2 b) s = .next (((u.alert 5).raise 36 2).smb1Next)
          ∧ u.fld F.SMB1_STAT.RESULT = 2 ∧ u.flag F.SMB1_STAT.DONE = true ∧ u.smb.job = none)
      ∧ (∃ t, exec (.smb1Timeout true true) s = .next t ∧ t.flag F.SMB1_STAT.BUS_CLEAR = true ∧ SameRegs [⟨.SMB1_STAT, 0, 0⟩] s t
          ∧ { t with regs := s.regs } = s)
      ∧ (∃ u : State, exec (.smb1Timeout true false) s = .next (((u.alert 5).raise 36 3).smb1Next) ∧ u.flag F.SMB1_STAT.BUS_CLEAR = true
          ∧ u.fld F.SMB1_STAT.RESULT = 3 ∧ u.smb.job = none)
      ∧ (s.flag F.SMB1_CTRL.TMO_EN = false → exec (.smb1Timeout false false) s = .next s)
      ∧ (s.flag F.SMB1_CTRL.TMO_EN = true → ∃ u : State, exec (.smb1Timeout false false) s = .next (((u.alert 5).raise 36 3).smb1Next)
          ∧ u.fld F.SMB1_STAT.RESULT = 3 ∧ u.flag F.SMB1_STAT.DONE = true ∧ u.smb.job = none))

/-! Fault collector, safe state, Lupin and injectors. -/

/-- R25, R529 to R537, R539, R553: a raise sets its records and takes the reactions of its severity; the clearing of its records, and the
ways into the safe state. Sources 0, 2, 3, 4 and 24 have a condition of their own beside the raise. Whether a failing clock or supply has
recovered when STATUS_CLEAR consults it is a free value of the model (log entry 56). -/
def Obligations.RaisesRecordReactAndEnterTheSafeState : Prop :=
  ∀ s : State,
    (∀ (src : Fin 64) (d : BitVec 32), src.val ∉ [0, 2, 3, 4, 24] → exec (.faultRaise src d) s = .next (s.raise src d.toNat)
      ∧ ((39 < src.val ∧ src.val ≠ 63) ∨ s.sec.pwrGood = false → exec (.faultRaise src d) s = .next s)
      ∧ (s.sysStopped = true → src.val ∉ [1, 5, 7] → exec (.faultRaise src d) s = .next s)
      ∧ (∀ x, x ∈ [(0, F.FCL_REACT.EVENT0, F.FCL_REACT.ALERT0), (1, F.FCL_REACT.EVENT1, F.FCL_REACT.ALERT1),
            (2, F.FCL_REACT.EVENT2, F.FCL_REACT.ALERT2)] →
          s.sec.pwrGood = true → s.sysStopped = false → srcExists src = true → s.sticky src = false → s.fcl.safe = false → s.sevOf src = x.1 →
          s.flag x.2.1 = false → s.lup.holding = false → s.flag F.LUP_STAT.FROZEN = false → s.lup.queue = [] →
        ∃ t r, exec (.faultRaise src d) s = .next t ∧ t.sticky src = true ∧ (∀ y, y < 64 → y ≠ src.val → t.sticky y = s.sticky y)
          ∧ t.faultCnt src = min 255 (s.faultCnt src + 1) ∧ (∀ y, y < 64 → y ≠ src.val → t.faultCnt y = s.faultCnt y)
          ∧ t.fcl.safe = false ∧ t.lup.queue = [r] ∧ r.kind = 1 ∧ r.source = src.val ∧ r.sev = x.1 ∧ r.arg0 = d.toNat
          ∧ r.arg1 = min 255 (s.faultCnt src + 1) ∧ t.hqe = s.hqe
          ∧ (s.flag x.2.2 = false → t.rd .SMB0_ALERT = s.rd .SMB0_ALERT)
          ∧ (s.flag x.2.2 = true → bit (t.rd .SMB0_ALERT) 1 = true ∧ ∀ y, y < 8 → y ≠ 1 → bit (t.rd .SMB0_ALERT) y = bit (s.rd .SMB0_ALERT) y)
          ∧ (s.flag F.FCL_FF0.VALID = false → t.flag F.FCL_FF0.VALID = true ∧ t.fld F.FCL_FF0.SOURCE = src ∧ t.fld F.FCL_FF0.SEV = x.1
            ∧ t.rd .FCL_FF1 = d.toNat)
          ∧ (s.flag F.FCL_FF0.VALID = true → s.fcl.ffCycle ≠ s.sysCycle → t.rd .FCL_FF0 = s.rd .FCL_FF0 ∧ t.rd .FCL_FF1 = s.rd .FCL_FF1
            ∧ t.rd .FCL_COINC_LO = s.rd .FCL_COINC_LO ∧ t.rd .FCL_COINC_HI = s.rd .FCL_COINC_HI))
      ∧ (s.sec.pwrGood = true → s.sysStopped = false → srcExists src = true → s.sticky src = true → s.sevOf src ≤ 2 → s.flag F.PMU_CTRL.FREEZE = true →
          s.flag F.FCL_FF0.VALID = true → s.fcl.ffCycle ≠ s.sysCycle →
        ∃ t, exec (.faultRaise src d) s = .next t ∧ t.faultCnt src = min 255 (s.faultCnt src + 1)
          ∧ SameRegs [⟨.FCL_CNT, src.val / 4, 0⟩, ⟨.FCL_STATUS_LO, 0, 0⟩, ⟨.FCL_STATUS_HI, 0, 0⟩] s t ∧ (∀ x, x < 64 → t.sticky x = s.sticky x)
          ∧ { t with regs := s.regs } = s)
      ∧ (s.sec.pwrGood = true → s.sysStopped = false → srcExists src = true → s.fcl.safe = false → s.sevOf src = 3 →
          (s.sticky src = true ∨ (s.ring (s.evtRing 0)).typ ≠ .cmp) →
        ∃ t, exec (.faultRaise src d) s = .next t ∧ t.fcl.safe = true ∧ t.fcl.faultN = false ∧ t.flag F.LUP_STAT.FROZEN = true
          ∧ t.flag F.LUP_STAT.UNSAVED = true ∧ bit (t.rd .SMB0_ALERT) 0 = true
          ∧ t.flag F.FCL_SAFE.SAFE = true ∧ t.fld F.FCL_SAFE.CAUSE = 1 ∧ t.fld F.FCL_SAFE.SOURCE = src))
    ∧ (∀ d : BitVec 32, exec (.faultRaise 0 d) s = .next (s.selfCheckFail (d.toNat % 8)))
    ∧ (∀ (src : Fin 64) (d : BitVec 32), (src = 2 ∨ src = 3) →
      (¬ (src = 2 ↔ d.toNat = 1 ∨ d.toNat = 3) → exec (.faultRaise src d) s = .next (s.raise src d.toNat))
      ∧ ((src = 2 ↔ d.toNat = 1 ∨ d.toNat = 3) → (40 ≤ d.toNat → exec (.faultRaise src d) s = .next s)
        ∧ ∀ k : Fin 40, k.val = d.toNat → ∃ t, exec (.faultRaise src d) s = .next t ∧ exec (.clockMonitorFail k []) s = .next t))
    ∧ (∀ d : BitVec 32, (s.railMonitored d.toNat = false → exec (.faultRaise 4 d) s = .next s)
      ∧ (s.railMonitored d.toNat = true → ∃ u : State, exec (.faultRaise 4 d) s = .next (u.raise 4 d.toNat)
          ∧ u.fcl.supplyOut = (if d.toNat ∈ s.fcl.supplyOut then s.fcl.supplyOut else s.fcl.supplyOut ++ [d.toNat]) ∧ { u with fcl := s.fcl } = s))
    ∧ (∀ d : BitVec 32, ∃ u : State, exec (.faultRaise 24 d) s = .next (u.raise 24 d.toNat)
        ∧ u.fld F.POOL_ECC_CNT.UNCORR = min F.POOL_ECC_CNT.UNCORR.max (s.fld F.POOL_ECC_CNT.UNCORR + 1))
    ∧ (∀ (d : Fin 40) (parts : List (Fin 30 × LongPacket)),
      ((d.val = 0 ∨ d.val = 38 ∨ s.sec.pwrGood = false) → exec (.clockMonitorFail d parts) s = .next s)
      ∧ (d.val ≠ 0 → d.val ≠ 38 → s.sec.pwrGood = true →
        ∃ v u : State, exec (.clockMonitorFail d parts) s = .next (u.raise (if d.val = 1 ∨ d.val = 3 then 2 else 3) d)
          ∧ (s.clockUp d = true → v = s.cutDomain d parts) ∧ (s.clockUp d = false → v = s) ∧ u.clockUp d = false
          ∧ (∀ k, k ≠ d.val → u.clockUp k = v.clockUp k) ∧ { u with fcl := v.fcl } = v
          ∧ ((d.val < 4 ∨ 11 < d.val) → parts = [] → v = s)
          ∧ (4 ≤ d.val → d.val ≤ 11 → s.clockUp d = true → parts = [] → { v with blm := s.blm } = s
            ∧ (∀ b, b ≠ d.val - 4 → v.blm.get b = s.blm.get b)
            ∧ ∀ k, k < 32 → (v.blm.get (d.val - 4)).run.get k
                = ((s.blm.get (d.val - 4)).run.get k).map (fun x => { x with srcFlags := x.srcFlags ||| 1 }))))
    ∧ (∀ k : BitVec 3, ((k.toNat = 0 ∨ 4 < k.toNat ∨ s.sec.pwrGood = false) → exec (.collectorSelfCheckFail k) s = .next s)
      ∧ (1 ≤ k.toNat → k.toNat ≤ 4 → exec (.collectorSelfCheckFail k) s = .next (s.selfCheckFail k.toNat))
      ∧ (1 ≤ k.toNat → k.toNat ≤ 4 → s.sec.pwrGood = true → s.fcl.safe = true → ∃ t, exec (.collectorSelfCheckFail k) s = .next t
        ∧ t.sticky 0 = true ∧ (∀ x, 0 < x → x < 64 → t.sticky x = s.sticky x) ∧ SameRegs [⟨.FCL_STATUS_LO, 0, 0⟩] s t ∧ { t with regs := s.regs } = s))
    ∧ exec (.collectorSelfTest true) s = .next s
    ∧ exec (.collectorSelfTest false) s = .next (s.selfCheckFail 4)
    ∧ (s.sec.pwrGood = true → s.fcl.safe = false → ∀ k : BitVec 3, 1 ≤ k.toNat → k.toNat ≤ 4 →
      ∃ t, exec (.collectorSelfCheckFail k) s = .next t ∧ t.fcl.safe = true ∧ t.fcl.faultN = false ∧ t.sticky 0 = true
        ∧ t.fcl.safeD02 = 1 <<< 31 + 2 <<< 28 + k.toNat <<< 19
        ∧ (s.sysStopped = false → t.fld F.FCL_SAFE.CAUSE = 2 ∧ t.fld F.FCL_SAFE.SELF_CODE = k.toNat))
    ∧ (∀ p : Path, exec (.forceSafe p) s = .next (s.raise 7 (pathCode p)))
    ∧ (∀ p : Path, s.sec.pwrGood = true → s.fcl.safe = false → (s.sysStopped = true ∨ s.sticky 7 = true ∨ (s.ring (s.evtRing 0)).typ ≠ .cmp) →
      ∃ t, exec (.forceSafe p) s = .next t ∧ t.fcl.safe = true ∧ t.fcl.faultN = false
        ∧ (s.sysStopped = true → t.fcl.lateDue = true ∧ t.fcl.safeD02 = 1 <<< 31 + 1 <<< 28 + 7 <<< 22))
    ∧ (∃ t, exec .policyLock s = .next t ∧ t.flag F.FCL_CTRL.LOCK = true ∧ SameRegs [⟨.FCL_CTRL, 0, 0⟩] s t ∧ { t with regs := s.regs } = s)
    ∧ (∀ (hi : Bool) (m : BitVec 32), ∃ t, exec (.statusClear hi m) s = .next t
        ∧ (∀ i, i < 32 → t.sticky (i + 32 * b2n hi) = (s.sticky (i + 32 * b2n hi) && !(bit m.toNat i && !t.liveNow (i + 32 * b2n hi))))
        ∧ (∀ i, i < 32 → t.sticky (i + 32 * b2n (!hi)) = s.sticky (i + 32 * b2n (!hi)))
        ∧ SameRegs [⟨.FCL_STATUS_LO, 0, 0⟩, ⟨.FCL_STATUS_HI, 0, 0⟩, ⟨.FST_STAT, 0, 0⟩] s t
        ∧ (s.fcl.clkFail = [] → s.fcl.supplyOut = [] → (∀ i, i < 64 → t.liveNow i = s.liveNow i) ∧ { t with regs := s.regs } = s))
    ∧ (∃ t, exec .firstFaultClear s = .next t ∧ t.flag F.FCL_FF0.VALID = false ∧ t.rd .FCL_COINC_LO = 0 ∧ t.rd .FCL_COINC_HI = 0
        ∧ t.fld F.FCL_FF0.SOURCE = s.fld F.FCL_FF0.SOURCE ∧ SameRegs [⟨.FCL_FF0, 0, 0⟩, ⟨.FCL_COINC_LO, 0, 0⟩, ⟨.FCL_COINC_HI, 0, 0⟩] s t
        ∧ { t with regs := s.regs } = s)

/-- R543, R545 to R547, R549 to R551, R564: Lupin's records, its freeze and its copy into flash; the arming, firing and releasing of an
injector. -/
def Obligations.LupinRecordsAndInjectorsFire : Prop :=
  ∀ s : State,
    ((s.flag F.LUP_STAT.FROZEN = true ∨ s.sysStopped = true ∨ s.lup.queue = []) → exec .lupinRecordWrite s = .next s)
    ∧ (∀ r q, s.flag F.LUP_STAT.FROZEN = false → s.sysStopped = false → s.lup.queue = r :: q →
      ∃ u : State, exec .lupinRecordWrite s = .next (u.pmuAdd 0x008 0)
        ∧ u.lup.buf.get (s.fld F.LUP_SEQ.NEXT % 4096) = some { r with seq := s.fld F.LUP_SEQ.NEXT } ∧ u.lup.queue = q
        ∧ u.fld F.LUP_SEQ.NEXT = (s.fld F.LUP_SEQ.NEXT + 1) % 2 ^ 32 ∧ u.fld F.LUP_STAT.COUNT = min 4096 (s.fld F.LUP_STAT.COUNT + 1)
        ∧ (∀ k, k ≠ s.fld F.LUP_SEQ.NEXT % 4096 → u.lup.buf.get k = s.lup.buf.get k)
        ∧ SameRegs [⟨.LUP_SEQ, 0, 0⟩, ⟨.LUP_STAT, 0, 0⟩] s u ∧ { u with regs := s.regs, lup := s.lup } = s)
    ∧ (∃ t, exec .freeze s = .next t ∧ t.flag F.LUP_STAT.FROZEN = true
        ∧ t.flag F.LUP_STAT.UNSAVED = (s.flag F.LUP_STAT.UNSAVED || s.lupSafe) ∧ SameRegs [⟨.LUP_STAT, 0, 0⟩] s t
        ∧ { t with regs := s.regs } = s)
    ∧ ((s.fcl.safe = true ∨ s.flag F.LUP_STAT.UNSAVED = true) → ∃ t, exec .clear s = .next t ∧ t.flag F.LUP_STAT.REFUSED = true
        ∧ t.flag F.LUP_STAT.FROZEN = s.flag F.LUP_STAT.FROZEN ∧ SameRegs [⟨.LUP_STAT, 0, 0⟩] s t ∧ { t with regs := s.regs } = s)
    ∧ (s.fcl.safe = false → s.flag F.LUP_STAT.UNSAVED = false → ∃ t, exec .clear s = .next t ∧ t.lup = { s.lup with buf := {} }
        ∧ t.flag F.LUP_STAT.FROZEN = false ∧ t.fld F.LUP_STAT.COUNT = 0 ∧ SameRegs [⟨.LUP_STAT, 0, 0⟩] s t)
    ∧ (s.flag F.LUP_STAT.SAVE_FAIL = false → ∃ t, exec .release s = .next t ∧ t.flag F.LUP_STAT.UNSAVED = false
        ∧ t.flag F.LUP_STAT.FROZEN = s.flag F.LUP_STAT.FROZEN ∧ SameRegs [⟨.LUP_STAT, 0, 0⟩] s t ∧ { t with regs := s.regs } = s)
    ∧ (∀ (p : Path) (v : BitVec 32),
      (s.lup.holding = false → s.flag F.LUP_STAT.FROZEN = true → ∃ t, exec (.lupMark p v) s = .next t
        ∧ t.fld F.LUP_CNT.LOST = min 65535 (s.fld F.LUP_CNT.LOST + 1) ∧ SameRegs [⟨.LUP_CNT, 0, 0⟩] s t ∧ { t with regs := s.regs } = s)
      ∧ (s.lup.holding = false → s.flag F.LUP_STAT.FROZEN = false → s.lup.queue = [] → ∃ t r, exec (.lupMark p v) s = .next t
        ∧ t.lup = { s.lup with queue := [r] } ∧ r.kind = 0x50 ∧ r.arg0 = v.toNat ∧ r.arg1 = pathCode p ∧ { t with lup := s.lup } = s)
      ∧ (s.lup.holding = true → s.lup.hold.length < 256 → ∃ t r, exec (.lupMark p v) s = .next t
        ∧ t.lup = { s.lup with hold := s.lup.hold ++ [r] } ∧ r.kind = 0x50 ∧ { t with lup := s.lup } = s))
    ∧ (s.lup.holding = true → s.flag F.LUP_STAT.UNSAVED = true → s.flag F.LUP_STAT.SAVE_FAIL = false → s.lup.saving = none →
        8 ≤ s.fld F.SEC_BOOT_STAT.STAGE → s.fld F.SEC_BOOT_STAT.STAGE ≤ 0x0A →
      exec .lupinSave s = .next { s with lup := { s.lup with saving := some ((s.fld F.LUP_STAT.LAST_SLOT + 1) % 4) } })
    ∧ (∀ k, s.lup.saving = some k → k < 4 →
      (s.fcl.safe = false → s.lup.hold = [] → ∀ c, ∃ t d, exec (.lupinSaveDone true c) s = .next t ∧ t.lup.dump.get k = some d ∧ d.recs = s.lupOrder
        ∧ d.bootCount = s.fld F.SEC_BOOT_CNT.COUNT ∧ t.lup.buf = {} ∧ t.lup.holding = false ∧ t.lup.saving = none
        ∧ t.fld F.LUP_STAT.LAST_SLOT = k ∧ t.flag F.LUP_STAT.FROZEN = false ∧ t.flag F.LUP_STAT.UNSAVED = false
        ∧ t.fld F.LUP_CNT.CORR = min F.LUP_CNT.CORR.max (s.fld F.LUP_CNT.CORR + c.toNat) ∧ SameRegs [⟨.LUP_STAT, 0, 0⟩, ⟨.LUP_CNT, 0, 0⟩] s t)
      ∧ (∀ c, ∃ t, exec (.lupinSaveDone false c) s = .next t ∧ t.flag F.LUP_STAT.SAVE_FAIL = true ∧ t.lup = { s.lup with saving := none }
        ∧ t.fld F.LUP_CNT.CORR = min F.LUP_CNT.CORR.max (s.fld F.LUP_CNT.CORR + c.toNat)
        ∧ t.flag F.LUP_STAT.FROZEN = s.flag F.LUP_STAT.FROZEN ∧ SameRegs [⟨.LUP_STAT, 0, 0⟩, ⟨.LUP_CNT, 0, 0⟩] s t))
    ∧ (∀ i : Fin 8,
      ((s.flag F.FIJ_STAT.UNLOCKED = false ∨ s.fcl.safe = true) → s.noHeld → exec (.injectorArm i true) s = .next s)
      ∧ (s.flag F.FIJ_STAT.UNLOCKED = true → s.fcl.safe = false → s.flag F.FIJ_CTRL.ARM i = false → s.flag F.FIJ_TRIG.AT_EN i = true → s.noHeld →
        ∃ t, exec (.injectorArm i true) s = .next t ∧ t.flag F.FIJ_CTRL.ARM i = true ∧ bit (t.fld F.FIJ_STAT.ARMED) i = true
          ∧ SameRegs [⟨.FIJ_CTRL, i, 0⟩, ⟨.FIJ_STAT, 0, 0⟩] s t ∧ { t with regs := s.regs } = s)
      ∧ (s.flag F.FIJ_STAT.UNLOCKED = true → s.fcl.safe = false → s.flag F.FIJ_CTRL.ARM i = false → s.flag F.FIJ_TRIG.AT_EN i = false →
          s.fld F.FIJ_CTRL.LINK i ≠ 6 → (s.fcl.fij.get i).firing = false → s.noHeld →
        ∃ t, exec (.injectorArm i true) s = .next t ∧ t.flag F.FIJ_CTRL.ARM i = true ∧ (t.fcl.fij.get i).firing = true
          ∧ (t.fcl.fij.get i).left = max 1 (s.fld F.FIJ_CTRL.COUNT i))
      ∧ (s.noHeld → ∃ t, exec (.injectorArm i false) s = .next t ∧ t.flag F.FIJ_CTRL.ARM i = false ∧ bit (t.fld F.FIJ_STAT.ARMED) i = false
          ∧ (t.fcl.fij.get i).firing = false ∧ (∀ k, k ≠ i.val → t.fcl.fij.get k = s.fcl.fij.get k)
          ∧ SameRegs [⟨.FIJ_CTRL, i, 0⟩, ⟨.FIJ_STAT, 0, 0⟩] s t)
      ∧ (s.flag F.FIJ_TRIG.AT_EN i = true → (s.ras.get (s.fld F.FIJ_TRIG.RASTER i)).line ≠ s.fld F.FIJ_TRIG.LINE i →
        exec (.injectorFire i) s = .next s)
      ∧ (s.flag F.FIJ_CTRL.ARM i = true → s.flag F.FIJ_STAT.UNLOCKED = true → s.fcl.safe = false → (s.fcl.fij.get i).firing = false →
          s.fld F.FIJ_CTRL.LINK i ≠ 6 →
          (s.flag F.FIJ_TRIG.AT_EN i = false ∨ (s.ras.get (s.fld F.FIJ_TRIG.RASTER i)).line = s.fld F.FIJ_TRIG.LINE i) →
        ∃ t, exec (.injectorFire i) s = .next t ∧ (t.fcl.fij.get i).firing = true ∧ (t.fcl.fij.get i).left = max 1 (s.fld F.FIJ_CTRL.COUNT i)
          ∧ (∀ k, k ≠ i.val → t.fcl.fij.get k = s.fcl.fij.get k) ∧ { t with fcl := s.fcl } = s)
      ∧ ((s.fcl.fij.get i).held = [] → (s.fcl.fij.get i).cut = false →
        ∃ t, exec (.reorderRelease i) s = .next t ∧ (∀ k, t.fcl.fij.get k = s.fcl.fij.get k) ∧ { t with fcl := s.fcl } = s)
      ∧ (∀ f, (s.fcl.fij.get i).held = [.canTx f] → (∀ k, k < 8 → k ≠ i.val → (s.fcl.fij.get k).firing = false ∧ (s.fcl.fij.get k).held = []) →
        ∃ t, exec (.reorderRelease i) s = .next t ∧ (t.fcl.fij.get i).held = [] ∧ t.out = s.out ++ [.can (s.fcl.fij.get i).inst f]))

/-! Energy governor and performance monitor. -/

/-- R599, R602, R605 to R610, R616: the grant while the master raster is stopped, the degrade ladder, clocks, sensors, aging and voltage,
and EGV_BUDGET. `v` is the state in which the governor has taken the descriptor up. -/
def Obligations.EnergyIsGrantedAndGoverned : Prop :=
  ∀ s : State,
    ((s.ras.get s.master).running = true → exec .grantTimer s = .next s)
    ∧ ((s.ras.get s.master).running = false → s.egv.wait = [] →
      let g := s.grantOf (16384 * 2 ^ 32)
      (∃ t, exec .grantTimer s = .next t ∧ t.fld F.EGV_GRANT.TOKENS = min g (2 ^ 24 - 1)
        ∧ t.fld F.EGV_STAT.EFF_MW = min F.EGV_STAT.EFF_MW.max s.effMw.toNat ∧ t.out = s.out ∧ t.hqe = s.hqe
        ∧ ∀ b, b < 8 →
          let x := applyShare (s.fld F.EGV_BLOOM.R_B b) (s.shareOf g b) (s.blm.get b).resv (s.blm.get b).gen
          (t.blm.get b).resv = x.1 ∧ (t.blm.get b).gen = x.2.1)
      ∧ (((List.range 8).map (fun b => s.fld F.EGV_BLOOM.R_B b)).sum = s.demand → s.demand ≤ g →
        ((List.range 8).map (fun b => (s.shareOf g b).1 + (s.shareOf g b).2)).sum = g)
      ∧ (∀ b, g < s.demand → (s.shareOf g b).2 = 0 ∧ (s.shareOf g b).1 * s.demand ≤ s.fld F.EGV_BLOOM.R_B b * g))
    ∧ (s.flag F.EGV_CTRL.LADDER_EN = false → exec .ladderStep s = .next s)
    ∧ (s.flag F.EGV_CTRL.LADDER_EN = true → s.fld F.EGV_CTRL.UP_LINES ≤ s.egv.up → s.egv.up ≠ 0 → s.fld F.EGV_STAT.LEVEL < 4 →
      let n := s.fld F.EGV_STAT.LEVEL + 1
      ∃ u : State, exec .ladderStep s = .next ((u.event 0 0xA0 n (s.ras.get s.master).frame (s.fld F.EGV_GRANT.TOKENS) s.demand).lupSubmit 0x50 0 0 n 0)
        ∧ u.fld F.EGV_STAT.LEVEL = n ∧ u.egv.up = 0 ∧ u.egv.down = 0 ∧ u.blm = s.blm ∧ u.out = s.out)
    ∧ (s.flag F.EGV_CTRL.LADDER_EN = true → s.egv.up = 0 → s.fld F.EGV_CTRL.DOWN_LINES ≤ s.egv.down → s.egv.down ≠ 0 → s.fld F.EGV_STAT.LEVEL ≠ 0 →
      let n := s.fld F.EGV_STAT.LEVEL - 1
      ∃ u : State, exec .ladderStep s = .next ((u.event 0 0xA0 n (s.ras.get s.master).frame (s.fld F.EGV_GRANT.TOKENS) s.demand).lupSubmit 0x50 0 0 n 0)
        ∧ u.fld F.EGV_STAT.LEVEL = n ∧ u.egv.up = 0 ∧ u.egv.down = 0)
    ∧ (∀ b : Fin 8, (s.egv.debt.get b < 16 → exec (.energyDebtLimit b) s = .next s)
      ∧ (16 ≤ s.egv.debt.get b → ∃ u : State, exec (.energyDebtLimit b) s = .next (u.raise 12 b) ∧ u.egv.debt.get b = 0
          ∧ (∀ k, k ≠ b.val → u.egv.debt.get k = s.egv.debt.get k) ∧ { u with egv := s.egv } = s))
    ∧ (∀ b : Fin 8, (s.egv.clk.get b = none → exec (.clockChangeDone b) s = .next s)
      ∧ (∀ c, s.egv.clk.get b = some c → c < 256 → ∃ t : State, exec (.clockChangeDone b) s = .next (t.preemptAll b 64)
          ∧ ((s.blm.get b).fast = [] → t.preemptAll b 64 = t) ∧ t.fld F.EGV_BLOOM.CLK_CODE b = c
          ∧ t.egv.clk.get b = none ∧ SameRegs [⟨.EGV_BLOOM, b, 0⟩] s t ∧ { t with regs := s.regs, egv := s.egv } = s))
    ∧ (∀ l : List (BitVec 16), l.length = 11 →
      let lim : Int := 16 * (s.fld F.EGV_THERM.ALERT : Nat)
      ((∀ v, v ∈ l → signed 16 v.toNat ≤ lim - 32) → ∃ t, exec (.tempSample l) s = .next t ∧ t.egv.hot = false
        ∧ (∀ i, i < 11 → t.fld F.EGV_TEMP.TEMP i = (l.getD i 0).toNat
          ∧ signed 16 (t.fld F.EGV_TEMP.MAX i) = max (signed 16 (s.fld F.EGV_TEMP.MAX i)) (signed 16 (l.getD i 0).toNat))
        ∧ t.temp16 11 = 16 * signed 8 (s.fld F.FST_STAT.TEMP) ∧ t.fld F.EGV_OTHER.OTHER_MW = min 65535 t.otherMw
        ∧ t.fld F.EGV_STAT.EFF_MW = min F.EGV_STAT.EFF_MW.max t.effMw.toNat
        ∧ SameRegs (⟨.EGV_STAT, 0, 0⟩ :: ⟨.EGV_OTHER, 0, 0⟩ :: (List.range 12).map (fun i => ⟨.EGV_TEMP, i, 0⟩)) s t
        ∧ { t with regs := s.regs, egv := s.egv } = s)
      ∧ (∀ k, k < 11 → (∀ i, i < 11 → (lim ≤ signed 16 (l.getD i 0).toNat ↔ i = k)) → s.temp16 k < lim →
        ∃ u : State, exec (.tempSample l) s = .next (((u.alert 2).raise 8 k).event 0 0xA1 k (unsigned 32 (signed 16 (l.getD k 0).toNat))
            (s.fld F.EGV_THERM.ALERT) 0)
          ∧ u.egv.hot = true ∧ (∀ i, i < 11 → u.fld F.EGV_TEMP.TEMP i = (l.getD i 0).toNat)))
    ∧ (∀ d : BitVec 16,
      (d.toNat % 4096 < s.fld F.EGV_AVS.AGE_THR → ∃ t, exec (.agingMeasure [d]) s = .next t ∧ t.fld F.EGV_AGE.D 0 = d.toNat % 4096
        ∧ SameRegs [⟨.EGV_AGE, 0, 0⟩] s t ∧ { t with regs := s.regs } = s)
      ∧ (s.fld F.EGV_AVS.AGE_THR ≤ d.toNat % 4096 → s.fld F.EGV_AGE.D 0 < s.fld F.EGV_AVS.AGE_THR →
        ∃ u : State, exec (.agingMeasure [d]) s = .next (u.raise 10 0) ∧ u.fld F.EGV_AGE.D 0 = d.toNat % 4096 ∧ u.flag F.EGV_AGE.OVER 0 = true
          ∧ SameRegs [⟨.EGV_AGE, 0, 0⟩] s u ∧ { u with regs := s.regs } = s))
    ∧ (s.coreTarget ≤ s.fld F.EGV_AVS.VCORE_MV → s.coreTarget ≤ 850 → exec .avsStep s = .next { s with egv := { s.egv with avsLimit := false } })
    ∧ (s.fld F.EGV_AVS.VCORE_MV < s.coreTarget → s.fld F.EGV_AVS.VCORE_MV < 850 →
      let n := min 850 (s.fld F.EGV_AVS.VCORE_MV + 5)
      ∃ u : State, exec .avsStep s = .next (u.event 0 0xA2 0 n s.worstAge.1 s.worstAge.2) ∧ u.fld F.EGV_AVS.VCORE_MV = n
        ∧ u.sec = { s.sec with vcore := some n } ∧ SameRegs [⟨.EGV_AVS, 0, 0⟩] s u)
    ∧ (850 < s.coreTarget → s.fld F.EGV_AVS.VCORE_MV = 850 → s.egv.avsLimit = false →
      exec .avsStep s = .next (({ s with egv := { s.egv with avsLimit := true } } : State).raise 11 0))
    ∧ (∀ (d : Fin 64) (r : Fin 4096) (i : BitVec 32) (x : Started),
      let v := s.takeCmd (ringG d r) i.toNat
      let b := x.bytes
      s.startedCmd (ringG d r) i.toNat 0x50 = some x →
      (d.val ≠ 0 → exec (.egvBudget d r i) s = .next (v.finishCmd (ringG d r) i.toNat b 0x32))
      ∧ (d.val = 0 → cfld b 8 30 16 = 0 → leAt b 12 20 = 0 → cfld b 8 31 31 = 0 → (cfld b 8 15 0 = 0 ∨ 28000 < cfld b 8 15 0) →
        exec (.egvBudget d r i) s = .next (v.finishCmd (ringG d r) i.toNat b 0x50))
      ∧ (d.val = 0 → cfld b 8 30 16 = 0 → leAt b 12 20 = 0 → (cfld b 8 31 31 = 1 ∨ (1 ≤ cfld b 8 15 0 ∧ cfld b 8 15 0 ≤ 28000)) →
        exec (.egvBudget d r i) s
          = .next { v with egv := { s.egv with wait := s.egv.wait ++ [{ ring := ringG d r, idx := i.toNat, bytes := b }] } }))

/-- R90, R95, R627: the reads that latch a second register. R611, R612, R614: a freeze, a snapshot of the counters, and the wrap of one. -/
def Obligations.LatchingReadsAndCounterControl : Prop :=
  ∀ s : State,
    (∀ n : Fin 8, ∃ t, exec (.rasPosRead n) s = .next t ∧ t.viewReg .RAS_FRAME n 0 = (s.ras.get n).frame
        ∧ t.ras = s.ras.set n { s.ras.get n with latch := (s.ras.get n).frame } ∧ { t with ras := s.ras } = s)
    ∧ (∃ t, exec .rasTodLoRead s = .next t ∧ t.viewReg .RAS_TOD_HI 0 0 = s.time.tod / 2 ^ 32
        ∧ t.time = { s.time with todLatch := s.time.tod / 2 ^ 32 } ∧ { t with time := s.time } = s)
    ∧ (∀ i : Fin 8, ∃ t, exec (.loRegisterRead (BitVec.ofNat 26 (RegKind.off .PMU_CTR_LO i 0))) s = .next t
        ∧ t.viewReg .PMU_CTR_HI i 0 = s.rd .PMU_CTR_HI i ∧ { t with hiLatch := s.hiLatch } = s)
    ∧ (∃ t, exec (.loRegisterRead (BitVec.ofNat 26 (RegKind.off .PMU_CYC_LO 0 0))) s = .next t
        ∧ t.viewReg .PMU_CYC_HI 0 0 = s.pmu.cyc / 2 ^ 32 % 2 ^ 32 ∧ { t with hiLatch := s.hiLatch } = s)
    ∧ (∃ t, exec .pmuFreeze s = .next t ∧ t.flag F.PMU_CTRL.FREEZE = true ∧ SameRegs [⟨.PMU_CTRL, 0, 0⟩] s t ∧ { t with regs := s.regs } = s
      ∧ ∀ ev inst n, t.pmuAdd ev inst n = t)
    ∧ (∃ t, exec .pmuUnfreeze s = .next t ∧ t.flag F.PMU_CTRL.FREEZE = false ∧ SameRegs [⟨.PMU_CTRL, 0, 0⟩] s t ∧ { t with regs := s.regs } = s)
    ∧ (let k : List RegId := [⟨.PMU_SNAP_CYC_LO, 0, 0⟩, ⟨.PMU_SNAP_CYC_HI, 0, 0⟩, ⟨.PMU_SNAP_SEQ, 0, 0⟩]
          ++ (List.range 8).flatMap (fun i => [⟨.PMU_SNAP_LO, i, 0⟩, ⟨.PMU_SNAP_HI, i, 0⟩])
      let n := (s.fld F.PMU_SNAP_SEQ.SEQ + 1) % 2 ^ 32
      ∃ u : State, exec .snapNow s = .next (if s.flag F.PMU_CTRL.SNAP_EVT then u.event 0 0xA3 0 n 0 0 else u)
        ∧ u.rd .PMU_SNAP_CYC_LO = s.pmu.cyc % 2 ^ 32 ∧ u.rd .PMU_SNAP_CYC_HI = s.pmu.cyc / 2 ^ 32 % 2 ^ 32 ∧ u.fld F.PMU_SNAP_SEQ.SEQ = n
        ∧ (∀ i, i < 8 → u.fld F.PMU_SNAP_LO.COUNT i = s.fld F.PMU_CTR_LO.COUNT i ∧ u.fld F.PMU_SNAP_HI.COUNT i = s.fld F.PMU_CTR_HI.COUNT i)
        ∧ SameRegs k s u ∧ { u with regs := s.regs } = s)
    ∧ (∀ i : Fin 8,
      (i.val ∉ s.pmu.ovf → exec (.counterOverflow i) s = .next s)
      ∧ (i.val ∈ s.pmu.ovf → ∃ u : State, exec (.counterOverflow i) s
            = .next (if s.flag F.PMU_CFG.OVF_EVT i then u.event 0 0xA4 (u.fld F.PMU_OVF.OVF) 0 0 0 else u)
          ∧ bit (u.fld F.PMU_OVF.OVF) i = true ∧ (∀ k, k < 8 → k ≠ i.val → bit (u.fld F.PMU_OVF.OVF) k = bit (s.fld F.PMU_OVF.OVF) k)
          ∧ (s.flag F.PMU_CFG.OVF_FRZ i = true → u.flag F.PMU_CTRL.FREEZE = true)
          ∧ (s.flag F.PMU_CFG.OVF_FRZ i = false → u.flag F.PMU_CTRL.FREEZE = s.flag F.PMU_CTRL.FREEZE)
          ∧ u.pmu.ovf = s.pmu.ovf.filter (· != i.val) ∧ SameRegs [⟨.PMU_OVF, 0, 0⟩, ⟨.PMU_CTRL, 0, 0⟩] s u
          ∧ { u with regs := s.regs, pmu := s.pmu } = s))

/-! The queue, the register file and the safe state, over all commands. -/

/-- One step takes the command at the front of the queue. On an empty queue one CORE cycle passes, which is the model's choice (log entry 2). -/
def Obligations.StepRunsTheFrontCommand : Prop :=
  ∀ s : State,
    (∀ c rest, s.pending = c :: rest → step s = exec c { s with pending := rest })
    ∧ (s.pending = [] → step s = .next s.cycle)

/-- Every step keeps the register file in its canonical form, so that equal register files are equal data, takes exactly the front command off
the queue, and keeps FAULT_N low and the power good while the safe state lasts (R538, R541). -/
def Obligations.EveryStepKeepsTheMachineInvariant : Prop :=
  ∀ s t : State, step s = .next t → s.Inv → t.Inv ∧ t.pending = s.pending.tail

/-- The invariant holds at reset, where the queue is empty and no register has left its reset value. -/
def Obligations.TheInvariantHoldsAtReset : Prop :=
  State.reset.Inv ∧ State.reset.pending = [] ∧ State.reset.fcl.safe = false ∧ ∀ k i j, State.reset.rd k i j = (k.resetVal i).toNat

/-- R541, R645: no command but a reset, and the loss of power, leaves the safe state. -/
def Obligations.OnlyResetsLeaveTheSafeState : Prop :=
  ∀ (s : State) (c : Instr), s.fcl.safe = true → (∀ m a p r, c ≠ .porstN m a p r) → (∀ r, c ≠ .wrstN r) → c ≠ .powerLoss →
    ∃ t, exec c s = .next t ∧ t.fcl.safe = true
end

