-- ==== Sys2Proof/Laws/Table.lean ====
section
/-!
SUPPORT. Laws/Table.lean: reading after writing in the sparse table, its canonical form, and bit fields.
-/
namespace Sys2Proof.Machine

theorem cellsGet_drop_same {α : Type} (d : α) (k : Nat) (l : List (Nat × α)) : cellsGet d k (cellsDrop k l) = d := by
  induction l with
  | nil => rfl
  | cons c r ih =>
    obtain ⟨k', v⟩ := c
    by_cases h : k' = k
    · simp [cellsDrop, h, ih]
    · simp [cellsDrop, h, cellsGet, ih]

theorem cellsGet_drop_other {α : Type} (d : α) (k j : Nat) (h : j ≠ k) (l : List (Nat × α)) :
    cellsGet d j (cellsDrop k l) = cellsGet d j l := by
  induction l with
  | nil => rfl
  | cons c r ih =>
    obtain ⟨k', v⟩ := c
    by_cases hk : k' = k
    · have : k' ≠ j := fun e => h (e ▸ hk)
      simp [cellsDrop, hk, cellsGet, ih, h.symm]
    · by_cases hj : k' = j
      · subst hj; simp [cellsDrop, hk, cellsGet]
      · simp [cellsDrop, hk, cellsGet, ih, hj]

theorem cellsGet_put_same {α : Type} (d : α) (k : Nat) (v : α) (l : List (Nat × α)) : cellsGet d k (cellsPut k v (cellsDrop k l)) = v := by
  induction l with
  | nil => simp [cellsDrop, cellsPut, cellsGet]
  | cons c r ih =>
    obtain ⟨k', w⟩ := c
    by_cases h : k' = k
    · simp [cellsDrop, h, ih]
    · by_cases hl : k < k' <;> simp [cellsDrop, h, cellsPut, hl, cellsGet, ih]

theorem cellsGet_put_other {α : Type} (d : α) (k j : Nat) (v : α) (h : j ≠ k) (l : List (Nat × α)) :
    cellsGet d j (cellsPut k v l) = cellsGet d j l := by
  induction l with
  | nil => simp [cellsPut, cellsGet, h.symm]
  | cons c r ih =>
    obtain ⟨k', w⟩ := c
    by_cases hl : k < k'
    · simp [cellsPut, hl, cellsGet, h.symm]
    · by_cases hj : k' = j
      · subst hj; simp [cellsPut, hl, cellsGet]
      · simp [cellsPut, hl, cellsGet, ih, hj]

section
variable {α : Type} [DecidableEq α] [Inhabited α]

/-- An entry reads as it was written. -/
@[simp] theorem Tbl.get_set_same (t : Tbl α) (k : Nat) (v : α) : (t.set k v).get k = v := by
  by_cases h : v = default
  · simp [Tbl.set, Tbl.get, cellsSet, h, cellsGet_drop_same]
  · simp [Tbl.set, Tbl.get, cellsSet, h, cellsGet_put_same]

/-- A write leaves every other entry. -/
theorem Tbl.get_set_other (t : Tbl α) (k j : Nat) (v : α) (h : j ≠ k) : (t.set k v).get j = t.get j := by
  by_cases hv : v = default
  · simp [Tbl.set, Tbl.get, cellsSet, hv, cellsGet_drop_other _ _ _ h]
  · simp [Tbl.set, Tbl.get, cellsSet, hv, cellsGet_put_other _ _ _ _ h, cellsGet_drop_other _ _ _ h]

@[simp] theorem Tbl.get_upd_same (t : Tbl α) (k : Nat) (f : α → α) : (t.upd k f).get k = f (t.get k) := by simp [Tbl.upd]

theorem Tbl.get_upd_other (t : Tbl α) (k j : Nat) (f : α → α) (h : j ≠ k) : (t.upd k f).get j = t.get j := by
  simp [Tbl.upd, Tbl.get_set_other _ _ _ _ h]

end

/-! The canonical form. -/

theorem cellsWf_mono {α : Type} [DecidableEq α] (d : Nat → α) (a b : Nat) (h : a ≤ b) (l : List (Nat × α)) (w : cellsWf d b l = true) : cellsWf d a l = true := by
  cases l with
  | nil => rfl
  | cons c r =>
    obtain ⟨k, v⟩ := c
    simp only [cellsWf, Bool.and_eq_true, decide_eq_true_eq] at w ⊢
    exact ⟨⟨le_trans h w.1.1, w.1.2⟩, w.2⟩

theorem cellsWf_drop {α : Type} [DecidableEq α] (d : Nat → α) (k a : Nat) (l : List (Nat × α)) (w : cellsWf d a l = true) : cellsWf d a (cellsDrop k l) = true := by
  induction l generalizing a with
  | nil => rfl
  | cons c r ih =>
    obtain ⟨k', v⟩ := c
    simp only [cellsWf, Bool.and_eq_true, decide_eq_true_eq] at w
    by_cases h : k' = k
    · simp only [cellsDrop, h, if_true]
      exact ih a (cellsWf_mono d a (k' + 1) (by omega) r w.2)
    · simp only [cellsDrop, h, if_false, cellsWf, Bool.and_eq_true, decide_eq_true_eq]
      exact ⟨w.1, ih _ w.2⟩

theorem cellsWf_put {α : Type} [DecidableEq α] (d : Nat → α) (k a : Nat) (v : α) (hv : v ≠ d k) (ha : a ≤ k) (l : List (Nat × α)) (w : cellsWf d a l = true)
    (hk : ∀ c ∈ l, c.1 ≠ k) : cellsWf d a (cellsPut k v l) = true := by
  induction l generalizing a with
  | nil => simp [cellsPut, cellsWf, ha, hv]
  | cons c r ih =>
    obtain ⟨k', x⟩ := c
    simp only [cellsWf, Bool.and_eq_true, decide_eq_true_eq] at w
    by_cases h : k < k'
    · simp only [cellsPut, h, if_true, cellsWf, Bool.and_eq_true, decide_eq_true_eq]
      exact ⟨⟨ha, hv⟩, ⟨⟨by omega, w.1.2⟩, w.2⟩⟩
    · have hne : k' ≠ k := hk (k', x) (by simp)
      simp only [cellsPut, h, if_false, cellsWf, Bool.and_eq_true, decide_eq_true_eq]
      exact ⟨w.1, ih (k' + 1) (by omega) w.2 (fun c hc => hk c (by simp [hc]))⟩

theorem cellsDrop_ne {α : Type} (k : Nat) (l : List (Nat × α)) : ∀ c ∈ cellsDrop k l, c.1 ≠ k := by
  induction l with
  | nil => simp [cellsDrop]
  | cons c r ih =>
    obtain ⟨k', v⟩ := c
    by_cases h : k' = k
    · simpa [cellsDrop, h] using ih
    · simp only [cellsDrop, h, if_false, List.mem_cons]
      rintro c (rfl | hc)
      · exact h
      · exact ih c hc

/-- A write keeps the canonical form. -/
theorem Tbl.wf_set {α : Type} [DecidableEq α] [Inhabited α] (t : Tbl α) (k : Nat) (v : α) (h : t.wf = true) : (t.set k v).wf = true := by
  unfold Tbl.wf Tbl.set cellsSet at *
  split
  · exact cellsWf_drop _ _ _ _ h
  · rename_i hv
    exact cellsWf_put _ _ _ _ hv (Nat.zero_le _) _ (cellsWf_drop _ _ _ _ h) (cellsDrop_ne _ _)

theorem Tbl.wf_upd {α : Type} [DecidableEq α] [Inhabited α] (t : Tbl α) (k : Nat) (f : α → α) (h : t.wf = true) : (t.upd k f).wf = true := Tbl.wf_set _ _ _ h

theorem Tbl.wf_empty {α : Type} [DecidableEq α] [Inhabited α] : ({} : Tbl α).wf = true := rfl

/-! Bit fields. -/

/-- A field is below the bound of its width. -/
theorem bits_lt (w hi lo : Nat) : bits w hi lo < 2 ^ (hi + 1 - lo) := Nat.mod_lt _ (by positivity)

/-- A number cut into what lies below a field, the field, and what lies above. -/
theorem bits_split (w hi lo : Nat) (_h : lo ≤ hi + 1) :
    w = w % 2 ^ lo + 2 ^ lo * (bits w hi lo + 2 ^ (hi + 1 - lo) * (w / 2 ^ lo / 2 ^ (hi + 1 - lo))) := by
  unfold bits
  rw [Nat.shiftRight_eq_div_pow, Nat.mod_add_div, Nat.mod_add_div]

/-- A replaced field beside the untouched parts. -/
theorem putBits_split (w hi lo v : Nat) (h : lo ≤ hi + 1) :
    putBits w hi lo v
      = w % 2 ^ lo + 2 ^ lo * (v % 2 ^ (hi + 1 - lo) + 2 ^ (hi + 1 - lo) * (w / 2 ^ lo / 2 ^ (hi + 1 - lo))) := by
  have e := bits_split w hi lo h
  unfold putBits
  rw [Nat.shiftLeft_eq, Nat.shiftLeft_eq]
  generalize w / 2 ^ lo / 2 ^ (hi + 1 - lo) = q at *
  generalize bits w hi lo = b at *
  generalize w % 2 ^ lo = r at *
  have : w - b * 2 ^ lo = r + 2 ^ lo * (2 ^ (hi + 1 - lo) * q) := by
    rw [e, Nat.mul_add, Nat.mul_comm b]; omega
  rw [this]; ring

theorem bits_of_split (r b q lo n hi : Nat) (hr : r < 2 ^ lo) (hb : b < 2 ^ n) (hn : n = hi + 1 - lo) :
    bits (r + 2 ^ lo * (b + 2 ^ n * q)) hi lo = b := by
  subst hn
  unfold bits
  rw [Nat.shiftRight_eq_div_pow, Nat.add_mul_div_left _ _ (by positivity), Nat.div_eq_of_lt hr, Nat.zero_add, Nat.add_mul_mod_self_left,
    Nat.mod_eq_of_lt hb]

/-- A field reads as it was written. -/
theorem bits_putBits_same (w hi lo v : Nat) (h : lo ≤ hi + 1) : bits (putBits w hi lo v) hi lo = v % 2 ^ (hi + 1 - lo) := by
  rw [putBits_split w hi lo v h]
  exact bits_of_split _ _ _ _ _ _ (Nat.mod_lt _ (by positivity)) (Nat.mod_lt _ (by positivity)) rfl

/-- A field above the written one stays. -/
theorem bits_putBits_above (w hi lo v hi' lo' : Nat) (h : lo ≤ hi + 1) (ha : hi < lo') : bits (putBits w hi lo v) hi' lo' = bits w hi' lo' := by
  have key : ∀ b : Nat, b < 2 ^ (hi + 1 - lo) →
      (w % 2 ^ lo + 2 ^ lo * (b + 2 ^ (hi + 1 - lo) * (w / 2 ^ lo / 2 ^ (hi + 1 - lo)))) / 2 ^ (hi + 1) = w / 2 ^ (hi + 1) := by
    intro b hb
    have e : 2 ^ (hi + 1) = 2 ^ lo * 2 ^ (hi + 1 - lo) := by rw [← pow_add]; congr 1; omega
    rw [e, ← Nat.div_div_eq_div_mul, ← Nat.div_div_eq_div_mul, Nat.add_mul_div_left _ _ (by positivity),
      Nat.div_eq_of_lt (Nat.mod_lt _ (by positivity)), Nat.zero_add, Nat.add_mul_div_left _ _ (by positivity), Nat.div_eq_of_lt hb, Nat.zero_add]
  have k1 := key (v % 2 ^ (hi + 1 - lo)) (Nat.mod_lt _ (by positivity))
  rw [← putBits_split w hi lo v h] at k1
  have e : 2 ^ lo' = 2 ^ (hi + 1) * 2 ^ (lo' - (hi + 1)) := by rw [← pow_add]; congr 1; omega
  unfold bits
  rw [Nat.shiftRight_eq_div_pow, Nat.shiftRight_eq_div_pow, e, ← Nat.div_div_eq_div_mul, ← Nat.div_div_eq_div_mul, k1]

/-- A field below the written one stays. -/
theorem bits_putBits_below (w hi lo v hi' lo' : Nat) (h : lo ≤ hi + 1) (ha : hi' < lo) : bits (putBits w hi lo v) hi' lo' = bits w hi' lo' := by
  have key : ∀ x y : Nat, x % 2 ^ lo = y % 2 ^ lo → bits x hi' lo' = bits y hi' lo' := by
    intro x y e
    have small : ∀ z : Nat, bits z hi' lo' = bits (z % 2 ^ lo) hi' lo' := by
      intro z
      unfold bits
      rw [Nat.shiftRight_eq_div_pow, Nat.shiftRight_eq_div_pow]
      by_cases hl : lo' ≤ hi'
      · have e1 : 2 ^ lo = 2 ^ lo' * (2 ^ (hi' + 1 - lo') * 2 ^ (lo - (hi' + 1))) := by
          rw [← pow_add, ← pow_add]; congr 1; omega
        rw [e1, Nat.mod_mul_right_div_self, Nat.mod_mul_right_mod]
      · have : hi' + 1 - lo' = 0 := by omega
        rw [this]; simp [Nat.mod_one]
    rw [small x, small y, e]
  apply key
  rw [putBits_split w hi lo v h, Nat.add_mul_mod_self_left, Nat.mod_mod]

/-- A replaced field keeps a word a word. -/
theorem putBits_lt (w hi lo v n : Nat) (h : lo ≤ hi + 1) (hn : hi < n) (hw : w < 2 ^ n) : putBits w hi lo v < 2 ^ n := by
  rw [putBits_split w hi lo v h]
  have e : 2 ^ n = 2 ^ lo * (2 ^ (hi + 1 - lo) * 2 ^ (n - (hi + 1))) := by rw [← pow_add, ← pow_add]; congr 1; omega
  have hq : w / 2 ^ lo / 2 ^ (hi + 1 - lo) < 2 ^ (n - (hi + 1)) := by
    rw [Nat.div_div_eq_div_mul]
    apply Nat.div_lt_of_lt_mul
    rw [Nat.mul_assoc, ← e]; exact hw
  have hb := Nat.mod_lt v (show 0 < 2 ^ (hi + 1 - lo) by positivity)
  have hr := Nat.mod_lt w (show 0 < 2 ^ lo by positivity)
  generalize w / 2 ^ lo / 2 ^ (hi + 1 - lo) = q at *
  generalize v % 2 ^ (hi + 1 - lo) = b at *
  generalize w % 2 ^ lo = r at *
  rw [e]
  have h1 : b + 2 ^ (hi + 1 - lo) * q + 1 ≤ 2 ^ (hi + 1 - lo) * 2 ^ (n - (hi + 1)) := by
    calc b + 2 ^ (hi + 1 - lo) * q + 1 ≤ 2 ^ (hi + 1 - lo) + 2 ^ (hi + 1 - lo) * q := by omega
      _ = 2 ^ (hi + 1 - lo) * (q + 1) := by ring
      _ ≤ _ := Nat.mul_le_mul_left _ hq
  calc r + 2 ^ lo * (b + 2 ^ (hi + 1 - lo) * q) < 2 ^ lo * (b + 2 ^ (hi + 1 - lo) * q + 1) := by rw [Nat.mul_add (2 ^ lo) _ 1]; omega
    _ ≤ _ := Nat.mul_le_mul_left _ h1

end Sys2Proof.Machine
end

