-- ==== Sys2Proof/Laws/Registers.lean ====
section
/-!
SUPPORT. Laws/Registers.lean: reading after writing in the register file, by whole register and by field.
-/
namespace Sys2Proof.Machine

/-- Kinds of register have different numbers. -/
theorem RegKind.ctorIdx_inj {k k' : RegKind} (h : k.ctorIdx = k'.ctorIdx) : k = k' := by
  have e := congrArg RegKind.ofNat h
  rwa [RegKind.ofNat_ctorIdx, RegKind.ofNat_ctorIdx] at e

/-- Different instances have different keys: every index of the map is below 4,096. -/
theorem RegKind.key_inj {k k' : RegKind} {i j i' j' : Nat} (hi : i < 4096) (hj : j < 4096) (hi' : i' < 4096) (hj' : j' < 4096)
    (h : k.key i j = k'.key i' j') : k = k' ∧ i = i' ∧ j = j' := by
  unfold RegKind.key at h
  exact ⟨RegKind.ctorIdx_inj (by omega), by omega, by omega⟩

/-- Registers of different kinds have different keys. -/
theorem RegKind.key_ne {k k' : RegKind} (h : k ≠ k') (i j i' j' : Nat) : k.key i j ≠ k'.key i' j' := fun e => by
  unfold RegKind.key at e
  exact h (RegKind.ctorIdx_inj (by omega))

/-- Registers of one kind and different first index have different keys. -/
theorem RegKind.key_ne_index {k k' : RegKind} {i i' : Nat} (h : i ≠ i') (hi : i < 4096) (hi' : i' < 4096) (j j' : Nat) :
    k.key i j ≠ k'.key i' j' := fun e => by
  unfold RegKind.key at e
  omega

/-- The kind of a register stands in its key. -/
theorem RegKind.key_div (k : RegKind) (i j : Nat) : k.key i j / 2 ^ 24 = k.ctorIdx := by
  unfold RegKind.key
  omega

theorem State.rd_lt (s : State) (k : RegKind) (i j : Nat) : s.rd k i j < 2 ^ 32 := by
  unfold State.rd
  split <;> exact BitVec.isLt _

/-- A register reads as it was written. -/
@[simp] theorem State.rd_wr_same (s : State) (k : RegKind) (v i j : Nat) : (s.wr k v i j).rd k i j = v % 2 ^ 32 := by
  unfold State.rd State.wr
  simp only [Tbl.get_set_same]
  by_cases h : BitVec.ofNat 32 v = k.resetVal i
  · simp [← h]
  · simp [h]

/-- A write leaves every other register. -/
theorem State.rd_wr_other (s : State) (k k' : RegKind) (v i j i' j' : Nat) (h : k'.key i' j' ≠ k.key i j) :
    (s.wr k v i j).rd k' i' j' = s.rd k' i' j' := by
  unfold State.rd State.wr
  simp only [Tbl.get_set_other _ _ _ _ h]

/-- A write leaves the registers of every other kind. -/
theorem State.rd_wr_kind (s : State) (k k' : RegKind) (v i j i' j' : Nat) (h : k' ≠ k) : (s.wr k v i j).rd k' i' j' = s.rd k' i' j' :=
  State.rd_wr_other s k k' v i j i' j' (RegKind.key_ne h _ _ _ _)

/-- A write leaves the fields of the registers of every other kind. -/
theorem State.fld_wr_kind (s : State) (k : RegKind) (g : Fld) (v i j i' j' : Nat) (h : g.reg ≠ k) : (s.wr k v i j).fld g i' j' = s.fld g i' j' := by
  unfold State.fld
  rw [State.rd_wr_kind _ _ _ _ _ _ _ _ h]

/-- A field reads as it was written. -/
theorem State.fld_setFld_same (s : State) (f : Fld) (v i j : Nat) (h : f.lo ≤ f.hi) (h32 : f.hi < 32) :
    (s.setFld f v i j).fld f i j = v % 2 ^ (f.hi + 1 - f.lo) := by
  unfold State.setFld State.fld
  rw [State.rd_wr_same, Nat.mod_eq_of_lt (putBits_lt _ _ _ _ _ (by omega) h32 (State.rd_lt s f.reg i j)),
    bits_putBits_same _ _ _ _ (by omega)]

/-- A write of a field leaves the fields of every other register. -/
theorem State.fld_setFld_other (s : State) (f g : Fld) (v i j i' j' : Nat) (h : g.reg.key i' j' ≠ f.reg.key i j) :
    (s.setFld f v i j).fld g i' j' = s.fld g i' j' := by
  unfold State.setFld State.fld
  rw [State.rd_wr_other _ _ _ _ _ _ _ _ h]

/-- A write of a field leaves the fields of the registers of every other kind. -/
theorem State.fld_setFld_kind (s : State) (f g : Fld) (v i j i' j' : Nat) (h : g.reg ≠ f.reg) : (s.setFld f v i j).fld g i' j' = s.fld g i' j' :=
  State.fld_wr_kind _ _ _ _ _ _ _ _ h

/-- A write of a field leaves the registers of every other kind. -/
theorem State.rd_setFld_kind (s : State) (f : Fld) (k : RegKind) (v i j i' j' : Nat) (h : k ≠ f.reg) : (s.setFld f v i j).rd k i' j' = s.rd k i' j' :=
  State.rd_wr_kind _ _ _ _ _ _ _ _ h

/-- A write of a field leaves the other fields of its register. -/
theorem State.fld_setFld_beside (s : State) (f g : Fld) (v i j : Nat) (hr : g.reg = f.reg) (h : f.lo ≤ f.hi) (h32 : f.hi < 32)
    (hd : f.hi < g.lo ∨ g.hi < f.lo) : (s.setFld f v i j).fld g i j = s.fld g i j := by
  unfold State.setFld State.fld
  rw [hr, State.rd_wr_same, Nat.mod_eq_of_lt (putBits_lt _ _ _ _ _ (by omega) h32 (State.rd_lt s f.reg i j))]
  rcases hd with hd | hd
  · exact bits_putBits_above _ _ _ _ _ _ (by omega) hd
  · exact bits_putBits_below _ _ _ _ _ _ (by omega) hd

/-- A one-bit field reads as it was set. -/
theorem State.flag_setFlag_same (s : State) (f : Fld) (b : Bool) (i j : Nat) (h : f.hi = f.lo) (h32 : f.hi < 32) :
    (s.setFlag f b i j).flag f i j = b := by
  unfold State.flag State.setFlag
  rw [State.fld_setFld_same _ _ _ _ _ (by omega) h32, h]
  cases b <;> simp [b2n]

/-- A counter field counts, and saturates (R380). -/
theorem State.fld_addTo_same (s : State) (f : Fld) (n i j : Nat) (h : f.lo ≤ f.hi) (h32 : f.hi < 32) :
    (s.addTo f n i j).fld f i j = min f.max (s.fld f i j + n) := by
  unfold State.addTo satAdd
  rw [State.fld_setFld_same _ _ _ _ _ h h32, Nat.mod_eq_of_lt]
  have : 0 < 2 ^ (f.hi + 1 - f.lo) := by positivity
  unfold Fld.max
  omega

/-- The canonical form of the register file is kept by every write of a register. -/
theorem State.regs_wf_wr (s : State) (k : RegKind) (v i j : Nat) (h : s.regs.wf = true) : (s.wr k v i j).regs.wf = true :=
  Tbl.wf_set _ _ _ h

end Sys2Proof.Machine
end

