-- ==== Sys2Proof/Laws/State.lean ====
section
/-!
SUPPORT. Laws/State.lean: what each basic update of the state changes, field by field.
-/
namespace Sys2Proof.Machine

@[simp] theorem State.modCfg_pending (s : State) (f : Cfg → Cfg) : (s.modCfg f).pending = s.pending := (rfl)
@[simp] theorem State.modCfg_freeIdx (s : State) (f : Cfg → Cfg) : (s.modCfg f).freeIdx = s.freeIdx := (rfl)
@[simp] theorem State.modCfg_regs (s : State) (f : Cfg → Cfg) : (s.modCfg f).regs = s.regs := (rfl)
@[simp] theorem State.modCfg_cfg (s : State) (f : Cfg → Cfg) : (s.modCfg f).cfg = f s.cfg := (rfl)
@[simp] theorem State.modCfg_ras (s : State) (f : Cfg → Cfg) : (s.modCfg f).ras = s.ras := (rfl)
@[simp] theorem State.modCfg_strm (s : State) (f : Cfg → Cfg) : (s.modCfg f).strm = s.strm := (rfl)
@[simp] theorem State.modCfg_time (s : State) (f : Cfg → Cfg) : (s.modCfg f).time = s.time := (rfl)
@[simp] theorem State.modCfg_ports (s : State) (f : Cfg → Cfg) : (s.modCfg f).ports = s.ports := (rfl)
@[simp] theorem State.modCfg_pool (s : State) (f : Cfg → Cfg) : (s.modCfg f).pool = s.pool := (rfl)
@[simp] theorem State.modCfg_seals (s : State) (f : Cfg → Cfg) : (s.modCfg f).seals = s.seals := (rfl)
@[simp] theorem State.modCfg_blm (s : State) (f : Cfg → Cfg) : (s.modCfg f).blm = s.blm := (rfl)
@[simp] theorem State.modCfg_tf (s : State) (f : Cfg → Cfg) : (s.modCfg f).tf = s.tf := (rfl)
@[simp] theorem State.modCfg_prd (s : State) (f : Cfg → Cfg) : (s.modCfg f).prd = s.prd := (rfl)
@[simp] theorem State.modCfg_gwp (s : State) (f : Cfg → Cfg) : (s.modCfg f).gwp = s.gwp := (rfl)
@[simp] theorem State.modCfg_gwl (s : State) (f : Cfg → Cfg) : (s.modCfg f).gwl = s.gwl := (rfl)
@[simp] theorem State.modCfg_hqe (s : State) (f : Cfg → Cfg) : (s.modCfg f).hqe = s.hqe := (rfl)
@[simp] theorem State.modCfg_smb (s : State) (f : Cfg → Cfg) : (s.modCfg f).smb = s.smb := (rfl)
@[simp] theorem State.modCfg_lup (s : State) (f : Cfg → Cfg) : (s.modCfg f).lup = s.lup := (rfl)
@[simp] theorem State.modCfg_fcl (s : State) (f : Cfg → Cfg) : (s.modCfg f).fcl = s.fcl := (rfl)
@[simp] theorem State.modCfg_disp (s : State) (f : Cfg → Cfg) : (s.modCfg f).disp = s.disp := (rfl)
@[simp] theorem State.modCfg_mgd (s : State) (f : Cfg → Cfg) : (s.modCfg f).mgd = s.mgd := (rfl)
@[simp] theorem State.modCfg_vbr (s : State) (f : Cfg → Cfg) : (s.modCfg f).vbr = s.vbr := (rfl)
@[simp] theorem State.modCfg_sec (s : State) (f : Cfg → Cfg) : (s.modCfg f).sec = s.sec := (rfl)
@[simp] theorem State.modCfg_fst (s : State) (f : Cfg → Cfg) : (s.modCfg f).fst = s.fst := (rfl)
@[simp] theorem State.modCfg_egv (s : State) (f : Cfg → Cfg) : (s.modCfg f).egv = s.egv := (rfl)
@[simp] theorem State.modCfg_pmu (s : State) (f : Cfg → Cfg) : (s.modCfg f).pmu = s.pmu := (rfl)
@[simp] theorem State.modCfg_hiLatch (s : State) (f : Cfg → Cfg) : (s.modCfg f).hiLatch = s.hiLatch := (rfl)
@[simp] theorem State.modCfg_out (s : State) (f : Cfg → Cfg) : (s.modCfg f).out = s.out := (rfl)

@[simp] theorem State.modRas_pending (s : State) (n : Nat) (f : Raster → Raster) : (s.modRas n f).pending = s.pending := (rfl)
@[simp] theorem State.modRas_freeIdx (s : State) (n : Nat) (f : Raster → Raster) : (s.modRas n f).freeIdx = s.freeIdx := (rfl)
@[simp] theorem State.modRas_regs (s : State) (n : Nat) (f : Raster → Raster) : (s.modRas n f).regs = s.regs := (rfl)
@[simp] theorem State.modRas_cfg (s : State) (n : Nat) (f : Raster → Raster) : (s.modRas n f).cfg = s.cfg := (rfl)
@[simp] theorem State.modRas_ras (s : State) (n : Nat) (f : Raster → Raster) : (s.modRas n f).ras = s.ras.upd n f := (rfl)
@[simp] theorem State.modRas_strm (s : State) (n : Nat) (f : Raster → Raster) : (s.modRas n f).strm = s.strm := (rfl)
@[simp] theorem State.modRas_time (s : State) (n : Nat) (f : Raster → Raster) : (s.modRas n f).time = s.time := (rfl)
@[simp] theorem State.modRas_ports (s : State) (n : Nat) (f : Raster → Raster) : (s.modRas n f).ports = s.ports := (rfl)
@[simp] theorem State.modRas_pool (s : State) (n : Nat) (f : Raster → Raster) : (s.modRas n f).pool = s.pool := (rfl)
@[simp] theorem State.modRas_seals (s : State) (n : Nat) (f : Raster → Raster) : (s.modRas n f).seals = s.seals := (rfl)
@[simp] theorem State.modRas_blm (s : State) (n : Nat) (f : Raster → Raster) : (s.modRas n f).blm = s.blm := (rfl)
@[simp] theorem State.modRas_tf (s : State) (n : Nat) (f : Raster → Raster) : (s.modRas n f).tf = s.tf := (rfl)
@[simp] theorem State.modRas_prd (s : State) (n : Nat) (f : Raster → Raster) : (s.modRas n f).prd = s.prd := (rfl)
@[simp] theorem State.modRas_gwp (s : State) (n : Nat) (f : Raster → Raster) : (s.modRas n f).gwp = s.gwp := (rfl)
@[simp] theorem State.modRas_gwl (s : State) (n : Nat) (f : Raster → Raster) : (s.modRas n f).gwl = s.gwl := (rfl)
@[simp] theorem State.modRas_hqe (s : State) (n : Nat) (f : Raster → Raster) : (s.modRas n f).hqe = s.hqe := (rfl)
@[simp] theorem State.modRas_smb (s : State) (n : Nat) (f : Raster → Raster) : (s.modRas n f).smb = s.smb := (rfl)
@[simp] theorem State.modRas_lup (s : State) (n : Nat) (f : Raster → Raster) : (s.modRas n f).lup = s.lup := (rfl)
@[simp] theorem State.modRas_fcl (s : State) (n : Nat) (f : Raster → Raster) : (s.modRas n f).fcl = s.fcl := (rfl)
@[simp] theorem State.modRas_disp (s : State) (n : Nat) (f : Raster → Raster) : (s.modRas n f).disp = s.disp := (rfl)
@[simp] theorem State.modRas_mgd (s : State) (n : Nat) (f : Raster → Raster) : (s.modRas n f).mgd = s.mgd := (rfl)
@[simp] theorem State.modRas_vbr (s : State) (n : Nat) (f : Raster → Raster) : (s.modRas n f).vbr = s.vbr := (rfl)
@[simp] theorem State.modRas_sec (s : State) (n : Nat) (f : Raster → Raster) : (s.modRas n f).sec = s.sec := (rfl)
@[simp] theorem State.modRas_fst (s : State) (n : Nat) (f : Raster → Raster) : (s.modRas n f).fst = s.fst := (rfl)
@[simp] theorem State.modRas_egv (s : State) (n : Nat) (f : Raster → Raster) : (s.modRas n f).egv = s.egv := (rfl)
@[simp] theorem State.modRas_pmu (s : State) (n : Nat) (f : Raster → Raster) : (s.modRas n f).pmu = s.pmu := (rfl)
@[simp] theorem State.modRas_hiLatch (s : State) (n : Nat) (f : Raster → Raster) : (s.modRas n f).hiLatch = s.hiLatch := (rfl)
@[simp] theorem State.modRas_out (s : State) (n : Nat) (f : Raster → Raster) : (s.modRas n f).out = s.out := (rfl)

@[simp] theorem State.modStrm_pending (s : State) (n : Nat) (f : Stream → Stream) : (s.modStrm n f).pending = s.pending := (rfl)
@[simp] theorem State.modStrm_freeIdx (s : State) (n : Nat) (f : Stream → Stream) : (s.modStrm n f).freeIdx = s.freeIdx := (rfl)
@[simp] theorem State.modStrm_regs (s : State) (n : Nat) (f : Stream → Stream) : (s.modStrm n f).regs = s.regs := (rfl)
@[simp] theorem State.modStrm_cfg (s : State) (n : Nat) (f : Stream → Stream) : (s.modStrm n f).cfg = s.cfg := (rfl)
@[simp] theorem State.modStrm_ras (s : State) (n : Nat) (f : Stream → Stream) : (s.modStrm n f).ras = s.ras := (rfl)
@[simp] theorem State.modStrm_strm (s : State) (n : Nat) (f : Stream → Stream) : (s.modStrm n f).strm = s.strm.upd n f := (rfl)
@[simp] theorem State.modStrm_time (s : State) (n : Nat) (f : Stream → Stream) : (s.modStrm n f).time = s.time := (rfl)
@[simp] theorem State.modStrm_ports (s : State) (n : Nat) (f : Stream → Stream) : (s.modStrm n f).ports = s.ports := (rfl)
@[simp] theorem State.modStrm_pool (s : State) (n : Nat) (f : Stream → Stream) : (s.modStrm n f).pool = s.pool := (rfl)
@[simp] theorem State.modStrm_seals (s : State) (n : Nat) (f : Stream → Stream) : (s.modStrm n f).seals = s.seals := (rfl)
@[simp] theorem State.modStrm_blm (s : State) (n : Nat) (f : Stream → Stream) : (s.modStrm n f).blm = s.blm := (rfl)
@[simp] theorem State.modStrm_tf (s : State) (n : Nat) (f : Stream → Stream) : (s.modStrm n f).tf = s.tf := (rfl)
@[simp] theorem State.modStrm_prd (s : State) (n : Nat) (f : Stream → Stream) : (s.modStrm n f).prd = s.prd := (rfl)
@[simp] theorem State.modStrm_gwp (s : State) (n : Nat) (f : Stream → Stream) : (s.modStrm n f).gwp = s.gwp := (rfl)
@[simp] theorem State.modStrm_gwl (s : State) (n : Nat) (f : Stream → Stream) : (s.modStrm n f).gwl = s.gwl := (rfl)
@[simp] theorem State.modStrm_hqe (s : State) (n : Nat) (f : Stream → Stream) : (s.modStrm n f).hqe = s.hqe := (rfl)
@[simp] theorem State.modStrm_smb (s : State) (n : Nat) (f : Stream → Stream) : (s.modStrm n f).smb = s.smb := (rfl)
@[simp] theorem State.modStrm_lup (s : State) (n : Nat) (f : Stream → Stream) : (s.modStrm n f).lup = s.lup := (rfl)
@[simp] theorem State.modStrm_fcl (s : State) (n : Nat) (f : Stream → Stream) : (s.modStrm n f).fcl = s.fcl := (rfl)
@[simp] theorem State.modStrm_disp (s : State) (n : Nat) (f : Stream → Stream) : (s.modStrm n f).disp = s.disp := (rfl)
@[simp] theorem State.modStrm_mgd (s : State) (n : Nat) (f : Stream → Stream) : (s.modStrm n f).mgd = s.mgd := (rfl)
@[simp] theorem State.modStrm_vbr (s : State) (n : Nat) (f : Stream → Stream) : (s.modStrm n f).vbr = s.vbr := (rfl)
@[simp] theorem State.modStrm_sec (s : State) (n : Nat) (f : Stream → Stream) : (s.modStrm n f).sec = s.sec := (rfl)
@[simp] theorem State.modStrm_fst (s : State) (n : Nat) (f : Stream → Stream) : (s.modStrm n f).fst = s.fst := (rfl)
@[simp] theorem State.modStrm_egv (s : State) (n : Nat) (f : Stream → Stream) : (s.modStrm n f).egv = s.egv := (rfl)
@[simp] theorem State.modStrm_pmu (s : State) (n : Nat) (f : Stream → Stream) : (s.modStrm n f).pmu = s.pmu := (rfl)
@[simp] theorem State.modStrm_hiLatch (s : State) (n : Nat) (f : Stream → Stream) : (s.modStrm n f).hiLatch = s.hiLatch := (rfl)
@[simp] theorem State.modStrm_out (s : State) (n : Nat) (f : Stream → Stream) : (s.modStrm n f).out = s.out := (rfl)

@[simp] theorem State.modTime_pending (s : State) (f : Time → Time) : (s.modTime f).pending = s.pending := (rfl)
@[simp] theorem State.modTime_freeIdx (s : State) (f : Time → Time) : (s.modTime f).freeIdx = s.freeIdx := (rfl)
@[simp] theorem State.modTime_regs (s : State) (f : Time → Time) : (s.modTime f).regs = s.regs := (rfl)
@[simp] theorem State.modTime_cfg (s : State) (f : Time → Time) : (s.modTime f).cfg = s.cfg := (rfl)
@[simp] theorem State.modTime_ras (s : State) (f : Time → Time) : (s.modTime f).ras = s.ras := (rfl)
@[simp] theorem State.modTime_strm (s : State) (f : Time → Time) : (s.modTime f).strm = s.strm := (rfl)
@[simp] theorem State.modTime_time (s : State) (f : Time → Time) : (s.modTime f).time = f s.time := (rfl)
@[simp] theorem State.modTime_ports (s : State) (f : Time → Time) : (s.modTime f).ports = s.ports := (rfl)
@[simp] theorem State.modTime_pool (s : State) (f : Time → Time) : (s.modTime f).pool = s.pool := (rfl)
@[simp] theorem State.modTime_seals (s : State) (f : Time → Time) : (s.modTime f).seals = s.seals := (rfl)
@[simp] theorem State.modTime_blm (s : State) (f : Time → Time) : (s.modTime f).blm = s.blm := (rfl)
@[simp] theorem State.modTime_tf (s : State) (f : Time → Time) : (s.modTime f).tf = s.tf := (rfl)
@[simp] theorem State.modTime_prd (s : State) (f : Time → Time) : (s.modTime f).prd = s.prd := (rfl)
@[simp] theorem State.modTime_gwp (s : State) (f : Time → Time) : (s.modTime f).gwp = s.gwp := (rfl)
@[simp] theorem State.modTime_gwl (s : State) (f : Time → Time) : (s.modTime f).gwl = s.gwl := (rfl)
@[simp] theorem State.modTime_hqe (s : State) (f : Time → Time) : (s.modTime f).hqe = s.hqe := (rfl)
@[simp] theorem State.modTime_smb (s : State) (f : Time → Time) : (s.modTime f).smb = s.smb := (rfl)
@[simp] theorem State.modTime_lup (s : State) (f : Time → Time) : (s.modTime f).lup = s.lup := (rfl)
@[simp] theorem State.modTime_fcl (s : State) (f : Time → Time) : (s.modTime f).fcl = s.fcl := (rfl)
@[simp] theorem State.modTime_disp (s : State) (f : Time → Time) : (s.modTime f).disp = s.disp := (rfl)
@[simp] theorem State.modTime_mgd (s : State) (f : Time → Time) : (s.modTime f).mgd = s.mgd := (rfl)
@[simp] theorem State.modTime_vbr (s : State) (f : Time → Time) : (s.modTime f).vbr = s.vbr := (rfl)
@[simp] theorem State.modTime_sec (s : State) (f : Time → Time) : (s.modTime f).sec = s.sec := (rfl)
@[simp] theorem State.modTime_fst (s : State) (f : Time → Time) : (s.modTime f).fst = s.fst := (rfl)
@[simp] theorem State.modTime_egv (s : State) (f : Time → Time) : (s.modTime f).egv = s.egv := (rfl)
@[simp] theorem State.modTime_pmu (s : State) (f : Time → Time) : (s.modTime f).pmu = s.pmu := (rfl)
@[simp] theorem State.modTime_hiLatch (s : State) (f : Time → Time) : (s.modTime f).hiLatch = s.hiLatch := (rfl)
@[simp] theorem State.modTime_out (s : State) (f : Time → Time) : (s.modTime f).out = s.out := (rfl)

@[simp] theorem State.modGwl_pending (s : State) (f : Gwl → Gwl) : (s.modGwl f).pending = s.pending := (rfl)
@[simp] theorem State.modGwl_freeIdx (s : State) (f : Gwl → Gwl) : (s.modGwl f).freeIdx = s.freeIdx := (rfl)
@[simp] theorem State.modGwl_regs (s : State) (f : Gwl → Gwl) : (s.modGwl f).regs = s.regs := (rfl)
@[simp] theorem State.modGwl_cfg (s : State) (f : Gwl → Gwl) : (s.modGwl f).cfg = s.cfg := (rfl)
@[simp] theorem State.modGwl_ras (s : State) (f : Gwl → Gwl) : (s.modGwl f).ras = s.ras := (rfl)
@[simp] theorem State.modGwl_strm (s : State) (f : Gwl → Gwl) : (s.modGwl f).strm = s.strm := (rfl)
@[simp] theorem State.modGwl_time (s : State) (f : Gwl → Gwl) : (s.modGwl f).time = s.time := (rfl)
@[simp] theorem State.modGwl_ports (s : State) (f : Gwl → Gwl) : (s.modGwl f).ports = s.ports := (rfl)
@[simp] theorem State.modGwl_pool (s : State) (f : Gwl → Gwl) : (s.modGwl f).pool = s.pool := (rfl)
@[simp] theorem State.modGwl_seals (s : State) (f : Gwl → Gwl) : (s.modGwl f).seals = s.seals := (rfl)
@[simp] theorem State.modGwl_blm (s : State) (f : Gwl → Gwl) : (s.modGwl f).blm = s.blm := (rfl)
@[simp] theorem State.modGwl_tf (s : State) (f : Gwl → Gwl) : (s.modGwl f).tf = s.tf := (rfl)
@[simp] theorem State.modGwl_prd (s : State) (f : Gwl → Gwl) : (s.modGwl f).prd = s.prd := (rfl)
@[simp] theorem State.modGwl_gwp (s : State) (f : Gwl → Gwl) : (s.modGwl f).gwp = s.gwp := (rfl)
@[simp] theorem State.modGwl_gwl (s : State) (f : Gwl → Gwl) : (s.modGwl f).gwl = f s.gwl := (rfl)
@[simp] theorem State.modGwl_hqe (s : State) (f : Gwl → Gwl) : (s.modGwl f).hqe = s.hqe := (rfl)
@[simp] theorem State.modGwl_smb (s : State) (f : Gwl → Gwl) : (s.modGwl f).smb = s.smb := (rfl)
@[simp] theorem State.modGwl_lup (s : State) (f : Gwl → Gwl) : (s.modGwl f).lup = s.lup := (rfl)
@[simp] theorem State.modGwl_fcl (s : State) (f : Gwl → Gwl) : (s.modGwl f).fcl = s.fcl := (rfl)
@[simp] theorem State.modGwl_disp (s : State) (f : Gwl → Gwl) : (s.modGwl f).disp = s.disp := (rfl)
@[simp] theorem State.modGwl_mgd (s : State) (f : Gwl → Gwl) : (s.modGwl f).mgd = s.mgd := (rfl)
@[simp] theorem State.modGwl_vbr (s : State) (f : Gwl → Gwl) : (s.modGwl f).vbr = s.vbr := (rfl)
@[simp] theorem State.modGwl_sec (s : State) (f : Gwl → Gwl) : (s.modGwl f).sec = s.sec := (rfl)
@[simp] theorem State.modGwl_fst (s : State) (f : Gwl → Gwl) : (s.modGwl f).fst = s.fst := (rfl)
@[simp] theorem State.modGwl_egv (s : State) (f : Gwl → Gwl) : (s.modGwl f).egv = s.egv := (rfl)
@[simp] theorem State.modGwl_pmu (s : State) (f : Gwl → Gwl) : (s.modGwl f).pmu = s.pmu := (rfl)
@[simp] theorem State.modGwl_hiLatch (s : State) (f : Gwl → Gwl) : (s.modGwl f).hiLatch = s.hiLatch := (rfl)
@[simp] theorem State.modGwl_out (s : State) (f : Gwl → Gwl) : (s.modGwl f).out = s.out := (rfl)

@[simp] theorem State.modHqe_pending (s : State) (f : Hqe → Hqe) : (s.modHqe f).pending = s.pending := (rfl)
@[simp] theorem State.modHqe_freeIdx (s : State) (f : Hqe → Hqe) : (s.modHqe f).freeIdx = s.freeIdx := (rfl)
@[simp] theorem State.modHqe_regs (s : State) (f : Hqe → Hqe) : (s.modHqe f).regs = s.regs := (rfl)
@[simp] theorem State.modHqe_cfg (s : State) (f : Hqe → Hqe) : (s.modHqe f).cfg = s.cfg := (rfl)
@[simp] theorem State.modHqe_ras (s : State) (f : Hqe → Hqe) : (s.modHqe f).ras = s.ras := (rfl)
@[simp] theorem State.modHqe_strm (s : State) (f : Hqe → Hqe) : (s.modHqe f).strm = s.strm := (rfl)
@[simp] theorem State.modHqe_time (s : State) (f : Hqe → Hqe) : (s.modHqe f).time = s.time := (rfl)
@[simp] theorem State.modHqe_ports (s : State) (f : Hqe → Hqe) : (s.modHqe f).ports = s.ports := (rfl)
@[simp] theorem State.modHqe_pool (s : State) (f : Hqe → Hqe) : (s.modHqe f).pool = s.pool := (rfl)
@[simp] theorem State.modHqe_seals (s : State) (f : Hqe → Hqe) : (s.modHqe f).seals = s.seals := (rfl)
@[simp] theorem State.modHqe_blm (s : State) (f : Hqe → Hqe) : (s.modHqe f).blm = s.blm := (rfl)
@[simp] theorem State.modHqe_tf (s : State) (f : Hqe → Hqe) : (s.modHqe f).tf = s.tf := (rfl)
@[simp] theorem State.modHqe_prd (s : State) (f : Hqe → Hqe) : (s.modHqe f).prd = s.prd := (rfl)
@[simp] theorem State.modHqe_gwp (s : State) (f : Hqe → Hqe) : (s.modHqe f).gwp = s.gwp := (rfl)
@[simp] theorem State.modHqe_gwl (s : State) (f : Hqe → Hqe) : (s.modHqe f).gwl = s.gwl := (rfl)
@[simp] theorem State.modHqe_hqe (s : State) (f : Hqe → Hqe) : (s.modHqe f).hqe = f s.hqe := (rfl)
@[simp] theorem State.modHqe_smb (s : State) (f : Hqe → Hqe) : (s.modHqe f).smb = s.smb := (rfl)
@[simp] theorem State.modHqe_lup (s : State) (f : Hqe → Hqe) : (s.modHqe f).lup = s.lup := (rfl)
@[simp] theorem State.modHqe_fcl (s : State) (f : Hqe → Hqe) : (s.modHqe f).fcl = s.fcl := (rfl)
@[simp] theorem State.modHqe_disp (s : State) (f : Hqe → Hqe) : (s.modHqe f).disp = s.disp := (rfl)
@[simp] theorem State.modHqe_mgd (s : State) (f : Hqe → Hqe) : (s.modHqe f).mgd = s.mgd := (rfl)
@[simp] theorem State.modHqe_vbr (s : State) (f : Hqe → Hqe) : (s.modHqe f).vbr = s.vbr := (rfl)
@[simp] theorem State.modHqe_sec (s : State) (f : Hqe → Hqe) : (s.modHqe f).sec = s.sec := (rfl)
@[simp] theorem State.modHqe_fst (s : State) (f : Hqe → Hqe) : (s.modHqe f).fst = s.fst := (rfl)
@[simp] theorem State.modHqe_egv (s : State) (f : Hqe → Hqe) : (s.modHqe f).egv = s.egv := (rfl)
@[simp] theorem State.modHqe_pmu (s : State) (f : Hqe → Hqe) : (s.modHqe f).pmu = s.pmu := (rfl)
@[simp] theorem State.modHqe_hiLatch (s : State) (f : Hqe → Hqe) : (s.modHqe f).hiLatch = s.hiLatch := (rfl)
@[simp] theorem State.modHqe_out (s : State) (f : Hqe → Hqe) : (s.modHqe f).out = s.out := (rfl)

@[simp] theorem State.modLup_pending (s : State) (f : Lup → Lup) : (s.modLup f).pending = s.pending := (rfl)
@[simp] theorem State.modLup_freeIdx (s : State) (f : Lup → Lup) : (s.modLup f).freeIdx = s.freeIdx := (rfl)
@[simp] theorem State.modLup_regs (s : State) (f : Lup → Lup) : (s.modLup f).regs = s.regs := (rfl)
@[simp] theorem State.modLup_cfg (s : State) (f : Lup → Lup) : (s.modLup f).cfg = s.cfg := (rfl)
@[simp] theorem State.modLup_ras (s : State) (f : Lup → Lup) : (s.modLup f).ras = s.ras := (rfl)
@[simp] theorem State.modLup_strm (s : State) (f : Lup → Lup) : (s.modLup f).strm = s.strm := (rfl)
@[simp] theorem State.modLup_time (s : State) (f : Lup → Lup) : (s.modLup f).time = s.time := (rfl)
@[simp] theorem State.modLup_ports (s : State) (f : Lup → Lup) : (s.modLup f).ports = s.ports := (rfl)
@[simp] theorem State.modLup_pool (s : State) (f : Lup → Lup) : (s.modLup f).pool = s.pool := (rfl)
@[simp] theorem State.modLup_seals (s : State) (f : Lup → Lup) : (s.modLup f).seals = s.seals := (rfl)
@[simp] theorem State.modLup_blm (s : State) (f : Lup → Lup) : (s.modLup f).blm = s.blm := (rfl)
@[simp] theorem State.modLup_tf (s : State) (f : Lup → Lup) : (s.modLup f).tf = s.tf := (rfl)
@[simp] theorem State.modLup_prd (s : State) (f : Lup → Lup) : (s.modLup f).prd = s.prd := (rfl)
@[simp] theorem State.modLup_gwp (s : State) (f : Lup → Lup) : (s.modLup f).gwp = s.gwp := (rfl)
@[simp] theorem State.modLup_gwl (s : State) (f : Lup → Lup) : (s.modLup f).gwl = s.gwl := (rfl)
@[simp] theorem State.modLup_hqe (s : State) (f : Lup → Lup) : (s.modLup f).hqe = s.hqe := (rfl)
@[simp] theorem State.modLup_smb (s : State) (f : Lup → Lup) : (s.modLup f).smb = s.smb := (rfl)
@[simp] theorem State.modLup_lup (s : State) (f : Lup → Lup) : (s.modLup f).lup = f s.lup := (rfl)
@[simp] theorem State.modLup_fcl (s : State) (f : Lup → Lup) : (s.modLup f).fcl = s.fcl := (rfl)
@[simp] theorem State.modLup_disp (s : State) (f : Lup → Lup) : (s.modLup f).disp = s.disp := (rfl)
@[simp] theorem State.modLup_mgd (s : State) (f : Lup → Lup) : (s.modLup f).mgd = s.mgd := (rfl)
@[simp] theorem State.modLup_vbr (s : State) (f : Lup → Lup) : (s.modLup f).vbr = s.vbr := (rfl)
@[simp] theorem State.modLup_sec (s : State) (f : Lup → Lup) : (s.modLup f).sec = s.sec := (rfl)
@[simp] theorem State.modLup_fst (s : State) (f : Lup → Lup) : (s.modLup f).fst = s.fst := (rfl)
@[simp] theorem State.modLup_egv (s : State) (f : Lup → Lup) : (s.modLup f).egv = s.egv := (rfl)
@[simp] theorem State.modLup_pmu (s : State) (f : Lup → Lup) : (s.modLup f).pmu = s.pmu := (rfl)
@[simp] theorem State.modLup_hiLatch (s : State) (f : Lup → Lup) : (s.modLup f).hiLatch = s.hiLatch := (rfl)
@[simp] theorem State.modLup_out (s : State) (f : Lup → Lup) : (s.modLup f).out = s.out := (rfl)

@[simp] theorem State.modDisp_pending (s : State) (n : Nat) (f : Disp → Disp) : (s.modDisp n f).pending = s.pending := (rfl)
@[simp] theorem State.modDisp_freeIdx (s : State) (n : Nat) (f : Disp → Disp) : (s.modDisp n f).freeIdx = s.freeIdx := (rfl)
@[simp] theorem State.modDisp_regs (s : State) (n : Nat) (f : Disp → Disp) : (s.modDisp n f).regs = s.regs := (rfl)
@[simp] theorem State.modDisp_cfg (s : State) (n : Nat) (f : Disp → Disp) : (s.modDisp n f).cfg = s.cfg := (rfl)
@[simp] theorem State.modDisp_ras (s : State) (n : Nat) (f : Disp → Disp) : (s.modDisp n f).ras = s.ras := (rfl)
@[simp] theorem State.modDisp_strm (s : State) (n : Nat) (f : Disp → Disp) : (s.modDisp n f).strm = s.strm := (rfl)
@[simp] theorem State.modDisp_time (s : State) (n : Nat) (f : Disp → Disp) : (s.modDisp n f).time = s.time := (rfl)
@[simp] theorem State.modDisp_ports (s : State) (n : Nat) (f : Disp → Disp) : (s.modDisp n f).ports = s.ports := (rfl)
@[simp] theorem State.modDisp_pool (s : State) (n : Nat) (f : Disp → Disp) : (s.modDisp n f).pool = s.pool := (rfl)
@[simp] theorem State.modDisp_seals (s : State) (n : Nat) (f : Disp → Disp) : (s.modDisp n f).seals = s.seals := (rfl)
@[simp] theorem State.modDisp_blm (s : State) (n : Nat) (f : Disp → Disp) : (s.modDisp n f).blm = s.blm := (rfl)
@[simp] theorem State.modDisp_tf (s : State) (n : Nat) (f : Disp → Disp) : (s.modDisp n f).tf = s.tf := (rfl)
@[simp] theorem State.modDisp_prd (s : State) (n : Nat) (f : Disp → Disp) : (s.modDisp n f).prd = s.prd := (rfl)
@[simp] theorem State.modDisp_gwp (s : State) (n : Nat) (f : Disp → Disp) : (s.modDisp n f).gwp = s.gwp := (rfl)
@[simp] theorem State.modDisp_gwl (s : State) (n : Nat) (f : Disp → Disp) : (s.modDisp n f).gwl = s.gwl := (rfl)
@[simp] theorem State.modDisp_hqe (s : State) (n : Nat) (f : Disp → Disp) : (s.modDisp n f).hqe = s.hqe := (rfl)
@[simp] theorem State.modDisp_smb (s : State) (n : Nat) (f : Disp → Disp) : (s.modDisp n f).smb = s.smb := (rfl)
@[simp] theorem State.modDisp_lup (s : State) (n : Nat) (f : Disp → Disp) : (s.modDisp n f).lup = s.lup := (rfl)
@[simp] theorem State.modDisp_fcl (s : State) (n : Nat) (f : Disp → Disp) : (s.modDisp n f).fcl = s.fcl := (rfl)
@[simp] theorem State.modDisp_disp (s : State) (n : Nat) (f : Disp → Disp) : (s.modDisp n f).disp = s.disp.upd n f := (rfl)
@[simp] theorem State.modDisp_mgd (s : State) (n : Nat) (f : Disp → Disp) : (s.modDisp n f).mgd = s.mgd := (rfl)
@[simp] theorem State.modDisp_vbr (s : State) (n : Nat) (f : Disp → Disp) : (s.modDisp n f).vbr = s.vbr := (rfl)
@[simp] theorem State.modDisp_sec (s : State) (n : Nat) (f : Disp → Disp) : (s.modDisp n f).sec = s.sec := (rfl)
@[simp] theorem State.modDisp_fst (s : State) (n : Nat) (f : Disp → Disp) : (s.modDisp n f).fst = s.fst := (rfl)
@[simp] theorem State.modDisp_egv (s : State) (n : Nat) (f : Disp → Disp) : (s.modDisp n f).egv = s.egv := (rfl)
@[simp] theorem State.modDisp_pmu (s : State) (n : Nat) (f : Disp → Disp) : (s.modDisp n f).pmu = s.pmu := (rfl)
@[simp] theorem State.modDisp_hiLatch (s : State) (n : Nat) (f : Disp → Disp) : (s.modDisp n f).hiLatch = s.hiLatch := (rfl)
@[simp] theorem State.modDisp_out (s : State) (n : Nat) (f : Disp → Disp) : (s.modDisp n f).out = s.out := (rfl)

@[simp] theorem State.modMgd_pending (s : State) (f : Mgd → Mgd) : (s.modMgd f).pending = s.pending := (rfl)
@[simp] theorem State.modMgd_freeIdx (s : State) (f : Mgd → Mgd) : (s.modMgd f).freeIdx = s.freeIdx := (rfl)
@[simp] theorem State.modMgd_regs (s : State) (f : Mgd → Mgd) : (s.modMgd f).regs = s.regs := (rfl)
@[simp] theorem State.modMgd_cfg (s : State) (f : Mgd → Mgd) : (s.modMgd f).cfg = s.cfg := (rfl)
@[simp] theorem State.modMgd_ras (s : State) (f : Mgd → Mgd) : (s.modMgd f).ras = s.ras := (rfl)
@[simp] theorem State.modMgd_strm (s : State) (f : Mgd → Mgd) : (s.modMgd f).strm = s.strm := (rfl)
@[simp] theorem State.modMgd_time (s : State) (f : Mgd → Mgd) : (s.modMgd f).time = s.time := (rfl)
@[simp] theorem State.modMgd_ports (s : State) (f : Mgd → Mgd) : (s.modMgd f).ports = s.ports := (rfl)
@[simp] theorem State.modMgd_pool (s : State) (f : Mgd → Mgd) : (s.modMgd f).pool = s.pool := (rfl)
@[simp] theorem State.modMgd_seals (s : State) (f : Mgd → Mgd) : (s.modMgd f).seals = s.seals := (rfl)
@[simp] theorem State.modMgd_blm (s : State) (f : Mgd → Mgd) : (s.modMgd f).blm = s.blm := (rfl)
@[simp] theorem State.modMgd_tf (s : State) (f : Mgd → Mgd) : (s.modMgd f).tf = s.tf := (rfl)
@[simp] theorem State.modMgd_prd (s : State) (f : Mgd → Mgd) : (s.modMgd f).prd = s.prd := (rfl)
@[simp] theorem State.modMgd_gwp (s : State) (f : Mgd → Mgd) : (s.modMgd f).gwp = s.gwp := (rfl)
@[simp] theorem State.modMgd_gwl (s : State) (f : Mgd → Mgd) : (s.modMgd f).gwl = s.gwl := (rfl)
@[simp] theorem State.modMgd_hqe (s : State) (f : Mgd → Mgd) : (s.modMgd f).hqe = s.hqe := (rfl)
@[simp] theorem State.modMgd_smb (s : State) (f : Mgd → Mgd) : (s.modMgd f).smb = s.smb := (rfl)
@[simp] theorem State.modMgd_lup (s : State) (f : Mgd → Mgd) : (s.modMgd f).lup = s.lup := (rfl)
@[simp] theorem State.modMgd_fcl (s : State) (f : Mgd → Mgd) : (s.modMgd f).fcl = s.fcl := (rfl)
@[simp] theorem State.modMgd_disp (s : State) (f : Mgd → Mgd) : (s.modMgd f).disp = s.disp := (rfl)
@[simp] theorem State.modMgd_mgd (s : State) (f : Mgd → Mgd) : (s.modMgd f).mgd = f s.mgd := (rfl)
@[simp] theorem State.modMgd_vbr (s : State) (f : Mgd → Mgd) : (s.modMgd f).vbr = s.vbr := (rfl)
@[simp] theorem State.modMgd_sec (s : State) (f : Mgd → Mgd) : (s.modMgd f).sec = s.sec := (rfl)
@[simp] theorem State.modMgd_fst (s : State) (f : Mgd → Mgd) : (s.modMgd f).fst = s.fst := (rfl)
@[simp] theorem State.modMgd_egv (s : State) (f : Mgd → Mgd) : (s.modMgd f).egv = s.egv := (rfl)
@[simp] theorem State.modMgd_pmu (s : State) (f : Mgd → Mgd) : (s.modMgd f).pmu = s.pmu := (rfl)
@[simp] theorem State.modMgd_hiLatch (s : State) (f : Mgd → Mgd) : (s.modMgd f).hiLatch = s.hiLatch := (rfl)
@[simp] theorem State.modMgd_out (s : State) (f : Mgd → Mgd) : (s.modMgd f).out = s.out := (rfl)

@[simp] theorem State.modVbr_pending (s : State) (f : Vbr → Vbr) : (s.modVbr f).pending = s.pending := (rfl)
@[simp] theorem State.modVbr_freeIdx (s : State) (f : Vbr → Vbr) : (s.modVbr f).freeIdx = s.freeIdx := (rfl)
@[simp] theorem State.modVbr_regs (s : State) (f : Vbr → Vbr) : (s.modVbr f).regs = s.regs := (rfl)
@[simp] theorem State.modVbr_cfg (s : State) (f : Vbr → Vbr) : (s.modVbr f).cfg = s.cfg := (rfl)
@[simp] theorem State.modVbr_ras (s : State) (f : Vbr → Vbr) : (s.modVbr f).ras = s.ras := (rfl)
@[simp] theorem State.modVbr_strm (s : State) (f : Vbr → Vbr) : (s.modVbr f).strm = s.strm := (rfl)
@[simp] theorem State.modVbr_time (s : State) (f : Vbr → Vbr) : (s.modVbr f).time = s.time := (rfl)
@[simp] theorem State.modVbr_ports (s : State) (f : Vbr → Vbr) : (s.modVbr f).ports = s.ports := (rfl)
@[simp] theorem State.modVbr_pool (s : State) (f : Vbr → Vbr) : (s.modVbr f).pool = s.pool := (rfl)
@[simp] theorem State.modVbr_seals (s : State) (f : Vbr → Vbr) : (s.modVbr f).seals = s.seals := (rfl)
@[simp] theorem State.modVbr_blm (s : State) (f : Vbr → Vbr) : (s.modVbr f).blm = s.blm := (rfl)
@[simp] theorem State.modVbr_tf (s : State) (f : Vbr → Vbr) : (s.modVbr f).tf = s.tf := (rfl)
@[simp] theorem State.modVbr_prd (s : State) (f : Vbr → Vbr) : (s.modVbr f).prd = s.prd := (rfl)
@[simp] theorem State.modVbr_gwp (s : State) (f : Vbr → Vbr) : (s.modVbr f).gwp = s.gwp := (rfl)
@[simp] theorem State.modVbr_gwl (s : State) (f : Vbr → Vbr) : (s.modVbr f).gwl = s.gwl := (rfl)
@[simp] theorem State.modVbr_hqe (s : State) (f : Vbr → Vbr) : (s.modVbr f).hqe = s.hqe := (rfl)
@[simp] theorem State.modVbr_smb (s : State) (f : Vbr → Vbr) : (s.modVbr f).smb = s.smb := (rfl)
@[simp] theorem State.modVbr_lup (s : State) (f : Vbr → Vbr) : (s.modVbr f).lup = s.lup := (rfl)
@[simp] theorem State.modVbr_fcl (s : State) (f : Vbr → Vbr) : (s.modVbr f).fcl = s.fcl := (rfl)
@[simp] theorem State.modVbr_disp (s : State) (f : Vbr → Vbr) : (s.modVbr f).disp = s.disp := (rfl)
@[simp] theorem State.modVbr_mgd (s : State) (f : Vbr → Vbr) : (s.modVbr f).mgd = s.mgd := (rfl)
@[simp] theorem State.modVbr_vbr (s : State) (f : Vbr → Vbr) : (s.modVbr f).vbr = f s.vbr := (rfl)
@[simp] theorem State.modVbr_sec (s : State) (f : Vbr → Vbr) : (s.modVbr f).sec = s.sec := (rfl)
@[simp] theorem State.modVbr_fst (s : State) (f : Vbr → Vbr) : (s.modVbr f).fst = s.fst := (rfl)
@[simp] theorem State.modVbr_egv (s : State) (f : Vbr → Vbr) : (s.modVbr f).egv = s.egv := (rfl)
@[simp] theorem State.modVbr_pmu (s : State) (f : Vbr → Vbr) : (s.modVbr f).pmu = s.pmu := (rfl)
@[simp] theorem State.modVbr_hiLatch (s : State) (f : Vbr → Vbr) : (s.modVbr f).hiLatch = s.hiLatch := (rfl)
@[simp] theorem State.modVbr_out (s : State) (f : Vbr → Vbr) : (s.modVbr f).out = s.out := (rfl)

@[simp] theorem State.modSec_pending (s : State) (f : Sec → Sec) : (s.modSec f).pending = s.pending := (rfl)
@[simp] theorem State.modSec_freeIdx (s : State) (f : Sec → Sec) : (s.modSec f).freeIdx = s.freeIdx := (rfl)
@[simp] theorem State.modSec_regs (s : State) (f : Sec → Sec) : (s.modSec f).regs = s.regs := (rfl)
@[simp] theorem State.modSec_cfg (s : State) (f : Sec → Sec) : (s.modSec f).cfg = s.cfg := (rfl)
@[simp] theorem State.modSec_ras (s : State) (f : Sec → Sec) : (s.modSec f).ras = s.ras := (rfl)
@[simp] theorem State.modSec_strm (s : State) (f : Sec → Sec) : (s.modSec f).strm = s.strm := (rfl)
@[simp] theorem State.modSec_time (s : State) (f : Sec → Sec) : (s.modSec f).time = s.time := (rfl)
@[simp] theorem State.modSec_ports (s : State) (f : Sec → Sec) : (s.modSec f).ports = s.ports := (rfl)
@[simp] theorem State.modSec_pool (s : State) (f : Sec → Sec) : (s.modSec f).pool = s.pool := (rfl)
@[simp] theorem State.modSec_seals (s : State) (f : Sec → Sec) : (s.modSec f).seals = s.seals := (rfl)
@[simp] theorem State.modSec_blm (s : State) (f : Sec → Sec) : (s.modSec f).blm = s.blm := (rfl)
@[simp] theorem State.modSec_tf (s : State) (f : Sec → Sec) : (s.modSec f).tf = s.tf := (rfl)
@[simp] theorem State.modSec_prd (s : State) (f : Sec → Sec) : (s.modSec f).prd = s.prd := (rfl)
@[simp] theorem State.modSec_gwp (s : State) (f : Sec → Sec) : (s.modSec f).gwp = s.gwp := (rfl)
@[simp] theorem State.modSec_gwl (s : State) (f : Sec → Sec) : (s.modSec f).gwl = s.gwl := (rfl)
@[simp] theorem State.modSec_hqe (s : State) (f : Sec → Sec) : (s.modSec f).hqe = s.hqe := (rfl)
@[simp] theorem State.modSec_smb (s : State) (f : Sec → Sec) : (s.modSec f).smb = s.smb := (rfl)
@[simp] theorem State.modSec_lup (s : State) (f : Sec → Sec) : (s.modSec f).lup = s.lup := (rfl)
@[simp] theorem State.modSec_fcl (s : State) (f : Sec → Sec) : (s.modSec f).fcl = s.fcl := (rfl)
@[simp] theorem State.modSec_disp (s : State) (f : Sec → Sec) : (s.modSec f).disp = s.disp := (rfl)
@[simp] theorem State.modSec_mgd (s : State) (f : Sec → Sec) : (s.modSec f).mgd = s.mgd := (rfl)
@[simp] theorem State.modSec_vbr (s : State) (f : Sec → Sec) : (s.modSec f).vbr = s.vbr := (rfl)
@[simp] theorem State.modSec_sec (s : State) (f : Sec → Sec) : (s.modSec f).sec = f s.sec := (rfl)
@[simp] theorem State.modSec_fst (s : State) (f : Sec → Sec) : (s.modSec f).fst = s.fst := (rfl)
@[simp] theorem State.modSec_egv (s : State) (f : Sec → Sec) : (s.modSec f).egv = s.egv := (rfl)
@[simp] theorem State.modSec_pmu (s : State) (f : Sec → Sec) : (s.modSec f).pmu = s.pmu := (rfl)
@[simp] theorem State.modSec_hiLatch (s : State) (f : Sec → Sec) : (s.modSec f).hiLatch = s.hiLatch := (rfl)
@[simp] theorem State.modSec_out (s : State) (f : Sec → Sec) : (s.modSec f).out = s.out := (rfl)

@[simp] theorem State.modFst_pending (s : State) (f : Fst → Fst) : (s.modFst f).pending = s.pending := (rfl)
@[simp] theorem State.modFst_freeIdx (s : State) (f : Fst → Fst) : (s.modFst f).freeIdx = s.freeIdx := (rfl)
@[simp] theorem State.modFst_regs (s : State) (f : Fst → Fst) : (s.modFst f).regs = s.regs := (rfl)
@[simp] theorem State.modFst_cfg (s : State) (f : Fst → Fst) : (s.modFst f).cfg = s.cfg := (rfl)
@[simp] theorem State.modFst_ras (s : State) (f : Fst → Fst) : (s.modFst f).ras = s.ras := (rfl)
@[simp] theorem State.modFst_strm (s : State) (f : Fst → Fst) : (s.modFst f).strm = s.strm := (rfl)
@[simp] theorem State.modFst_time (s : State) (f : Fst → Fst) : (s.modFst f).time = s.time := (rfl)
@[simp] theorem State.modFst_ports (s : State) (f : Fst → Fst) : (s.modFst f).ports = s.ports := (rfl)
@[simp] theorem State.modFst_pool (s : State) (f : Fst → Fst) : (s.modFst f).pool = s.pool := (rfl)
@[simp] theorem State.modFst_seals (s : State) (f : Fst → Fst) : (s.modFst f).seals = s.seals := (rfl)
@[simp] theorem State.modFst_blm (s : State) (f : Fst → Fst) : (s.modFst f).blm = s.blm := (rfl)
@[simp] theorem State.modFst_tf (s : State) (f : Fst → Fst) : (s.modFst f).tf = s.tf := (rfl)
@[simp] theorem State.modFst_prd (s : State) (f : Fst → Fst) : (s.modFst f).prd = s.prd := (rfl)
@[simp] theorem State.modFst_gwp (s : State) (f : Fst → Fst) : (s.modFst f).gwp = s.gwp := (rfl)
@[simp] theorem State.modFst_gwl (s : State) (f : Fst → Fst) : (s.modFst f).gwl = s.gwl := (rfl)
@[simp] theorem State.modFst_hqe (s : State) (f : Fst → Fst) : (s.modFst f).hqe = s.hqe := (rfl)
@[simp] theorem State.modFst_smb (s : State) (f : Fst → Fst) : (s.modFst f).smb = s.smb := (rfl)
@[simp] theorem State.modFst_lup (s : State) (f : Fst → Fst) : (s.modFst f).lup = s.lup := (rfl)
@[simp] theorem State.modFst_fcl (s : State) (f : Fst → Fst) : (s.modFst f).fcl = s.fcl := (rfl)
@[simp] theorem State.modFst_disp (s : State) (f : Fst → Fst) : (s.modFst f).disp = s.disp := (rfl)
@[simp] theorem State.modFst_mgd (s : State) (f : Fst → Fst) : (s.modFst f).mgd = s.mgd := (rfl)
@[simp] theorem State.modFst_vbr (s : State) (f : Fst → Fst) : (s.modFst f).vbr = s.vbr := (rfl)
@[simp] theorem State.modFst_sec (s : State) (f : Fst → Fst) : (s.modFst f).sec = s.sec := (rfl)
@[simp] theorem State.modFst_fst (s : State) (f : Fst → Fst) : (s.modFst f).fst = f s.fst := (rfl)
@[simp] theorem State.modFst_egv (s : State) (f : Fst → Fst) : (s.modFst f).egv = s.egv := (rfl)
@[simp] theorem State.modFst_pmu (s : State) (f : Fst → Fst) : (s.modFst f).pmu = s.pmu := (rfl)
@[simp] theorem State.modFst_hiLatch (s : State) (f : Fst → Fst) : (s.modFst f).hiLatch = s.hiLatch := (rfl)
@[simp] theorem State.modFst_out (s : State) (f : Fst → Fst) : (s.modFst f).out = s.out := (rfl)

@[simp] theorem State.modEgv_pending (s : State) (f : Egv → Egv) : (s.modEgv f).pending = s.pending := (rfl)
@[simp] theorem State.modEgv_freeIdx (s : State) (f : Egv → Egv) : (s.modEgv f).freeIdx = s.freeIdx := (rfl)
@[simp] theorem State.modEgv_regs (s : State) (f : Egv → Egv) : (s.modEgv f).regs = s.regs := (rfl)
@[simp] theorem State.modEgv_cfg (s : State) (f : Egv → Egv) : (s.modEgv f).cfg = s.cfg := (rfl)
@[simp] theorem State.modEgv_ras (s : State) (f : Egv → Egv) : (s.modEgv f).ras = s.ras := (rfl)
@[simp] theorem State.modEgv_strm (s : State) (f : Egv → Egv) : (s.modEgv f).strm = s.strm := (rfl)
@[simp] theorem State.modEgv_time (s : State) (f : Egv → Egv) : (s.modEgv f).time = s.time := (rfl)
@[simp] theorem State.modEgv_ports (s : State) (f : Egv → Egv) : (s.modEgv f).ports = s.ports := (rfl)
@[simp] theorem State.modEgv_pool (s : State) (f : Egv → Egv) : (s.modEgv f).pool = s.pool := (rfl)
@[simp] theorem State.modEgv_seals (s : State) (f : Egv → Egv) : (s.modEgv f).seals = s.seals := (rfl)
@[simp] theorem State.modEgv_blm (s : State) (f : Egv → Egv) : (s.modEgv f).blm = s.blm := (rfl)
@[simp] theorem State.modEgv_tf (s : State) (f : Egv → Egv) : (s.modEgv f).tf = s.tf := (rfl)
@[simp] theorem State.modEgv_prd (s : State) (f : Egv → Egv) : (s.modEgv f).prd = s.prd := (rfl)
@[simp] theorem State.modEgv_gwp (s : State) (f : Egv → Egv) : (s.modEgv f).gwp = s.gwp := (rfl)
@[simp] theorem State.modEgv_gwl (s : State) (f : Egv → Egv) : (s.modEgv f).gwl = s.gwl := (rfl)
@[simp] theorem State.modEgv_hqe (s : State) (f : Egv → Egv) : (s.modEgv f).hqe = s.hqe := (rfl)
@[simp] theorem State.modEgv_smb (s : State) (f : Egv → Egv) : (s.modEgv f).smb = s.smb := (rfl)
@[simp] theorem State.modEgv_lup (s : State) (f : Egv → Egv) : (s.modEgv f).lup = s.lup := (rfl)
@[simp] theorem State.modEgv_fcl (s : State) (f : Egv → Egv) : (s.modEgv f).fcl = s.fcl := (rfl)
@[simp] theorem State.modEgv_disp (s : State) (f : Egv → Egv) : (s.modEgv f).disp = s.disp := (rfl)
@[simp] theorem State.modEgv_mgd (s : State) (f : Egv → Egv) : (s.modEgv f).mgd = s.mgd := (rfl)
@[simp] theorem State.modEgv_vbr (s : State) (f : Egv → Egv) : (s.modEgv f).vbr = s.vbr := (rfl)
@[simp] theorem State.modEgv_sec (s : State) (f : Egv → Egv) : (s.modEgv f).sec = s.sec := (rfl)
@[simp] theorem State.modEgv_fst (s : State) (f : Egv → Egv) : (s.modEgv f).fst = s.fst := (rfl)
@[simp] theorem State.modEgv_egv (s : State) (f : Egv → Egv) : (s.modEgv f).egv = f s.egv := (rfl)
@[simp] theorem State.modEgv_pmu (s : State) (f : Egv → Egv) : (s.modEgv f).pmu = s.pmu := (rfl)
@[simp] theorem State.modEgv_hiLatch (s : State) (f : Egv → Egv) : (s.modEgv f).hiLatch = s.hiLatch := (rfl)
@[simp] theorem State.modEgv_out (s : State) (f : Egv → Egv) : (s.modEgv f).out = s.out := (rfl)

@[simp] theorem State.modPmu_pending (s : State) (f : Pmu → Pmu) : (s.modPmu f).pending = s.pending := (rfl)
@[simp] theorem State.modPmu_freeIdx (s : State) (f : Pmu → Pmu) : (s.modPmu f).freeIdx = s.freeIdx := (rfl)
@[simp] theorem State.modPmu_regs (s : State) (f : Pmu → Pmu) : (s.modPmu f).regs = s.regs := (rfl)
@[simp] theorem State.modPmu_cfg (s : State) (f : Pmu → Pmu) : (s.modPmu f).cfg = s.cfg := (rfl)
@[simp] theorem State.modPmu_ras (s : State) (f : Pmu → Pmu) : (s.modPmu f).ras = s.ras := (rfl)
@[simp] theorem State.modPmu_strm (s : State) (f : Pmu → Pmu) : (s.modPmu f).strm = s.strm := (rfl)
@[simp] theorem State.modPmu_time (s : State) (f : Pmu → Pmu) : (s.modPmu f).time = s.time := (rfl)
@[simp] theorem State.modPmu_ports (s : State) (f : Pmu → Pmu) : (s.modPmu f).ports = s.ports := (rfl)
@[simp] theorem State.modPmu_pool (s : State) (f : Pmu → Pmu) : (s.modPmu f).pool = s.pool := (rfl)
@[simp] theorem State.modPmu_seals (s : State) (f : Pmu → Pmu) : (s.modPmu f).seals = s.seals := (rfl)
@[simp] theorem State.modPmu_blm (s : State) (f : Pmu → Pmu) : (s.modPmu f).blm = s.blm := (rfl)
@[simp] theorem State.modPmu_tf (s : State) (f : Pmu → Pmu) : (s.modPmu f).tf = s.tf := (rfl)
@[simp] theorem State.modPmu_prd (s : State) (f : Pmu → Pmu) : (s.modPmu f).prd = s.prd := (rfl)
@[simp] theorem State.modPmu_gwp (s : State) (f : Pmu → Pmu) : (s.modPmu f).gwp = s.gwp := (rfl)
@[simp] theorem State.modPmu_gwl (s : State) (f : Pmu → Pmu) : (s.modPmu f).gwl = s.gwl := (rfl)
@[simp] theorem State.modPmu_hqe (s : State) (f : Pmu → Pmu) : (s.modPmu f).hqe = s.hqe := (rfl)
@[simp] theorem State.modPmu_smb (s : State) (f : Pmu → Pmu) : (s.modPmu f).smb = s.smb := (rfl)
@[simp] theorem State.modPmu_lup (s : State) (f : Pmu → Pmu) : (s.modPmu f).lup = s.lup := (rfl)
@[simp] theorem State.modPmu_fcl (s : State) (f : Pmu → Pmu) : (s.modPmu f).fcl = s.fcl := (rfl)
@[simp] theorem State.modPmu_disp (s : State) (f : Pmu → Pmu) : (s.modPmu f).disp = s.disp := (rfl)
@[simp] theorem State.modPmu_mgd (s : State) (f : Pmu → Pmu) : (s.modPmu f).mgd = s.mgd := (rfl)
@[simp] theorem State.modPmu_vbr (s : State) (f : Pmu → Pmu) : (s.modPmu f).vbr = s.vbr := (rfl)
@[simp] theorem State.modPmu_sec (s : State) (f : Pmu → Pmu) : (s.modPmu f).sec = s.sec := (rfl)
@[simp] theorem State.modPmu_fst (s : State) (f : Pmu → Pmu) : (s.modPmu f).fst = s.fst := (rfl)
@[simp] theorem State.modPmu_egv (s : State) (f : Pmu → Pmu) : (s.modPmu f).egv = s.egv := (rfl)
@[simp] theorem State.modPmu_pmu (s : State) (f : Pmu → Pmu) : (s.modPmu f).pmu = f s.pmu := (rfl)
@[simp] theorem State.modPmu_hiLatch (s : State) (f : Pmu → Pmu) : (s.modPmu f).hiLatch = s.hiLatch := (rfl)
@[simp] theorem State.modPmu_out (s : State) (f : Pmu → Pmu) : (s.modPmu f).out = s.out := (rfl)

@[simp] theorem State.modFcl_pending (s : State) (f : Fcl → Fcl) : (s.modFcl f).pending = s.pending := (rfl)
@[simp] theorem State.modFcl_freeIdx (s : State) (f : Fcl → Fcl) : (s.modFcl f).freeIdx = s.freeIdx := (rfl)
@[simp] theorem State.modFcl_regs (s : State) (f : Fcl → Fcl) : (s.modFcl f).regs = s.regs := (rfl)
@[simp] theorem State.modFcl_cfg (s : State) (f : Fcl → Fcl) : (s.modFcl f).cfg = s.cfg := (rfl)
@[simp] theorem State.modFcl_ras (s : State) (f : Fcl → Fcl) : (s.modFcl f).ras = s.ras := (rfl)
@[simp] theorem State.modFcl_strm (s : State) (f : Fcl → Fcl) : (s.modFcl f).strm = s.strm := (rfl)
@[simp] theorem State.modFcl_time (s : State) (f : Fcl → Fcl) : (s.modFcl f).time = s.time := (rfl)
@[simp] theorem State.modFcl_ports (s : State) (f : Fcl → Fcl) : (s.modFcl f).ports = s.ports := (rfl)
@[simp] theorem State.modFcl_pool (s : State) (f : Fcl → Fcl) : (s.modFcl f).pool = s.pool := (rfl)
@[simp] theorem State.modFcl_seals (s : State) (f : Fcl → Fcl) : (s.modFcl f).seals = s.seals := (rfl)
@[simp] theorem State.modFcl_blm (s : State) (f : Fcl → Fcl) : (s.modFcl f).blm = s.blm := (rfl)
@[simp] theorem State.modFcl_tf (s : State) (f : Fcl → Fcl) : (s.modFcl f).tf = s.tf := (rfl)
@[simp] theorem State.modFcl_prd (s : State) (f : Fcl → Fcl) : (s.modFcl f).prd = s.prd := (rfl)
@[simp] theorem State.modFcl_gwp (s : State) (f : Fcl → Fcl) : (s.modFcl f).gwp = s.gwp := (rfl)
@[simp] theorem State.modFcl_gwl (s : State) (f : Fcl → Fcl) : (s.modFcl f).gwl = s.gwl := (rfl)
@[simp] theorem State.modFcl_hqe (s : State) (f : Fcl → Fcl) : (s.modFcl f).hqe = s.hqe := (rfl)
@[simp] theorem State.modFcl_smb (s : State) (f : Fcl → Fcl) : (s.modFcl f).smb = s.smb := (rfl)
@[simp] theorem State.modFcl_lup (s : State) (f : Fcl → Fcl) : (s.modFcl f).lup = s.lup := (rfl)
@[simp] theorem State.modFcl_fcl (s : State) (f : Fcl → Fcl) : (s.modFcl f).fcl = f s.fcl := (rfl)
@[simp] theorem State.modFcl_disp (s : State) (f : Fcl → Fcl) : (s.modFcl f).disp = s.disp := (rfl)
@[simp] theorem State.modFcl_mgd (s : State) (f : Fcl → Fcl) : (s.modFcl f).mgd = s.mgd := (rfl)
@[simp] theorem State.modFcl_vbr (s : State) (f : Fcl → Fcl) : (s.modFcl f).vbr = s.vbr := (rfl)
@[simp] theorem State.modFcl_sec (s : State) (f : Fcl → Fcl) : (s.modFcl f).sec = s.sec := (rfl)
@[simp] theorem State.modFcl_fst (s : State) (f : Fcl → Fcl) : (s.modFcl f).fst = s.fst := (rfl)
@[simp] theorem State.modFcl_egv (s : State) (f : Fcl → Fcl) : (s.modFcl f).egv = s.egv := (rfl)
@[simp] theorem State.modFcl_pmu (s : State) (f : Fcl → Fcl) : (s.modFcl f).pmu = s.pmu := (rfl)
@[simp] theorem State.modFcl_hiLatch (s : State) (f : Fcl → Fcl) : (s.modFcl f).hiLatch = s.hiLatch := (rfl)
@[simp] theorem State.modFcl_out (s : State) (f : Fcl → Fcl) : (s.modFcl f).out = s.out := (rfl)

@[simp] theorem State.modRing_pending (s : State) (g : Nat) (f : Ring → Ring) : (s.modRing g f).pending = s.pending := (rfl)
@[simp] theorem State.modRing_freeIdx (s : State) (g : Nat) (f : Ring → Ring) : (s.modRing g f).freeIdx = s.freeIdx := (rfl)
@[simp] theorem State.modRing_regs (s : State) (g : Nat) (f : Ring → Ring) : (s.modRing g f).regs = s.regs := (rfl)
@[simp] theorem State.modRing_cfg (s : State) (g : Nat) (f : Ring → Ring) : (s.modRing g f).cfg = s.cfg := (rfl)
@[simp] theorem State.modRing_ras (s : State) (g : Nat) (f : Ring → Ring) : (s.modRing g f).ras = s.ras := (rfl)
@[simp] theorem State.modRing_strm (s : State) (g : Nat) (f : Ring → Ring) : (s.modRing g f).strm = s.strm := (rfl)
@[simp] theorem State.modRing_time (s : State) (g : Nat) (f : Ring → Ring) : (s.modRing g f).time = s.time := (rfl)
@[simp] theorem State.modRing_ports (s : State) (g : Nat) (f : Ring → Ring) : (s.modRing g f).ports = s.ports := (rfl)
@[simp] theorem State.modRing_pool (s : State) (g : Nat) (f : Ring → Ring) : (s.modRing g f).pool = s.pool := (rfl)
@[simp] theorem State.modRing_seals (s : State) (g : Nat) (f : Ring → Ring) : (s.modRing g f).seals = s.seals := (rfl)
@[simp] theorem State.modRing_blm (s : State) (g : Nat) (f : Ring → Ring) : (s.modRing g f).blm = s.blm := (rfl)
@[simp] theorem State.modRing_tf (s : State) (g : Nat) (f : Ring → Ring) : (s.modRing g f).tf = s.tf := (rfl)
@[simp] theorem State.modRing_prd (s : State) (g : Nat) (f : Ring → Ring) : (s.modRing g f).prd = s.prd := (rfl)
@[simp] theorem State.modRing_gwp (s : State) (g : Nat) (f : Ring → Ring) : (s.modRing g f).gwp = s.gwp := (rfl)
@[simp] theorem State.modRing_gwl (s : State) (g : Nat) (f : Ring → Ring) : (s.modRing g f).gwl = s.gwl := (rfl)
@[simp] theorem State.modRing_hqe (s : State) (g : Nat) (f : Ring → Ring) : (s.modRing g f).hqe = { s.hqe with rings := s.hqe.rings.upd g f } := (rfl)
@[simp] theorem State.modRing_smb (s : State) (g : Nat) (f : Ring → Ring) : (s.modRing g f).smb = s.smb := (rfl)
@[simp] theorem State.modRing_lup (s : State) (g : Nat) (f : Ring → Ring) : (s.modRing g f).lup = s.lup := (rfl)
@[simp] theorem State.modRing_fcl (s : State) (g : Nat) (f : Ring → Ring) : (s.modRing g f).fcl = s.fcl := (rfl)
@[simp] theorem State.modRing_disp (s : State) (g : Nat) (f : Ring → Ring) : (s.modRing g f).disp = s.disp := (rfl)
@[simp] theorem State.modRing_mgd (s : State) (g : Nat) (f : Ring → Ring) : (s.modRing g f).mgd = s.mgd := (rfl)
@[simp] theorem State.modRing_vbr (s : State) (g : Nat) (f : Ring → Ring) : (s.modRing g f).vbr = s.vbr := (rfl)
@[simp] theorem State.modRing_sec (s : State) (g : Nat) (f : Ring → Ring) : (s.modRing g f).sec = s.sec := (rfl)
@[simp] theorem State.modRing_fst (s : State) (g : Nat) (f : Ring → Ring) : (s.modRing g f).fst = s.fst := (rfl)
@[simp] theorem State.modRing_egv (s : State) (g : Nat) (f : Ring → Ring) : (s.modRing g f).egv = s.egv := (rfl)
@[simp] theorem State.modRing_pmu (s : State) (g : Nat) (f : Ring → Ring) : (s.modRing g f).pmu = s.pmu := (rfl)
@[simp] theorem State.modRing_hiLatch (s : State) (g : Nat) (f : Ring → Ring) : (s.modRing g f).hiLatch = s.hiLatch := (rfl)
@[simp] theorem State.modRing_out (s : State) (g : Nat) (f : Ring → Ring) : (s.modRing g f).out = s.out := (rfl)

@[simp] theorem State.modDom_pending (s : State) (d : Nat) (f : Dom → Dom) : (s.modDom d f).pending = s.pending := (rfl)
@[simp] theorem State.modDom_freeIdx (s : State) (d : Nat) (f : Dom → Dom) : (s.modDom d f).freeIdx = s.freeIdx := (rfl)
@[simp] theorem State.modDom_regs (s : State) (d : Nat) (f : Dom → Dom) : (s.modDom d f).regs = s.regs := (rfl)
@[simp] theorem State.modDom_cfg (s : State) (d : Nat) (f : Dom → Dom) : (s.modDom d f).cfg = s.cfg := (rfl)
@[simp] theorem State.modDom_ras (s : State) (d : Nat) (f : Dom → Dom) : (s.modDom d f).ras = s.ras := (rfl)
@[simp] theorem State.modDom_strm (s : State) (d : Nat) (f : Dom → Dom) : (s.modDom d f).strm = s.strm := (rfl)
@[simp] theorem State.modDom_time (s : State) (d : Nat) (f : Dom → Dom) : (s.modDom d f).time = s.time := (rfl)
@[simp] theorem State.modDom_ports (s : State) (d : Nat) (f : Dom → Dom) : (s.modDom d f).ports = s.ports := (rfl)
@[simp] theorem State.modDom_pool (s : State) (d : Nat) (f : Dom → Dom) : (s.modDom d f).pool = s.pool := (rfl)
@[simp] theorem State.modDom_seals (s : State) (d : Nat) (f : Dom → Dom) : (s.modDom d f).seals = s.seals := (rfl)
@[simp] theorem State.modDom_blm (s : State) (d : Nat) (f : Dom → Dom) : (s.modDom d f).blm = s.blm := (rfl)
@[simp] theorem State.modDom_tf (s : State) (d : Nat) (f : Dom → Dom) : (s.modDom d f).tf = s.tf := (rfl)
@[simp] theorem State.modDom_prd (s : State) (d : Nat) (f : Dom → Dom) : (s.modDom d f).prd = s.prd := (rfl)
@[simp] theorem State.modDom_gwp (s : State) (d : Nat) (f : Dom → Dom) : (s.modDom d f).gwp = s.gwp := (rfl)
@[simp] theorem State.modDom_gwl (s : State) (d : Nat) (f : Dom → Dom) : (s.modDom d f).gwl = s.gwl := (rfl)
@[simp] theorem State.modDom_hqe (s : State) (d : Nat) (f : Dom → Dom) : (s.modDom d f).hqe = { s.hqe with doms := s.hqe.doms.upd d f } := (rfl)
@[simp] theorem State.modDom_smb (s : State) (d : Nat) (f : Dom → Dom) : (s.modDom d f).smb = s.smb := (rfl)
@[simp] theorem State.modDom_lup (s : State) (d : Nat) (f : Dom → Dom) : (s.modDom d f).lup = s.lup := (rfl)
@[simp] theorem State.modDom_fcl (s : State) (d : Nat) (f : Dom → Dom) : (s.modDom d f).fcl = s.fcl := (rfl)
@[simp] theorem State.modDom_disp (s : State) (d : Nat) (f : Dom → Dom) : (s.modDom d f).disp = s.disp := (rfl)
@[simp] theorem State.modDom_mgd (s : State) (d : Nat) (f : Dom → Dom) : (s.modDom d f).mgd = s.mgd := (rfl)
@[simp] theorem State.modDom_vbr (s : State) (d : Nat) (f : Dom → Dom) : (s.modDom d f).vbr = s.vbr := (rfl)
@[simp] theorem State.modDom_sec (s : State) (d : Nat) (f : Dom → Dom) : (s.modDom d f).sec = s.sec := (rfl)
@[simp] theorem State.modDom_fst (s : State) (d : Nat) (f : Dom → Dom) : (s.modDom d f).fst = s.fst := (rfl)
@[simp] theorem State.modDom_egv (s : State) (d : Nat) (f : Dom → Dom) : (s.modDom d f).egv = s.egv := (rfl)
@[simp] theorem State.modDom_pmu (s : State) (d : Nat) (f : Dom → Dom) : (s.modDom d f).pmu = s.pmu := (rfl)
@[simp] theorem State.modDom_hiLatch (s : State) (d : Nat) (f : Dom → Dom) : (s.modDom d f).hiLatch = s.hiLatch := (rfl)
@[simp] theorem State.modDom_out (s : State) (d : Nat) (f : Dom → Dom) : (s.modDom d f).out = s.out := (rfl)

@[simp] theorem State.emit_pending (s : State) (o : Out) : (s.emit o).pending = s.pending := (rfl)
@[simp] theorem State.emit_freeIdx (s : State) (o : Out) : (s.emit o).freeIdx = s.freeIdx := (rfl)
@[simp] theorem State.emit_regs (s : State) (o : Out) : (s.emit o).regs = s.regs := (rfl)
@[simp] theorem State.emit_cfg (s : State) (o : Out) : (s.emit o).cfg = s.cfg := (rfl)
@[simp] theorem State.emit_ras (s : State) (o : Out) : (s.emit o).ras = s.ras := (rfl)
@[simp] theorem State.emit_strm (s : State) (o : Out) : (s.emit o).strm = s.strm := (rfl)
@[simp] theorem State.emit_time (s : State) (o : Out) : (s.emit o).time = s.time := (rfl)
@[simp] theorem State.emit_ports (s : State) (o : Out) : (s.emit o).ports = s.ports := (rfl)
@[simp] theorem State.emit_pool (s : State) (o : Out) : (s.emit o).pool = s.pool := (rfl)
@[simp] theorem State.emit_seals (s : State) (o : Out) : (s.emit o).seals = s.seals := (rfl)
@[simp] theorem State.emit_blm (s : State) (o : Out) : (s.emit o).blm = s.blm := (rfl)
@[simp] theorem State.emit_tf (s : State) (o : Out) : (s.emit o).tf = s.tf := (rfl)
@[simp] theorem State.emit_prd (s : State) (o : Out) : (s.emit o).prd = s.prd := (rfl)
@[simp] theorem State.emit_gwp (s : State) (o : Out) : (s.emit o).gwp = s.gwp := (rfl)
@[simp] theorem State.emit_gwl (s : State) (o : Out) : (s.emit o).gwl = s.gwl := (rfl)
@[simp] theorem State.emit_hqe (s : State) (o : Out) : (s.emit o).hqe = s.hqe := (rfl)
@[simp] theorem State.emit_smb (s : State) (o : Out) : (s.emit o).smb = s.smb := (rfl)
@[simp] theorem State.emit_lup (s : State) (o : Out) : (s.emit o).lup = s.lup := (rfl)
@[simp] theorem State.emit_fcl (s : State) (o : Out) : (s.emit o).fcl = s.fcl := (rfl)
@[simp] theorem State.emit_disp (s : State) (o : Out) : (s.emit o).disp = s.disp := (rfl)
@[simp] theorem State.emit_mgd (s : State) (o : Out) : (s.emit o).mgd = s.mgd := (rfl)
@[simp] theorem State.emit_vbr (s : State) (o : Out) : (s.emit o).vbr = s.vbr := (rfl)
@[simp] theorem State.emit_sec (s : State) (o : Out) : (s.emit o).sec = s.sec := (rfl)
@[simp] theorem State.emit_fst (s : State) (o : Out) : (s.emit o).fst = s.fst := (rfl)
@[simp] theorem State.emit_egv (s : State) (o : Out) : (s.emit o).egv = s.egv := (rfl)
@[simp] theorem State.emit_pmu (s : State) (o : Out) : (s.emit o).pmu = s.pmu := (rfl)
@[simp] theorem State.emit_hiLatch (s : State) (o : Out) : (s.emit o).hiLatch = s.hiLatch := (rfl)
@[simp] theorem State.emit_out (s : State) (o : Out) : (s.emit o).out = s.out ++ [o] := (rfl)

@[simp] theorem State.draw_pending (s : State) : (s.draw).pending = s.pending := (rfl)
@[simp] theorem State.draw_freeIdx (s : State) : (s.draw).freeIdx = s.freeIdx + 1 := (rfl)
@[simp] theorem State.draw_regs (s : State) : (s.draw).regs = s.regs := (rfl)
@[simp] theorem State.draw_cfg (s : State) : (s.draw).cfg = s.cfg := (rfl)
@[simp] theorem State.draw_ras (s : State) : (s.draw).ras = s.ras := (rfl)
@[simp] theorem State.draw_strm (s : State) : (s.draw).strm = s.strm := (rfl)
@[simp] theorem State.draw_time (s : State) : (s.draw).time = s.time := (rfl)
@[simp] theorem State.draw_ports (s : State) : (s.draw).ports = s.ports := (rfl)
@[simp] theorem State.draw_pool (s : State) : (s.draw).pool = s.pool := (rfl)
@[simp] theorem State.draw_seals (s : State) : (s.draw).seals = s.seals := (rfl)
@[simp] theorem State.draw_blm (s : State) : (s.draw).blm = s.blm := (rfl)
@[simp] theorem State.draw_tf (s : State) : (s.draw).tf = s.tf := (rfl)
@[simp] theorem State.draw_prd (s : State) : (s.draw).prd = s.prd := (rfl)
@[simp] theorem State.draw_gwp (s : State) : (s.draw).gwp = s.gwp := (rfl)
@[simp] theorem State.draw_gwl (s : State) : (s.draw).gwl = s.gwl := (rfl)
@[simp] theorem State.draw_hqe (s : State) : (s.draw).hqe = s.hqe := (rfl)
@[simp] theorem State.draw_smb (s : State) : (s.draw).smb = s.smb := (rfl)
@[simp] theorem State.draw_lup (s : State) : (s.draw).lup = s.lup := (rfl)
@[simp] theorem State.draw_fcl (s : State) : (s.draw).fcl = s.fcl := (rfl)
@[simp] theorem State.draw_disp (s : State) : (s.draw).disp = s.disp := (rfl)
@[simp] theorem State.draw_mgd (s : State) : (s.draw).mgd = s.mgd := (rfl)
@[simp] theorem State.draw_vbr (s : State) : (s.draw).vbr = s.vbr := (rfl)
@[simp] theorem State.draw_sec (s : State) : (s.draw).sec = s.sec := (rfl)
@[simp] theorem State.draw_fst (s : State) : (s.draw).fst = s.fst := (rfl)
@[simp] theorem State.draw_egv (s : State) : (s.draw).egv = s.egv := (rfl)
@[simp] theorem State.draw_pmu (s : State) : (s.draw).pmu = s.pmu := (rfl)
@[simp] theorem State.draw_hiLatch (s : State) : (s.draw).hiLatch = s.hiLatch := (rfl)
@[simp] theorem State.draw_out (s : State) : (s.draw).out = s.out := (rfl)

@[simp] theorem State.txPush_pending (s : State) (t : Txn) : (s.txPush t).pending = s.pending := (rfl)
@[simp] theorem State.txPush_freeIdx (s : State) (t : Txn) : (s.txPush t).freeIdx = s.freeIdx := (rfl)
@[simp] theorem State.txPush_regs (s : State) (t : Txn) : (s.txPush t).regs = s.regs := (rfl)
@[simp] theorem State.txPush_cfg (s : State) (t : Txn) : (s.txPush t).cfg = s.cfg := (rfl)
@[simp] theorem State.txPush_ras (s : State) (t : Txn) : (s.txPush t).ras = s.ras := (rfl)
@[simp] theorem State.txPush_strm (s : State) (t : Txn) : (s.txPush t).strm = s.strm := (rfl)
@[simp] theorem State.txPush_time (s : State) (t : Txn) : (s.txPush t).time = s.time := (rfl)
@[simp] theorem State.txPush_ports (s : State) (t : Txn) : (s.txPush t).ports = s.ports := (rfl)
@[simp] theorem State.txPush_pool (s : State) (t : Txn) : (s.txPush t).pool = s.pool := (rfl)
@[simp] theorem State.txPush_seals (s : State) (t : Txn) : (s.txPush t).seals = s.seals := (rfl)
@[simp] theorem State.txPush_blm (s : State) (t : Txn) : (s.txPush t).blm = s.blm := (rfl)
@[simp] theorem State.txPush_tf (s : State) (t : Txn) : (s.txPush t).tf = s.tf := (rfl)
@[simp] theorem State.txPush_prd (s : State) (t : Txn) : (s.txPush t).prd = s.prd := (rfl)
@[simp] theorem State.txPush_gwp (s : State) (t : Txn) : (s.txPush t).gwp = s.gwp := (rfl)
@[simp] theorem State.txPush_gwl (s : State) (t : Txn) : (s.txPush t).gwl = { s.gwl with txq := s.gwl.txq ++ [t] } := (rfl)
@[simp] theorem State.txPush_hqe (s : State) (t : Txn) : (s.txPush t).hqe = s.hqe := (rfl)
@[simp] theorem State.txPush_smb (s : State) (t : Txn) : (s.txPush t).smb = s.smb := (rfl)
@[simp] theorem State.txPush_lup (s : State) (t : Txn) : (s.txPush t).lup = s.lup := (rfl)
@[simp] theorem State.txPush_fcl (s : State) (t : Txn) : (s.txPush t).fcl = s.fcl := (rfl)
@[simp] theorem State.txPush_disp (s : State) (t : Txn) : (s.txPush t).disp = s.disp := (rfl)
@[simp] theorem State.txPush_mgd (s : State) (t : Txn) : (s.txPush t).mgd = s.mgd := (rfl)
@[simp] theorem State.txPush_vbr (s : State) (t : Txn) : (s.txPush t).vbr = s.vbr := (rfl)
@[simp] theorem State.txPush_sec (s : State) (t : Txn) : (s.txPush t).sec = s.sec := (rfl)
@[simp] theorem State.txPush_fst (s : State) (t : Txn) : (s.txPush t).fst = s.fst := (rfl)
@[simp] theorem State.txPush_egv (s : State) (t : Txn) : (s.txPush t).egv = s.egv := (rfl)
@[simp] theorem State.txPush_pmu (s : State) (t : Txn) : (s.txPush t).pmu = s.pmu := (rfl)
@[simp] theorem State.txPush_hiLatch (s : State) (t : Txn) : (s.txPush t).hiLatch = s.hiLatch := (rfl)
@[simp] theorem State.txPush_out (s : State) (t : Txn) : (s.txPush t).out = s.out := (rfl)

@[simp] theorem State.wr_pending (s : State) (k : RegKind) (v i j : Nat) : (s.wr k v i j).pending = s.pending := (rfl)
@[simp] theorem State.wr_freeIdx (s : State) (k : RegKind) (v i j : Nat) : (s.wr k v i j).freeIdx = s.freeIdx := (rfl)
@[simp] theorem State.wr_cfg (s : State) (k : RegKind) (v i j : Nat) : (s.wr k v i j).cfg = s.cfg := (rfl)
@[simp] theorem State.wr_ras (s : State) (k : RegKind) (v i j : Nat) : (s.wr k v i j).ras = s.ras := (rfl)
@[simp] theorem State.wr_strm (s : State) (k : RegKind) (v i j : Nat) : (s.wr k v i j).strm = s.strm := (rfl)
@[simp] theorem State.wr_time (s : State) (k : RegKind) (v i j : Nat) : (s.wr k v i j).time = s.time := (rfl)
@[simp] theorem State.wr_ports (s : State) (k : RegKind) (v i j : Nat) : (s.wr k v i j).ports = s.ports := (rfl)
@[simp] theorem State.wr_pool (s : State) (k : RegKind) (v i j : Nat) : (s.wr k v i j).pool = s.pool := (rfl)
@[simp] theorem State.wr_seals (s : State) (k : RegKind) (v i j : Nat) : (s.wr k v i j).seals = s.seals := (rfl)
@[simp] theorem State.wr_blm (s : State) (k : RegKind) (v i j : Nat) : (s.wr k v i j).blm = s.blm := (rfl)
@[simp] theorem State.wr_tf (s : State) (k : RegKind) (v i j : Nat) : (s.wr k v i j).tf = s.tf := (rfl)
@[simp] theorem State.wr_prd (s : State) (k : RegKind) (v i j : Nat) : (s.wr k v i j).prd = s.prd := (rfl)
@[simp] theorem State.wr_gwp (s : State) (k : RegKind) (v i j : Nat) : (s.wr k v i j).gwp = s.gwp := (rfl)
@[simp] theorem State.wr_gwl (s : State) (k : RegKind) (v i j : Nat) : (s.wr k v i j).gwl = s.gwl := (rfl)
@[simp] theorem State.wr_hqe (s : State) (k : RegKind) (v i j : Nat) : (s.wr k v i j).hqe = s.hqe := (rfl)
@[simp] theorem State.wr_smb (s : State) (k : RegKind) (v i j : Nat) : (s.wr k v i j).smb = s.smb := (rfl)
@[simp] theorem State.wr_lup (s : State) (k : RegKind) (v i j : Nat) : (s.wr k v i j).lup = s.lup := (rfl)
@[simp] theorem State.wr_fcl (s : State) (k : RegKind) (v i j : Nat) : (s.wr k v i j).fcl = s.fcl := (rfl)
@[simp] theorem State.wr_disp (s : State) (k : RegKind) (v i j : Nat) : (s.wr k v i j).disp = s.disp := (rfl)
@[simp] theorem State.wr_mgd (s : State) (k : RegKind) (v i j : Nat) : (s.wr k v i j).mgd = s.mgd := (rfl)
@[simp] theorem State.wr_vbr (s : State) (k : RegKind) (v i j : Nat) : (s.wr k v i j).vbr = s.vbr := (rfl)
@[simp] theorem State.wr_sec (s : State) (k : RegKind) (v i j : Nat) : (s.wr k v i j).sec = s.sec := (rfl)
@[simp] theorem State.wr_fst (s : State) (k : RegKind) (v i j : Nat) : (s.wr k v i j).fst = s.fst := (rfl)
@[simp] theorem State.wr_egv (s : State) (k : RegKind) (v i j : Nat) : (s.wr k v i j).egv = s.egv := (rfl)
@[simp] theorem State.wr_pmu (s : State) (k : RegKind) (v i j : Nat) : (s.wr k v i j).pmu = s.pmu := (rfl)
@[simp] theorem State.wr_hiLatch (s : State) (k : RegKind) (v i j : Nat) : (s.wr k v i j).hiLatch = s.hiLatch := (rfl)
@[simp] theorem State.wr_out (s : State) (k : RegKind) (v i j : Nat) : (s.wr k v i j).out = s.out := (rfl)

@[simp] theorem State.setFld_pending (s : State) (f : Fld) (v i j : Nat) : (s.setFld f v i j).pending = s.pending := (rfl)
@[simp] theorem State.setFld_freeIdx (s : State) (f : Fld) (v i j : Nat) : (s.setFld f v i j).freeIdx = s.freeIdx := (rfl)
@[simp] theorem State.setFld_cfg (s : State) (f : Fld) (v i j : Nat) : (s.setFld f v i j).cfg = s.cfg := (rfl)
@[simp] theorem State.setFld_ras (s : State) (f : Fld) (v i j : Nat) : (s.setFld f v i j).ras = s.ras := (rfl)
@[simp] theorem State.setFld_strm (s : State) (f : Fld) (v i j : Nat) : (s.setFld f v i j).strm = s.strm := (rfl)
@[simp] theorem State.setFld_time (s : State) (f : Fld) (v i j : Nat) : (s.setFld f v i j).time = s.time := (rfl)
@[simp] theorem State.setFld_ports (s : State) (f : Fld) (v i j : Nat) : (s.setFld f v i j).ports = s.ports := (rfl)
@[simp] theorem State.setFld_pool (s : State) (f : Fld) (v i j : Nat) : (s.setFld f v i j).pool = s.pool := (rfl)
@[simp] theorem State.setFld_seals (s : State) (f : Fld) (v i j : Nat) : (s.setFld f v i j).seals = s.seals := (rfl)
@[simp] theorem State.setFld_blm (s : State) (f : Fld) (v i j : Nat) : (s.setFld f v i j).blm = s.blm := (rfl)
@[simp] theorem State.setFld_tf (s : State) (f : Fld) (v i j : Nat) : (s.setFld f v i j).tf = s.tf := (rfl)
@[simp] theorem State.setFld_prd (s : State) (f : Fld) (v i j : Nat) : (s.setFld f v i j).prd = s.prd := (rfl)
@[simp] theorem State.setFld_gwp (s : State) (f : Fld) (v i j : Nat) : (s.setFld f v i j).gwp = s.gwp := (rfl)
@[simp] theorem State.setFld_gwl (s : State) (f : Fld) (v i j : Nat) : (s.setFld f v i j).gwl = s.gwl := (rfl)
@[simp] theorem State.setFld_hqe (s : State) (f : Fld) (v i j : Nat) : (s.setFld f v i j).hqe = s.hqe := (rfl)
@[simp] theorem State.setFld_smb (s : State) (f : Fld) (v i j : Nat) : (s.setFld f v i j).smb = s.smb := (rfl)
@[simp] theorem State.setFld_lup (s : State) (f : Fld) (v i j : Nat) : (s.setFld f v i j).lup = s.lup := (rfl)
@[simp] theorem State.setFld_fcl (s : State) (f : Fld) (v i j : Nat) : (s.setFld f v i j).fcl = s.fcl := (rfl)
@[simp] theorem State.setFld_disp (s : State) (f : Fld) (v i j : Nat) : (s.setFld f v i j).disp = s.disp := (rfl)
@[simp] theorem State.setFld_mgd (s : State) (f : Fld) (v i j : Nat) : (s.setFld f v i j).mgd = s.mgd := (rfl)
@[simp] theorem State.setFld_vbr (s : State) (f : Fld) (v i j : Nat) : (s.setFld f v i j).vbr = s.vbr := (rfl)
@[simp] theorem State.setFld_sec (s : State) (f : Fld) (v i j : Nat) : (s.setFld f v i j).sec = s.sec := (rfl)
@[simp] theorem State.setFld_fst (s : State) (f : Fld) (v i j : Nat) : (s.setFld f v i j).fst = s.fst := (rfl)
@[simp] theorem State.setFld_egv (s : State) (f : Fld) (v i j : Nat) : (s.setFld f v i j).egv = s.egv := (rfl)
@[simp] theorem State.setFld_pmu (s : State) (f : Fld) (v i j : Nat) : (s.setFld f v i j).pmu = s.pmu := (rfl)
@[simp] theorem State.setFld_hiLatch (s : State) (f : Fld) (v i j : Nat) : (s.setFld f v i j).hiLatch = s.hiLatch := (rfl)
@[simp] theorem State.setFld_out (s : State) (f : Fld) (v i j : Nat) : (s.setFld f v i j).out = s.out := (rfl)

@[simp] theorem State.setFlag_pending (s : State) (f : Fld) (b : Bool) (i j : Nat) : (s.setFlag f b i j).pending = s.pending := (rfl)
@[simp] theorem State.setFlag_freeIdx (s : State) (f : Fld) (b : Bool) (i j : Nat) : (s.setFlag f b i j).freeIdx = s.freeIdx := (rfl)
@[simp] theorem State.setFlag_cfg (s : State) (f : Fld) (b : Bool) (i j : Nat) : (s.setFlag f b i j).cfg = s.cfg := (rfl)
@[simp] theorem State.setFlag_ras (s : State) (f : Fld) (b : Bool) (i j : Nat) : (s.setFlag f b i j).ras = s.ras := (rfl)
@[simp] theorem State.setFlag_strm (s : State) (f : Fld) (b : Bool) (i j : Nat) : (s.setFlag f b i j).strm = s.strm := (rfl)
@[simp] theorem State.setFlag_time (s : State) (f : Fld) (b : Bool) (i j : Nat) : (s.setFlag f b i j).time = s.time := (rfl)
@[simp] theorem State.setFlag_ports (s : State) (f : Fld) (b : Bool) (i j : Nat) : (s.setFlag f b i j).ports = s.ports := (rfl)
@[simp] theorem State.setFlag_pool (s : State) (f : Fld) (b : Bool) (i j : Nat) : (s.setFlag f b i j).pool = s.pool := (rfl)
@[simp] theorem State.setFlag_seals (s : State) (f : Fld) (b : Bool) (i j : Nat) : (s.setFlag f b i j).seals = s.seals := (rfl)
@[simp] theorem State.setFlag_blm (s : State) (f : Fld) (b : Bool) (i j : Nat) : (s.setFlag f b i j).blm = s.blm := (rfl)
@[simp] theorem State.setFlag_tf (s : State) (f : Fld) (b : Bool) (i j : Nat) : (s.setFlag f b i j).tf = s.tf := (rfl)
@[simp] theorem State.setFlag_prd (s : State) (f : Fld) (b : Bool) (i j : Nat) : (s.setFlag f b i j).prd = s.prd := (rfl)
@[simp] theorem State.setFlag_gwp (s : State) (f : Fld) (b : Bool) (i j : Nat) : (s.setFlag f b i j).gwp = s.gwp := (rfl)
@[simp] theorem State.setFlag_gwl (s : State) (f : Fld) (b : Bool) (i j : Nat) : (s.setFlag f b i j).gwl = s.gwl := (rfl)
@[simp] theorem State.setFlag_hqe (s : State) (f : Fld) (b : Bool) (i j : Nat) : (s.setFlag f b i j).hqe = s.hqe := (rfl)
@[simp] theorem State.setFlag_smb (s : State) (f : Fld) (b : Bool) (i j : Nat) : (s.setFlag f b i j).smb = s.smb := (rfl)
@[simp] theorem State.setFlag_lup (s : State) (f : Fld) (b : Bool) (i j : Nat) : (s.setFlag f b i j).lup = s.lup := (rfl)
@[simp] theorem State.setFlag_fcl (s : State) (f : Fld) (b : Bool) (i j : Nat) : (s.setFlag f b i j).fcl = s.fcl := (rfl)
@[simp] theorem State.setFlag_disp (s : State) (f : Fld) (b : Bool) (i j : Nat) : (s.setFlag f b i j).disp = s.disp := (rfl)
@[simp] theorem State.setFlag_mgd (s : State) (f : Fld) (b : Bool) (i j : Nat) : (s.setFlag f b i j).mgd = s.mgd := (rfl)
@[simp] theorem State.setFlag_vbr (s : State) (f : Fld) (b : Bool) (i j : Nat) : (s.setFlag f b i j).vbr = s.vbr := (rfl)
@[simp] theorem State.setFlag_sec (s : State) (f : Fld) (b : Bool) (i j : Nat) : (s.setFlag f b i j).sec = s.sec := (rfl)
@[simp] theorem State.setFlag_fst (s : State) (f : Fld) (b : Bool) (i j : Nat) : (s.setFlag f b i j).fst = s.fst := (rfl)
@[simp] theorem State.setFlag_egv (s : State) (f : Fld) (b : Bool) (i j : Nat) : (s.setFlag f b i j).egv = s.egv := (rfl)
@[simp] theorem State.setFlag_pmu (s : State) (f : Fld) (b : Bool) (i j : Nat) : (s.setFlag f b i j).pmu = s.pmu := (rfl)
@[simp] theorem State.setFlag_hiLatch (s : State) (f : Fld) (b : Bool) (i j : Nat) : (s.setFlag f b i j).hiLatch = s.hiLatch := (rfl)
@[simp] theorem State.setFlag_out (s : State) (f : Fld) (b : Bool) (i j : Nat) : (s.setFlag f b i j).out = s.out := (rfl)

@[simp] theorem State.addTo_pending (s : State) (f : Fld) (n i j : Nat) : (s.addTo f n i j).pending = s.pending := (rfl)
@[simp] theorem State.addTo_freeIdx (s : State) (f : Fld) (n i j : Nat) : (s.addTo f n i j).freeIdx = s.freeIdx := (rfl)
@[simp] theorem State.addTo_cfg (s : State) (f : Fld) (n i j : Nat) : (s.addTo f n i j).cfg = s.cfg := (rfl)
@[simp] theorem State.addTo_ras (s : State) (f : Fld) (n i j : Nat) : (s.addTo f n i j).ras = s.ras := (rfl)
@[simp] theorem State.addTo_strm (s : State) (f : Fld) (n i j : Nat) : (s.addTo f n i j).strm = s.strm := (rfl)
@[simp] theorem State.addTo_time (s : State) (f : Fld) (n i j : Nat) : (s.addTo f n i j).time = s.time := (rfl)
@[simp] theorem State.addTo_ports (s : State) (f : Fld) (n i j : Nat) : (s.addTo f n i j).ports = s.ports := (rfl)
@[simp] theorem State.addTo_pool (s : State) (f : Fld) (n i j : Nat) : (s.addTo f n i j).pool = s.pool := (rfl)
@[simp] theorem State.addTo_seals (s : State) (f : Fld) (n i j : Nat) : (s.addTo f n i j).seals = s.seals := (rfl)
@[simp] theorem State.addTo_blm (s : State) (f : Fld) (n i j : Nat) : (s.addTo f n i j).blm = s.blm := (rfl)
@[simp] theorem State.addTo_tf (s : State) (f : Fld) (n i j : Nat) : (s.addTo f n i j).tf = s.tf := (rfl)
@[simp] theorem State.addTo_prd (s : State) (f : Fld) (n i j : Nat) : (s.addTo f n i j).prd = s.prd := (rfl)
@[simp] theorem State.addTo_gwp (s : State) (f : Fld) (n i j : Nat) : (s.addTo f n i j).gwp = s.gwp := (rfl)
@[simp] theorem State.addTo_gwl (s : State) (f : Fld) (n i j : Nat) : (s.addTo f n i j).gwl = s.gwl := (rfl)
@[simp] theorem State.addTo_hqe (s : State) (f : Fld) (n i j : Nat) : (s.addTo f n i j).hqe = s.hqe := (rfl)
@[simp] theorem State.addTo_smb (s : State) (f : Fld) (n i j : Nat) : (s.addTo f n i j).smb = s.smb := (rfl)
@[simp] theorem State.addTo_lup (s : State) (f : Fld) (n i j : Nat) : (s.addTo f n i j).lup = s.lup := (rfl)
@[simp] theorem State.addTo_fcl (s : State) (f : Fld) (n i j : Nat) : (s.addTo f n i j).fcl = s.fcl := (rfl)
@[simp] theorem State.addTo_disp (s : State) (f : Fld) (n i j : Nat) : (s.addTo f n i j).disp = s.disp := (rfl)
@[simp] theorem State.addTo_mgd (s : State) (f : Fld) (n i j : Nat) : (s.addTo f n i j).mgd = s.mgd := (rfl)
@[simp] theorem State.addTo_vbr (s : State) (f : Fld) (n i j : Nat) : (s.addTo f n i j).vbr = s.vbr := (rfl)
@[simp] theorem State.addTo_sec (s : State) (f : Fld) (n i j : Nat) : (s.addTo f n i j).sec = s.sec := (rfl)
@[simp] theorem State.addTo_fst (s : State) (f : Fld) (n i j : Nat) : (s.addTo f n i j).fst = s.fst := (rfl)
@[simp] theorem State.addTo_egv (s : State) (f : Fld) (n i j : Nat) : (s.addTo f n i j).egv = s.egv := (rfl)
@[simp] theorem State.addTo_pmu (s : State) (f : Fld) (n i j : Nat) : (s.addTo f n i j).pmu = s.pmu := (rfl)
@[simp] theorem State.addTo_hiLatch (s : State) (f : Fld) (n i j : Nat) : (s.addTo f n i j).hiLatch = s.hiLatch := (rfl)
@[simp] theorem State.addTo_out (s : State) (f : Fld) (n i j : Nat) : (s.addTo f n i j).out = s.out := (rfl)

@[simp] theorem State.count_pending (s : State) (f : Fld) (i j : Nat) : (s.count f i j).pending = s.pending := (rfl)
@[simp] theorem State.count_freeIdx (s : State) (f : Fld) (i j : Nat) : (s.count f i j).freeIdx = s.freeIdx := (rfl)
@[simp] theorem State.count_cfg (s : State) (f : Fld) (i j : Nat) : (s.count f i j).cfg = s.cfg := (rfl)
@[simp] theorem State.count_ras (s : State) (f : Fld) (i j : Nat) : (s.count f i j).ras = s.ras := (rfl)
@[simp] theorem State.count_strm (s : State) (f : Fld) (i j : Nat) : (s.count f i j).strm = s.strm := (rfl)
@[simp] theorem State.count_time (s : State) (f : Fld) (i j : Nat) : (s.count f i j).time = s.time := (rfl)
@[simp] theorem State.count_ports (s : State) (f : Fld) (i j : Nat) : (s.count f i j).ports = s.ports := (rfl)
@[simp] theorem State.count_pool (s : State) (f : Fld) (i j : Nat) : (s.count f i j).pool = s.pool := (rfl)
@[simp] theorem State.count_seals (s : State) (f : Fld) (i j : Nat) : (s.count f i j).seals = s.seals := (rfl)
@[simp] theorem State.count_blm (s : State) (f : Fld) (i j : Nat) : (s.count f i j).blm = s.blm := (rfl)
@[simp] theorem State.count_tf (s : State) (f : Fld) (i j : Nat) : (s.count f i j).tf = s.tf := (rfl)
@[simp] theorem State.count_prd (s : State) (f : Fld) (i j : Nat) : (s.count f i j).prd = s.prd := (rfl)
@[simp] theorem State.count_gwp (s : State) (f : Fld) (i j : Nat) : (s.count f i j).gwp = s.gwp := (rfl)
@[simp] theorem State.count_gwl (s : State) (f : Fld) (i j : Nat) : (s.count f i j).gwl = s.gwl := (rfl)
@[simp] theorem State.count_hqe (s : State) (f : Fld) (i j : Nat) : (s.count f i j).hqe = s.hqe := (rfl)
@[simp] theorem State.count_smb (s : State) (f : Fld) (i j : Nat) : (s.count f i j).smb = s.smb := (rfl)
@[simp] theorem State.count_lup (s : State) (f : Fld) (i j : Nat) : (s.count f i j).lup = s.lup := (rfl)
@[simp] theorem State.count_fcl (s : State) (f : Fld) (i j : Nat) : (s.count f i j).fcl = s.fcl := (rfl)
@[simp] theorem State.count_disp (s : State) (f : Fld) (i j : Nat) : (s.count f i j).disp = s.disp := (rfl)
@[simp] theorem State.count_mgd (s : State) (f : Fld) (i j : Nat) : (s.count f i j).mgd = s.mgd := (rfl)
@[simp] theorem State.count_vbr (s : State) (f : Fld) (i j : Nat) : (s.count f i j).vbr = s.vbr := (rfl)
@[simp] theorem State.count_sec (s : State) (f : Fld) (i j : Nat) : (s.count f i j).sec = s.sec := (rfl)
@[simp] theorem State.count_fst (s : State) (f : Fld) (i j : Nat) : (s.count f i j).fst = s.fst := (rfl)
@[simp] theorem State.count_egv (s : State) (f : Fld) (i j : Nat) : (s.count f i j).egv = s.egv := (rfl)
@[simp] theorem State.count_pmu (s : State) (f : Fld) (i j : Nat) : (s.count f i j).pmu = s.pmu := (rfl)
@[simp] theorem State.count_hiLatch (s : State) (f : Fld) (i j : Nat) : (s.count f i j).hiLatch = s.hiLatch := (rfl)
@[simp] theorem State.count_out (s : State) (f : Fld) (i j : Nat) : (s.count f i j).out = s.out := (rfl)

/-- Two states whose fields agree are the same. -/
theorem State.ext_fields {s t : State} (h_pending : s.pending = t.pending) (h_freeIdx : s.freeIdx = t.freeIdx) (h_regs : s.regs = t.regs) (h_cfg : s.cfg = t.cfg) (h_ras : s.ras = t.ras) (h_strm : s.strm = t.strm) (h_time : s.time = t.time) (h_ports : s.ports = t.ports) (h_pool : s.pool = t.pool) (h_seals : s.seals = t.seals) (h_blm : s.blm = t.blm) (h_tf : s.tf = t.tf) (h_prd : s.prd = t.prd) (h_gwp : s.gwp = t.gwp) (h_gwl : s.gwl = t.gwl) (h_hqe : s.hqe = t.hqe) (h_smb : s.smb = t.smb) (h_lup : s.lup = t.lup) (h_fcl : s.fcl = t.fcl) (h_disp : s.disp = t.disp) (h_mgd : s.mgd = t.mgd) (h_vbr : s.vbr = t.vbr) (h_sec : s.sec = t.sec) (h_fst : s.fst = t.fst) (h_egv : s.egv = t.egv) (h_pmu : s.pmu = t.pmu) (h_hiLatch : s.hiLatch = t.hiLatch) (h_out : s.out = t.out) : s = t := by
  cases s; cases t
  simp_all only

end Sys2Proof.Machine
end

