-- ==== Sys2Proof/Laws/Reports.lean ====
section
/-!
SUPPORT. Laws/Reports.lean: what handling reports (R400 to R412, R529 to R541) leaves as it was: everything but the registers and the
state of the units that a report can reach.
-/
namespace Sys2Proof.Machine

/-- Cells of other keys pass a filter as before a change of one that does not. -/
theorem cellsFilter_drop {α : Type} (p : Nat × α → Bool) (k : Nat) (hp : ∀ v, p (k, v) = false) (l : List (Nat × α)) :
    (cellsDrop k l).filter p = l.filter p := by
  induction l with
  | nil => rfl
  | cons c l ih =>
    obtain ⟨n, v⟩ := c
    unfold cellsDrop
    by_cases h : n = k
    · subst h; simp [hp, ih]
    · simp [h, List.filter_cons, ih]

theorem cellsFilter_put {α : Type} (p : Nat × α → Bool) (k : Nat) (v : α) (hp : ∀ v, p (k, v) = false) (l : List (Nat × α)) :
    (cellsPut k v l).filter p = l.filter p := by
  induction l with
  | nil => simp [cellsPut, hp]
  | cons c l ih =>
    obtain ⟨n, w⟩ := c
    unfold cellsPut
    split <;> simp [List.filter_cons, ih, hp]

theorem cellsGet_filter {α : Type} (d : α) (p : Nat × α → Bool) (k : Nat) (hp : ∀ v, p (k, v) = true) (l : List (Nat × α)) :
    cellsGet d k (l.filter p) = cellsGet d k l := by
  induction l with
  | nil => rfl
  | cons c l ih =>
    obtain ⟨n, w⟩ := c
    by_cases h : n = k
    · subst h; simp [hp, cellsGet]
    · rw [List.filter_cons]
      split <;> simp [cellsGet, h, ih]

/-- A register that no report changes reads in the quiet part as it reads in the state. -/
theorem State.quiet_rd (s : State) (k : RegKind) (i j : Nat) (h : k.reported = false) : s.quiet.rd k i j = s.rd k i j := by
  unfold State.rd State.quiet Tbl.get
  dsimp only
  rw [cellsGet_filter _ _ _ (fun v => by rw [RegKind.key_div, RegKind.ofNat_ctorIdx, h]; rfl)]

/-! Registers of the fields that a report changes. -/

@[simp] theorem F.CFG_STATE.GEN_reg : F.CFG_STATE.GEN.reg = .CFG_STATE := (rfl)
@[simp] theorem F.CFG_STATE.REJ_CNT_reg : F.CFG_STATE.REJ_CNT.reg = .CFG_STATE := (rfl)
@[simp] theorem F.CFG_STATE.DEFERRED_reg : F.CFG_STATE.DEFERRED.reg = .CFG_STATE := (rfl)
@[simp] theorem F.CFG_STATE.REFUSED_reg : F.CFG_STATE.REFUSED.reg = .CFG_STATE := (rfl)
@[simp] theorem F.CFG_STATE.OPEN_DIRTY_reg : F.CFG_STATE.OPEN_DIRTY.reg = .CFG_STATE := (rfl)
@[simp] theorem F.CFG_STATE.STATE_reg : F.CFG_STATE.STATE.reg = .CFG_STATE := (rfl)
@[simp] theorem F.POOL_STAT.META_UNCORR_reg : F.POOL_STAT.META_UNCORR.reg = .POOL_STAT := (rfl)
@[simp] theorem F.POOL_STAT.ECC_UNCORR_reg : F.POOL_STAT.ECC_UNCORR.reg = .POOL_STAT := (rfl)
@[simp] theorem F.POOL_STAT.ECC_CORR_reg : F.POOL_STAT.ECC_CORR.reg = .POOL_STAT := (rfl)
@[simp] theorem F.POOL_STAT.DIR_EXHAUST_reg : F.POOL_STAT.DIR_EXHAUST.reg = .POOL_STAT := (rfl)
@[simp] theorem F.POOL_STAT.SPILL_FULL_reg : F.POOL_STAT.SPILL_FULL.reg = .POOL_STAT := (rfl)
@[simp] theorem F.POOL_STAT.HOST_LOSS_reg : F.POOL_STAT.HOST_LOSS.reg = .POOL_STAT := (rfl)
@[simp] theorem F.POOL_STAT.MIG_LOSS_reg : F.POOL_STAT.MIG_LOSS.reg = .POOL_STAT := (rfl)
@[simp] theorem F.POOL_STAT.LATE_REFUSE_reg : F.POOL_STAT.LATE_REFUSE.reg = .POOL_STAT := (rfl)
@[simp] theorem F.POOL_STAT.REFUSE_reg : F.POOL_STAT.REFUSE.reg = .POOL_STAT := (rfl)
@[simp] theorem F.PRD_STATE.STATE_reg : F.PRD_STATE.STATE.reg = .PRD_STATE := (rfl)
@[simp] theorem F.PRD_STATE.FAST_reg : F.PRD_STATE.FAST.reg = .PRD_STATE := (rfl)
@[simp] theorem F.PRD_STATE.CLASS_reg : F.PRD_STATE.CLASS.reg = .PRD_STATE := (rfl)
@[simp] theorem F.PRD_STATE.DEST_KIND_reg : F.PRD_STATE.DEST_KIND.reg = .PRD_STATE := (rfl)
@[simp] theorem F.PRD_STATE.HOME_reg : F.PRD_STATE.HOME.reg = .PRD_STATE := (rfl)
@[simp] theorem F.PRD_STATE.DOMAIN_reg : F.PRD_STATE.DOMAIN.reg = .PRD_STATE := (rfl)
@[simp] theorem F.PRD_STATE.GEN_reg : F.PRD_STATE.GEN.reg = .PRD_STATE := (rfl)
@[simp] theorem F.PRD_FOOT.LMIN_reg : F.PRD_FOOT.LMIN.reg = .PRD_FOOT := (rfl)
@[simp] theorem F.PRD_FOOT.FOOT_reg : F.PRD_FOOT.FOOT.reg = .PRD_FOOT := (rfl)
@[simp] theorem F.PRD_FOOT.CARRY_KIB_reg : F.PRD_FOOT.CARRY_KIB.reg = .PRD_FOOT := (rfl)
@[simp] theorem F.PRD_COST.COST_reg : F.PRD_COST.COST.reg = .PRD_COST := (rfl)
@[simp] theorem F.PRD_COST.S_reg : F.PRD_COST.S.reg = .PRD_COST := (rfl)
@[simp] theorem F.PRD_COST.DROPPED_reg : F.PRD_COST.DROPPED.reg = .PRD_COST := (rfl)
@[simp] theorem F.HQE_CNT1.EVT_LOST_reg : F.HQE_CNT1.EVT_LOST.reg = .HQE_CNT1 := (rfl)
@[simp] theorem F.HQE_CNT1.RING_ERR_reg : F.HQE_CNT1.RING_ERR.reg = .HQE_CNT1 := (rfl)
@[simp] theorem F.HQE_CNT1.WINDOW_reg : F.HQE_CNT1.WINDOW.reg = .HQE_CNT1 := (rfl)
@[simp] theorem F.HQE_ERR_REC0.VALID_reg : F.HQE_ERR_REC0.VALID.reg = .HQE_ERR_REC0 := (rfl)
@[simp] theorem F.HQE_ERR_REC0.ERR_reg : F.HQE_ERR_REC0.ERR.reg = .HQE_ERR_REC0 := (rfl)
@[simp] theorem F.HQE_ERR_REC0.DOMAIN_reg : F.HQE_ERR_REC0.DOMAIN.reg = .HQE_ERR_REC0 := (rfl)
@[simp] theorem F.HQE_ERR_REC0.RING_reg : F.HQE_ERR_REC0.RING.reg = .HQE_ERR_REC0 := (rfl)
@[simp] theorem F.HQE_ERR_REC1.ADDR_reg : F.HQE_ERR_REC1.ADDR.reg = .HQE_ERR_REC1 := (rfl)
@[simp] theorem F.HQE_ERR_REC2.ADDR_reg : F.HQE_ERR_REC2.ADDR.reg = .HQE_ERR_REC2 := (rfl)
@[simp] theorem F.SMB0_STAT.ALERT_reg : F.SMB0_STAT.ALERT.reg = .SMB0_STAT := (rfl)
@[simp] theorem F.SMB0_STAT.ARA_WON_reg : F.SMB0_STAT.ARA_WON.reg = .SMB0_STAT := (rfl)
@[simp] theorem F.SMB0_STAT.STBY_REF_reg : F.SMB0_STAT.STBY_REF.reg = .SMB0_STAT := (rfl)
@[simp] theorem F.SMB0_STAT.OVERREAD_reg : F.SMB0_STAT.OVERREAD.reg = .SMB0_STAT := (rfl)
@[simp] theorem F.SMB0_STAT.SHORT_reg : F.SMB0_STAT.SHORT.reg = .SMB0_STAT := (rfl)
@[simp] theorem F.SMB0_STAT.ACC_ERR_reg : F.SMB0_STAT.ACC_ERR.reg = .SMB0_STAT := (rfl)
@[simp] theorem F.SMB0_STAT.PROTO_reg : F.SMB0_STAT.PROTO.reg = .SMB0_STAT := (rfl)
@[simp] theorem F.SMB0_STAT.RS_ACK_reg : F.SMB0_STAT.RS_ACK.reg = .SMB0_STAT := (rfl)
@[simp] theorem F.SMB0_STAT.TIMEOUT_reg : F.SMB0_STAT.TIMEOUT.reg = .SMB0_STAT := (rfl)
@[simp] theorem F.SMB0_STAT.PEC_ERR_reg : F.SMB0_STAT.PEC_ERR.reg = .SMB0_STAT := (rfl)
@[simp] theorem F.SMB0_STAT.CMD_NACK_reg : F.SMB0_STAT.CMD_NACK.reg = .SMB0_STAT := (rfl)
@[simp] theorem F.SMB0_ALERT.PENDING_reg : F.SMB0_ALERT.PENDING.reg = .SMB0_ALERT := (rfl)
@[simp] theorem F.FCL_SAFE.SAFE_reg : F.FCL_SAFE.SAFE.reg = .FCL_SAFE := (rfl)
@[simp] theorem F.FCL_SAFE.CAUSE_reg : F.FCL_SAFE.CAUSE.reg = .FCL_SAFE := (rfl)
@[simp] theorem F.FCL_SAFE.SOURCE_reg : F.FCL_SAFE.SOURCE.reg = .FCL_SAFE := (rfl)
@[simp] theorem F.FCL_SAFE.SELF_CODE_reg : F.FCL_SAFE.SELF_CODE.reg = .FCL_SAFE := (rfl)
@[simp] theorem F.FCL_STATUS_LO.STATUS_reg : F.FCL_STATUS_LO.STATUS.reg = .FCL_STATUS_LO := (rfl)
@[simp] theorem F.FCL_STATUS_HI.STATUS_reg : F.FCL_STATUS_HI.STATUS.reg = .FCL_STATUS_HI := (rfl)
@[simp] theorem F.FCL_COINC_LO.COINC_reg : F.FCL_COINC_LO.COINC.reg = .FCL_COINC_LO := (rfl)
@[simp] theorem F.FCL_COINC_HI.COINC_reg : F.FCL_COINC_HI.COINC.reg = .FCL_COINC_HI := (rfl)
@[simp] theorem F.FCL_FF0.VALID_reg : F.FCL_FF0.VALID.reg = .FCL_FF0 := (rfl)
@[simp] theorem F.FCL_FF0.SOURCE_reg : F.FCL_FF0.SOURCE.reg = .FCL_FF0 := (rfl)
@[simp] theorem F.FCL_FF0.SEV_reg : F.FCL_FF0.SEV.reg = .FCL_FF0 := (rfl)
@[simp] theorem F.FCL_FF1.VALUE_reg : F.FCL_FF1.VALUE.reg = .FCL_FF1 := (rfl)
@[simp] theorem F.FCL_FF2.RASTER_reg : F.FCL_FF2.RASTER.reg = .FCL_FF2 := (rfl)
@[simp] theorem F.FCL_FF2.LINE_reg : F.FCL_FF2.LINE.reg = .FCL_FF2 := (rfl)
@[simp] theorem F.FCL_FF2.FRAC_reg : F.FCL_FF2.FRAC.reg = .FCL_FF2 := (rfl)
@[simp] theorem F.FCL_FF3.VALUE_reg : F.FCL_FF3.VALUE.reg = .FCL_FF3 := (rfl)
@[simp] theorem F.FCL_FF4.VALUE_reg : F.FCL_FF4.VALUE.reg = .FCL_FF4 := (rfl)
@[simp] theorem F.FCL_FF5.VALUE_reg : F.FCL_FF5.VALUE.reg = .FCL_FF5 := (rfl)
@[simp] theorem F.FCL_CNT.CNT3_reg : F.FCL_CNT.CNT3.reg = .FCL_CNT := (rfl)
@[simp] theorem F.FCL_CNT.CNT2_reg : F.FCL_CNT.CNT2.reg = .FCL_CNT := (rfl)
@[simp] theorem F.FCL_CNT.CNT1_reg : F.FCL_CNT.CNT1.reg = .FCL_CNT := (rfl)
@[simp] theorem F.FCL_CNT.CNT0_reg : F.FCL_CNT.CNT0.reg = .FCL_CNT := (rfl)
@[simp] theorem F.LUP_STAT.FROZEN_reg : F.LUP_STAT.FROZEN.reg = .LUP_STAT := (rfl)
@[simp] theorem F.LUP_STAT.UNSAVED_reg : F.LUP_STAT.UNSAVED.reg = .LUP_STAT := (rfl)
@[simp] theorem F.LUP_STAT.REFUSED_reg : F.LUP_STAT.REFUSED.reg = .LUP_STAT := (rfl)
@[simp] theorem F.LUP_STAT.SAVE_FAIL_reg : F.LUP_STAT.SAVE_FAIL.reg = .LUP_STAT := (rfl)
@[simp] theorem F.LUP_STAT.LAST_SLOT_reg : F.LUP_STAT.LAST_SLOT.reg = .LUP_STAT := (rfl)
@[simp] theorem F.LUP_STAT.HOLD_reg : F.LUP_STAT.HOLD.reg = .LUP_STAT := (rfl)
@[simp] theorem F.LUP_STAT.COUNT_reg : F.LUP_STAT.COUNT.reg = .LUP_STAT := (rfl)
@[simp] theorem F.LUP_SEQ.NEXT_reg : F.LUP_SEQ.NEXT.reg = .LUP_SEQ := (rfl)
@[simp] theorem F.LUP_CNT.LOST_reg : F.LUP_CNT.LOST.reg = .LUP_CNT := (rfl)
@[simp] theorem F.LUP_CNT.CORR_reg : F.LUP_CNT.CORR.reg = .LUP_CNT := (rfl)
@[simp] theorem F.FIJ_STAT.UNLOCKED_reg : F.FIJ_STAT.UNLOCKED.reg = .FIJ_STAT := (rfl)
@[simp] theorem F.FIJ_STAT.FIRED_reg : F.FIJ_STAT.FIRED.reg = .FIJ_STAT := (rfl)
@[simp] theorem F.FIJ_STAT.ARMED_reg : F.FIJ_STAT.ARMED.reg = .FIJ_STAT := (rfl)
@[simp] theorem F.FIJ_CTRL.ARM_reg : F.FIJ_CTRL.ARM.reg = .FIJ_CTRL := (rfl)
@[simp] theorem F.FIJ_CTRL.LINK_reg : F.FIJ_CTRL.LINK.reg = .FIJ_CTRL := (rfl)
@[simp] theorem F.FIJ_CTRL.ACTION_reg : F.FIJ_CTRL.ACTION.reg = .FIJ_CTRL := (rfl)
@[simp] theorem F.FIJ_CTRL.STAGE_reg : F.FIJ_CTRL.STAGE.reg = .FIJ_CTRL := (rfl)
@[simp] theorem F.FIJ_CTRL.INST_reg : F.FIJ_CTRL.INST.reg = .FIJ_CTRL := (rfl)
@[simp] theorem F.FIJ_CTRL.COUNT_reg : F.FIJ_CTRL.COUNT.reg = .FIJ_CTRL := (rfl)
@[simp] theorem F.FIJ_CTRL.INTERVAL_reg : F.FIJ_CTRL.INTERVAL.reg = .FIJ_CTRL := (rfl)
@[simp] theorem F.PMU_CTRL.FREEZE_reg : F.PMU_CTRL.FREEZE.reg = .PMU_CTRL := (rfl)
@[simp] theorem F.PMU_CTRL.FRZ_SAFE_reg : F.PMU_CTRL.FRZ_SAFE.reg = .PMU_CTRL := (rfl)
@[simp] theorem F.PMU_CTRL.SNAP_NOW_reg : F.PMU_CTRL.SNAP_NOW.reg = .PMU_CTRL := (rfl)
@[simp] theorem F.PMU_CTRL.SNAP_EVT_reg : F.PMU_CTRL.SNAP_EVT.reg = .PMU_CTRL := (rfl)
@[simp] theorem F.PMU_CTR_LO.COUNT_reg : F.PMU_CTR_LO.COUNT.reg = .PMU_CTR_LO := (rfl)
@[simp] theorem F.PMU_CTR_HI.COUNT_reg : F.PMU_CTR_HI.COUNT.reg = .PMU_CTR_HI := (rfl)
@[simp] theorem F.BLM_FAST_LOAD.RESV_PETALS_reg : F.BLM_FAST_LOAD.RESV_PETALS.reg = .BLM_FAST_LOAD := (rfl)
@[simp] theorem F.BLM_FAST_LOAD.CARRY_KIB_reg : F.BLM_FAST_LOAD.CARRY_KIB.reg = .BLM_FAST_LOAD := (rfl)
@[simp] theorem F.EGV_BLOOM.R_B_reg : F.EGV_BLOOM.R_B.reg = .EGV_BLOOM := (rfl)
@[simp] theorem F.EGV_DEMAND.TOKENS_reg : F.EGV_DEMAND.TOKENS.reg = .EGV_DEMAND := (rfl)
@[simp] theorem F.BLM_TF_CTRL.RUNNING_reg : F.BLM_TF_CTRL.RUNNING.reg = .BLM_TF_CTRL := (rfl)
@[simp] theorem F.FST_SYS_FREE.FREE_reg : F.FST_SYS_FREE.FREE.reg = .FST_SYS_FREE := (rfl)

@[simp] theorem RegKind.FCL_SAFE_reported : RegKind.reported .FCL_SAFE = true := (rfl)
@[simp] theorem RegKind.FCL_STATUS_LO_reported : RegKind.reported .FCL_STATUS_LO = true := (rfl)
@[simp] theorem RegKind.FCL_STATUS_HI_reported : RegKind.reported .FCL_STATUS_HI = true := (rfl)
@[simp] theorem RegKind.FCL_COINC_LO_reported : RegKind.reported .FCL_COINC_LO = true := (rfl)
@[simp] theorem RegKind.FCL_COINC_HI_reported : RegKind.reported .FCL_COINC_HI = true := (rfl)
@[simp] theorem RegKind.FCL_FF0_reported : RegKind.reported .FCL_FF0 = true := (rfl)
@[simp] theorem RegKind.FCL_FF1_reported : RegKind.reported .FCL_FF1 = true := (rfl)
@[simp] theorem RegKind.FCL_FF2_reported : RegKind.reported .FCL_FF2 = true := (rfl)
@[simp] theorem RegKind.FCL_FF3_reported : RegKind.reported .FCL_FF3 = true := (rfl)
@[simp] theorem RegKind.FCL_FF4_reported : RegKind.reported .FCL_FF4 = true := (rfl)
@[simp] theorem RegKind.FCL_FF5_reported : RegKind.reported .FCL_FF5 = true := (rfl)
@[simp] theorem RegKind.FCL_CNT_reported : RegKind.reported .FCL_CNT = true := (rfl)
@[simp] theorem RegKind.LUP_STAT_reported : RegKind.reported .LUP_STAT = true := (rfl)
@[simp] theorem RegKind.LUP_SEQ_reported : RegKind.reported .LUP_SEQ = true := (rfl)
@[simp] theorem RegKind.LUP_CNT_reported : RegKind.reported .LUP_CNT = true := (rfl)
@[simp] theorem RegKind.FIJ_CTRL_reported : RegKind.reported .FIJ_CTRL = true := (rfl)
@[simp] theorem RegKind.FIJ_STAT_reported : RegKind.reported .FIJ_STAT = true := (rfl)
@[simp] theorem RegKind.PMU_CTRL_reported : RegKind.reported .PMU_CTRL = true := (rfl)
@[simp] theorem RegKind.PMU_CTR_LO_reported : RegKind.reported .PMU_CTR_LO = true := (rfl)
@[simp] theorem RegKind.PMU_CTR_HI_reported : RegKind.reported .PMU_CTR_HI = true := (rfl)
@[simp] theorem RegKind.SMB0_ALERT_reported : RegKind.reported .SMB0_ALERT = true := (rfl)
@[simp] theorem RegKind.SMB0_STAT_reported : RegKind.reported .SMB0_STAT = true := (rfl)
@[simp] theorem RegKind.HQE_CNT1_reported : RegKind.reported .HQE_CNT1 = true := (rfl)
@[simp] theorem RegKind.HQE_ERR_REC0_reported : RegKind.reported .HQE_ERR_REC0 = true := (rfl)
@[simp] theorem RegKind.HQE_ERR_REC1_reported : RegKind.reported .HQE_ERR_REC1 = true := (rfl)
@[simp] theorem RegKind.HQE_ERR_REC2_reported : RegKind.reported .HQE_ERR_REC2 = true := (rfl)
@[simp] theorem RegKind.PRD_STATE_reported : RegKind.reported .PRD_STATE = true := (rfl)
@[simp] theorem RegKind.PRD_FOOT_reported : RegKind.reported .PRD_FOOT = true := (rfl)
@[simp] theorem RegKind.PRD_COST_reported : RegKind.reported .PRD_COST = true := (rfl)
@[simp] theorem RegKind.CFG_STATE_reported : RegKind.reported .CFG_STATE = true := (rfl)
@[simp] theorem RegKind.POOL_STAT_reported : RegKind.reported .POOL_STAT = true := (rfl)
@[simp] theorem RegKind.POOL_RESV_MIN_reported : RegKind.reported .POOL_RESV_MIN = true := (rfl)
@[simp] theorem RegKind.BLM_FAST_LOAD_reported : RegKind.reported .BLM_FAST_LOAD = true := (rfl)
@[simp] theorem RegKind.EGV_BLOOM_reported : RegKind.reported .EGV_BLOOM = true := (rfl)
@[simp] theorem RegKind.EGV_DEMAND_reported : RegKind.reported .EGV_DEMAND = true := (rfl)
@[simp] theorem RegKind.BLM_TF_CTRL_reported : RegKind.reported .BLM_TF_CTRL = true := (rfl)
@[simp] theorem RegKind.FST_SYS_FREE_reported : RegKind.reported .FST_SYS_FREE = true := (rfl)

@[simp] theorem each_quiet {α : Type} (l : List α) (f : α → State → State) (s : State) (h : ∀ a t, (f a t).quiet = t.quiet) :
    (s.each l f).quiet = s.quiet := by
  unfold State.each
  induction l generalizing s with
  | nil => rfl
  | cons a r ih => rw [List.foldl_cons, ih, h]

@[simp] theorem State.wr_quiet (s : State) (k : RegKind) (v : Nat) (i : Nat) (j : Nat) (h : k.reported = true) :
    (State.wr s k v i j).quiet = s.quiet := by
  unfold State.wr State.quiet Tbl.set cellsSet
  dsimp only
  have hp : ∀ w : Option Word, (!(RegKind.ofNat ((k.key i j, w).1 / 2 ^ 24)).reported) = false := fun w => by
    simp only [RegKind.key_div, RegKind.ofNat_ctorIdx, h, Bool.not_true]
  congr 2
  split
  · exact cellsFilter_drop _ _ hp _
  · exact (cellsFilter_put _ _ _ hp _).trans (cellsFilter_drop _ _ hp _)

@[simp] theorem State.setFld_quiet (s : State) (f : Fld) (v : Nat) (i : Nat) (j : Nat) (h : f.reg.reported = true) :
    (State.setFld s f v i j).quiet = s.quiet := by
  exact State.wr_quiet _ _ _ _ _ h

@[simp] theorem State.setFlag_quiet (s : State) (f : Fld) (b : Bool) (i : Nat) (j : Nat) (h : f.reg.reported = true) :
    (State.setFlag s f b i j).quiet = s.quiet := by
  exact State.wr_quiet _ _ _ _ _ h

@[simp] theorem State.addTo_quiet (s : State) (f : Fld) (n : Nat) (i : Nat) (j : Nat) (h : f.reg.reported = true) :
    (State.addTo s f n i j).quiet = s.quiet := by
  exact State.wr_quiet _ _ _ _ _ h

@[simp] theorem State.count_quiet (s : State) (f : Fld) (i : Nat) (j : Nat) (h : f.reg.reported = true) :
    (State.count s f i j).quiet = s.quiet := by
  exact State.wr_quiet _ _ _ _ _ h

@[simp] theorem State.modGwl_quiet (f : Gwl → Gwl) (s : State) :
    (State.modGwl f s).quiet = s.quiet := (rfl)

@[simp] theorem State.modHqe_quiet (f : Hqe → Hqe) (s : State) :
    (State.modHqe f s).quiet = s.quiet := (rfl)

@[simp] theorem State.modLup_quiet (f : Lup → Lup) (s : State) :
    (State.modLup f s).quiet = s.quiet := (rfl)

@[simp] theorem State.modVbr_quiet (f : Vbr → Vbr) (s : State) :
    (State.modVbr f s).quiet = s.quiet := (rfl)

@[simp] theorem State.modEgv_quiet (f : Egv → Egv) (s : State) :
    (State.modEgv f s).quiet = s.quiet := (rfl)

@[simp] theorem State.modPmu_quiet (f : Pmu → Pmu) (s : State) :
    (State.modPmu f s).quiet = s.quiet := (rfl)

@[simp] theorem State.modFcl_quiet (f : Fcl → Fcl) (s : State) :
    (State.modFcl f s).quiet = s.quiet := (rfl)

@[simp] theorem State.modRing_quiet (g : Nat) (f : Ring → Ring) (s : State) :
    (State.modRing g f s).quiet = s.quiet := (rfl)

@[simp] theorem State.modDom_quiet (d : Nat) (f : Dom → Dom) (s : State) :
    (State.modDom d f s).quiet = s.quiet := (rfl)

@[simp] theorem State.when_quiet (s : State) (c : Bool) (f : State → State) (hf : ∀ y0, (f y0).quiet = y0.quiet) :
    (State.when s c f).quiet = s.quiet := by
  simp only [State.when]
  (repeat' split) <;> simp_all

@[simp] theorem State.pmuAdd_quiet (s : State) (ev : Nat) (inst : Nat) (n : Nat) (cls : Option Nat) :
    (State.pmuAdd s ev inst n cls).quiet = s.quiet := by
  unfold State.pmuAdd
  split
  · rfl
  · refine each_quiet _ _ _ (fun i t => ?_)
    dsimp only
    (repeat' split) <;> simp

@[simp] theorem State.alert_quiet (s : State) (cause : Nat) :
    (State.alert s cause).quiet = s.quiet := by
  simp only [State.alert]
  (repeat' split) <;> simp_all

@[simp] theorem State.startClock_quiet (b : Nat) (code : Nat) (s : State) :
    (State.startClock b code s).quiet = s.quiet := by
  simp only [State.startClock]
  (repeat' split) <;> simp_all

@[simp] theorem State.txPush_quiet (s : State) (t : Txn) :
    (State.txPush s t).quiet = s.quiet := (rfl)

@[simp] theorem State.giveCredit_quiet (cls : Nat) (hdr : Nat) (data : Nat) (s : State) :
    (State.giveCredit cls hdr data s).quiet = s.quiet := by
  simp only [State.giveCredit]
  (repeat' split) <;> simp_all

@[simp] theorem State.freeCredits_quiet (s : State) :
    (State.freeCredits s).quiet = s.quiet := by
  simp only [State.freeCredits]
  (repeat' split) <;> simp_all

@[simp] theorem State.modPool_quiet (f : Pool → Pool) (s : State) :
    (State.modPool f s).quiet = s.quiet := (rfl)

@[simp] theorem State.modSeals_quiet (f : Seal → Seal) (s : State) :
    (State.modSeals f s).quiet = s.quiet := (rfl)

@[simp] theorem State.modBlm_quiet (b : Nat) (f : Bloom → Bloom) (s : State) :
    (State.modBlm b f s).quiet = s.quiet := (rfl)

@[simp] theorem State.modTf_quiet (f : Tf → Tf) (s : State) :
    (State.modTf f s).quiet = s.quiet := (rfl)

@[simp] theorem State.modPrd_quiet (f : Prd → Prd) (s : State) :
    (State.modPrd f s).quiet = s.quiet := (rfl)

@[simp] theorem State.modProduct_quiet (i : Nat) (f : Product → Product) (s : State) :
    (State.modProduct i f s).quiet = s.quiet := (rfl)

@[simp] theorem State.modPFrame_quiet (i : Nat) (f : Nat) (g : PFrame → PFrame) (s : State) :
    (State.modPFrame i f g s).quiet = s.quiet := (rfl)

@[simp] theorem State.modLine_quiet (d : Nat) (f : PLine → PLine) (s : State) :
    (State.modLine d f s).quiet = s.quiet := (rfl)

@[simp] theorem State.dropLine_quiet (d : Nat) (s : State) :
    (State.dropLine d s).quiet = s.quiet := by
  simp only [State.dropLine]
  (repeat' split) <;> simp_all

@[simp] theorem State.settle_quiet (d : Nat) (s : State) :
    (State.settle d s).quiet = s.quiet := by
  simp only [State.settle]
  (repeat' split) <;> simp_all

@[simp] theorem State.release_quiet (d : Nat) (prd : Nat) (s : State) :
    (State.release d prd s).quiet = s.quiet := by
  simp [State.release]

@[simp] theorem State.dropPFrameLines_quiet (i : Nat) (f : Nat) (s : State) :
    (State.dropPFrameLines i f s).quiet = s.quiet := by
  simp [State.dropPFrameLines]

@[simp] theorem State.dropEntry_quiet (d i : Nat) (s : State) : (State.dropEntry d i s).quiet = s.quiet := (rfl)

@[simp] theorem State.releaseSources_quiet (i : Nat) (f : Nat) (s : State) :
    (State.releaseSources i f s).quiet = s.quiet := by
  simp only [State.releaseSources]
  (repeat' split) <;> simp_all

@[simp] theorem State.cancelTiles_quiet (i : Nat) (f : Nat) (s : State) :
    (State.cancelTiles i f s).quiet = s.quiet := by
  unfold State.cancelTiles
  generalize List.range 8 = l
  induction l generalizing s with
  | nil => rfl
  | cons b r ih =>
    rw [List.foldl_cons, ih]
    dsimp only
    split <;> simp

@[simp] theorem State.killFrame_quiet (i : Nat) (f : Nat) (host : Bool) (s : State) :
    (State.killFrame i f host s).quiet = s.quiet := by
  simp [State.killFrame]

@[simp] theorem State.lupSubmit_quiet (s : State) (kind : Nat) (src : Nat) (sev : Nat) (a0 : Nat) (a1 : Nat) :
    (State.lupSubmit s kind src sev a0 a1).quiet = s.quiet := by
  simp only [State.lupSubmit]
  (repeat' split) <;> simp_all

@[simp] theorem State.lupWrite_quiet (s : State) (r : LupRec) :
    (State.lupWrite s r).quiet = s.quiet := by
  simp [State.lupWrite]

@[simp] theorem State.lupDrain_quiet (s : State) :
    (State.lupDrain s).quiet = s.quiet := by
  simp [State.lupDrain]

@[simp] theorem State.signal_quiet (g : Nat) (s : State) :
    (State.signal g s).quiet = s.quiet := by
  simp [State.signal]

@[simp] theorem State.signalIfCount_quiet (g : Nat) (s : State) :
    (State.signalIfCount g s).quiet = s.quiet := by
  simp only [State.signalIfCount]
  (repeat' split) <;> simp_all

@[simp] theorem State.touchCtx_quiet (g : Nat) (s : State) : (State.touchCtx g s).quiet = s.quiet := by
  simp [State.touchCtx]

@[simp] theorem State.writePair_quiet (g : Nat) (e : Entry) (s : State) :
    (State.writePair g e s).1.quiet = s.quiet := by
  simp only [State.writePair]
  (repeat' split) <;> simp_all

@[simp] theorem State.putEntry_quiet (g : Nat) (e : Entry) (s : State) :
    (State.putEntry g e s).1.quiet = s.quiet := by
  simp only [State.putEntry]
  (repeat' split) <;> simp_all

@[simp] theorem State.drainCmp_quiet (g : Nat) (k : Nat) (r : State) :
    (State.drainCmp g k r).1.quiet = r.quiet := by
  induction k generalizing r with
  | zero => rfl
  | succ n ih =>
    unfold State.drainCmp
    dsimp only
    (repeat' split) <;> simp_all

@[simp] theorem State.setBit64_quiet (s : State) (lo : RegKind) (hi : RegKind) (n : Nat) (hl : lo.reported = true) (hh : hi.reported = true) :
    (State.setBit64 s lo hi n).quiet = s.quiet := by
  unfold State.setBit64
  split
  · exact State.wr_quiet _ _ _ _ _ hl
  · exact State.wr_quiet _ _ _ _ _ hh

@[simp] theorem State.bumpFault_quiet (s : State) (src : Nat) :
    (State.bumpFault s src).quiet = s.quiet := by
  simp [State.bumpFault]

@[simp] theorem State.recordFF_quiet (s : State) (src : Nat) (sev : Nat) (detail : Nat) :
    (State.recordFF s src sev detail).quiet = s.quiet := by
  simp [State.recordFF]

@[simp] theorem State.noteFF_quiet (s : State) (src : Nat) (sev : Nat) (detail : Nat) :
    (State.noteFF s src sev detail).quiet = s.quiet := by
  simp only [State.noteFF]
  (repeat' split) <;> simp_all

@[simp] theorem State.raiseNow_quiet (src : Nat) (detail : Nat) (s : State) :
    (State.raiseNow src detail s).1.quiet = s.quiet := by
  simp only [State.raiseNow]
  (repeat' split) <;> simp_all

@[simp] theorem State.showMin_quiet (st n : Nat) (s : State) : (State.showMin st n s).quiet = s.quiet := by
  simp [State.showMin]

@[simp] theorem State.showNoProducts_quiet (s : State) : (State.showNoProducts s).quiet = s.quiet := by
  simp [State.showNoProducts]

@[simp] theorem State.dropHoldings_quiet (s : State) : (State.dropHoldings s).quiet = s.quiet := by
  unfold State.dropHoldings
  rw [each_quiet, State.modSeals_quiet]
  intro c t
  split <;> simp

theorem State.quiet_noPrd (s : State) : ({ s with prd := {} } : State).quiet = s.quiet := (rfl)

@[simp] theorem State.dropProducts_quiet (s : State) :
    (State.dropProducts s).quiet = s.quiet := by
  unfold State.dropProducts
  rw [State.showNoProducts_quiet, State.dropHoldings_quiet, State.quiet_noPrd]
  simp

@[simp] theorem State.dropTiles_quiet (s : State) :
    (State.dropTiles s).quiet = s.quiet := by
  simp [State.dropTiles]

@[simp] theorem State.dropGenerations_quiet (s : State) :
    (State.dropGenerations s).quiet = s.quiet := by
  unfold State.dropGenerations
  dsimp only
  rw [each_quiet]
  · rfl
  · intro a t; simp

@[simp] theorem State.disarmAll_quiet (s : State) :
    (State.disarmAll s).quiet = s.quiet := by
  simp [State.disarmAll]

@[simp] theorem State.dropBridge_quiet (s : State) :
    (State.dropBridge s).quiet = s.quiet := by
  unfold State.dropBridge
  dsimp only
  rw [State.modVbr_quiet, each_quiet]
  intro p t
  rw [State.modVbr_quiet, each_quiet]
  intro h u
  split <;> simp

@[simp] theorem State.enterSafe_quiet (cause : Nat) (src : Nat) (code : Nat) (s : State) :
    (State.enterSafe cause src code s).1.quiet = s.quiet := by
  simp only [State.enterSafe]
  (repeat' split) <;> simp_all

@[simp] theorem State.abandonBuf_quiet (i : Nat) (f : Nat) (s : State) :
    (State.abandonBuf i f s).1.quiet = s.quiet := by
  simp only [State.abandonBuf]
  (repeat' split) <;> simp_all

@[simp] theorem State.abandon_quiet (i : Nat) (f : Nat) (s : State) (b : Bool) :
    (State.abandon i f s b).1.quiet = s.quiet := by
  simp only [State.abandon]
  (repeat' split) <;> simp_all

@[simp] theorem State.failRing_quiet (g : Nat) (cause : Nat) (idx : Nat) (addr : Nat) (completed : Bool) (s : State) :
    (State.failRing g cause idx addr completed s).1.quiet = s.quiet := by
  simp only [State.failRing]
  (repeat' split) <;> simp_all

@[simp] theorem State.runNote_quiet (n : Note) (s : State) :
    (State.runNote n s).1.quiet = s.quiet := by
  simp only [State.runNote]
  (repeat' split) <;> simp_all

@[simp] theorem State.runNotes_quiet (k : Nat) (l : List Note) (r : State) :
    (State.runNotes k l r).quiet = r.quiet := by
  induction k generalizing l r with
  | zero => rfl
  | succ n ih =>
    cases l with
    | nil => rfl
    | cons a t => simp [State.runNotes, ih]

@[simp] theorem State.report_quiet (l : List Note) (s : State) :
    (State.report l s).quiet = s.quiet := by
  simp [State.report]

@[simp] theorem State.andReport_quiet (p : State × List Note) :
    (State.andReport p).quiet = p.1.quiet := by
  simp [State.andReport]

@[simp] theorem State.raise_quiet (src : Nat) (detail : Nat) (s : State) :
    (State.raise src detail s).quiet = s.quiet := by
  simp [State.raise]

@[simp] theorem State.event_quiet (s : State) (d : Nat) (code : Nat) (detail : Nat) (a0 : Nat) (a1 : Nat) (a2 : Nat) (ring : Nat) :
    (State.event s d code detail a0 a1 a2 ring).quiet = s.quiet := by
  simp [State.event]

@[simp] theorem State.report_pending (l : List Note) (s : State) : (s.report l).pending = s.pending := show (s.report l).quiet.pending = s.quiet.pending from congrArg State.pending (State.report_quiet l s)
@[simp] theorem State.report_freeIdx (l : List Note) (s : State) : (s.report l).freeIdx = s.freeIdx := show (s.report l).quiet.freeIdx = s.quiet.freeIdx from congrArg State.freeIdx (State.report_quiet l s)
@[simp] theorem State.report_ras (l : List Note) (s : State) : (s.report l).ras = s.ras := show (s.report l).quiet.ras = s.quiet.ras from congrArg State.ras (State.report_quiet l s)
@[simp] theorem State.report_strm (l : List Note) (s : State) : (s.report l).strm = s.strm := show (s.report l).quiet.strm = s.quiet.strm from congrArg State.strm (State.report_quiet l s)
@[simp] theorem State.report_time (l : List Note) (s : State) : (s.report l).time = s.time := show (s.report l).quiet.time = s.quiet.time from congrArg State.time (State.report_quiet l s)
@[simp] theorem State.report_ports (l : List Note) (s : State) : (s.report l).ports = s.ports := show (s.report l).quiet.ports = s.quiet.ports from congrArg State.ports (State.report_quiet l s)
@[simp] theorem State.report_gwp (l : List Note) (s : State) : (s.report l).gwp = s.gwp := show (s.report l).quiet.gwp = s.quiet.gwp from congrArg State.gwp (State.report_quiet l s)
@[simp] theorem State.report_smb (l : List Note) (s : State) : (s.report l).smb = s.smb := show (s.report l).quiet.smb = s.quiet.smb from congrArg State.smb (State.report_quiet l s)
@[simp] theorem State.report_disp (l : List Note) (s : State) : (s.report l).disp = s.disp := show (s.report l).quiet.disp = s.quiet.disp from congrArg State.disp (State.report_quiet l s)
@[simp] theorem State.report_mgd (l : List Note) (s : State) : (s.report l).mgd = s.mgd := show (s.report l).quiet.mgd = s.quiet.mgd from congrArg State.mgd (State.report_quiet l s)
@[simp] theorem State.report_sec (l : List Note) (s : State) : (s.report l).sec = s.sec := show (s.report l).quiet.sec = s.quiet.sec from congrArg State.sec (State.report_quiet l s)
@[simp] theorem State.report_fst (l : List Note) (s : State) : (s.report l).fst = s.fst := show (s.report l).quiet.fst = s.quiet.fst from congrArg State.fst (State.report_quiet l s)
@[simp] theorem State.report_hiLatch (l : List Note) (s : State) : (s.report l).hiLatch = s.hiLatch := show (s.report l).quiet.hiLatch = s.quiet.hiLatch from congrArg State.hiLatch (State.report_quiet l s)
@[simp] theorem State.report_out (l : List Note) (s : State) : (s.report l).out = s.out := show (s.report l).quiet.out = s.quiet.out from congrArg State.out (State.report_quiet l s)

@[simp] theorem State.raise_pending (src detail : Nat) (s : State) : (s.raise src detail).pending = s.pending := show (s.raise src detail).quiet.pending = s.quiet.pending from congrArg State.pending (State.raise_quiet src detail s)
@[simp] theorem State.raise_freeIdx (src detail : Nat) (s : State) : (s.raise src detail).freeIdx = s.freeIdx := show (s.raise src detail).quiet.freeIdx = s.quiet.freeIdx from congrArg State.freeIdx (State.raise_quiet src detail s)
@[simp] theorem State.raise_ras (src detail : Nat) (s : State) : (s.raise src detail).ras = s.ras := show (s.raise src detail).quiet.ras = s.quiet.ras from congrArg State.ras (State.raise_quiet src detail s)
@[simp] theorem State.raise_strm (src detail : Nat) (s : State) : (s.raise src detail).strm = s.strm := show (s.raise src detail).quiet.strm = s.quiet.strm from congrArg State.strm (State.raise_quiet src detail s)
@[simp] theorem State.raise_time (src detail : Nat) (s : State) : (s.raise src detail).time = s.time := show (s.raise src detail).quiet.time = s.quiet.time from congrArg State.time (State.raise_quiet src detail s)
@[simp] theorem State.raise_ports (src detail : Nat) (s : State) : (s.raise src detail).ports = s.ports := show (s.raise src detail).quiet.ports = s.quiet.ports from congrArg State.ports (State.raise_quiet src detail s)
@[simp] theorem State.raise_gwp (src detail : Nat) (s : State) : (s.raise src detail).gwp = s.gwp := show (s.raise src detail).quiet.gwp = s.quiet.gwp from congrArg State.gwp (State.raise_quiet src detail s)
@[simp] theorem State.raise_smb (src detail : Nat) (s : State) : (s.raise src detail).smb = s.smb := show (s.raise src detail).quiet.smb = s.quiet.smb from congrArg State.smb (State.raise_quiet src detail s)
@[simp] theorem State.raise_disp (src detail : Nat) (s : State) : (s.raise src detail).disp = s.disp := show (s.raise src detail).quiet.disp = s.quiet.disp from congrArg State.disp (State.raise_quiet src detail s)
@[simp] theorem State.raise_mgd (src detail : Nat) (s : State) : (s.raise src detail).mgd = s.mgd := show (s.raise src detail).quiet.mgd = s.quiet.mgd from congrArg State.mgd (State.raise_quiet src detail s)
@[simp] theorem State.raise_sec (src detail : Nat) (s : State) : (s.raise src detail).sec = s.sec := show (s.raise src detail).quiet.sec = s.quiet.sec from congrArg State.sec (State.raise_quiet src detail s)
@[simp] theorem State.raise_fst (src detail : Nat) (s : State) : (s.raise src detail).fst = s.fst := show (s.raise src detail).quiet.fst = s.quiet.fst from congrArg State.fst (State.raise_quiet src detail s)
@[simp] theorem State.raise_hiLatch (src detail : Nat) (s : State) : (s.raise src detail).hiLatch = s.hiLatch := show (s.raise src detail).quiet.hiLatch = s.quiet.hiLatch from congrArg State.hiLatch (State.raise_quiet src detail s)
@[simp] theorem State.raise_out (src detail : Nat) (s : State) : (s.raise src detail).out = s.out := show (s.raise src detail).quiet.out = s.quiet.out from congrArg State.out (State.raise_quiet src detail s)

@[simp] theorem State.event_pending (s : State) (d c x a b e g : Nat) : (s.event d c x a b e g).pending = s.pending := show (s.event d c x a b e g).quiet.pending = s.quiet.pending from congrArg State.pending (State.event_quiet s d c x a b e g)
@[simp] theorem State.event_freeIdx (s : State) (d c x a b e g : Nat) : (s.event d c x a b e g).freeIdx = s.freeIdx := show (s.event d c x a b e g).quiet.freeIdx = s.quiet.freeIdx from congrArg State.freeIdx (State.event_quiet s d c x a b e g)
@[simp] theorem State.event_ras (s : State) (d c x a b e g : Nat) : (s.event d c x a b e g).ras = s.ras := show (s.event d c x a b e g).quiet.ras = s.quiet.ras from congrArg State.ras (State.event_quiet s d c x a b e g)
@[simp] theorem State.event_strm (s : State) (d c x a b e g : Nat) : (s.event d c x a b e g).strm = s.strm := show (s.event d c x a b e g).quiet.strm = s.quiet.strm from congrArg State.strm (State.event_quiet s d c x a b e g)
@[simp] theorem State.event_time (s : State) (d c x a b e g : Nat) : (s.event d c x a b e g).time = s.time := show (s.event d c x a b e g).quiet.time = s.quiet.time from congrArg State.time (State.event_quiet s d c x a b e g)
@[simp] theorem State.event_ports (s : State) (d c x a b e g : Nat) : (s.event d c x a b e g).ports = s.ports := show (s.event d c x a b e g).quiet.ports = s.quiet.ports from congrArg State.ports (State.event_quiet s d c x a b e g)
@[simp] theorem State.event_gwp (s : State) (d c x a b e g : Nat) : (s.event d c x a b e g).gwp = s.gwp := show (s.event d c x a b e g).quiet.gwp = s.quiet.gwp from congrArg State.gwp (State.event_quiet s d c x a b e g)
@[simp] theorem State.event_smb (s : State) (d c x a b e g : Nat) : (s.event d c x a b e g).smb = s.smb := show (s.event d c x a b e g).quiet.smb = s.quiet.smb from congrArg State.smb (State.event_quiet s d c x a b e g)
@[simp] theorem State.event_disp (s : State) (d c x a b e g : Nat) : (s.event d c x a b e g).disp = s.disp := show (s.event d c x a b e g).quiet.disp = s.quiet.disp from congrArg State.disp (State.event_quiet s d c x a b e g)
@[simp] theorem State.event_mgd (s : State) (d c x a b e g : Nat) : (s.event d c x a b e g).mgd = s.mgd := show (s.event d c x a b e g).quiet.mgd = s.quiet.mgd from congrArg State.mgd (State.event_quiet s d c x a b e g)
@[simp] theorem State.event_sec (s : State) (d c x a b e g : Nat) : (s.event d c x a b e g).sec = s.sec := show (s.event d c x a b e g).quiet.sec = s.quiet.sec from congrArg State.sec (State.event_quiet s d c x a b e g)
@[simp] theorem State.event_fst (s : State) (d c x a b e g : Nat) : (s.event d c x a b e g).fst = s.fst := show (s.event d c x a b e g).quiet.fst = s.quiet.fst from congrArg State.fst (State.event_quiet s d c x a b e g)
@[simp] theorem State.event_hiLatch (s : State) (d c x a b e g : Nat) : (s.event d c x a b e g).hiLatch = s.hiLatch := show (s.event d c x a b e g).quiet.hiLatch = s.quiet.hiLatch from congrArg State.hiLatch (State.event_quiet s d c x a b e g)
@[simp] theorem State.event_out (s : State) (d c x a b e g : Nat) : (s.event d c x a b e g).out = s.out := show (s.event d c x a b e g).quiet.out = s.quiet.out from congrArg State.out (State.event_quiet s d c x a b e g)

@[simp] theorem State.pmuAdd_pending (s : State) (ev i n : Nat) (c : Option Nat) : (s.pmuAdd ev i n c).pending = s.pending := show (s.pmuAdd ev i n c).quiet.pending = s.quiet.pending from congrArg State.pending (State.pmuAdd_quiet s ev i n c)
@[simp] theorem State.pmuAdd_freeIdx (s : State) (ev i n : Nat) (c : Option Nat) : (s.pmuAdd ev i n c).freeIdx = s.freeIdx := show (s.pmuAdd ev i n c).quiet.freeIdx = s.quiet.freeIdx from congrArg State.freeIdx (State.pmuAdd_quiet s ev i n c)
@[simp] theorem State.pmuAdd_ras (s : State) (ev i n : Nat) (c : Option Nat) : (s.pmuAdd ev i n c).ras = s.ras := show (s.pmuAdd ev i n c).quiet.ras = s.quiet.ras from congrArg State.ras (State.pmuAdd_quiet s ev i n c)
@[simp] theorem State.pmuAdd_strm (s : State) (ev i n : Nat) (c : Option Nat) : (s.pmuAdd ev i n c).strm = s.strm := show (s.pmuAdd ev i n c).quiet.strm = s.quiet.strm from congrArg State.strm (State.pmuAdd_quiet s ev i n c)
@[simp] theorem State.pmuAdd_time (s : State) (ev i n : Nat) (c : Option Nat) : (s.pmuAdd ev i n c).time = s.time := show (s.pmuAdd ev i n c).quiet.time = s.quiet.time from congrArg State.time (State.pmuAdd_quiet s ev i n c)
@[simp] theorem State.pmuAdd_ports (s : State) (ev i n : Nat) (c : Option Nat) : (s.pmuAdd ev i n c).ports = s.ports := show (s.pmuAdd ev i n c).quiet.ports = s.quiet.ports from congrArg State.ports (State.pmuAdd_quiet s ev i n c)
@[simp] theorem State.pmuAdd_gwp (s : State) (ev i n : Nat) (c : Option Nat) : (s.pmuAdd ev i n c).gwp = s.gwp := show (s.pmuAdd ev i n c).quiet.gwp = s.quiet.gwp from congrArg State.gwp (State.pmuAdd_quiet s ev i n c)
@[simp] theorem State.pmuAdd_smb (s : State) (ev i n : Nat) (c : Option Nat) : (s.pmuAdd ev i n c).smb = s.smb := show (s.pmuAdd ev i n c).quiet.smb = s.quiet.smb from congrArg State.smb (State.pmuAdd_quiet s ev i n c)
@[simp] theorem State.pmuAdd_disp (s : State) (ev i n : Nat) (c : Option Nat) : (s.pmuAdd ev i n c).disp = s.disp := show (s.pmuAdd ev i n c).quiet.disp = s.quiet.disp from congrArg State.disp (State.pmuAdd_quiet s ev i n c)
@[simp] theorem State.pmuAdd_mgd (s : State) (ev i n : Nat) (c : Option Nat) : (s.pmuAdd ev i n c).mgd = s.mgd := show (s.pmuAdd ev i n c).quiet.mgd = s.quiet.mgd from congrArg State.mgd (State.pmuAdd_quiet s ev i n c)
@[simp] theorem State.pmuAdd_sec (s : State) (ev i n : Nat) (c : Option Nat) : (s.pmuAdd ev i n c).sec = s.sec := show (s.pmuAdd ev i n c).quiet.sec = s.quiet.sec from congrArg State.sec (State.pmuAdd_quiet s ev i n c)
@[simp] theorem State.pmuAdd_fst (s : State) (ev i n : Nat) (c : Option Nat) : (s.pmuAdd ev i n c).fst = s.fst := show (s.pmuAdd ev i n c).quiet.fst = s.quiet.fst from congrArg State.fst (State.pmuAdd_quiet s ev i n c)
@[simp] theorem State.pmuAdd_hiLatch (s : State) (ev i n : Nat) (c : Option Nat) : (s.pmuAdd ev i n c).hiLatch = s.hiLatch := show (s.pmuAdd ev i n c).quiet.hiLatch = s.quiet.hiLatch from congrArg State.hiLatch (State.pmuAdd_quiet s ev i n c)
@[simp] theorem State.pmuAdd_out (s : State) (ev i n : Nat) (c : Option Nat) : (s.pmuAdd ev i n c).out = s.out := show (s.pmuAdd ev i n c).quiet.out = s.quiet.out from congrArg State.out (State.pmuAdd_quiet s ev i n c)

@[simp] theorem State.lupSubmit_pending (s : State) (k src sev a b : Nat) : (s.lupSubmit k src sev a b).pending = s.pending := show (s.lupSubmit k src sev a b).quiet.pending = s.quiet.pending from congrArg State.pending (State.lupSubmit_quiet s k src sev a b)
@[simp] theorem State.lupSubmit_freeIdx (s : State) (k src sev a b : Nat) : (s.lupSubmit k src sev a b).freeIdx = s.freeIdx := show (s.lupSubmit k src sev a b).quiet.freeIdx = s.quiet.freeIdx from congrArg State.freeIdx (State.lupSubmit_quiet s k src sev a b)
@[simp] theorem State.lupSubmit_ras (s : State) (k src sev a b : Nat) : (s.lupSubmit k src sev a b).ras = s.ras := show (s.lupSubmit k src sev a b).quiet.ras = s.quiet.ras from congrArg State.ras (State.lupSubmit_quiet s k src sev a b)
@[simp] theorem State.lupSubmit_strm (s : State) (k src sev a b : Nat) : (s.lupSubmit k src sev a b).strm = s.strm := show (s.lupSubmit k src sev a b).quiet.strm = s.quiet.strm from congrArg State.strm (State.lupSubmit_quiet s k src sev a b)
@[simp] theorem State.lupSubmit_time (s : State) (k src sev a b : Nat) : (s.lupSubmit k src sev a b).time = s.time := show (s.lupSubmit k src sev a b).quiet.time = s.quiet.time from congrArg State.time (State.lupSubmit_quiet s k src sev a b)
@[simp] theorem State.lupSubmit_ports (s : State) (k src sev a b : Nat) : (s.lupSubmit k src sev a b).ports = s.ports := show (s.lupSubmit k src sev a b).quiet.ports = s.quiet.ports from congrArg State.ports (State.lupSubmit_quiet s k src sev a b)
@[simp] theorem State.lupSubmit_gwp (s : State) (k src sev a b : Nat) : (s.lupSubmit k src sev a b).gwp = s.gwp := show (s.lupSubmit k src sev a b).quiet.gwp = s.quiet.gwp from congrArg State.gwp (State.lupSubmit_quiet s k src sev a b)
@[simp] theorem State.lupSubmit_smb (s : State) (k src sev a b : Nat) : (s.lupSubmit k src sev a b).smb = s.smb := show (s.lupSubmit k src sev a b).quiet.smb = s.quiet.smb from congrArg State.smb (State.lupSubmit_quiet s k src sev a b)
@[simp] theorem State.lupSubmit_disp (s : State) (k src sev a b : Nat) : (s.lupSubmit k src sev a b).disp = s.disp := show (s.lupSubmit k src sev a b).quiet.disp = s.quiet.disp from congrArg State.disp (State.lupSubmit_quiet s k src sev a b)
@[simp] theorem State.lupSubmit_mgd (s : State) (k src sev a b : Nat) : (s.lupSubmit k src sev a b).mgd = s.mgd := show (s.lupSubmit k src sev a b).quiet.mgd = s.quiet.mgd from congrArg State.mgd (State.lupSubmit_quiet s k src sev a b)
@[simp] theorem State.lupSubmit_sec (s : State) (k src sev a b : Nat) : (s.lupSubmit k src sev a b).sec = s.sec := show (s.lupSubmit k src sev a b).quiet.sec = s.quiet.sec from congrArg State.sec (State.lupSubmit_quiet s k src sev a b)
@[simp] theorem State.lupSubmit_fst (s : State) (k src sev a b : Nat) : (s.lupSubmit k src sev a b).fst = s.fst := show (s.lupSubmit k src sev a b).quiet.fst = s.quiet.fst from congrArg State.fst (State.lupSubmit_quiet s k src sev a b)
@[simp] theorem State.lupSubmit_hiLatch (s : State) (k src sev a b : Nat) : (s.lupSubmit k src sev a b).hiLatch = s.hiLatch := show (s.lupSubmit k src sev a b).quiet.hiLatch = s.quiet.hiLatch from congrArg State.hiLatch (State.lupSubmit_quiet s k src sev a b)
@[simp] theorem State.lupSubmit_out (s : State) (k src sev a b : Nat) : (s.lupSubmit k src sev a b).out = s.out := show (s.lupSubmit k src sev a b).quiet.out = s.quiet.out from congrArg State.out (State.lupSubmit_quiet s k src sev a b)

@[simp] theorem State.alert_pending (s : State) (c : Nat) : (s.alert c).pending = s.pending := show (s.alert c).quiet.pending = s.quiet.pending from congrArg State.pending (State.alert_quiet s c)
@[simp] theorem State.alert_freeIdx (s : State) (c : Nat) : (s.alert c).freeIdx = s.freeIdx := show (s.alert c).quiet.freeIdx = s.quiet.freeIdx from congrArg State.freeIdx (State.alert_quiet s c)
@[simp] theorem State.alert_ras (s : State) (c : Nat) : (s.alert c).ras = s.ras := show (s.alert c).quiet.ras = s.quiet.ras from congrArg State.ras (State.alert_quiet s c)
@[simp] theorem State.alert_strm (s : State) (c : Nat) : (s.alert c).strm = s.strm := show (s.alert c).quiet.strm = s.quiet.strm from congrArg State.strm (State.alert_quiet s c)
@[simp] theorem State.alert_time (s : State) (c : Nat) : (s.alert c).time = s.time := show (s.alert c).quiet.time = s.quiet.time from congrArg State.time (State.alert_quiet s c)
@[simp] theorem State.alert_ports (s : State) (c : Nat) : (s.alert c).ports = s.ports := show (s.alert c).quiet.ports = s.quiet.ports from congrArg State.ports (State.alert_quiet s c)
@[simp] theorem State.alert_gwp (s : State) (c : Nat) : (s.alert c).gwp = s.gwp := show (s.alert c).quiet.gwp = s.quiet.gwp from congrArg State.gwp (State.alert_quiet s c)
@[simp] theorem State.alert_smb (s : State) (c : Nat) : (s.alert c).smb = s.smb := show (s.alert c).quiet.smb = s.quiet.smb from congrArg State.smb (State.alert_quiet s c)
@[simp] theorem State.alert_disp (s : State) (c : Nat) : (s.alert c).disp = s.disp := show (s.alert c).quiet.disp = s.quiet.disp from congrArg State.disp (State.alert_quiet s c)
@[simp] theorem State.alert_mgd (s : State) (c : Nat) : (s.alert c).mgd = s.mgd := show (s.alert c).quiet.mgd = s.quiet.mgd from congrArg State.mgd (State.alert_quiet s c)
@[simp] theorem State.alert_sec (s : State) (c : Nat) : (s.alert c).sec = s.sec := show (s.alert c).quiet.sec = s.quiet.sec from congrArg State.sec (State.alert_quiet s c)
@[simp] theorem State.alert_fst (s : State) (c : Nat) : (s.alert c).fst = s.fst := show (s.alert c).quiet.fst = s.quiet.fst from congrArg State.fst (State.alert_quiet s c)
@[simp] theorem State.alert_hiLatch (s : State) (c : Nat) : (s.alert c).hiLatch = s.hiLatch := show (s.alert c).quiet.hiLatch = s.quiet.hiLatch from congrArg State.hiLatch (State.alert_quiet s c)
@[simp] theorem State.alert_out (s : State) (c : Nat) : (s.alert c).out = s.out := show (s.alert c).quiet.out = s.quiet.out from congrArg State.out (State.alert_quiet s c)

/-! Registers that no report changes. -/

/-- States of one quiet part agree in the registers that no report changes. -/
theorem State.rd_of_quiet {s t : State} (q : t.quiet = s.quiet) (k : RegKind) (i j : Nat) (h : k.reported = false) : t.rd k i j = s.rd k i j := by
  rw [← State.quiet_rd t k i j h, ← State.quiet_rd s k i j h, q]

theorem State.fld_of_quiet {s t : State} (q : t.quiet = s.quiet) (f : Fld) (i j : Nat) (h : f.reg.reported = false) : t.fld f i j = s.fld f i j := by
  unfold State.fld
  rw [State.rd_of_quiet q _ _ _ h]

theorem State.flag_of_quiet {s t : State} (q : t.quiet = s.quiet) (f : Fld) (i j : Nat) (h : f.reg.reported = false) : t.flag f i j = s.flag f i j := by
  unfold State.flag
  rw [State.fld_of_quiet q _ _ _ h]

theorem State.report_rd (l : List Note) (s : State) (k : RegKind) (i j : Nat) (h : k.reported = false) : (s.report l).rd k i j = s.rd k i j :=
  State.rd_of_quiet (State.report_quiet l s) k i j h
theorem State.report_fld (l : List Note) (s : State) (f : Fld) (i j : Nat) (h : f.reg.reported = false) : (s.report l).fld f i j = s.fld f i j :=
  State.fld_of_quiet (State.report_quiet l s) f i j h

theorem State.raise_rd (src detail : Nat) (s : State) (k : RegKind) (i j : Nat) (h : k.reported = false) : (s.raise src detail).rd k i j = s.rd k i j :=
  State.rd_of_quiet (State.raise_quiet src detail s) k i j h
theorem State.raise_fld (src detail : Nat) (s : State) (f : Fld) (i j : Nat) (h : f.reg.reported = false) : (s.raise src detail).fld f i j = s.fld f i j :=
  State.fld_of_quiet (State.raise_quiet src detail s) f i j h

theorem State.event_rd (s : State) (d c x a b e g : Nat) (k : RegKind) (i j : Nat) (h : k.reported = false) : (s.event d c x a b e g).rd k i j = s.rd k i j :=
  State.rd_of_quiet (State.event_quiet s d c x a b e g) k i j h
theorem State.event_fld (s : State) (d c x a b e g : Nat) (f : Fld) (i j : Nat) (h : f.reg.reported = false) : (s.event d c x a b e g).fld f i j = s.fld f i j :=
  State.fld_of_quiet (State.event_quiet s d c x a b e g) f i j h

theorem State.pmuAdd_rd (s : State) (ev n m : Nat) (c : Option Nat) (k : RegKind) (i j : Nat) (h : k.reported = false) : (s.pmuAdd ev n m c).rd k i j = s.rd k i j :=
  State.rd_of_quiet (State.pmuAdd_quiet s ev n m c) k i j h
theorem State.pmuAdd_fld (s : State) (ev n m : Nat) (c : Option Nat) (f : Fld) (i j : Nat) (h : f.reg.reported = false) : (s.pmuAdd ev n m c).fld f i j = s.fld f i j :=
  State.fld_of_quiet (State.pmuAdd_quiet s ev n m c) f i j h

theorem State.lupSubmit_rd (s : State) (q src sev a b : Nat) (k : RegKind) (i j : Nat) (h : k.reported = false) : (s.lupSubmit q src sev a b).rd k i j = s.rd k i j :=
  State.rd_of_quiet (State.lupSubmit_quiet s q src sev a b) k i j h
theorem State.lupSubmit_fld (s : State) (q src sev a b : Nat) (f : Fld) (i j : Nat) (h : f.reg.reported = false) : (s.lupSubmit q src sev a b).fld f i j = s.fld f i j :=
  State.fld_of_quiet (State.lupSubmit_quiet s q src sev a b) f i j h

theorem State.alert_rd (s : State) (c : Nat) (k : RegKind) (i j : Nat) (h : k.reported = false) : (s.alert c).rd k i j = s.rd k i j :=
  State.rd_of_quiet (State.alert_quiet s c) k i j h
theorem State.alert_fld (s : State) (c : Nat) (f : Fld) (i j : Nat) (h : f.reg.reported = false) : (s.alert c).fld f i j = s.fld f i j :=
  State.fld_of_quiet (State.alert_quiet s c) f i j h

end Sys2Proof.Machine
end

