-- ==== Sys2Proof/Laws/Frames.lean ====
section
/-!
SUPPORT. Laws/Frames.lean: `SameRegs` is kept by every basic update whose register stands in the list, and by every update that leaves
the register file; which registers a reset keeps.
-/
namespace Sys2Proof.Machine

theorem SameRegs.refl (l : List RegId) (s : State) : SameRegs l s s := fun _ _ _ _ _ _ => rfl

theorem SameRegs.trans {l : List RegId} {s t u : State} (h : SameRegs l s t) (h' : SameRegs l t u) : SameRegs l s u :=
  fun k i j hi hj hn => (h' k i j hi hj hn).trans (h k i j hi hj hn)

/-- The register file alone decides. -/
theorem SameRegs.of_regs {l : List RegId} {s t u : State} (h : SameRegs l s t) (e : u.regs = t.regs) : SameRegs l s u :=
  fun k i j hi hj hn => by
    have : u.rd k i j = t.rd k i j := by unfold State.rd; rw [e]
    rw [this]
    exact h k i j hi hj hn

theorem SameRegs.wr {l : List RegId} {s t : State} (h : SameRegs l s t) (k : RegKind) (v i j : Nat) (hi : i < 4096) (hj : j < 4096)
    (hm : (⟨k, i, j⟩ : RegId) ∈ l) : SameRegs l s (t.wr k v i j) := fun k' i' j' hi' hj' hn => by
  rw [State.rd_wr_other]
  · exact h k' i' j' hi' hj' hn
  · intro e
    obtain ⟨rfl, rfl, rfl⟩ := RegKind.key_inj hi' hj' hi hj e
    exact hn hm

theorem SameRegs.setFld {l : List RegId} {s t : State} (h : SameRegs l s t) (f : Fld) (v i j : Nat) (hi : i < 4096) (hj : j < 4096)
    (hm : (⟨f.reg, i, j⟩ : RegId) ∈ l) : SameRegs l s (t.setFld f v i j) := h.wr _ _ _ _ hi hj hm

theorem SameRegs.setFlag {l : List RegId} {s t : State} (h : SameRegs l s t) (f : Fld) (b : Bool) (i j : Nat) (hi : i < 4096) (hj : j < 4096)
    (hm : (⟨f.reg, i, j⟩ : RegId) ∈ l) : SameRegs l s (t.setFlag f b i j) := h.wr _ _ _ _ hi hj hm

theorem SameRegs.addTo {l : List RegId} {s t : State} (h : SameRegs l s t) (f : Fld) (v i j : Nat) (hi : i < 4096) (hj : j < 4096)
    (hm : (⟨f.reg, i, j⟩ : RegId) ∈ l) : SameRegs l s (t.addTo f v i j) := h.wr _ _ _ _ hi hj hm

theorem SameRegs.count {l : List RegId} {s t : State} (h : SameRegs l s t) (f : Fld) (i j : Nat) (hi : i < 4096) (hj : j < 4096)
    (hm : (⟨f.reg, i, j⟩ : RegId) ∈ l) : SameRegs l s (t.count f i j) := h.wr _ _ _ _ hi hj hm

theorem SameRegs.ite {l : List RegId} {s t u : State} {p : Prop} [Decidable p] (ht : SameRegs l s t) (hu : SameRegs l s u) :
    SameRegs l s (if p then t else u) := by
  split <;> assumption

/-- A register of a kept kind reads as before. -/
theorem keepRegs_get (ks : List RegKind) (t : Tbl (Option Word)) (k : RegKind) (i j : Nat) (h : k ∈ ks) :
    (keepRegs ks t).get (k.key i j) = t.get (k.key i j) := by
  unfold keepRegs Tbl.get
  refine cellsGet_filter _ _ _ (fun v => ?_) _
  simp only [RegKind.key_div]
  exact List.any_eq_true.mpr ⟨k, h, by simp⟩

theorem cellsGet_gone {α : Type} (d : α) (p : Nat × α → Bool) (k : Nat) (hp : ∀ v, p (k, v) = false) (l : List (Nat × α)) :
    cellsGet d k (l.filter p) = d := by
  induction l with
  | nil => rfl
  | cons c l ih =>
    obtain ⟨n, w⟩ := c
    rw [List.filter_cons]
    split
    · by_cases h : n = k
      · subst h; simp_all
      · simp [cellsGet, h, ih]
    · exact ih

/-- A register of another kind reads its reset value. -/
theorem keepRegs_get_gone (ks : List RegKind) (t : Tbl (Option Word)) (k : RegKind) (i j : Nat) (h : k ∉ ks) :
    (keepRegs ks t).get (k.key i j) = none := by
  unfold keepRegs Tbl.get
  refine cellsGet_gone _ _ _ (fun v => ?_) _
  simp only [RegKind.key_div]
  refine Bool.eq_false_iff.mpr (fun e => ?_)
  obtain ⟨q, hq, e⟩ := List.any_eq_true.mp e
  exact h (RegKind.ctorIdx_inj (by simpa using e) ▸ hq)

/-! The board alert (R517). -/

/-- What an alert cause does: its bit, and the alert line when it is asserted. -/
theorem State.alert_cases (s : State) (c : Nat) : s.alert c = s.wr .SMB0_ALERT (s.rd .SMB0_ALERT ||| (1 <<< c))
    ∨ s.alert c = (s.wr .SMB0_ALERT (s.rd .SMB0_ALERT ||| (1 <<< c))).setFlag F.SMB0_STAT.ALERT := by
  unfold State.alert
  dsimp only
  split
  · exact .inr rfl
  · exact .inl rfl

theorem State.alert_sameRegs (s : State) (c : Nat) : SameRegs [⟨.SMB0_ALERT, 0, 0⟩, ⟨.SMB0_STAT, 0, 0⟩] s (s.alert c) := by
  obtain h | h := State.alert_cases s c <;> rw [h]
  · exact (SameRegs.refl _ _).wr _ _ _ _ (by decide) (by decide) (by decide)
  · exact ((SameRegs.refl _ _).wr _ _ _ _ (by decide) (by decide) (by decide)).setFlag _ _ _ _ (by decide) (by decide) (by decide)

end Sys2Proof.Machine
end

