-- ==== Sys2Proof/WellFormed.lean ====
section
/-!
DEFINITION. WellFormed.lean: operands that the event of a command can bring. A command is given its meaning whether or not its operands
are well formed, so no meaning and no statement rests on this check.
-/
namespace Sys2Proof

/-- A short packet of data type `dt` (R105, R114): its header, once corrected, says so on a port with VCX_EN or on one without; of a header
that the ECC cannot correct nothing is known. -/
def CsiHeader.wf (h : CsiHeader) (dt : Nat) : Bool :=
  [false, true].any (fun vcx => match Machine.checkHeader vcx h with
    | some (g, _) => g.dt.toNat == dt
    | none => true)

/-- A received long packet (R103, R116): a payload fits its 16-bit word count, and an overrun lies in the payload. -/
def LongPacket.wf (p : LongPacket) : Bool :=
  p.payload.length ≤ 65535 && (match p.overrun with
    | some n => n < p.payload.length
    | none => true)

/-- A CAN message (R468): an 11-bit identifier where it is not extended, and a length that a DLC can say; a remote frame is classical and
has no data. -/
def CanMsg.wf (m : CanMsg) : Bool :=
  (m.ext || m.id.toNat < 2048) && (!m.rtr || (!m.fd && m.data.isEmpty))
    && (m.data.length ≤ 8 || (m.fd && [12, 16, 20, 24, 32, 48, 64].any (· == m.data.length)))

/-- A host MWR (R362): its data has the length that its header gives. -/
def HostTxn.wfWrite (t : HostTxn) : Bool := 1 ≤ t.len.toNat && t.len.toNat ≤ 4096 && t.data.length == t.len.toNat

/-- A host MRD (R362): it carries no data. -/
def HostTxn.wfRead (t : HostTxn) : Bool := 1 ≤ t.len.toNat && t.len.toNat ≤ 4096 && t.data.isEmpty

/-- A host CPL (R362, R364): data only with OK. -/
def HostTxn.wfCpl (t : HostTxn) : Bool :=
  t.len.toNat ≤ 4096 && (if t.sub.toNat % 8 = 0 then 1 ≤ t.len.toNat && t.data.length == t.len.toNat else t.len == 0 && t.data.isEmpty)

/-- An area of the boot flash (R568) ends within the range of its 32-bit offsets. -/
def FlashArea.wf (a : FlashArea) : Bool := a.offset.toNat + a.bytes.length ≤ 2 ^ 32

/-- The operands of a command are ones that its event can bring. -/
def Instr.wf : Instr → Bool
  | .porstN _ _ _ _ => true
  | .wrstN _ => true
  | .warmResetDone => true
  | .pwrGoodRise _ => true
  | .powerLoss => true
  | .pwrGoodTimeout => true
  | .wakeIn => true
  | .standbyEntry => true
  | .imageLoadDone flash => flash.all FlashArea.wf
  | .imageVerifyDone _ _ _ => true
  | .profileApply => true
  | .scriptEntry _ _ => true
  | .scriptTimeout _ => true
  | .handover => true
  | .attest => true
  | .unlock => true
  | .keyOp => true
  | .cert => true
  | .arbCommit => true
  | .secOpDone _ _ => true
  | .commitRequest _ => true
  | .discard _ => true
  | .consistencyCheckEnd _ => true
  | .registerWrite _ _ _ => true
  | .rasterLineBoundary _ => true
  | .rasterStart _ => true
  | .rasterAlignedStart _ => true
  | .trigger _ => true
  | .tsyncEdge => true
  | .holdoverTimeout => true
  | .todSet _ => true
  | .rasPosRead _ => true
  | .rasTodLoRead => true
  | .loRegisterRead _ => true
  | .syncWordRx _ => true
  | .syncLoss => true
  | .unlockLimit _ => true
  | .portRun _ _ => true
  | .aphyLinkUp _ => true
  | .aphyLinkDown _ part => part.all LongPacket.wf
  | .frameStartPacket _ hdr => hdr.wf 0
  | .frameEndPacket _ hdr => hdr.wf 1
  | .lineStartPacket _ hdr => hdr.wf 2
  | .lineEndPacket _ hdr => hdr.wf 3
  | .longPacket _ pkt => pkt.wf
  | .substitutePublished _ _ => true
  | .frameTimeout _ => true
  | .occupancyBroadcast => true
  | .lineRelease _ _ => true
  | .tileEmit => true
  | .tileStage _ _ _ => true
  | .petalPick _ => true
  | .crossBloomSteal _ => true
  | .tileComplete _ _ _ => true
  | .ledgerVerdict _ _ => true
  | .bloomHalt _ _ => true
  | .hashProbe _ => true
  | .prdDefine _ _ _ => true
  | .prdUpdate _ _ _ => true
  | .prdRetire _ _ _ => true
  | .productChecksDone => true
  | .trainingEnd _ => true
  | .hbmTempRead _ => true
  | .scrubRow _ _ => true
  | .fstRequestDone _ _ _ => true
  | .caParityError _ _ => true
  | .fstProbe _ => true
  | .selfRefreshEntry => true
  | .gwPllLock => true
  | .blockRx _ _ _ _ => true
  | .alignmentMarkerRx _ _ _ => true
  | .amTx => true
  | .eqConverged _ => true
  | .lockAttemptTimeout _ => true
  | .ldnRx _ => true
  | .retrain => true
  | .gwDisable _ => true
  | .linkTimeout => true
  | .initFrameTx => true
  | .initFrameRx frame => frame.length == 256
  | .dataFrameRx frame => frame.length == 256
  | .ctrlFrameRx frame => frame.length == 256
  | .replayTimeout => true
  | .linkFrameTx => true
  | .creditRecordTx => true
  | .mwrRx txn => txn.wfWrite
  | .mrdRx txn => txn.wfRead
  | .cplRx txn => txn.wfCpl
  | .cplTimeout _ => true
  | .hostRetryReissue _ => true
  | .time _ _ => true
  | .writeFault _ _ _ _ => true
  | .doorbell _ _ _ => true
  | .doorbellProcess => true
  | .descriptorFetch _ _ => true
  | .nop _ _ _ => true
  | .ringCreate _ _ _ => true
  | .ringDestroy _ _ _ => true
  | .ringStop _ _ _ => true
  | .ringResume _ _ _ => true
  | .ringQuery _ _ _ => true
  | .domSet _ _ _ => true
  | .domReset _ _ _ => true
  | .fstCopy _ _ _ => true
  | .hqeEnable => true
  | .adminResume => true
  | .contextFill _ => true
  | .hostLineRelease _ => true
  | .displayPortRun _ _ => true
  | .displayLinkUp _ => true
  | .displayLinkDown _ => true
  | .layerFetch _ _ => true
  | .displayLine _ => true
  | .readback _ _ _ => true
  | .hostLineHeader _ data => 1 ≤ data.length && data.length ≤ 4096
  | .hostLineData _ _ data => 1 ≤ data.length && data.length ≤ 4096
  | .hostInputTimeout _ => true
  | .proofLogDelivery => true
  | .mgdSet _ _ _ => true
  | .mgdLoad _ _ _ => true
  | .assetLoadDone _ => true
  | .mgdLog _ _ _ => true
  | .bankRecheck _ _ => true
  | .canMessageRx _ msg => msg.wf
  | .filterStale _ => true
  | .canBusOff _ => true
  | .canBusOffRecovery _ => true
  | .restart _ => true
  | .txObjectDue _ => true
  | .canFrameTx _ => true
  | .vbrLoad _ _ _ => true
  | .vbrXfer _ _ _ => true
  | .lvtTick => true
  | .lvtPoll _ => true
  | .remoteRead txn => txn.wfRead
  | .remoteWrite txn => txn.wfWrite
  | .tunnelXferDone _ data cause => (match data with
    | some b => b.length ≤ 64
    | none => cause != 0)
  | .tunnelXferTimeout _ => true
  | .openReadExpiry _ => true
  | .cacheLineExpiry _ _ => true
  | .parkRecordFree _ => true
  | .tableRead _ => true
  | .status => true
  | .deviceId => true
  | .powerCtrlWake => true
  | .powerCtrlStandby => true
  | .temp => true
  | .faults => true
  | .regPtr _ _ => true
  | .regRead => true
  | .regWrite _ data => data.length ≤ 255
  | .lupPtr _ => true
  | .lupRead _ => true
  | .alertStatus => true
  | .alertClear _ => true
  | .quickCommand => true
  | .alertResponse _ => true
  | .smb0Timeout => true
  | .smb1Transfer _ => true
  | .smb1Retry => true
  | .smb1TransferDone result data => result.toNat ≤ 4 && data.length ≤ 255
  | .smb1Timeout _ _ => true
  | .faultRaise _ _ => true
  | .statusClear _ _ => true
  | .firstFaultClear => true
  | .collectorSelfTest _ => true
  | .forceSafe _ => true
  | .policyLock => true
  | .lupinRecordWrite => true
  | .freeze => true
  | .clear => true
  | .release => true
  | .lupMark _ _ => true
  | .lupinSave => true
  | .lupinSaveDone _ _ => true
  | .injectorArm _ _ => true
  | .injectorFire _ => true
  | .reorderRelease _ => true
  | .grantTimer => true
  | .ladderStep => true
  | .energyDebtLimit _ => true
  | .clockChangeDone _ => true
  | .tempSample temps => temps.length == 11
  | .agingMeasure pairs => pairs.length == 16
  | .avsStep => true
  | .egvBudget _ _ _ => true
  | .pmuFreeze => true
  | .pmuUnfreeze => true
  | .snapNow => true
  | .counterOverflow _ => true
  | .clockMonitorFail _ parts => parts.all (fun q => q.2.wf)
  | .collectorSelfCheckFail _ => true
  | .laneClockLockLoss _ => true
  | .canBusError _ _ => true
  | .smb0ProtocolError _ => true

end Sys2Proof
end

