-- ==== Sys2Proof/Tests/Slice0.lean ====
section
/-!
SUPPORT. Tests/Slice0.lean: ill-formed terms that the checks refuse, values of the manual's worked examples, and for every statement
concrete states and operands that meet its hypotheses. Each theorem is about one command.
-/
open Sys2Proof Sys2Proof.Machine
namespace Sys2Proof.Tests
set_option Elab.async false

/-- Powered up, nothing configured. -/
def up : State := { State.reset with sec := { pwrGood := true } }

/-- `up` in the safe state. -/
def upSafe : State := { up with fcl := { safe := true } }

theorem injIdle_of (s : State) (h : s.fcl.fij = {}) : s.injIdle := by
  intro i _; rw [h]; exact ⟨rfl, rfl, rfl⟩

theorem noHeld_of (s : State) (h : s.fcl.fij = {}) : s.noHeld := by
  intro i _; rw [h]; exact ⟨rfl, rfl⟩


/-! Power, resets, boot. -/

theorem witness_PowerEventsMoveBetweenStandbyAndBoot :
    (let s := { State.reset with sec := { pwrEn := true } }; s.sec.pwrEn = true ∧ s.sec.pwrGood = false)
    ∧ State.reset.sec.pwrEn = false ∧ State.reset.sec.pwrGood = false ∧ up.sec.pwrGood = true
    ∧ (let s := { State.reset with sec := { pwrGood := true, standby := true } }
       s.sec.pwrGood = true ∧ s.sec.standby = true ∧ s.saveOwed = false ∧ s.lup.saving = none ∧ s.fcl.safe = false) := by decide +kernel

theorem witness_ResetsGiveTheResetValues :
    State.reset.sec.pwrGood = false ∧ up.sec.pwrGood = true ∧ { up with cfg := { warm := true } }.cfg.warm = true := by decide +kernel

/-- The first 160 bytes of an envelope signed with OEM key 1, for a payload. -/
def envHead (typ : Nat) (p : List Byte) : List Byte :=
  leBytes 4 0x4B4F524C ++ leBytes 2 1 ++ leBytes 2 typ ++ leBytes 4 0 ++ leBytes 4 p.length ++ leBytes 4 0 ++ leBytes 2 0x0101 ++ leBytes 74 0
    ++ sha3 p

/-- An envelope whose remaining bytes are 0, and its payload. -/
@[irreducible] def envOf (h p : List Byte) : List Byte := h ++ (List.replicate 8032 0 ++ p)

theorem bytesAt_append (h t : List Byte) (a n : Nat) (l : a + n ≤ h.length) : bytesAt (h ++ t) a n = bytesAt h a n := by
  have d : n ≤ (h.drop a).length := by simp; omega
  rw [bytesAt, bytesAt, List.drop_append_of_le_length (by omega), List.append_assoc, List.take_append_of_le_length d,
    List.take_append_of_le_length d]

theorem bytesAt_zeros (m : Nat) (t : List Byte) (a n : Nat) (l : a + n ≤ m) : bytesAt (List.replicate m 0 ++ t) a n = List.replicate n 0 := by
  rw [bytesAt_append _ _ _ _ (by simpa using l), bytesAt, List.drop_replicate, List.replicate_append_replicate, List.take_replicate]
  congr 1; omega

theorem bytesAt_skip (h t : List Byte) (a n : Nat) (l : h.length ≤ a) : bytesAt (h ++ t) a n = bytesAt t (a - h.length) n := by
  rw [bytesAt, bytesAt, List.drop_append, List.drop_eq_nil_of_le l, List.nil_append]

theorem envOf_head (h p : List Byte) (k : h.length = 160) (a n : Nat) (l : a + n ≤ 160) : bytesAt (envOf h p) a n = bytesAt h a n := by
  unfold envOf; exact bytesAt_append _ _ _ _ (by omega)

theorem envOf_tail (h p : List Byte) (k : h.length = 160) (a n : Nat) (l : 160 ≤ a) (u : a + n ≤ 8192) :
    bytesAt (envOf h p) a n = List.replicate n 0 := by
  unfold envOf; rw [bytesAt_skip _ _ _ _ (by omega)]; exact bytesAt_zeros _ _ _ _ (by omega)

theorem envOf_length (h p : List Byte) (k : h.length = 160) : (envOf h p).length = 8192 + p.length := by
  unfold envOf; rw [List.length_append, List.length_append, List.length_replicate, k]; omega

theorem envOf_payload (h p : List Byte) (k : h.length = 160) : envPayload (envOf h p) = p := by
  unfold envOf envPayload
  rw [List.drop_append, List.drop_eq_nil_of_le (by omega), List.nil_append, List.drop_append,
    List.drop_eq_nil_of_le (by rw [List.length_replicate, k]), List.nil_append, List.length_replicate, k]
  rfl

theorem sha3_ne_nil (m : List Byte) : sha3 m ≠ [] := by
  simp [sha3, show List.range 8 = [0, 1, 2, 3, 4, 5, 6, 7] from rfl, leBytes]

/-- Powered up, with OEM key 1. -/
def keyed : State := { up with sec := { up.sec with slots := ({} : Tbl _).set 1 (sha3 (List.replicate 2592 0)) } }

/-- What the envelope checks ask of a head and a payload. -/
structure GoodHead (typ : Nat) (h p : List Byte) : Prop where
  len : h.length = 160
  form : leAt h 0 4 = 0x4B4F524C ∧ leAt h 4 2 = 1 ∧ leAt h 6 2 = typ ∧ leAt h 8 4 = 0 ∧ leAt h 22 2 = 0 ∧ leAt h 28 4 = 0
  ctr : leAt h 21 1 = 1 ∧ leAt h 24 4 = 0
  key : leAt h 20 1 = 1
  size : leAt h 12 4 = p.length ∧ envSizeOk typ p.length = true
  hash : bytesAt h 96 64 = sha3 p

theorem envOf_le (h p : List Byte) (k : h.length = 160) (a n : Nat) (l : a + n ≤ 160) : leAt (envOf h p) a n = leAt h a n := by
  rw [leAt, leAt, envOf_head h p k a n l]

theorem replicate_zero (n : Nat) : (List.replicate n (0 : Byte)).all (· == 0) = true := by
  rw [List.all_eq_true]; intro x m; rw [(List.mem_replicate.mp m).2]; rfl

theorem GoodHead.format {typ : Nat} {h p : List Byte} (g : GoodHead typ h p) : envFormat typ (envOf h p) = true := by
  have z : ∀ a n, 160 ≤ a → a + n ≤ 8192 → (bytesAt (envOf h p) a n).all (· == 0) = true := by
    intro a n l u; rw [envOf_tail h p g.len a n l u]; exact replicate_zero n
  obtain ⟨f0, f4, f6, f8, f22, f28⟩ := g.form
  rw [envFormat, envType, envCtrIdx, envCtrVal, envPayBytes, envOf_length h p g.len, z 160 96 (by decide) (by decide),
    z 7475 717 (by decide) (by decide)]
  simp (disch := first | exact g.len | decide) only [envOf_le]
  simp [f0, f4, f6, f8, f22, f28, g.ctr, g.size, bits]

theorem GoodHead.keyOk {typ : Nat} {h p : List Byte} (g : GoodHead typ h p) (t : typ = 2 ∨ typ = 3) (s : State)
    (e : s.sec.slots.get 1 = sha3 (List.replicate 2592 0)) (r : s.sec.revoked = 0) : s.envKeyOk typ (envOf h p) = true := by
  have k : envKey (envOf h p) = 1 := by rw [envKey, envOf_le h p g.len 20 1 (by decide), g.key]
  have h1 : s.slotHash 1 = sha3 (List.replicate 2592 0) := by
    unfold State.slotHash
    split
    · rename_i q; exact absurd (e.symm.trans q) (sha3_ne_nil _)
    · exact e
  have v : s.slotValid 1 = true := by rw [State.slotValid, h1, bne_iff_ne.mpr (sha3_ne_nil _)]; rfl
  have w : s.slotRevoked 1 = false := by rw [State.slotRevoked, r]; rfl
  rw [State.envKeyOk, k, envOf_tail h p g.len 256 2592 (by decide) (by decide), h1, v, w, beq_self_eq_true]
  rcases t with rfl | rfl <;> rfl

theorem GoodHead.device {typ : Nat} {h p : List Byte} (g : GoodHead typ h p) (t : typ = 2 ∨ typ = 3) (s : State) :
    s.envDeviceOk typ (envOf h p) = true := by
  have b : envBound (envOf h p) = false := by rw [envBound, envOf_le h p g.len 8 4 (by decide), g.form.2.2.2.1]; rfl
  rw [State.envDeviceOk, b]
  rcases t with rfl | rfl <;> rfl

theorem GoodHead.rollback {typ : Nat} {h p : List Byte} (g : GoodHead typ h p) (t : typ = 2 ∨ typ = 3) (s : State) (a : s.sec.arb.get 1 = 0) :
    s.envRollbackOk typ (envOf h p) = true := by
  rw [State.envRollbackOk, envCtrIdx, envCtrVal, envOf_le h p g.len 21 1 (by decide), g.ctr.1, a]
  rcases t with rfl | rfl <;> simp

theorem GoodHead.check {typ : Nat} {h p : List Byte} (g : GoodHead typ h p) (t : typ = 2 ∨ typ = 3) (s : State)
    (e : s.sec.slots.get 1 = sha3 (List.replicate 2592 0)) (r : s.sec.revoked = 0) (a : s.sec.arb.get 1 = 0) :
    s.envCheck typ (envOf h p) true = 0 := by
  have d : sha3 (envPayload (envOf h p)) = bytesAt (envOf h p) 96 64 := by
    rw [envOf_payload h p g.len, envOf_head h p g.len 96 64 (by decide), g.hash]
  rw [State.envCheck, g.format, g.keyOk t s e r, g.device t s, d, g.rollback t s a]
  simp

/-- A Primrose envelope without sections. -/
def env2 : List Byte := envOf (envHead 2 [0, 0, 0, 0]) [0, 0, 0, 0]

theorem head2 : GoodHead 2 (envHead 2 [0, 0, 0, 0]) [0, 0, 0, 0] := by constructor <;> decide +kernel

/-- Stage 3 with firmware in force and a profile staged. -/
def staged2 : State := { keyed with sec := { keyed.sec with
  env := ({} : Tbl (List Byte)).set 1 [1], staged := ({} : Tbl _).set 2 (some (false, env2)) } }.setStage 3

theorem staged2_slot : staged2.sec.slots.get 1 = sha3 (List.replicate 2592 0) := Tbl.get_set_same _ _ _

/-- A flash directory with one entry: copy A of the profile, 3 bytes at 0x10000 (R568). -/
def dirOne (crc : Nat) : List Byte :=
  leBytes 4 0x4B444952 ++ leBytes 2 1 ++ leBytes 2 1 ++ leBytes 4 0 ++ leBytes 4 crc ++ [2, 0, 0, 0] ++ leBytes 4 0x10000 ++ leBytes 4 3 ++ leBytes 4 0

/-- A flash whose first directory copy is bad. -/
def flashOne : List FlashArea :=
  [{ offset := 0, bytes := dirOne 0 }, { offset := 0x10000, bytes := [7, 8, 9, 10] },
   { offset := 0x1000, bytes := dirOne (crc32c ((dirOne 0).take 12 ++ (dirOne 0).drop 16)) }]

/-- ROM uses the second copy of the directory when the CRC of the first does not check, and reads the bytes of the entry (R568). -/
theorem test_flash_directory : flashImage flashOne 2 false = some [7, 8, 9] ∧ flashImage flashOne 2 true = none ∧ flashImage flashOne 1 false = none := by
  decide +kernel

theorem witness_BootImagesAreStagedAndChecked :
    ((up.setStage 2).bootStage = 2 ∧ (up.setStage 2).nextCopy 1 = false ∧ (up.setStage 2).sec.staged.get 1 = none
      ∧ staged2.sec.staged.get 2 ≠ none ∧ (up.setStage 3).bootStage = 3)
    ∧ staged2.bootStage = 3 ∧ staged2.sec.env.get 1 ≠ [] ∧ staged2.sec.env.get 2 = [] ∧ staged2.sec.staged.get 2 = some (false, env2)
    ∧ envFormat 2 env2 = true ∧ staged2.envKeyOk 2 env2 = true ∧ staged2.envDeviceOk 2 env2 = true
    ∧ sha3 (envPayload env2) = bytesAt env2 96 64 ∧ staged2.envRollbackOk 2 env2 = true ∧ primroseCheck (envPayload env2) = true
    ∧ staged2.sec.tried = [] := by
  refine ⟨⟨by decide +kernel, by decide +kernel, by decide +kernel, by decide +kernel, by decide +kernel⟩, by decide +kernel, by decide +kernel,
    by decide +kernel, rfl, head2.format,
    head2.keyOk (.inl rfl) _ staged2_slot rfl, head2.device (.inl rfl) _, ?_, head2.rollback (.inl rfl) _ rfl, ?_, rfl⟩
  · rw [env2, envOf_payload _ _ head2.len, envOf_head _ _ head2.len 96 64 (by decide), head2.hash]
  · rw [env2, envOf_payload _ _ head2.len]; decide +kernel

/-- Stage 3 with the profile in force. -/
def profiled : State := { up with sec := { up.sec with env := ({} : Tbl (List Byte)).set 2 env2 } }.setStage 3

/-- Stage 6 with one script entry left on port 0. -/
def scripted (f : Bool) : State :=
  { up with sec := { up.sec with scripts := ({} : Tbl _).set 0 (some { entries := [[1]], failed := f }) } }.setStage 6

theorem witness_ProfileIsAppliedAndScriptsRunWithOneRetry :
    (profiled.bootStage = 3 ∧ profiled.sec.env.get 2 ≠ [] ∧ profiled.fcl.safe = false)
    ∧ (∀ f, (scripted f).bootStage = 6 ∧ (scripted f).sec.scripts.get 0 = some { entries := [[1]], failed := f }) ∧ scOp [1] ≠ 2
    ∧ ((scripted true).setFlag F.ING_PORT_STAT.LINK_UP true 0).codeUp 0 = true
    ∧ ((scripted true).setFlag F.ING_PORT_STAT.LINK_UP true 0).bootStage = 6 := by
  decide +kernel

/-- A security operation under way. -/
def secRuns (op : Nat) : State := { up with sec := { up.sec with op := op } }.setFlag F.SEC_OP_STAT.BUSY

theorem witness_HandoverAndSecurityOperations :
    (up.setStage 8).bootStage = 8 ∧ (up.setStage 0x0A).bootStage = 0x0A ∧ up.bootStage < 8 ∧ (up.setStage 9).bootStage = 9
    ∧ up.flag F.SEC_OP_STAT.BUSY = false
    ∧ (∀ op, op ∈ [1, 2, 3, 5] → (secRuns op).flag F.SEC_OP_STAT.BUSY = true ∧ (secRuns op).sec.op = op)
    ∧ (secRuns 1).flag F.SEC_BOOT_STAT.ID_OK = false := by decide +kernel

/-! Configuration. -/

/-- Group 0 with one staged write of a register. -/
def stagedW (k : RegKind) (mask val : Nat) : State :=
  { up with cfg := { stg := ({} : Tbl _).set 0 (some { writes := [{ reg := ⟨k, 0, 0⟩, mask := mask, val := val }] }) } }

/-- A raster that runs. -/
def runs (n : Nat) (s : State) : State := { s with ras := s.ras.upd n (fun r => { r with running := true }) }

theorem witness_CommitsFreezeCheckAndReject :
    up.cfg.stg.get 0 = none
    ∧ (stagedW .EGV_COST0 0xFF 0).checkGen 0 [{ reg := ⟨.EGV_COST0, 0, 0⟩, mask := 0xFF, val := 0 }] = some (770, 0)
    ∧ (stagedW .EGV_COST0 0xFF 1).checkGen 0 [{ reg := ⟨.EGV_COST0, 0, 0⟩, mask := 0xFF, val := 1 }] = none
    ∧ (runs 0 (stagedW .EGV_COST0 0xFF 1)).checkGen 0 [{ reg := ⟨.EGV_COST0, 0, 0⟩, mask := 0xFF, val := 1 }] = none
    ∧ (∀ v, (stagedW .EGV_COST0 0xFF v).cfg.stg.get 0 = some { writes := [{ reg := ⟨.EGV_COST0, 0, 0⟩, mask := 0xFF, val := v }] })
    ∧ (stagedW .EGV_COST0 0xFF 1).flag F.CFG_TARGET.EN 0 = false ∧ ((stagedW .EGV_COST0 0xFF 1).ras.get 0).running = false
    ∧ ((runs 0 (stagedW .EGV_COST0 0xFF 1)).ras.get 0).running = true ∧ RegKind.EGV_COST0.reported = false := by
  refine ⟨?_, ?_, ?_, ?_, fun _ => rfl, ?_⟩ <;> decide +kernel

/-- Offset of a register of a running block: with LOCK set, the collector owns FCL_REACT (R531). -/
def locked : State := up.setFlag F.FCL_CTRL.LOCK

theorem witness_RegisterWriteFollowsAccessTypeAndClass :
    findReg (RegKind.off .TOP_SCRATCH 0 0) = some ⟨.TOP_SCRATCH, 0, 0⟩ ∧ RegKind.TOP_SCRATCH.plain = true ∧ up.noHeld := by
  exact ⟨by decide +kernel, by decide +kernel, noHeld_of _ rfl⟩

theorem witness_ClassSWritesWaitInTheOpenGeneration :
    findReg (RegKind.off .EGV_COST0 0 0) = some ⟨.EGV_COST0, 0, 0⟩ ∧ RegKind.EGV_COST0.plain = true
    ∧ (∀ f, f ∈ RegKind.EGV_COST0.fields → f.acc = .rw → f.cls = .s) ∧ maskS RegKind.EGV_COST0.fields ≠ 0 ∧ up.noHeld := by
  exact ⟨by decide +kernel, by decide +kernel, by decide +kernel, by decide +kernel, noHeld_of _ rfl⟩

theorem witness_DroppedClassLWritesAreRecorded :
    findReg (RegKind.off .FCL_REACT 0 0) = some ⟨.FCL_REACT, 0, 0⟩ ∧ RegKind.FCL_REACT.plain = true
    ∧ locked.ownerRuns .FCL_REACT 0 0 0 = true ∧ changesL RegKind.FCL_REACT.fields 0 (locked.rd .FCL_REACT) = true ∧ locked.noHeld
    ∧ locked.flag F.CFG_LDROP.VALID = false ∧ (locked.setFlag F.CFG_LDROP.VALID).flag F.CFG_LDROP.VALID = true := by
  refine ⟨by decide +kernel, by decide +kernel, by decide +kernel, by decide +kernel, noHeld_of _ rfl, by decide +kernel, by decide +kernel⟩

theorem witness_DiscardActsBeforeCommit : up.noHeld ∧ up.cfg.stg.get 0 = none := ⟨noHeld_of _ rfl, rfl⟩

theorem witness_CommitIsRefusedWhileOneIsStaged : (stagedW .EGV_COST0 0xFF 1).cfg.stg.get 0 ≠ none := by decide +kernel

/-! Rasters, triggers, time. -/

/-- Raster `n` with ten lines. -/
def lines10 (n : Nat) (s : State) : State := s.setFld F.RAS_PERIOD.LINES 10 n

/-- Raster `n` has run to the end of a line. -/
def lineOver (n : Nat) (s : State) : State := { s with ras := s.ras.upd n (fun r => { r with running := true, acc := 2 ^ 50 }) }

/-- Raster 0 in its last line. -/
def lastRow : State := { (lineOver 0 up) with ras := (lineOver 0 up).ras.upd 0 (fun r => { r with line := 100000 }) }

theorem witness_RastersStepStartAndStop :
    up.lineDue 0 = false ∧ (lineOver 0 (lines10 0 up)).lineDue 0 = true ∧ (lineOver 0 (lines10 0 up)).lastLine 0 = false
    ∧ lastRow.lineDue 0 = true ∧ lastRow.lastLine 0 = true ∧ (∀ m, m < 7 → (lineOver 7 up).lineDue m = false)
    ∧ lastRow.flag F.RAS_CTRL.RUN 0 = false ∧ (lastRow.setFlag F.RAS_CTRL.RUN true 0).flag F.RAS_CTRL.RUN 0 = true
    ∧ (let s := (up.setFlag F.RAS_CTRL.WAIT true 0).setFld F.RAS_ALIGN.FRAMES 1 0
       (s.ras.get 0).running = false ∧ (s.ras.get 0).waiting = false ∧ s.fld F.RAS_ALIGN.FRAMES 0 ≠ 0 ∧ s.flag F.RAS_CTRL.WAIT 0 = true)
    ∧ (up.ras.get 0).running = false ∧ (up.ras.get 0).waiting = false ∧ up.flag F.RAS_CTRL.WAIT 0 = false
    ∧ (let s := ({ up with ras := up.ras.upd 0 (fun r => { r with waiting := true }) } : State).setFld F.RAS_ALIGN.PERIOD_MS 40 0
       (s.ras.get 0).waiting = true ∧ s.atAlign 0 = true)
    ∧ ({ up with time := { tod := 1 } } : State).atAlign 0 = false := by decide +kernel

/-- Stream 0 on raster 0 arrives at entry 0 of port 0, whose link is up. -/
def mapped (mode : Nat) : State :=
  ((((((runs 0 up).setFlag F.RAS_STRM_CFG.EN true 0).setFld F.RAS_STRM_CFG.TRIG_MODE mode 0).setFlag F.ING_MAP.EN true 0 0).setFld F.ING_MAP.DT 0x2A 0
    0).setFlag F.ING_PORT_CTRL.RUN true 0).setFlag F.ING_PORT_STAT.LINK_UP true 0

/-- A class-0 product of stream 0 exists. -/
def withProduct (s : State) : State :=
  { (s.setFld F.PRD_STATE.STATE 2 0) with prd := { tab := ({} : Tbl Product).set 0 { pdb := [0] } } }

theorem witness_TriggersLeaveAtTheirPosition :
    up.triggerDue 0 = false
    ∧ (∀ m, m ∈ [1, 2] → (mapped m).triggerDue 0 = true ∧ (mapped m).coincident 0 = [] ∧ (mapped m).mapOf 0 = some (0, 0)
        ∧ (mapped m).portUp 0 = true ∧ (mapped m).fcl.safe = false)
    ∧ (let s := (mapped 1).setFlag F.ING_PORT_STAT.LINK_UP false 0
       s.triggerDue 0 = true ∧ s.coincident 0 = [] ∧ s.mapOf 0 = some (0, 0) ∧ s.portUp 0 = false)
    ∧ (let s := withProduct ((mapped 1).setFld F.RAS_STRM_STAT.UNLOCKED 9 0)
       s.flag F.RAS_STRM_CFG.EN 0 = true ∧ s.locked 0 = false ∧ s.feedsReserved 0 = true ∧ (s.strm.get 0).episode = false
         ∧ s.fld F.RAS_STRM_CFG.UNLOCK_LIM 0 < s.fld F.RAS_STRM_STAT.UNLOCKED 0)
    ∧ (({ up with strm := ({} : Tbl Stream).set 0 { episode := true } } : State).strm.get 0).episode = true := by decide +kernel

theorem witness_TheTimeBaseFollowsItsSource :
    (let s := up.setFld F.RAS_DISC_CTRL.SRC 1
     s.fld F.RAS_DISC_CTRL.SRC = 1 ∧ (nearestErr s.time.tod (s.fld F.RAS_TSYNC_PERIOD.PERIOD_NS)).natAbs ≤ s.fld F.RAS_DISC_PARAM.STEP_US * 1000
       ∧ s.fld F.RAS_DISC_CTRL.SRC ≠ 0 ∧ s.flag F.RAS_DISC_STAT.HOLDOVER = false)
    ∧ (let s := { (up.setFld F.RAS_DISC_CTRL.SRC 1) with time := { tod := 400000000 } }
       s.fld F.RAS_DISC_PARAM.STEP_US * 1000 < (nearestErr s.time.tod (s.fld F.RAS_TSYNC_PERIOD.PERIOD_NS)).natAbs) := by decide +kernel

/-- A follower of role `r`. -/
def follower (r : Nat) : State := (up.setFlag F.CFG_SYNC_CTRL.EN).setFld F.CFG_SYNC_CTRL.ROLE r

/-- A frame word for frame 5, with its check. -/
def frameWord : BitVec 48 := BitVec.ofNat 48 (1 <<< 44 + 5 <<< 12 + syncCrc (1 <<< 44 + 5 <<< 12))

theorem witness_FollowersTakeSyncWords :
    (∀ r, r ∈ [2, 3] → (follower r).flag F.CFG_SYNC_CTRL.EN = true ∧ (follower r).fld F.CFG_SYNC_CTRL.ROLE = r)
    ∧ (frameWord + 1).toNat % 256 ≠ syncCrc (frameWord + 1).toNat ∧ frameWord.toNat % 256 = syncCrc frameWord.toNat
    ∧ bits frameWord.toNat 47 44 = 1 ∧ ((follower 2).ras.get (follower 2).master).running = false
    ∧ (let s := { (runs 0 (follower 2)) with ras := (runs 0 (follower 2)).ras.upd 0 (fun r => { r with frame := 5 }) }
       (s.ras.get s.master).running = true ∧ (s.ras.get s.master).frame = bits frameWord.toNat 43 12 ∧ s.sfld F.CFG_SYNC_OFFSET.OFFSET ≤ 2304
         ∧ 0 < s.peff s.master ∧ (2304 - s.sfld F.CFG_SYNC_OFFSET.OFFSET).toNat * 2 ^ 32 / s.peff s.master ≤ (s.ras.get s.master).line)
    ∧ (let s := { ((follower 2).setFlag F.CFG_SYNC_STAT.LOCKED) with cfg := { syncMiss := 3 } }
       s.flag F.CFG_SYNC_STAT.LOCKED = true ∧ s.follows s.master = true ∧ 3 ≤ s.cfg.syncMiss) := by decide +kernel

/-! Ingress. -/

/-- Port 0 runs, its link is up or down. -/
def port0 (link : Bool) : State := (up.setFlag F.ING_PORT_CTRL.RUN true 0).setFlag F.ING_PORT_STAT.LINK_UP link 0

theorem witness_PortLinksComeAndGo :
    up.flag F.ING_PORT_CTRL.RUN 0 = false ∧ up.flag F.ING_PORT_CTRL.RUN 29 = false
    ∧ ∀ b, (port0 b).flag F.ING_PORT_CTRL.RUN 0 = true ∧ (port0 b).flag F.ING_PORT_STAT.LINK_UP 0 = b := by decide +kernel

/-- A frame of stream 0 is open at entry 0 of port 0. -/
def opened (o : OpenFrame) : State := { (mapped 0) with ports := ({} : Tbl Port).set 0 { opens := ({} : Tbl _).set 0 (some o) } }

/-- A header of data type `dt` on channel 0 with the check that its sender gives it, and one whose check has `e` bits wrong. -/
def headed (dt : BitVec 6) (wc : BitVec 16) : CsiHeader := csiHeader false 0 dt wc
def upset (e : BitVec 6) (h : CsiHeader) : CsiHeader := { h with ecc := h.ecc ^^^ e }

theorem witness_ShortPacketsOpenNumberAndCloseFrames :
    (mapped 0).receives 0 = true ∧ (∀ x, x < 8 → (mapped 0).openAt 0 x = none) ∧ (mapped 0).flag F.ING_MAP.EN 0 0 = true
    ∧ (mapped 0).fld F.ING_MAP.VC 0 0 = (mapped 0).vcOf 0 0 ∧ (∀ x, x < 8 → x ≠ 0 → (mapped 0).flag F.ING_MAP.EN 0 x = false)
    ∧ (mapped 0).fld F.ING_MAP.STREAM 0 0 = 0 ∧ (mapped 0).trigMode 0 = 0
    ∧ (∀ dt, dt ∈ [0, 1, 2, 3] → checkHeader ((mapped 0).flag F.ING_PORT_CTRL.VCX_EN 0) (headed dt 7) = some (headed dt 7, false))
    ∧ checkHeader ((mapped 0).flag F.ING_PORT_CTRL.VCX_EN 0) (upset 1 (headed 3 7)) = some (headed 3 7, true)
    ∧ checkHeader ((mapped 0).flag F.ING_PORT_CTRL.VCX_EN 0) (upset 3 (headed 3 7)) = none
    ∧ (let o : OpenFrame := { fmt := 1 <<< 21, lastLs := some 6 }
       o.lsNum = true ∧ (opened o).receives 0 = true ∧ (opened o).openAt 0 0 = some o ∧ o.vc = (opened o).vcOf 0 0
         ∧ (7 : Nat) = o.lastLs.getD 0 + 1 ∧ (∀ x, x < 8 → x ≠ 0 → (opened o).openAt 0 x = none)) := by decide +kernel

/-- A long packet on channel 0 with data type 0x2A and `e` wrong bits in its header check. -/
def packet (e : BitVec 6) : LongPacket :=
  { hdr := upset e (headed 0x2A 4), payload := [1, 2, 3, 4], crc := BitVec.ofNat 16 (csiCrc [1, 2, 3, 4]), cseGap := false, cseCrcOk := true,
    repackOk := true, overrun := none }

theorem witness_LongPacketsAreCheckedAndMapped :
    (mapped 0).injIdle
    ∧ ((mapped 0).receives 0 = true ∧ checkHeader ((mapped 0).flag F.ING_PORT_CTRL.VCX_EN 0) (packet 3).hdr = none
      ∧ checkHeader ((mapped 0).flag F.ING_PORT_CTRL.VCX_EN 0) (packet 0).hdr = some (headed 0x2A 4, false) ∧ (packet 0).cseGap = false
      ∧ (headed 0x2A 4).dt.toNat = 0x2A ∧ (mapped 0).entryOf 0 ((mapped 0).vcOf 0 1) 0x2A = none
      ∧ (mapped 0).entryOf 0 ((mapped 0).vcOf 0 0) 0x2A = some 0 ∧ (mapped 0).openAt 0 0 = none)
    ∧ (let o : OpenFrame := { size := 4 <<< 16 }
       (opened o).injIdle ∧ (opened o).receives 0 = true ∧ (opened o).entryOf 0 ((opened o).vcOf 0 0) 0x2A = some 0
         ∧ (opened o).openAt 0 0 = some o ∧ o.lsNum = false ∧ o.count < o.height) :=
  ⟨injIdle_of _ rfl, by decide +kernel, injIdle_of _ rfl, by decide +kernel⟩

/-- One resident line in directory entry 7. -/
def lined (l : PLine) (s : State) : State := { s with pool := { s.pool with dir := ({} : Tbl _).set 7 (some l) } }

/-- Raster 0 is at frame `f`. -/
def atFrame (f : Nat) (s : State) : State := { s with ras := s.ras.upd 0 (fun r => { r with frame := f }) }

/-- Stream 0 in trigger mode 1 still waits for the frame of a trigger. -/
def waited (f : Nat) (b : Bool) : State :=
  atFrame f { (up.setFld F.RAS_STRM_CFG.TRIG_MODE 1 0) with strm := ({} : Tbl Stream).set 0 { frames := [{ bound := b }] } }

theorem witness_LinesAreSubstitutedTimedOutAndReleased :
    oldestLine (up.dirLines.filter (fun c => c.2.kind == .raw && c.2.owner == 0 && c.2.line == 0 && c.2.pendingSub)) = none
    ∧ (let q : PLine := { pendingSub := true }
       let s := lined q up
       oldestLine (s.dirLines.filter (fun c => c.2.kind == .raw && c.2.owner == 0 && c.2.line == 0 && c.2.pendingSub)) = some (7, q)
         ∧ s.line 7 = some q)
    ∧ (let o : OpenFrame := { len := 1 }
       (atFrame 5 (opened o)).mapOf 0 = some (0, 0) ∧ (atFrame 5 (opened o)).openAt 0 0 = some o ∧ (atFrame 5 (opened o)).overdue 0 0 = true
         ∧ (opened o).mapOf 0 = some (0, 0) ∧ (opened o).openAt 0 0 = some o ∧ (opened o).overdue 0 0 = false ∧ (opened o).trigMode 0 = 0)
    ∧ (∀ b, (waited 5 b).trigMode 0 ≠ 0 ∧ ((waited 5 b).strm.get 0).frames = [{ bound := b }] ∧ (waited 5 b).overdue 0 0 = true)
    ∧ (let l : PLine := { holders := [3], published := true }
       let s := lined l up
       s.line 7 = some l ∧ l.kind = .raw ∧ 3 ∈ l.holders ∧ s.stillNeeds 3 7 l = false ∧ 4 ∉ l.holders)
    ∧ (let l : PLine := { published := true }
       (lined l up).line 7 = some l ∧ l.holders = [] ∧ l.ingHold = false ∧ (lined l up).inLedger 7 = false) := by decide +kernel

/-! Tiles. -/

/-- A slow class-0 definition of product 0 for display layer 0: 32 by 8 pixels, no operation. -/
def slowPdb : List Byte := leBytes 4 (1 <<< 27) ++ leBytes 4 (8 <<< 16 + 32) ++ List.replicate 120 0

/-- Product 0 is ACTIVE with frame 0 in production; its source frame has closed. -/
def producing (q : PFrame) : State :=
  { ((mapped 1).setFld F.PRD_STATE.STATE 2 0) with
    strm := ({} : Tbl Stream).set 0 { lastOpen := some 0 }
    prd := { tab := ({} : Tbl Product).set 0 { pdb := slowPdb, frames := [q] } } }

/-- A tile of product 0. -/
def tile0 : Tile := { seq := 4 }

/-- Bloom 0 with a queue, a petal and an energy balance. -/
def bloom0 (b : Bloom) (s : State) : State := { s with blm := ({} : Tbl Bloom).set 0 b }

/-- A frame of a host product; its ring does not run. -/
def toHost : PFrame := { pdb := leBytes 4 0 ++ leBytes 4 (8 <<< 16 + 32) ++ List.replicate 120 0 }

theorem witness_TilesAreEmittedAndStaged :
    (let q : PFrame := { pdb := slowPdb }
     let s := (producing q).setFlag F.BLM_TF_CTRL.RUNNING
     s.fcl.safe = false ∧ s.flag F.BLM_TF_CTRL.RUNNING = true ∧ s.firstCandidate = some (0, q) ∧ s.ringDown q = false
       ∧ s.prdRoom 0 q q.claims.length = true ∧ (s.claimOut 0 q q.claims).isSome = true)
    ∧ (let s := (producing toHost).setFlag F.BLM_TF_CTRL.RUNNING
       s.fcl.safe = false ∧ s.flag F.BLM_TF_CTRL.RUNNING = true ∧ s.firstCandidate = some (0, toHost) ∧ s.ringDown toHost = true)
    ∧ up.firstCandidate = none
    ∧ (let s := bloom0 { q := ({} : Tbl _).set 3 [tile0] } (producing {})
       (((s.blm.get 0).q.get 3).take 2).find? (fun x => !x.staged) = some tile0 ∧ tile0.fast = false ∧ s.pframe tile0.prd tile0.frame = some {}
         ∧ s.blmClocked 0 = true ∧ (s.blm.get 0).foots < 64)
    ∧ ({ up with fcl := { clkFail := [4] } } : State).blmClocked 0 = false
    ∧ (((up.blm.get 0).q.get 0).take 2).find? (fun x => !x.staged) = none := by decide +kernel

/-- A tile that is paid in class 0, and one of class 3 that no balance pays. -/
def dear : Tile := { tile0 with cls := 3, cost := 1 }

/-- Tile `t` waits in bloom 0. -/
def queued (t : Tile) : State := bloom0 { q := ({} : Tbl _).set 3 [t] } (producing {})

/-- Bloom 0 lets other blooms steal. -/
def lends (s : State) : State := (s.setFlag F.BLM_XSTEAL.EN).setFld F.BLM_XSTEAL.MIN_Q 1

theorem witness_PetalsTakeTheBestTileOrSteal :
    ((queued { tile0 with staged := true }).canStart 0 = true ∧ ((queued { tile0 with staged := true }).blm.get 0).run.get 1 = none
      ∧ (queued { tile0 with staged := true }).bestIn 0 1 = some { tile0 with staged := true, slot := 0 }
      ∧ (queued { tile0 with staged := true }).mustWait 0 { tile0 with staged := true } = false
      ∧ (queued { dear with staged := true }).mustWait 0 { dear with staged := true } = true)
    ∧ (let s := lends (queued tile0)
       s.canStart 1 = true ∧ (s.blm.get 1).run.get 0 = none ∧ s.bestIn 1 0 = none ∧ s.stealFrom 1 = some (0, tile0) ∧ s.mustWait 1 tile0 = false
         ∧ 100 * s.tileBytes tile0 ≤ s.tf.budget ∧ s.thiefFirst 1 tile0 = true ∧ 32 ∉ s.tf.thieves)
    ∧ (∀ l, l ∈ [[], [64]] →
       let s : State := { (lends (bloom0 { q := ({} : Tbl _).set 3 [tile0] } (producing { pdb := slowPdb }))) with tf := { budget := 0, thieves := l } }
       s.stealFrom 2 = some (0, tile0) ∧ s.mustWait 2 tile0 = false ∧ s.tf.budget < 100 * s.tileBytes tile0 ∧ (64 ∈ s.tf.thieves ↔ l = [64]))
    ∧ (let s : State := { (lends (queued tile0)) with tf := { thieves := [32] } }
       s.stealFrom 2 = some (0, tile0) ∧ s.thiefFirst 2 tile0 = false)
    ∧ (up.setFlag F.BLM_CTRL.HALT true 0).canStart 0 = false := by decide +kernel

/-- Petal 5 of bloom 0 runs a tile of a frame. -/
def running5 (q : PFrame) : State := bloom0 { run := ({} : Tbl _).set 5 (some tile0) } (producing q)

/-- A definition with two operations, so that the second one reads the stage line that the first one wrote. -/
def twoOps : List Byte :=
  leBytes 4 (2 <<< 20) ++ leBytes 4 (8 <<< 16 + 32) ++ leBytes 4 0 ++ leBytes 4 1 ++ leBytes 48 0
    ++ (leBytes 4 1 ++ leBytes 4 0 ++ leBytes 4 (8 <<< 16 + 32) ++ leBytes 20 0)
    ++ (leBytes 4 1 ++ leBytes 4 0 ++ leBytes 4 (8 <<< 16 + 32) ++ leBytes 20 0) ++ leBytes 448 0

/-- Line entry 7 with a ledger entry whose fragments cover the read range. -/
def judged (d : List Byte) : State :=
  let l : PLine := { data := d, published := true }
  { (lined { l with sealVal := ledgerSeal (sealHead 0 0xFF 0 0) 4 [fragOf d 0 2, fragOf d 2 4] } up) with
    seals := { ledger := [{ line := 7, n := 4, ranges := [(0, 2)], frags := [fragOf d 0 2] }] } }

theorem witness_TilesFinishAndLedgerVerdictsFollow :
    (∀ x, ((running5 { dead := x }).blm.get 0).run.get 5 = some tile0 ∧ (running5 { dead := x }).pframe tile0.prd tile0.frame = some { dead := x })
    ∧ tile0.fast = false ∧ (up.blm.get 0).run.get 5 = none ∧ up.blmClocked 0 = true
    ∧ ({ up with fcl := { clkFail := [4] } } : State).blmClocked 0 = false
    ∧ (let q : PFrame := { pdb := twoOps }
       (running5 q).pframe 0 0 = some q ∧ (running5 q).readBack 0 q tile0 = true ∧ (running5 q).stageFails 0 q tile0 [] = []
         ∧ (running5 q).stageFails 0 q tile0 [{ pos := 0, line := 0, ofs := 0, mask := 1 }] ≠ [] ∧ tile0.failed = 0)
    ∧ (let q : PFrame := { pdb := twoOps, stages := [{ branch := 1 }] }
       (running5 q).pframe 0 0 = some q ∧ (running5 q).readBack 0 q tile0 = false)
    ∧ (let s := judged [1, 2, 3, 4]
       let e : LedgerEnt := { line := 7, n := 4, ranges := [(0, 2)], frags := [fragOf [1, 2, 3, 4] 0 2] }
       s.seals.ledger.find? (fun x => x.line == 7 && rangesLen x.ranges ≤ x.covered) = some e ∧ e.output = false
         ∧ e.covered + (e.n - rangesLen e.ranges) ≤ e.n ∧ (s.line 7).any (fun l =>
           ledgerSeal (sealHead e.st 0xFF e.frame e.lineNo) e.n (e.frags ++ (gaps 0 e.n e.ranges).map (fun u => fragOf l.data u.1 u.2)) == l.sealVal)
           = true) := by decide +kernel

theorem witness_HaltAndHashFollowTheirRegisters :
    bit (up.fld F.SEC_UNLOCK.SCOPE) 1 = false ∧ (up.blm.get 0).fast = []
    ∧ bit ((up.setFld F.SEC_UNLOCK.SCOPE 2).fld F.SEC_UNLOCK.SCOPE) 1 = true ∧ (up.setFld F.SEC_UNLOCK.SCOPE 2).homed 0 = [] := by decide +kernel

/-! Products and the frame store. -/

/-- A definition of product 0 in class 2 for host ring 1: CROP gives 32 by 8 pixels of stream 0. -/
def cropPdb : List Byte :=
  leBytes 4 (2 <<< 29 + 1 <<< 20) ++ leBytes 4 (8 <<< 16 + 32) ++ leBytes 4 0 ++ leBytes 4 1 ++ leBytes 4 0 ++ leBytes 4 64 ++ leBytes 40 0
    ++ leBytes 4 1 ++ leBytes 4 0 ++ leBytes 4 (8 <<< 16 + 32) ++ leBytes 500 0

/-- A product descriptor with its opcode. -/
def prdDesc (code : Nat) : List Byte := leBytes 3 0 ++ [BitVec.ofNat 8 code] ++ leBytes 28 0

/-- Ring 0 of domain 0 is a SUB ring with a started descriptor, ring 1 a BUF ring. -/
def ringed (d : List Byte) (s : State) : State :=
  { s with hqe := { s.hqe with
    rings := (({} : Tbl Ring).set 0 { st := .running, started := [{ bytes := d }] }).set 1 { typ := .buf, st := .running } } }

/-- A command at the head of the product engine. -/
def atHead (c : PrdCmd) (s : State) : State := s.modPrd (fun p => { p with queue := [c] })

/-- Stream 0 has 16 lines of 64 pixels and its reservation. -/
def sized : State :=
  (((mapped 1).setFld F.ING_STRM_SIZE.WIDTH 64 0 0).setFld F.ING_STRM_SIZE.HEIGHT 16 0 0).setFld F.POOL_RESV.GRANULES 64 0

/-- The definition whose checks end. -/
def defCmd (pdb : List Byte) : PrdCmd := { bytes := prdDesc 0x20, stage := .checking, pdb := pdb }

theorem witness_ProductCommandsQueueReadAndCheck :
    (∀ c, c ∈ [(PrdOp.define, 0x20), (.update, 0x21), (.retire, 0x22)] →
      let s := ringed (prdDesc c.2) up
      s.startedCmd (ringG 0 0) 0 c.2 = some { bytes := prdDesc c.2 } ∧ prdMalformed c.1 (prdDesc c.2) = false ∧ s.prd.queue = []
        ∧ (atHead { stage := .checking } s).prd.queue = [{ stage := .checking }])
    ∧ (let b := prdDesc 0x20 |>.set 17 1
       prdMalformed .define b = true ∧ (ringed b up).startedCmd (ringG 0 0) 0 0x20 = some { bytes := b })
    ∧ (let s := ringed [] sized
       (s.modPrd (fun p => { p with queue := [] })).checkDef (defCmd []) false ≠ none
         ∧ (s.modPrd (fun p => { p with queue := [] })).checkDef (defCmd cropPdb) false = none
         ∧ (s.modPrd (fun p => { p with queue := [] })).checkRetire { (defCmd []) with op := .retire } = some (0x12, 0xFF)) := by
  decide +kernel

/-- The stack is in training. -/
def training (n : Nat) : State := { (up.setFlag F.FST_STAT.TRAINING) with fst := { attempts := n } }

theorem witness_TrainingAndTemperatureOfTheStack :
    (∀ n, (training n).flag F.FST_STAT.TRAINING = true) ∧ (training 1).fst.attempts ≤ 1 ∧ 1 < (training 2).fst.attempts
    ∧ (let s := up.setFld F.FST_CTRL.CASE_LIM 105
       ((104#8).toInt < (s.fld F.FST_CTRL.CASE_LIM : Int) ∧ 85 < (104#8).toInt) ∧ (s.fld F.FST_CTRL.CASE_LIM : Int) ≤ (105#8).toInt
         ∧ s.flag F.FST_STAT.HOT = false ∧ s.flag F.FST_CTRL.FORCE_2X = false ∧ (0xFF#8).toInt < 80) := by
  refine ⟨fun n => ?_, by decide +kernel⟩
  show (up.setFlag F.FST_STAT.TRAINING).flag F.FST_STAT.TRAINING = true
  decide +kernel

/-- The frame store is ready. -/
def stackReady : State := (up.setFlag F.FST_STAT.READY).setFlag F.FST_CTRL.SCRUB_EN

/-- A read or a write request waits at pseudo-channel 3. -/
def asked (wr : Bool) (par : List Nat) : State :=
  { stackReady with fst := { queues := ({} : Tbl _).set 3 [{ wr := wr }], parity := par } }

theorem witness_FrameStoreRequestsAndErrors :
    stackReady.scrubs = true ∧ up.scrubs = false ∧ up.fstRuns = false
    ∧ (∀ wr, (asked wr []).fstRuns = true
        ∧ nextReq ((((asked wr []).modFst (fun f => { f with parity := f.parity.filter (· != 3) })).fstOffer).fst.queues.get 3)
          = some { wr := wr })
    ∧ up.fstOffer.scrubs = false ∧ up.fstOffer.fstRuns = false ∧ stackReady.fstOffer.scrubs = true ∧ stackReady.fstOffer.fst.queues.get 3 = []
    ∧ (∀ l, l ∈ [[], [3, 16]] →
        (asked false l).fstOffer.fst.queues.get 3 ≠ [] ∧ (asked false l).fstOffer.fstRuns = true ∧ (asked false l).fstOffer.scrubs = true
          ∧ ((3 ∈ (asked false l).fstOffer.fst.parity ∧ 16 ∈ (asked false l).fstOffer.fst.parity) ↔ l ≠ []))
    ∧ upSafe.fcl.safe = true ∧ (∀ c, c < 16 → upSafe.fst.queues.get c = []) ∧ up.fcl.safe = false ∧ up.cfg.warm = false
    ∧ (asked false []).fst.queues.get 3 ≠ [] := by decide +kernel

/-! Geward lanes. -/

/-- The lane group runs. -/
def gwOn : State := { (up.setFlag F.GWP_CTRL.EN) with gwp := { pll := true } }

/-- The lane group is off. -/
def gwOff : State := up.setFlag F.GWP_CTRL.EN false

/-- Lane 0 is locked; its receiver is `r`. -/
def lane0 (r : GwRx) : State := { (gwOn.setFlag F.GWP_LANE_STAT.BLK_LOCK true 0) with gwp := { pll := true, rx := ({} : Tbl GwRx).set 0 r } }

/-- The header decision of the statement, for a lane without inversion and precoder. -/
theorem witness_ReceiveLanesHuntAndLock :
    gwOn.rxOn 0 = true ∧ gwOn.clockUp 15 = true ∧ gwOn.clockUp 23 = true ∧ (∀ i, i < 8 → (gwOn.fcl.fij.get i).cut = false)
    ∧ gwOn.flag F.GWP_LANE_STAT.BLK_LOCK 0 = false ∧ gwOn.flag F.GWP_LANE_CTRL.RX_INV 0 = false ∧ gwOn.flag F.GWP_LANE_CTRL.RX_PRE 0 = false
    ∧ (gwOn.gwp.rx.get 0).cnt < 63 ∧ ((lane0 { cnt := 63 }).gwp.rx.get 0).cnt = 63
    ∧ (lane0 {}).flag F.GWP_LANE_STAT.BLK_LOCK 0 = true ∧ (lane0 {}).flag F.GWP_LANE_STAT.ACTIVE 0 = false
    ∧ 16 ≤ (((true :: List.replicate 15 true).take 64).filter id).length ∧ (lane0 {}).rxOn 0 = true
    ∧ (((false :: List.replicate 15 true).take 64).filter id).length < 16 := by
  refine ⟨by decide +kernel, by decide +kernel, by decide +kernel, fun i _ => by rw [show gwOn.fcl.fij = {} from rfl]; rfl, ?_⟩
  decide +kernel

/-- A marker with TX_LANE 2, AM_SEQ 7 and a good format; and one with TX_LANE 9. -/
def am2 : BitVec 64 := BitVec.ofNat 64 (7 <<< 40 + 2 <<< 8)
def am9 : BitVec 64 := BitVec.ofNat 64 (9 <<< 8)

theorem witness_AlignmentMarkersDeskewAndAnnounce :
    (let s := lane0 { am := some { lane := 2, seq := 6 } }
     s.rxOn 0 = true ∧ s.flag F.GWP_LANE_STAT.BLK_LOCK 0 = true ∧ (∀ j, j < 8 → j ≠ 0 → s.flag F.GWP_LANE_STAT.DESKEWED j = false)
       ∧ 8 ≤ bits am9.toNat 15 8 ∧ bits am2.toNat 15 8 < 8 ∧ (s.gwp.rx.get 0).am = some { lane := 2, seq := 6 })
    ∧ (let s := (((lane0 {}).setFlag F.GWP_LANE_STAT.DESKEWED true 5).setFld F.GWP_LANE_STAT.FAR_LANE 2 5)
       s.rxOn 0 = true ∧ s.flag F.GWP_LANE_STAT.BLK_LOCK 0 = true ∧ s.flag F.GWP_LANE_STAT.DESKEWED 5 = true
         ∧ s.fld F.GWP_LANE_STAT.FAR_LANE 5 = bits am2.toNat 15 8)
    ∧ gwOn.gwTxOn = true ∧ gwOn.gwp.lanes = [] ∧ ({ gwOn with gwp := { pll := true, lanes := [0] } } : State).gwTxOn = true
    ∧ up.gwTxOn = false := by decide +kernel

theorem witness_LaneAttemptsStartFailAndFallBack :
    gwOff.flag F.GWP_CTRL.EN = false ∧ gwOn.flag F.GWP_CTRL.EN = true ∧ gwOn.rxOn 0 = true ∧ gwOn.flag F.GWP_LANE_STAT.BLK_LOCK 0 = false
    ∧ up.flag F.GWP_CTRL.TX_REF = false ∧ (up.setFlag F.GWP_CTRL.TX_REF).flag F.GWP_CTRL.TX_REF = true ∧ up.refclkOk = false
    ∧ (∀ b, (gwOn.setFlag F.GWP_LANE_CTRL.EQ_FREEZE b 0).rxOn 0 = true
        ∧ (gwOn.setFlag F.GWP_LANE_CTRL.EQ_FREEZE b 0).flag F.GWP_LANE_CTRL.EQ_FREEZE 0 = b)
    ∧ gwOn.flag F.GWP_CTRL.FORCE_FB = false ∧ (gwOn.setFlag F.GWP_CTRL.FORCE_FB).flag F.GWP_CTRL.FORCE_FB = true
    ∧ (gwOn.gwp.rx.get 0).fails + 1 < 3 ∧ gwOn.flag F.GWP_LANE_STAT.FB_MODE 0 = false
    ∧ (let s := ({ gwOn with gwp := { pll := true, rx := ({} : Tbl GwRx).set 0 { fails := 2 } } } : State)
       s.rxOn 0 = true ∧ 3 ≤ (s.gwp.rx.get 0).fails + 1 ∧ (s.setFlag F.GWP_LANE_STAT.FB_MODE true 0).flag F.GWP_LANE_STAT.FB_MODE 0 = true)
    ∧ (let s := (lane0 {}).setFlag F.GWP_LANE_STAT.CLK_LOCK true 0
       s.rxOn 0 = true ∧ s.flag F.GWP_LANE_STAT.CLK_LOCK 0 = true ∧ s.flag F.GWP_LANE_STAT.BLK_LOCK 0 = true
         ∧ s.flag F.GWP_LANE_STAT.ACTIVE 0 = false) := by decide +kernel

/-- The link is up. -/
def linkUp : State := gwOn.setFlag F.GWP_STAT.LINK_UP

theorem witness_TheLinkGoesDownAndTimesOut :
    linkUp.flag F.GWP_CTRL.EN = true ∧ linkUp.flag F.GWP_STAT.LINK_UP = true ∧ gwOn.flag F.GWP_STAT.LINK_UP = false
    ∧ gwOff.flag F.GWP_CTRL.EN = false
    ∧ (∀ b, let s := ((lane0 {}).setFlag F.GWP_STAT.LINK_UP).setFlag F.GWP_LANE_STAT.DESKEWED b 0
        s.rxOn 0 = true ∧ s.flag F.GWP_LANE_STAT.BLK_LOCK 0 = true ∧ s.flag F.GWP_LANE_STAT.DESKEWED 0 = b ∧ s.flag F.GWP_STAT.LINK_UP = true) := by decide +kernel

/-! Geward frames. -/

/-- A frame of header `h` and body `d` under epoch `e`, with its codes. -/
def frame (e h : Nat) (d : List Byte) : List Byte := withFec (frameBytes e h d)

/-- The link is up and the link layer active. -/
def active (g : Gwl) : State := { (linkUp.setFlag F.GWL_STAT.ACTIVE) with gwl := g }

/-- An INIT body: epoch 9, protocol 1, RX_DONE, lengths, limits. -/
def initBody : List Byte := leBytes 4 9 ++ leBytes 2 1 ++ leBytes 1 1 ++ leBytes 1 12 ++ leBytes 20 0

theorem decode_init : correctFrame (frame 0 (frameHead false false false false 3 0 0) initBody)
    = some (frame 0 (frameHead false false false false 3 0 0) initBody, []) := by decide +kernel

theorem decode_init0 : correctFrame (frame 0 (frameHead false false false false 3 0 0) (initBody.set 6 0))
    = some (frame 0 (frameHead false false false false 3 0 0) (initBody.set 6 0), []) := by decide +kernel

theorem decode_data : correctFrame (frame 0 (frameHead false false false false 1 0 7) [])
    = some (frame 0 (frameHead false false false false 1 0 7) [], []) := by decide +kernel

theorem decode_ctrl : correctFrame (frame 0 (frameHead false false false true 2 0 7) [])
    = some (frame 0 (frameHead false false false true 2 0 7) [], []) := by decide +kernel

theorem decode_reserved : correctFrame (frame 0 (frameHead false false false false 0 0 7) [])
    = some (frame 0 (frameHead false false false false 0 0 7) [], []) := by decide +kernel

theorem witness_FramesAreCheckedAndInitStartsTheLinkLayer :
    linkUp.injIdle ∧ linkUp.flag F.GWP_STAT.LINK_UP = true ∧ correctFrame [] = none ∧ linkUp.gwActive = false ∧ (active {}).gwActive = true
    ∧ (active {}).gwl.nakAt = none ∧ (active { nakAt := some 0 }).time.now < 0 + 2400
    ∧ (let b := frame 0 (frameHead false false false false 3 0 0) initBody
       fhType b = 3 ∧ frameCrc 0 b = leAt b 244 4 ∧ leAt b 8 2 = 1 ∧ bit (leAt b 10 1) 0 = true)
    ∧ (let b := frame 0 (frameHead false false false false 3 0 0) (initBody.set 6 0)
       fhType b = 3 ∧ frameCrc 0 b = leAt b 244 4 ∧ leAt b 8 2 = 1 ∧ bit (leAt b 10 1) 0 = false)
    ∧ (let b := frame 0 (frameHead false false false false 0 0 7) []
       fhType b = 0 ∧ frameCrc (linkUp.rd .GWL_EPOCH_RX) b = leAt b 244 4) := by
  exact ⟨injIdle_of _ rfl, by decide +kernel⟩

theorem witness_SequenceNumbersAcceptDiscardAndAcknowledge :
    (active { expect := 7 }).injIdle ∧ (active { expect := 7 }).flag F.GWP_STAT.LINK_UP = true ∧ (active { expect := 7 }).gwActive = true
    ∧ (active { expect := 7 }).rd .GWL_EPOCH_RX = 0
    ∧ (let b := frame 0 (frameHead false false false false 1 0 7) []
       frameCrc 0 b = leAt b 244 4 ∧ fhType b = 1 ∧ fhAckv b = false ∧ fhCrd b = false ∧ fhNak b = false ∧ fhSeq b = 7
         ∧ 1 ≤ (8 + 4096 - fhSeq b) % 4096 ∧ (8 + 4096 - fhSeq b) % 4096 ≤ 2048 ∧ 2048 < (6 + 4096 - fhSeq b) % 4096)
    ∧ (let b := frame 0 (frameHead false false false true 2 0 7) []
       frameCrc 0 b = leAt b 244 4 ∧ fhType b = 2 ∧ fhAckv b = true ∧ fhNak b = false ∧ fhSeq b = 7 ∧ (fhAck b + 4096 - 4095) % 4096 = 1) := by
  exact ⟨injIdle_of _ rfl, by decide +kernel⟩

/-- One frame waits for its acknowledgement. -/
def unacked : Gwl := { replay := [{ seq := 3 }], lastAck := 2, seq := 4 }

/-- A write of four bytes that the far end has room for. -/
def sending : State :=
  active { limit := ({} : Tbl Credit).set 0 { hdrUnl := true, dataUnl := true }, farMaxLen := 12, txq := [{ len := 4, data := [1, 2, 3, 4] }] }

theorem sending_fill : sending.crdReady = false ∧ (sending.fillUnits 32 240 [] []).1.1 ≠ [] ∧ (sending.fillUnits 32 240 [] []).2.fcl.fij = {} := by
  decide +kernel

theorem witness_FramesLeaveInOrderAndReplayUnchanged :
    linkUp.injIdle ∧ sending.injIdle ∧ (sending.fillUnits 32 240 [] []).2.injIdle
    ∧ (linkUp.gwActive = false ∧ linkUp.gwTxOn = true ∧ up.gwTxOn = false
      ∧ (let s := active { unacked with resend := some 0 }
         s.gwTxOn = true ∧ s.gwActive = true ∧ s.gwl.resend = some 0 ∧ s.gwl.replay[0]? = some { seq := 3 } ∧ s.crdReady = false
           ∧ s.gwl.nakDue = false)
      ∧ (∀ a, let s := active { ackDue := a }
         s.gwl.resend = none ∧ s.gwl.txPartOf = none ∧ s.pickTxn = none ∧ s.gwl.ackDue = a ∧ s.crdReady = false ∧ s.gwl.nakDue = false
           ∧ s.gwl.replay.length < 512)
      ∧ (let s := active { crdDue := true }
         s.gwl.resend = none ∧ s.crdReady = true ∧ s.gwl.txPartOf = none ∧ s.pickTxn = none ∧ s.gwl.nakDue = false)
      ∧ sending.gwTxOn = true ∧ sending.gwActive = true ∧ sending.gwl.resend = none ∧ sending.gwl.replay.length < 512) :=
  ⟨injIdle_of _ rfl, injIdle_of _ rfl, injIdle_of _ sending_fill.2.2, by decide +kernel⟩

theorem witness_ReplaysStartAndGiveUp :
    (active unacked).gwActive = true ∧ (active unacked).gwl.replay = { seq := 3 } :: []
    ∧ 0 < (active unacked).fld F.GWL_CTRL.REPLAY_MAX
    ∧ (active { unacked with replayAt := 3, replayCnt := 255 }).fld F.GWL_CTRL.REPLAY_MAX ≤ 255 := by decide +kernel

/-! Transactions of the host. -/

/-- A transaction of the host in domain `d` at `a` with `n` bytes. -/
def txn (d : BitVec 6) (a : BitVec 64) (n : BitVec 13) (sub : BitVec 8 := 0) : HostTxn :=
  { dom := d, tag := 5, cls := 0, sub := sub, len := n, addr := a, data := [1, 2, 3, 4] }

/-- SYS has stopped. -/
def stopped : State := { up with fcl := { clkFail := [1] } }

theorem witness_HostTransactionsReachTheRegisterWindow : up.noHeld
    ∧ stopped.sysStopped = true ∧ up.sysStopped = false
    ∧ up.gwReach 1 0 = false ∧ up.gwReach 0 0 = true ∧ extentOk 4095 4 = false ∧ extentOk 0x1800000 8 = true ∧ inDoorbells 0x1800000 = true
    ∧ inRemote 0x1800000 = false ∧ regAccess 0x1800000 8 = true
    ∧ inRemote (RegKind.off .TOP_SCRATCH 0 0) = false ∧ inDoorbells (RegKind.off .TOP_SCRATCH 0 0) = false
    ∧ inApertures (RegKind.off .TOP_SCRATCH 0 0) = false ∧ bufAt (RegKind.off .TOP_SCRATCH 0 0) = none
    ∧ RegKind.off .TOP_SCRATCH 0 0 % 4 = 0 ∧ RegKind.off .TOP_SCRATCH 0 0 < 0x4000000
    ∧ findReg (RegKind.off .TOP_SCRATCH 0 0) = some ⟨.TOP_SCRATCH, 0, 0⟩
    ∧ findReg 0x3FFFFF0 = none ∧ bufAt 0x3FFFFF0 = none ∧ inRemote 0x3FFFFF0 = false ∧ inDoorbells 0x3FFFFF0 = false ∧ 0x3FFFFF0 % 4 = 0 :=
  ⟨noHeld_of _ rfl, by decide +kernel⟩

/-- A read of eight bytes is open at tag 5. -/
def reads (m : MrdOpen) : State := active { mrds := ({} : Tbl _).set 5 (some m) }

/-- The read of eight bytes. -/
def mrd8 : MrdOpen := { txn := { kind := .mrd, len := 8, addr := 64 }, got := List.replicate 8 none }

theorem witness_CompletionsEndOrRetryReads :
    up.gwl.mrds.get 5 = none ∧ (reads mrd8).gwl.mrds.get 5 = some mrd8 ∧ mrd8.again = false
    ∧ bits (txn 0 64 4 1).sub.toNat 2 0 = 1 ∧ mrd8.txn.retries < ((reads mrd8).setFld F.GWL_CTRL.HOST_RETRY 3).fld F.GWL_CTRL.HOST_RETRY
    ∧ bits (txn 0 64 4 0).sub.toNat 2 0 = 0 ∧ bit (txn 0 64 4 0).sub.toNat 7 = false ∧ bits (txn 0 64 4 0x80).sub.toNat 2 0 = 0
    ∧ bit (txn 0 64 4 0x80).sub.toNat 7 = true ∧ 2 ≤ bits (txn 0 64 4 2).sub.toNat 2 0
    ∧ (reads { mrd8 with again := true }).gwl.mrds.get 5 = some { mrd8 with again := true } := by decide +kernel

/-- Geward is the source of time. -/
def gwTime (t : Time) : State := { (up.setFld F.RAS_DISC_CTRL.SRC 2) with time := t }

/-- A record of a write of a ring. -/
def mwr5 : MwrRec := { tag := 5, org := { kind := .pair }, addr := 64, len := 32 }

theorem witness_TimeAndWriteFaultMessages :
    up.fld F.RAS_DISC_CTRL.SRC ≠ 2 ∧ (gwTime {}).fld F.RAS_DISC_CTRL.SRC = 2 ∧ (gwTime {}).time.lastMsg = none
    ∧ (gwTime { lastMsg := some 5, tod := 1000000000 }).time.lastMsg = some 5 ∧ 5 < (gwTime { lastMsg := some 5, tod := 1000000000 }).time.tod
    ∧ (gwTime {}).fld F.RAS_DISC_PARAM.STEP_US * 1000 < 900000000
    ∧ mwr5.ofRing = true
    ∧ (let s := { up with hqe := { mwrs := [mwr5] } }
       s.hqe.mwrs.find? (fun m => m.tag == 5 && m.dom == 0 && m.addr ≤ 70 && 70 < m.addr + m.len) = some mwr5) := by decide +kernel

/-! Host rings. -/

/-- A window over the first MiB. -/
def win : Win := { pages := 256, rd := true, wr := true }

/-- Domain 0 with its admin rings, SUB ring 2 and BUF ring 3. -/
def hosted (r0 r2 r3 : Ring) : State :=
  { (up.setFlag F.HQE_CTRL.EN) with hqe := {
    rings := (((({} : Tbl Ring).set 0 { r0 with st := .running, cmp := 1, k := 4 }).set 1 { typ := .cmp, st := .running, k := 4 }).set 2
      { r2 with cmp := 1, k := 4 }).set 3 { r3 with typ := .buf, cmp := 1, k := 4 }
    doms := ({} : Tbl Dom).set 0 { en := true, wins := [win] }
    cache := [0, 1, 2, 3] } }

/-- A doorbell waits. -/
def rung (e : DbEntry) : State := { (hosted {} { st := .running } {}) with hqe := { (hosted {} { st := .running } {}).hqe with dbq := [e] } }

theorem witness_DoorbellsQueueAndMoveTheIndex :
    (rung { bad := true }).hqe.dbq = { bad := true } :: [] ∧ (rung { bad := true }).hqe.credHdr = 0 ∧ (rung { bad := true }).dbBad { bad := true } = true
    ∧ (let e : DbEntry := { ring := 2, index := 3 }
       let x := (rung e).ring (ringG 0 2)
       (rung e).dbBad e = false ∧ (rung e).hqe.cache.any (· == ringG e.dom e.ring) = true ∧ e.op = 0
         ∧ (e.index + 2 ^ 32 - x.pi % 2 ^ 32) % 2 ^ 32 = 3 ∧ 3 ≤ 2 ^ x.k - (x.pi + 2 ^ 32 - x.ci % 2 ^ 32) % 2 ^ 32)
    ∧ (let e : DbEntry := { ring := 2, index := 17 }
       let x := (rung e).ring (ringG 0 2)
       (rung e).dbBad e = false ∧ 2 ^ x.k - (x.pi + 2 ^ 32 - x.ci % 2 ^ 32) % 2 ^ 32 < (e.index + 2 ^ 32 - x.pi % 2 ^ 32) % 2 ^ 32)
    ∧ up.hqe.dbq = [] := by decide +kernel

/-- A descriptor: flags word, address, target, index, last words. -/
def cmd (code flags addr target index last : Nat) : List Byte :=
  leBytes 3 flags ++ leBytes 1 code ++ leBytes 4 0 ++ leBytes 8 addr ++ leBytes 4 target ++ leBytes 4 index ++ leBytes 8 last

/-- A fetched descriptor at the front of ring 0. -/
def fetched (b : List Byte) (st : List Started) : State := hosted { fi := 1, fetched := [{ bytes := b }], started := st } {} {}

theorem witness_DescriptorsStartInRingOrder :
    (∀ b, b ∈ [cmd 0x01 0 0 0 0 0, cmd 0x01 (1 <<< 23) 0 0 0 0, cmd 0x02 0 0 0 0 0, cmd 0x08 0 0 0 0 0, cmd 0x01 1 0 0 0 0] →
      let s := fetched b [{}]
      (s.ring (ringG 0 0)).typ = .sub ∧ s.fetches (ringG 0 0) = true ∧ (s.ring (ringG 0 0)).fetched = { bytes := b } :: []
        ∧ 0 = s.nextStart (ringG 0 0) ∧ (s.ring (ringG 0 0)).started ≠ [])
    ∧ descFence (cmd 0x01 (1 <<< 23) 0 0 0 0) = true ∧ descFence (cmd 0x01 0 0 0 0 0) = false
    ∧ startStatus 0 0 (cmd 0x01 0 0 0 0 0) = none ∧ startStatus 0 0 (cmd 0x01 1 0 0 0 0) = some 0x30
    ∧ bits (leAt (cmd 0x02 0 0 0 0 0) 0 4) 22 0 = 0 ∧ descCmd (cmd 0x02 0 0 0 0 0) = 0x02 ∧ descCmd (cmd 0x08 0 0 0 0 0) = 0x08
    ∧ bits (leAt (cmd 0x01 1 0 0 0 0) 0 4) 22 0 ≠ 0 := by decide +kernel

/-- A started descriptor on ring 0. -/
def begun (b : List Byte) (r2 r3 : Ring) : State := hosted { started := [{ bytes := b }] } r2 r3

theorem witness_RingCommandsChangeTheirRing :
    (begun (cmd 0x01 0 0 0 0 0) {} {}).startedCmd (ringG 0 0) 0 0x01 = some { bytes := cmd 0x01 0 0 0 0 0 }
    ∧ (let b := cmd 0x02 0 0x1000 2 1 0
       let s := begun b {} {}
       s.startedCmd (ringG 0 0) 0 0x02 = some { bytes := b } ∧ (s.takeCmd (ringG 0 0) 0).createStatus (ringG 0 0) b = none
         ∧ (s.takeCmd (ringG 0 0) 0).hqe.cache.length < 4096)
    ∧ (let b := cmd 0x02 0 0x1000 1 1 0
       (begun b {} {}).startedCmd (ringG 0 0) 0 0x02 = some { bytes := b } ∧ ((begun b {} {}).takeCmd (ringG 0 0) 0).createStatus (ringG 0 0) b = some 0x33)
    ∧ (∀ c, c ∈ [0x03, 0x04, 0x05] →
        let b := cmd c 0 0 2 0 0
        (∀ r, r ∈ [({ st := .stopped } : Ring), { st := .running }, { st := .error }] →
          (begun b r {}).startedCmd (ringG 0 0) 0 c = some { bytes := b } ∧ ((begun b r {}).takeCmd (ringG 0 0) 0).ring 2 = { r with cmp := 1, k := 4 })
        ∧ rcReserved b false = false ∧ rcReach (ringG 0 0) b false = none ∧ 2 ≤ rcRing b ∧ ringG (rcDom b) (rcRing b) = 2
        ∧ ((begun b { st := .error } {}).ring ((begun b { st := .error } {}).cmpOf 2)).st = .running)
    ∧ rcRing (cmd 0x03 0 0 1 0 0) < 2
    ∧ (let b := cmd 0x04 0 0 3 0 0
       let s := begun b {} { st := .running, bound := 1 }
       s.startedCmd (ringG 0 0) 0 0x04 = some { bytes := b } ∧ rcReserved b false = false ∧ rcReach (ringG 0 0) b false = none
         ∧ ringG (rcDom b) (rcRing b) = 3 ∧ ((s.takeCmd (ringG 0 0) 0).ring 3).typ = .buf ∧ ((s.takeCmd (ringG 0 0) 0).ring 3).bound ≠ 0
         ∧ ((s.takeCmd (ringG 0 0) 0).ring 3).stopping = false)
    ∧ (∀ a, a ∈ [0x1000, 0x100000] →
        let b := cmd 0x06 0 a 2 0 0
        let s := begun b {} {}
        s.startedCmd (ringG 0 0) 0 0x06 = some { bytes := b } ∧ rcReserved b true = false ∧ rcReach (ringG 0 0) b true = none ∧ rcAddr b % 64 = 0
        ∧ ((s.takeCmd (ringG 0 0) 0).writeHost { kind := .cmdWrite, ring := ringG 0 0, idx := 0 } 0 0 a (s.ctxBytes 2) false).isSome
            = decide (a = 0x1000)) := by decide +kernel

/-- A slot header with or without VALID stands at the start of region 0, whose slots are known. -/
def slotted (v : Bool) : State :=
  let b := cmd 0x10 0 0 0 0 0
  { ((((begun b {} {}).setFlag F.FST_STAT.READY).setFlag F.FST_RGN.EN true 0).setFld F.FST_RGN.SIZE 1 0) with
    fst := { geo := ({} : Tbl _).set 0 { size := 2048 }
             rows := if v then ({} : Tbl _).set 0 (leBytes 4 0 ++ leBytes 4 (2 ^ 31) ++ leBytes 1016 0) else {} } }

theorem witness_DomainCommandsAndCopiesStart :
    (let b := cmd 0x08 0 0 1 0 1
     (begun b {} {}).startedCmd (ringG 0 0) 0 0x08 = some { bytes := b })
    ∧ rcReserved (cmd 0x08 0 0 1 0 (1 <<< 32)) true = true ∧ rcReserved (cmd 0x08 0 0x1000 (1 <<< 12) 0 0) true = false
    ∧ (let b := cmd 0x08 0 0x1000 (1 <<< 12) 0 0
       let s := begun b {} {}
       s.startedCmd (ringG 0 0) 0 0x08 = some { bytes := b }
         ∧ ((s.takeCmd (ringG 0 0) 0).readHost { kind := .cmdRead, ring := ringG 0 0, idx := 0 } 0 0 (rcAddr b) 256).isSome = true)
    ∧ (let b := cmd 0x09 0 0 (1 <<< 12) 0 0
       let s := begun b {} {}
       s.startedCmd (ringG 0 0) 0 0x09 = some { bytes := b } ∧ rcReserved b false = false ∧ (s.dom (rcDom b)).en = false ∧ rcDom b ≠ 0
         ∧ (let u := { s with hqe := { s.hqe with doms := s.hqe.doms.set 1 { en := true } } }
            (u.dom (rcDom b)).en = true ∧ u.ownedBy (rcDom b) = [] ∧ u.prd.queue = []))
    ∧ (∀ v, let s := slotted v
            let b := cmd 0x10 0 0 0 0 0
            s.startedCmd (ringG 0 0) 0 0x10 = some { bytes := b } ∧ leAt b 24 8 = 0 ∧ s.flag F.FST_STAT.READY = true ∧ leAt b 8 8 % 64 = 0
              ∧ cfld b 16 15 0 = 0 ∧ cfld b 16 31 16 = 0 ∧ s.flag F.FST_RGN.EN 0 = true ∧ s.fld F.FST_RGN.KIND 0 = 0
              ∧ (s.fst.geo.get 0).size ≠ 0 ∧ (0 + 1) * (s.fst.geo.get 0).size ≤ s.fld F.FST_RGN.SIZE 0 * 2 ^ 21
              ∧ slotValid (s.fstRow (s.slotAddr 0 0 / 1024)) = v)
    ∧ (begun (cmd 0x10 0 0 0 0 0) {} {}).flag F.FST_STAT.READY = false := by decide +kernel

theorem witness_TheQueueEngineEnablesAndCaches :
    up.flag F.HQE_CTRL.EN = false ∧ (hosted {} {} {}).flag F.HQE_CTRL.EN = true
    ∧ ((hosted {} {} {}).ring 0).waitQ = [] ∧ ((hosted {} {} {}).ring 0).lost = 0 ∧ ((hosted {} {} {}).ring 1).waitQ = []
    ∧ ((hosted {} {} {}).ring 1).lost = 0
    ∧ (5#18).toNat ∈ ({ up with hqe := { fills := [5] } } : State).hqe.fills ∧ (5#18).toNat ∉ up.hqe.fills := by decide +kernel

/-- A published line of product 0, whose buffer on ring 3 has room. -/
def released : State :=
  let q : PFrame := { pdb := cropPdb3 }
  { (hosted {} {} { st := .running, held := some { addr := 0x1000, bytes := 4096, pitch := 64 } }) with
    prd := { tab := ({} : Tbl Product).set 0 { pdb := cropPdb3, frames := [q] } }
    pool := { dir := ({} : Tbl _).set 9 (some { kind := .product, data := [1, 2], published := true, sealVal := lineSeal 0 0 0 0 [1, 2] }) } }
where
  cropPdb3 : List Byte := (cropPdb.set 12 3)

/-- The buffer on ring 3, before and after its BUF ring is read on. -/
def buf3 : HeldBuf := { addr := 0x1000, bytes := 4096, pitch := 64 }

theorem witness_HostLinesFillTheirBuffer :
    (released.product 0).frames.find? (fun x => !x.dead) = some { pdb := released.cropPdb3 } ∧ pdbDestKind released.cropPdb3 = 0
    ∧ released.nextOut 0 { pdb := released.cropPdb3 } = some 9 ∧ pdbRing released.cropPdb3 = 3
    ∧ (released.line 9).any (fun l => lineSeal (pdbSrc0 released.cropPdb3) 0 0 l.line l.data == l.sealVal && l.data == [1, 2] && l.line == 0) = true
    ∧ (released.ring 3).held = some buf3 ∧ ((released.fetchMore 3).ring 3).held = some buf3 ∧ buf3.recs = 0
    ∧ buf3.lines + 1 < buf3.bytes / buf3.pitch
    ∧ ((released.fetchMore 3).writeHost { kind := .lineData, ring := 3, idx := buf3.idx } 0 ((released.fetchMore 3).ring 3).cls
        (buf3.addr + buf3.lines * buf3.pitch) [1, 2] ((released.fetchMore 3).flag F.GWL_CTRL.RO_EN) (some (0, 0, 0))).isSome = true
    ∧ 0 + 1 ≠ pdbFrameLines released.cropPdb3 := by decide +kernel

/-! Displays and Marigold. -/

/-- Port 0 runs with one open frame, its registers as in `up` but for `f`. -/
def port0Frame (q : DispFrame) : State :=
  { (up.setFlag F.DEG_PORT_CTRL.RUN true 0) with disp := ({} : Tbl Disp).set 0 { seen := true, frames := [q] } }

/-- A frame of 10 lines, 4 of them active from line 2 on, as latched. -/
def dframe (ok : Bool) (line fetch : Nat) : DispFrame :=
  let s := (((up.setFld F.DEG_VTIMING0.VTOTAL 10 0).setFld F.DEG_VTIMING0.VACT 4 0).setFld F.DEG_VTIMING1.VSA 1 0).setFld F.DEG_VTIMING1.VBP 1 0
  { ok := ok, line := line, fetch := fetch, snap := s.regs }

/-- Its raster has begun frame `f`; the frame above is frame 0 of it. -/
def shownAt (f : Nat) (q : DispFrame) : State := atFrame f (runs 0 (port0Frame q))

theorem witness_DisplayPortsStartSendAndStop :
    up.flag F.DEG_PORT_CTRL.RUN 0 = false
    ∧ (let s := { (port0Frame {}) with disp := {} }
       s.flag F.DEG_PORT_CTRL.RUN 0 = true ∧ (∀ q, q ∈ (s.disp.get 0).frames → q.spent = true) ∧ (s.vbr.tun.get 28).jobs = []
         ∧ (s.vbr.tun.get 28).held = [])
    ∧ (let s := (port0Frame {}).setFlag F.DEG_PORT_STAT.LINK_UP true 0
       s.flag F.DEG_PORT_STAT.LINK_UP 0 = true ∧ (s.disp.get 0).seen = true)
    ∧ (∀ f, f ∈ [0, 5] →
       let q := dframe true 1 0
       let s := shownAt f q
       s.fcl.safe = false ∧ s.flag F.DEG_PORT_CTRL.RUN 0 = true ∧ (s.disp.get 0).frames = [q] ∧ q.spent = false
         ∧ q.fetch < q.fld F.DEG_VTIMING0.VACT 0 ∧ (∀ l, l < 4 → q.live 0 l = false) ∧ q.line < q.top 0 ∧ q.slots = []
         ∧ s.dispReached 0 q ((q.lineAt 0 (s.portRaster 0) (q.top 0 + q.fetch) : Nat) - 256) = decide (f = 5)
         ∧ s.displayDue 0 = decide (f = 5) ∧ q.line + 1 < q.fld F.DEG_VTIMING0.VTOTAL 0)
    ∧ (∀ b, let q := dframe b 3 2
       (shownAt 5 q).displayDue 0 = true ∧ ((shownAt 5 q).disp.get 0).frames = [q] ∧ q.spent = false ∧ q.slots = [] ∧ q.top 0 ≤ q.line ∧ q.line - q.top 0 < q.fld F.DEG_VTIMING0.VACT 0 ∧ q.fetch ≠ q.line - q.top 0
         ∧ q.line + 1 < q.fld F.DEG_VTIMING0.VTOTAL 0 ∧ q.srcs = [] ∧ q.ok = b)
    ∧ up.clockUp 33 = true := by decide +kernel

/-- Layer 0 of port 0 takes lines of one pixel from the host. -/
def apertured (h : Option HostOpen) : State :=
  { (((up.setFld F.DEG_LAYER_CFG.SRC 1 0 0).setFld F.DEG_LAYER_SIZE.H 5 0 0).setFld F.DEG_LAYER_SIZE.W 1 0 0) with
    disp := ({} : Tbl Disp).set 0 { host := h } }

/-- A header for line `l` of `n` bytes of layer `y`. -/
def lineHead (y l n : Nat) : List Byte := leBytes 4 7 ++ leBytes 2 l ++ leBytes 2 y ++ leBytes 4 n ++ leBytes 4 0

theorem witness_HostWritesLinesThroughItsAperture :
    upSafe.fcl.safe = true ∧ (apertured none).fcl.safe = false ∧ ([] : List Byte).length ≠ 16 ∧ (lineHead 0 4 4).length = 16 ∧ ((apertured none).disp.get 0).host = none ∧ leAt (lineHead 0 4 4) 6 1 ≤ 3
    ∧ (apertured none).fld F.DEG_LAYER_CFG.SRC 0 (leAt (lineHead 0 4 4) 6 1) = 1 ∧ leAt (lineHead 0 4 4) 4 2 < (apertured none).fld F.DEG_LAYER_SIZE.H 0 0
    ∧ leAt (lineHead 0 4 4) 8 4 = 4 * (apertured none).fld F.DEG_LAYER_SIZE.W 0 0 ∧ 3 < leAt (lineHead 4 4 4) 6 1
    ∧ (let b : List Byte := [1, 2, 3, 4]
       4 ≤ b.length ∧ b.length ≤ 4096 ∧ b.length % 4 = 0 ∧ (0#18).toNat % 4 = 0 ∧ (0#18).toNat % 4096 + b.length ≤ 4096
         ∧ (∀ n, n ∈ [4, 8] → let s := { (apertured (some { bytes := n, dir := some 9 })) with
                pool := { dir := ({} : Tbl _).set 9 (some {}) }, seals := { ctx := ({} : Tbl _).set (64 * unitGwRx) (SealCtx.line (hostHead 0 0 0 0)) } }
              (s.disp.get 0).host = some { bytes := n, dir := some 9 } ∧ s.line 9 = some {}
                ∧ s.ctxOf unitGwRx 0 = (SealCtx.line (hostHead 0 0 0 0)).take []) ∧ (0#18).toNat + b.length < 8
         ∧ (0#18).toNat + b.length = 4) := by decide +kernel

/-- Tell-tale 0 is a host input of port 0; frame 0 of raster 0 has slot 0 to read back. -/
def telling0 : State :=
  ((up.setFld F.MGD_TT_CFG.SRC 1 0).setFld F.MGD_SLOT_RB.RB_EN 1 0).setFld F.MGD_CTRL.HOST_TMO 1

/-- The slot and the frame. -/
def tellU : SlotRun := { mem := [0], plain := 6 }
def tellQ : DispFrame := { snap := telling0.regs, tts := [{}], slots := [tellU] }

/-- The state in which its readback ends. -/
def telling : State := atFrame 2 { telling0 with disp := ({} : Tbl Disp).set 0 { frames := [tellQ] } }

/-- The proof log is on, with one record to deliver. -/
def logging (a : Nat) : State :=
  { (hosted {} {} {}) with mgd := { buf := [{ bytes := List.replicate 32 1 }], log := some { base := a, piAddr := 0x2000, k := 4 } } }

theorem witness_TellTalesProveAndLog :
    (telling.fld F.MGD_TT_CFG.SRC 0 = 1 ∧ telling.fld F.MGD_TT_CFG.PORT 0 = 0 ∧ telling.hostFresh 0 = false ∧ up.fld F.MGD_TT_CFG.SRC 0 ≠ 1)
    ∧ telling.rbFrame 0 0 = some (tellQ, tellU) ∧ tellQ.tts.filter (fun x => tellU.mem.any (· == x.tt)) = [{}] ∧ tellU.plain = 6
    ∧ telling.fcl.safe = false ∧ telling.mgd.buf.length < 4096 ∧ up.mgd.log = none
    ∧ (∀ a, (logging a).mgd.log = some { base := a, piAddr := 0x2000, k := 4 } ∧ (logging a).fcl.safe = false ∧ (logging a).mgd.buf.length = 1
        ∧ (logging a).rd .MGD_LOG_CI = 0)
    ∧ (∀ a, a ∈ [0x1000, 0x100000] →
        ((logging a).writeEach { kind := .proof } 0 0
          (logWrites { base := a, piAddr := 0x2000, k := 4 } ((logging a).mgd.buf.take 1))).2 = decide (a = 0x1000))
    ∧ (up.setFlag F.MGD_BANK_STAT.VALID true 0).flag F.MGD_BANK_STAT.VALID 0 = true := by
  refine ⟨by decide +kernel, by decide +kernel, by decide +kernel, rfl, by decide +kernel, by decide +kernel, rfl, fun a => ?_, by decide +kernel,
    by decide +kernel⟩
  exact ⟨rfl, rfl, rfl, show (hosted {} {} {}).rd .MGD_LOG_CI = 0 by decide +kernel⟩

/-- A store with one black pixel, and one without a header. -/
def store1 : List Byte :=
  leBytes 4 0x4D474453 ++ leBytes 2 1 ++ leBytes 2 1 ++ leBytes 4 129 ++ leBytes 20 0
    ++ (leBytes 2 1 ++ leBytes 2 0 ++ leBytes 4 64 ++ leBytes 4 (crc32cRun 0 (encodeRow 0 [{}])) ++ leBytes 4 (crc32cRun 0 (encodeRow 1 [{}]))
      ++ leBytes 4 (crc32cRun 0 (encodeRow 2 [{}])) ++ leBytes 12 0)
    ++ leBytes 65 0

theorem head3 : GoodHead 3 (envHead 3 store1) store1 := by constructor <;> decide +kernel
theorem head3z : GoodHead 3 (envHead 3 [0]) [0] := by constructor <;> decide +kernel

/-- Bank 0 has been read. -/
def loaded (e : List Byte) : State := { keyed with mgd := { loads := ({} : Tbl _).set 0 (some { got := some (some e) }) } }

theorem witness_MarigoldCommandsSetLoadAndLog :
    (let b := cmd 0x30 0 1 1 0 0
     let s := begun b {} {}
     s.startedCmd (ringG 0 0) 0 0x30 = some { bytes := b } ∧ s.fld F.MGD_CTRL.HOST_DOMAIN = 0 ∧ bit (leAt b 8 8) 0 = true
       ∧ (s.setFld F.MGD_CTRL.HOST_DOMAIN 1).fld F.MGD_CTRL.HOST_DOMAIN ≠ 0 ∧ (s.setFld F.MGD_TT_CFG.SRC 1 0).fld F.MGD_TT_CFG.SRC 0 = 1
       ∧ s.fld F.MGD_TT_CFG.SRC 0 ≠ 1)
    ∧ (let b := cmd 0x31 0 0x1000 8400 0 0
       let s := begun b {} {}
       s.startedCmd (ringG 0 0) 0 0x31 = some { bytes := b } ∧ cfld b 20 31 1 = 0 ∧ leAt b 24 8 = 0 ∧ (s.takeCmd (ringG 0 0) 0).bankNamed 0 = false
         ∧ s.flag F.MGD_BANK_STAT.LOADING 0 = false ∧ (s.setFlag F.MGD_BANK_STAT.LOADING true 0).flag F.MGD_BANK_STAT.LOADING 0 = true
         ∧ 8192 ≤ leAt b 16 4 ∧ leAt b 16 4 ≤ 8192 + 262144)
    ∧ ((((begun (cmd 0x31 0 0x1000 8400 0 0) {} {}).takeCmd (ringG 0 0) 0).readHost { kind := .asset, ring := ringG 0 0, idx := 0 } 0 0 0x1000
          8400).isSome = true)
    ∧ (∀ l, l ∈ [0, 1 <<< 31] →
       let b := cmd 0x32 0 0x1000 0x2000 0 l
       (begun b {} {}).startedCmd (ringG 0 0) 0 0x32 = some { bytes := b } ∧ cfld b 24 30 4 = 0 ∧ leAt b 28 4 = 0 ∧ leAt b 8 8 % 32 = 0
         ∧ leAt b 16 8 % 8 = 0 ∧ bit (leAt b 24 4) 31 = decide (l ≠ 0))
    ∧ (∀ e, (loaded e).mgd.loads.get 0 = some { got := some (some e) })
    ∧ (let u := fun e : List Byte => (((loaded e).modMgd (fun m => { m with loads := m.loads.set 0 none })).setFlag F.MGD_BANK_STAT.LOADING false 0)
       let e := envOf (envHead 3 store1) store1
       let z := envOf (envHead 3 [0]) [0]
       (u e).envCheck 3 e true = 0 ∧ storeForm (envPayload e) = true ∧ storeRefs (envPayload e) = true
         ∧ (u z).envCheck 3 z true = 0 ∧ storeForm (envPayload z) = false ∧ (u []).envCheck 3 [] true ≠ 0) := by
  refine ⟨by decide +kernel, by decide +kernel, by decide +kernel, by decide +kernel, fun e => rfl, ?_, ?_, ?_, ?_, ?_, by decide +kernel⟩
  · exact head3.check (.inr rfl) _ (Tbl.get_set_same _ _ _) rfl rfl
  · rw [envOf_payload _ _ head3.len]; decide +kernel
  · rw [envOf_payload _ _ head3.len]; decide +kernel
  · exact head3z.check (.inr rfl) _ (Tbl.get_set_same _ _ _) rfl rfl
  · rw [envOf_payload _ _ head3z.len]; decide +kernel

/-! Sensor bridge and board bus. -/

/-- The bridge and CAN channel 0 are enabled; the tables hold the given entries. -/
def bridge (v : Vbr) : State := { (((up.setFlag F.VBR_CTRL.EN).setFlag F.VBR_CAN_CTRL.EN true 0).setFld F.VBR_CAN_STAT.STATE 0 0) with vbr := v }

/-- A 16-byte or 32-byte entry of words. -/
def entry (l : List Nat) : List Byte := l.flatMap (leBytes 4)

/-- Filter 0 takes identifier 5 of channel 0 and becomes stale after 10 ms; filter 1 checks its end-to-end field too. -/
def filt0 (e2e : Nat) : List Byte := entry [2 ^ 31 + 5, 0, e2e <<< 13, 10 <<< 16 + 8 <<< 1]

/-- A message of identifier 5. -/
def can5 : CanMsg := { id := 5, ext := false, fd := false, data := [7, 0] }

/-- Map entry 0 reads tell-tale 3 from the first byte of filter 0: one for one, between 0 and 100. -/
def sig0 : List Byte := entry [2 ^ 31 + 8 <<< 18, 0x10000, 0, 0, 100, 3 <<< 23, 0, 0]

theorem witness_CanChannelsCountSendAndReceive :
    (bridge {}).injIdle ∧ ((bridge {}).canOn 0 = true ∧ (bridge {}).flag F.VBR_CAN_CTRL.MON 0 = false
    ∧ (let s := (bridge {}).setFld F.VBR_CAN_STAT.STATE 2 0
       s.fld F.VBR_CAN_STAT.STATE 0 = 2 ∧ s.fcl.safe = false ∧ s.flag F.VBR_CAN_CTRL.AUTO_REC 0 = true
         ∧ (s.setFlag F.VBR_CAN_CTRL.AUTO_REC false 0).flag F.VBR_CAN_CTRL.AUTO_REC 0 = false)
    ∧ (bridge {}).fld F.VBR_CAN_STAT.TEC 0 + 8 ≤ 255
    ∧ (let s := bridge { tabs := ({} : Tbl _).set 8192 (entry [2 ^ 31 + 5, 10, 0, 0]) }
       s.flag F.VBR_CTRL.EN = true ∧ entEn (s.vbrEntry 2 0) = true ∧ wfld (s.vbrEntry 2 0) 1 15 0 ≠ 0 ∧ wfld (s.vbrEntry 2 0) 1 31 30 = 0
         ∧ (s.setFlag F.VBR_CAN_CTRL.MON true 0).flag F.VBR_CAN_CTRL.MON 0 = true)
    ∧ firstFrame ((bridge { canQ := ({} : Tbl _).set 0 [{ id := 5 }] }).vbr.canQ.get 0) = some { id := 5 }
    ∧ (let s := (bridge { tabs := ({} : Tbl _).set 0 (filt0 0) }).setFlag F.PMU_CTRL.FREEZE
       s.canOn 0 = true ∧ can5.fd = false ∧ s.flag F.PMU_CTRL.FREEZE = true ∧ s.fld F.VBR_CAN_STAT.REC 0 ≤ 127
         ∧ (List.range 256).find? (s.filterHit 0 can5) = some 0 ∧ s.mapsOf 0 = [] ∧ rfE2e (s.vbrEntry 0 0) = false)
    ∧ (let s := bridge { tabs := ({} : Tbl _).set 0 (filt0 1) }
       rfE2e (s.vbrEntry 0 0) = true ∧ (s.e2eCheck 0 []).1 = 1 ∧ (s.e2eCheck 0 (beBytes 1 (s.e2eOver 0 0 0 1 [0, 0]) ++ [0])).1 = 0)
    ∧ (let s := bridge { tabs := (({} : Tbl _).set 0 (filt0 0)).set 4096 sig0 }
       (List.range 256).find? (s.filterHit 0 can5) = some 0 ∧ s.mapsOf 0 = [0] ∧ smKind (s.vbrEntry 1 0) = 0
         ∧ fieldIn (smMoto (s.vbrEntry 1 0)) (smStart (s.vbrEntry 1 0)) (smLen (s.vbrEntry 1 0)) (8 * can5.data.length) = true
         ∧ smMin (s.vbrEntry 1 0) ≤ rescale (s.vbrEntry 1 0) (rawField (s.vbrEntry 1 0) can5.data)
         ∧ rescale (s.vbrEntry 1 0) (rawField (s.vbrEntry 1 0) can5.data) ≤ smMax (s.vbrEntry 1 0))
    ∧ (let s := bridge { tabs := ({} : Tbl _).set 0 (filt0 0), filt := ({} : Tbl _).set 0 { started := true } }
       entEn (s.vbrEntry 0 0) = true ∧ rfStaleMs (s.vbrEntry 0 0) ≠ 0 ∧ (s.vbr.filt.get 0).started = true ∧ (s.vbr.filt.get 0).stale = false
         ∧ s.mapsOf 0 = [])) :=
  ⟨injIdle_of _ rfl, by decide +kernel⟩

/-- The remote window of port 0 is enabled and its link up. -/
def remote (link : Bool) (v : Vbr) : State := { ((port0 link).setFlag F.VBR_RSLOT.EN true 0 0) with vbr := v }

/-- A read of four bytes of the first remote window. -/
def txnR : HostTxn := txn 0 0x3000000 4

theorem witness_RemoteWindowsReadThroughOpenEntries :
    (remote true {}).injIdle ∧ inRemote txnR.addr.toNat = true ∧ (remote true {}).remoteAt txnR.addr.toNat = (0, 0, 0)
    ∧ (remote true {}).reachRemote 1 0 = false ∧ (remote true {}).reachRemote 0 0 = true ∧ (remote true {}).fcl.safe = false
    ∧ (port0 true).remoteOk txnR.addr.toNat 4 = false ∧ (remote true {}).remoteOk txnR.addr.toNat 4 = true
    ∧ (remote true {}).vbr.prefetchAll 0 0 0 4 = false ∧ (remote true {}).vbr.reads.keys = [] ∧ (remote true {}).tunUp 0 = true
    ∧ (remote false {}).tunUp 0 = false
    ∧ ((remote true {}).vbr.tun.get 0).writes + ((remote true {}).vbr.tun.get 0).held.length < 16
    ∧ (∀ st, st ∈ [ReadSt.pending, .done, .failed 2] →
        let e : OpenRead := { addr := 0x3000000, len := 4, st := st }
        let s := remote true { reads := ({} : Tbl _).set 3 (some e) }
        (s.vbr.reads.keys.find? (fun i => match s.vbr.reads.get i with
          | some e => e.dom == txnR.dom.toNat && e.addr == txnR.addr.toNat && e.len == 4 && !e.orphan
          | none => false)) = some 3 ∧ s.vbr.reads.get 3 = some e)
    ∧ (let j : TunJob := { use := .read 3 }
       let s := (remote true { reads := ({} : Tbl _).set 3 (some {}), tun := ({} : Tbl _).set 0 { jobs := [j] } }).setFlag F.PMU_CTRL.FREEZE
       (s.vbr.tun.get 0).jobs = j :: [] ∧ (s.vbr.tun.get 0).held = [] ∧ s.vbr.reads.get 3 = some {} ∧ s.flag F.PMU_CTRL.FREEZE = true)
    ∧ ((remote true { tun := ({} : Tbl _).set 0 { jobs := [{ use := .write 0 5 }] } }).vbr.tun.get 0).jobs = { use := .write 0 5 } :: []
    ∧ (∀ b, (remote true { reads := ({} : Tbl _).set 3 (some { st := .done, pf := b }) }).vbr.reads.get 3 = some { st := .done, pf := b }) :=
  ⟨injIdle_of _ rfl, by decide +kernel⟩

/-- A bridge command for table 0, entry 0, from address `a`. -/
def loadCmd (n a : Nat) : List Byte := leBytes 3 0 ++ leBytes 1 0x40 ++ leBytes 4 0 ++ leBytes 8 a ++ leBytes 4 n ++ leBytes 12 0

/-- A transfer of one byte on port 0. -/
def xferCmd (wr : Nat) : List Byte :=
  leBytes 3 0 ++ leBytes 1 0x41 ++ leBytes 4 0 ++ leBytes 8 0x1000 ++ leBytes 4 (wr <<< 26) ++ leBytes 4 1 ++ leBytes 8 0

/-- The table of latest values goes to `a`. -/
def valued (a : Nat) : State :=
  { (((hosted {} {} {}).setFlag F.VBR_CTRL.EN).setFlag F.VBR_LVT_CTRL.EN).setFld F.VBR_LVT_BASE_LO.BASE_LO a with vbr := { gen := 1, lvtDue := true } }

theorem witness_BridgeCommandsAndValueTable :
    (let b := loadCmd 1 0x1000
     let s := begun b {} {}
     s.startedCmd (ringG 0 0) 0 0x40 = some { bytes := b } ∧ cfld b 16 15 13 = 0 ∧ leAt b 20 12 = 0 ∧ 1 ≤ vlCount b ∧ vlCount b ≤ 1792
       ∧ vlFirst b + vlCount b ≤ (vbrSize (vlTable b)).1 ∧ leAt b 8 8 % 8 = 0
       ∧ ((s.takeCmd (ringG 0 0) 0).readHost { kind := .cmdRead, ring := ringG 0 0, idx := 0 } 0 0 (leAt b 8 8)
            (vlCount b * (vbrSize (vlTable b)).2)).isSome = true)
    ∧ (vbrSize (vlTable (loadCmd 257 0))).1 < vlFirst (loadCmd 257 0) + vlCount (loadCmd 257 0)
    ∧ (∀ w, w ∈ [0, 1] →
       let b := xferCmd w
       let s := { (hosted { started := [{ bytes := b }] } {} {}) with regs := (port0 true).regs }
       s.startedCmd (ringG 0 0) 0 0x41 = some { bytes := b } ∧ s.fcl.safe = false ∧ cfld b 16 17 16 = 0 ∧ cfld b 20 31 7 = 0 ∧ leAt b 24 8 = 0
         ∧ 1 ≤ vxLen b ∧ vxLen b ≤ 64 ∧ vxWr b = decide (w = 1) ∧ s.tunUp (vxPort b) = true ∧ vxPort b < 28 ∧ bit (s.dom 1).remote (vxPort b) = false
         ∧ up.tunUp (vxPort b) = false
         ∧ ((s.takeCmd (ringG 0 0) 0).readHost { kind := .cmdRead, ring := ringG 0 0, idx := 0 } 0 0 (leAt b 8 8) (vxLen b)).isSome = true)
    ∧ (let s := { ((port0 true).setFlag F.VBR_CTRL.EN) with vbr := { tabs := ({} : Tbl _).set (4096 * 3 + 4) (entry [3 <<< 30, 0]) } }
       let b := s.vbrEntry 3 4
       s.flag F.VBR_CTRL.EN = true ∧ entEn b = true ∧ lvPoll b = true ∧ s.tunUp (lvPort b) = true ∧ s.fcl.safe = false)
    ∧ up.flag F.VBR_LVT_CTRL.EN = false ∧ up.vbr.lvtDue = false
    ∧ (∀ a, a ∈ [1, 0x1000] →
        let s := valued a
        let base := s.rd .VBR_LVT_BASE_HI * 2 ^ 32 + s.fld F.VBR_LVT_BASE_LO.BASE_LO * 4096
        s.vbr.lvtDue = true ∧ s.flag F.VBR_CTRL.EN = true ∧ s.flag F.VBR_LVT_CTRL.EN = true ∧ s.fcl.safe = false ∧ (∀ i, i < 256 → (s.vbr.lvt.get i).fresh = false)
        ∧ ((s.writeHost { kind := .lvt } s.sigDomain 0 (base + 0x1000 * (s.vbr.gen % 2)) ((List.range 256).flatMap s.lvtBytes) false).bind
            (fun s => s.writeHost { kind := .lvt } s.sigDomain 0 (base + 0x2000) (leBytes 8 s.vbr.gen) false)).isSome = decide (a = 1))
    ∧ bit (0x80000000#32).toNat 31 = true ∧ bit (5#32).toNat 31 = false ∧ bits (0x80000000#32).toNat 11 0 < (vbrSize (bits (0x80000000#32).toNat 14 12)).1 := by
  decide +kernel

/-- SYS runs: firmware has left stage 4. -/
def sysUp : State := up.setStage 4

theorem witness_BoardControllerCommandsAnswer :
    State.reset.noHeld ∧ sysUp.noHeld
    ∧ (up.sec.pwrGood = true ∧ State.reset.sec.pwrGood = false ∧ State.reset.sec.pwrEn = false ∧ upSafe.fcl.safe = true ∧ sysUp.sysRuns = true
      ∧ sysUp.fcl.safe = false ∧ State.reset.sysRuns = false ∧ sysUp.smb.ptr = none
      ∧ (let o := RegKind.off .TOP_SCRATCH 0 0
         let s := { sysUp with smb := { ptr := some (o, 4) } }
         s.smb.ptr = some (o, 4) ∧ smbExcluded o = false ∧ bufAt o = none ∧ (s.readWord o).isSome = true ∧ findReg o ≠ none ∧ o % 4 = 0 ∧ o < 2 ^ 26)
      ∧ smbExcluded 0x1800000 = true
      ∧ (sysUp.setFlag F.SMB0_STAT.ALERT).flag F.SMB0_STAT.ALERT = true
      ∧ (∀ b, (sysUp.setFlag F.SMB0_CTRL.TMO_EN b).flag F.SMB0_CTRL.TMO_EN = b)) :=
  ⟨noHeld_of _ rfl, noHeld_of _ rfl, by decide +kernel⟩

/-- SMB[1] is enabled, with a transfer of the register engine. -/
def power (j : Option Smb1Job) : State := { (up.setFlag F.SMB1_CTRL.EN) with smb := { job := j } }

theorem witness_PowerBusTransfersRetryAndEnd :
    (power none).flag F.SMB1_CTRL.EN = true ∧ (power none).smb.job = none ∧ (power none).smb.fwWait = 0 ∧ (power none).smb.regWait = false
    ∧ (power none).flag F.SMB1_STAT.BUSY = false ∧ ((power none).setFlag F.SMB1_STAT.BUSY).flag F.SMB1_STAT.BUSY = true
    ∧ ({ (power none) with smb := { job := some {}, lost := true } } : State).smb.lost = true
    ∧ (let j : Smb1Job := { attempts := 1 }
       let s := (((power (some j)).setFlag F.PMU_CTRL.FREEZE).setFlag F.SMB1_XFER.DIR).setFld F.SMB1_XFER.LEN 4
       s.smb.job = some j ∧ s.smb.lost = false ∧ j.firmware = false ∧ s.flag F.PMU_CTRL.FREEZE = true ∧ s.flag F.SMB1_XFER.DIR = true
         ∧ s.fld F.SMB1_XFER.LEN = 4 ∧ j.attempts < 32 ∧ 1 ≤ (s.setFld F.SMB1_CTRL.RETRY 1).fld F.SMB1_CTRL.RETRY
         ∧ (s.setFld F.SMB1_CTRL.RETRY 0).fld F.SMB1_CTRL.RETRY < 1)
    ∧ (∀ b, ((power none).setFlag F.SMB1_CTRL.TMO_EN b).flag F.SMB1_CTRL.TMO_EN = b) := by decide +kernel

/-! Faults, Lupin and injectors. -/

/-- Every source has its least severity; the sticky bit and the first-fault record stand as given. -/
def faulty (st ff : Bool) : State :=
  let s := (up.wr .FCL_SEV 0 0).wr .FCL_SEV 0 1
  let s := if st then s.wr .FCL_STATUS_LO (2 ^ 17) else s
  { (if ff then s.setFlag F.FCL_FF0.VALID else s).setFlag F.PMU_CTRL.FREEZE with fcl := { ffCycle := 7 } }

/-- Source 17 at severity `v` with the alert of that severity on or off, its event off. -/
def graded (v : Nat) (a : Bool) : State :=
  let s := (up.wr .FCL_SEV 0 0).wr .FCL_SEV (v <<< 2) 1
  (((s.wr .FCL_REACT 0).setFlag F.FCL_REACT.ALERT0 a).setFlag F.FCL_REACT.ALERT1 a).setFlag F.FCL_REACT.ALERT2 a

theorem witness_RaisesRecordReactAndEnterTheSafeState :
    (17#6).toNat ∉ [0, 2, 3, 4, 24] ∧ 39 < 40 ∧ 40 ≠ 63 ∧ State.reset.sec.pwrGood = false ∧ stopped.sysStopped = true ∧ (17 : Nat) ∉ [1, 5, 7]
    ∧ (∀ st ff, let s := faulty st ff
        s.sec.pwrGood = true ∧ s.sysStopped = false ∧ s.sticky 17 = st ∧ s.fcl.safe = false ∧ s.sevOf 17 = 0
          ∧ s.flag F.FCL_FF0.VALID = ff ∧ s.fcl.ffCycle ≠ s.sysCycle ∧ s.flag F.PMU_CTRL.FREEZE = true
          ∧ s.flag F.FCL_REACT.EVENT0 = false ∧ s.flag F.FCL_REACT.ALERT0 = false ∧ s.lup.holding = false ∧ s.flag F.LUP_STAT.FROZEN = false
          ∧ s.lup.queue = [])
    ∧ (∀ a, ∀ x, x ∈ [(0, F.FCL_REACT.EVENT0, F.FCL_REACT.ALERT0), (1, F.FCL_REACT.EVENT1, F.FCL_REACT.ALERT1),
          (2, F.FCL_REACT.EVENT2, F.FCL_REACT.ALERT2)] →
        let s := graded x.1 a
        s.sevOf 17 = x.1 ∧ s.flag x.2.1 = false ∧ s.flag x.2.2 = a ∧ s.sec.pwrGood = true ∧ s.sysStopped = false ∧ s.sticky 17 = false
          ∧ s.fcl.safe = false ∧ s.lup.holding = false ∧ s.flag F.LUP_STAT.FROZEN = false ∧ s.lup.queue = [])
    ∧ srcExists 17 = true ∧ srcExists 1 = true ∧ up.sevOf 1 = 3 ∧ (up.ring (up.evtRing 0)).typ ≠ .cmp
    ∧ up.railMonitored 3 = true ∧ up.railMonitored 11 = false ∧ up.fcl.safe = false ∧ up.sec.pwrGood = true
    ∧ upSafe.sec.pwrGood = true ∧ upSafe.fcl.safe = true ∧ up.clockUp 4 = true ∧ stopped.clockUp 1 = false
    ∧ up.fcl.supplyOut = [] ∧ up.fcl.clkFail = [] := by decide +kernel

/-- Lupin with a given state and flags. -/
def lupin (fr un fail : Bool) (l : Lup) : State :=
  { (((up.setFlag F.LUP_STAT.FROZEN fr).setFlag F.LUP_STAT.UNSAVED un).setFlag F.LUP_STAT.SAVE_FAIL fail) with lup := l }

/-- Injector 0, unlocked. -/
def injector (arm at_ : Bool) (i : Inj) : State :=
  { (((up.setFlag F.FIJ_STAT.UNLOCKED).setFlag F.FIJ_CTRL.ARM arm 0).setFlag F.FIJ_TRIG.AT_EN at_ 0) with fcl := { fij := ({} : Tbl Inj).set 0 i } }

theorem witness_LupinRecordsAndInjectorsFire :
    (injector false false {}).noHeld ∧ up.noHeld ∧ (up.lup.queue = []
    ∧ (let s := lupin false false false { queue := [{}] }
       s.flag F.LUP_STAT.FROZEN = false ∧ s.sysStopped = false ∧ s.lup.queue = {} :: [] ∧ s.lup.holding = false ∧ s.fcl.safe = false
         ∧ s.flag F.LUP_STAT.UNSAVED = false ∧ s.flag F.LUP_STAT.SAVE_FAIL = false)
    ∧ (let s := (lupin true true false { holding := true }).setStage 8
       s.flag F.LUP_STAT.FROZEN = true ∧ s.flag F.LUP_STAT.UNSAVED = true ∧ s.lup.holding = true ∧ s.lup.hold.length < 256 ∧ s.lup.saving = none
         ∧ 8 ≤ s.fld F.SEC_BOOT_STAT.STAGE ∧ s.fld F.SEC_BOOT_STAT.STAGE ≤ 0x0A ∧ s.flag F.LUP_STAT.SAVE_FAIL = false)
    ∧ (lupin true false false {}).lup.holding = false ∧ (lupin true false false {}).flag F.LUP_STAT.FROZEN = true
    ∧ (lupin true true false { saving := some 2 }).lup.saving = some 2 ∧ (lupin true true false { saving := some 2 }).lup.hold = []
    ∧ (∀ a, let s := injector false a {}
        s.flag F.FIJ_STAT.UNLOCKED = true ∧ s.fcl.safe = false ∧ s.flag F.FIJ_CTRL.ARM 0 = false ∧ s.flag F.FIJ_TRIG.AT_EN 0 = a
          ∧ s.fld F.FIJ_CTRL.LINK 0 ≠ 6 ∧ (s.fcl.fij.get 0).firing = false)
    ∧ up.flag F.FIJ_STAT.UNLOCKED = false
    ∧ (let s := injector true true {}
       s.flag F.FIJ_CTRL.ARM 0 = true ∧ (s.ras.get (s.fld F.FIJ_TRIG.RASTER 0)).line = s.fld F.FIJ_TRIG.LINE 0
         ∧ (s.ras.get ((s.setFld F.FIJ_TRIG.LINE 5 0).fld F.FIJ_TRIG.RASTER 0)).line ≠ (s.setFld F.FIJ_TRIG.LINE 5 0).fld F.FIJ_TRIG.LINE 0)
    ∧ (let s := injector true false { held := [.canTx {}] }
       (s.fcl.fij.get 0).held = [.canTx {}] ∧ (∀ k, k < 8 → k ≠ 0 → (s.fcl.fij.get k).firing = false ∧ (s.fcl.fij.get k).held = []))) := by
  refine ⟨fun i _ => ?_, noHeld_of _ rfl, by decide +kernel⟩
  have h : (injector false false {}).fcl.fij = {} := by decide +kernel
  rw [h]; exact ⟨rfl, rfl⟩

/-! Energy and counters. -/

/-- The demand of the array. -/
def demanding (n : Nat) : State := (up.setFld F.EGV_DEMAND.TOKENS n).setFld F.EGV_BLOOM.R_B n 0

/-- The degrade ladder, with its counts of lines. -/
def ladder (u d lv : Nat) : State := { (up.setFld F.EGV_STAT.LEVEL lv) with egv := { up := u, down := d } }

/-- Eleven sensors at `v`, the first at `w`, in 1/16 °C. -/
def sensors (w v : BitVec 16) : List (BitVec 16) := w :: List.replicate 10 v

/-- Initial and present core voltage. -/
def volts (i v : Nat) : State := (up.setFld F.EGV_AVS.VINIT_MV i).setFld F.EGV_AVS.VCORE_MV v

theorem target_unaged (s : State) (w : s.worstAge = (0, 0)) : s.coreTarget = s.fld F.EGV_AVS.VINIT_MV := by
  rw [State.coreTarget, w, Nat.mul_zero]; rfl

/-- An EGV_BUDGET for `w`. -/
def budget (w : Nat) : List Byte := leBytes 3 0 ++ leBytes 1 0x50 ++ leBytes 4 0 ++ leBytes 4 w ++ leBytes 20 0

/-- What the voltage clauses ask. -/
abbrev VoltsMet : Prop :=
  (volts 700 750).coreTarget ≤ (volts 700 750).fld F.EGV_AVS.VCORE_MV ∧ (volts 700 750).coreTarget ≤ 850
    ∧ (volts 800 750).fld F.EGV_AVS.VCORE_MV < (volts 800 750).coreTarget ∧ (volts 800 750).fld F.EGV_AVS.VCORE_MV < 850
    ∧ 850 < (volts 900 850).coreTarget ∧ (volts 900 850).fld F.EGV_AVS.VCORE_MV = 850 ∧ (volts 900 850).egv.avsLimit = false

theorem volts_met : VoltsMet := by
  refine ⟨?_, ?_, ?_, by decide +kernel, ?_, by decide +kernel, rfl⟩
  · rw [target_unaged _ (by decide +kernel)]; decide +kernel
  · rw [target_unaged _ (by decide +kernel)]; decide +kernel
  · rw [target_unaged _ (by decide +kernel)]; decide +kernel
  · rw [target_unaged _ (by decide +kernel)]; decide +kernel

/-- What the budget clauses ask. -/
abbrev BudgetMet : Prop :=
  ∀ w, w ∈ [0, 1, 28000, 28001, 2147483648] →
        (begun (budget w) {} {}).startedCmd (ringG 0 0) 0 0x50 = some { bytes := budget w } ∧ cfld (budget w) 8 30 16 = 0
          ∧ leAt (budget w) 12 20 = 0

theorem budget_met : BudgetMet := by decide +kernel

/-- What the grant, ladder, debt and clock clauses ask. -/
abbrev GrantMet : Prop :=
  ((runs 0 up).ras.get up.master).running = true ∧ (up.ras.get up.master).running = false ∧ up.egv.wait = []
    ∧ (let s := demanding 7
       ((List.range 8).map (fun b => s.fld F.EGV_BLOOM.R_B b)).sum = s.demand ∧ s.demand ≤ s.grantOf (16384 * 2 ^ 32))
    ∧ (demanding 400000).grantOf (16384 * 2 ^ 32) < (demanding 400000).demand
    ∧ (up.setFlag F.EGV_CTRL.LADDER_EN false).flag F.EGV_CTRL.LADDER_EN = false
    ∧ (let s := ladder 16 0 0
       s.flag F.EGV_CTRL.LADDER_EN = true ∧ s.fld F.EGV_CTRL.UP_LINES ≤ s.egv.up ∧ s.egv.up ≠ 0 ∧ s.fld F.EGV_STAT.LEVEL < 4)
    ∧ (let s := ladder 0 2048 1
       s.egv.up = 0 ∧ s.fld F.EGV_CTRL.DOWN_LINES ≤ s.egv.down ∧ s.egv.down ≠ 0 ∧ s.fld F.EGV_STAT.LEVEL ≠ 0)
    ∧ up.egv.debt.get 0 < 16 ∧ 16 ≤ ({ up with egv := { debt := ({} : Tbl Nat).set 0 16 } } : State).egv.debt.get 0
    ∧ up.egv.clk.get 0 = none ∧ ({ up with egv := { clk := ({} : Tbl _).set 0 (some 5) } } : State).egv.clk.get 0 = some 5
    ∧ (up.blm.get 0).fast = []

/-- What the sensor and aging clauses ask. -/
abbrev SensorsMet : Prop :=
  (sensors 0 0).length = 11 ∧ ((sensors 0 0).all fun v => decide (signed 16 v.toNat ≤ 16 * (up.fld F.EGV_THERM.ALERT : Nat) - 32)) = true
    ∧ (∀ i, i < 11 → (16 * ((up.fld F.EGV_THERM.ALERT : Nat) : Int) ≤ signed 16 ((sensors 3000 0).getD i 0).toNat ↔ i = 0))
    ∧ up.temp16 0 < 16 * (up.fld F.EGV_THERM.ALERT : Nat)
    ∧ (9#16).toNat % 4096 < up.fld F.EGV_AVS.AGE_THR ∧ up.fld F.EGV_AVS.AGE_THR ≤ (300#16).toNat % 4096
    ∧ up.fld F.EGV_AGE.D 0 < up.fld F.EGV_AVS.AGE_THR

theorem grant_met : GrantMet := by decide +kernel
theorem sensors_met : SensorsMet := by decide +kernel

theorem witness_EnergyIsGrantedAndGoverned : GrantMet ∧ SensorsMet ∧ VoltsMet ∧ BudgetMet :=
  ⟨grant_met, sensors_met, volts_met, budget_met⟩

theorem witness_LatchingReadsAndCounterControl :
    (0 : Nat) ∉ up.pmu.ovf ∧ (0 : Nat) ∈ ({ up with pmu := { ovf := [0] } } : State).pmu.ovf
    ∧ (∀ b, (up.setFlag F.PMU_CFG.OVF_FRZ b 0).flag F.PMU_CFG.OVF_FRZ 0 = b) := by decide +kernel

theorem witness_StepRunsTheFrontCommand :
    ({ up with pending := [.prdRetire 0 0 0] } : State).pending = .prdRetire 0 0 0 :: [] ∧ up.pending = [] := ⟨rfl, rfl⟩

theorem witness_EveryStepKeepsTheMachineInvariant : State.reset.Inv ∧ ∃ t, step State.reset = .next t :=
  ⟨⟨by decide +kernel, fun h => absurd h (by decide), fun h => absurd h (by decide)⟩, _, rfl⟩

theorem witness_OnlyResetsLeaveTheSafeState :
    upSafe.fcl.safe = true ∧ (∀ m a p r, Instr.status ≠ .porstN m a p r) ∧ (∀ r, Instr.status ≠ .wrstN r) ∧ Instr.status ≠ .powerLoss :=
  ⟨rfl, fun _ _ _ _ h => Instr.noConfusion h, fun _ h => Instr.noConfusion h, by decide⟩

/-! ## Checks on operands: one ill-formed term for each -/

/-- A long packet as it should be. -/
def okPacket : LongPacket :=
  { hdr := headed 0x2C 3, payload := [1, 2, 3], crc := 0, cseGap := false, cseCrcOk := true, repackOk := true, overrun := none }

theorem test_wf_accepts_a_packet : (Instr.longPacket 0 okPacket).wf = true := by decide
theorem test_wf_accepts_a_corrected_header : (Instr.lineEndPacket 0 (upset 1 (headed 3 0))).wf = true := by decide +kernel
theorem test_wf_short_type : (Instr.frameStartPacket 0 (headed 1 0)).wf = false := by decide +kernel
theorem test_wf_link_loss : (Instr.aphyLinkDown 0 (some { okPacket with overrun := some 3 })).wf = false := by decide
theorem test_wf_clock_loss : (Instr.clockMonitorFail 24 [(0, { okPacket with overrun := some 3 })]).wf = false := by decide
theorem test_wf_overrun : (Instr.longPacket 0 { okPacket with overrun := some 3 }).wf = false := by decide
theorem test_wf_payload (p : LongPacket) (h : 65535 < p.payload.length) : (Instr.longPacket 0 p).wf = false := by
  have : ¬ p.payload.length ≤ 65535 := by omega
  simp only [Instr.wf, LongPacket.wf, this, decide_false, Bool.false_and]

/-- A CAN message as it should be. -/
def okCan : CanMsg := { id := 0x1A4, ext := false, fd := true, data := List.replicate 16 0 }

theorem test_wf_accepts_a_message : (Instr.canMessageRx 0 okCan).wf = true := by decide
theorem test_wf_identifier : (Instr.canMessageRx 0 { okCan with id := 2048 }).wf = false := by decide
theorem test_wf_can_length : (Instr.canMessageRx 0 { okCan with fd := false }).wf = false := by decide
theorem test_wf_fd_length : (Instr.canMessageRx 0 { okCan with data := List.replicate 15 0 }).wf = false := by decide

/-- A host transaction of four bytes. -/
def okTxn : HostTxn := { dom := 0, tag := 0, cls := 0, sub := 0, len := 4, addr := 0, data := [1, 2, 3, 4] }

theorem test_wf_accepts_a_write : (Instr.mwrRx okTxn).wf = true := by decide
theorem test_wf_write_length : (Instr.mwrRx { okTxn with len := 5 }).wf = false := by decide
theorem test_wf_write_empty : (Instr.remoteWrite { okTxn with len := 0, data := [] }).wf = false := by decide
theorem test_wf_read_data : (Instr.mrdRx okTxn).wf = false := by decide
theorem test_wf_remote_read_data : (Instr.remoteRead okTxn).wf = false := by decide
theorem test_wf_completion_data : (Instr.cplRx { okTxn with sub := 1 }).wf = false := by decide

theorem test_wf_init_frame : (Instr.initFrameRx []).wf = false := by decide
theorem test_wf_data_frame : (Instr.dataFrameRx [0]).wf = false := by decide
theorem test_wf_ctrl_frame : (Instr.ctrlFrameRx [0]).wf = false := by decide
theorem test_wf_host_header : (Instr.hostLineHeader 0 []).wf = false := by decide
theorem test_wf_host_data : (Instr.hostLineData 0 16 []).wf = false := by decide
theorem test_wf_tunnel_length : (Instr.tunnelXferDone 0 (some (List.replicate 65 0)) 0).wf = false := by decide
theorem test_wf_tunnel_cause : (Instr.tunnelXferDone 0 none 0).wf = false := by decide
theorem test_wf_smb_length : (Instr.regWrite 0 (List.replicate 256 0)).wf = false := by decide +kernel
theorem test_wf_smb_result : (Instr.smb1TransferDone 5 []).wf = false := by decide
theorem test_wf_sensors : (Instr.tempSample [25]).wf = false := by decide
theorem test_wf_oscillators : (Instr.agingMeasure []).wf = false := by decide
theorem test_wf_flash : (Instr.imageLoadDone [{ offset := 0xFFFFFFFF, bytes := [0, 0] }]).wf = false := by decide

/-! ## The manual's worked examples -/

/-- "123456789". -/
def nineDigits : List Byte := [0x31, 0x32, 0x33, 0x34, 0x35, 0x36, 0x37, 0x38, 0x39]

/-- First vector of R137. -/
theorem test_seal_engine : crc32c nineDigits = 0xE3069283 := by decide +kernel
/-- Second vector of R137. -/
theorem test_seal_zero : lineSeal 0 0 0 0 (List.replicate 24 0) = 0x8A9136AA := by decide +kernel
/-- Third vector of R137. -/
theorem test_seal_prefix :
    lineSeal 0 1 0x07060504 0x0302 ((List.range 24).map (fun i => BitVec.ofNat 8 (i + 8))) = 0x46DD794E := by decide +kernel
/-- The value of R150 under the reset profile with IDFOLD 0. -/
theorem test_e2e_reset_profile : e2eCrc { idFold := 0 } 0 nineDigits = 0x4B := by decide +kernel

/-- Symbols 0, 1, 2, 3 precoded from a fresh lane, and the symbols that the receiver decides and decodes (R316). -/
theorem test_precode :
    (sendSymbols true false 0 [0, 1, 2, 3]).1 = 0 + 4 * 1 + 16 * 1 + 64 * 2
      ∧ (takeSymbols true false 4 0 (0 + 4 * 1 + 16 * 1 + 64 * 2)).1 = [0, 1, 2, 3].flatMap (fun v => [(valPair v).1, (valPair v).2]) := by
  decide +kernel

/-- 64 zero bits from the scrambler's reset state (R325). -/
theorem test_scramble :
    bitBytes 8 (scramble (2 ^ 58 - 1) (List.replicate 64 false)).1 = [0x00, 0x00, 0x00, 0x00, 0x80, 0xFF, 0xFF, 0x03] := by
  decide +kernel

/-- The parity vector of R350. -/
theorem test_fec_parity :
    (withFec (List.replicate 246 0 ++ [1, 0])).drop 248 = [0x0F, 0, 0x36, 0, 0x78, 0, 0x40, 0] := by decide +kernel

/-- The map of chunk 0x1234567 under the reset seed (R290). -/
theorem test_map_of_a_chunk : fstMap 0 0x9E377 0x1234567 = { pc := 13, bank := 28, col := 3, row := 9320 } := by decide +kernel

/-- The class-S format register of AP[13], VC 1, entry 1 (the example of the register map). -/
theorem test_register_offset :
    (findReg 0x4D0124).map (fun r => (r.kind, r.i, r.j)) = some (.ING_STRM_FMT, 13, 1) := by decide +kernel

end Sys2Proof.Tests
end

section
/-!
SUPPORT. Runs over lists, and updates of registers alone: what they leave as it was.
-/
namespace Sys2Proof.Machine

/-- What every single update keeps, a run over a list keeps. -/
theorem State.each_keeps {α β : Type} (obs : State → β) (l : List α) (f : α → State → State) (s : State)
    (h : ∀ a t, obs (f a t) = obs t) : obs (s.each l f) = obs s := by
  unfold State.each
  induction l generalizing s with
  | nil => rfl
  | cons a r ih => rw [List.foldl_cons, ih, h]

/-- What the update of one element brings about, and no other update of the list undoes, holds after the run. -/
theorem State.each_reaches {α : Type} (P : State → Prop) (x : α) (l : List α) (f : α → State → State) (s : State) (hx : x ∈ l)
    (make : ∀ t, P (f x t)) (keep : ∀ a ∈ l, ∀ t, P t → P (f a t)) : P (s.each l f) := by
  have stays : ∀ l' : List α, (∀ a ∈ l', a ∈ l) → ∀ t, P t → P (State.each t l' f) := by
    intro l'
    induction l' with
    | nil => exact fun _ _ h => h
    | cons a r ih =>
      intro hs t h
      exact ih (fun b hb => hs b (List.mem_cons_of_mem _ hb)) _ (keep a (hs a List.mem_cons_self) t h)
  obtain ⟨l₁, l₂, rfl⟩ := List.append_of_mem hx
  unfold State.each at stays ⊢
  rw [List.foldl_append, List.foldl_cons]
  exact stays l₂ (fun a ha => by simp [ha]) _ (make _)

/-- Everything but the register file. -/
def State.offRegs (s : State) : State := { s with regs := {} }

@[simp] theorem State.wr_offRegs (s : State) (k : RegKind) (v i j : Nat) : (s.wr k v i j).offRegs = s.offRegs := (rfl)
@[simp] theorem State.setFld_offRegs (s : State) (f : Fld) (v i j : Nat) : (s.setFld f v i j).offRegs = s.offRegs := (rfl)
@[simp] theorem State.setFlag_offRegs (s : State) (f : Fld) (b : Bool) (i j : Nat) : (s.setFlag f b i j).offRegs = s.offRegs := (rfl)
@[simp] theorem State.setStage_offRegs (s : State) (n : Nat) : (s.setStage n).offRegs = s.offRegs := (rfl)
@[simp] theorem State.startCore_offRegs (s : State) : s.startCore.offRegs = s.offRegs := by
  simp [State.startCore]

@[simp] theorem State.each_offRegs {α : Type} (l : List α) (f : α → State → State) (s : State) (h : ∀ a t, (f a t).offRegs = t.offRegs) :
    (s.each l f).offRegs = s.offRegs :=
  State.each_keeps State.offRegs l f s h

@[simp] theorem State.recomputeMin_offRegs (s : State) : s.recomputeMin.offRegs = s.offRegs := by
  simp [State.recomputeMin, State.showMin]

@[simp] theorem State.showLoads_offRegs (s : State) : s.showLoads.offRegs = s.offRegs := by
  simp [State.showLoads]

@[simp] theorem State.recomputeDemand_offRegs (s : State) : s.recomputeDemand.offRegs = s.offRegs := by
  simp [State.recomputeDemand]

/-- Showing what follows from the products changes registers alone. -/
@[simp] theorem State.showResources_offRegs (s : State) : s.showResources.offRegs = s.offRegs := by
  simp [State.showResources]

/-- The straps set registers alone. -/
@[simp] theorem State.strapPre_offRegs (s : State) : s.strapPre.offRegs = s.offRegs := by
  unfold State.strapPre
  dsimp only
  split <;> simp

/-- What is read outside the register file is the same in two states that agree there. -/
theorem State.read_of_offRegs {α : Type} {s t : State} (q : t.offRegs = s.offRegs) (obs : State → α) (h : ∀ u : State, obs u.offRegs = obs u) :
    obs t = obs s := by
  rw [← h t, q, h s]

/-! Registers that these updates leave. -/

theorem State.each_rd {α : Type} (l : List α) (f : α → State → State) (s : State) (k : RegKind) (i j : Nat)
    (h : ∀ a t, (f a t).rd k i j = t.rd k i j) : (s.each l f).rd k i j = s.rd k i j :=
  State.each_keeps (·.rd k i j) l f s h

theorem State.rd_setFlag_kind (s : State) (f : Fld) (b : Bool) (k : RegKind) (i j i' j' : Nat) (h : k ≠ f.reg) :
    (s.setFlag f b i j).rd k i' j' = s.rd k i' j' :=
  State.rd_wr_kind _ _ _ _ _ _ _ _ h

/-- Registers that showing the resources writes. -/
def resourceRegs : List RegKind := [.POOL_RESV_MIN, .BLM_FAST_LOAD, .EGV_BLOOM, .EGV_DEMAND, .BLM_TF_CTRL, .FST_SYS_FREE]

theorem State.showResources_rd (s : State) (k : RegKind) (i j : Nat) (h : k ∉ resourceRegs) : s.showResources.rd k i j = s.rd k i j := by
  simp only [resourceRegs, List.mem_cons, List.not_mem_nil, or_false, not_or] at h
  obtain ⟨hmin, hload, hbloom, hdemand, htf, hfree⟩ := h
  have min : s.recomputeMin.rd k i j = s.rd k i j := State.each_rd _ _ _ _ _ _ fun _ t => State.rd_wr_kind t _ _ _ _ _ _ _ hmin
  have loads (t : State) : t.showLoads.rd k i j = t.rd k i j := State.each_rd _ _ _ _ _ _ fun _ t =>
    (State.rd_setFld_kind _ F.BLM_FAST_LOAD.CARRY_KIB _ _ _ _ _ _ hload).trans (State.rd_setFld_kind t F.BLM_FAST_LOAD.RESV_PETALS _ _ _ _ _ _ hload)
  have demand (t : State) : t.recomputeDemand.rd k i j = t.rd k i j :=
    (State.rd_setFld_kind _ F.EGV_DEMAND.TOKENS _ _ _ _ _ _ hdemand).trans
      (State.each_rd _ _ _ _ _ _ fun _ t => State.rd_setFld_kind t F.EGV_BLOOM.R_B _ _ _ _ _ _ hbloom)
  unfold State.showResources
  dsimp only
  rw [State.rd_setFld_kind _ F.FST_SYS_FREE.FREE _ _ _ _ _ _ hfree, State.rd_setFlag_kind _ F.BLM_TF_CTRL.RUNNING _ _ _ _ _ _ htf, demand,
    loads, min]

theorem State.strapPre_rd (s : State) (k : RegKind) (i j : Nat) (hl : k ≠ .GWP_LANE_CTRL) (hb : k ≠ .SEC_BOOT_STAT) :
    s.strapPre.rd k i j = s.rd k i j := by
  have mode : (s.setFld F.SEC_BOOT_STAT.MODE s.sec.bootMode).rd k i j = s.rd k i j :=
    State.rd_setFld_kind _ F.SEC_BOOT_STAT.MODE _ _ _ _ _ _ hb
  unfold State.strapPre
  dsimp only
  split
  · exact (State.each_rd _ _ _ _ _ _ fun _ t => (State.rd_setFlag_kind _ F.GWP_LANE_CTRL.RX_PRE _ _ _ _ _ _ hl).trans
      (State.rd_setFlag_kind t F.GWP_LANE_CTRL.TX_PRE _ _ _ _ _ _ hl)).trans mode
  · exact mode

end Sys2Proof.Machine
end

section
/-!
PROOFS. Commit requests and discards (R35, R36, R38).
-/
namespace Sys2Proof.Machine

/-- A request for a group with a staged generation is refused (R36). -/
theorem State.commitRequest_staged (s : State) (g : Nat) (h : s.cfg.stg.get g ≠ none) :
    s.commitRequest g = s.setFlag F.CFG_STATE.REFUSED true g := by
  obtain ⟨q, hq⟩ := Option.ne_none_iff_exists'.mp h
  simp only [State.commitRequest, hq]

/-- A request with nothing staged stages the open generation, and opens an empty one (R35). -/
theorem State.commitRequest_cfg (s : State) (g : Nat) (h : s.cfg.stg.get g = none) :
    (s.commitRequest g).cfg = { s.cfg with opn := s.cfg.opn.set g [], stg := s.cfg.stg.set g (some { writes := s.cfg.opn.get g }) } := by
  simp only [State.commitRequest, h, State.setFld_cfg, State.setFlag_cfg, State.modCfg_cfg]

@[simp] theorem State.discardOpen_cfg (s : State) (g : Nat) : (s.discardOpen g).cfg = { s.cfg with opn := s.cfg.opn.set g [] } := (rfl)

theorem State.discardOpen_dirty (s : State) (g : Nat) : (s.discardOpen g).flag F.CFG_STATE.OPEN_DIRTY g = false :=
  State.flag_setFlag_same _ _ _ _ _ (by decide) (by decide)

theorem State.commitRequest_fcl (s : State) (g : Nat) : (s.commitRequest g).fcl = s.fcl := by
  unfold State.commitRequest
  split <;> rfl

/-- A generation with no write passes every check (R38). -/
theorem State.checkGen_empty (s : State) (g : Nat) : s.checkGen g [] = none := if_pos rfl

/-- No unit is released where no injector was cut off while it held one (R551). -/
theorem State.releaseDisarmed_of_noHeld (s : State) (h : s.noHeld) : s.releaseDisarmed = s := by
  suffices stays : ∀ l : List Nat, (∀ i ∈ l, i < 8) → State.each s l (fun i s => s.when ((s.fcl.fij.get i).cut) (·.releaseHeld i)) = s from
    stays _ fun i hi => List.mem_range.mp hi
  intro l hl
  induction l with
  | nil => rfl
  | cons i r ih =>
    have uncut : s.when ((s.fcl.fij.get i).cut) (·.releaseHeld i) = s := by
      simp [State.when, (h i (hl i List.mem_cons_self)).2]
    simp only [State.each, List.foldl_cons] at ih ⊢
    rw [uncut]
    exact ih fun k hk => hl k (List.mem_cons_of_mem _ hk)

/-- The register of the commit requests and discards, where the map places it (R632). -/
theorem findReg_cfgCommit : findReg (BitVec.ofNat 26 (RegKind.off .CFG_COMMIT 0 0)).toNat = some ⟨.CFG_COMMIT, 0, 0⟩ := by decide +kernel

/-- A write of CFG_COMMIT discards first, then requests (R38). -/
theorem exec_write_cfgCommit (s : State) (path : Path) (v : BitVec 32) :
    exec (.registerWrite path (BitVec.ofNat 26 (RegKind.off .CFG_COMMIT 0 0)) v) s
      = .next ((s.each (oneBits 8 (bits v.toNat 15 8)) State.discardOpen).each (oneBits 8 (bits v.toNat 7 0)) State.commitRequest).releaseDisarmed := by
  change Host.Outcome.next (State.releaseDisarmed (doRegisterWrite _ _ _ s)) = _
  simp only [doRegisterWrite, findReg_cfgCommit, State.writeReg]

/-- DISCARD[g] alone names group g, and no request. -/
theorem discardWord_bits (g : Fin 8) :
    oneBits 8 (bits (BitVec.ofNat 32 (1 <<< (8 + g.val))).toNat 15 8) = [g.val]
      ∧ oneBits 8 (bits (BitVec.ofNat 32 (1 <<< (8 + g.val))).toNat 7 0) = [] := by
  revert g; decide

/-- DISCARD[g] with COMMIT[g] names group g for both. -/
theorem discardCommitWord_bits (g : Fin 8) :
    oneBits 8 (bits (BitVec.ofNat 32 (1 <<< (8 + g.val) + 1 <<< g.val)).toNat 15 8) = [g.val]
      ∧ oneBits 8 (bits (BitVec.ofNat 32 (1 <<< (8 + g.val) + 1 <<< g.val)).toNat 7 0) = [g.val] := by
  revert g; decide

/-- A write of DISCARD[g] alone discards. -/
theorem exec_discardWord (s : State) (path : Path) (g : Fin 8) (h : s.noHeld) :
    exec (.registerWrite path (BitVec.ofNat 26 (RegKind.off .CFG_COMMIT 0 0)) (BitVec.ofNat 32 (1 <<< (8 + g.val)))) s
      = .next (s.discardOpen g) := by
  rw [exec_write_cfgCommit, (discardWord_bits g).1, (discardWord_bits g).2]
  exact congrArg _ (State.releaseDisarmed_of_noHeld (s.discardOpen g) h)

/-- A write of DISCARD[g] with COMMIT[g] discards, and then requests. -/
theorem exec_discardCommitWord (s : State) (path : Path) (g : Fin 8) (h : s.noHeld) :
    exec (.registerWrite path (BitVec.ofNat 26 (RegKind.off .CFG_COMMIT 0 0)) (BitVec.ofNat 32 (1 <<< (8 + g.val) + 1 <<< g.val))) s
      = .next ((s.discardOpen g).commitRequest g) := by
  rw [exec_write_cfgCommit, (discardCommitWord_bits g).1, (discardCommitWord_bits g).2]
  have held : ((s.discardOpen g).commitRequest g).noHeld := by
    unfold State.noHeld
    rw [State.commitRequest_fcl]
    exact h
  exact congrArg _ (State.releaseDisarmed_of_noHeld _ held)

/-- Settles O11: with a generation staged, a request sets REFUSED, a field beside STATE and OPEN_DIRTY, and nothing else. -/
theorem commitIsRefusedWhileOneIsStaged : Obligations.CommitIsRefusedWhileOneIsStaged := by
  intro s g staged
  have refused : exec (.commitRequest g) s = .next (s.setFlag F.CFG_STATE.REFUSED true g) :=
    congrArg Host.Outcome.next (State.commitRequest_staged s g staged)
  have beside (f : Fld) (hr : f.reg = .CFG_STATE) (hd : 3 < f.lo ∨ f.hi < 3) :
      (s.setFlag F.CFG_STATE.REFUSED true g).fld f g = s.fld f g :=
    State.fld_setFld_beside s F.CFG_STATE.REFUSED f _ _ _ hr (by decide) (by decide) hd
  refine ⟨_, refused, State.flag_setFlag_same _ _ _ _ _ (by decide) (by decide), rfl, beside _ rfl (by decide), ?_, ?_, rfl⟩
  · exact congrArg (· == 1) (beside F.CFG_STATE.OPEN_DIRTY rfl (by decide))
  · exact (SameRegs.refl _ _).setFlag _ _ _ _ (by omega) (by decide) List.mem_cons_self

/-- Settles O10: the discard empties the open generation, so that the request after it stages an empty one. -/
theorem discardActsBeforeCommit : Obligations.DiscardActsBeforeCommit := by
  intro s path g held
  refine ⟨⟨_, exec_discardWord s path g held, ?_, rfl, State.discardOpen_dirty s g⟩, fun unstaged => ?_, State.checkGen_empty s g, rfl⟩
  · simp
  · have cfg := State.commitRequest_cfg (s.discardOpen g) g unstaged
    exact ⟨_, exec_discardCommitWord s path g held, by simp [cfg], by simp [cfg]⟩

end Sys2Proof.Machine
end

section
/-!
SUPPORT. The fall of the link (R335, R372) leaves the queue of commands: nothing but a step takes a command from it, and nothing that a
fall sets off appends one. One fact for each operation that a fall reaches, in the order of the model.
-/
namespace Sys2Proof.Machine

/-- States of one quiet part have one queue. -/
theorem State.pending_of_quiet {s t : State} (q : t.quiet = s.quiet) : t.pending = s.pending :=
  show t.quiet.pending = s.quiet.pending from congrArg State.pending q

/-- States that agree outside the register file have one queue. -/
theorem State.pending_of_offRegs {s t : State} (q : t.offRegs = s.offRegs) : t.pending = s.pending :=
  State.read_of_offRegs q State.pending fun _ => rfl

@[simp] theorem State.each_pending {α : Type} (l : List α) (f : α → State → State) (s : State) (h : ∀ a t, (f a t).pending = t.pending) :
    (s.each l f).pending = s.pending :=
  State.each_keeps State.pending l f s h

@[simp] theorem State.when_pending (s : State) (c : Bool) (f : State → State) (h : ∀ t, (f t).pending = t.pending) :
    (s.when c f).pending = s.pending := by
  unfold State.when
  split
  · exact h s
  · rfl

/-! The pool, products and their lines. -/

@[simp] theorem State.modSeals_pending (s : State) (f : Seal → Seal) : (s.modSeals f).pending = s.pending := (rfl)
@[simp] theorem State.modPool_pending (s : State) (f : Pool → Pool) : (s.modPool f).pending = s.pending := (rfl)
@[simp] theorem State.modLine_pending (s : State) (d : Nat) (f : PLine → PLine) : (s.modLine d f).pending = s.pending := (rfl)
@[simp] theorem State.modPrd_pending (s : State) (f : Prd → Prd) : (s.modPrd f).pending = s.pending := (rfl)
@[simp] theorem State.modProduct_pending (s : State) (i : Nat) (f : Product → Product) : (s.modProduct i f).pending = s.pending := (rfl)
@[simp] theorem State.modPFrame_pending (s : State) (i f : Nat) (g : PFrame → PFrame) : (s.modPFrame i f g).pending = s.pending := (rfl)
@[simp] theorem State.modHead_pending (s : State) (f : PrdCmd → PrdCmd) : (s.modHead f).pending = s.pending := (rfl)
@[simp] theorem State.settleSpill_pending (s : State) (i : Nat) : (s.settleSpill i).pending = s.pending := (rfl)
@[simp] theorem State.finishRefs_pending (s : State) (i f : Nat) (bad : Bool) : (s.finishRefs i f bad).pending = s.pending := (rfl)
@[simp] theorem State.dropWork_pending (s : State) (i : Nat) : (s.dropWork i).pending = s.pending := by simp [State.dropWork]

@[simp] theorem State.dropLine_pending (s : State) (d : Nat) : (s.dropLine d).pending = s.pending := State.pending_of_quiet (by simp)
@[simp] theorem State.release_pending (s : State) (d i : Nat) : (s.release d i).pending = s.pending := State.pending_of_quiet (by simp)
@[simp] theorem State.releaseSources_pending (s : State) (i f : Nat) : (s.releaseSources i f).pending = s.pending :=
  State.pending_of_quiet (by simp)
@[simp] theorem State.dropPFrameLines_pending (s : State) (i f : Nat) : (s.dropPFrameLines i f).pending = s.pending :=
  State.pending_of_quiet (by simp)
@[simp] theorem State.cancelTiles_pending (s : State) (i f : Nat) : (s.cancelTiles i f).pending = s.pending := State.pending_of_quiet (by simp)
@[simp] theorem State.andReport_pending (p : State × List Note) : (State.andReport p).pending = p.1.pending := State.pending_of_quiet (by simp)
@[simp] theorem State.showResources_pending (s : State) : s.showResources.pending = s.pending := State.pending_of_offRegs (by simp)

@[simp] theorem State.closeIfDone_pending (s : State) (i f : Nat) : (s.closeIfDone i f).pending = s.pending := by
  unfold State.closeIfDone
  dsimp only
  (repeat' split) <;> simp

@[simp] theorem State.publishPrd_pending (k i f : Nat) (s : State) : (s.publishPrd k i f).pending = s.pending := by
  induction k generalizing s with
  | zero => rfl
  | succ k ih =>
    unfold State.publishPrd
    dsimp only
    (repeat' split) <;> simp [ih]

@[simp] theorem State.publishFrame_pending (s : State) (i f : Nat) : (s.publishFrame i f).pending = s.pending := by
  simp [State.publishFrame]

@[simp] theorem State.putLine_pending (s : State) (l : PLine) : (s.putLine l).1.pending = s.pending := by
  unfold State.putLine State.notePeak
  dsimp only
  (repeat' split) <;> simp

@[simp] theorem State.publishStat_pending (i f : Nat) (op : OpDesc) (n : Nat) (s : State) : (s.publishStat i f op n).pending = s.pending := by
  induction n generalizing s with
  | zero => rfl
  | succ n ih =>
    -- One step by `whnf`: the equation that `unfold` makes would run the 128 tries of `takeGrans`.
    conv => lhs; arg 1; whnf
    dsimp only
    (repeat' split) <;> simp [ih]

@[simp] theorem State.noteReject_pending (s : State) (c : PrdCmd) (status detail : Nat) : (s.noteReject c status detail).pending = s.pending := by
  unfold State.noteReject
  dsimp only
  split <;> simp

@[simp] theorem State.finishPrd_pending (s : State) (c : PrdCmd) (status detail arg n : Nat) :
    (s.finishPrd c status detail arg n).1.pending = s.pending := by
  simp [State.finishPrd]

@[simp] theorem State.resetDone_pending (s : State) (d : Nat) : (s.resetDone d).1.pending = s.pending := by
  unfold State.resetDone
  dsimp only
  (repeat' split) <;> simp

/-- A fold over a state and notes keeps the queue when each of its steps does. -/
theorem foldl_fst_pending {α β : Type} (l : List α) (f : State × β → α → State × β) (r : State × β)
    (h : ∀ a t, (f t a).1.pending = t.1.pending) : (l.foldl f r).1.pending = r.1.pending := by
  induction l generalizing r with
  | nil => rfl
  | cons a l ih => rw [List.foldl_cons, ih, h]

@[simp] theorem State.freeProduct_pending (s : State) (i : Nat) : (s.freeProduct i).1.pending = s.pending := by
  unfold State.freeProduct
  extract_lets q n d s₁ s₂ s₃ s₄ s₅ s₆ s₇ s₈ r₁ r₂ r₃
  have freed : s₈.pending = s.pending := by simp [s₈, s₇, s₆, s₅, s₄, s₃, s₂, s₁]
  have retired : r₁.1.pending = s₈.pending := by
    unfold r₁
    (repeat' split) <;> simp
  have replaced : r₂.1.pending = r₁.1.pending := foldl_fst_pending _ _ _ fun j t => by
    dsimp only
    (repeat' split) <;> simp
  exact (State.resetDone_pending r₂.1 d).trans (replaced.trans (retired.trans freed))

@[simp] theorem State.freeIfDone_pending (s : State) (i : Nat) : (s.freeIfDone i).1.pending = s.pending := by
  unfold State.freeIfDone
  dsimp only
  split <;> simp

@[simp] theorem State.frameEnd_pending (s : State) (i f : Nat) : (s.frameEnd i f).1.pending = s.pending := by
  unfold State.frameEnd
  dsimp only
  (repeat' split) <;> simp

@[simp] theorem State.tryEnd_pending (s : State) (i f : Nat) : (s.tryEnd i f).pending = s.pending := by simp [State.tryEnd]
@[simp] theorem State.tryEnds_pending (s : State) (i : Nat) : (s.tryEnds i).pending = s.pending := by simp [State.tryEnds]

/-! Commits that wait for the last line. -/

@[simp] theorem State.applyWrites_pending (s : State) (ws : List CfgWrite) : (s.applyWrites ws).pending = s.pending := by
  simp [State.applyWrites]

@[simp] theorem State.srcSelected_pending (s : State) : s.srcSelected.pending = s.pending := by simp [State.srcSelected]

@[simp] theorem State.switchGen_pending (s : State) (g : Nat) : (s.switchGen g).pending = s.pending := by
  unfold State.switchGen
  split
  · rfl
  · simp

@[simp] theorem State.retryCommits_pending (s : State) : s.retryCommits.pending = s.pending :=
  State.each_pending _ _ _ fun g t => by
    (repeat' split) <;> simp

@[simp] theorem State.lineCopied_pending (s : State) (e : Option (Nat × Nat × Nat)) : (s.lineCopied e).pending = s.pending := by
  unfold State.lineCopied
  (repeat' split) <;> simp

/-! Open reads and parked reads of the bridge. -/

@[simp] theorem State.modTun_pending (s : State) (q : Nat) (f : Tunnel → Tunnel) : (s.modTun q f).pending = s.pending := (rfl)
@[simp] theorem State.modRead_pending (s : State) (k : Nat) (f : OpenRead → OpenRead) : (s.modRead k f).pending = s.pending := (rfl)
@[simp] theorem State.freeRead_pending (s : State) (k : Nat) : (s.freeRead k).pending = s.pending := (rfl)
@[simp] theorem State.bump_pending (s : State) : s.bump.pending = s.pending := (rfl)

@[simp] theorem State.parkRead_pending (s : State) (e : OpenRead) : (s.parkRead e).pending = s.pending := by
  simp [State.parkRead]

@[simp] theorem State.expired_pending (s : State) (e : OpenRead) : (s.expired e).pending = s.pending := by
  unfold State.expired
  (repeat' split) <;> simp

@[simp] theorem State.expireRead_pending (s : State) (k : Nat) : (s.expireRead k).pending = s.pending := by
  unfold State.expireRead
  split <;> simp

@[simp] theorem State.bridgeLinkDown_pending (s : State) : s.bridgeLinkDown.pending = s.pending :=
  State.each_pending _ _ _ fun k t => by
    (repeat' split) <;> simp

/-! Accesses to host memory. -/

@[simp] theorem State.finishCmd_pending (s : State) (g idx : Nat) (b : List Byte) (st arg detail : Nat) :
    (s.finishCmd g idx b st arg detail).pending = s.pending := by
  simp [State.finishCmd]

@[simp] theorem State.windowRefused_pending (s : State) (d : Nat) : (s.windowRefused d).pending = s.pending := by
  simp [State.windowRefused]

@[simp] theorem State.pushReads_pending (s : State) (org : Org) (d cls id : Nat) (ex : List (Nat × Nat)) :
    (s.pushReads org d cls id ex).pending = s.pending := by
  simp [State.pushReads]

@[simp] theorem State.pushWrites_pending (s : State) (org : Org) (d cls addr : Nat) (data : List Byte) (ro : Bool)
    (ends : Option (Nat × Nat × Nat)) (n : Nat) (ex : List (Nat × Nat)) :
    (s.pushWrites org d cls addr data ro ends n ex).pending = s.pending := by
  simp [State.pushWrites]

@[simp] theorem State.readRefused_pending (s : State) (org : Org) (d cls addr len : Nat) :
    (s.readRefused org d cls addr len).pending = s.pending := by
  simp [State.readRefused]

@[simp] theorem State.writeRefused_pending (s : State) (org : Org) (d cls addr : Nat) (data : List Byte) (ro : Bool) :
    (s.writeRefused org d cls addr data ro).pending = s.pending := by
  simp [State.writeRefused]

theorem State.readHost_pending {s t : State} {org : Org} {d cls addr len : Nat} (h : s.readHost org d cls addr len = some t) :
    t.pending = s.pending := by
  unfold State.readHost at h
  dsimp only at h
  split at h
  · obtain rfl := Option.some.inj h
    simp
  · cases h

theorem State.writeHost_pending {s t : State} {org : Org} {d cls addr : Nat} {data : List Byte} {ro : Bool} {ends : Option (Nat × Nat × Nat)}
    (h : s.writeHost org d cls addr data ro ends = some t) : t.pending = s.pending := by
  unfold State.writeHost at h
  dsimp only at h
  split at h
  · obtain rfl := Option.some.inj h
    simp
  · cases h

/-! Transfers of the tunnel, and the injectors that they pass. -/

@[simp] theorem State.fillCache_pending (s : State) (p dev : Nat) (reg16 : Bool) (first : Nat) (data : List Byte) :
    (s.fillCache p dev reg16 first data).pending = s.pending := (rfl)

@[simp] theorem State.writeLate_pending (s : State) (p : Nat) (j : TunJob) (dom tag cause : Nat) :
    (s.writeLate p j dom tag cause).pending = s.pending := by
  simp [State.writeLate]

@[simp] theorem State.xferUser_pending (s : State) (p : Nat) (j : TunJob) (res : Except Nat (List Byte)) :
    (s.xferUser p j res).pending = s.pending := by
  unfold State.xferUser
  dsimp only
  split
  · rfl
  · rfl
  · rfl
  · simp
  · (repeat' split) <;> simp
  · split
    · simp
    · split
      next t written => exact (State.finishCmd_pending ..).trans (State.writeHost_pending written)
      next => simp
  · simp

@[simp] theorem State.xferEnd_pending (s : State) (p : Nat) (j : TunJob) (res : Except Nat (List Byte)) :
    (s.xferEnd p j res).pending = s.pending := by
  unfold State.xferEnd
  cases res <;> simp

@[simp] theorem State.admitXfer_pending (s : State) (p : Nat) (j : TunJob) : (s.admitXfer p j).pending = s.pending := by
  unfold State.admitXfer
  (repeat' split) <;> simp

@[simp] theorem State.invalidate_pending (s : State) (p dev r n : Nat) : (s.invalidate p dev r n).pending = s.pending := by
  simp [State.invalidate]

@[simp] theorem State.injNote_pending (s : State) (i : Nat) : (s.injNote i).pending = s.pending := by simp [State.injNote]
@[simp] theorem State.injEnd_pending (s : State) (i : Nat) : (s.injEnd i).pending = s.pending := by simp [State.injEnd]

@[simp] theorem State.injOne_pending (s : State) (link inst i : Nat) (u : InjUnit) : (s.injOne link inst i u).2.pending = s.pending := by
  unfold State.injOne
  dsimp only
  (repeat' split) <;> simp

/-- A fold over units and a state keeps the queue when each of its steps does. -/
theorem foldl_snd_pending {α β : Type} (l : List α) (f : β × State → α → β × State) (r : β × State)
    (h : ∀ a t, (f t a).2.pending = t.2.pending) : (l.foldl f r).2.pending = r.2.pending := by
  induction l generalizing r with
  | nil => rfl
  | cons a l ih => rw [List.foldl_cons, ih, h]

@[simp] theorem State.inject_pending (s : State) (link inst : Nat) (u : InjUnit) : (s.inject link inst u).2.pending = s.pending := by
  unfold State.inject State.injectThrough
  exact foldl_snd_pending _ _ _ fun i t => foldl_snd_pending _ _ _ fun v r => State.injOne_pending r.2 link inst i v

@[simp] theorem State.passXfer_pending (s : State) (p : Nat) (j : TunJob) : (s.passXfer p j).pending = s.pending := by
  unfold State.passXfer
  refine (State.each_pending _ _ _ fun u t => ?_).trans (State.inject_pending s 5 p (.job j))
  split <;> simp

@[simp] theorem State.queueXfer_pending (s : State) (p : Nat) (j : TunJob) : (s.queueXfer p j).pending = s.pending := by
  simp [State.queueXfer]

/-! What a read of host memory brings. -/

@[simp] theorem State.useCtx_pending (s : State) (g : Nat) : (s.useCtx g).pending = s.pending := (rfl)
@[simp] theorem State.storeCtx_pending (s : State) (g : Nat) : (s.storeCtx g).pending = s.pending := (rfl)

@[simp] theorem State.cacheCtx_pending (s : State) (g : Nat) : (s.cacheCtx g).pending = s.pending := by
  unfold State.cacheCtx
  (repeat' split) <;> simp

@[simp] theorem State.createAdmin_pending (s : State) (d subBase cmpBase subK cmpK vector modCnt : Nat) (pin : Bool) :
    (s.createAdmin d subBase cmpBase subK cmpK vector modCnt pin).pending = s.pending := by
  simp [State.createAdmin]

@[simp] theorem State.applyBlock_pending (s : State) (d : Nat) (b : List Byte) : (s.applyBlock d b).pending = s.pending := by
  simp [State.applyBlock]

@[simp] theorem State.clearTarget_pending (s : State) (i : Nat) : (s.clearTarget i).pending = s.pending := by
  unfold State.clearTarget
  dsimp only
  split <;> rfl

@[simp] theorem State.replaceEntry_pending (s : State) (t i : Nat) (b : List Byte) : (s.replaceEntry t i b).pending = s.pending := by
  unfold State.replaceEntry
  dsimp only
  (repeat' split) <;> simp

@[simp] theorem State.replaceEntries_pending (s : State) (t first : Nat) (es : List (List Byte)) :
    (s.replaceEntries t first es).pending = s.pending := by
  simp [State.replaceEntries]

@[simp] theorem State.gotDesc_pending (s : State) (j : ReadJob) (ok : Bool) : (s.gotDesc j ok).pending = s.pending := by
  unfold State.gotDesc
  dsimp only
  (repeat' split) <;> simp

@[simp] theorem State.gotPdb_pending (s : State) (data : Option (List Byte)) : (s.gotPdb data).pending = s.pending := by
  unfold State.gotPdb
  dsimp only
  split
  · split
    · rfl
    · split
      · rfl
      · split
        next t begun => exact (State.modHead_pending t _).trans ((State.readHost_pending begun).trans (State.modHead_pending ..))
        next => simp
  · split <;> rfl
  · rfl

@[simp] theorem State.gotTable_pending (s : State) (data : Option (List Byte)) : (s.gotTable data).pending = s.pending := by
  unfold State.gotTable
  (repeat' split) <;> rfl

@[simp] theorem State.gotAsset_pending (s : State) (bank : Nat) (data : Option (List Byte)) : (s.gotAsset bank data).pending = s.pending := (rfl)

@[simp] theorem State.gotEntries_pending (s : State) (g idx : Nat) (b : List Byte) (data : Option (List Byte)) :
    (s.gotEntries g idx b data).pending = s.pending := by
  unfold State.gotEntries
  dsimp only
  (repeat' split) <;> simp

@[simp] theorem State.gotXferData_pending (s : State) (g idx : Nat) (b : List Byte) (data : Option (List Byte)) :
    (s.gotXferData g idx b data).pending = s.pending := by
  unfold State.gotXferData
  split <;> simp

@[simp] theorem State.gotBlock_pending (s : State) (g idx : Nat) (data : Option (List Byte)) : (s.gotBlock g idx data).pending = s.pending := by
  unfold State.gotBlock State.ringCmd
  dsimp only
  (repeat' split) <;> simp

@[simp] theorem State.jobDone_pending (s : State) (j : ReadJob) : (s.jobDone j).pending = s.pending := by
  unfold State.jobDone
  dsimp only
  (repeat' split) <;> simp

@[simp] theorem State.mrdEnd_pending (s : State) (id : Nat) (f : ReadJob → ReadJob) : (s.mrdEnd id f).pending = s.pending := by
  unfold State.mrdEnd
  dsimp only
  (repeat' split) <;> simp

@[simp] theorem State.mrdAbort_pending (s : State) (tag : Nat) (m : MrdOpen) : (s.mrdAbort tag m).pending = s.pending := by
  simp [State.mrdAbort, State.closeTag]

@[simp] theorem State.mwrFailed_pending (s : State) (m : MwrRec) (cause addr : Nat) : (s.mwrFailed m cause addr).pending = s.pending := by
  unfold State.mwrFailed
  dsimp only
  (repeat' split) <;> simp

/-! The lanes and the link. -/

@[simp] theorem State.modGwp_pending (s : State) (f : GwPhy → GwPhy) : (s.modGwp f).pending = s.pending := (rfl)
@[simp] theorem State.modRx_pending (s : State) (k : Nat) (f : GwRx → GwRx) : (s.modRx k f).pending = s.pending := (rfl)

@[simp] theorem State.sendBlock_pending (s : State) (k : Nat) (data : Bool) (b : List Byte) : (s.sendBlock k data b).pending = s.pending := by
  unfold State.sendBlock
  dsimp only
  split <;> simp

@[simp] theorem State.sendSlot_pending (s : State) (f : Nat → Option (List Byte)) (ctl : Nat → List Byte) :
    (s.sendSlot f ctl).pending = s.pending := by
  unfold State.sendSlot
  split
  · refine State.each_pending _ _ _ fun k t => ?_
    split <;> simp
  · rfl

@[simp] theorem State.sendLdn_pending (s : State) : s.sendLdn.pending = s.pending := by simp [State.sendLdn]

@[simp] theorem State.startAttempt_pending (s : State) (k : Nat) : (s.startAttempt k).pending = s.pending := by simp [State.startAttempt]
@[simp] theorem State.setFb_pending (s : State) (k : Nat) (fb : Bool) : (s.setFb k fb).pending = s.pending := by simp [State.setFb]
@[simp] theorem State.startLanes_pending (s : State) : s.startLanes.pending = s.pending := by simp [State.startLanes]
@[simp] theorem State.forgetHeld_pending (s : State) : s.forgetHeld.pending = s.pending := by simp [State.forgetHeld]

@[simp] theorem State.gwDown_pending (s : State) : s.gwDown.pending = s.pending := by
  unfold State.gwDown
  extract_lets g lost owed again s₁ s₂ s₃ s₄ wr s₅
  have aborted : s₄.pending = s₃.pending := State.each_pending _ _ _ fun k t => by
    split <;> simp
  have failed : s₅.pending = s₄.pending := by simp [s₅]
  calc _ = s₅.pending := by simp
    _ = s₃.pending := failed.trans aborted
    _ = s.pending := by simp [s₃, s₂, s₁]

/-- The fall of the link leaves the queue of commands. -/
@[simp] theorem State.gwLinkDown_pending (s : State) (ldn : Bool) : (s.gwLinkDown ldn).pending = s.pending := by
  unfold State.gwLinkDown
  dsimp only
  split <;> simp

end Sys2Proof.Machine
end

section
/-!
PROOFS. The power-on reset and the warm reset (R7, R49).
-/
namespace Sys2Proof.Machine

/-! The straps. -/

@[simp] theorem State.strapPre_sec (s : State) : s.strapPre.sec = s.sec := State.read_of_offRegs s.strapPre_offRegs State.sec fun _ => rfl

/-- A field of SEC_BOOT_STAT after the straps is as MODE leaves it. -/
theorem State.strapPre_fld_bootStat (s : State) (f : Fld) (hf : f.reg = .SEC_BOOT_STAT) :
    s.strapPre.fld f = (s.setFld F.SEC_BOOT_STAT.MODE s.sec.bootMode).fld f := by
  unfold State.strapPre
  dsimp only
  split
  · refine State.each_keeps (State.fld · f 0 0) _ _ _ fun k t => ?_
    exact (State.fld_setFld_kind _ F.GWP_LANE_CTRL.RX_PRE f _ _ _ _ _ (by rw [hf]; decide)).trans
      (State.fld_setFld_kind t F.GWP_LANE_CTRL.TX_PRE f _ _ _ _ _ (by rw [hf]; decide))
  · rfl

theorem State.strapPre_mode (s : State) : s.strapPre.fld F.SEC_BOOT_STAT.MODE = s.sec.bootMode % 4 :=
  (State.strapPre_fld_bootStat s _ rfl).trans (State.fld_setFld_same _ _ _ _ _ (by decide) (by decide))

theorem State.strapPre_bootStage (s : State) : s.strapPre.bootStage = s.bootStage :=
  (State.strapPre_fld_bootStat s _ rfl).trans
    (State.fld_setFld_beside _ _ F.SEC_BOOT_STAT.STAGE _ _ _ rfl (by decide) (by decide) (by decide))

/-- Lane `l` precodes in both directions. -/
def State.precodes (s : State) (l : Nat) : Prop := s.flag F.GWP_LANE_CTRL.TX_PRE l = true ∧ s.flag F.GWP_LANE_CTRL.RX_PRE l = true

/-- Lane `l` begins to precode. -/
def State.precode (l : Nat) (s : State) : State := (s.setFlag F.GWP_LANE_CTRL.TX_PRE true l).setFlag F.GWP_LANE_CTRL.RX_PRE true l

theorem State.precode_precodes (s : State) (l : Nat) : (s.precode l).precodes l := by
  have beside : (s.precode l).flag F.GWP_LANE_CTRL.TX_PRE l = (s.setFlag F.GWP_LANE_CTRL.TX_PRE true l).flag F.GWP_LANE_CTRL.TX_PRE l :=
    congrArg (· == 1) (State.fld_setFld_beside _ F.GWP_LANE_CTRL.RX_PRE F.GWP_LANE_CTRL.TX_PRE _ _ _ rfl (by decide) (by decide) (by decide))
  exact ⟨beside.trans (State.flag_setFlag_same _ _ _ _ _ (by decide) (by decide)),
    State.flag_setFlag_same _ _ _ _ _ (by decide) (by decide)⟩

/-- Another lane that begins to precode leaves this one as it is. -/
theorem State.precode_other (s : State) {l a : Nat} (hl : l < 8) (ha : a < 8) (h : l ≠ a) (hp : s.precodes l) : (s.precode a).precodes l := by
  have apart (k : RegKind) : k.key l 0 ≠ k.key a 0 := RegKind.key_ne_index h (by omega) (by omega) _ _
  have same (f : Fld) (hf : f.reg = .GWP_LANE_CTRL) : (s.precode a).flag f l = s.flag f l :=
    congrArg (· == 1) ((State.fld_setFld_other _ F.GWP_LANE_CTRL.RX_PRE f _ _ _ _ _ (by rw [hf]; exact apart _)).trans
      (State.fld_setFld_other s F.GWP_LANE_CTRL.TX_PRE f _ _ _ _ _ (by rw [hf]; exact apart _)))
  unfold State.precodes
  rw [same _ rfl, same _ rfl]
  exact hp

/-- With the precoding strap at 1 every lane precodes in both directions (R341). -/
theorem State.strapPre_precodes (s : State) (l : Nat) (hl : l < 8) (hp : s.sec.gwPre = true) : s.strapPre.precodes l := by
  unfold State.strapPre
  simp only [State.setFld_sec, hp, if_true]
  refine State.each_reaches (·.precodes l) l _ State.precode _ (List.mem_range.mpr hl) (fun t => t.precode_precodes l) fun a ha t h => ?_
  by_cases e : l = a
  · exact e ▸ t.precode_precodes l
  · exact t.precode_other hl (List.mem_range.mp ha) e h

/-- With the precoding strap at 0 the lanes stay as they are. -/
theorem State.strapPre_unprecoded (s : State) (i j : Nat) (hp : s.sec.gwPre = false) :
    s.strapPre.rd .GWP_LANE_CTRL i j = s.rd .GWP_LANE_CTRL i j := by
  unfold State.strapPre
  simp only [State.setFld_sec, hp, Bool.false_eq_true, if_false]
  exact State.rd_setFld_kind s F.SEC_BOOT_STAT.MODE _ _ _ _ _ _ (by decide)

/-! The power-on reset. -/

/-- The state that PORST_N gives before the straps act: reset, with what outlives every reset and the sampled straps. -/
def State.porstBase (s : State) (mode addr : Nat) (pre : Bool) : State :=
  (s.afterReset {}).modSec (fun c => { c with bootMode := mode, smbAddr := addr, gwPre := pre, pwrGood := s.sec.pwrGood
                                              pwrEn := s.sec.pwrGood })

theorem exec_porstN_standby (s : State) (m a : BitVec 2) (p r : Bool) (h : s.sec.pwrGood = false) :
    exec (.porstN m a p r) s = .next (s.porstBase m.toNat a.toNat p).strapPre := by
  change Host.Outcome.next (doPorstN _ _ _ _ s) = _
  simp only [doPorstN, State.porstBase, h, Bool.false_eq_true, if_false]

/-- Every register has its reset value before the straps act. -/
theorem State.porstBase_rd (s : State) (m a : Nat) (p : Bool) (k : RegKind) (i j : Nat) :
    (s.porstBase m a p).rd k i j = (k.resetVal i).toNat := (rfl)

/-- The strap of precoding is what every lane precodes by. -/
theorem State.porst_lanes (s : State) (m a : Nat) (p : Bool) (l : Nat) (hl : l < 8) :
    (s.porstBase m a p).strapPre.flag F.GWP_LANE_CTRL.TX_PRE l = p ∧ (s.porstBase m a p).strapPre.flag F.GWP_LANE_CTRL.RX_PRE l = p := by
  cases p with
  | true => exact State.strapPre_precodes _ l hl rfl
  | false =>
    have lanes : (s.porstBase m a false).strapPre.rd .GWP_LANE_CTRL l 0 = 0xD00000 :=
      (State.strapPre_unprecoded _ _ _ rfl).trans (State.porstBase_rd ..)
    exact ⟨congrArg (fun w => bits w 31 31 == 1) lanes, congrArg (fun w => bits w 30 30 == 1) lanes⟩

theorem porstN_gives_reset_values (s : State) (m a : BitVec 2) (p r : Bool) (h : s.sec.pwrGood = false) :
    ∃ t, exec (.porstN m a p r) s = .next t ∧ t.pending = s.pending ∧ t.lup = { dump := s.lup.dump } ∧ t.prd = {} ∧ t.hqe = {} ∧ t.cfg = {}
      ∧ t.sec.bootMode = m.toNat ∧ t.sec.smbAddr = a.toNat ∧ t.sec.gwPre = p ∧ t.sec.slots = s.sec.slots ∧ t.sec.arb = s.sec.arb
      ∧ (∀ k i j, i < 4096 → j < 4096 → k ≠ .GWP_LANE_CTRL → k ≠ .SEC_BOOT_STAT → t.rd k i j = (k.resetVal i).toNat)
      ∧ t.fld F.SEC_BOOT_STAT.MODE = m.toNat ∧ t.bootStage = 0
      ∧ (∀ l, l < 8 → t.flag F.GWP_LANE_CTRL.TX_PRE l = p ∧ t.flag F.GWP_LANE_CTRL.RX_PRE l = p) := by
  have off {α : Type} := State.read_of_offRegs (α := α) (s.porstBase m.toNat a.toNat p).strapPre_offRegs
  refine ⟨_, exec_porstN_standby s m a p r h, off State.pending fun _ => rfl, off State.lup fun _ => rfl, off State.prd fun _ => rfl,
    off State.hqe fun _ => rfl, off State.cfg fun _ => rfl, off (·.sec.bootMode) fun _ => rfl, off (·.sec.smbAddr) fun _ => rfl,
    off (·.sec.gwPre) fun _ => rfl, off (·.sec.slots) fun _ => rfl, off (·.sec.arb) fun _ => rfl, fun k i j _ _ hl hb => ?_, ?_, ?_,
    fun l hl => State.porst_lanes s _ _ p l hl⟩
  · exact State.strapPre_rd _ k i j hl hb
  · exact (State.strapPre_mode _).trans (Nat.mod_eq_of_lt m.isLt)
  · exact (State.strapPre_bootStage _).trans rfl

/-! The warm reset. -/

/-- The state that WRST_N meets: a link that was up has gone down. -/
def State.wrstMeets (s : State) : State := s.when (s.flag F.GWP_STAT.LINK_UP) (·.gwLinkDown false)

/-- The state that WRST_N gives from there, before it shows READY, the straps and the resources, and boot begins: reset, with what
survives. -/
def State.wrstBase (s : State) : State :=
  let q := s.afterReset (keepRegs warmRegs s.regs)
  { q with
    time := { now := s.time.now }
    lup := { buf := s.lup.buf, dump := s.lup.dump }
    fcl := { safeD02 := s.fcl.safeD02, lateDue := s.fcl.lateDue, ffCycle := s.fcl.ffCycle }
    fst := { rows := s.fst.rows, attempts := s.fst.attempts, selfRefresh := true }
    pmu := { cyc := s.pmu.cyc }
    cfg := { warm := true }
    gwl := { epoch := s.gwl.epoch }
    sec := { q.sec with pwrGood := true, pwrEn := s.sec.pwrEn, warm := true } }

/-- The same with READY, the straps and the resources shown. -/
def State.wrstShown (s : State) : State :=
  (s.wrstBase.setFlag F.FST_STAT.READY (s.flag F.FST_STAT.READY)).strapPre.showResources

/-- ROM after a warm reset with a good self-test (R572): the epoch stays, FAULT_N is released, boot is in stage 2. -/
def State.romWarm (s : State) : State := (((s.setStage 1).modFcl (fun f => { f with faultN := true })).setStage 2).startCore

theorem State.startRom_warm (s : State) (h : s.sec.warm = true) : s.startRom true = s.romWarm := by
  simp only [State.startRom, State.romWarm, State.drawEpoch, h, if_true]

theorem State.wrstShown_offRegs (s : State) : s.wrstShown.offRegs = s.wrstBase.offRegs := by
  simp only [State.wrstShown, State.showResources_offRegs, State.strapPre_offRegs, State.setFlag_offRegs]

theorem exec_wrstN_good (s : State) (h : s.sec.pwrGood = true) : exec (.wrstN true) s = .next s.wrstMeets.wrstShown.romWarm := by
  have warm : s.wrstMeets.wrstShown.sec.warm = true := State.read_of_offRegs s.wrstMeets.wrstShown_offRegs (·.sec.warm) fun _ => rfl
  rw [← State.startRom_warm _ warm]
  change Host.Outcome.next (doWrstN true s) = _
  unfold doWrstN
  rw [if_neg (by simp [h])]
  extract_lets +onlyGivenNames u
  have met : u = s.wrstMeets := rfl
  clear_value u
  subst met
  rfl

theorem State.romWarm_offRegs (s : State) : s.romWarm.offRegs = { s.offRegs with fcl := { s.fcl with faultN := true } } := by
  simp only [State.romWarm, State.startCore_offRegs, State.setStage_offRegs]
  rfl

theorem State.romWarm_rd (s : State) (k : RegKind) (i j : Nat) (hb : k ≠ .SEC_BOOT_STAT) (hv : k ≠ .EGV_AVS) :
    s.romWarm.rd k i j = s.rd k i j := by
  unfold State.romWarm State.startCore
  dsimp only
  rw [State.rd_setFld_kind _ F.EGV_AVS.VCORE_MV _ _ _ _ _ _ hv, State.rd_setFld_kind _ F.EGV_AVS.VINIT_MV _ _ _ _ _ _ hv]
  exact (State.rd_setFld_kind _ F.SEC_BOOT_STAT.STAGE _ _ _ _ _ _ hb).trans (State.rd_setFld_kind s F.SEC_BOOT_STAT.STAGE _ _ _ _ _ _ hb)

theorem State.romWarm_bootStage (s : State) : s.romWarm.bootStage = 2 := by
  unfold State.romWarm State.startCore State.bootStage
  dsimp only
  rw [State.fld_setFld_kind _ F.EGV_AVS.VCORE_MV F.SEC_BOOT_STAT.STAGE _ _ _ _ _ (by decide),
    State.fld_setFld_kind _ F.EGV_AVS.VINIT_MV F.SEC_BOOT_STAT.STAGE _ _ _ _ _ (by decide)]
  exact State.fld_setFld_same _ F.SEC_BOOT_STAT.STAGE _ _ _ (by decide) (by decide)

/-- Registers that the warm reset itself writes, by READY, the straps, boot and the resources. -/
def wrstSets : List RegKind := [.FST_STAT, .GWP_LANE_CTRL, .SEC_BOOT_STAT, .EGV_AVS] ++ resourceRegs

/-- Every other register is as the reset leaves it. -/
theorem State.wrst_rd (s : State) (k : RegKind) (i j : Nat) (h : k ∉ wrstSets) : s.wrstShown.romWarm.rd k i j = s.wrstBase.rd k i j := by
  simp only [wrstSets, List.cons_append, List.nil_append, List.mem_cons, not_or] at h
  obtain ⟨hf, hl, hb, hv, hr⟩ := h
  unfold State.wrstShown
  rw [State.romWarm_rd _ _ _ _ hb hv, State.showResources_rd _ _ _ _ hr, State.strapPre_rd _ _ _ _ hl hb]
  exact State.rd_setFlag_kind _ F.FST_STAT.READY _ _ _ _ _ _ hf

theorem State.wrst_ready (s : State) : s.wrstShown.romWarm.flag F.FST_STAT.READY = s.flag F.FST_STAT.READY := by
  have shown : s.wrstShown.romWarm.rd .FST_STAT = (s.wrstBase.setFlag F.FST_STAT.READY (s.flag F.FST_STAT.READY)).rd .FST_STAT := by
    unfold State.wrstShown
    rw [State.romWarm_rd _ _ _ _ (by decide) (by decide), State.showResources_rd _ _ _ _ (by decide),
      State.strapPre_rd _ _ _ _ (by decide) (by decide)]
  exact (congrArg (fun w => bits w 31 31 == 1) shown).trans (State.flag_setFlag_same _ F.FST_STAT.READY _ _ _ (by decide) (by decide))

/-- A register that survives the warm reset reads as before it. -/
theorem State.wrstBase_rd_kept (s : State) (k : RegKind) (i j : Nat) (h : k ∈ warmRegs) : s.wrstBase.rd k i j = s.rd k i j := by
  change (match (keepRegs warmRegs s.regs).get (k.key i j) with | some w => w.toNat | none => (k.resetVal i).toNat) = _
  rw [keepRegs_get _ _ _ _ _ h]
  rfl

/-- Every other register has its reset value. -/
theorem State.wrstBase_rd_reset (s : State) (k : RegKind) (i j : Nat) (h : k ∉ warmRegs) :
    s.wrstBase.rd k i j = (k.resetVal i).toNat := by
  change (match (keepRegs warmRegs s.regs).get (k.key i j) with | some w => w.toNat | none => (k.resetVal i).toNat) = _
  rw [keepRegs_get_gone _ _ _ _ _ h]

/-- The fall of the link before a warm reset leaves the queue. -/
theorem State.wrstMeets_pending (s : State) : s.wrstMeets.pending = s.pending := State.when_pending _ _ _ fun t => t.gwLinkDown_pending false

/-- Outside the register file the warm reset gives what `wrstBase` holds, with FAULT_N released. -/
theorem State.wrst_offRegs (s : State) :
    s.wrstShown.romWarm.offRegs = (s.wrstBase.modFcl (fun f => { f with faultN := true })).offRegs := by
  rw [State.romWarm_offRegs, State.wrstShown_offRegs, State.read_of_offRegs s.wrstShown_offRegs State.fcl fun _ => rfl]
  rfl

/-- Registers of the reset blocks: those that the statement of O2 lists. -/
def wrstNamed : List RegKind :=
  [.CFG_STATE, .CFG_REJECT, .CFG_LDROP, .RAS_CTRL, .RAS_PERIOD, .RAS_STRM_CFG, .ING_PORT_CTRL, .ING_PORT_STAT, .ING_MAP, .POOL_CTRL, .PRD_STATE,
   .HQE_CTRL, .GWP_CTRL, .GWP_STAT, .GWL_STAT, .DEG_PORT_CTRL, .MGD_CTRL, .MGD_BANK_STAT, .VBR_CTRL, .SMB0_CTRL, .SMB1_CTRL, .FCL_CTRL, .FCL_SEV,
   .FCL_REACT, .FIJ_CTRL, .FIJ_STAT, .SEC_UNLOCK, .EGV_CTRL, .PMU_CTRL, .PMU_CFG]

theorem warmRegs_unset : ∀ k ∈ warmRegs, k ∉ wrstSets := by decide
theorem wrstNamed_reset : ∀ k ∈ wrstNamed, k ∉ wrstSets ∧ k ∉ warmRegs := by decide

/-- A warm reset that meets state `u` gives the reset values, and keeps of `u` what survives. -/
theorem wrstN_keeps_what_survives (s u : State) (ran : exec (.wrstN true) s = .next u.wrstShown.romWarm) (queue : u.pending = s.pending) :
    ∃ t, exec (.wrstN true) s = .next t ∧ t.pending = s.pending ∧ t.prd = {} ∧ t.hqe = {} ∧ t.cfg = { warm := true } ∧ t.bootStage = 2
      ∧ t.sec.warm = true ∧ t.fcl.safe = false ∧ t.fcl.faultN = true
      ∧ (t.lup.buf = u.lup.buf ∧ t.fst.rows = u.fst.rows
         ∧ (∀ k i j, i < 4096 → j < 4096 → k ∈ warmRegs → t.rd k i j = u.rd k i j)
         ∧ t.flag F.FST_STAT.READY = u.flag F.FST_STAT.READY)
      ∧ (∀ k i j, i < 4096 → j < 4096 → k ∈ wrstNamed → t.rd k i j = (k.resetVal i).toNat) := by
  have off {α : Type} := State.read_of_offRegs (α := α) u.wrst_offRegs
  refine ⟨_, ran, (off State.pending fun _ => rfl).trans queue, off State.prd fun _ => rfl, off State.hqe fun _ => rfl,
    off State.cfg fun _ => rfl, State.romWarm_bootStage _, off (·.sec.warm) fun _ => rfl, off (·.fcl.safe) fun _ => rfl,
    off (·.fcl.faultN) fun _ => rfl,
    ⟨off (·.lup.buf) fun _ => rfl, off (·.fst.rows) fun _ => rfl, fun k i j _ _ hk => ?_, State.wrst_ready _⟩, fun k i j _ _ hk => ?_⟩
  · exact (State.wrst_rd _ _ _ _ (warmRegs_unset k hk)).trans (State.wrstBase_rd_kept _ _ _ _ hk)
  · obtain ⟨unset, lost⟩ := wrstNamed_reset k hk
    exact (State.wrst_rd _ _ _ _ unset).trans (State.wrstBase_rd_reset _ _ _ _ lost)

/-- The end of the warm reset (R49). -/
theorem exec_warmResetDone (s : State) (h : s.cfg.warm = true) :
    exec .warmResetDone s
      = .next { s with cfg := { s.cfg with warm := false }, fst := { s.fst with selfRefresh := false }, blm := {} } :=
  congrArg Host.Outcome.next (if_pos h)

/-- Settles O2: each reset is its base state with what it shows written over a few registers; the fall of a link that was up leaves the
queue. -/
theorem resetsGiveTheResetValues : Obligations.ResetsGiveTheResetValues := fun s =>
  ⟨porstN_gives_reset_values s, fun h => wrstN_keeps_what_survives s s.wrstMeets (exec_wrstN_good s h) s.wrstMeets_pending,
    exec_warmResetDone s⟩

end Sys2Proof.Machine
end

section
/-!
PROOFS. Boot images in staging memory, and the checks of the profile's envelope (R568, R570, R572).
-/
namespace Sys2Proof.Machine

/-! The stage. -/

theorem State.setStage_bootStage (s : State) (n : Nat) (h : n < 256) : (s.setStage n).bootStage = n :=
  (State.fld_setFld_same s F.SEC_BOOT_STAT.STAGE n 0 0 (by decide) (by decide)).trans (Nat.mod_eq_of_lt h)

/-- A write of any other field of SEC_BOOT_STAT leaves the stage. -/
theorem State.setFld_bootStage (s : State) (f : Fld) (v : Nat) (hr : f.reg = .SEC_BOOT_STAT) (h : f.lo ≤ f.hi) (h32 : f.hi < 32)
    (above : 7 < f.lo) : (s.setFld f v).bootStage = s.bootStage :=
  State.fld_setFld_beside s f F.SEC_BOOT_STAT.STAGE v 0 0 hr.symm h h32 (.inr above)

/-- A write of a field and an update of the security part change the register file and that part alone. -/
theorem State.modSec_setFld_keeps_rest (s : State) (f : Fld) (v : Nat) (g : Sec → Sec) :
    { (s.setFld f v).modSec g with regs := s.regs, sec := s.sec } = s := (rfl)

/-! Staging memory (R568, R572). -/

/-- Staging memory holds `m`; nothing else changes. -/
def State.withStaged (s : State) (m : Tbl (Option (Bool × List Byte))) : State := s.modSec (fun c => { c with staged := m })

/-- What staging memory takes for type `k`: the image of the copy that boot tries next, where the flash holds one. -/
def State.nextImage (s : State) (flash : List FlashArea) (k : Nat) : Option (Bool × List Byte) :=
  (flashImage flash k (s.nextCopy k)).map (fun b => (s.nextCopy k, b))

/-- One type of IMAGE_LOAD_DONE. -/
def State.stageNext (flash : List FlashArea) (a : Nat) (s : State) : State :=
  match flashImage flash a (s.nextCopy a) with
  | some b => s.modSec (fun c => { c with staged := c.staged.set a (some (s.nextCopy a, b)) })
  | none => s

/-- In stages 2 and 3 every type that boot reads is staged, and the stage becomes 3. -/
theorem exec_imageLoadDone (s : State) (flash : List FlashArea) (h : s.bootStage = 2 ∨ s.bootStage = 3) :
    exec (.imageLoadDone flash) s = .next ((s.each ([1, 2, 3, 5].filter s.reads) (State.stageNext flash)).setStage 3) := by
  change Host.Outcome.next (doImageLoadDone flash s) = _
  unfold doImageLoadDone
  rw [if_neg (by omega)]
  rfl

theorem State.reads_iff (s : State) (k : Nat) : s.reads k = true ↔ s.sec.staged.get k = none ∧ ¬ (k = 2 ∧ s.sec.bootMode = 1) := by
  simp [State.reads, imp_iff_not_or]

/-- Staging one type changes staging memory alone, and there the entry of the type alone. -/
theorem State.stageNext_withStaged (s : State) (flash : List FlashArea) (a : Nat) (m : Tbl (Option (Bool × List Byte))) :
    ∃ m', (s.withStaged m).stageNext flash a = s.withStaged m'
      ∧ ∀ k, m'.get k = if k = a then (s.nextImage flash k).or (m.get k) else m.get k := by
  have copy : (s.withStaged m).nextCopy a = s.nextCopy a := rfl
  unfold State.stageNext State.nextImage
  rw [copy]
  cases image : flashImage flash a (s.nextCopy a) with
  | none =>
    refine ⟨m, rfl, fun k => ?_⟩
    split
    next h => simp [h, image]
    next => rfl
  | some b =>
    refine ⟨m.set a (some (s.nextCopy a, b)), rfl, fun k => ?_⟩
    split
    next h => simp [h, image]
    next h => exact Tbl.get_set_other _ _ _ _ h

/-- Staging the types of a list changes staging memory alone, and there the entries of these types alone. -/
theorem State.each_stageNext_withStaged (s : State) (flash : List FlashArea) (l : List Nat) (m : Tbl (Option (Bool × List Byte))) :
    ∃ m', (s.withStaged m).each l (State.stageNext flash) = s.withStaged m'
      ∧ ∀ k, m'.get k = if k ∈ l then (s.nextImage flash k).or (m.get k) else m.get k := by
  unfold State.each
  induction l generalizing m with
  | nil => exact ⟨m, rfl, fun _ => rfl⟩
  | cons a r ih =>
    obtain ⟨m₁, first, get₁⟩ := s.stageNext_withStaged flash a m
    obtain ⟨m₂, rest, get₂⟩ := ih m₁
    refine ⟨m₂, by rw [List.foldl_cons, first, rest], fun k => ?_⟩
    rw [get₂, get₁]
    by_cases ha : k = a <;> by_cases hr : k ∈ r <;> simp [ha, hr, ← Option.or_assoc]

/-- In stages 2 and 3 IMAGE_LOAD_DONE changes staging memory and the stage alone. -/
theorem exec_imageLoadDone_withStaged (s : State) (flash : List FlashArea) (h : s.bootStage = 2 ∨ s.bootStage = 3) :
    ∃ m, exec (.imageLoadDone flash) s = .next ((s.withStaged m).setStage 3)
      ∧ (∀ k, k ∈ [1, 2, 3, 5] → s.reads k = true → m.get k = s.nextImage flash k)
      ∧ (∀ k, k ∉ [1, 2, 3, 5] ∨ s.reads k ≠ true → m.get k = s.sec.staged.get k) := by
  obtain ⟨m, all, get⟩ := s.each_stageNext_withStaged flash ([1, 2, 3, 5].filter s.reads) s.sec.staged
  refine ⟨m, ?_, fun k hk hr => ?_, fun k hk => ?_⟩
  · rw [exec_imageLoadDone s flash h, ← all]
    rfl
  · have empty : s.sec.staged.get k = none := ((s.reads_iff k).mp hr).1
    rw [get, if_pos (List.mem_filter.mpr ⟨hk, hr⟩), empty, Option.or_none]
  · rw [get, if_neg fun hm => ?_]
    obtain ⟨listed, read⟩ := List.mem_filter.mp hm
    exact hk.elim (· listed) (· read)

/-! The checks of an envelope (R570). -/

/-- An envelope that passes every check gives result 0. -/
theorem State.envCheck_pass (s : State) (k : Nat) (b : List Byte) (format : envFormat k b = true) (key : s.envKeyOk k b = true)
    (device : s.envDeviceOk k b = true) (hash : sha3 (envPayload b) = bytesAt b 96 64) (rollback : s.envRollbackOk k b = true) :
    s.envCheck k b true = 0 := by
  simp [State.envCheck, format, key, device, hash, rollback]

/-- An envelope of good format, key and device with a false signature gives result 4. -/
theorem State.envCheck_badSig (s : State) (k : Nat) (b : List Byte) (format : envFormat k b = true) (key : s.envKeyOk k b = true)
    (device : s.envDeviceOk k b = true) : s.envCheck k b false = 4 := by
  simp [State.envCheck, format, key, device]

/-- A profile whose envelope and content pass gives result 0 (R575). -/
theorem State.verifyResult_profile (s : State) (c : Bool) (b : List Byte) (sig : Bool) (staged : s.sec.staged.get 2 = some (c, b))
    (passes : s.envCheck 2 b sig = 0) (content : primroseCheck (envPayload b) = true) : s.verifyResult 2 sig = (0, b) := by
  simp [State.verifyResult, staged, passes, content]

/-- The result of an envelope that fails is that of its first bad check. -/
theorem State.verifyResult_envelope (s : State) (k : Nat) (c : Bool) (b : List Byte) (sig : Bool)
    (staged : s.sec.staged.get k = some (c, b)) (fails : s.envCheck k b sig ≠ 0) : s.verifyResult k sig = (s.envCheck k b sig, b) := by
  simp [State.verifyResult, staged, fails]

/-! The profile (R572). -/

/-- The profile is in force from the copy that boot tried. -/
def State.takeProfile (s : State) (b : List Byte) : State :=
  (s.setFld F.SEC_BOOT_STAT.PROF (copyCode (s.nextCopy 2))).modSec (fun c => { c with env := c.env.set 2 b })

theorem State.takeProfile_regs (s : State) (b : List Byte) :
    (s.takeProfile b).regs = (s.setFld F.SEC_BOOT_STAT.PROF (copyCode (s.nextCopy 2))).regs := State.modSec_regs _ _

theorem State.takeProfile_fld (s : State) (b : List Byte) (f : Fld) :
    (s.takeProfile b).fld f = (s.setFld F.SEC_BOOT_STAT.PROF (copyCode (s.nextCopy 2))).fld f := by
  unfold State.fld State.rd
  rw [s.takeProfile_regs]

theorem State.takeProfile_keeps_rest (s : State) (b : List Byte) : { s.takeProfile b with regs := s.regs, sec := s.sec } = s :=
  s.modSec_setFld_keeps_rest F.SEC_BOOT_STAT.PROF (copyCode (s.nextCopy 2)) (fun c => { c with env := c.env.set 2 b })

theorem State.takeProfile_prof (s : State) (b : List Byte) :
    (s.takeProfile b).fld F.SEC_BOOT_STAT.PROF = if s.nextCopy 2 then 2 else 1 := by
  rw [s.takeProfile_fld, State.fld_setFld_same _ _ _ _ _ (by decide) (by decide)]
  cases s.nextCopy 2 <;> rfl

theorem State.takeProfile_bootStage (s : State) (b : List Byte) : (s.takeProfile b).bootStage = s.bootStage :=
  (s.takeProfile_fld b _).trans (s.setFld_bootStage F.SEC_BOOT_STAT.PROF _ rfl (by decide) (by decide) (by decide))

/-- The copy of a profile that fails is marked as tried. -/
theorem State.failCopy_tried (s : State) (r : Nat) : (s.failCopy 2 r).sec.tried = s.sec.tried ++ [(2, s.nextCopy 2)] :=
  congrArg (fun c => s.sec.tried ++ [(2, c)]) (Bool.and_true _)

/-- After the first failure of a profile the other copy is still to try. -/
theorem State.failCopy_bothTried (s : State) (r : Nat) (h : s.sec.tried = []) : (s.failCopy 2 r).bothTried 2 = false := by
  have tried : (s.failCopy 2 r).sec.tried = [(2, s.nextCopy 2)] := by rw [s.failCopy_tried, h, List.nil_append]
  unfold State.bothTried
  rw [tried]
  cases s.nextCopy 2 <;> rfl

theorem State.failCopy_lastErr (s : State) (k r : Nat) (h : r < 16) : (s.failCopy k r).fld F.SEC_BOOT_STAT.LAST_ERR = r :=
  (State.fld_setFld_same s F.SEC_BOOT_STAT.LAST_ERR r 0 0 (by decide) (by decide)).trans (Nat.mod_eq_of_lt h)

theorem State.failCopy_bootStage (s : State) (k r : Nat) : (s.failCopy k r).bootStage = s.bootStage :=
  s.setFld_bootStage F.SEC_BOOT_STAT.LAST_ERR r rfl (by decide) (by decide) (by decide)

/-- In stage 3, with firmware and without a profile, the result of the profile's checks decides. -/
theorem exec_imageVerifyDone_profile (s : State) (sig idOk : Bool) (stage : s.bootStage = 3) (firmware : s.sec.env.get 1 ≠ [])
    (profile : s.sec.env.get 2 = []) :
    exec (.imageVerifyDone 2 sig idOk) s = .next (
      if (s.verifyResult 2 sig).1 = 0 then s.takeProfile (s.verifyResult 2 sig).2
      else if (s.failCopy 2 (s.verifyResult 2 sig).1).bothTried 2
        then ((s.failCopy 2 (s.verifyResult 2 sig).1).setFld F.SEC_BOOT_STAT.PROF 3).noProfile
      else s.failCopy 2 (s.verifyResult 2 sig).1) := by
  change Host.Outcome.next (doImageVerifyDone 2 sig idOk s) = _
  unfold doImageVerifyDone
  rw [if_neg (not_not.mpr stage), if_neg (by decide), if_neg firmware, if_pos rfl, if_neg (not_not.mpr profile)]
  rfl

/-- A profile that passes every check is taken. -/
theorem exec_imageVerifyDone_takes (s : State) (c : Bool) (b : List Byte) (idOk : Bool) (stage : s.bootStage = 3)
    (firmware : s.sec.env.get 1 ≠ []) (profile : s.sec.env.get 2 = []) (staged : s.sec.staged.get 2 = some (c, b))
    (passes : s.envCheck 2 b true = 0) (content : primroseCheck (envPayload b) = true) :
    exec (.imageVerifyDone 2 true idOk) s = .next (s.takeProfile b) := by
  rw [exec_imageVerifyDone_profile s true idOk stage firmware profile, s.verifyResult_profile c b true staged passes content]
  rfl

/-- The first copy of a profile that fails a check of its envelope is dropped. -/
theorem exec_imageVerifyDone_drops (s : State) (c : Bool) (b : List Byte) (sig idOk : Bool) (stage : s.bootStage = 3)
    (firmware : s.sec.env.get 1 ≠ []) (profile : s.sec.env.get 2 = []) (staged : s.sec.staged.get 2 = some (c, b))
    (fails : s.envCheck 2 b sig ≠ 0) (untried : s.sec.tried = []) :
    exec (.imageVerifyDone 2 sig idOk) s = .next (s.failCopy 2 (s.envCheck 2 b sig)) := by
  rw [exec_imageVerifyDone_profile s sig idOk stage firmware profile, s.verifyResult_envelope 2 c b sig staged fails,
    if_neg fails, if_neg (by simp [s.failCopy_bothTried _ untried])]

/-- Settles O3: staging changes staging memory and the stage alone, and the result of the envelope's checks decides between taking the
profile and dropping its copy. -/
theorem bootImagesAreStagedAndChecked : Obligations.BootImagesAreStagedAndChecked := by
  have here : (⟨.SEC_BOOT_STAT, 0, 0⟩ : RegId) ∈ [(⟨.SEC_BOOT_STAT, 0, 0⟩ : RegId)] := List.mem_singleton_self _
  refine fun s => ⟨fun flash stage => ?_, fun c b stage firmware profile staged format key device hash rollback content => ?_,
    fun c b stage firmware profile staged format key device untried => ?_⟩
  · obtain ⟨m, ran, taken, kept⟩ := exec_imageLoadDone_withStaged s flash stage
    refine ⟨_, ran, State.setStage_bootStage _ 3 (by decide), fun k listed empty noProfile => ?_, fun k unread => ?_, rfl, ?_, rfl⟩
    · exact taken k listed ((s.reads_iff k).mpr ⟨empty, noProfile⟩)
    · refine kept k (unread.imp_right fun filled reads => ?_)
      obtain ⟨empty, noProfile⟩ := (s.reads_iff k).mp reads
      exact filled.elim (· empty) noProfile
    · exact ((SameRegs.refl _ s).of_regs rfl).setFld F.SEC_BOOT_STAT.STAGE 3 0 0 (by decide) (by decide) here
  · have passes := s.envCheck_pass 2 b format key device hash rollback
    refine ⟨_, exec_imageVerifyDone_takes s c b true stage firmware profile staged passes content, s.takeProfile_prof b, rfl,
      (s.takeProfile_bootStage b).trans stage, ?_, s.takeProfile_keeps_rest b⟩
    exact ((SameRegs.refl _ s).setFld F.SEC_BOOT_STAT.PROF _ 0 0 (by decide) (by decide) here).of_regs (s.takeProfile_regs b)
  · have bad := s.envCheck_badSig 2 b format key device
    have ran := exec_imageVerifyDone_drops s c b false true stage firmware profile staged (by simp [bad]) untried
    rw [bad] at ran
    exact ⟨_, ran, s.failCopy_lastErr 2 4 (by decide), rfl, Tbl.get_set_same _ _ _, by rw [s.failCopy_tried, untried, List.nil_append],
      (s.failCopy_bootStage 2 4).trans stage⟩

end Sys2Proof.Machine
end

section
/-!
SUPPORT. What every command but a reset and the loss of power keeps: the queue, the safe state and the machine's invariant. The
relation `State.Kept` has one lemma per state operation and one per operation of the model, in the model's order, so that each
operation's lemma cites those of the operations it calls: as hypotheses, since `grind` waits for a constant it cites to be checked.
-/

namespace Sys2Proof.Machine

variable {s₀ s : State}

/-- The power and the boot mode that the straps gave. -/
abbrev Sec.power (c : Sec) : Bool × Nat := (c.pwrGood, c.bootMode)

/-- What every command but a reset and the loss of power keeps. -/
structure State.Kept (s t : State) : Prop where
  pending : t.pending = s.pending
  mode : t.sec.bootMode = s.sec.bootMode
  safe : s.fcl.safe = true → t.fcl.safe = true
  inv : s.Inv → t.Inv

theorem State.Kept.refl (s : State) : s.Kept s := ⟨rfl, rfl, id, id⟩

theorem State.Kept.trans {s t u : State} (h : s.Kept t) (h' : t.Kept u) : s.Kept u :=
  ⟨h'.pending.trans h.pending, h'.mode.trans h.mode, h'.safe ∘ h.safe, h'.inv ∘ h.inv⟩

theorem State.Kept.of_regs {t : State} (h : s₀.Kept s) (regs : s.regs.wf = true → t.regs.wf = true) (pending : t.pending = s.pending)
    (safe : t.fcl.safe = s.fcl.safe) (faultN : t.fcl.faultN = s.fcl.faultN) (power : t.sec.power = s.sec.power) : s₀.Kept t :=
  h.trans ⟨pending, congrArg Prod.snd power, safe.trans, fun h => ⟨regs h.regs, fun e => faultN.trans (h.faultN (safe.symm.trans e)),
    fun e => (congrArg Prod.fst power).trans (h.power (safe.symm.trans e))⟩⟩

theorem State.Kept.of_same {t : State} (h : s₀.Kept s) (regs : t.regs = s.regs) (pending : t.pending = s.pending)
    (safe : t.fcl.safe = s.fcl.safe) (faultN : t.fcl.faultN = s.fcl.faultN) (power : t.sec.power = s.sec.power) : s₀.Kept t :=
  h.of_regs (fun e => regs ▸ e) pending safe faultN power

theorem State.Kept.wr {k : RegKind} {v i j : Nat} (h : s₀.Kept s) : s₀.Kept (s.wr k v i j) :=
  h.of_regs (Tbl.wf_set _ _ _) rfl rfl rfl rfl

/-! ### Ops -/

theorem State.Kept.setFld {f : Fld} {v i j : Nat} (h : s₀.Kept s) : s₀.Kept (s.setFld f v i j) := h.wr

theorem State.Kept.setFlag {f : Fld} {b : Bool} {i j : Nat} (h : s₀.Kept s) : s₀.Kept (s.setFlag f b i j) := h.wr

theorem State.Kept.addTo {f : Fld} {n i j : Nat} (h : s₀.Kept s) : s₀.Kept (s.addTo f n i j) := h.wr

theorem State.Kept.count {f : Fld} {i j : Nat} (h : s₀.Kept s) : s₀.Kept (s.count f i j) := h.wr

theorem State.Kept.each {α : Type} {l : List α} {f : α → State → State} (h : s₀.Kept s)
    (hf : ∀ a s, s₀.Kept s → s₀.Kept (f a s)) :
    s₀.Kept (s.each l f) := by
  unfold State.each
  induction l generalizing s with
  | nil => exact h
  | cons a l ih => exact ih (hf _ _ h)

theorem State.Kept.when {c : Bool} {f : State → State} (h : s₀.Kept s) (hf : ∀ s, s₀.Kept s → s₀.Kept (f s)) :
    s₀.Kept (s.when c f) := by
  unfold State.when
  split
  · exact hf _ h
  · exact h

theorem State.Kept.update {freeIdx cfg ras strm time ports pool seals blm tf prd gwp gwl hqe smb lup disp mgd vbr fst egv pmu hiLatch out}
    (h : s₀.Kept s) : s₀.Kept ⟨s.pending, freeIdx, s.regs, cfg, ras, strm, time, ports, pool, seals, blm, tf, prd, gwp, gwl, hqe, smb, lup,
      s.fcl, disp, mgd, vbr, s.sec, fst, egv, pmu, hiLatch, out⟩ :=
  h.of_same rfl rfl rfl rfl rfl

theorem State.Kept.modFcl {f : Fcl → Fcl} (h : s₀.Kept s) (hs : (f s.fcl).safe = s.fcl.safe)
    (hn : (f s.fcl).faultN = s.fcl.faultN) :
    s₀.Kept (s.modFcl f) := h.of_same rfl rfl hs hn rfl

theorem State.Kept.modSec {f : Sec → Sec} (h : s₀.Kept s) (hs : (f s.sec).power = s.sec.power) :
    s₀.Kept (s.modSec f) :=
  h.of_same rfl rfl rfl rfl hs

theorem State.Kept.ite {t : State} {c : Prop} [Decidable c] (h : s₀.Kept s) (h' : s₀.Kept t) :
    s₀.Kept (if c then s else t) := by
  split <;> assumption

theorem State.Kept.ite_fst {α : Type} {p q : State × α} {c : Prop} [Decidable c] (h : s₀.Kept p.1)
    (h' : s₀.Kept q.1) :
    s₀.Kept (if c then p else q).1 := by
  split <;> assumption

theorem State.Kept.pair {α : Type} {a : α} (h : s₀.Kept s) : s₀.Kept (s, a).1 := h

theorem State.Kept.foldl_fst {α β : Type} {l : List α} {f : State × β → α → State × β} {p : State × β}
    (h : s₀.Kept p.1)
    (hf : ∀ q a, s₀.Kept q.1 → s₀.Kept (f q a).1) : s₀.Kept (l.foldl f p).1 := by
  induction l generalizing p with
  | nil => exact h
  | cons a l ih => exact ih (hf _ _ h)

theorem State.Kept.foldl_snd {α β : Type} {l : List α} {f : β × State → α → β × State} {p : β × State}
    (h : s₀.Kept p.2)
    (hf : ∀ q a, s₀.Kept q.2 → s₀.Kept (f q a).2) : s₀.Kept (l.foldl f p).2 := by
  induction l generalizing p with
  | nil => exact h
  | cons a l ih => exact ih (hf _ _ h)

theorem State.Kept.foldl {α : Type} {l : List α} {f : State → α → State} (h : s₀.Kept s)
    (hf : ∀ s a, s₀.Kept s → s₀.Kept (f s a)) :
    s₀.Kept (l.foldl f s) := by
  induction l generalizing s with
  | nil => exact h
  | cons a l ih => exact ih (hf _ _ h)

theorem State.Kept.modCfg {f : Cfg → Cfg} (h : s₀.Kept s) : s₀.Kept (s.modCfg f) :=
  h.of_same rfl rfl rfl rfl rfl

theorem State.Kept.modRas {n : Nat} {f : Raster → Raster} (h : s₀.Kept s) : s₀.Kept (s.modRas n f) :=
  h.of_same rfl rfl rfl rfl rfl

theorem State.Kept.modStrm {n : Nat} {f : Stream → Stream} (h : s₀.Kept s) : s₀.Kept (s.modStrm n f) :=
  h.of_same rfl rfl rfl rfl rfl

theorem State.Kept.modTime {f : Time → Time} (h : s₀.Kept s) : s₀.Kept (s.modTime f) :=
  h.of_same rfl rfl rfl rfl rfl

theorem State.Kept.modGwl {f : Gwl → Gwl} (h : s₀.Kept s) : s₀.Kept (s.modGwl f) :=
  h.of_same rfl rfl rfl rfl rfl

theorem State.Kept.modHqe {f : Hqe → Hqe} (h : s₀.Kept s) : s₀.Kept (s.modHqe f) :=
  h.of_same rfl rfl rfl rfl rfl

theorem State.Kept.modLup {f : Lup → Lup} (h : s₀.Kept s) : s₀.Kept (s.modLup f) :=
  h.of_same rfl rfl rfl rfl rfl

theorem State.Kept.modDisp {n : Nat} {f : Disp → Disp} (h : s₀.Kept s) : s₀.Kept (s.modDisp n f) :=
  h.of_same rfl rfl rfl rfl rfl

theorem State.Kept.modMgd {f : Mgd → Mgd} (h : s₀.Kept s) : s₀.Kept (s.modMgd f) :=
  h.of_same rfl rfl rfl rfl rfl

theorem State.Kept.modVbr {f : Vbr → Vbr} (h : s₀.Kept s) : s₀.Kept (s.modVbr f) :=
  h.of_same rfl rfl rfl rfl rfl

theorem State.Kept.modFst {f : Fst → Fst} (h : s₀.Kept s) : s₀.Kept (s.modFst f) :=
  h.of_same rfl rfl rfl rfl rfl

theorem State.Kept.modEgv {f : Egv → Egv} (h : s₀.Kept s) : s₀.Kept (s.modEgv f) :=
  h.of_same rfl rfl rfl rfl rfl

theorem State.Kept.modPmu {f : Pmu → Pmu} (h : s₀.Kept s) : s₀.Kept (s.modPmu f) :=
  h.of_same rfl rfl rfl rfl rfl

theorem State.Kept.modRing {g : Nat} {f : Ring → Ring} (h : s₀.Kept s) : s₀.Kept (s.modRing g f) := by
  unfold State.modRing
  have := @State.Kept.modHqe
  grind

theorem State.Kept.modDom {d : Nat} {f : Dom → Dom} (h : s₀.Kept s) : s₀.Kept (s.modDom d f) := by
  unfold State.modDom
  have := @State.Kept.modHqe
  grind

theorem State.Kept.emit {o : Out} (h : s₀.Kept s) : s₀.Kept (s.emit o) :=
  h.of_same rfl rfl rfl rfl rfl

theorem State.Kept.draw (h : s₀.Kept s) : s₀.Kept s.draw :=
  h.of_same rfl rfl rfl rfl rfl

theorem State.Kept.pmuAdd {ev inst n : Nat} {cls : Option Nat} (h : s₀.Kept s) :
    s₀.Kept (s.pmuAdd ev inst n cls) := by
  unfold State.pmuAdd
  have := @State.Kept.each; have := @State.Kept.setFld; have := @State.Kept.modPmu
  grind

theorem State.Kept.alert {cause : Nat} (h : s₀.Kept s) : s₀.Kept (s.alert cause) := by
  unfold State.alert
  have := @State.Kept.wr; have := @State.Kept.setFlag
  grind

theorem State.Kept.startClock {b code : Nat} (h : s₀.Kept s) : s₀.Kept (s.startClock b code) := by
  unfold State.startClock
  have := @State.Kept.modEgv; have := @State.Kept.pmuAdd
  grind

theorem State.Kept.txPush {t : Txn} (h : s₀.Kept s) : s₀.Kept (s.txPush t) := by
  unfold State.txPush
  have := @State.Kept.modGwl
  grind

theorem State.Kept.giveCredit {cls hdr data : Nat} (h : s₀.Kept s) : s₀.Kept (s.giveCredit cls hdr data) := by
  unfold State.giveCredit
  have := @State.Kept.modHqe; have := @State.Kept.modGwl
  grind

theorem State.Kept.freeCredits (h : s₀.Kept s) : s₀.Kept s.freeCredits := by
  unfold State.freeCredits
  have := @State.Kept.modHqe; have := @State.Kept.giveCredit
  grind

/-! ### PoolOps -/

theorem State.Kept.modPool {f : Pool → Pool} (h : s₀.Kept s) : s₀.Kept (s.modPool f) :=
  h.of_same rfl rfl rfl rfl rfl

theorem State.Kept.modSeals {f : Seal → Seal} (h : s₀.Kept s) : s₀.Kept (s.modSeals f) :=
  h.of_same rfl rfl rfl rfl rfl

theorem State.Kept.modPort {p : Nat} {f : Port → Port} (h : s₀.Kept s) : s₀.Kept (s.modPort p f) :=
  h.of_same rfl rfl rfl rfl rfl

theorem State.Kept.modBlm {b : Nat} {f : Bloom → Bloom} (h : s₀.Kept s) : s₀.Kept (s.modBlm b f) :=
  h.of_same rfl rfl rfl rfl rfl

theorem State.Kept.modTf {f : Tf → Tf} (h : s₀.Kept s) : s₀.Kept (s.modTf f) :=
  h.of_same rfl rfl rfl rfl rfl

theorem State.Kept.modPrd {f : Prd → Prd} (h : s₀.Kept s) : s₀.Kept (s.modPrd f) :=
  h.of_same rfl rfl rfl rfl rfl

theorem State.Kept.modProduct {i : Nat} {f : Product → Product} (h : s₀.Kept s) : s₀.Kept (s.modProduct i f) := by
  unfold State.modProduct
  have := @State.Kept.modPrd
  grind

theorem State.Kept.modPFrame {i f : Nat} {g : PFrame → PFrame} (h : s₀.Kept s) : s₀.Kept (s.modPFrame i f g) := by
  unfold State.modPFrame
  have := @State.Kept.modProduct
  grind

theorem State.Kept.modLine {d : Nat} {f : PLine → PLine} (h : s₀.Kept s) : s₀.Kept (s.modLine d f) := by
  unfold State.modLine
  have := @State.Kept.modPool
  grind

theorem State.Kept.dropLine {d : Nat} (h : s₀.Kept s) : s₀.Kept (s.dropLine d) := by
  unfold State.dropLine
  have := @State.Kept.modPool; have := @State.Kept.modLine; have := @State.Kept.pmuAdd
  grind

theorem State.Kept.settle {d : Nat} (h : s₀.Kept s) : s₀.Kept (s.settle d) := by
  unfold State.settle
  have := @State.Kept.dropLine
  grind

theorem State.Kept.release {d prd : Nat} (h : s₀.Kept s) : s₀.Kept (s.release d prd) := by
  unfold State.release
  have := @State.Kept.modLine; have := @State.Kept.settle
  grind

theorem State.Kept.poolCorrected {n : Nat} (h : s₀.Kept s) : s₀.Kept (s.poolCorrected n) := by
  unfold State.poolCorrected
  have := @State.Kept.addTo; have := @State.Kept.setFlag
  grind

theorem State.Kept.poolRead {n st : Nat} (h : s₀.Kept s) : s₀.Kept (s.poolRead n st) := by
  unfold State.poolRead
  have := @State.Kept.poolCorrected; have := @State.Kept.pmuAdd
  grind

theorem State.Kept.showMin {st n : Nat} (h : s₀.Kept s) : s₀.Kept (s.showMin st n) := by
  unfold State.showMin
  have := @State.Kept.wr
  grind

theorem State.Kept.dropPFrameLines {i f : Nat} (h : s₀.Kept s) : s₀.Kept (s.dropPFrameLines i f) := by
  unfold State.dropPFrameLines
  have := @State.Kept.each; have := @State.Kept.dropLine; have := @State.Kept.modSeals
  grind

theorem State.Kept.dropEntry {d i : Nat} (h : s₀.Kept s) : s₀.Kept (s.dropEntry d i) := by
  unfold State.dropEntry
  have := @State.Kept.modSeals
  grind

theorem State.Kept.releaseSources {i f : Nat} (h : s₀.Kept s) : s₀.Kept (s.releaseSources i f) := by
  unfold State.releaseSources
  have := @State.Kept.each; have := @State.Kept.dropEntry; have := @State.Kept.release
  grind

theorem State.Kept.cancelTiles {i f : Nat} (h : s₀.Kept s) : s₀.Kept (s.cancelTiles i f) := by
  unfold State.cancelTiles
  have := @State.Kept.modBlm; have := @State.Kept.modPFrame; have := @State.Kept.pmuAdd; have := @State.Kept.foldl
  grind

theorem State.Kept.killFrame {i f : Nat} {host : Bool} (h : s₀.Kept s) : s₀.Kept (s.killFrame i f host) := by
  unfold State.killFrame
  have := @State.Kept.modProduct; have := @State.Kept.modPFrame; have := @State.Kept.cancelTiles
  have := @State.Kept.dropPFrameLines; have := @State.Kept.releaseSources
  grind

/-! ### Notes -/

theorem State.Kept.lupSubmit {kind src sev a0 a1 : Nat} (h : s₀.Kept s) :
    s₀.Kept (s.lupSubmit kind src sev a0 a1) := by
  unfold State.lupSubmit
  have := @State.Kept.count; have := @State.Kept.modLup
  grind

theorem State.Kept.lupWrite {r : LupRec} (h : s₀.Kept s) : s₀.Kept (s.lupWrite r) := by
  unfold State.lupWrite
  have := @State.Kept.modLup; have := @State.Kept.setFld; have := @State.Kept.pmuAdd
  grind

theorem State.Kept.lupDrain (h : s₀.Kept s) : s₀.Kept s.lupDrain := by
  unfold State.lupDrain
  have := @State.Kept.each; have := @State.Kept.lupWrite; have := @State.Kept.modLup
  grind

theorem State.Kept.signal {g : Nat} (h : s₀.Kept s) : s₀.Kept (s.signal g) := by
  unfold State.signal
  have := @State.Kept.pmuAdd; have := @State.Kept.txPush; have := @State.Kept.modRing
  grind

theorem State.Kept.signalIfCount {g : Nat} (h : s₀.Kept s) : s₀.Kept (s.signalIfCount g) := by
  unfold State.signalIfCount
  have := @State.Kept.signal
  grind

theorem State.Kept.touchCtx {g : Nat} (h : s₀.Kept s) : s₀.Kept (s.touchCtx g) := by
  unfold State.touchCtx
  have := @State.Kept.modHqe
  grind

theorem State.Kept.writePair {g : Nat} {e : Entry} (h : s₀.Kept s) : s₀.Kept (s.writePair g e).1 := by
  unfold State.writePair
  have := @State.Kept.pmuAdd; have := @State.Kept.txPush; have := @State.Kept.modRing; have := @State.Kept.signalIfCount
  have := @State.Kept.touchCtx; have := @State.Kept.count
  grind

theorem State.Kept.putEntry {g : Nat} {e : Entry} (h : s₀.Kept s) : s₀.Kept (s.putEntry g e).1 := by
  unfold State.putEntry
  have := @State.Kept.writePair; have := @State.Kept.count; have := @State.Kept.modRing
  grind

theorem State.Kept.drainCmp {g n : Nat} (h : s₀.Kept s) : s₀.Kept (s.drainCmp g n).1 := by
  induction n generalizing s with
  | zero => exact h
  | succ n ih =>
    unfold State.drainCmp
    have := @State.Kept.modRing; have := @State.Kept.writePair
    grind

theorem State.Kept.setBit64 {lo hi : RegKind} {n : Nat} (h : s₀.Kept s) : s₀.Kept (s.setBit64 lo hi n) := by
  unfold State.setBit64
  have := @State.Kept.wr
  grind

theorem State.Kept.bumpFault {src : Nat} (h : s₀.Kept s) : s₀.Kept (s.bumpFault src) := by
  unfold State.bumpFault
  have := @State.Kept.wr
  grind

theorem State.Kept.recordFF {src sev detail : Nat} (h : s₀.Kept s) : s₀.Kept (s.recordFF src sev detail) := by
  unfold State.recordFF
  have := @State.Kept.wr; have := @State.Kept.modFcl
  grind

theorem State.Kept.noteFF {src sev detail : Nat} (h : s₀.Kept s) : s₀.Kept (s.noteFF src sev detail) := by
  unfold State.noteFF
  have := @State.Kept.recordFF; have := @State.Kept.setBit64
  grind

theorem State.Kept.raiseNow {src detail : Nat} (h : s₀.Kept s) : s₀.Kept (s.raiseNow src detail).1 := by
  unfold State.raiseNow
  have := @State.Kept.pmuAdd; have := @State.Kept.bumpFault; have := @State.Kept.setBit64; have := @State.Kept.noteFF
  have := @State.Kept.lupSubmit; have := @State.Kept.when; have := @State.Kept.alert
  grind

theorem State.Kept.showNoProducts (h : s₀.Kept s) : s₀.Kept s.showNoProducts := by
  unfold State.showNoProducts
  have := @State.Kept.each; have := @State.Kept.showMin; have := @State.Kept.setFld; have := @State.Kept.setFlag
  grind

theorem State.Kept.dropHoldings (h : s₀.Kept s) : s₀.Kept s.dropHoldings := by
  unfold State.dropHoldings
  have := @State.Kept.modSeals; have := @State.Kept.each; have := @State.Kept.dropLine; have := @State.Kept.modLine
  have := @State.Kept.settle
  grind

theorem State.Kept.dropProducts (h : s₀.Kept s) : s₀.Kept s.dropProducts := by
  unfold State.dropProducts
  extract_lets u v
  have hv : s₀.Kept v := (h.each fun _ _ ht => ht.wr.wr.wr).each fun _ _ ht => ht.modRing
  exact .showNoProducts (.dropHoldings (hv.of_same rfl rfl rfl rfl rfl))

theorem State.Kept.dropTiles (h : s₀.Kept s) : s₀.Kept s.dropTiles := by
  unfold State.dropTiles
  have := @State.Kept.each; have := @State.Kept.modBlm
  grind

theorem State.Kept.dropGenerations (h : s₀.Kept s) : s₀.Kept s.dropGenerations := by
  unfold State.dropGenerations
  have := @State.Kept.modCfg; have := @State.Kept.each; have := @State.Kept.setFld; have := @State.Kept.setFlag
  grind

theorem State.Kept.disarmAll (h : s₀.Kept s) : s₀.Kept s.disarmAll := by
  unfold State.disarmAll
  have := @State.Kept.each; have := @State.Kept.setFlag; have := @State.Kept.setFld; have := @State.Kept.modFcl
  grind

theorem State.Kept.dropBridge (h : s₀.Kept s) : s₀.Kept s.dropBridge := by
  unfold State.dropBridge
  have := @State.Kept.each; have := @State.Kept.giveCredit; have := @State.Kept.modVbr
  grind

theorem State.Kept.enterSafe {cause src code : Nat} (h : s₀.Kept s) : s₀.Kept (s.enterSafe cause src code).1 := by
  unfold State.enterSafe
  split
  · exact h
  · rename_i good
    extract_lets word s₁ s₂ s₃ s₄ s₅ s₆ s₇ s₈
    have h₁ : s₀.Kept s₁ := h.trans ⟨rfl, rfl, fun _ => rfl, fun e => ⟨e.regs, fun _ => rfl, fun _ => not_not.mp (not_or.mp good).2⟩⟩
    have h₂ : s₀.Kept s₂ := h₁.when fun _ ht => ht.setFlag
    have h₃ : s₀.Kept s₃ := .dropBridge (.dropProducts (.dropGenerations (.dropTiles (.disarmAll h₂))))
    have h₅ : s₀.Kept s₅ := .alert (h₃.each fun _ _ ht => ht.startClock)
    split
    · dsimp only
      refine .modFcl ?_ rfl rfl
      exact .modLup (.setFlag (.setFlag h₅))
    · exact .setFlag (.setFlag (.when (.wr h₅) fun _ ht => .lupWrite (.lupDrain ht)))

theorem State.Kept.abandonBuf {i f : Nat} (h : s₀.Kept s) : s₀.Kept (s.abandonBuf i f).1 := by
  unfold State.abandonBuf
  have := @State.Kept.modRing
  grind

theorem State.Kept.abandon {i f : Nat} {fault : Bool} (h : s₀.Kept s) : s₀.Kept (s.abandon i f fault).1 := by
  unfold State.abandon
  have := @State.Kept.abandonBuf; have := @State.Kept.killFrame; have := @State.Kept.setFlag; have := @State.Kept.pmuAdd
  grind

theorem State.Kept.failRing {g cause idx addr : Nat} {completed : Bool} (h : s₀.Kept s) :
    s₀.Kept (s.failRing g cause idx addr completed).1 := by
  unfold State.failRing
  extract_lets r lost s₁ s₂ s₃ kept s₄ arg s₅ buf s₆ down tgt ev
  refine .ite_fst h ?_
  have h₃ : s₀.Kept s₃ := .pmuAdd (.addTo (.count (.modGwl (.modRing h))))
  have h₅ : s₀.Kept s₅ := .lupSubmit (.when h₃ fun _ ht => .modHqe (.wr (.wr (.wr ht))))
  change s₀.Kept buf.1
  unfold buf
  split
  · exact h₅.abandon
  · exact h₅

theorem State.Kept.runNote {n : Note} (h : s₀.Kept s) : s₀.Kept (s.runNote n).1 := by
  unfold State.runNote
  have := @State.Kept.putEntry; have := @State.Kept.failRing; have := @State.Kept.raiseNow
  have := @State.Kept.enterSafe
  grind

theorem State.Kept.runNotes {k : Nat} {l : List Note} (h : s₀.Kept s) : s₀.Kept (State.runNotes k l s) := by
  induction k generalizing l s with
  | zero => exact h
  | succ k ih =>
    cases l with
    | nil => exact h
    | cons n l => exact ih h.runNote

theorem State.Kept.report {l : List Note} (h : s₀.Kept s) : s₀.Kept (State.report l s) := h.runNotes

theorem State.Kept.andReport {p : State × List Note} (h : s₀.Kept p.1) : s₀.Kept (State.andReport p) := h.report

theorem State.Kept.raise {src detail : Nat} (h : s₀.Kept s) : s₀.Kept (s.raise src detail) := by
  unfold State.raise
  have := @State.Kept.report
  grind

theorem State.Kept.event {d code detail a0 a1 a2 ring : Nat} (h : s₀.Kept s) :
    s₀.Kept (s.event d code detail a0 a1 a2 ring) := by
  unfold State.event
  have := @State.Kept.report
  grind

/-! ### RegFile -/

theorem State.Kept.ldrop {path : Path} {off : Nat} (h : s₀.Kept s) : s₀.Kept (s.ldrop path off) := by
  unfold State.ldrop
  have := @State.Kept.count; have := @State.Kept.when; have := @State.Kept.wr; have := @State.Kept.raise
  grind

theorem State.Kept.writeFields {path : Path} {k : RegKind} {i j v : Nat} (h : s₀.Kept s) :
    s₀.Kept (s.writeFields path k i j v) := by
  unfold State.writeFields
  have := @State.Kept.wr; have := @State.Kept.when; have := @State.Kept.modCfg; have := @State.Kept.setFlag
  have := @State.Kept.ldrop
  grind

theorem State.Kept.applyWrites {ws : List CfgWrite} (h : s₀.Kept s) : s₀.Kept (s.applyWrites ws) := by
  unfold State.applyWrites
  have := @State.Kept.each; have := @State.Kept.wr
  grind

theorem State.Kept.commitRequest {g : Nat} (h : s₀.Kept s) : s₀.Kept (s.commitRequest g) := by
  unfold State.commitRequest
  have := @State.Kept.setFlag; have := @State.Kept.modCfg; have := @State.Kept.setFld
  grind

theorem State.Kept.discardOpen {g : Nat} (h : s₀.Kept s) : s₀.Kept (s.discardOpen g) := by
  unfold State.discardOpen
  have := @State.Kept.modCfg; have := @State.Kept.setFlag
  grind

theorem State.Kept.srcSelected (h : s₀.Kept s) : s₀.Kept s.srcSelected := by
  unfold State.srcSelected
  have := @State.Kept.when; have := @State.Kept.modTime; have := @State.Kept.setFld
  grind

theorem State.Kept.switchGen {g : Nat} (h : s₀.Kept s) : s₀.Kept (s.switchGen g) := by
  unfold State.switchGen
  split
  · exact h
  · refine .modCfg (.when (.when (.setFld (.setFld (.when (.when (.pmuAdd (.applyWrites h)) ?_) ?_))) ?_) ?_)
    · exact fun _ ht => ht.srcSelected
    · exact fun _ ht => ht.setFlag
    · exact fun _ ht => ht.setFlag
    · exact fun _ ht => ht.modEgv

theorem State.Kept.rejectGen {g rule inst : Nat} (h : s₀.Kept s) : s₀.Kept (s.rejectGen g rule inst) :=
  .event (.raise (.pmuAdd (.when (.count (.setFld h.modCfg)) fun _ ht => ht.wr)))

/-! ### Timing -/

theorem State.Kept.endPulses (h : s₀.Kept s) : s₀.Kept s.endPulses := by
  unfold State.endPulses
  have := @State.Kept.each; have := @State.Kept.emit; have := @State.Kept.modTime
  grind

theorem State.Kept.tick (h : s₀.Kept s) : s₀.Kept s.tick := by
  unfold State.tick
  have := @State.Kept.modTime; have := @State.Kept.when; have := @State.Kept.modPmu; have := @State.Kept.pmuAdd
  have := @State.Kept.modTf; have := @State.Kept.endPulses; have := @State.Kept.each; have := @State.Kept.modRas
  grind

theorem State.Kept.showTrim (h : s₀.Kept s) : s₀.Kept s.showTrim := by
  unfold State.showTrim
  have := @State.Kept.setFld
  grind

theorem State.Kept.measure {e : Int} {tm : Nat} (h : s₀.Kept s) : s₀.Kept (s.measure e tm) := by
  unfold State.measure
  have := @State.Kept.setFlag; have := @State.Kept.modTime; have := @State.Kept.showTrim
  grind

theorem State.Kept.tsyncEdge (h : s₀.Kept s) : s₀.Kept s.tsyncEdge := by
  unfold State.tsyncEdge
  have := @State.Kept.measure
  grind

theorem State.Kept.timeMessage {host : Nat} (h : s₀.Kept s) : s₀.Kept (s.timeMessage host) := by
  unfold State.timeMessage
  have := @State.Kept.measure; have := @State.Kept.modTime
  grind

theorem State.Kept.holdover (h : s₀.Kept s) : s₀.Kept s.holdover := by
  unfold State.holdover
  have := @State.Kept.setFlag; have := @State.Kept.modTime; have := @State.Kept.showTrim; have := @State.Kept.raise
  grind

theorem State.Kept.loadTod {hi : Nat} (h : s₀.Kept s) : s₀.Kept (s.loadTod hi) := by
  unfold State.loadTod
  have := @State.Kept.modTime; have := @State.Kept.setFlag
  grind

theorem State.Kept.skipTriggers {st : Nat} (h : s₀.Kept s) : s₀.Kept (s.skipTriggers st) := by
  unfold State.skipTriggers
  have := @State.Kept.modStrm
  grind

theorem State.Kept.skipAhead {st : Nat} (h : s₀.Kept s) : s₀.Kept (s.skipAhead st) := by
  unfold State.skipAhead
  have := @State.Kept.modStrm
  grind

theorem State.Kept.streamReset {st : Nat} (h : s₀.Kept s) : s₀.Kept (s.streamReset st) := by
  unfold State.streamReset
  have := @State.Kept.setFld; have := @State.Kept.when; have := @State.Kept.skipTriggers; have := @State.Kept.update
  grind

theorem State.Kept.loseLock {st : Nat} (h : s₀.Kept s) : s₀.Kept (s.loseLock st) := by
  unfold State.loseLock
  have := @State.Kept.pmuAdd; have := @State.Kept.setFld; have := @State.Kept.setFlag; have := @State.Kept.modStrm
  grind

theorem State.Kept.missFrame {st : Nat} {t : TrigFrame} (h : s₀.Kept s) : s₀.Kept (s.missFrame st t) := by
  unfold State.missFrame
  dsimp only
  (repeat' split) <;> (have := @State.Kept.setFlag; have := @State.Kept.count; have := @State.Kept.pmuAdd
                       have := @State.Kept.setFld; have := @State.Kept.loseLock; grind)

theorem State.Kept.endTrig {st f : Nat} (h : s₀.Kept s) : s₀.Kept (s.endTrig st f) := by
  unfold State.endTrig
  have := @State.Kept.modStrm
  grind

theorem State.Kept.settleMissed {st : Nat} (h : s₀.Kept s) : s₀.Kept (s.settleMissed st) := by
  unfold State.settleMissed
  have := @State.Kept.each; have := @State.Kept.missFrame; have := @State.Kept.endTrig; have := @State.Kept.modStrm
  grind

theorem State.Kept.enterTrigger {st f : Nat} {p : Int} {sent : Bool} (h : s₀.Kept s) :
    s₀.Kept (s.enterTrigger st f p sent) := by
  unfold State.enterTrigger
  have := @State.Kept.settleMissed; have := @State.Kept.each; have := @State.Kept.when; have := @State.Kept.missFrame
  have := @State.Kept.endTrig; have := @State.Kept.count; have := @State.Kept.modStrm
  grind

theorem State.Kept.pulse {st port : Nat} (h : s₀.Kept s) : s₀.Kept (s.pulse st port) := by
  unfold State.pulse
  have := @State.Kept.pmuAdd; have := @State.Kept.emit; have := @State.Kept.modTime
  grind

theorem State.Kept.issueTrigger {st : Nat} (h : s₀.Kept s) : s₀.Kept (s.issueTrigger st) := by
  unfold State.issueTrigger
  have := @State.Kept.pulse; have := @State.Kept.setFld; have := @State.Kept.modStrm; have := @State.Kept.enterTrigger
  have := @State.Kept.each
  grind

theorem State.Kept.trigger {st : Nat} (h : s₀.Kept s) : s₀.Kept (s.trigger st) := by
  unfold State.trigger
  have := @State.Kept.each; have := @State.Kept.issueTrigger
  grind

theorem State.Kept.bindFrame {st : Nat} (h : s₀.Kept s) : s₀.Kept (s.bindFrame st).1 := by
  unfold State.bindFrame
  have := @State.Kept.modStrm; have := @State.Kept.each; have := @State.Kept.enterTrigger
  grind

theorem State.Kept.stepTrigger {st : Nat} {t : TrigFrame} {sref : Int} (h : s₀.Kept s) :
    s₀.Kept (s.stepTrigger st t sref) := by
  unfold State.stepTrigger
  have := @State.Kept.modStrm
  grind

theorem State.Kept.windowOutcome {st : Nat} {sref : Option Int} {send : Int} (h : s₀.Kept s) :
    s₀.Kept (s.windowOutcome st sref send) := by
  unfold State.windowOutcome
  have := @State.Kept.when; have := @State.Kept.pmuAdd; have := @State.Kept.setFld; have := @State.Kept.modStrm
  have := @State.Kept.loseLock
  grind

theorem State.Kept.refTimed {st : Nat} {t : TrigFrame} {sref : Int} (h : s₀.Kept s) :
    s₀.Kept (s.refTimed st t sref) := by
  unfold State.refTimed
  have := @State.Kept.setFld; have := @State.Kept.modStrm; have := @State.Kept.when; have := @State.Kept.stepTrigger
  grind

theorem State.Kept.ratioTimed {st f h ref : Nat} {sref : Option Int} {send : Int} (hs : s₀.Kept s) :
    s₀.Kept (s.ratioTimed st f h ref sref send) := by
  unfold State.ratioTimed
  have := @State.Kept.setFlag; have := @State.Kept.setFld
  grind

theorem State.Kept.lineTimed {st f l : Nat} {a : Int} (h : s₀.Kept s) : s₀.Kept (s.lineTimed st f l a) := by
  unfold State.lineTimed
  have := @State.Kept.refTimed; have := @State.Kept.setFld; have := @State.Kept.ratioTimed; have := @State.Kept.endTrig
  have := @State.Kept.missFrame; have := @State.Kept.when; have := @State.Kept.windowOutcome
  grind

theorem State.Kept.trigClosed {st f : Nat} (h : s₀.Kept s) : s₀.Kept (s.trigClosed st f) := by
  unfold State.trigClosed
  have := @State.Kept.settleMissed; have := @State.Kept.modStrm
  grind

theorem State.Kept.freeFrames {n : Nat} (h : s₀.Kept s) : s₀.Kept (s.freeFrames n) := by
  unfold State.freeFrames
  have := @State.Kept.each; have := @State.Kept.count
  grind

theorem State.Kept.unlockLimit {st : Nat} (h : s₀.Kept s) : s₀.Kept (s.unlockLimit st) := by
  unfold State.unlockLimit
  have := @State.Kept.modStrm; have := @State.Kept.raise
  grind

theorem State.Kept.boundaryRecord {n : Nat} (h : s₀.Kept s) : s₀.Kept (s.boundaryRecord n) := by
  unfold State.boundaryRecord
  have := @State.Kept.modRas
  grind

theorem State.Kept.recordPeff {n : Nat} (h : s₀.Kept s) : s₀.Kept (s.recordPeff n) := by
  unfold State.recordPeff
  have := @State.Kept.modRas
  grind

theorem State.Kept.beginJump {n : Nat} {j : Int} (h : s₀.Kept s) : s₀.Kept (s.beginJump n j) := by
  unfold State.beginJump
  have := @State.Kept.modRas; have := @State.Kept.setFlag
  grind

theorem State.Kept.phaseAlign {n : Nat} {stop : Bool} (h : s₀.Kept s) : s₀.Kept (s.phaseAlign n stop) := by
  unfold State.phaseAlign
  extract_lets fr per r jumps s₁ t er s₂ lim
  have h₁ : s₀.Kept s₁ := h.modRas
  have h₂ : s₀.Kept s₂ := h₁.setFlag
  refine .ite h₁.modRas (.ite (.ite h₂ (.ite (.beginJump h₂.modRas) h₂.modRas)) (.ite h₁.beginJump h₁))

theorem State.Kept.alignFrame {n : Nat} {stop jumped : Bool} (h : s₀.Kept s) :
    s₀.Kept (s.alignFrame n stop jumped) := by
  unfold State.alignFrame
  have := @State.Kept.phaseAlign; have := @State.Kept.recordPeff; have := @State.Kept.each
  have := @State.Kept.skipAhead
  grind

theorem State.Kept.rasterBegin {n f : Nat} (h : s₀.Kept s) : s₀.Kept (s.rasterBegin n f) := by
  unfold State.rasterBegin
  have := @State.Kept.modRas; have := @State.Kept.modCfg; have := @State.Kept.setFlag
  have := @State.Kept.boundaryRecord
  grind

theorem State.Kept.advanceLine {n : Nat} (h : s₀.Kept s) : s₀.Kept (s.advanceLine n) := by
  unfold State.advanceLine
  have := @State.Kept.modRas; have := @State.Kept.boundaryRecord
  grind

theorem State.Kept.rasterHalt {n : Nat} (h : s₀.Kept s) : s₀.Kept (s.rasterHalt n) := by
  unfold State.rasterHalt
  have := @State.Kept.modRas
  grind

/-! ### Frames -/

theorem State.Kept.ledgerFor {d : Nat} (h : s₀.Kept s) : s₀.Kept (s.ledgerFor d) := by
  unfold State.ledgerFor
  have := @State.Kept.modSeals
  grind

theorem State.Kept.dropByClass {i f cause : Nat} (h : s₀.Kept s) : s₀.Kept (s.dropByClass i f cause).1 := by
  unfold State.dropByClass
  have := @State.Kept.abandonBuf; have := @State.Kept.killFrame; have := @State.Kept.setFld
  grind

theorem State.Kept.markInvalid {i f : Nat} (h : s₀.Kept s) : s₀.Kept (s.markInvalid i f) := by
  unfold State.markInvalid
  have := @State.Kept.modPFrame
  grind

theorem State.Kept.loseLine {i st f : Nat} (h : s₀.Kept s) : s₀.Kept (s.loseLine i st f).1 := by
  unfold State.loseLine
  have := @State.Kept.markInvalid; have := @State.Kept.dropByClass; have := @State.Kept.foldl_fst
  grind

theorem State.Kept.closeIfDone {i f : Nat} (h : s₀.Kept s) : s₀.Kept (s.closeIfDone i f) := by
  unfold State.closeIfDone
  have := @State.Kept.modPFrame
  grind

/-! ### Lines -/

theorem State.Kept.modOpen {p e : Nat} {f : OpenFrame → OpenFrame} (h : s₀.Kept s) : s₀.Kept (s.modOpen p e f) := by
  unfold State.modOpen
  have := @State.Kept.modPort
  grind

theorem State.Kept.invalidateOpen {p e : Nat} (h : s₀.Kept s) : s₀.Kept (s.invalidateOpen p e) := by
  unfold State.invalidateOpen
  have := @State.Kept.modOpen; have := @State.Kept.count
  grind

theorem State.Kept.limitSubst {p e : Nat} (h : s₀.Kept s) : s₀.Kept (s.limitSubst p e) := by
  unfold State.limitSubst
  have := @State.Kept.when; have := @State.Kept.invalidateOpen
  grind

theorem State.Kept.noteSubst {st f l : Nat} (h : s₀.Kept s) : s₀.Kept (s.noteSubst st f l) := by
  unfold State.noteSubst
  have := @State.Kept.count; have := @State.Kept.pmuAdd; have := @State.Kept.modOpen; have := @State.Kept.limitSubst
  have := @State.Kept.modStrm
  grind

theorem State.Kept.notePeak {c : Nat} (h : s₀.Kept s) : s₀.Kept (s.notePeak c) := by
  unfold State.notePeak
  have := @State.Kept.setFld
  grind

theorem State.Kept.putLine {l : PLine} (h : s₀.Kept s) : s₀.Kept (s.putLine l).1 := by
  unfold State.putLine
  have := @State.Kept.modPool; have := @State.Kept.notePeak
  grind

theorem State.Kept.migrate {d : Nat} {l : PLine} (h : s₀.Kept s) : s₀.Kept (s.migrate d l).1 := by
  unfold State.migrate
  have := @State.Kept.modLine; have := @State.Kept.notePeak; have := @State.Kept.pmuAdd; have := @State.Kept.loseLine
  have := @State.Kept.release; have := @State.Kept.modSeals; have := @State.Kept.settle; have := @State.Kept.setFlag
  have := @State.Kept.count; have := @State.Kept.foldl_fst
  grind

theorem State.Kept.migrateFor {k st g : Nat} (h : s₀.Kept s) : s₀.Kept (State.migrateFor k st g s).1 := by
  induction k generalizing s with
  | zero => exact h
  | succ k ih =>
    unfold State.migrateFor
    have := @State.Kept.migrate
    grind

theorem State.Kept.claimPort {p st g : Nat} {zone : Zone} (h : s₀.Kept s) : s₀.Kept (s.claimPort p st g zone).1 := by
  unfold State.claimPort
  have := @State.Kept.modPort; have := @State.Kept.pmuAdd
  grind

theorem State.Kept.place {p st g : Nat} (h : s₀.Kept s) : s₀.Kept (s.place p st g).1 := by
  unfold State.place
  have := @State.Kept.migrateFor; have := @State.Kept.claimPort
  grind

theorem State.Kept.tfSubstitute {st f l i : Nat} (h : s₀.Kept s) : s₀.Kept (s.tfSubstitute st f l i) := by
  unfold State.tfSubstitute
  have := @State.Kept.modLine; have := @State.Kept.noteSubst; have := @State.Kept.putLine; have := @State.Kept.setFlag
  have := @State.Kept.pmuAdd
  grind

theorem State.Kept.dropHold {st f l : Nat} (h : s₀.Kept s) : s₀.Kept (s.dropHold st f l) := by
  unfold State.dropHold
  have := @State.Kept.modLine; have := @State.Kept.settle
  grind

theorem State.Kept.stitchTake {l : PLine} (h : s₀.Kept s) : s₀.Kept (s.stitchTake l) := by
  unfold State.stitchTake
  have := @State.Kept.each; have := @State.Kept.modProduct
  grind

theorem State.Kept.publish {d : Nat} (h : s₀.Kept s) : s₀.Kept (s.publish d) := by
  unfold State.publish
  have := @State.Kept.modLine; have := @State.Kept.ledgerFor; have := @State.Kept.pmuAdd; have := @State.Kept.stitchTake
  have := @State.Kept.when; have := @State.Kept.dropHold; have := @State.Kept.settle
  grind

theorem State.Kept.publishStream {k st : Nat} (h : s₀.Kept s) : s₀.Kept (State.publishStream k st s) := by
  induction k generalizing s with
  | zero => exact h
  | succ k ih =>
    unfold State.publishStream
    have := @State.Kept.publish
    grind

theorem State.Kept.publishAll {st : Nat} (h : s₀.Kept s) : s₀.Kept (s.publishAll st) := by
  unfold State.publishAll
  have := @State.Kept.publishStream
  grind

theorem State.Kept.refuse {p e : Nat} {o : OpenFrame} {l : Nat} {late : Bool} (h : s₀.Kept s) :
    s₀.Kept (s.refuse p e o l late).1 := by
  unfold State.refuse
  have := @State.Kept.setFlag; have := @State.Kept.count; have := @State.Kept.pmuAdd; have := @State.Kept.when
  have := @State.Kept.invalidateOpen; have := @State.Kept.each; have := @State.Kept.tfSubstitute
  have := @State.Kept.loseLine; have := @State.Kept.dropHold; have := @State.Kept.foldl_fst
  grind

theorem State.Kept.storeSubst {p e : Nat} {o : OpenFrame} {l flags : Nat} {zone : Zone} {grans : List Nat} (h : s₀.Kept s) :
    s₀.Kept (s.storeSubst p e o l flags zone grans) := by
  unfold State.storeSubst
  have := @State.Kept.noteSubst; have := @State.Kept.putLine; have := @State.Kept.setFlag; have := @State.Kept.pmuAdd
  grind

/-! ### Resources -/

theorem State.Kept.recomputeMin (h : s₀.Kept s) : s₀.Kept s.recomputeMin := by
  unfold State.recomputeMin
  have := @State.Kept.each; have := @State.Kept.showMin
  grind

theorem State.Kept.showLoads (h : s₀.Kept s) : s₀.Kept s.showLoads := by
  unfold State.showLoads
  have := @State.Kept.each; have := @State.Kept.setFld
  grind

theorem State.Kept.recomputeDemand (h : s₀.Kept s) : s₀.Kept s.recomputeDemand := by
  unfold State.recomputeDemand
  have := @State.Kept.each; have := @State.Kept.setFld
  grind

theorem State.Kept.showProduct {i : Nat} (h : s₀.Kept s) : s₀.Kept (s.showProduct i) := by
  unfold State.showProduct
  have := @State.Kept.setFlag; have := @State.Kept.setFld
  grind

theorem State.Kept.showResources (h : s₀.Kept s) : s₀.Kept s.showResources := by
  unfold State.showResources
  have := @State.Kept.recomputeMin; have := @State.Kept.showLoads; have := @State.Kept.recomputeDemand
  have := @State.Kept.setFlag; have := @State.Kept.setFld
  grind

/-! ### FstMem -/

theorem State.Kept.putRow {k : Nat} {b : List Byte} (h : s₀.Kept s) : s₀.Kept (s.putRow k b) := by
  unfold State.putRow
  have := @State.Kept.modFst
  grind

theorem State.Kept.putRows {ks : List Nat} {b : List Byte} (h : s₀.Kept s) : s₀.Kept (s.putRows ks b) := by
  unfold State.putRows
  have := @State.Kept.each; have := @State.Kept.putRow
  grind

theorem State.Kept.placeTable {i h : Nat} {area : List Byte} (hs : s₀.Kept s) : s₀.Kept (s.placeTable i h area) := by
  unfold State.placeTable
  have := @State.Kept.modProduct; have := @State.Kept.putRows
  grind

theorem State.Kept.dropWork {i : Nat} (h : s₀.Kept s) : s₀.Kept (s.dropWork i) := by
  unfold State.dropWork
  have := @State.Kept.modFst
  grind

/-! ### Output -/

theorem State.Kept.noteReject {c : PrdCmd} {status detail : Nat} (h : s₀.Kept s) :
    s₀.Kept (s.noteReject c status detail) := by
  unfold State.noteReject
  have := @State.Kept.wr
  grind

theorem State.Kept.finishPrd {c : PrdCmd} {status detail arg n : Nat} (h : s₀.Kept s) :
    s₀.Kept (s.finishPrd c status detail arg n).1 := by
  unfold State.finishPrd
  have := @State.Kept.when; have := @State.Kept.noteReject; have := @State.Kept.setFlag
  grind

theorem State.Kept.resetDone {d : Nat} (h : s₀.Kept s) : s₀.Kept (s.resetDone d).1 := by
  unfold State.resetDone
  have := @State.Kept.modDom
  grind

theorem State.Kept.freeProduct {i : Nat} (h : s₀.Kept s) : s₀.Kept (s.freeProduct i).1 := by
  unfold State.freeProduct
  extract_lets q n d s₁ s₂ s₃ s₄ s₅ s₆ s₇ s₈ r₁ r₂ r₃
  have h₃ : s₀.Kept s₃ := .modSeals (.each (.each h fun _ _ ht => ht.cancelTiles.dropPFrameLines) fun _ _ ht => ht.dropLine)
  have h₆ : s₀.Kept s₆ := .when (.dropWork (.each h₃ fun _ _ ht => ht.release)) fun _ ht => ht.modRing
  have h₈ : s₀.Kept s₈ := .showResources (.modPrd (.wr (.wr (.wr h₆))))
  have hr₁ : s₀.Kept r₁.1 := by (have := @State.Kept.finishPrd; grind)
  have hr₂ : s₀.Kept r₂.1 := .foldl_fst hr₁ fun _ _ ht => by (have := @State.Kept.finishPrd; have := @State.Kept.modProduct
                                                              grind)
  exact hr₂.resetDone

theorem State.Kept.freeIfDone {i : Nat} (h : s₀.Kept s) : s₀.Kept (s.freeIfDone i).1 := by
  unfold State.freeIfDone
  have := @State.Kept.freeProduct
  grind

theorem State.Kept.tryFrees (h : s₀.Kept s) : s₀.Kept s.tryFrees := by
  unfold State.tryFrees
  have := @State.Kept.each; have := @State.Kept.andReport; have := @State.Kept.freeIfDone
  grind

theorem State.Kept.publishPrd {k i f : Nat} (h : s₀.Kept s) : s₀.Kept (State.publishPrd k i f s) := by
  induction k generalizing s with
  | zero => exact h
  | succ k ih =>
    unfold State.publishPrd
    dsimp only
    (repeat' split) <;> (have := @State.Kept.modPFrame; have := @State.Kept.modLine; grind)

theorem State.Kept.publishFrame {i f : Nat} (h : s₀.Kept s) : s₀.Kept (s.publishFrame i f) := by
  unfold State.publishFrame
  have := @State.Kept.publishPrd
  grind

theorem State.Kept.publishStat {i f : Nat} {op : OpDesc} {n : Nat} (h : s₀.Kept s) :
    s₀.Kept (State.publishStat i f op n s) := by
  induction n generalizing s with
  | zero => exact h
  | succ n ih =>
    -- One step by `whnf`: the equation that `unfold` makes would run the 128 tries of `takeGrans`.
    conv => arg 2; whnf
    dsimp only
    (repeat' split) <;> (have := @State.Kept.putLine; have := @State.Kept.modPool; have := @State.Kept.modPFrame; grind)

theorem State.Kept.finishRefs {i f : Nat} {bad : Bool} (h : s₀.Kept s) : s₀.Kept (s.finishRefs i f bad) := by
  unfold State.finishRefs
  have := @State.Kept.modProduct
  grind

theorem State.Kept.frameEnd {i f : Nat} (h : s₀.Kept s) : s₀.Kept (s.frameEnd i f).1 := by
  unfold State.frameEnd
  split
  · exact h
  · dsimp only
    split
    · have := @State.Kept.closeIfDone; have := @State.Kept.releaseSources; have := @State.Kept.modProduct
      have := @State.Kept.freeIfDone
      grind
    · have pub : s₀.Kept ((s.closeIfDone i f).publishFrame i f) := h.closeIfDone.publishFrame
      split
      · exact pub
      · refine .ite_fst pub ?_
        have stat : s₀.Kept (match (pdbChain (PFrame.pdb ‹_›)).find? (fun d => opCode d == 0x0D) with
            | some op => ((s.closeIfDone i f).publishFrame i f).publishStat i f op 64
            | none => (s.closeIfDone i f).publishFrame i f) := by
          split
          · exact pub.publishStat
          · exact pub
        refine .ite_fst (.freeIfDone (.pmuAdd (.modProduct (.setFld (.finishRefs (.dropPFrameLines (.releaseSources stat))))))) stat

theorem State.Kept.tryEnd {i f : Nat} (h : s₀.Kept s) : s₀.Kept (s.tryEnd i f) := by
  unfold State.tryEnd
  have := @State.Kept.andReport; have := @State.Kept.frameEnd
  grind

theorem State.Kept.tryEnds {i : Nat} (h : s₀.Kept s) : s₀.Kept (s.tryEnds i) := by
  unfold State.tryEnds
  have := @State.Kept.each; have := @State.Kept.tryEnd
  grind

theorem State.Kept.retryCommits (h : s₀.Kept s) : s₀.Kept s.retryCommits := by
  unfold State.retryCommits
  have := @State.Kept.each; have := @State.Kept.switchGen; have := @State.Kept.showResources
  grind

/-! ### Seals -/

theorem State.Kept.sealFail {unit : Nat} {cnt : Fld} {st prd line frame stored computed : Nat} (h : s₀.Kept s) :
    s₀.Kept (s.sealFail unit cnt st prd line frame stored computed).1 := by
  unfold State.sealFail
  have := @State.Kept.count; have := @State.Kept.pmuAdd; have := @State.Kept.when; have := @State.Kept.wr
  have := @State.Kept.modSeals
  grind

theorem State.Kept.setCtx {u k : Nat} {c : SealCtx} (h : s₀.Kept s) : s₀.Kept (s.setCtx u k c) := by
  unfold State.setCtx
  have := @State.Kept.modSeals
  grind

theorem State.Kept.openCtx {u : Nat} {cs : List SealCtx} (h : s₀.Kept s) : s₀.Kept (s.openCtx u cs) := by
  unfold State.openCtx
  have := @State.Kept.each; have := @State.Kept.setCtx
  grind

theorem State.Kept.closeCtx {u : Nat} (h : s₀.Kept s) : s₀.Kept (s.closeCtx u) := by
  unfold State.closeCtx
  have := @State.Kept.modSeals
  grind

theorem State.Kept.sealAccess (h : s₀.Kept s) : s₀.Kept s.sealAccess := by
  unfold State.sealAccess
  have := @State.Kept.setCtx; have := @State.Kept.each; have := @State.Kept.wr; have := @State.Kept.setFlag
  grind

/-! ### Reads -/

theorem State.Kept.windowRefused {d : Nat} (h : s₀.Kept s) : s₀.Kept (s.windowRefused d) := by
  unfold State.windowRefused
  have := @State.Kept.count; have := @State.Kept.pmuAdd
  grind

theorem State.Kept.pushReads {org : Org} {d cls id : Nat} {ex : List (Nat × Nat)} (h : s₀.Kept s) :
    s₀.Kept (s.pushReads org d cls id ex) := by
  unfold State.pushReads
  have := @State.Kept.each; have := @State.Kept.txPush
  grind

theorem State.Kept.pushWrites {org : Org} {d cls addr : Nat} {data : List Byte} {ro : Bool} {ends : Option (Nat × Nat × Nat)} {n : Nat} {ex : List
    (Nat × Nat)} (h : s₀.Kept s) :
    s₀.Kept (s.pushWrites org d cls addr data ro ends n ex) := by
  unfold State.pushWrites
  have := @State.Kept.each; have := @State.Kept.txPush
  grind

theorem State.Kept.readHost {t : State} {org : Org} {d cls addr len : Nat}
    (h : s₀.Kept s) (e : s.readHost org d cls addr len = some t) :
    s₀.Kept t := by
  unfold State.readHost at e
  have := @State.Kept.modGwl; have := @State.Kept.pushReads
  grind

theorem State.Kept.readRefused {org : Org} {d cls addr len : Nat} (h : s₀.Kept s) :
    s₀.Kept (s.readRefused org d cls addr len) := by
  unfold State.readRefused
  have := @State.Kept.modGwl; have := @State.Kept.pushReads; have := @State.Kept.windowRefused
  grind

theorem State.Kept.writeHost {t : State} {org : Org} {d cls addr : Nat} {data : List Byte} {ro : Bool} {ends : Option (Nat × Nat × Nat)}
    (h : s₀.Kept s) (e : s.writeHost org d cls addr data ro ends = some t) : s₀.Kept t := by
  unfold State.writeHost at e
  have := @State.Kept.modGwl; have := @State.Kept.pushWrites
  grind

theorem State.Kept.writeRefused {org : Org} {d cls addr : Nat} {data : List Byte} {ro : Bool} (h : s₀.Kept s) :
    s₀.Kept (s.writeRefused org d cls addr data ro) := by
  unfold State.writeRefused
  have := @State.Kept.pushWrites; have := @State.Kept.windowRefused
  grind

theorem State.Kept.writeEach {org : Org} {d cls : Nat} {l : List (Nat × List Byte)} (h : s₀.Kept s) :
    s₀.Kept (State.writeEach org d cls l s).1 := by
  induction l generalizing s with
  | nil => exact h
  | cons x l ih =>
    unfold State.writeEach
    have := @State.Kept.writeHost; have := @State.Kept.writeRefused
    grind

theorem State.Kept.answer {t : HostTxn} {status : Nat} {data : List Byte} {e : Option OpenRead} (h : s₀.Kept s) :
    s₀.Kept (s.answer t status data e) := by
  unfold State.answer
  have := @State.Kept.each; have := @State.Kept.txPush
  grind

theorem State.Kept.dropJobs {k : OrgKind} {g : Nat} (h : s₀.Kept s) : s₀.Kept (s.dropJobs k g) := by
  unfold State.dropJobs
  have := @State.Kept.modGwl
  grind

/-! ### Tiles -/

theorem State.Kept.carryOn {i : Nat} {q : PFrame} {r : Nat} (h : s₀.Kept s) : s₀.Kept (s.carryOn i q r) := by
  unfold State.carryOn
  have := @State.Kept.modPFrame
  grind

theorem State.Kept.stitchBranch {i b f : Nat} (h : s₀.Kept s) : s₀.Kept (s.stitchBranch i b f) := by
  unfold State.stitchBranch
  have := @State.Kept.modProduct
  grind

theorem State.Kept.stitchClose {st f : Nat} (h : s₀.Kept s) : s₀.Kept (s.stitchClose st f) := by
  unfold State.stitchClose
  have := @State.Kept.each; have := @State.Kept.stitchBranch
  grind

theorem State.Kept.beginRefs {i f : Nat} {pdb : List Byte} (h : s₀.Kept s) : s₀.Kept (s.beginRefs i f pdb) := by
  unfold State.beginRefs
  have := @State.Kept.each; have := @State.Kept.modProduct; have := @State.Kept.when; have := @State.Kept.modPFrame
  grind

theorem State.Kept.writeRefs {i : Nat} {q : PFrame} {t : Tile} (h : s₀.Kept s) : s₀.Kept (s.writeRefs i q t) := by
  unfold State.writeRefs
  have := @State.Kept.each; have := @State.Kept.modProduct
  grind

theorem State.Kept.flushRefs {i : Nat} {q : PFrame} {r : Nat} (h : s₀.Kept s) : s₀.Kept (s.flushRefs i q r) := by
  unfold State.flushRefs
  have := @State.Kept.each; have := @State.Kept.modProduct
  grind

theorem State.Kept.addStat {i : Nat} {q : PFrame} {t : Tile} (h : s₀.Kept s) : s₀.Kept (s.addStat i q t) := by
  unfold State.addStat
  have := @State.Kept.modPFrame
  grind

theorem State.Kept.putSample {r : List Byte} (h : s₀.Kept s) : s₀.Kept (s.putSample r) := by
  unfold State.putSample
  have := @State.Kept.modPmu; have := @State.Kept.setFld; have := @State.Kept.when; have := @State.Kept.setFlag
  have := @State.Kept.count
  grind

theorem State.Kept.nextInterval (h : s₀.Kept s) : s₀.Kept s.nextInterval := by
  unfold State.nextInterval
  have := @State.Kept.modPmu; have := @State.Kept.draw
  grind

theorem State.Kept.samplePass {petal : Nat} {t : Tile} {p : Pass} (h : s₀.Kept s) :
    s₀.Kept (s.samplePass petal t p) := by
  unfold State.samplePass
  grind [State.Kept.nextInterval, State.Kept.modPmu, State.Kept.draw, State.Kept.putSample]

theorem State.Kept.passesEnd {petal : Nat} {t : Tile} {ps : List Pass} (h : s₀.Kept s) :
    s₀.Kept (s.passesEnd petal t ps) := by
  unfold State.passesEnd
  have := @State.Kept.each; have := @State.Kept.pmuAdd; have := @State.Kept.when; have := @State.Kept.samplePass
  grind

/-! ### Bloom -/

theorem State.Kept.noteBacklog {b : Nat} (h : s₀.Kept s) : s₀.Kept (s.noteBacklog b) := by
  unfold State.noteBacklog
  have := @State.Kept.setFld; have := @State.Kept.when
  grind

theorem State.Kept.enqueue {b : Nat} {t : Tile} (h : s₀.Kept s) : s₀.Kept (s.enqueue b t) := by
  unfold State.enqueue
  have := @State.Kept.modBlm; have := @State.Kept.noteBacklog
  grind

theorem State.Kept.refill {b : Nat} (h : s₀.Kept s) : s₀.Kept (s.refill b) := by
  unfold State.refill
  have := @State.Kept.modBlm
  grind

theorem State.Kept.takeTile {b : Nat} {t : Tile} (h : s₀.Kept s) : s₀.Kept (s.takeTile b t) := by
  unfold State.takeTile
  have := @State.Kept.modBlm; have := @State.Kept.refill
  grind

theorem State.Kept.addFrag {d i : Nat} {output : Bool} {fr : Fragment} (h : s₀.Kept s) :
    s₀.Kept (s.addFrag d i output fr) := by
  unfold State.addFrag
  have := @State.Kept.modSeals
  grind

theorem State.Kept.reportFrags {i : Nat} {q : PFrame} {t : Tile} (h : s₀.Kept s) : s₀.Kept (s.reportFrags i q t) := by
  unfold State.reportFrags
  have := @State.Kept.each; have := @State.Kept.addFrag
  grind

theorem State.Kept.stage {t : Tile} (h : s₀.Kept s) : s₀.Kept (s.stage t).1 := by
  unfold State.stage
  have := @State.Kept.reportFrags; have := @State.Kept.pmuAdd
  grind

theorem State.Kept.payTile {b : Nat} {t : Tile} (h : s₀.Kept s) : s₀.Kept (s.payTile b t) := by
  unfold State.payTile
  have := @State.Kept.modBlm; have := @State.Kept.pmuAdd
  grind

theorem State.Kept.startTile {b k : Nat} {t : Tile} (h : s₀.Kept s) : s₀.Kept (s.startTile b k t) := by
  unfold State.startTile
  extract_lets
  have := @State.Kept.stage; have := @State.Kept.payTile; have := @State.Kept.openCtx; have := @State.Kept.when
  have := @State.Kept.pmuAdd; have := @State.Kept.modBlm; have := @State.Kept.modTf
  grind

theorem State.Kept.preempt {b : Nat} {t : Tile} (h : s₀.Kept s) : s₀.Kept (s.preempt b t) := by
  unfold State.preempt
  extract_lets x slow full held
  refine .ite h ?_
  split
  · exact h
  · exact .startTile (.takeTile (.when (.pmuAdd (.count (.closeCtx h.modBlm))) fun _ ht => ht.pmuAdd))

theorem State.Kept.preemptAll {b n : Nat} (h : s₀.Kept s) : s₀.Kept (State.preemptAll b n s) := by
  induction n generalizing s with
  | zero => exact h
  | succ n ih =>
    unfold State.preemptAll
    have := @State.Kept.preempt
    grind

theorem State.Kept.pushFast {b : Nat} {t : Tile} (h : s₀.Kept s) : s₀.Kept (s.pushFast b t) := by
  unfold State.pushFast
  have := @State.Kept.modBlm; have := @State.Kept.preempt
  grind

theorem State.Kept.claimOut {t : State} {i : Nat} {q : PFrame} {l : List Nat}
    (h : s₀.Kept s) (e : State.claimOut i q l s = some t) :
    s₀.Kept t := by
  induction l generalizing s with
  | nil => exact Option.some.inj e ▸ h
  | cons n l ih =>
    unfold State.claimOut at e
    have := @State.Kept.putLine; have := @State.Kept.modPool; have := @State.Kept.modSeals
    grind

theorem State.Kept.noRoom {i : Nat} {q : PFrame} (h : s₀.Kept s) : s₀.Kept (s.noRoom i q).1 := by
  unfold State.noRoom
  have := @State.Kept.abandon; have := @State.Kept.modPFrame; have := @State.Kept.when; have := @State.Kept.setFlag
  have := @State.Kept.dropByClass
  grind

theorem State.Kept.lateLines {i : Nat} {q : PFrame} {r : Nat} (h : s₀.Kept s) : s₀.Kept (s.lateLines i q r) := by
  unfold State.lateLines
  have := @State.Kept.each; have := @State.Kept.tfSubstitute
  grind

theorem State.Kept.takeStages {i : Nat} {q : PFrame} (h : s₀.Kept s) : s₀.Kept (s.takeStages i q) := by
  unfold State.takeStages
  have := @State.Kept.modPFrame
  grind

theorem State.Kept.wakeBloom {b : Nat} (h : s₀.Kept s) : s₀.Kept (s.wakeBloom b) := by
  unfold State.wakeBloom
  have := @State.Kept.startClock
  grind

theorem State.Kept.emitTile {i : Nat} {q : PFrame} (h : s₀.Kept s) : s₀.Kept (s.emitTile i q) := by
  unfold State.emitTile
  extract_lets fast r c s₁ s₂ srcs s₃ q₁ n d b cls t t₁ s₄ s₅ s₆
  have h₂ : s₀.Kept s₂ := (h.when fun _ ht => ht.lateLines).when fun _ ht => ht.beginRefs.takeStages.modProduct
  have h₅ : s₀.Kept s₅ := .pmuAdd (.wakeBloom (.modTf h₂.modPFrame))
  exact .closeIfDone (.ite h₅.pushFast h₅.enqueue)

theorem doTileEmit_kept (h : s₀.Kept s) : s₀.Kept (doTileEmit s) := by
  unfold doTileEmit
  have := @State.Kept.andReport; have := @State.Kept.abandon; have := @State.Kept.claimOut; have := @State.Kept.emitTile
  have := @State.Kept.noRoom; have := @State.Kept.publishFrame; have := @State.Kept.tryEnds
  have := @State.Kept.retryCommits
  grind

theorem doTileStage_kept {b k n : Nat} (h : s₀.Kept s) : s₀.Kept (doTileStage b k n s) := by
  unfold doTileStage
  have := @State.Kept.poolRead; have := @State.Kept.stage; have := @State.Kept.modBlm
  grind

theorem State.Kept.steal {b k : Nat} (h : s₀.Kept s) : s₀.Kept (s.steal b k) := by
  unfold State.steal
  split
  · exact h
  · refine .ite h ?_
    extract_lets n p s₁ s₂ s₃
    exact .ite (.ite h h.count.modTf) (.startTile (.pmuAdd (.pmuAdd (.count (.count h.modTf.takeTile)))))

theorem doPetalPick_kept {p : Nat} (h : s₀.Kept s) : s₀.Kept (doPetalPick p s) := by
  unfold doPetalPick
  have := @State.Kept.when; have := @State.Kept.pmuAdd; have := @State.Kept.takeTile; have := @State.Kept.startTile
  have := @State.Kept.steal
  grind

theorem doCrossBloomSteal_kept {p : Nat} (h : s₀.Kept s) : s₀.Kept (doCrossBloomSteal p s) := by
  unfold doCrossBloomSteal
  have := @State.Kept.steal
  grind

theorem State.Kept.leavePetal {p : Nat} (h : s₀.Kept s) : s₀.Kept (s.leavePetal p) := by
  unfold State.leavePetal
  have := @State.Kept.modBlm; have := @State.Kept.closeCtx
  grind

theorem State.Kept.runAgain {t : Tile} (h : s₀.Kept s) : s₀.Kept (s.runAgain t) := by
  unfold State.runAgain
  have := @State.Kept.pushFast
  grind

theorem State.Kept.rerun {petal : Nat} {t : Tile} {bad : List (Nat × Nat × Nat × PLine)} (h : s₀.Kept s) :
    s₀.Kept (s.rerun petal t bad) := by
  unfold State.rerun
  have := @State.Kept.sealFail; have := @State.Kept.tfSubstitute; have := @State.Kept.modLine
  have := @State.Kept.andReport; have := @State.Kept.runAgain; have := @State.Kept.foldl_fst
  grind

theorem State.Kept.stageSealFails {petal : Nat} {t : Tile} {fs : List StageFail} (h : s₀.Kept s) :
    s₀.Kept (s.stageSealFails petal t fs) := by
  unfold State.stageSealFails
  have := @State.Kept.each; have := @State.Kept.andReport; have := @State.Kept.pmuAdd; have := @State.Kept.sealFail
  grind

theorem State.Kept.secondRun {petal : Nat} {t : Tile} (h : s₀.Kept s) : s₀.Kept (s.secondRun petal t) := by
  unfold State.secondRun
  have := @State.Kept.leavePetal; have := @State.Kept.modPFrame; have := @State.Kept.runAgain
  have := @State.Kept.modBlm; have := @State.Kept.startTile
  grind

theorem State.Kept.writeOut {i : Nat} {q : PFrame} {t : Tile} {g : Img} {c : SealCtx} {flags : Nat} {arr : Pos} {n : Nat} (h : s₀.Kept s) :
    s₀.Kept (s.writeOut i q t g c flags arr n) := by
  unfold State.writeOut
  have := @State.Kept.modLine; have := @State.Kept.addFrag
  grind

theorem State.Kept.finishTile {p i : Nat} {q : PFrame} {t : Tile} {stageBad : Bool} (h : s₀.Kept s) :
    s₀.Kept (s.finishTile p i q t stageBad) := by
  unfold State.finishTile
  extract_lets ns done ff bad base g u u₁ u₂ u₃ u₄
  have hdone {v : State} (hv : s₀.Kept v) : s₀.Kept (done v) := hv.modPFrame
  have h₁ : s₀.Kept u₁ := .modPFrame (.writeRefs (.addStat (h.each fun _ _ ht => ht.writeOut)))
  have h₃ : s₀.Kept u₃ := (h₁.when fun _ ht => ht.flushRefs).when fun _ ht => ht.carryOn
  refine .ite (hdone (h.each fun _ _ ht => ?_)) (hdone (h₃.when fun _ ht => ht.markInvalid))
  split
  · exact ht.dropLine
  · exact ht

theorem State.Kept.tileEnds {p : Nat} {q : PFrame} {t : Tile} {us : List StageUpset} (h : s₀.Kept s) :
    s₀.Kept (s.tileEnds p q t us) := by
  unfold State.tileEnds
  have := @State.Kept.passesEnd; have := @State.Kept.leavePetal; have := @State.Kept.rerun
  have := @State.Kept.stageSealFails; have := @State.Kept.secondRun; have := @State.Kept.finishTile
  grind

theorem doTileComplete_kept {p : Nat} {us : List StageUpset} {n : Nat} (h : s₀.Kept s) :
    s₀.Kept (doTileComplete p us n s) := by
  unfold doTileComplete
  dsimp only
  (repeat' split) <;> (have := @State.Kept.leavePetal; have := @State.Kept.modPFrame; have := @State.Kept.poolRead
                       have := @State.Kept.tileEnds; have := @State.Kept.publishFrame; have := @State.Kept.tryEnds
                       have := @State.Kept.retryCommits; grind)

theorem State.Kept.outVerdict {e : LedgerEnt} {l : PLine} {spent : Bool} (h : s₀.Kept s) :
    s₀.Kept (s.outVerdict e l spent).1 := by
  unfold State.outVerdict
  have := @State.Kept.modLine; have := @State.Kept.count; have := @State.Kept.sealFail; have := @State.Kept.markInvalid
  grind

theorem State.Kept.inputFailed {e : LedgerEnt} (h : s₀.Kept s) : s₀.Kept (s.inputFailed e) := by
  unfold State.inputFailed
  have := @State.Kept.each; have := @State.Kept.modPFrame; have := @State.Kept.markInvalid
  have := @State.Kept.modProduct
  grind

theorem State.Kept.inVerdict {e : LedgerEnt} {l : PLine} {spent : Bool} (h : s₀.Kept s) :
    s₀.Kept (s.inVerdict e l spent).1 := by
  unfold State.inVerdict
  have := @State.Kept.pmuAdd; have := @State.Kept.when; have := @State.Kept.count; have := @State.Kept.sealFail
  have := @State.Kept.inputFailed
  grind

theorem doLedgerVerdict_kept {d k : Nat} (h : s₀.Kept s) : s₀.Kept (doLedgerVerdict d k s) := by
  unfold doLedgerVerdict
  split
  · refine .retryCommits (.tryEnds (.each (.when (.andReport ?_) fun _ ht => ht.settle) fun _ _ ht => ht.publishFrame))
    split
    · exact h.modSeals.poolRead.pmuAdd.outVerdict
    · exact h.modSeals.poolRead.pmuAdd.inVerdict
  · exact h

theorem doLineRelease_kept {d i : Nat} (h : s₀.Kept s) : s₀.Kept (doLineRelease d i s) := by
  unfold doLineRelease
  have := @State.Kept.release
  grind

theorem doOccupancyBroadcast_kept (h : s₀.Kept s) : s₀.Kept (doOccupancyBroadcast s) := by
  unfold doOccupancyBroadcast
  have := @State.Kept.setFld; have := @State.Kept.modPool
  grind

theorem doBloomHalt_kept {b : Nat} {halt : Bool} (h : s₀.Kept s) : s₀.Kept (doBloomHalt b halt s) := by
  unfold doBloomHalt
  have := @State.Kept.setFlag; have := @State.Kept.preemptAll
  grind

theorem doHashProbe_kept {v : Nat} (h : s₀.Kept s) : s₀.Kept (doHashProbe v s) := by
  unfold doHashProbe
  have := @State.Kept.wr; have := @State.Kept.setFld
  grind

theorem State.Kept.lateAtBoundary {n : Nat} (h : s₀.Kept s) : s₀.Kept (s.lateAtBoundary n) := by
  unfold State.lateAtBoundary
  have := @State.Kept.each; have := @State.Kept.lateLines
  grind

theorem State.Kept.missTile {b : Nat} {t : Tile} (h : s₀.Kept s) : s₀.Kept (s.missTile b t) := by
  unfold State.missTile
  have := @State.Kept.count; have := @State.Kept.pmuAdd; have := @State.Kept.when; have := @State.Kept.wr
  have := @State.Kept.raise
  grind

theorem State.Kept.deadlineCheck {n : Nat} (h : s₀.Kept s) : s₀.Kept (s.deadlineCheck n) := by
  unfold State.deadlineCheck
  have := @State.Kept.each; have := @State.Kept.modBlm; have := @State.Kept.missTile
  grind

/-! ### Envelope -/

theorem State.Kept.setStage {n : Nat} (h : s₀.Kept s) : s₀.Kept (s.setStage n) := by
  unfold State.setStage
  have := @State.Kept.setFld
  grind

theorem State.Kept.countBoot (h : s₀.Kept s) : s₀.Kept s.countBoot := by
  unfold State.countBoot
  have := @State.Kept.count; have := @State.Kept.modSec; have := @State.Kept.wr
  grind

theorem State.Kept.handOver (h : s₀.Kept s) : s₀.Kept s.handOver := by
  unfold State.handOver
  have := @State.Kept.lupSubmit; have := @State.Kept.alert; have := @State.Kept.setStage; have := @State.Kept.modSec
  grind

theorem State.Kept.pendingHandover (h : s₀.Kept s) : s₀.Kept s.pendingHandover := by
  unfold State.pendingHandover
  have := @State.Kept.handOver
  grind

theorem State.Kept.earlyView (h : s₀.Kept s) : s₀.Kept s.earlyView := by
  unfold State.earlyView
  have := @State.Kept.setStage; have := @State.Kept.countBoot; have := @State.Kept.pendingHandover
  grind

theorem State.Kept.waitHost (h : s₀.Kept s) : s₀.Kept s.waitHost := by
  unfold State.waitHost
  have := @State.Kept.setStage; have := @State.Kept.countBoot; have := @State.Kept.pendingHandover
  grind

/-! ### Pixels -/

theorem State.Kept.setBank {b : Nat} {store : List Byte} (h : s₀.Kept s) : s₀.Kept (s.setBank b store) := by
  unfold State.setBank
  have := @State.Kept.modMgd; have := @State.Kept.wr
  grind

/-! ### Commands -/

theorem State.Kept.takeCmd {g idx : Nat} (h : s₀.Kept s) : s₀.Kept (s.takeCmd g idx) := by
  unfold State.takeCmd
  have := @State.Kept.modRing
  grind

theorem State.Kept.finishCmd {g idx : Nat} {bytes : List Byte} {status arg detail : Nat} (h : s₀.Kept s) :
    s₀.Kept (s.finishCmd g idx bytes status arg detail) := by
  unfold State.finishCmd
  have := @State.Kept.report
  grind

theorem State.Kept.runCmd {d r idx cmd : Nat} {f : Nat → List Byte → State → State} (h : s₀.Kept s)
    (hf : ∀ g b t, s₀.Kept t → s₀.Kept (f g b t)) : s₀.Kept (s.runCmd d r idx cmd f) := by
  unfold State.runCmd
  dsimp only
  split
  · exact hf _ _ _ h.takeCmd
  · exact h

/-! ### Product -/

theorem State.Kept.modHead {f : PrdCmd → PrdCmd} (h : s₀.Kept s) : s₀.Kept (s.modHead f) := by
  unfold State.modHead
  have := @State.Kept.modPrd
  grind

theorem State.Kept.startPrds {n : Nat} (h : s₀.Kept s) : s₀.Kept (State.startPrds n s) := by
  induction n generalizing s with
  | zero => exact h
  | succ n ih =>
    unfold State.startPrds
    have := @State.Kept.readHost; have := @State.Kept.readRefused; have := @State.Kept.modHead
    have := @State.Kept.report; have := @State.Kept.modPrd
    grind

theorem State.Kept.startPrd (h : s₀.Kept s) : s₀.Kept s.startPrd := by
  unfold State.startPrd
  have := @State.Kept.startPrds
  grind

theorem State.Kept.gotPdb {data : Option (List Byte)} (h : s₀.Kept s) : s₀.Kept (s.gotPdb data) := by
  unfold State.gotPdb
  split
  · refine .ite h ?_
    extract_lets s₁
    have h₁ : s₀.Kept s₁ := h.modHead
    refine .ite h₁ ?_
    split
    next began => exact (h₁.readHost began).modHead
    next => exact h₁.readRefused.modHead
  · exact .ite h.modHead h
  · exact h

theorem State.Kept.gotTable {data : Option (List Byte)} (h : s₀.Kept s) : s₀.Kept (s.gotTable data) := by
  unfold State.gotTable
  have := @State.Kept.stage; have := @State.Kept.modHead
  grind

theorem State.Kept.prdCommand {op : PrdOp} {g idx : Nat} {b : List Byte} (h : s₀.Kept s) :
    s₀.Kept (s.prdCommand op g idx b) := by
  unfold State.prdCommand
  have := @State.Kept.modPrd; have := @State.Kept.startPrd
  grind

theorem doPrdDefine_kept {d r idx : Nat} (h : s₀.Kept s) : s₀.Kept (doPrdDefine d r idx s) := by
  unfold doPrdDefine
  have := @State.Kept.runCmd; have := @State.Kept.prdCommand
  grind

theorem doPrdUpdate_kept {d r idx : Nat} (h : s₀.Kept s) : s₀.Kept (doPrdUpdate d r idx s) := by
  unfold doPrdUpdate
  have := @State.Kept.runCmd; have := @State.Kept.prdCommand
  grind

theorem doPrdRetire_kept {d r idx : Nat} (h : s₀.Kept s) : s₀.Kept (doPrdRetire d r idx s) := by
  unfold doPrdRetire
  have := @State.Kept.runCmd; have := @State.Kept.prdCommand
  grind

theorem State.Kept.dropWaits {i status : Nat} {f : PrdCmd → Bool} (h : s₀.Kept s) :
    s₀.Kept (s.dropWaits i status f).1 := by
  unfold State.dropWaits
  have := @State.Kept.modProduct; have := @State.Kept.finishPrd; have := @State.Kept.foldl_fst
  grind

theorem State.Kept.grantPrd {c : PrdCmd} (h : s₀.Kept s) : s₀.Kept (s.grantPrd c) := by
  unfold State.grantPrd
  extract_lets i b pool home p p₁ s₁ s₂ s₃ s₄
  have h₂ : s₀.Kept s₂ := .placeTable (.modPrd (.wr h.wr))
  have h₄ : s₀.Kept s₄ := .showResources (.showProduct (.setFld (.setFld h₂.setFld)))
  exact h₄.when fun _ ht => ht.modRing

theorem State.Kept.checksDone {c : PrdCmd} (h : s₀.Kept s) : s₀.Kept (s.checksDone c).1 := by
  unfold State.checksDone
  have := @State.Kept.finishPrd; have := @State.Kept.grantPrd; have := @State.Kept.dropWaits
  have := @State.Kept.modProduct; have := @State.Kept.freeProduct
  grind

theorem doProductChecksDone_kept (h : s₀.Kept s) : s₀.Kept (doProductChecksDone s) := by
  unfold doProductChecksDone
  have := @State.Kept.stage; have := @State.Kept.andReport; have := @State.Kept.modPrd; have := @State.Kept.checksDone
  have := @State.Kept.startPrd
  grind

theorem State.Kept.actDefine {n f i : Nat} {c : PrdCmd} (h : s₀.Kept s) : s₀.Kept (s.actDefine n f i c).1 := by
  unfold State.actDefine
  dsimp only
  split
  · exact h.modProduct.dropWaits.freeProduct.finishPrd (n := n) (arg := 0)
  · refine .ite_fst (.freeIfDone (.when (.modProduct (.modProduct (.setFld (.dropWaits ?_)))) fun _ ht => ht.modRing)) (.finishPrd ?_)
    · exact h.modProduct.setFld.modProduct
    · exact h.modProduct.setFld.modProduct

theorem State.Kept.actUpdate {n f i : Nat} {c : PrdCmd} (h : s₀.Kept s) : s₀.Kept (s.actUpdate n f i c).1 := by
  unfold State.actUpdate
  have := @State.Kept.modProduct; have := @State.Kept.finishPrd; have := @State.Kept.placeTable
  have := @State.Kept.setFld; have := @State.Kept.showProduct; have := @State.Kept.showResources
  grind

theorem State.Kept.actRetire {n f i : Nat} {c : PrdCmd} (h : s₀.Kept s) : s₀.Kept (s.actRetire n f i c).1 := by
  unfold State.actRetire
  exact .pair (.freeIfDone (.modProduct (.setFld (.dropWaits h.modProduct))))

theorem State.Kept.actPrd {n f i : Nat} {c : PrdCmd} (h : s₀.Kept s) : s₀.Kept (s.actPrd n f i c).1 := by
  unfold State.actPrd
  have := @State.Kept.actDefine; have := @State.Kept.actUpdate; have := @State.Kept.actRetire
  grind

theorem State.Kept.prdBoundary {n f : Nat} (h : s₀.Kept s) : s₀.Kept (s.prdBoundary n f) := by
  unfold State.prdBoundary
  have := @State.Kept.each; have := @State.Kept.andReport; have := @State.Kept.actPrd; have := @State.Kept.tryFrees
  grind

/-! ### Consistency -/

theorem State.Kept.passGen {g : Nat} {q : Staged} (h : s₀.Kept s) : s₀.Kept (s.passGen g q) := by
  unfold State.passGen
  have := @State.Kept.modCfg; have := @State.Kept.setFld; have := @State.Kept.switchGen
  have := @State.Kept.showResources
  grind

theorem doConsistencyCheckEnd_kept {g : Nat} (h : s₀.Kept s) : s₀.Kept (doConsistencyCheckEnd g s) := by
  unfold doConsistencyCheckEnd
  have := @State.Kept.rejectGen; have := @State.Kept.passGen
  grind

theorem State.Kept.commitBoundary {g : Nat} {stop : Bool} (h : s₀.Kept s) : s₀.Kept (s.commitBoundary g stop) := by
  unfold State.commitBoundary
  have := @State.Kept.setFlag; have := @State.Kept.pmuAdd; have := @State.Kept.modCfg; have := @State.Kept.switchGen
  have := @State.Kept.showResources
  grind

/-! ### Marigold -/

theorem State.Kept.modDFrame {n f : Nat} {g : DispFrame → DispFrame} (h : s₀.Kept s) :
    s₀.Kept (s.modDFrame n f g) := by
  unfold State.modDFrame
  have := @State.Kept.modDisp
  grind

theorem State.Kept.modSlot {n f k : Nat} {g : SlotRun → SlotRun} (h : s₀.Kept s) : s₀.Kept (s.modSlot n f k g) := by
  unfold State.modSlot
  have := @State.Kept.modDFrame
  grind

theorem doHostInputTimeout_kept {n : Nat} (h : s₀.Kept s) : s₀.Kept (doHostInputTimeout n s) := by
  unfold doHostInputTimeout
  have := @State.Kept.each; have := @State.Kept.modMgd
  grind

theorem State.Kept.latchTts {n f : Nat} (h : s₀.Kept s) : s₀.Kept (s.latchTts n f) := by
  unfold State.latchTts
  have := @State.Kept.modDFrame; have := @State.Kept.each; have := @State.Kept.setFld; have := @State.Kept.setFlag
  grind

theorem State.Kept.mgdEvent {code detail a0 a1 a2 : Nat} (h : s₀.Kept s) :
    s₀.Kept (s.mgdEvent code detail a0 a1 a2) := by
  unfold State.mgdEvent
  have := @State.Kept.event
  grind

theorem State.Kept.pushProof {r : ProofRec} (h : s₀.Kept s) : s₀.Kept (s.pushProof r) := by
  unfold State.pushProof
  have := @State.Kept.modMgd; have := @State.Kept.count; have := @State.Kept.mgdEvent; have := @State.Kept.setFld
  grind

theorem State.Kept.proofFails {n : Nat} {q : DispFrame} {u : SlotRun} {t code outcome obs : Nat} (h : s₀.Kept s) :
    s₀.Kept (s.proofFails n q u t code outcome obs) := by
  unfold State.proofFails
  have := @State.Kept.mgdEvent; have := @State.Kept.lupSubmit; have := @State.Kept.setFld; have := @State.Kept.modMgd
  have := @State.Kept.raise
  grind

theorem State.Kept.proofRecord {n : Nat} {q : DispFrame} {u : SlotRun} {t : TtLatch} {outcome obs : Nat} (h : s₀.Kept s) :
    s₀.Kept (s.proofRecord n q u t outcome obs) := by
  unfold State.proofRecord
  have := @State.Kept.modDFrame; have := @State.Kept.setFld; have := @State.Kept.count; have := @State.Kept.pmuAdd
  have := @State.Kept.proofFails; have := @State.Kept.modMgd; have := @State.Kept.pushProof
  grind

theorem State.Kept.proveSlot {n f k : Nat} (h : s₀.Kept s) : s₀.Kept (s.proveSlot n f k) := by
  unfold State.proveSlot
  dsimp only
  (repeat' split) <;> (have := @State.Kept.when; have := @State.Kept.draw; have := @State.Kept.modSlot
                       have := @State.Kept.each; have := @State.Kept.proofRecord; grind)

theorem State.Kept.tapRow {n f r : Nat} {wire : Option (List Byte)} (h : s₀.Kept s) :
    s₀.Kept (s.tapRow n f r wire) := by
  unfold State.tapRow
  have := @State.Kept.each; have := @State.Kept.modSlot; have := @State.Kept.proveSlot
  grind

theorem State.Kept.notSent {n f : Nat} (h : s₀.Kept s) : s₀.Kept (s.notSent n f) := by
  unfold State.notSent
  have := @State.Kept.each; have := @State.Kept.modSlot; have := @State.Kept.proveSlot
  grind

theorem State.Kept.proofDeadline {n f : Nat} (h : s₀.Kept s) : s₀.Kept (s.proofDeadline n f) := by
  unfold State.proofDeadline
  have := @State.Kept.each; have := @State.Kept.draw; have := @State.Kept.proofRecord
  grind

theorem State.Kept.endReadback {n k : Nat} {q : DispFrame} {u : SlotRun} {v : Option Nat} (h : s₀.Kept s) :
    s₀.Kept (s.endReadback n k q u v) := by
  unfold State.endReadback
  have := @State.Kept.when; have := @State.Kept.draw; have := @State.Kept.pmuAdd; have := @State.Kept.modSlot
  have := @State.Kept.each; have := @State.Kept.count; have := @State.Kept.proofFails; have := @State.Kept.pushProof
  grind

theorem State.Kept.lateReadbacks {n f line : Nat} (h : s₀.Kept s) : s₀.Kept (s.lateReadbacks n f line) := by
  unfold State.lateReadbacks
  have := @State.Kept.each; have := @State.Kept.endReadback
  grind

theorem doReadback_kept {n k : Nat} {v : Option Nat} (h : s₀.Kept s) : s₀.Kept (doReadback n k v s) := by
  unfold doReadback
  have := @State.Kept.endReadback
  grind

theorem State.Kept.mgdLine {r : Nat} (h : s₀.Kept s) : s₀.Kept (s.mgdLine r) := by
  unfold State.mgdLine
  have := @State.Kept.each; have := @State.Kept.proofDeadline; have := @State.Kept.lateReadbacks
  have := @State.Kept.latchTts
  grind

theorem State.Kept.logOff {flag : Fld} {detail : Nat} (h : s₀.Kept s) : s₀.Kept (s.logOff flag detail) := by
  unfold State.logOff
  have := @State.Kept.modMgd; have := @State.Kept.setFlag; have := @State.Kept.mgdEvent
  grind

theorem doProofLogDelivery_kept (h : s₀.Kept s) : s₀.Kept (doProofLogDelivery s) := by
  unfold doProofLogDelivery
  have := @State.Kept.writeEach; have := @State.Kept.modMgd; have := @State.Kept.setFld; have := @State.Kept.logOff
  grind

theorem State.Kept.logFault (h : s₀.Kept s) : s₀.Kept s.logFault := by
  unfold State.logFault
  have := @State.Kept.logOff
  grind

theorem doMgdSet_kept {d r idx : Nat} (h : s₀.Kept s) : s₀.Kept (doMgdSet d r idx s) := by
  unfold doMgdSet
  have := @State.Kept.runCmd; have := @State.Kept.finishCmd; have := @State.Kept.each; have := @State.Kept.modMgd
  grind

theorem doMgdLoad_kept {d r idx : Nat} (h : s₀.Kept s) : s₀.Kept (doMgdLoad d r idx s) := by
  unfold doMgdLoad
  have := @State.Kept.runCmd; have := @State.Kept.finishCmd; have := @State.Kept.readHost
  have := @State.Kept.readRefused; have := @State.Kept.wr; have := @State.Kept.modMgd
  grind

theorem State.Kept.gotAsset {bank : Nat} {data : Option (List Byte)} (h : s₀.Kept s) :
    s₀.Kept (s.gotAsset bank data) := by
  unfold State.gotAsset
  have := @State.Kept.modMgd
  grind

theorem doAssetLoadDone_kept {sig : Bool} (h : s₀.Kept s) : s₀.Kept (doAssetLoadDone sig s) := by
  unfold doAssetLoadDone
  have := @State.Kept.modMgd; have := @State.Kept.setFlag; have := @State.Kept.finishCmd; have := @State.Kept.setBank
  grind

theorem doMgdLog_kept {d r idx : Nat} (h : s₀.Kept s) : s₀.Kept (doMgdLog d r idx s) := by
  unfold doMgdLog
  have := @State.Kept.runCmd; have := @State.Kept.finishCmd; have := @State.Kept.modMgd; have := @State.Kept.setFlag
  have := @State.Kept.wr
  grind

theorem doBankRecheck_kept {b : Nat} {ok : Bool} (h : s₀.Kept s) : s₀.Kept (doBankRecheck b ok s) := by
  unfold doBankRecheck
  have := @State.Kept.raise
  grind

/-! ### Inject -/

theorem State.Kept.injEnd {i : Nat} (h : s₀.Kept s) : s₀.Kept (s.injEnd i) := by
  unfold State.injEnd
  have := @State.Kept.setFlag; have := @State.Kept.wr; have := @State.Kept.modFcl
  grind

theorem State.Kept.injNote {i : Nat} (h : s₀.Kept s) : s₀.Kept (s.injNote i) := by
  unfold State.injNote
  have := @State.Kept.lupSubmit; have := @State.Kept.event
  grind

theorem State.Kept.injOne {link inst i : Nat} {u : InjUnit} (h : s₀.Kept s) : s₀.Kept (s.injOne link inst i u).2 := by
  unfold State.injOne
  have := @State.Kept.when; have := @State.Kept.modFcl; have := @State.Kept.injNote; have := @State.Kept.injEnd
  grind

theorem State.Kept.injectThrough {l : List Nat} {link inst : Nat} {u : InjUnit} (h : s₀.Kept s) :
    s₀.Kept (s.injectThrough l link inst u).2 := by
  unfold State.injectThrough
  have := @State.Kept.injOne; have := @State.Kept.foldl_snd
  grind

theorem State.Kept.inject {link inst : Nat} {u : InjUnit} (h : s₀.Kept s) : s₀.Kept (s.inject link inst u).2 := by
  unfold State.inject
  have := @State.Kept.injectThrough
  grind

theorem State.Kept.injStart {i : Nat} (h : s₀.Kept s) : s₀.Kept (s.injStart i) := by
  unfold State.injStart
  have := @State.Kept.modFcl; have := @State.Kept.injNote; have := @State.Kept.injEnd; have := @State.Kept.setBit64
  have := @State.Kept.report; have := @State.Kept.raise
  grind

/-! ### VbrTables -/

theorem State.Kept.clearTarget {i : Nat} (h : s₀.Kept s) : s₀.Kept (s.clearTarget i) := by
  unfold State.clearTarget
  have := @State.Kept.modMgd; have := @State.Kept.modVbr
  grind

theorem State.Kept.replaceEntry {t i : Nat} {b : List Byte} (h : s₀.Kept s) : s₀.Kept (s.replaceEntry t i b) := by
  unfold State.replaceEntry
  have := @State.Kept.modVbr; have := @State.Kept.each; have := @State.Kept.clearTarget; have := @State.Kept.when
  grind

theorem State.Kept.bridgeStart (h : s₀.Kept s) : s₀.Kept s.bridgeStart := by
  unfold State.bridgeStart
  have := @State.Kept.modVbr; have := @State.Kept.each; have := @State.Kept.clearTarget
  grind

theorem State.Kept.replaceEntries {t first : Nat} {es : List (List Byte)} (h : s₀.Kept s) :
    s₀.Kept (s.replaceEntries t first es) := by
  unfold State.replaceEntries
  have := @State.Kept.each; have := @State.Kept.replaceEntry
  grind

theorem doVbrLoad_kept {d r idx : Nat} (h : s₀.Kept s) : s₀.Kept (doVbrLoad d r idx s) := by
  unfold doVbrLoad
  have := @State.Kept.runCmd; have := @State.Kept.finishCmd; have := @State.Kept.readHost
  have := @State.Kept.readRefused
  grind

theorem State.Kept.gotEntries {g idx : Nat} {b : List Byte} {data : Option (List Byte)} (h : s₀.Kept s) :
    s₀.Kept (s.gotEntries g idx b data) := by
  unfold State.gotEntries
  have := @State.Kept.finishCmd; have := @State.Kept.replaceEntries
  grind

theorem doTableRead_kept {v : Nat} (h : s₀.Kept s) : s₀.Kept (doTableRead v s) := by
  unfold doTableRead
  have := @State.Kept.setFld; have := @State.Kept.each; have := @State.Kept.wr; have := @State.Kept.draw
  grind

/-! ### Tunnel -/

theorem State.Kept.modTun {q : Nat} {f : Tunnel → Tunnel} (h : s₀.Kept s) : s₀.Kept (s.modTun q f) := by
  unfold State.modTun
  have := @State.Kept.modVbr
  grind

theorem State.Kept.modRead {e : Nat} {f : OpenRead → OpenRead} (h : s₀.Kept s) : s₀.Kept (s.modRead e f) := by
  unfold State.modRead
  have := @State.Kept.modVbr
  grind

theorem State.Kept.freeRead {e : Nat} (h : s₀.Kept s) : s₀.Kept (s.freeRead e) := by
  unfold State.freeRead
  have := @State.Kept.modVbr
  grind

theorem State.Kept.bump (h : s₀.Kept s) : s₀.Kept s.bump := by
  unfold State.bump
  have := @State.Kept.modVbr
  grind

theorem State.Kept.touchCache {p dev : Nat} {reg16 : Bool} {r n : Nat} (h : s₀.Kept s) :
    s₀.Kept (s.touchCache p dev reg16 r n) := by
  unfold State.touchCache
  have := @State.Kept.each; have := @State.Kept.modVbr; have := @State.Kept.bump
  grind

theorem State.Kept.fillCache {p dev : Nat} {reg16 : Bool} {first : Nat} {data : List Byte} (h : s₀.Kept s) :
    s₀.Kept (s.fillCache p dev reg16 first data) := by
  unfold State.fillCache
  have := @State.Kept.modVbr; have := @State.Kept.bump
  grind

theorem State.Kept.invalidate {p dev r n : Nat} (h : s₀.Kept s) : s₀.Kept (s.invalidate p dev r n) := by
  unfold State.invalidate
  have := @State.Kept.each; have := @State.Kept.modVbr
  grind

theorem doCacheLineExpiry_kept {p k : Nat} (h : s₀.Kept s) : s₀.Kept (doCacheLineExpiry p k s) := by
  unfold doCacheLineExpiry
  have := @State.Kept.modVbr
  grind

theorem State.Kept.parkRead {e : OpenRead} (h : s₀.Kept s) : s₀.Kept (s.parkRead e) := by
  unfold State.parkRead
  dsimp only
  (repeat' split) <;> (have := @State.Kept.when; have := @State.Kept.count; have := @State.Kept.modVbr
                       have := @State.Kept.bump; have := @State.Kept.event; have := @State.Kept.lupSubmit; grind)

theorem State.Kept.expired {e : OpenRead} (h : s₀.Kept s) : s₀.Kept (s.expired e) := by
  unfold State.expired
  have := @State.Kept.count; have := @State.Kept.parkRead
  grind

theorem State.Kept.expireRead {k : Nat} (h : s₀.Kept s) : s₀.Kept (s.expireRead k) := by
  unfold State.expireRead
  have := @State.Kept.freeRead; have := @State.Kept.expired
  grind

theorem doOpenReadExpiry_kept {k : Nat} (h : s₀.Kept s) : s₀.Kept (doOpenReadExpiry k s) := by
  unfold doOpenReadExpiry
  have := @State.Kept.expireRead
  grind

theorem doParkRecordFree_kept {j : Nat} (h : s₀.Kept s) : s₀.Kept (doParkRecordFree j s) := by
  unfold doParkRecordFree
  have := @State.Kept.modVbr
  grind

theorem State.Kept.bridgeLinkDown (h : s₀.Kept s) : s₀.Kept s.bridgeLinkDown := by
  unfold State.bridgeLinkDown
  have := @State.Kept.each; have := @State.Kept.modRead; have := @State.Kept.expireRead
  grind

theorem State.Kept.writeLate {p : Nat} {j : TunJob} {dom tag cause : Nat} (h : s₀.Kept s) :
    s₀.Kept (s.writeLate p j dom tag cause) := by
  unfold State.writeLate
  have := @State.Kept.count; have := @State.Kept.when; have := @State.Kept.wr; have := @State.Kept.event
  grind

theorem State.Kept.xferUser {p : Nat} {j : TunJob} {res : Except Nat (List Byte)} (h : s₀.Kept s) :
    s₀.Kept (s.xferUser p j res) := by
  unfold State.xferUser
  have := @State.Kept.modVbr; have := @State.Kept.writeLate; have := @State.Kept.modRead; have := @State.Kept.when
  have := @State.Kept.fillCache; have := @State.Kept.expireRead; have := @State.Kept.wr; have := @State.Kept.finishCmd
  have := @State.Kept.writeHost; have := @State.Kept.writeRefused
  grind

theorem State.Kept.xferEnd {p : Nat} {j : TunJob} {res : Except Nat (List Byte)} (h : s₀.Kept s) :
    s₀.Kept (s.xferEnd p j res) := by
  unfold State.xferEnd
  have := @State.Kept.pmuAdd; have := @State.Kept.raise; have := @State.Kept.lupSubmit; have := @State.Kept.xferUser
  grind

theorem State.Kept.admitXfer {p : Nat} {j : TunJob} (h : s₀.Kept s) : s₀.Kept (s.admitXfer p j) := by
  unfold State.admitXfer
  have := @State.Kept.xferEnd; have := @State.Kept.modTun
  grind

theorem State.Kept.passXfer {p : Nat} {j : TunJob} (h : s₀.Kept s) : s₀.Kept (s.passXfer p j) := by
  unfold State.passXfer
  have := @State.Kept.inject; have := @State.Kept.each; have := @State.Kept.admitXfer
  grind

theorem State.Kept.queueXfer {p : Nat} {j : TunJob} (h : s₀.Kept s) : s₀.Kept (s.queueXfer p j) := by
  unfold State.queueXfer
  have := @State.Kept.when; have := @State.Kept.wr; have := @State.Kept.invalidate; have := @State.Kept.passXfer
  grind

theorem State.Kept.admitHeld {p : Nat} (h : s₀.Kept s) : s₀.Kept (s.admitHeld p) := by
  unfold State.admitHeld
  have := @State.Kept.modTun; have := @State.Kept.queueXfer; have := @State.Kept.giveCredit
  grind

theorem State.Kept.tunEnd {p : Nat} {res : TunJob → Except Nat (List Byte)} (h : s₀.Kept s) :
    s₀.Kept (s.tunEnd p res) := by
  unfold State.tunEnd
  have := @State.Kept.modTun; have := @State.Kept.admitHeld; have := @State.Kept.xferEnd
  grind

theorem doTunnelXferDone_kept {p : Nat} {data : Option (List Byte)} {cause : Nat} (h : s₀.Kept s) :
    s₀.Kept (doTunnelXferDone p data cause s) := by
  unfold doTunnelXferDone
  have := @State.Kept.tunEnd; have := @State.Kept.wr
  grind

theorem doTunnelXferTimeout_kept {p : Nat} (h : s₀.Kept s) : s₀.Kept (doTunnelXferTimeout p s) := by
  unfold doTunnelXferTimeout
  have := @State.Kept.tunEnd
  grind

theorem State.Kept.tunDown {p : Nat} (h : s₀.Kept s) : s₀.Kept (s.tunDown p) := by
  unfold State.tunDown
  have := @State.Kept.each; have := @State.Kept.modTun; have := @State.Kept.xferEnd; have := @State.Kept.giveCredit
  have := @doCacheLineExpiry_kept
  grind

theorem State.Kept.retry {t : HostTxn} {p : Nat} (h : s₀.Kept s) : s₀.Kept (s.retry t p) := by
  unfold State.retry
  have := @State.Kept.pmuAdd; have := @State.Kept.answer
  grind

theorem State.Kept.remoteRead {t : HostTxn} (h : s₀.Kept s) : s₀.Kept (s.remoteRead t) := by
  unfold State.remoteRead
  dsimp only
  (repeat' split) <;> (have := @State.Kept.answer; have := @State.Kept.touchCache; have := @State.Kept.retry
                       have := @State.Kept.freeRead; have := @State.Kept.count; have := @State.Kept.modVbr
                       have := @State.Kept.queueXfer; grind)

theorem State.Kept.remoteWrite {t : HostTxn} {ch cd : Nat} (h : s₀.Kept s) : s₀.Kept (s.remoteWrite t ch cd) := by
  unfold State.remoteWrite
  dsimp only
  (repeat' split) <;> (have := @State.Kept.giveCredit; have := @State.Kept.count; have := @State.Kept.invalidate
                       have := @State.Kept.modTun; have := @State.Kept.queueXfer; grind)

theorem doLvtPoll_kept {k : Nat} (h : s₀.Kept s) : s₀.Kept (doLvtPoll k s) := by
  unfold doLvtPoll
  have := @State.Kept.queueXfer
  grind

theorem doVbrXfer_kept {d r idx : Nat} (h : s₀.Kept s) : s₀.Kept (doVbrXfer d r idx s) := by
  unfold doVbrXfer
  have := @State.Kept.runCmd; have := @State.Kept.finishCmd; have := @State.Kept.readHost
  have := @State.Kept.readRefused; have := @State.Kept.queueXfer
  grind

theorem State.Kept.gotXferData {g idx : Nat} {b : List Byte} {data : Option (List Byte)} (h : s₀.Kept s) :
    s₀.Kept (s.gotXferData g idx b data) := by
  unfold State.gotXferData
  have := @State.Kept.queueXfer; have := @State.Kept.finishCmd
  grind

/-! ### Display -/

theorem State.Kept.layerShow {n : Nat} (h : s₀.Kept s) : s₀.Kept (s.layerShow n) := by
  unfold State.layerShow
  have := @State.Kept.each; have := @State.Kept.settle; have := @State.Kept.setFld
  grind

theorem State.Kept.beginDisplay {n f : Nat} (h : s₀.Kept s) : s₀.Kept (s.beginDisplay n f) := by
  unfold State.beginDisplay
  have := @State.Kept.setFld; have := @State.Kept.modDisp
  grind

theorem State.Kept.dispBoundary {r f : Nat} (h : s₀.Kept s) : s₀.Kept (s.dispBoundary r f) := by
  unfold State.dispBoundary
  have := @State.Kept.each; have := @State.Kept.layerShow; have := @State.Kept.beginDisplay
  grind

theorem State.Kept.dispOver {n f : Nat} (h : s₀.Kept s) : s₀.Kept (s.dispOver n f) := by
  unfold State.dispOver
  have := @State.Kept.modDFrame; have := @State.Kept.retryCommits
  grind

theorem State.Kept.egressCheck {n st prd line frame want : Nat} {l : PLine} (h : s₀.Kept s) :
    s₀.Kept (s.egressCheck n st prd line frame want l).1 := by
  unfold State.egressCheck
  have := @State.Kept.andReport; have := @State.Kept.sealFail
  grind

theorem State.Kept.takeProductLine {d : Nat} (h : s₀.Kept s) : s₀.Kept (s.takeProductLine d) := by
  unfold State.takeProductLine
  have := @State.Kept.dropLine; have := @State.Kept.modPFrame
  grind

theorem State.Kept.discardLate {i y : Nat} (h : s₀.Kept s) : s₀.Kept (s.discardLate i y) := by
  unfold State.discardLate
  have := @State.Kept.dropLine; have := @State.Kept.modPFrame; have := @State.Kept.publishFrame
  grind

theorem State.Kept.fetchProduct {n : Nat} {u : LayerSrc} {y : Nat} (h : s₀.Kept s) :
    s₀.Kept (s.fetchProduct n u y).1 := by
  unfold State.fetchProduct
  have := @State.Kept.discardLate; have := @State.Kept.egressCheck; have := @State.Kept.each
  have := @State.Kept.takeProductLine; have := @State.Kept.tryEnds; have := @State.Kept.retryCommits
  grind

theorem State.Kept.claimHost {n : Nat} {h : HostOpen} (hs : s₀.Kept s) : s₀.Kept (s.claimHost n h).1 := by
  unfold State.claimHost
  have := @State.Kept.modPool; have := @State.Kept.putLine; have := @State.Kept.when; have := @State.Kept.giveCredit
  grind

theorem State.Kept.sealHost {n d : Nat} {h : HostOpen} (hs : s₀.Kept s) : s₀.Kept (s.sealHost n d h) := by
  unfold State.sealHost
  have := @State.Kept.modLine; have := @State.Kept.pmuAdd
  grind

theorem State.Kept.retryHost {n : Nat} (h : s₀.Kept s) : s₀.Kept (s.retryHost n) := by
  unfold State.retryHost
  dsimp only
  (repeat' split) <;> (have := @State.Kept.claimHost; have := @State.Kept.sealHost; have := @State.Kept.modDisp
                       have := @State.Kept.foldl_fst; grind)

theorem State.Kept.fetchHost {n l f y : Nat} (h : s₀.Kept s) : s₀.Kept (s.fetchHost n l f y).1 := by
  unfold State.fetchHost
  have := @State.Kept.each; have := @State.Kept.dropLine; have := @State.Kept.count; have := @State.Kept.egressCheck
  have := @State.Kept.retryHost
  grind

theorem State.Kept.fetchLayer {n : Nat} {q : DispFrame} {r l : Nat} (h : s₀.Kept s) :
    s₀.Kept (s.fetchLayer n q r l) := by
  unfold State.fetchLayer
  have := @State.Kept.fetchProduct; have := @State.Kept.fetchHost; have := @State.Kept.count; have := @State.Kept.pmuAdd
  have := @State.Kept.modDFrame
  grind

theorem State.Kept.fetchRow {n : Nat} {q : DispFrame} (h : s₀.Kept s) : s₀.Kept (s.fetchRow n q) := by
  unfold State.fetchRow
  have := @State.Kept.each; have := @State.Kept.fetchLayer; have := @State.Kept.modDFrame
  grind

theorem doLayerFetch_kept {n k : Nat} (h : s₀.Kept s) : s₀.Kept (doLayerFetch n k s) := by
  unfold doLayerFetch
  have := @State.Kept.when; have := @State.Kept.poolRead; have := @State.Kept.fetchRow
  grind

theorem State.Kept.sendRow {n r : Nat} {q : DispFrame} (h : s₀.Kept s) : s₀.Kept (s.sendRow n r q) := by
  unfold State.sendRow
  have := @State.Kept.tapRow; have := @State.Kept.setFlag; have := @State.Kept.emit; have := @State.Kept.when
  have := @State.Kept.earlyView
  grind

theorem State.Kept.cutDisplay {n : Nat} (h : s₀.Kept s) : s₀.Kept (s.cutDisplay n) := by
  unfold State.cutDisplay
  have := @State.Kept.each; have := @State.Kept.notSent
  grind

theorem State.Kept.endDisplay {n : Nat} (h : s₀.Kept s) : s₀.Kept (s.endDisplay n) := by
  unfold State.endDisplay
  have := @State.Kept.cutDisplay; have := @State.Kept.modDisp
  grind

theorem doDisplayLine_kept {n : Nat} (h : s₀.Kept s) : s₀.Kept (doDisplayLine n s) := by
  unfold doDisplayLine
  dsimp only
  have h₁ : s₀.Kept (s.when s.fcl.safe (State.cutDisplay n)) := h.when fun _ ht => ht.cutDisplay
  refine .ite h ?_
  split
  · exact h₁
  · split
    · exact .ite h₁.fetchRow h₁
    · refine .ite (.modDFrame (.ite (.sendRow (.pmuAdd ?_)) (.pmuAdd ?_))) (.dispOver (.modDFrame (.ite (.sendRow (.pmuAdd ?_)) (.pmuAdd ?_))))
        <;> exact .ite h₁.fetchRow h₁

theorem doDisplayLinkUp_kept {n : Nat} (h : s₀.Kept s) : s₀.Kept (doDisplayLinkUp n s) := by
  unfold doDisplayLinkUp
  have := @State.Kept.setFlag; have := @State.Kept.modDisp
  grind

theorem State.Kept.dispDown {n : Nat} {lost : Bool} (h : s₀.Kept s) : s₀.Kept (s.dispDown n lost) := by
  unfold State.dispDown
  extract_lets up s₁ s₂
  have h₂ : s₀.Kept s₂ := h.setFlag.modDisp.tunDown
  exact .ite h₂.setFlag.raise.mgdEvent h₂

theorem doDisplayLinkDown_kept {n : Nat} (h : s₀.Kept s) : s₀.Kept (doDisplayLinkDown n s) := by
  unfold doDisplayLinkDown
  have := @State.Kept.dispDown
  grind

theorem State.Kept.displayRun {n : Nat} {run : Bool} (h : s₀.Kept s) : s₀.Kept (s.displayRun n run) := by
  unfold State.displayRun
  extract_lets was s₁ s₂ s₃
  have h₁ : s₀.Kept s₁ := h.setFlag
  have h₃ : s₀.Kept s₃ := h₁.dispDown.modDisp.endDisplay
  exact .ite (.ite h₁ h₁.modDisp) (.ite (.retryCommits (h₃.setFld.each fun _ _ ht => ht.tryEnds)) h₁)

theorem State.Kept.discardTxn (h : s₀.Kept s) : s₀.Kept s.discardTxn := by
  unfold State.discardTxn
  have := @State.Kept.count
  grind

theorem State.Kept.hostErr {n : Nat} (h : s₀.Kept s) : s₀.Kept (s.hostErr n) := by
  unfold State.hostErr
  have := @State.Kept.setFlag; have := @State.Kept.when; have := @State.Kept.giveCredit; have := @State.Kept.dropLine
  have := @State.Kept.setCtx; have := @State.Kept.modDisp
  grind

theorem State.Kept.hostHeader {n ch cd : Nat} {b : List Byte} (h : s₀.Kept s) : s₀.Kept (s.hostHeader n ch cd b) := by
  unfold State.hostHeader
  have := @State.Kept.when; have := @State.Kept.giveCredit; have := @State.Kept.discardTxn; have := @State.Kept.hostErr
  have := @State.Kept.claimHost; have := @State.Kept.setCtx; have := @State.Kept.modDisp
  grind

theorem State.Kept.hostData {n o ch cd : Nat} {b : List Byte} (h : s₀.Kept s) : s₀.Kept (s.hostData n o ch cd b) := by
  unfold State.hostData
  dsimp only
  (repeat' split) <;> (have := @State.Kept.when; have := @State.Kept.giveCredit; have := @State.Kept.discardTxn
                       have := @State.Kept.hostErr; have := @State.Kept.setCtx; have := @State.Kept.modDisp
                       have := @State.Kept.sealHost; grind)

/-! ### Energy -/

theorem State.Kept.showEff (h : s₀.Kept s) : s₀.Kept s.showEff := by
  unfold State.showEff
  have := @State.Kept.setFld
  grind

theorem State.Kept.setClocks (h : s₀.Kept s) : s₀.Kept s.setClocks := by
  unfold State.setClocks
  have := @State.Kept.each; have := @State.Kept.startClock
  grind

theorem State.Kept.actBudgets (h : s₀.Kept s) : s₀.Kept s.actBudgets := by
  unfold State.actBudgets
  have := @State.Kept.modEgv; have := @State.Kept.each; have := @State.Kept.finishCmd
  grind

theorem State.Kept.judgeLine {waits : List Tile} {full : Bool} (h : s₀.Kept s) :
    s₀.Kept (s.judgeLine waits full) := by
  unfold State.judgeLine
  have := @State.Kept.each; have := @State.Kept.pmuAdd; have := @State.Kept.when; have := @State.Kept.modEgv
  grind

theorem State.Kept.grant {len : Nat} (h : s₀.Kept s) : s₀.Kept (s.grant len) := by
  unfold State.grant
  extract_lets s₁ waits g full s₂ s₃ s₄
  have h₂ : s₀.Kept s₂ := h.actBudgets.showEff.setFld
  have h₃ : s₀.Kept s₃ := h₂.each fun _ _ ht => ht.modBlm.pmuAdd.pmuAdd.pmuAdd
  exact .setClocks (.judgeLine (h₃.when fun _ ht => ht.setFld))

theorem doGrantTimer_kept (h : s₀.Kept s) : s₀.Kept (doGrantTimer s) := by
  unfold doGrantTimer
  have := @State.Kept.grant
  grind

theorem State.Kept.stepLevel {n : Nat} {up : Bool} (h : s₀.Kept s) : s₀.Kept (s.stepLevel n up) := by
  unfold State.stepLevel
  have := @State.Kept.setFld; have := @State.Kept.modEgv; have := @State.Kept.pmuAdd; have := @State.Kept.setClocks
  have := @State.Kept.event; have := @State.Kept.lupSubmit
  grind

theorem doLadderStep_kept (h : s₀.Kept s) : s₀.Kept (doLadderStep s) := by
  unfold doLadderStep
  have := @State.Kept.stepLevel
  grind

theorem doEnergyDebtLimit_kept {b : Nat} (h : s₀.Kept s) : s₀.Kept (doEnergyDebtLimit b s) := by
  unfold doEnergyDebtLimit
  have := @State.Kept.modEgv; have := @State.Kept.raise
  grind

theorem doClockChangeDone_kept {b : Nat} (h : s₀.Kept s) : s₀.Kept (doClockChangeDone b s) := by
  unfold doClockChangeDone
  have := @State.Kept.setFld; have := @State.Kept.modEgv; have := @State.Kept.preemptAll
  grind

theorem State.Kept.takeTemp {i v : Nat} (h : s₀.Kept s) : s₀.Kept (s.takeTemp i v) := by
  unfold State.takeTemp
  have := @State.Kept.setFld
  grind

theorem State.Kept.thermAlert {i : Nat} (h : s₀.Kept s) : s₀.Kept (s.thermAlert i) := by
  unfold State.thermAlert
  have := @State.Kept.alert; have := @State.Kept.raise; have := @State.Kept.event
  grind

theorem doTempSample_kept {temps : List (BitVec 16)} (h : s₀.Kept s) : s₀.Kept (doTempSample temps s) := by
  unfold doTempSample
  extract_lets lim was s₁ s₂ s₃ now cool s₄
  have h₁ : s₀.Kept s₁ := h.each fun _ _ ht => by
    split
    · exact ht.takeTemp
    · exact ht
  exact .each (.modEgv (.showEff h₁.takeTemp.setFld)) fun _ _ ht => ht.thermAlert

theorem doAgingMeasure_kept {pairs : List (BitVec 16)} (h : s₀.Kept s) : s₀.Kept (doAgingMeasure pairs s) := by
  unfold doAgingMeasure
  have := @State.Kept.each; have := @State.Kept.setFld; have := @State.Kept.setFlag; have := @State.Kept.raise
  grind

theorem doAvsStep_kept (h : s₀.Kept s) : s₀.Kept (doAvsStep s) := by
  unfold doAvsStep
  have := @State.Kept.modEgv; have := @State.Kept.when; have := @State.Kept.raise; have := @State.Kept.setFld
  have := @State.Kept.modSec; have := @State.Kept.event
  grind

theorem State.Kept.startCore (h : s₀.Kept s) : s₀.Kept s.startCore := by
  unfold State.startCore
  have := @State.Kept.setFld
  grind

theorem doEgvBudget_kept {d r idx : Nat} (h : s₀.Kept s) : s₀.Kept (doEgvBudget d r idx s) := by
  unfold doEgvBudget
  have := @State.Kept.runCmd; have := @State.Kept.finishCmd; have := @State.Kept.modEgv
  grind

/-! ### HostRings -/

theorem State.Kept.fetchRun {k g : Nat} (h : s₀.Kept s) : s₀.Kept (State.fetchRun k g s).1 := by
  induction k generalizing s with
  | zero => exact h
  | succ n ih =>
    unfold State.fetchRun
    have := @State.Kept.readHost; have := @State.Kept.readRefused; have := @State.Kept.modRing
    have := @State.Kept.touchCtx
    grind

theorem State.Kept.askFill {g : Nat} (h : s₀.Kept s) : s₀.Kept (s.askFill g) := by
  unfold State.askFill
  have := @State.Kept.count; have := @State.Kept.pmuAdd; have := @State.Kept.modHqe
  grind

theorem State.Kept.fetchMore {g : Nat} (h : s₀.Kept s) : s₀.Kept (s.fetchMore g) := by
  unfold State.fetchMore
  have := @State.Kept.askFill; have := @State.Kept.andReport; have := @State.Kept.fetchRun
  grind

theorem State.Kept.gotDesc {j : ReadJob} {ok : Bool} (h : s₀.Kept s) : s₀.Kept (s.gotDesc j ok) := by
  unfold State.gotDesc
  have := @State.Kept.pmuAdd; have := @State.Kept.modRing; have := @State.Kept.report
  grind

theorem doDescriptorFetch_kept {d r : Nat} (h : s₀.Kept s) : s₀.Kept (doDescriptorFetch d r s) := by
  unfold doDescriptorFetch
  have := @State.Kept.fetchMore; have := @State.Kept.modRing; have := @State.Kept.takeCmd; have := @State.Kept.finishCmd
  grind

theorem State.Kept.storeCtx {g : Nat} (h : s₀.Kept s) : s₀.Kept (s.storeCtx g) := by
  unfold State.storeCtx
  have := @State.Kept.putRow
  grind

theorem State.Kept.useCtx {g : Nat} (h : s₀.Kept s) : s₀.Kept (s.useCtx g) := by
  unfold State.useCtx
  have := @State.Kept.modHqe
  grind

theorem State.Kept.cacheCtx {g : Nat} (h : s₀.Kept s) : s₀.Kept (s.cacheCtx g) := by
  unfold State.cacheCtx
  have := @State.Kept.useCtx; have := @State.Kept.storeCtx; have := @State.Kept.modHqe
  grind

theorem doContextFill_kept {g : Nat} (h : s₀.Kept s) : s₀.Kept (doContextFill g s) := by
  unfold doContextFill
  have := @State.Kept.modHqe; have := @State.Kept.cacheCtx; have := @State.Kept.fetchMore
  grind

theorem State.Kept.backContexts (h : s₀.Kept s) : s₀.Kept s.backContexts := by
  unfold State.backContexts
  have := @State.Kept.when; have := @State.Kept.setFlag
  grind

theorem State.Kept.storeContexts (h : s₀.Kept s) : s₀.Kept s.storeContexts := by
  unfold State.storeContexts
  have := @State.Kept.each; have := @State.Kept.storeCtx
  grind

theorem doDoorbell_kept {source page value : Nat} (h : s₀.Kept s) : s₀.Kept (doDoorbell source page value s) := by
  unfold doDoorbell
  have := @State.Kept.pmuAdd; have := @State.Kept.modHqe; have := @State.Kept.when; have := @State.Kept.setFlag
  grind

theorem State.Kept.dbDiscard {d : Nat} (h : s₀.Kept s) : s₀.Kept (s.dbDiscard d) := by
  unfold State.dbDiscard
  have := @State.Kept.count; have := @State.Kept.pmuAdd
  grind

theorem State.Kept.arm {g : Nat} (h : s₀.Kept s) : s₀.Kept (s.arm g) := by
  unfold State.arm
  have := @State.Kept.modRing; have := @State.Kept.signalIfCount
  grind

theorem State.Kept.ringDoorbell {e : DbEntry} (h : s₀.Kept s) : s₀.Kept (s.ringDoorbell e) := by
  unfold State.ringDoorbell
  have := @State.Kept.useCtx; have := @State.Kept.when; have := @State.Kept.pmuAdd; have := @State.Kept.modRing
  have := @State.Kept.fetchMore; have := @State.Kept.report; have := @State.Kept.andReport; have := @State.Kept.drainCmp
  have := @State.Kept.arm; have := @State.Kept.each
  grind

theorem doDoorbellProcess_kept (h : s₀.Kept s) : s₀.Kept (doDoorbellProcess s) := by
  unfold doDoorbellProcess
  have := @State.Kept.each; have := @State.Kept.askFill; have := @State.Kept.modHqe; have := @State.Kept.freeCredits
  have := @State.Kept.dbDiscard; have := @State.Kept.ringDoorbell
  grind

theorem State.Kept.ringCmd {g idx : Nat} {b : List Byte} {st : Option Nat} {f : State → State} (h : s₀.Kept s)
    (hf : ∀ t, s₀.Kept t → s₀.Kept (f t)) : s₀.Kept (s.ringCmd g idx b st f) := by
  unfold State.ringCmd
  split
  · exact h.finishCmd
  · exact (hf _ h).finishCmd

theorem doRingCreate_kept {d r idx : Nat} (h : s₀.Kept s) : s₀.Kept (doRingCreate d r idx s) := by
  unfold doRingCreate
  have := @State.Kept.runCmd; have := @State.Kept.ringCmd; have := @State.Kept.modRing; have := @State.Kept.cacheCtx
  grind

theorem State.Kept.disableRing {g : Nat} (h : s₀.Kept s) : s₀.Kept (s.disableRing g) := by
  unfold State.disableRing
  have := @State.Kept.modRing; have := @State.Kept.dropJobs; have := @State.Kept.modHqe
  grind

theorem doRingDestroy_kept {d r idx : Nat} (h : s₀.Kept s) : s₀.Kept (doRingDestroy d r idx s) := by
  unfold doRingDestroy
  have := @State.Kept.runCmd; have := @State.Kept.ringCmd; have := @State.Kept.disableRing
  grind

theorem State.Kept.stopFetch {g : Nat} (h : s₀.Kept s) : s₀.Kept (s.stopFetch g) := by
  unfold State.stopFetch
  have := @State.Kept.dropJobs; have := @State.Kept.modRing
  grind

theorem doRingStop_kept {d r idx : Nat} (h : s₀.Kept s) : s₀.Kept (doRingStop d r idx s) := by
  unfold doRingStop
  have := @State.Kept.runCmd; have := @State.Kept.ringCmd; have := @State.Kept.modRing; have := @State.Kept.stopFetch
  grind

theorem State.Kept.stopRings {n : Nat} (h : s₀.Kept s) : s₀.Kept (s.stopRings n) := by
  unfold State.stopRings
  have := @State.Kept.each; have := @State.Kept.stopFetch; have := @State.Kept.modRing
  grind

theorem State.Kept.resumeRing {g i : Nat} (h : s₀.Kept s) : s₀.Kept (s.resumeRing g i) := by
  unfold State.resumeRing
  have := @State.Kept.dropJobs; have := @State.Kept.modRing; have := @State.Kept.andReport; have := @State.Kept.drainCmp
  grind

theorem doRingResume_kept {d r idx : Nat} (h : s₀.Kept s) : s₀.Kept (doRingResume d r idx s) := by
  unfold doRingResume
  have := @State.Kept.runCmd; have := @State.Kept.ringCmd; have := @State.Kept.resumeRing
  grind

theorem doRingQuery_kept {d r idx : Nat} (h : s₀.Kept s) : s₀.Kept (doRingQuery d r idx s) := by
  unfold doRingQuery
  have := @State.Kept.runCmd; have := @State.Kept.finishCmd; have := @State.Kept.writeHost
  have := @State.Kept.writeRefused
  grind

theorem doNop_kept {d r idx : Nat} (h : s₀.Kept s) : s₀.Kept (doNop d r idx s) := by
  unfold doNop
  have := @State.Kept.runCmd; have := @State.Kept.finishCmd
  grind

theorem State.Kept.createAdmin {d subBase cmpBase subK cmpK vector modCnt : Nat} {pin : Bool} (h : s₀.Kept s) :
    s₀.Kept (s.createAdmin d subBase cmpBase subK cmpK vector modCnt pin) := by
  unfold State.createAdmin
  have := @State.Kept.modRing; have := @State.Kept.cacheCtx
  grind

theorem State.Kept.applyBlock {d : Nat} {b : List Byte} (h : s₀.Kept s) : s₀.Kept (s.applyBlock d b) := by
  unfold State.applyBlock
  have := @State.Kept.modDom; have := @State.Kept.when; have := @State.Kept.createAdmin
  grind

theorem doDomSet_kept {d r idx : Nat} (h : s₀.Kept s) : s₀.Kept (doDomSet d r idx s) := by
  unfold doDomSet
  have := @State.Kept.runCmd; have := @State.Kept.finishCmd; have := @State.Kept.readHost
  have := @State.Kept.readRefused
  grind

theorem State.Kept.gotBlock {g idx : Nat} {data : Option (List Byte)} (h : s₀.Kept s) :
    s₀.Kept (s.gotBlock g idx data) := by
  unfold State.gotBlock
  have := @State.Kept.finishCmd; have := @State.Kept.ringCmd; have := @State.Kept.applyBlock
  grind

theorem doDomReset_kept {d r idx : Nat} (h : s₀.Kept s) : s₀.Kept (doDomReset d r idx s) := by
  refine h.runCmd fun g b t ht => .ite ht.finishCmd (.ite ht.finishCmd ?_)
  refine .andReport (.resetDone (.each (.startPrd (.modPrd (.modDom (.each (.each ht ?_) ?_)))) ?_))
  · exact fun _ _ hu => hu.each fun _ _ hv => hv.abandon.andReport
  · exact fun _ _ hu => hu.disableRing
  · exact fun _ _ hu => .ite hu.modProduct.freeProduct.andReport (.ite hu.modProduct.modProduct hu.modProduct)

theorem State.Kept.hqeEnable (h : s₀.Kept s) : s₀.Kept s.hqeEnable := by
  unfold State.hqeEnable
  have := @State.Kept.setFlag; have := @State.Kept.modHqe; have := @State.Kept.modDom; have := @State.Kept.createAdmin
  have := @State.Kept.when; have := @State.Kept.backContexts
  grind

theorem doHqeEnable_kept (h : s₀.Kept s) : s₀.Kept (doHqeEnable s) := by
  unfold doHqeEnable
  have := @State.Kept.hqeEnable
  grind

theorem State.Kept.hqeDisable (h : s₀.Kept s) : s₀.Kept s.hqeDisable := by
  unfold State.hqeDisable
  have := @State.Kept.setFlag; have := @State.Kept.wr; have := @State.Kept.modHqe; have := @State.Kept.freeCredits
  grind

theorem doAdminResume_kept (h : s₀.Kept s) : s₀.Kept (doAdminResume s) := by
  unfold doAdminResume
  have := @State.Kept.resumeRing
  grind

theorem State.Kept.takeBuf {i g : Nat} {q : PFrame} {k : Nat} (h : s₀.Kept s) :
    s₀.Kept (State.takeBuf i g q k s) := by
  induction k generalizing s with
  | zero => exact h
  | succ n ih =>
    unfold State.takeBuf
    dsimp only
    (repeat' split) <;> (have := @State.Kept.report; have := @State.Kept.modRing; have := @State.Kept.pmuAdd; grind)

theorem State.Kept.settleSpill {i : Nat} (h : s₀.Kept s) : s₀.Kept (s.settleSpill i) := by
  unfold State.settleSpill
  have := @State.Kept.modProduct
  grind

theorem State.Kept.lineCopied {e : Option (Nat × Nat × Nat)} (h : s₀.Kept s) : s₀.Kept (s.lineCopied e) := by
  unfold State.lineCopied
  have := @State.Kept.dropLine; have := @State.Kept.settleSpill; have := @State.Kept.tryEnds
  have := @State.Kept.retryCommits
  grind

theorem doHostLineRelease_kept {i : Nat} (h : s₀.Kept s) : s₀.Kept (doHostLineRelease i s) := by
  unfold doHostLineRelease
  dsimp only
  split
  · exact h
  next q _ =>
    refine .ite h ?_
    split
    · exact h
    · have h₁ : s₀.Kept ((s.takeBuf i (pdbRing q.pdb) q 65536).fetchMore (pdbRing q.pdb)) := h.takeBuf.fetchMore
      split
      · exact h₁
      · split
        · refine .tryEnds (.report ?_)
          split
          · exact h₁.writeRefused
          next first => exact (h₁.writeHost first).writeRefused
        next t both =>
          have ht : s₀.Kept t := by
            obtain ⟨v, first, second⟩ := Option.bind_eq_some_iff.mp both
            have hv := h₁.writeHost first
            split at second
            · exact Option.some.inj second ▸ hv
            · exact hv.writeHost second
          refine .retryCommits (.tryEnds (.settleSpill (.fetchMore ?_)))
          refine .ite (.pmuAdd (.report (.modRing (.modPFrame (.modLine ?_))))) (.modRing (.modPFrame (.modLine ?_)))
          · exact .ite (.andReport ht.markInvalid.sealFail) ht
          · exact .ite (.andReport ht.markInvalid.sealFail) ht

theorem State.Kept.moderate {n : Nat} (h : s₀.Kept s) : s₀.Kept (s.moderate n) := by
  unfold State.moderate
  have := @State.Kept.each; have := @State.Kept.modRing; have := @State.Kept.signal
  grind

theorem State.Kept.mwrFailed {m : MwrRec} {cause addr : Nat} (h : s₀.Kept s) :
    s₀.Kept (s.mwrFailed m cause addr) := by
  unfold State.mwrFailed
  have := @State.Kept.report; have := @State.Kept.modFst; have := @State.Kept.finishCmd
  grind

/-! ### Pmu -/

theorem State.Kept.takeSnapshot (h : s₀.Kept s) : s₀.Kept s.takeSnapshot := by
  unfold State.takeSnapshot
  have := @State.Kept.wr; have := @State.Kept.each; have := @State.Kept.setFld; have := @State.Kept.event
  grind

theorem State.Kept.snapAt {n line : Nat} (h : s₀.Kept s) : s₀.Kept (s.snapAt n line) := by
  unfold State.snapAt
  have := @State.Kept.when; have := @State.Kept.setFlag; have := @State.Kept.takeSnapshot
  grind

theorem doPmuFreeze_kept {on : Bool} (h : s₀.Kept s) : s₀.Kept (doPmuFreeze on s) := by
  unfold doPmuFreeze
  have := @State.Kept.setFlag
  grind

theorem doCounterOverflow_kept {i : Nat} (h : s₀.Kept s) : s₀.Kept (doCounterOverflow i s) := by
  unfold doCounterOverflow
  have := @State.Kept.modPmu; have := @State.Kept.wr; have := @State.Kept.when; have := @State.Kept.event
  have := @doPmuFreeze_kept
  grind

/-! ### Boundary -/

theorem State.Kept.sendSync {n : Nat} (h : s₀.Kept s) : s₀.Kept (s.sendSync n) := by
  unfold State.sendSync
  have := @State.Kept.emit
  grind

theorem State.Kept.countSync {n : Nat} (h : s₀.Kept s) : s₀.Kept (s.countSync n) := by
  unfold State.countSync
  have := @State.Kept.when; have := @State.Kept.modCfg
  grind

theorem State.Kept.showXsteal (h : s₀.Kept s) : s₀.Kept s.showXsteal := by
  unfold State.showXsteal
  have := @State.Kept.setFld; have := @State.Kept.modTf
  grind

theorem State.Kept.injLine {n : Nat} (h : s₀.Kept s) : s₀.Kept (s.injLine n) := by
  unfold State.injLine
  have := @State.Kept.each; have := @State.Kept.when; have := @State.Kept.injStart
  grind

theorem State.Kept.lvtLine {n : Nat} (h : s₀.Kept s) : s₀.Kept (s.lvtLine n) := by
  unfold State.lvtLine
  have := @State.Kept.update
  grind

theorem State.Kept.stopRaster {n : Nat} (h : s₀.Kept s) : s₀.Kept (s.stopRaster n) := by
  unfold State.stopRaster
  have := @State.Kept.rasterHalt; have := @State.Kept.each; have := @State.Kept.endDisplay
  grind

theorem State.Kept.frameBoundary {n : Nat} {stop jumped : Bool} (h : s₀.Kept s) :
    s₀.Kept (s.frameBoundary n stop jumped) := by
  unfold State.frameBoundary
  extract_lets s₁ s₂ s₃ s₄ s₅
  have h₂ : s₀.Kept s₂ := h.sendSync.countSync.when fun _ ht => ht.pmuAdd
  have h₅ : s₀.Kept s₅ := h₂.modEgv.commitBoundary.alignFrame.prdBoundary.stopRings
  exact .ite h₅ h₅.dispBoundary.freeFrames

theorem State.Kept.displayLines {k n : Nat} (h : s₀.Kept s) : s₀.Kept (State.displayLines k n s) := by
  induction k generalizing s with
  | zero => exact h
  | succ k ih =>
    unfold State.displayLines
    have := @doDisplayLine_kept
    grind

theorem State.Kept.lineEvents {n len : Nat} {frame stop jumped : Bool} (h : s₀.Kept s) :
    s₀.Kept (s.lineEvents n len frame stop jumped) := by
  unfold State.lineEvents
  extract_lets s₁ s₂ s₃ s₄ s₅ s₆ s₇
  have h₂ : s₀.Kept s₂ := (h.when fun _ ht => ht.pmuAdd.showXsteal).when fun _ ht => ht.frameBoundary
  have h₅ : s₀.Kept s₅ := (h₂.snapAt.when fun _ ht => ht.grant).each fun _ _ ht => ht.displayLines
  exact h₅.mgdLine.lateAtBoundary.deadlineCheck.moderate.lvtLine.injLine

theorem State.Kept.lineStep {n : Nat} (h : s₀.Kept s) : s₀.Kept (s.lineStep n) := by
  unfold State.lineStep
  have := @State.Kept.advanceLine; have := @State.Kept.lineEvents; have := @State.Kept.stopRaster
  grind

theorem doRasterLineBoundary_kept {n : Nat} (h : s₀.Kept s) : s₀.Kept (doRasterLineBoundary n s) := by
  unfold doRasterLineBoundary
  have := @State.Kept.each; have := @State.Kept.when; have := @State.Kept.lineStep
  grind

theorem State.Kept.rasterGo {n f : Nat} (h : s₀.Kept s) : s₀.Kept (s.rasterGo n f) := by
  unfold State.rasterGo
  have := @State.Kept.rasterBegin; have := @State.Kept.lineEvents; have := @State.Kept.each
  have := @State.Kept.skipTriggers
  grind

theorem doRasterStart_kept {n : Nat} (h : s₀.Kept s) : s₀.Kept (doRasterStart n s) := by
  unfold doRasterStart
  dsimp only
  (repeat' split) <;> (have := @State.Kept.setFlag; have := @State.Kept.modRas; have := @State.Kept.rasterGo; grind)

theorem State.Kept.rasterStop {n : Nat} (h : s₀.Kept s) : s₀.Kept (s.rasterStop n) := by
  unfold State.rasterStop
  have := @State.Kept.setFlag; have := @State.Kept.modRas
  grind

theorem doRasterAlignedStart_kept {n : Nat} (h : s₀.Kept s) : s₀.Kept (doRasterAlignedStart n s) := by
  unfold doRasterAlignedStart
  have := @State.Kept.rasterGo
  grind

theorem State.Kept.catchUp {k n : Nat} (h : s₀.Kept s) : s₀.Kept (State.catchUp k n s) := by
  induction k generalizing s with
  | zero => exact h
  | succ k ih =>
    unfold State.catchUp
    have := @State.Kept.lineStep
    grind

theorem State.Kept.moveTo {n line acc : Nat} (h : s₀.Kept s) : s₀.Kept (s.moveTo n line acc) := by
  unfold State.moveTo
  have := @State.Kept.modRas; have := @State.Kept.catchUp
  grind

theorem State.Kept.placeBoundary {n frame : Nat} {d : Int} (h : s₀.Kept s) : s₀.Kept (s.placeBoundary n frame d) := by
  unfold State.placeBoundary
  have := @State.Kept.modRas; have := @State.Kept.moveTo; have := @State.Kept.boundaryRecord
  have := @State.Kept.lineEvents; have := @State.Kept.stopRaster; have := @State.Kept.catchUp
  grind

theorem doSyncWordRx_kept {w : Nat} (h : s₀.Kept s) : s₀.Kept (doSyncWordRx w s) := by
  unfold doSyncWordRx
  have := @State.Kept.when; have := @State.Kept.emit; have := @State.Kept.setFlag; have := @State.Kept.setFld
  have := @State.Kept.modCfg; have := @State.Kept.placeBoundary
  grind

theorem doSyncLoss_kept (h : s₀.Kept s) : s₀.Kept (doSyncLoss s) := by
  unfold doSyncLoss
  have := @State.Kept.setFlag; have := @State.Kept.raise
  grind

theorem State.Kept.latchFrame {n : Nat} (h : s₀.Kept s) : s₀.Kept (s.latchFrame n) := by
  unfold State.latchFrame
  have := @State.Kept.modRas
  grind

theorem State.Kept.latchTod (h : s₀.Kept s) : s₀.Kept s.latchTod := by
  unfold State.latchTod
  have := @State.Kept.modTime
  grind

/-! ### Can -/

theorem State.Kept.canState {c : Nat} (h : s₀.Kept s) : s₀.Kept (s.canState c) := by
  unfold State.canState
  have := @State.Kept.setFld
  grind

theorem doCanBusOff_kept {c : Nat} (h : s₀.Kept s) : s₀.Kept (doCanBusOff c s) := by
  unfold doCanBusOff
  have := @State.Kept.setFld; have := @State.Kept.setFlag; have := @State.Kept.event; have := @State.Kept.raise
  grind

theorem State.Kept.canJoin {c : Nat} (h : s₀.Kept s) : s₀.Kept (s.canJoin c) := by
  unfold State.canJoin
  have := @State.Kept.setFld
  grind

theorem doCanBusOffRecovery_kept {c : Nat} (h : s₀.Kept s) : s₀.Kept (doCanBusOffRecovery c s) := by
  unfold doCanBusOffRecovery
  have := @State.Kept.canJoin
  grind

theorem doRestart_kept {c : Nat} (h : s₀.Kept s) : s₀.Kept (doRestart c s) := by
  unfold doRestart
  have := @State.Kept.canJoin
  grind

theorem State.Kept.canEnable {c : Nat} {en : Bool} (h : s₀.Kept s) : s₀.Kept (s.canEnable c en) := by
  unfold State.canEnable
  have := @State.Kept.canJoin; have := @State.Kept.setFld; have := @State.Kept.modVbr
  grind

theorem doCanBusError_kept {c : Nat} {tx : Bool} (h : s₀.Kept s) : s₀.Kept (doCanBusError c tx s) := by
  unfold doCanBusError
  have := @State.Kept.count; have := @State.Kept.setFld; have := @State.Kept.addTo; have := @State.Kept.canState
  have := @doCanBusOff_kept
  grind

theorem State.Kept.canGood {c : Nat} (h : s₀.Kept s) : s₀.Kept (s.canGood c) := by
  unfold State.canGood
  have := @State.Kept.count; have := @State.Kept.pmuAdd; have := @State.Kept.setFld; have := @State.Kept.draw
  have := @State.Kept.canState
  grind

theorem State.Kept.modFilt {f : Nat} {g : FilterRun → FilterRun} (h : s₀.Kept s) : s₀.Kept (s.modFilt f g) := by
  unfold State.modFilt
  have := @State.Kept.modVbr
  grind

theorem State.Kept.writeObject {b : List Byte} {val : Option Int} (h : s₀.Kept s) :
    s₀.Kept (s.writeObject b val) := by
  unfold State.writeObject
  have := @State.Kept.modVbr
  grind

theorem State.Kept.writeTarget {i c : Nat} {v r : Int} {valid range stale : Bool} (h : s₀.Kept s) :
    s₀.Kept (s.writeTarget i c v r valid range stale) := by
  unfold State.writeTarget
  have := @State.Kept.pmuAdd; have := @State.Kept.modMgd; have := @State.Kept.modVbr; have := @State.Kept.event
  have := @State.Kept.writeObject
  grind

theorem State.Kept.runEntry {c : Nat} {p : List Byte} {i : Nat} (h : s₀.Kept s) : s₀.Kept (s.runEntry c p i) := by
  unfold State.runEntry
  have := @State.Kept.when; have := @State.Kept.draw; have := @State.Kept.modVbr; have := @State.Kept.writeTarget
  have := @State.Kept.count
  grind

theorem State.Kept.filterTakes {c f : Nat} {p : List Byte} (h : s₀.Kept s) : s₀.Kept (s.filterTakes c f p) := by
  unfold State.filterTakes
  have := @State.Kept.modFilt; have := @State.Kept.each; have := @State.Kept.runEntry; have := @State.Kept.pmuAdd
  have := @State.Kept.count
  grind

theorem doCanMessageRx_kept {c : Nat} {m : CanMsg} (h : s₀.Kept s) : s₀.Kept (doCanMessageRx c m s) := by
  unfold doCanMessageRx
  have := @State.Kept.canGood; have := @State.Kept.filterTakes
  grind

theorem State.Kept.passMessage {c : Nat} {m : CanMsg} (h : s₀.Kept s) : s₀.Kept (s.passMessage c m) := by
  unfold State.passMessage
  have := @State.Kept.inject; have := @State.Kept.each; have := @doCanMessageRx_kept
  grind

theorem doFilterStale_kept {f : Nat} (h : s₀.Kept s) : s₀.Kept (doFilterStale f s) := by
  unfold doFilterStale
  have := @State.Kept.modFilt; have := @State.Kept.count; have := @State.Kept.each; have := @State.Kept.when
  have := @State.Kept.draw; have := @State.Kept.writeTarget; have := @State.Kept.event; have := @State.Kept.raise
  grind

theorem doTxObjectDue_kept {k : Nat} (h : s₀.Kept s) : s₀.Kept (doTxObjectDue k s) := by
  unfold doTxObjectDue
  have := @State.Kept.modVbr; have := @State.Kept.when
  grind

theorem doCanFrameTx_kept {c : Nat} (h : s₀.Kept s) : s₀.Kept (doCanFrameTx c s) := by
  unfold doCanFrameTx
  dsimp only
  (repeat' split) <;> (have := @State.Kept.modVbr; have := @State.Kept.inject; have := @State.Kept.each
                       have := @State.Kept.emit; have := @State.Kept.setFld; have := @State.Kept.canState
                       have := @State.Kept.pmuAdd; grind)

theorem State.Kept.lvtOff (h : s₀.Kept s) : s₀.Kept s.lvtOff := by
  unfold State.lvtOff
  have := @State.Kept.setFlag
  grind

theorem doLvtTick_kept (h : s₀.Kept s) : s₀.Kept (doLvtTick s) := by
  unfold doLvtTick
  have := @State.Kept.modVbr; have := @State.Kept.each; have := @State.Kept.writeEach; have := @State.Kept.lvtOff
  grind

/-! ### Ingress -/

theorem State.Kept.ladderDrop {i f : Nat} (h : s₀.Kept s) : s₀.Kept (s.ladderDrop i f) := by
  unfold State.ladderDrop
  have := @State.Kept.andReport; have := @State.Kept.dropByClass; have := @State.Kept.pmuAdd
  grind

theorem State.Kept.beginProducts {st f : Nat} (h : s₀.Kept s) : s₀.Kept (s.beginProducts st f) := by
  unfold State.beginProducts
  exact h.modStrm.each fun _ _ ht => .ite ht.modProduct.ladderDrop ht

theorem State.Kept.storeMissing {p : Nat} {o : OpenFrame} {l : Nat} (h : s₀.Kept s) :
    s₀.Kept (s.storeMissing p o l) := by
  unfold State.storeMissing
  have := @State.Kept.noteSubst; have := @State.Kept.putLine; have := @State.Kept.setFlag; have := @State.Kept.pmuAdd
  grind

theorem State.Kept.closeFrame {p e : Nat} (h : s₀.Kept s) : s₀.Kept (s.closeFrame p e) := by
  unfold State.closeFrame
  split
  · exact h
  · extract_lets st missing s₁ s₂ last s₃ s₄ mine s₅ s₆ s₇
    have h₂ : s₀.Kept s₂ := (h.when fun _ ht => ht.invalidateOpen.count.pmuAdd).each fun _ _ ht => ht.storeMissing
    have h₄ : s₀.Kept s₄ := h₂.modPort.modStrm.publishAll.stitchClose
    have h₆ : s₀.Kept s₆ := .trigClosed (h₄.each fun _ _ ht => ht.modLine.settle)
    exact .retryCommits (h₆.each fun _ _ ht => ht.tryEnds)

theorem State.Kept.closeFrames {p : Nat} {which : OpenFrame → Bool} (h : s₀.Kept s) :
    s₀.Kept (s.closeFrames p which) := by
  unfold State.closeFrames
  have := @State.Kept.each; have := @State.Kept.closeFrame
  grind

theorem State.Kept.frameStart {p v fn : Nat} (h : s₀.Kept s) : s₀.Kept (s.frameStart p v fn) := by
  unfold State.frameStart
  have := @State.Kept.closeFrames; have := @State.Kept.each; have := @State.Kept.bindFrame; have := @State.Kept.modPort
  have := @State.Kept.modStrm; have := @State.Kept.limitSubst; have := @State.Kept.beginProducts
  grind

theorem State.Kept.ingData {p : Nat} (h : s₀.Kept s) : s₀.Kept (s.ingData p) := by
  unfold State.ingData
  have := @State.Kept.raise
  grind

theorem State.Kept.orphan {p : Nat} (h : s₀.Kept s) : s₀.Kept (s.orphan p) := by
  unfold State.orphan
  have := @State.Kept.setFlag; have := @State.Kept.ingData
  grind

theorem State.Kept.lostHeader {p : Nat} (h : s₀.Kept s) : s₀.Kept (s.lostHeader p) := by
  unfold State.lostHeader
  have := @State.Kept.each; have := @State.Kept.invalidateOpen; have := @State.Kept.ingData
  grind

theorem State.Kept.substSkipped {p e l : Nat} (h : s₀.Kept s) : s₀.Kept (s.substSkipped p e l) := by
  unfold State.substSkipped
  have := @State.Kept.modOpen; have := @State.Kept.storeSubst; have := @State.Kept.place; have := @State.Kept.report
  have := @State.Kept.refuse
  grind

theorem State.Kept.lineStart {p e n : Nat} (h : s₀.Kept s) : s₀.Kept (s.lineStart p e n) := by
  unfold State.lineStart
  split
  · exact h
  · extract_lets last skipped s₁ s₂
    have h₂ : s₀.Kept s₂ := h.modOpen.when fun _ ht => ht.invalidateOpen
    exact .ite h (.ite h.modOpen (.publishAll (h₂.each fun _ _ ht => ht.substSkipped)))

theorem State.Kept.lineStarts {p v n : Nat} (h : s₀.Kept s) : s₀.Kept (s.lineStarts p v n) := by
  unfold State.lineStarts
  have := @State.Kept.each; have := @State.Kept.lineStart
  grind

theorem State.Kept.withHeader {p : Nat} {hdr : CsiHeader} {f : CsiHeader → Bool → State → State} (h : s₀.Kept s)
    (hf : ∀ g b t, s₀.Kept t → s₀.Kept (f g b t)) : s₀.Kept (s.withHeader p hdr f) := by
  unfold State.withHeader
  split
  · exact h.setFlag.count.pmuAdd.lostHeader
  · exact hf _ _ _ h

theorem State.Kept.noteFixed {p : Nat} {fixed : Bool} (h : s₀.Kept s) : s₀.Kept (s.noteFixed p fixed) := by
  unfold State.noteFixed
  have := @State.Kept.when; have := @State.Kept.count; have := @State.Kept.pmuAdd
  grind

theorem State.Kept.shortPacket {p : Nat} {h : CsiHeader} (hs : s₀.Kept s) : s₀.Kept (s.shortPacket p h) := by
  unfold State.shortPacket
  have := @State.Kept.pmuAdd; have := @State.Kept.withHeader; have := @State.Kept.noteFixed
  have := @State.Kept.frameStart; have := @State.Kept.closeFrames; have := @State.Kept.lineStarts
  grind

theorem State.Kept.footer {p : Nat} {o : Option OpenFrame} {k : LongPacket} {cut : Bool} (h : s₀.Kept s) :
    s₀.Kept (s.footer p o k cut).1 := by
  unfold State.footer
  split
  · exact h
  · extract_lets crc cse len s₁ s₂ s₃ s₄ s₅
    have h₂ : s₀.Kept s₂ := (h.when fun _ ht => ht.setFlag.count.pmuAdd.ingData).when fun _ ht => ht.setFlag.count.pmuAdd.ingData
    have h₄ : s₀.Kept s₄ := (h₂.when fun _ ht => ht.setFlag.ingData).when fun _ ht => ht.setFlag.raise.ingData
    exact .pair (h₄.when fun _ ht => ht.setFlag.ingData)

theorem State.Kept.storeLine {p e l : Nat} {k : LongPacket} {fixed cut : Bool} (h : s₀.Kept s) :
    s₀.Kept (s.storeLine p e l k fixed cut) := by
  unfold State.storeLine
  split
  · exact h
  · refine .each (.publishAll ?_) fun _ _ ht => ht.tryEnds
    dsimp only
    split
    · refine .report (.refuse (.place ?_))
      exact .when (.when h.modOpen.footer fun _ ht => ht.invalidateOpen) fun _ ht => ht.lineTimed
    · refine .ite (.storeSubst (.when (.report (.place ?_)) fun _ ht => ht.count.pmuAdd)) ?_
      · exact .when (.when h.modOpen.footer fun _ ht => ht.invalidateOpen) fun _ ht => ht.lineTimed
      · split
        · refine .putLine (.when (.report (.place ?_)) fun _ ht => ht.count.pmuAdd)
          exact .when (.when h.modOpen.footer fun _ ht => ht.invalidateOpen) fun _ ht => ht.lineTimed
        · refine .pmuAdd (.setFlag (.putLine (.when (.report (.place ?_)) fun _ ht => ht.count.pmuAdd)))
          exact .when (.when h.modOpen.footer fun _ ht => ht.invalidateOpen) fun _ ht => ht.lineTimed

theorem State.Kept.mappedPacket {p e : Nat} {k : LongPacket} {fixed cut : Bool} (h : s₀.Kept s) :
    s₀.Kept (s.mappedPacket p e k fixed cut) := by
  unfold State.mappedPacket
  dsimp only
  (repeat' split) <;> (have := @State.Kept.orphan; have := @State.Kept.modOpen; have := @State.Kept.storeLine
                       have := @State.Kept.footer; have := @State.Kept.count; have := @State.Kept.ingData; grind)

theorem doLongPacket_kept {p : Nat} {k : LongPacket} {cut : Bool} (h : s₀.Kept s) :
    s₀.Kept (doLongPacket p k s cut) := by
  unfold doLongPacket
  have := @State.Kept.pmuAdd; have := @State.Kept.withHeader; have := @State.Kept.noteFixed; have := @State.Kept.setFlag
  have := @State.Kept.lostHeader; have := @State.Kept.count; have := @State.Kept.mappedPacket
  grind

theorem State.Kept.passPacket {p : Nat} {k : LongPacket} (h : s₀.Kept s) : s₀.Kept (s.passPacket p k) := by
  unfold State.passPacket
  have := @State.Kept.inject; have := @State.Kept.each; have := @doLongPacket_kept
  grind

theorem State.Kept.cutLine {p : Nat} {part : Option LongPacket} (h : s₀.Kept s) : s₀.Kept (s.cutLine p part) := by
  unfold State.cutLine
  have := @doLongPacket_kept
  grind

theorem doSubstitutePublished_kept {st l : Nat} (h : s₀.Kept s) : s₀.Kept (doSubstitutePublished st l s) := by
  unfold doSubstitutePublished
  have := @State.Kept.modLine; have := @State.Kept.publishAll; have := @State.Kept.each; have := @State.Kept.tryEnds
  grind

theorem doFrameTimeout_kept {st : Nat} (h : s₀.Kept s) : s₀.Kept (doFrameTimeout st s) := by
  unfold doFrameTimeout
  have := @State.Kept.closeFrame; have := @State.Kept.settleMissed
  grind

theorem State.Kept.ingDown {p : Nat} {lost : Bool} (h : s₀.Kept s) : s₀.Kept (s.ingDown p lost) := by
  unfold State.ingDown
  have := @State.Kept.setFlag; have := @State.Kept.setFld; have := @State.Kept.when; have := @State.Kept.raise
  have := @State.Kept.ingData; have := @State.Kept.closeFrames
  grind

theorem doAphyLinkUp_kept {p : Nat} (h : s₀.Kept s) : s₀.Kept (doAphyLinkUp p s) := by
  unfold doAphyLinkUp
  have := @State.Kept.setFlag; have := @State.Kept.when; have := @State.Kept.setFld
  grind

/-! ### PoolMem -/

theorem State.Kept.spoilGranule {g ofs val : Nat} (h : s₀.Kept s) : s₀.Kept (s.spoilGranule g ofs val) := by
  unfold State.spoilGranule
  have := @State.Kept.each; have := @State.Kept.modLine; have := @State.Kept.modProduct
  grind

theorem State.Kept.loseEntry {d : Nat} (h : s₀.Kept s) : s₀.Kept (s.loseEntry d) := by
  unfold State.loseEntry
  have := @State.Kept.dropLine; have := @State.Kept.modPool; have := @State.Kept.each; have := @State.Kept.tfSubstitute
  have := @State.Kept.andReport; have := @State.Kept.loseLine
  grind

theorem doPoolError_kept {detail : Nat} (h : s₀.Kept s) : s₀.Kept (doPoolError detail s) := by
  unfold doPoolError
  have := @State.Kept.draw; have := @State.Kept.count; have := @State.Kept.setFlag; have := @State.Kept.when
  have := @State.Kept.wr; have := @State.Kept.each; have := @State.Kept.loseEntry; have := @State.Kept.spoilGranule
  have := @State.Kept.raise
  grind

/-! ### Faults -/

theorem State.Kept.beginTraining (h : s₀.Kept s) : s₀.Kept s.beginTraining := by
  unfold State.beginTraining
  have := @State.Kept.setFlag; have := @State.Kept.modFst
  grind

theorem State.Kept.settleMonitor {src : Nat} (h : s₀.Kept s) : s₀.Kept (s.settleMonitor src) := by
  unfold State.settleMonitor
  grind [State.Kept.draw, State.Kept.modFcl, State.Kept.beginTraining]

theorem State.Kept.settleMonitors (h : s₀.Kept s) : s₀.Kept s.settleMonitors := by
  unfold State.settleMonitors
  have := @State.Kept.each; have := @State.Kept.settleMonitor
  grind

theorem State.Kept.clearSticky {src : Nat} (h : s₀.Kept s) : s₀.Kept (s.clearSticky src) := by
  unfold State.clearSticky
  have := @State.Kept.settleMonitor; have := @State.Kept.wr
  grind

theorem doStatusClear_kept {hi : Bool} {mask : Nat} (h : s₀.Kept s) : s₀.Kept (doStatusClear hi mask s) := by
  unfold doStatusClear
  have := @State.Kept.each; have := @State.Kept.clearSticky
  grind

theorem doFirstFaultClear_kept (h : s₀.Kept s) : s₀.Kept (doFirstFaultClear s) := by
  unfold doFirstFaultClear
  have := @State.Kept.setFlag; have := @State.Kept.wr
  grind

theorem State.Kept.selfCheckFail {code : Nat} (h : s₀.Kept s) : s₀.Kept (s.selfCheckFail code) := by
  unfold State.selfCheckFail
  have := @State.Kept.setBit64; have := @State.Kept.report
  grind

theorem State.Kept.cutDomain {d : Nat} {parts : List (Fin 30 × LongPacket)} (h : s₀.Kept s) :
    s₀.Kept (s.cutDomain d parts) := by
  unfold State.cutDomain
  have := @State.Kept.each; have := @State.Kept.cutLine; have := @State.Kept.modBlm
  grind

theorem doClockMonitorFail_kept {d : Nat} {parts : List (Fin 30 × LongPacket)} (h : s₀.Kept s) :
    s₀.Kept (doClockMonitorFail d parts s) := by
  unfold doClockMonitorFail
  have := @State.Kept.when; have := @State.Kept.cutDomain; have := @State.Kept.modFcl; have := @State.Kept.raise
  grind

theorem doFaultRaise_kept {src detail : Nat} (h : s₀.Kept s) : s₀.Kept (doFaultRaise src detail s) := by
  unfold doFaultRaise
  have := @State.Kept.selfCheckFail; have := @State.Kept.modFcl; have := @State.Kept.raise; have := @doPoolError_kept
  have := @doClockMonitorFail_kept
  grind

theorem doForceSafe_kept {path : Path} (h : s₀.Kept s) : s₀.Kept (doForceSafe path s) := by
  unfold doForceSafe
  have := @State.Kept.raise
  grind

theorem doPolicyLock_kept (h : s₀.Kept s) : s₀.Kept (doPolicyLock s) := by
  unfold doPolicyLock
  have := @State.Kept.setFlag
  grind

/-! ### FrameStore -/

theorem doFstProbe_kept {v : Nat} (h : s₀.Kept s) : s₀.Kept (doFstProbe v s) := by
  unfold doFstProbe
  have := @State.Kept.wr
  grind

theorem State.Kept.flipWords {ws : List Nat} {b : List Byte} (h : s₀.Kept s) : s₀.Kept (s.flipWords ws b).1 := by
  unfold State.flipWords
  have := @State.Kept.draw; have := @State.Kept.foldl_fst
  grind

theorem State.Kept.eccResult {corr : Nat} {bad : List Nat} {k : Nat} {scrub : Bool} (h : s₀.Kept s) :
    s₀.Kept (s.eccResult corr bad k scrub) := by
  unfold State.eccResult
  extract_lets m s₁
  have h₁ : s₀.Kept s₁ := h.addTo.pmuAdd
  split
  · exact h₁
  · exact .raise (h₁.addTo.pmuAdd.when fun _ ht => ht.wr.wr)

theorem State.Kept.fstSealFail {st prd line frame stored computed : Nat} (h : s₀.Kept s) :
    s₀.Kept (s.fstSealFail st prd line frame stored computed) := by
  unfold State.fstSealFail
  have := @State.Kept.andReport; have := @State.Kept.sealFail
  grind

theorem State.Kept.takeSlot {i f : Nat} (h : s₀.Kept s) : s₀.Kept (s.takeSlot i f).1 := by
  unfold State.takeSlot
  have := @State.Kept.modFst; have := @State.Kept.modProduct
  grind

theorem State.Kept.slotStep {i : Nat} (h : s₀.Kept s) : s₀.Kept (s.slotStep i) := by
  unfold State.slotStep
  have := @State.Kept.takeSlot; have := @State.Kept.andReport; have := @State.Kept.count
  have := @State.Kept.dropByClass; have := @State.Kept.modProduct; have := @State.Kept.tryEnds
  grind

theorem State.Kept.beginWork {w : FstWork} (h : s₀.Kept s) : s₀.Kept (s.beginWork w) := by
  unfold State.beginWork
  have := @State.Kept.modFst
  grind

theorem State.Kept.queueJob {k n : Nat} (h : s₀.Kept s) : s₀.Kept (State.queueJob k n s) := by
  induction k generalizing s with
  | zero => exact h
  | succ k ih =>
    unfold State.queueJob
    have := @State.Kept.modFst
    grind

theorem State.Kept.fstOffer (h : s₀.Kept s) : s₀.Kept s.fstOffer := by
  unfold State.fstOffer
  have := @State.Kept.each; have := @State.Kept.slotStep; have := @State.Kept.beginWork; have := @State.Kept.queueJob
  grind

theorem State.Kept.fstLine {i f d : Nat} (h : s₀.Kept s) : s₀.Kept (s.fstLine i f d) := by
  unfold State.fstLine
  have := @State.Kept.dropLine; have := @State.Kept.modProduct; have := @State.Kept.modPFrame
  have := @State.Kept.tryEnds; have := @State.Kept.retryCommits
  grind

theorem State.Kept.fstHeader {i f : Nat} {valid : Bool} (h : s₀.Kept s) : s₀.Kept (s.fstHeader i f valid) := by
  unfold State.fstHeader
  have := @State.Kept.modProduct; have := @State.Kept.tryEnds; have := @State.Kept.retryCommits
  grind

theorem State.Kept.fstDropped {i f : Nat} (h : s₀.Kept s) : s₀.Kept (s.fstDropped i f) := by
  unfold State.fstDropped
  have := @State.Kept.modProduct; have := @State.Kept.tryFrees
  grind

theorem State.Kept.fstSpillOut {i d : Nat} (h : s₀.Kept s) : s₀.Kept (s.fstSpillOut i d) := by
  unfold State.fstSpillOut
  have := @State.Kept.pmuAdd; have := @State.Kept.dropLine; have := @State.Kept.modProduct; have := @State.Kept.tryEnds
  grind

theorem State.Kept.fstSpillIn {i : Nat} {buf : List Byte} (h : s₀.Kept s) : s₀.Kept (s.fstSpillIn i buf) := by
  unfold State.fstSpillIn
  dsimp only
  split
  · exact h
  · split
    · exact h
    · split
      · exact h
      · refine .settleSpill (.ite (.modProduct (.pmuAdd (.putLine h.modPool)))
          (.fstSealFail (.markInvalid (.modProduct (.pmuAdd (.putLine h.modPool))))))

theorem State.Kept.fstFetch {i f key y : Nat} {buf : List Byte} (h : s₀.Kept s) :
    s₀.Kept (s.fstFetch i f key y buf) := by
  unfold State.fstFetch
  have := @State.Kept.modPFrame; have := @State.Kept.markInvalid; have := @State.Kept.fstSealFail
  grind

theorem State.Kept.fstCopy {c : FstCopy} {mem : List Byte} (h : s₀.Kept s) : s₀.Kept (s.fstCopy c mem) := by
  unfold State.fstCopy
  extract_lets b r g len fails s₁ s₂ head out
  have h₂ : s₀.Kept s₂ := h.modFst.each fun _ _ ht => ht.fstSealFail
  split
  · exact h₂.writeRefused.finishCmd
  next t written => exact .ite (h₂.writeHost written).finishCmd (h₂.writeHost written).finishCmd

theorem doFstCopy_kept {d r idx : Nat} (h : s₀.Kept s) : s₀.Kept (doFstCopy d r idx s) := by
  unfold doFstCopy
  have := @State.Kept.runCmd; have := @State.Kept.finishCmd; have := @State.Kept.modFst
  grind

theorem State.Kept.workDone {j : FstJob} (h : s₀.Kept s) : s₀.Kept (s.workDone j) := by
  unfold State.workDone
  have := @State.Kept.fstHeader; have := @State.Kept.fstDropped; have := @State.Kept.fstLine
  have := @State.Kept.fstSpillOut; have := @State.Kept.fstSpillIn; have := @State.Kept.modProduct
  have := @State.Kept.fstFetch; have := @State.Kept.modPFrame; have := @State.Kept.fstCopy
  grind

theorem State.Kept.serveReq {pc : Nat} {r : FstReq} {bad : List Nat} (h : s₀.Kept s) :
    s₀.Kept (s.serveReq pc r bad) := by
  unfold State.serveReq
  have := @State.Kept.modFst; have := @State.Kept.flipWords; have := @State.Kept.wr; have := @State.Kept.putRow
  have := @State.Kept.workDone
  grind

theorem State.Kept.fstDone {pc corr : Nat} {bad : List Nat} {all : Bool} (h : s₀.Kept s) :
    s₀.Kept (s.fstDone pc corr bad all) := by
  unfold State.fstDone
  extract_lets s₁
  have h₁ : s₀.Kept s₁ := h.modFst.fstOffer
  split
  · exact h₁
  · exact h₁.pmuAdd.pmuAdd.eccResult.serveReq.fstOffer

theorem doFstRequestDone_kept {pc corr : Nat} {bad : List Nat} (h : s₀.Kept s) :
    s₀.Kept (doFstRequestDone pc corr bad s) := by
  unfold doFstRequestDone
  have := @State.Kept.fstDone
  grind

theorem State.Kept.nextScrub (h : s₀.Kept s) : s₀.Kept s.nextScrub := by
  unfold State.nextScrub
  have := @State.Kept.modFst
  grind

theorem doScrubRow_kept {corr : Nat} {bad : List Nat} (h : s₀.Kept s) : s₀.Kept (doScrubRow corr bad s) := by
  unfold doScrubRow
  have := @State.Kept.nextScrub; have := @State.Kept.eccResult
  grind

theorem doCaParityError_kept {pc : Nat} {scrub : Bool} (h : s₀.Kept s) : s₀.Kept (doCaParityError pc scrub s) := by
  unfold doCaParityError
  grind [State.Kept.fstOffer, State.Kept.nextScrub, State.Kept.eccResult, State.Kept.fstDone, State.Kept.raise,
      State.Kept.count, State.Kept.pmuAdd, State.Kept.modFst]

theorem doTrainingEnd_kept {ok : Bool} (h : s₀.Kept s) : s₀.Kept (doTrainingEnd ok s) := by
  unfold doTrainingEnd
  grind [State.Kept.setFlag, State.Kept.backContexts, State.Kept.storeContexts, State.Kept.showResources, State.Kept.modFst,
      State.Kept.raise]

theorem doHbmTempRead_kept {c : Nat} (h : s₀.Kept s) : s₀.Kept (doHbmTempRead c s) := by
  unfold doHbmTempRead
  extract_lets t s₁ s₂ hot was s₃ s₄
  have h₂ : s₀.Kept s₂ := .ite h.setFld.setFlag (.ite h.setFld.setFlag h.setFld)
  exact .ite (.ite h₂.setFlag.setFlag h₂.setFlag.setFlag.alert.raise) h₂.setFlag

theorem doSelfRefreshEntry_kept (h : s₀.Kept s) : s₀.Kept (doSelfRefreshEntry s) := by
  unfold doSelfRefreshEntry
  have := @State.Kept.modFst
  grind

/-! ### GwReads -/

theorem State.Kept.jobDone {j : ReadJob} (h : s₀.Kept s) : s₀.Kept (s.jobDone j) := by
  unfold State.jobDone
  have := @State.Kept.modGwl; have := @State.Kept.gotDesc; have := @State.Kept.gotPdb; have := @State.Kept.gotTable
  have := @State.Kept.gotAsset; have := @State.Kept.gotEntries; have := @State.Kept.gotXferData
  have := @State.Kept.gotBlock
  grind

theorem State.Kept.mrdEnd {id : Nat} {f : ReadJob → ReadJob} (h : s₀.Kept s) : s₀.Kept (s.mrdEnd id f) := by
  unfold State.mrdEnd
  have := @State.Kept.jobDone; have := @State.Kept.modGwl
  grind

theorem State.Kept.closeTag {tag : Nat} (h : s₀.Kept s) : s₀.Kept (s.closeTag tag) := by
  unfold State.closeTag
  have := @State.Kept.modGwl; have := @State.Kept.setFld
  grind

theorem State.Kept.mrdAbort {tag : Nat} {m : MrdOpen} (h : s₀.Kept s) : s₀.Kept (s.mrdAbort tag m) := by
  unfold State.mrdAbort
  have := @State.Kept.closeTag; have := @State.Kept.mrdEnd
  grind

theorem State.Kept.mrdOk {tag : Nat} {m : MrdOpen} (h : s₀.Kept s) : s₀.Kept (s.mrdOk tag m) := by
  unfold State.mrdOk
  have := @State.Kept.closeTag; have := @State.Kept.draw; have := @State.Kept.mrdEnd; have := @State.Kept.foldl_snd
  grind

theorem doCplRx_kept {t : HostTxn} (h : s₀.Kept s) : s₀.Kept (doCplRx t s) := by
  unfold doCplRx
  have := @State.Kept.pmuAdd; have := @State.Kept.count; have := @State.Kept.mrdOk; have := @State.Kept.modGwl
  have := @State.Kept.mrdAbort
  grind

theorem doCplTimeout_kept {tag : Nat} (h : s₀.Kept s) : s₀.Kept (doCplTimeout tag s) := by
  unfold doCplTimeout
  have := @State.Kept.count; have := @State.Kept.modGwl; have := @State.Kept.mrdAbort
  grind

theorem doHostRetryReissue_kept {tag : Nat} (h : s₀.Kept s) : s₀.Kept (doHostRetryReissue tag s) := by
  unfold doHostRetryReissue
  have := @State.Kept.closeTag; have := @State.Kept.txPush
  grind

/-! ### GwDown -/

theorem State.Kept.modGwp {f : GwPhy → GwPhy} (h : s₀.Kept s) : s₀.Kept (s.modGwp f) :=
  h.of_same rfl rfl rfl rfl rfl

theorem State.Kept.modRx {k : Nat} {f : GwRx → GwRx} (h : s₀.Kept s) : s₀.Kept (s.modRx k f) := by
  unfold State.modRx
  have := @State.Kept.modGwp
  grind

theorem State.Kept.sendBlock {k : Nat} {data : Bool} {b : List Byte} (h : s₀.Kept s) :
    s₀.Kept (s.sendBlock k data b) := by
  unfold State.sendBlock
  have := @State.Kept.modGwp; have := @State.Kept.emit
  grind

theorem State.Kept.sendSlot {f : Nat → Option (List Byte)} {ctl : Nat → List Byte} (h : s₀.Kept s) :
    s₀.Kept (s.sendSlot f ctl) := by
  unfold State.sendSlot
  have := @State.Kept.each; have := @State.Kept.sendBlock
  grind

theorem State.Kept.sendLdn (h : s₀.Kept s) : s₀.Kept s.sendLdn := by
  unfold State.sendLdn
  have := @State.Kept.each; have := @State.Kept.sendSlot
  grind

theorem State.Kept.sendFrame {b : Option (List Byte)} (h : s₀.Kept s) : s₀.Kept (s.sendFrame b) := by
  unfold State.sendFrame
  have := @State.Kept.pmuAdd; have := @State.Kept.sendSlot; have := @State.Kept.each
  grind

theorem State.Kept.forgetHeld (h : s₀.Kept s) : s₀.Kept s.forgetHeld := by
  unfold State.forgetHeld
  have := @State.Kept.modHqe; have := @State.Kept.each; have := @State.Kept.modTun; have := @State.Kept.modDisp
  grind

theorem State.Kept.gwDown (h : s₀.Kept s) : s₀.Kept s.gwDown := by
  unfold State.gwDown
  extract_lets g lost owed again s₁ s₂ s₃ s₄ wr s₅
  have h₂ : s₀.Kept s₂ := h.setFlag.wr.update
  have h₄ : s₀.Kept s₄ := h₂.forgetHeld.lineCopied.each fun _ _ ht => by
    split
    · exact ht.mrdAbort
    · exact ht
  have h₅ : s₀.Kept s₅ := h₄.each fun _ _ ht => ht.each fun _ _ ht => ht.mwrFailed
  exact .bridgeLinkDown (h₅.each fun _ _ ht => ht.expired)

theorem State.Kept.startAttempt {k : Nat} (h : s₀.Kept s) : s₀.Kept (s.startAttempt k) := by
  unfold State.startAttempt
  have := @State.Kept.modRx; have := @State.Kept.when; have := @State.Kept.wr
  grind

theorem State.Kept.setFb {k : Nat} {fb : Bool} (h : s₀.Kept s) : s₀.Kept (s.setFb k fb) := by
  unfold State.setFb
  have := @State.Kept.when; have := @State.Kept.count; have := @State.Kept.setFlag
  grind

theorem State.Kept.startLanes (h : s₀.Kept s) : s₀.Kept s.startLanes := by
  unfold State.startLanes
  have := @State.Kept.modGwp; have := @State.Kept.each; have := @State.Kept.modRx; have := @State.Kept.startAttempt
  have := @State.Kept.setFb
  grind

theorem State.Kept.gwLinkDown {ldn : Bool} (h : s₀.Kept s) : s₀.Kept (s.gwLinkDown ldn) := by
  unfold State.gwLinkDown
  extract_lets up s₁ s₂ s₃
  have h₃ : s₀.Kept s₃ := .startLanes (.setFld (.setFld (.setFlag (h.when fun _ ht => ht.sendLdn))))
  exact .ite h₃.setFlag.gwDown.raise h₃

theorem State.Kept.protoError {cause seq tag : Nat} (h : s₀.Kept s) : s₀.Kept (s.protoError cause seq tag) := by
  unfold State.protoError
  have := @State.Kept.when; have := @State.Kept.wr; have := @State.Kept.setFlag; have := @State.Kept.gwLinkDown
  grind

theorem doGwPllLock_kept (h : s₀.Kept s) : s₀.Kept (doGwPllLock s) := by
  unfold doGwPllLock
  have := @State.Kept.modGwp; have := @State.Kept.startLanes
  grind

theorem doRetrain_kept (h : s₀.Kept s) : s₀.Kept (doRetrain s) := by
  unfold doRetrain
  have := @State.Kept.gwLinkDown
  grind

theorem State.Kept.gwEnable {en : Bool} (h : s₀.Kept s) : s₀.Kept (s.gwEnable en) := by
  unfold State.gwEnable
  have := @State.Kept.setFlag; have := @State.Kept.modGwp; have := @State.Kept.startLanes
  have := @State.Kept.gwLinkDown
  grind

theorem doLinkTimeout_kept (h : s₀.Kept s) : s₀.Kept (doLinkTimeout s) := by
  unfold doLinkTimeout
  have := @State.Kept.setFlag; have := @State.Kept.raise
  grind

/-! ### Links -/

theorem State.Kept.portRun {p : Nat} {run : Bool} (h : s₀.Kept s) : s₀.Kept (s.portRun p run) := by
  unfold State.portRun
  have := @State.Kept.setFlag; have := @State.Kept.ingDown; have := @State.Kept.tunDown
  grind

theorem doAphyLinkDown_kept {p : Nat} {part : Option LongPacket} (h : s₀.Kept s) :
    s₀.Kept (doAphyLinkDown p part s) := by
  unfold doAphyLinkDown
  have := @State.Kept.cutLine; have := @State.Kept.ingDown; have := @State.Kept.when; have := @State.Kept.tunDown
  grind

/-! ### Lupin -/

theorem doLupinRecordWrite_kept (h : s₀.Kept s) : s₀.Kept (doLupinRecordWrite s) := by
  unfold doLupinRecordWrite
  have := @State.Kept.modLup; have := @State.Kept.lupWrite
  grind

theorem doFreeze_kept (h : s₀.Kept s) : s₀.Kept (doFreeze s) := by
  unfold doFreeze
  have := @State.Kept.setFlag
  grind

theorem State.Kept.lupEmpty (h : s₀.Kept s) : s₀.Kept s.lupEmpty := by
  unfold State.lupEmpty
  have := @State.Kept.modLup; have := @State.Kept.setFld; have := @State.Kept.setFlag
  grind

theorem doClear_kept (h : s₀.Kept s) : s₀.Kept (doClear s) := by
  unfold doClear
  have := @State.Kept.setFlag; have := @State.Kept.lupEmpty
  grind

theorem State.Kept.lupResume (h : s₀.Kept s) : s₀.Kept s.lupResume := by
  unfold State.lupResume
  have := @State.Kept.setFlag; have := @State.Kept.lupEmpty; have := @State.Kept.modLup; have := @State.Kept.each
  have := @State.Kept.lupWrite
  grind

theorem doRelease_kept (h : s₀.Kept s) : s₀.Kept (doRelease s) := by
  unfold doRelease
  have := @State.Kept.lupResume; have := @State.Kept.setFlag
  grind

theorem doLupMark_kept {path : Path} {v : Nat} (h : s₀.Kept s) : s₀.Kept (doLupMark path v s) := by
  unfold doLupMark
  have := @State.Kept.lupSubmit
  grind

theorem doLupinSave_kept (h : s₀.Kept s) : s₀.Kept (doLupinSave s) := by
  unfold doLupinSave
  have := @State.Kept.modLup
  grind

theorem doLupinSaveDone_kept {ok : Bool} {corrected : Nat} (h : s₀.Kept s) :
    s₀.Kept (doLupinSaveDone ok corrected s) := by
  unfold doLupinSaveDone
  have := @State.Kept.addTo; have := @State.Kept.modLup; have := @State.Kept.setFld; have := @State.Kept.lupResume
  have := @State.Kept.setFlag
  grind

/-! ### Sec -/

theorem State.Kept.freeBytes {n : Nat} (h : s₀.Kept s) : s₀.Kept (State.freeBytes n s).2 := by
  induction n generalizing s with
  | zero => exact h
  | succ n ih => exact ih h.draw

theorem State.Kept.putSecBuf {a : Nat} {b : List Byte} (h : s₀.Kept s) : s₀.Kept (s.putSecBuf a b) := by
  unfold State.putSecBuf
  have := @State.Kept.modSec
  grind

theorem doSecOp_kept {op : Nat} (h : s₀.Kept s) : s₀.Kept (doSecOp op s) := by
  unfold doSecOp
  have := @State.Kept.setFld; have := @State.Kept.setFlag; have := @State.Kept.modSec
  grind

theorem State.Kept.secAttest (h : s₀.Kept s) : s₀.Kept (s.secAttest).2 := by
  unfold State.secAttest
  have := @State.Kept.freeBytes; have := @State.Kept.putSecBuf
  grind

theorem State.Kept.secUnlock {sig : Bool} (h : s₀.Kept s) : s₀.Kept (s.secUnlock sig).2 := by
  unfold State.secUnlock
  have := @State.Kept.draw; have := @State.Kept.setFld; have := @State.Kept.modSec; have := @State.Kept.when
  have := @State.Kept.setFlag; have := @State.Kept.lupSubmit
  grind

theorem State.Kept.showKeys (h : s₀.Kept s) : s₀.Kept s.showKeys := by
  unfold State.showKeys
  have := @State.Kept.wr
  grind

theorem State.Kept.secKeyOp {sig otp : Bool} (h : s₀.Kept s) : s₀.Kept (s.secKeyOp sig otp).2 := by
  unfold State.secKeyOp
  have := @State.Kept.modSec; have := @State.Kept.showKeys
  grind

theorem State.Kept.secCert (h : s₀.Kept s) : s₀.Kept (s.secCert).2 := by
  unfold State.secCert
  have := @State.Kept.draw; have := @State.Kept.putSecBuf
  grind

theorem State.Kept.showArb (h : s₀.Kept s) : s₀.Kept s.showArb := by
  unfold State.showArb
  have := @State.Kept.each; have := @State.Kept.wr
  grind

theorem State.Kept.secArb {otp : Bool} (h : s₀.Kept s) : s₀.Kept (s.secArb otp).2 := by
  unfold State.secArb
  have := @State.Kept.modSec; have := @State.Kept.showArb
  grind

theorem doSecOpDone_kept {sig otp : Bool} (h : s₀.Kept s) : s₀.Kept (doSecOpDone sig otp s) := by
  unfold doSecOpDone
  grind [State.Kept.secAttest, State.Kept.secUnlock, State.Kept.secKeyOp, State.Kept.secCert, State.Kept.secArb,
      State.Kept.setFlag, State.Kept.setFld]

theorem doHandover_kept (h : s₀.Kept s) : s₀.Kept (doHandover s) := by
  unfold doHandover
  have := @State.Kept.handOver; have := @State.Kept.modSec
  grind

/-! ### Smb1 -/

theorem State.Kept.modSmb {f : Smb → Smb} (h : s₀.Kept s) : s₀.Kept (s.modSmb f) :=
  h.of_same rfl rfl rfl rfl rfl

theorem State.Kept.smb1Next (h : s₀.Kept s) : s₀.Kept s.smb1Next := by
  unfold State.smb1Next
  have := @State.Kept.modSmb
  grind

theorem doSmb1Transfer_kept {firmware : Bool} (h : s₀.Kept s) : s₀.Kept (doSmb1Transfer firmware s) := by
  unfold doSmb1Transfer
  have := @State.Kept.modSmb; have := @State.Kept.smb1Next; have := @State.Kept.setFlag
  grind

theorem State.Kept.smb1Data {d : List Byte} (h : s₀.Kept s) : s₀.Kept (s.smb1Data d) := by
  unfold State.smb1Data
  have := @State.Kept.each; have := @State.Kept.wr
  grind

theorem State.Kept.smb1End {j : Smb1Job} {res : Nat} {data : List Byte} (h : s₀.Kept s) :
    s₀.Kept (s.smb1End j res data) := by
  unfold State.smb1End
  extract_lets s₁ s₂ s₃ s₄
  have h₂ : s₀.Kept s₂ := h.pmuAdd.modSmb.when fun _ ht => ht.count
  have h₃ : s₀.Kept s₃ := h₂.when fun _ ht => ht.smb1Data
  have h₄ : s₀.Kept s₄ := .ite h₂ h₃.setFlag.setFlag.setFld.setFld
  exact .smb1Next (h₄.when fun _ ht => ht.alert.raise)

theorem doSmb1TransferDone_kept {res : Nat} {data : List Byte} (h : s₀.Kept s) :
    s₀.Kept (doSmb1TransferDone res data s) := by
  unfold doSmb1TransferDone
  have := @State.Kept.count; have := @State.Kept.modSmb; have := @State.Kept.smb1End
  grind

theorem doSmb1Retry_kept (h : s₀.Kept s) : s₀.Kept (doSmb1Retry s) := by
  unfold doSmb1Retry
  have := @State.Kept.modSmb
  grind

theorem doSmb1Timeout_kept {sdaHeld cleared : Bool} (h : s₀.Kept s) : s₀.Kept (doSmb1Timeout sdaHeld cleared s) := by
  unfold doSmb1Timeout
  have := @State.Kept.setFlag; have := @State.Kept.smb1End
  grind

/-! ### Bus -/

theorem State.Kept.readActs {k : RegKind} {i j : Nat} (h : s₀.Kept s) : s₀.Kept (s.readActs k i j) := by
  unfold State.readActs
  grind [State.Kept.latchFrame, State.Kept.latchTod, State.Kept.settleMonitors, State.Kept.update]

theorem State.Kept.readWord {off : Nat} {r : Nat × State} (h : s₀.Kept s) (e : s.readWord off = some r) :
    s₀.Kept r.2 := by
  unfold State.readWord at e
  have := @State.Kept.readActs
  grind

theorem State.Kept.writeBuf {a : Nat} {b : List Byte} (h : s₀.Kept s) : s₀.Kept (s.writeBuf a b) := by
  unfold State.writeBuf
  exact .ite (.ite h h.putSecBuf) (.ite (h.each fun _ _ ht => .ite (doParkRecordFree_kept ht) ht) h)

theorem State.Kept.writeHeld {path : Path} {k : RegKind} {i j v : Nat} {f : Fld} (h : s₀.Kept s) :
    s₀.Kept (s.writeHeld path k i j v f) := by
  unfold State.writeHeld
  have := @State.Kept.writeFields
  grind

theorem State.Kept.armInjector {i : Nat} {on : Bool} (h : s₀.Kept s) : s₀.Kept (s.armInjector i on) := by
  unfold State.armInjector
  have := @State.Kept.setFlag; have := @State.Kept.setFld; have := @State.Kept.when; have := @State.Kept.injStart
  have := @State.Kept.modFcl
  grind

theorem State.Kept.syncOff (h : s₀.Kept s) : s₀.Kept s.syncOff := by
  unfold State.syncOff
  have := @State.Kept.setFlag; have := @State.Kept.modCfg
  grind

theorem State.Kept.writeReg {path : Path} {k : RegKind} {i j v : Nat} (h : s₀.Kept s) :
    s₀.Kept (s.writeReg path k i j v) := by
  unfold State.writeReg
  grind [State.Kept.writeFields, State.Kept.each, State.Kept.discardOpen, State.Kept.commitRequest, State.Kept.when,
      State.Kept.syncOff, State.Kept.modCfg, State.Kept.setFld, State.Kept.modTime, State.Kept.loadTod,
      State.Kept.setFlag, State.Kept.showResources, State.Kept.writeHeld, State.Kept.rasterStop,
      State.Kept.streamReset, State.Kept.portRun, State.Kept.sealAccess, State.Kept.gwEnable,
      State.Kept.hqeDisable, State.Kept.displayRun, State.Kept.bridgeStart, State.Kept.canEnable,
      State.Kept.armInjector, State.Kept.takeSnapshot, State.Kept.modPmu, doRasterStart_kept, doBloomHalt_kept,
      doHashProbe_kept, doFstProbe_kept, doRetrain_kept, doHqeEnable_kept, doAdminResume_kept, doTableRead_kept,
      doRestart_kept, doSmb1Transfer_kept, doPolicyLock_kept, doForceSafe_kept, doStatusClear_kept,
      doFirstFaultClear_kept, doFreeze_kept, doClear_kept, doRelease_kept, doLupMark_kept, doHandover_kept,
      doSecOp_kept]

theorem doRegisterWrite_kept {path : Path} {off v : Nat} (h : s₀.Kept s) :
    s₀.Kept (doRegisterWrite path off v s) := by
  unfold doRegisterWrite
  have := @State.Kept.writeReg
  grind

theorem doLoRegisterRead_kept {off : Nat} (h : s₀.Kept s) : s₀.Kept (doLoRegisterRead off s) := by
  unfold doLoRegisterRead
  split
  next found => exact h.readWord found
  next => exact h

/-! ### GwTxn -/

theorem State.Kept.readWords {a n : Nat} (h : s₀.Kept s) : s₀.Kept (s.readWords a n).2 := by
  unfold State.readWords
  refine .foldl_snd h fun _ _ ht => ?_
  split
  next found => exact ht.readWord found
  next => exact ht

theorem State.Kept.writeWords {a : Nat} {b : List Byte} (h : s₀.Kept s) : s₀.Kept (s.writeWords a b) := by
  unfold State.writeWords
  have := @State.Kept.each; have := @doRegisterWrite_kept
  grind

theorem State.Kept.hostRead {t : HostTxn} (h : s₀.Kept s) : s₀.Kept (s.hostRead t) := by
  unfold State.hostRead
  have := @State.Kept.answer; have := @State.Kept.remoteRead; have := @State.Kept.readWords
  grind

theorem State.Kept.hostWrite {t : HostTxn} {ch cd : Nat} (h : s₀.Kept s) : s₀.Kept (s.hostWrite t ch cd) := by
  unfold State.hostWrite
  dsimp only
  (repeat' split) <;> (have := @State.Kept.when; have := @State.Kept.giveCredit; have := @State.Kept.dbDiscard
                       have := @State.Kept.discardTxn; have := @State.Kept.remoteWrite; have := @State.Kept.hostHeader
                       have := @State.Kept.hostData; have := @State.Kept.writeBuf; have := @State.Kept.writeWords
                       have := @doDoorbell_kept; grind)

theorem doMwrRx_kept {t : HostTxn} (h : s₀.Kept s) : s₀.Kept (doMwrRx t s) := by
  unfold doMwrRx
  have := @State.Kept.hostWrite
  grind

theorem doMrdRx_kept {t : HostTxn} (h : s₀.Kept s) : s₀.Kept (doMrdRx t s) := by
  unfold doMrdRx
  have := @State.Kept.hostRead
  grind

theorem doTime_kept {host : Nat} {placed : Bool} (h : s₀.Kept s) : s₀.Kept (doTime host placed s) := by
  unfold doTime
  have := @State.Kept.timeMessage; have := @State.Kept.count
  grind

theorem State.Kept.ringlessFault {m : MwrRec} (h : s₀.Kept s) : s₀.Kept (s.ringlessFault m) := by
  unfold State.ringlessFault
  have := @State.Kept.logFault; have := @State.Kept.lvtOff
  grind

theorem doWriteFault_lost_kept {d tag cause addr : Nat} (h : s₀.Kept s) :
    s₀.Kept (doWriteFault.lost d tag cause addr s) :=
  .raise (.draw (.event (.lupSubmit h.count)))

theorem doWriteFault_kept {d tag cause addr : Nat} (h : s₀.Kept s) : s₀.Kept (doWriteFault d tag cause addr s) := by
  unfold doWriteFault
  dsimp only
  split
  · exact .ite h.count.mwrFailed (doWriteFault_lost_kept h.count.ringlessFault)
  · exact doWriteFault_lost_kept h.count

theorem State.Kept.hostMsg {t : HostTxn} {info : Nat} {placed : Bool} (h : s₀.Kept s) :
    s₀.Kept (s.hostMsg t info placed) := by
  unfold State.hostMsg
  have := @State.Kept.discardTxn; have := @doDoorbell_kept; have := @doTime_kept; have := @doWriteFault_kept
  grind

/-! ### GwFrames -/

theorem State.Kept.takeCredits {b : List Byte} (h : s₀.Kept s) : s₀.Kept (s.takeCredits b) := by
  unfold State.takeCredits
  have := @State.Kept.each; have := @State.Kept.modGwl
  grind

theorem State.Kept.startTxn {t : Txn} {i : Nat} (h : s₀.Kept s) : s₀.Kept (s.startTxn t i) := by
  unfold State.startTxn
  have := @State.Kept.modGwl; have := @State.Kept.pmuAdd; have := @State.Kept.modHqe; have := @State.Kept.setFld
  grind

theorem State.Kept.fillUnits {k n : Nat} {b : List Byte} {l : List Txn} (h : s₀.Kept s) :
    s₀.Kept (State.fillUnits k n b l s).2 := by
  induction k generalizing n b l s with
  | zero => exact h
  | succ k ih =>
    unfold State.fillUnits
    have := @State.Kept.modGwl; have := @State.Kept.lineCopied; have := @State.Kept.startTxn
    grind

theorem State.Kept.slotFrames {r : List InjUnit × State} {f : List Byte → State → State} (h : s₀.Kept r.2)
    (hf : ∀ b t, s₀.Kept t → s₀.Kept (f b t)) : s₀.Kept (State.slotFrames r f) := by
  unfold State.slotFrames
  refine .ite h.sendFrame (h.each fun _ _ ht => ?_)
  split
  · exact hf _ _ ht
  · exact ht

theorem State.Kept.sendWire {l : List Nat} {b : List Byte} (h : s₀.Kept s) : s₀.Kept (s.sendWire l b) :=
  .slotFrames h.injectThrough fun _ _ ht => ht.sendFrame

theorem State.Kept.sendStage {l : List Nat} {b : List Byte} (h : s₀.Kept s) : s₀.Kept (s.sendStage l b) :=
  .slotFrames h.injectThrough fun _ _ ht => ht.sendWire

theorem State.Kept.sendChecked {b : List Byte} (h : s₀.Kept s) : s₀.Kept (s.sendChecked b) := by
  unfold State.sendChecked
  have := @State.Kept.sendStage
  grind

theorem doInitFrameTx_kept (h : s₀.Kept s) : s₀.Kept (doInitFrameTx s) := by
  unfold doInitFrameTx
  have := @State.Kept.sendChecked
  grind

theorem State.Kept.sendFrameNow {rpl crd : Bool} {typ seq : Nat} {units : List Byte} (h : s₀.Kept s) :
    s₀.Kept (s.sendFrameNow rpl crd typ seq units) := by
  unfold State.sendFrameNow
  have := @State.Kept.grant; have := @State.Kept.when; have := @State.Kept.count; have := @State.Kept.pmuAdd
  have := @State.Kept.modGwl; have := @State.Kept.sendChecked
  grind

theorem State.Kept.resendFrame {k : Nat} {f : TxFrame} (h : s₀.Kept s) : s₀.Kept (s.resendFrame k f) := by
  unfold State.resendFrame
  have := @State.Kept.modGwl; have := @State.Kept.sendFrameNow
  grind

theorem State.Kept.sendCtrl (h : s₀.Kept s) : s₀.Kept s.sendCtrl := by
  unfold State.sendCtrl
  have := @State.Kept.sendFrameNow
  grind

theorem State.Kept.newDataFrame {t : State} (h : s₀.Kept s) (e : s.newDataFrame = some t) : s₀.Kept t := by
  unfold State.newDataFrame at e
  have := @State.Kept.fillUnits; have := @State.Kept.modGwl; have := @State.Kept.sendFrameNow
  grind

theorem State.Kept.sendData {t : State} (h : s₀.Kept s) (e : s.sendData = some t) : s₀.Kept t := by
  unfold State.sendData at e
  have := @State.Kept.resendFrame; have := @State.Kept.newDataFrame
  grind

theorem doLinkFrameTx_kept (h : s₀.Kept s) : s₀.Kept (doLinkFrameTx s) := by
  unfold doLinkFrameTx
  refine .ite h (.ite h.sendFrame ?_)
  cases sent : s.sendData with
  | some t => exact h.sendData sent
  | none => exact .ite h.sendCtrl h.sendFrame

theorem doCreditRecordTx_kept (h : s₀.Kept s) : s₀.Kept (doCreditRecordTx s) := by
  unfold doCreditRecordTx
  refine .ite ?_ h
  cases sent : s.sendData with
  | some t => exact h.sendData sent
  | none => exact h.sendCtrl

theorem State.Kept.wantNak (h : s₀.Kept s) : s₀.Kept s.wantNak := by
  unfold State.wantNak
  have := @State.Kept.modGwl
  grind

theorem State.Kept.badFrame (h : s₀.Kept s) : s₀.Kept s.badFrame := by
  unfold State.badFrame
  have := @State.Kept.count; have := @State.Kept.pmuAdd; have := @State.Kept.wantNak
  grind

theorem State.Kept.startReplay {timeout : Bool} (h : s₀.Kept s) : s₀.Kept (s.startReplay timeout) := by
  unfold State.startReplay
  have := @State.Kept.protoError; have := @State.Kept.count; have := @State.Kept.pmuAdd; have := @State.Kept.when
  have := @State.Kept.modGwl
  grind

theorem State.Kept.takeAck {a : Nat} (h : s₀.Kept s) : s₀.Kept (s.takeAck a) := by
  unfold State.takeAck
  have := @State.Kept.count; have := @State.Kept.modGwl
  grind

theorem State.Kept.takeNak {a : Nat} (h : s₀.Kept s) : s₀.Kept (s.takeNak a) := by
  unfold State.takeNak
  have := @State.Kept.count; have := @State.Kept.pmuAdd; have := @State.Kept.startReplay
  grind

theorem State.Kept.deliver {p : List Byte} {placed : Bool} (h : s₀.Kept s) : s₀.Kept (s.deliver p placed) := by
  unfold State.deliver
  have := @State.Kept.hostWrite; have := @State.Kept.hostRead; have := @State.Kept.giveCredit
  have := @State.Kept.hostMsg; have := @doCplRx_kept
  grind

theorem State.Kept.takeUnits {seq : Nat} {place : Bool} {b : List Byte} (h : s₀.Kept s) :
    s₀.Kept (s.takeUnits seq place b) := by
  unfold State.takeUnits
  have := @State.Kept.grant; have := @State.Kept.modGwl; have := @State.Kept.each; have := @State.Kept.deliver
  have := @State.Kept.when; have := @State.Kept.protoError
  grind

theorem State.Kept.takeReports {b : List Byte} {crd : Bool} (h : s₀.Kept s) : s₀.Kept (s.takeReports b crd) := by
  unfold State.takeReports
  have := @State.Kept.when; have := @State.Kept.takeAck; have := @State.Kept.takeCredits; have := @State.Kept.takeNak
  grind

theorem State.Kept.rxData {b : List Byte} (h : s₀.Kept s) : s₀.Kept (s.rxData b) := by
  unfold State.rxData
  have := @State.Kept.takeReports; have := @State.Kept.modGwl; have := @State.Kept.takeUnits
  have := @State.Kept.wantNak
  grind

theorem State.Kept.rxCtrl {b : List Byte} (h : s₀.Kept s) : s₀.Kept (s.rxCtrl b) := by
  unfold State.rxCtrl
  have := @State.Kept.takeReports; have := @State.Kept.when; have := @State.Kept.wantNak
  grind

theorem State.Kept.rxInit {b : List Byte} (h : s₀.Kept s) : s₀.Kept (s.rxInit b) := by
  unfold State.rxInit
  have := @State.Kept.protoError; have := @State.Kept.modGwl; have := @State.Kept.wr; have := @State.Kept.setFlag
  grind

theorem State.Kept.rxChecked {b : List Byte} (h : s₀.Kept s) : s₀.Kept (s.rxChecked b) := by
  unfold State.rxChecked
  dsimp only
  (repeat' split) <;> (have := @State.Kept.pmuAdd; have := @State.Kept.badFrame; have := @State.Kept.when
                       have := @State.Kept.count; have := @State.Kept.rxData; have := @State.Kept.rxCtrl
                       have := @State.Kept.rxInit; grind)

theorem State.Kept.frameRx {b : List Byte} (h : s₀.Kept s) : s₀.Kept (s.frameRx b) := by
  unfold State.frameRx
  have := @State.Kept.inject; have := @State.Kept.each; have := @State.Kept.rxChecked
  grind

theorem doDataFrameRx_kept {b : List Byte} (h : s₀.Kept s) : s₀.Kept (doDataFrameRx b s) := by
  unfold doDataFrameRx
  have := @State.Kept.frameRx
  grind

theorem doCtrlFrameRx_kept {b : List Byte} (h : s₀.Kept s) : s₀.Kept (doCtrlFrameRx b s) := by
  unfold doCtrlFrameRx
  have := @State.Kept.frameRx
  grind

theorem doInitFrameRx_kept {b : List Byte} (h : s₀.Kept s) : s₀.Kept (doInitFrameRx b s) := by
  unfold doInitFrameRx
  have := @State.Kept.frameRx
  grind

theorem doReplayTimeout_kept (h : s₀.Kept s) : s₀.Kept (doReplayTimeout s) := by
  unfold doReplayTimeout
  have := @State.Kept.startReplay
  grind

/-! ### Cycle -/

theorem State.Kept.countCycles (h : s₀.Kept s) : s₀.Kept s.countCycles := by
  unfold State.countCycles
  have := @State.Kept.each; have := @State.Kept.when; have := @State.Kept.pmuAdd
  grind

theorem State.Kept.cycle (h : s₀.Kept s) : s₀.Kept s.cycle := by
  unfold State.cycle
  have := @State.Kept.countCycles; have := @State.Kept.tick
  grind

/-! ### Boot -/

theorem State.Kept.drawEpoch (h : s₀.Kept s) : s₀.Kept s.drawEpoch := by
  unfold State.drawEpoch
  have := @State.Kept.modGwl; have := @State.Kept.draw
  grind

/-- Outside the safe state FAULT_N may rise. -/
theorem State.Kept.startRom {romOk : Bool} (h : s₀.Kept s) (calm : s₀.Inv → s.fcl.safe = false) :
    s₀.Kept (s.startRom romOk) := by
  unfold State.startRom
  extract_lets s₁
  have h₁ : s₀.Kept s₁ := h.drawEpoch.setStage
  have calm₁ : s₀.Inv → s₁.fcl.safe = false := fun e => by
    unfold s₁ State.drawEpoch
    split <;> exact calm e
  refine .ite (.startCore (.setStage ⟨h₁.pending, h₁.mode, h₁.safe, fun e => ?_⟩)) h₁.draw.raise
  obtain ⟨regs, -, power⟩ := h₁.inv e
  exact ⟨regs, fun safe => absurd safe (by simp [State.modFcl, calm₁ e]), power⟩

theorem doImageLoadDone_kept {flash : List FlashArea} (h : s₀.Kept s) : s₀.Kept (doImageLoadDone flash s) := by
  unfold doImageLoadDone
  have := @State.Kept.each; have := @State.Kept.modSec; have := @State.Kept.setStage
  grind

theorem State.Kept.failCopy {t r : Nat} (h : s₀.Kept s) : s₀.Kept (s.failCopy t r) := by
  unfold State.failCopy
  have := @State.Kept.setFld; have := @State.Kept.modSec
  grind

theorem State.Kept.setThermal (h : s₀.Kept s) : s₀.Kept s.setThermal := by
  unfold State.setThermal
  have := @State.Kept.setFld
  grind

theorem State.Kept.setCaseLim (h : s₀.Kept s) : s₀.Kept s.setCaseLim := by
  unfold State.setCaseLim
  have := @State.Kept.setFld
  grind

theorem State.Kept.bootRecords (h : s₀.Kept s) : s₀.Kept s.bootRecords := by
  unfold State.bootRecords
  have := @State.Kept.setFld; have := @State.Kept.when; have := @State.Kept.modLup; have := @State.Kept.wr
  have := @State.Kept.lupSubmit; have := @State.Kept.modFcl; have := @State.Kept.count
  grind

theorem State.Kept.startFirmware {copyB : Bool} {img : List Byte} {idOk : Bool} (h : s₀.Kept s) :
    s₀.Kept (s.startFirmware copyB img idOk) := by
  unfold State.startFirmware
  extract_lets s₁ s₂ s₃ s₄ s₅
  have h₁ : s₀.Kept s₁ := h.modSec rfl
  have h₄ : s₀.Kept s₄ := h₁.setFlag.setFlag.setFlag.wr.wr.draw
  exact h₄.showKeys.showArb.setThermal.bootRecords.when fun _ ht => ht.raise

theorem State.Kept.leaveVerify (h : s₀.Kept s) : s₀.Kept s.leaveVerify := by
  unfold State.leaveVerify
  grind [State.Kept.when, State.Kept.wr, State.Kept.draw, State.Kept.setFld, State.Kept.modFst, State.Kept.beginTraining]

theorem State.Kept.noProfile (h : s₀.Kept s) : s₀.Kept s.noProfile := by
  unfold State.noProfile
  have := @State.Kept.leaveVerify; have := @State.Kept.setCaseLim; have := @State.Kept.waitHost
  grind

/-- FAULT_N may fall in every state. -/
theorem State.Kept.faultLow (h : s₀.Kept s) : s₀.Kept (s.modFcl (fun f => { f with faultN := false })) :=
  h.trans ⟨rfl, rfl, id, fun e => ⟨e.regs, fun _ => rfl, e.power⟩⟩

theorem doImageVerifyDone_kept {t : Nat} {sig idOk : Bool} (h : s₀.Kept s) :
    s₀.Kept (doImageVerifyDone t sig idOk s) := by
  unfold doImageVerifyDone
  dsimp only
  refine .ite h (.ite ?firmware (.ite h (.ite ?profile (.ite ?assets (.ite ?certificate h)))))
  case firmware =>
    refine .ite h (.ite (.ite ?_ ?_) (.ite ?_ ?_))
    · exact h.setFlag.startFirmware.noProfile
    · exact h.setFlag.startFirmware
    · exact h.setFlag.setFlag.failCopy.setStage.faultLow
    · exact h.setFlag.setFlag.failCopy
  case profile =>
    refine .ite h (.ite (.modSec h.setFld ?_) (.ite h.failCopy.setFld.noProfile h.failCopy))
    rfl
  case assets => exact .ite h (.ite h.setFld (.ite h.failCopy.setFld h.failCopy))
  case certificate =>
    refine .ite (.setFlag (.modSec h ?_)) (.failCopy (.modSec h ?_)) <;> rfl

theorem State.Kept.runCode {c : Nat} {run : Bool} (h : s₀.Kept s) : s₀.Kept (s.runCode c run) := by
  unfold State.runCode
  have := @State.Kept.portRun; have := @State.Kept.displayRun
  grind

theorem State.Kept.applyPolicy {b : List Byte} (h : s₀.Kept s) : s₀.Kept (s.applyPolicy b) := by
  unfold State.applyPolicy
  have := @State.Kept.each; have := @State.Kept.writeReg; have := @State.Kept.setFlag; have := @doPolicyLock_kept
  grind

theorem State.Kept.applyAsset (h : s₀.Kept s) : s₀.Kept s.applyAsset := by
  unfold State.applyAsset
  have := @State.Kept.setBank; have := @State.Kept.setFld
  grind

theorem State.Kept.applyReg {e : RegEntry} (h : s₀.Kept s) : s₀.Kept (s.applyReg e) := by
  unfold State.applyReg
  have := @State.Kept.each; have := @State.Kept.commitRequest; have := @State.Kept.writeReg
  have := @doConsistencyCheckEnd_kept
  grind

theorem State.Kept.applyVbr {k : Nat} {b : List Byte} (h : s₀.Kept s) : s₀.Kept (State.applyVbr k b s) := by
  induction k generalizing b s with
  | zero => exact h
  | succ k ih =>
    unfold State.applyVbr
    have := @State.Kept.replaceEntries
    grind

theorem doProfileApply_kept (h : s₀.Kept s) : s₀.Kept (doProfileApply s) := by
  unfold doProfileApply
  refine .ite h ?_
  extract_lets p s₁ s₂ s₃ s₄ s₅ lost ports s₆ s₇ s₈
  have h₂ : s₀.Kept s₂ := by
    unfold s₂
    split
    · exact h.leaveVerify.setStage.applyPolicy
    · exact h.leaveVerify.setStage
  have h₄ : s₀.Kept s₄ := h₂.setCaseLim.applyAsset.each fun _ _ ht => ht.applyReg
  have h₆ : s₀.Kept s₆ := h₄.applyVbr.setFlag.each fun _ _ ht => ht.runCode
  have h₇ : s₀.Kept s₇ := h₆.each fun _ _ ht => by
    split
    · exact ht
    · exact ht.modSec rfl
  have h₈ : s₀.Kept s₈ := h₇.modSec rfl
  exact h₈.setStage

theorem State.Kept.bootProduct {d : List Byte × List Byte} (h : s₀.Kept s) : s₀.Kept (s.bootProduct d) := by
  unfold State.bootProduct
  have := @State.Kept.when; have := @State.Kept.setFld; have := @State.Kept.andReport; have := @State.Kept.checksDone
  grind

theorem State.Kept.bootAdvance (h : s₀.Kept s) : s₀.Kept s.bootAdvance := by
  unfold State.bootAdvance
  have := @State.Kept.when; have := @State.Kept.setStage; have := @State.Kept.modSec; have := @State.Kept.each
  have := @State.Kept.bootProduct; have := @doRasterStart_kept
  grind

theorem State.Kept.stopScript {c : Nat} (h : s₀.Kept s) : s₀.Kept (s.stopScript c) := by
  unfold State.stopScript
  have := @State.Kept.modSec; have := @State.Kept.runCode
  grind

theorem doScriptEntry_kept {c : Nat} {ok : Bool} (h : s₀.Kept s) : s₀.Kept (doScriptEntry c ok s) := by
  unfold doScriptEntry
  have := @State.Kept.setStage; have := @State.Kept.modSec; have := @State.Kept.stopScript
  have := @State.Kept.bootAdvance
  grind

theorem doScriptTimeout_kept {c : Nat} (h : s₀.Kept s) : s₀.Kept (doScriptTimeout c s) := by
  unfold doScriptTimeout
  have := @State.Kept.setFlag; have := @State.Kept.stopScript; have := @State.Kept.bootAdvance
  grind

theorem State.Kept.strapPre (h : s₀.Kept s) : s₀.Kept s.strapPre := by
  unfold State.strapPre
  have := @State.Kept.setFld; have := @State.Kept.each; have := @State.Kept.setFlag
  grind

theorem doWarmResetDone_kept (h : s₀.Kept s) : s₀.Kept (doWarmResetDone s) := .ite (h.of_same rfl rfl rfl rfl rfl) h

theorem doPwrGoodRise_kept {romOk : Bool} (h : s₀.Kept s) : s₀.Kept (doPwrGoodRise romOk s) := by
  unfold doPwrGoodRise
  split
  · exact h
  · rename_i off
    refine .startRom (h.trans ⟨rfl, rfl, id, fun e => ⟨e.regs, e.faultN, fun _ => rfl⟩⟩) fun e => ?_
    exact Bool.eq_false_iff.mpr fun safe => off ((h.inv e).power safe)

theorem doPwrGoodTimeout_kept (h : s₀.Kept s) : s₀.Kept (doPwrGoodTimeout s) := by
  unfold doPwrGoodTimeout
  have := @State.Kept.modSec
  grind

theorem doWakeIn_kept (h : s₀.Kept s) : s₀.Kept (doWakeIn s) := by
  unfold doWakeIn
  have := @State.Kept.modSec; have := @State.Kept.alert
  grind

/-! ### GwPhy -/

theorem State.Kept.tryUp (h : s₀.Kept s) : s₀.Kept s.tryUp := by
  unfold State.tryUp
  have := @State.Kept.setFlag; have := @State.Kept.count; have := @State.Kept.wr; have := @State.Kept.modGwl
  have := @State.Kept.modGwp; have := @State.Kept.setFld; have := @State.Kept.draw
  grind

theorem State.Kept.tryWidth {seq w : Nat} (h : s₀.Kept s) : s₀.Kept (s.tryWidth seq w) := by
  unfold State.tryWidth
  have := @State.Kept.each; have := @State.Kept.setFlag; have := @State.Kept.setFld; have := @State.Kept.tryUp
  grind

theorem doAmTx_kept (h : s₀.Kept s) : s₀.Kept (doAmTx s) := by
  unfold doAmTx
  have := @State.Kept.sendSlot; have := @State.Kept.modGwp; have := @State.Kept.setFld; have := @State.Kept.tryUp
  grind

theorem State.Kept.chooseWidth {seq m : Nat} (h : s₀.Kept s) : s₀.Kept (s.chooseWidth seq m) := by
  unfold State.chooseWidth
  have := @State.Kept.when; have := @State.Kept.modGwp
  grind

theorem doAlignmentMarkerRx_kept {k am : Nat} {apart : Bool} (h : s₀.Kept s) :
    s₀.Kept (doAlignmentMarkerRx k am apart s) := by
  unfold doAlignmentMarkerRx
  refine .ite h ?_
  extract_lets lane logical w ready seq rx steady others dup late s₁ s₂ s₃ s₄ s₅ s₆ s₇ s₈
  have h₃ : s₀.Kept s₃ := .setFld (.modRx (h.when fun _ ht => ht.count))
  have h₅ : s₀.Kept s₅ := (h₃.when fun _ ht => ht.setFlag).when fun _ ht => ht.setFlag
  exact .ite h.count (.tryWidth (h₅.setFld.setFld.when fun _ ht => ht.chooseWidth))

theorem State.Kept.endFrame (h : s₀.Kept s) : s₀.Kept s.endFrame := by
  unfold State.endFrame
  have := @State.Kept.modGwp; have := @State.Kept.badFrame; have := @State.Kept.frameRx
  grind

theorem State.Kept.gwSlot {l : List GwBlk} (h : s₀.Kept s) : s₀.Kept (s.gwSlot l) := by
  unfold State.gwSlot
  have := @State.Kept.modGwp; have := @State.Kept.endFrame
  grind

theorem State.Kept.takeSlots {n : Nat} (h : s₀.Kept s) : s₀.Kept (State.takeSlots n s) := by
  induction n generalizing s with
  | zero => exact h
  | succ n ih =>
    unfold State.takeSlots
    have := @State.Kept.each; have := @State.Kept.modRx; have := @State.Kept.gwSlot
    grind

theorem State.Kept.pushBlk {k : Nat} {g : GwBlk} (h : s₀.Kept s) : s₀.Kept (s.pushBlk k g) := by
  unfold State.pushBlk
  have := @State.Kept.when; have := @State.Kept.modRx; have := @State.Kept.takeSlots
  grind

theorem doLdnRx_kept {k : Nat} (h : s₀.Kept s) : s₀.Kept (doLdnRx k s) := by
  unfold doLdnRx
  have := @State.Kept.setFlag; have := @State.Kept.when; have := @State.Kept.gwLinkDown
  grind

theorem State.Kept.leaveLock {k : Nat} {restart : Bool} (h : s₀.Kept s) : s₀.Kept (s.leaveLock k restart) := by
  unfold State.leaveLock
  extract_lets act s₁ s₂ s₃ s₄
  have h₄ : s₀.Kept s₄ := h.setFlag.setFlag.setFlag.modRx.when fun _ ht => ht.startAttempt
  exact .ite h₄.gwLinkDown h₄

theorem State.Kept.controlRx {k : Nat} {b : List Byte} (h : s₀.Kept s) : s₀.Kept (s.controlRx k b) := by
  unfold State.controlRx
  have := @State.Kept.count; have := @State.Kept.pushBlk; have := @doAlignmentMarkerRx_kept; have := @doLdnRx_kept
  grind

theorem State.Kept.lockedRx {k v : Nat} {b : List Byte} (h : s₀.Kept s) : s₀.Kept (s.lockedRx k v b) := by
  unfold State.lockedRx
  have := @State.Kept.modRx; have := @State.Kept.when; have := @State.Kept.count; have := @State.Kept.leaveLock
  have := @State.Kept.pushBlk; have := @State.Kept.controlRx
  grind

theorem State.Kept.huntRx {k v : Nat} (h : s₀.Kept s) : s₀.Kept (s.huntRx k v) := by
  unfold State.huntRx
  have := @State.Kept.modRx; have := @State.Kept.setFlag; have := @State.Kept.setFld
  grind

theorem doBlockRx_kept {k skipped header payload : Nat} (h : s₀.Kept s) :
    s₀.Kept (doBlockRx k skipped header payload s) := by
  unfold doBlockRx
  dsimp only
  (repeat' split) <;> (have := @State.Kept.modRx; have := @State.Kept.setFlag; have := @State.Kept.lockedRx
                       have := @State.Kept.huntRx; grind)

theorem doEqConverged_kept {k : Nat} (h : s₀.Kept s) : s₀.Kept (doEqConverged k s) := by
  unfold doEqConverged
  have := @State.Kept.when; have := @State.Kept.draw; have := @State.Kept.wr; have := @State.Kept.setFlag
  grind

theorem doLockAttemptTimeout_kept {k : Nat} (h : s₀.Kept s) : s₀.Kept (doLockAttemptTimeout k s) := by
  unfold doLockAttemptTimeout
  have := @State.Kept.count; have := @State.Kept.modRx; have := @State.Kept.startAttempt; have := @State.Kept.setFb
  grind

theorem doLaneClockLockLoss_kept {k : Nat} (h : s₀.Kept s) : s₀.Kept (doLaneClockLockLoss k s) := by
  unfold doLaneClockLockLoss
  have := @State.Kept.leaveLock; have := @State.Kept.startAttempt
  grind

/-! ### Smb0 -/

theorem State.Kept.smbDiscard (h : s₀.Kept s) : s₀.Kept s.smbDiscard := by
  unfold State.smbDiscard
  have := @State.Kept.count
  grind

theorem State.Kept.smbAct {standby : Bool} {f : State → State} (h : s₀.Kept s) (hf : ∀ t, s₀.Kept t → s₀.Kept (f t)) :
    s₀.Kept (s.smbAct standby f) := .ite (hf _ h.count) h.setFlag.smbDiscard

theorem State.Kept.smbSend {b : List Byte} (h : s₀.Kept s) : s₀.Kept (s.smbSend b) := by
  unfold State.smbSend
  have := @State.Kept.emit
  grind

theorem doStatus_kept (h : s₀.Kept s) : s₀.Kept (doStatus s) := by
  unfold doStatus
  have := @State.Kept.smbAct; have := @State.Kept.smbSend
  grind

theorem doDeviceId_kept (h : s₀.Kept s) : s₀.Kept (doDeviceId s) := by
  unfold doDeviceId
  have := @State.Kept.smbAct; have := @State.Kept.smbSend
  grind

theorem doPowerCtrlWake_kept (h : s₀.Kept s) : s₀.Kept (doPowerCtrlWake s) := by
  unfold doPowerCtrlWake
  have := @State.Kept.smbAct; have := @doWakeIn_kept
  grind

theorem doPowerCtrlStandby_kept (h : s₀.Kept s) : s₀.Kept (doPowerCtrlStandby s) := by
  unfold doPowerCtrlStandby
  have := @State.Kept.smbAct; have := @State.Kept.setFlag; have := @State.Kept.modSec
  grind

theorem doTemp_kept (h : s₀.Kept s) : s₀.Kept (doTemp s) := by
  unfold doTemp
  have := @State.Kept.smbAct; have := @State.Kept.smbSend
  grind

theorem doFaults_kept (h : s₀.Kept s) : s₀.Kept (doFaults s) := by
  unfold doFaults
  have := @State.Kept.smbAct; have := @State.Kept.settleMonitors; have := @State.Kept.smbSend
  grind

theorem doRegPtr_kept {off len : Nat} (h : s₀.Kept s) : s₀.Kept (doRegPtr off len s) := by
  unfold doRegPtr
  have := @State.Kept.smbDiscard; have := @State.Kept.smbAct; have := @State.Kept.update
  grind

theorem State.Kept.smbWord {a : Nat} (h : s₀.Kept s) : s₀.Kept (s.smbWord a).2 := by
  unfold State.smbWord
  dsimp only
  (repeat' split) <;> (have := @State.Kept.setFlag; have := @State.Kept.readWord; grind)

theorem doRegRead_kept (h : s₀.Kept s) : s₀.Kept (doRegRead s) := by
  unfold doRegRead
  split
  · exact .ite h.setFlag.smbSend (h.smbAct fun _ ht => ht)
  · refine h.smbAct fun _ ht => .smbSend (.update (.foldl_snd ht fun _ _ hu => hu.smbWord))

theorem doRegWrite_kept {off : Nat} {data : List Byte} (h : s₀.Kept s) : s₀.Kept (doRegWrite off data s) := by
  unfold doRegWrite
  have := @State.Kept.smbAct; have := @State.Kept.setFlag; have := @State.Kept.smbDiscard; have := @State.Kept.each
  have := @State.Kept.writeBuf; have := @State.Kept.count; have := @doRegisterWrite_kept
  grind

theorem doLupPtr_kept {i : Nat} (h : s₀.Kept s) : s₀.Kept (doLupPtr i s) := by
  unfold doLupPtr
  have := @State.Kept.smbDiscard; have := @State.Kept.smbAct; have := @State.Kept.update
  grind

theorem doLupRead_kept {corrected : Nat} (h : s₀.Kept s) : s₀.Kept (doLupRead corrected s) := by
  unfold doLupRead
  have := @State.Kept.smbAct; have := @State.Kept.addTo; have := @State.Kept.smbSend
  grind

theorem State.Kept.clearAlerts {mask : Nat} (h : s₀.Kept s) : s₀.Kept (s.clearAlerts mask) := by
  unfold State.clearAlerts
  have := @State.Kept.wr
  grind

theorem doAlertStatus_kept (h : s₀.Kept s) : s₀.Kept (doAlertStatus s) := by
  unfold doAlertStatus
  have := @State.Kept.smbAct; have := @State.Kept.smbSend; have := @State.Kept.clearAlerts
  grind

theorem doAlertClear_kept {mask : Nat} (h : s₀.Kept s) : s₀.Kept (doAlertClear mask s) := by
  unfold doAlertClear
  have := @State.Kept.smbAct; have := @State.Kept.clearAlerts
  grind

theorem doAlertResponse_kept {wins : Bool} (h : s₀.Kept s) : s₀.Kept (doAlertResponse wins s) := by
  unfold doAlertResponse
  have := @State.Kept.setFlag; have := @State.Kept.smbSend
  grind

theorem doSmb0Timeout_kept (h : s₀.Kept s) : s₀.Kept (doSmb0Timeout s) := by
  unfold doSmb0Timeout
  have := @State.Kept.setFlag; have := @State.Kept.smbDiscard
  grind

theorem doSmb0ProtocolError_kept {e : SmbError} (h : s₀.Kept s) : s₀.Kept (doSmb0ProtocolError e s) := by
  unfold doSmb0ProtocolError
  have := @State.Kept.setFlag; have := @State.Kept.smbDiscard
  grind

/-! ### Release -/

theorem State.Kept.releaseUnit {i link inst : Nat} {u : InjUnit} (h : s₀.Kept s) :
    s₀.Kept (s.releaseUnit i link inst u) := by
  unfold State.releaseUnit
  have := @State.Kept.injectThrough; have := @State.Kept.each; have := @State.Kept.sendWire
  have := @State.Kept.sendStage; have := @State.Kept.rxChecked; have := @State.Kept.emit; have := @State.Kept.admitXfer
  have := @doLongPacket_kept; have := @doCanMessageRx_kept
  grind

theorem State.Kept.releaseHeld {i : Nat} (h : s₀.Kept s) : s₀.Kept (s.releaseHeld i) := by
  unfold State.releaseHeld
  have := @State.Kept.modFcl; have := @State.Kept.each; have := @State.Kept.releaseUnit
  grind

theorem State.Kept.releaseDisarmed (h : s₀.Kept s) : s₀.Kept s.releaseDisarmed := by
  unfold State.releaseDisarmed
  have := @State.Kept.each; have := @State.Kept.when; have := @State.Kept.releaseHeld
  grind

theorem doReorderRelease_kept {i : Nat} (h : s₀.Kept s) : s₀.Kept (doReorderRelease i s) := by
  unfold doReorderRelease
  have := @State.Kept.releaseHeld
  grind

theorem doInjectorArm_kept {i : Nat} {arm : Bool} (h : s₀.Kept s) : s₀.Kept (doInjectorArm i arm s) := by
  unfold doInjectorArm
  have := @State.Kept.armInjector; have := @State.Kept.releaseDisarmed
  grind

theorem doInjectorFire_kept {i : Nat} (h : s₀.Kept s) : s₀.Kept (doInjectorFire i s) := by
  unfold doInjectorFire
  have := @State.Kept.injStart
  grind

/-! ### The resets, the commands and the step -/

theorem cellsWf_filter {α : Type} [DecidableEq α] (d : Nat → α) (p : Nat × α → Bool) (a : Nat) (l : List (Nat × α)) (w : cellsWf d a l = true) :
    cellsWf d a (l.filter p) = true := by
  induction l generalizing a with
  | nil => rfl
  | cons c r ih =>
    obtain ⟨k, v⟩ := c
    simp only [cellsWf, Bool.and_eq_true, decide_eq_true_eq] at w
    obtain ⟨⟨low, given⟩, rest⟩ := w
    rw [List.filter_cons]
    split
    · simp only [cellsWf, Bool.and_eq_true, decide_eq_true_eq]
      exact ⟨⟨low, given⟩, ih _ rest⟩
    · exact ih a (cellsWf_mono d a (k + 1) (by omega) r rest)

theorem keepRegs_wf (ks : List RegKind) (t : Tbl (Option Word)) (h : t.wf = true) : (keepRegs ks t).wf = true :=
  cellsWf_filter _ _ _ _ h

/-- A state outside the safe state with a canonical register file meets the invariant. -/
theorem State.Inv.of_calm (regs : s.regs.wf = true) (calm : s.fcl.safe = false) : s.Inv :=
  ⟨regs, fun safe => absurd safe (by simp [calm]), fun safe => absurd safe (by simp [calm])⟩

theorem State.strapPre_fcl (s : State) : s.strapPre.fcl = s.fcl := State.read_of_offRegs s.strapPre_offRegs State.fcl fun _ => rfl

theorem State.toStandby_inv (h : s.Inv) : s.toStandby.Inv :=
  (State.Kept.refl _).strapPre.inv (.of_calm (keepRegs_wf _ _ h.regs) rfl)

theorem State.toStandby_pending (s : State) : s.toStandby.pending = s.pending := (State.Kept.refl _).strapPre.pending

theorem State.toStandby_mode (s : State) : s.toStandby.sec.bootMode = s.sec.bootMode := (State.Kept.refl _).strapPre.mode

theorem doStandbyEntry_kept (h : s₀.Kept s) : s₀.Kept (doStandbyEntry s) := by
  unfold doStandbyEntry
  split
  · exact h
  · rename_i accepted
    extract_lets s₁ s₂
    have shut : s₀.Kept (s₂.gwEnable false) := .gwEnable ((h.each fun _ _ ht => ht.portRun).each fun _ _ ht => ht.displayRun)
    have calm : ¬ s.fcl.safe = true := fun safe => accepted (.inr (.inr (.inr (.inr safe))))
    exact ⟨(State.toStandby_pending _).trans shut.pending, (State.toStandby_mode _).trans shut.mode, fun safe => absurd (h.safe safe) calm,
      fun e => State.toStandby_inv (shut.inv e)⟩

/-- Every command but a reset and the loss of power answers a next state, which keeps the queue, the safe state and the invariant. -/
theorem exec_kept (c : Instr) (s : State) (porst : ∀ m a p r, c ≠ .porstN m a p r) (wrst : ∀ r, c ≠ .wrstN r) (loss : c ≠ .powerLoss) :
    ∃ t, exec c s = .next t ∧ s.Kept t := by
  cases c with
  | porstN m a p r => exact absurd rfl (porst m a p r)
  | wrstN r => exact absurd rfl (wrst r)
  | warmResetDone => exact ⟨_, rfl, doWarmResetDone_kept (.refl s)⟩
  | pwrGoodRise => exact ⟨_, rfl, doPwrGoodRise_kept (.refl s)⟩
  | powerLoss => exact absurd rfl loss
  | pwrGoodTimeout => exact ⟨_, rfl, doPwrGoodTimeout_kept (.refl s)⟩
  | wakeIn => exact ⟨_, rfl, doWakeIn_kept (.refl s)⟩
  | standbyEntry => exact ⟨_, rfl, doStandbyEntry_kept (.refl s)⟩
  | imageLoadDone => exact ⟨_, rfl, doImageLoadDone_kept (.refl s)⟩
  | imageVerifyDone => exact ⟨_, rfl, doImageVerifyDone_kept (.refl s)⟩
  | profileApply => exact ⟨_, rfl, .bootAdvance (doProfileApply_kept (.refl s))⟩
  | scriptEntry => exact ⟨_, rfl, doScriptEntry_kept (.refl s)⟩
  | scriptTimeout => exact ⟨_, rfl, doScriptTimeout_kept (.refl s)⟩
  | handover => exact ⟨_, rfl, doHandover_kept (.refl s)⟩
  | attest => exact ⟨_, rfl, doSecOp_kept (.refl s)⟩
  | unlock => exact ⟨_, rfl, doSecOp_kept (.refl s)⟩
  | keyOp => exact ⟨_, rfl, doSecOp_kept (.refl s)⟩
  | cert => exact ⟨_, rfl, doSecOp_kept (.refl s)⟩
  | arbCommit => exact ⟨_, rfl, doSecOp_kept (.refl s)⟩
  | secOpDone => exact ⟨_, rfl, doSecOpDone_kept (.refl s)⟩
  | commitRequest => exact ⟨_, rfl, .commitRequest (.refl s)⟩
  | discard => exact ⟨_, rfl, .discardOpen (.refl s)⟩
  | consistencyCheckEnd => exact ⟨_, rfl, doConsistencyCheckEnd_kept (.refl s)⟩
  | registerWrite => exact ⟨_, rfl, .releaseDisarmed (doRegisterWrite_kept (.refl s))⟩
  | rasterLineBoundary => exact ⟨_, rfl, doRasterLineBoundary_kept (.refl s)⟩
  | rasterStart => exact ⟨_, rfl, doRasterStart_kept (.refl s)⟩
  | rasterAlignedStart => exact ⟨_, rfl, doRasterAlignedStart_kept (.refl s)⟩
  | trigger => exact ⟨_, rfl, .tryFrees (.trigger (.refl s))⟩
  | tsyncEdge => exact ⟨_, rfl, .tsyncEdge (.refl s)⟩
  | holdoverTimeout => exact ⟨_, rfl, .holdover (.refl s)⟩
  | todSet => exact ⟨_, rfl, .loadTod (.refl s)⟩
  | rasPosRead => exact ⟨_, rfl, .latchFrame (.refl s)⟩
  | rasTodLoRead => exact ⟨_, rfl, .latchTod (.refl s)⟩
  | loRegisterRead => exact ⟨_, rfl, doLoRegisterRead_kept (.refl s)⟩
  | syncWordRx => exact ⟨_, rfl, doSyncWordRx_kept (.refl s)⟩
  | syncLoss => exact ⟨_, rfl, doSyncLoss_kept (.refl s)⟩
  | unlockLimit => exact ⟨_, rfl, .unlockLimit (.refl s)⟩
  | portRun => exact ⟨_, rfl, .portRun (.refl s)⟩
  | aphyLinkUp => exact ⟨_, rfl, .bootAdvance (doAphyLinkUp_kept (.refl s))⟩
  | aphyLinkDown => exact ⟨_, rfl, doAphyLinkDown_kept (.refl s)⟩
  | frameStartPacket => exact ⟨_, rfl, .shortPacket (.refl s)⟩
  | frameEndPacket => exact ⟨_, rfl, .shortPacket (.refl s)⟩
  | lineStartPacket => exact ⟨_, rfl, .shortPacket (.refl s)⟩
  | lineEndPacket => exact ⟨_, rfl, .shortPacket (.refl s)⟩
  | longPacket => exact ⟨_, rfl, .passPacket (.refl s)⟩
  | substitutePublished => exact ⟨_, rfl, doSubstitutePublished_kept (.refl s)⟩
  | frameTimeout => exact ⟨_, rfl, doFrameTimeout_kept (.refl s)⟩
  | occupancyBroadcast => exact ⟨_, rfl, doOccupancyBroadcast_kept (.refl s)⟩
  | lineRelease => exact ⟨_, rfl, .retryCommits (doLineRelease_kept (.refl s))⟩
  | tileEmit => exact ⟨_, rfl, doTileEmit_kept (.refl s)⟩
  | tileStage => exact ⟨_, rfl, doTileStage_kept (.refl s)⟩
  | petalPick => exact ⟨_, rfl, doPetalPick_kept (.refl s)⟩
  | crossBloomSteal => exact ⟨_, rfl, doCrossBloomSteal_kept (.refl s)⟩
  | tileComplete => exact ⟨_, rfl, doTileComplete_kept (.refl s)⟩
  | ledgerVerdict => exact ⟨_, rfl, doLedgerVerdict_kept (.refl s)⟩
  | bloomHalt => exact ⟨_, rfl, doBloomHalt_kept (.refl s)⟩
  | hashProbe => exact ⟨_, rfl, doHashProbe_kept (.refl s)⟩
  | prdDefine => exact ⟨_, rfl, doPrdDefine_kept (.refl s)⟩
  | prdUpdate => exact ⟨_, rfl, doPrdUpdate_kept (.refl s)⟩
  | prdRetire => exact ⟨_, rfl, doPrdRetire_kept (.refl s)⟩
  | productChecksDone => exact ⟨_, rfl, doProductChecksDone_kept (.refl s)⟩
  | trainingEnd => exact ⟨_, rfl, doTrainingEnd_kept (.refl s)⟩
  | hbmTempRead => exact ⟨_, rfl, doHbmTempRead_kept (.refl s)⟩
  | scrubRow => exact ⟨_, rfl, doScrubRow_kept (.refl s)⟩
  | fstRequestDone => exact ⟨_, rfl, doFstRequestDone_kept (.refl s)⟩
  | caParityError => exact ⟨_, rfl, doCaParityError_kept (.refl s)⟩
  | fstProbe => exact ⟨_, rfl, doFstProbe_kept (.refl s)⟩
  | selfRefreshEntry => exact ⟨_, rfl, doSelfRefreshEntry_kept (.refl s)⟩
  | gwPllLock => exact ⟨_, rfl, doGwPllLock_kept (.refl s)⟩
  | blockRx => exact ⟨_, rfl, .releaseDisarmed (doBlockRx_kept (.refl s))⟩
  | alignmentMarkerRx => exact ⟨_, rfl, doAlignmentMarkerRx_kept (.refl s)⟩
  | amTx => exact ⟨_, rfl, doAmTx_kept (.refl s)⟩
  | eqConverged => exact ⟨_, rfl, doEqConverged_kept (.refl s)⟩
  | lockAttemptTimeout => exact ⟨_, rfl, doLockAttemptTimeout_kept (.refl s)⟩
  | ldnRx => exact ⟨_, rfl, doLdnRx_kept (.refl s)⟩
  | retrain => exact ⟨_, rfl, doRetrain_kept (.refl s)⟩
  | gwDisable => exact ⟨_, rfl, .gwEnable (.refl s)⟩
  | linkTimeout => exact ⟨_, rfl, doLinkTimeout_kept (.refl s)⟩
  | initFrameTx => exact ⟨_, rfl, doInitFrameTx_kept (.refl s)⟩
  | initFrameRx => exact ⟨_, rfl, doInitFrameRx_kept (.refl s)⟩
  | dataFrameRx => exact ⟨_, rfl, .releaseDisarmed (doDataFrameRx_kept (.refl s))⟩
  | ctrlFrameRx => exact ⟨_, rfl, doCtrlFrameRx_kept (.refl s)⟩
  | replayTimeout => exact ⟨_, rfl, doReplayTimeout_kept (.refl s)⟩
  | linkFrameTx => exact ⟨_, rfl, doLinkFrameTx_kept (.refl s)⟩
  | creditRecordTx => exact ⟨_, rfl, doCreditRecordTx_kept (.refl s)⟩
  | mwrRx => exact ⟨_, rfl, .releaseDisarmed (doMwrRx_kept (.refl s))⟩
  | mrdRx => exact ⟨_, rfl, doMrdRx_kept (.refl s)⟩
  | cplRx => exact ⟨_, rfl, doCplRx_kept (.refl s)⟩
  | cplTimeout => exact ⟨_, rfl, doCplTimeout_kept (.refl s)⟩
  | hostRetryReissue => exact ⟨_, rfl, doHostRetryReissue_kept (.refl s)⟩
  | time => exact ⟨_, rfl, doTime_kept (.refl s)⟩
  | writeFault => exact ⟨_, rfl, doWriteFault_kept (.refl s)⟩
  | doorbell => exact ⟨_, rfl, doDoorbell_kept (.refl s)⟩
  | doorbellProcess => exact ⟨_, rfl, doDoorbellProcess_kept (.refl s)⟩
  | descriptorFetch => exact ⟨_, rfl, doDescriptorFetch_kept (.refl s)⟩
  | nop => exact ⟨_, rfl, doNop_kept (.refl s)⟩
  | ringCreate => exact ⟨_, rfl, doRingCreate_kept (.refl s)⟩
  | ringDestroy => exact ⟨_, rfl, doRingDestroy_kept (.refl s)⟩
  | ringStop => exact ⟨_, rfl, doRingStop_kept (.refl s)⟩
  | ringResume => exact ⟨_, rfl, doRingResume_kept (.refl s)⟩
  | ringQuery => exact ⟨_, rfl, doRingQuery_kept (.refl s)⟩
  | domSet => exact ⟨_, rfl, doDomSet_kept (.refl s)⟩
  | domReset => exact ⟨_, rfl, doDomReset_kept (.refl s)⟩
  | fstCopy => exact ⟨_, rfl, doFstCopy_kept (.refl s)⟩
  | hqeEnable => exact ⟨_, rfl, doHqeEnable_kept (.refl s)⟩
  | adminResume => exact ⟨_, rfl, doAdminResume_kept (.refl s)⟩
  | contextFill => exact ⟨_, rfl, doContextFill_kept (.refl s)⟩
  | hostLineRelease => exact ⟨_, rfl, doHostLineRelease_kept (.refl s)⟩
  | displayPortRun => exact ⟨_, rfl, .displayRun (.refl s)⟩
  | displayLinkUp => exact ⟨_, rfl, .bootAdvance (doDisplayLinkUp_kept (.refl s))⟩
  | displayLinkDown => exact ⟨_, rfl, doDisplayLinkDown_kept (.refl s)⟩
  | layerFetch => exact ⟨_, rfl, doLayerFetch_kept (.refl s)⟩
  | displayLine => exact ⟨_, rfl, doDisplayLine_kept (.refl s)⟩
  | readback => exact ⟨_, rfl, doReadback_kept (.refl s)⟩
  | hostLineHeader => exact ⟨_, rfl, .hostHeader (.refl s)⟩
  | hostLineData => exact ⟨_, rfl, .hostData (.refl s)⟩
  | hostInputTimeout => exact ⟨_, rfl, doHostInputTimeout_kept (.refl s)⟩
  | proofLogDelivery => exact ⟨_, rfl, doProofLogDelivery_kept (.refl s)⟩
  | mgdSet => exact ⟨_, rfl, doMgdSet_kept (.refl s)⟩
  | mgdLoad => exact ⟨_, rfl, doMgdLoad_kept (.refl s)⟩
  | assetLoadDone => exact ⟨_, rfl, doAssetLoadDone_kept (.refl s)⟩
  | mgdLog => exact ⟨_, rfl, doMgdLog_kept (.refl s)⟩
  | bankRecheck => exact ⟨_, rfl, doBankRecheck_kept (.refl s)⟩
  | canMessageRx => exact ⟨_, rfl, .passMessage (.refl s)⟩
  | filterStale => exact ⟨_, rfl, doFilterStale_kept (.refl s)⟩
  | canBusOff => exact ⟨_, rfl, doCanBusOff_kept (.refl s)⟩
  | canBusOffRecovery => exact ⟨_, rfl, doCanBusOffRecovery_kept (.refl s)⟩
  | restart => exact ⟨_, rfl, doRestart_kept (.refl s)⟩
  | txObjectDue => exact ⟨_, rfl, doTxObjectDue_kept (.refl s)⟩
  | canFrameTx => exact ⟨_, rfl, doCanFrameTx_kept (.refl s)⟩
  | vbrLoad => exact ⟨_, rfl, doVbrLoad_kept (.refl s)⟩
  | vbrXfer => exact ⟨_, rfl, doVbrXfer_kept (.refl s)⟩
  | lvtTick => exact ⟨_, rfl, doLvtTick_kept (.refl s)⟩
  | lvtPoll => exact ⟨_, rfl, doLvtPoll_kept (.refl s)⟩
  | remoteRead => exact ⟨_, rfl, .ite (.remoteRead (.refl s)) (.refl s)⟩
  | remoteWrite => exact ⟨_, rfl, .ite (.remoteWrite (.refl s)) (.refl s)⟩
  | tunnelXferDone => exact ⟨_, rfl, doTunnelXferDone_kept (.refl s)⟩
  | tunnelXferTimeout => exact ⟨_, rfl, doTunnelXferTimeout_kept (.refl s)⟩
  | openReadExpiry => exact ⟨_, rfl, doOpenReadExpiry_kept (.refl s)⟩
  | cacheLineExpiry => exact ⟨_, rfl, doCacheLineExpiry_kept (.refl s)⟩
  | parkRecordFree => exact ⟨_, rfl, doParkRecordFree_kept (.refl s)⟩
  | tableRead => exact ⟨_, rfl, doTableRead_kept (.refl s)⟩
  | status => exact ⟨_, rfl, doStatus_kept (.refl s)⟩
  | deviceId => exact ⟨_, rfl, doDeviceId_kept (.refl s)⟩
  | powerCtrlWake => exact ⟨_, rfl, doPowerCtrlWake_kept (.refl s)⟩
  | powerCtrlStandby => exact ⟨_, rfl, doPowerCtrlStandby_kept (.refl s)⟩
  | temp => exact ⟨_, rfl, doTemp_kept (.refl s)⟩
  | faults => exact ⟨_, rfl, doFaults_kept (.refl s)⟩
  | regPtr => exact ⟨_, rfl, doRegPtr_kept (.refl s)⟩
  | regRead => exact ⟨_, rfl, doRegRead_kept (.refl s)⟩
  | regWrite => exact ⟨_, rfl, .releaseDisarmed (doRegWrite_kept (.refl s))⟩
  | lupPtr => exact ⟨_, rfl, doLupPtr_kept (.refl s)⟩
  | lupRead => exact ⟨_, rfl, doLupRead_kept (.refl s)⟩
  | alertStatus => exact ⟨_, rfl, doAlertStatus_kept (.refl s)⟩
  | alertClear => exact ⟨_, rfl, doAlertClear_kept (.refl s)⟩
  | quickCommand => exact ⟨_, rfl, .refl s⟩
  | alertResponse => exact ⟨_, rfl, doAlertResponse_kept (.refl s)⟩
  | smb0Timeout => exact ⟨_, rfl, doSmb0Timeout_kept (.refl s)⟩
  | smb1Transfer => exact ⟨_, rfl, doSmb1Transfer_kept (.refl s)⟩
  | smb1Retry => exact ⟨_, rfl, doSmb1Retry_kept (.refl s)⟩
  | smb1TransferDone => exact ⟨_, rfl, doSmb1TransferDone_kept (.refl s)⟩
  | smb1Timeout => exact ⟨_, rfl, doSmb1Timeout_kept (.refl s)⟩
  | faultRaise => exact ⟨_, rfl, doFaultRaise_kept (.refl s)⟩
  | statusClear => exact ⟨_, rfl, doStatusClear_kept (.refl s)⟩
  | firstFaultClear => exact ⟨_, rfl, doFirstFaultClear_kept (.refl s)⟩
  | collectorSelfTest => exact ⟨_, rfl, .ite (.refl s) (.selfCheckFail (.refl s))⟩
  | forceSafe => exact ⟨_, rfl, doForceSafe_kept (.refl s)⟩
  | policyLock => exact ⟨_, rfl, doPolicyLock_kept (.refl s)⟩
  | lupinRecordWrite => exact ⟨_, rfl, doLupinRecordWrite_kept (.refl s)⟩
  | freeze => exact ⟨_, rfl, doFreeze_kept (.refl s)⟩
  | clear => exact ⟨_, rfl, doClear_kept (.refl s)⟩
  | release => exact ⟨_, rfl, doRelease_kept (.refl s)⟩
  | lupMark => exact ⟨_, rfl, doLupMark_kept (.refl s)⟩
  | lupinSave => exact ⟨_, rfl, doLupinSave_kept (.refl s)⟩
  | lupinSaveDone => exact ⟨_, rfl, doLupinSaveDone_kept (.refl s)⟩
  | injectorArm => exact ⟨_, rfl, doInjectorArm_kept (.refl s)⟩
  | injectorFire => exact ⟨_, rfl, doInjectorFire_kept (.refl s)⟩
  | reorderRelease => exact ⟨_, rfl, doReorderRelease_kept (.refl s)⟩
  | grantTimer => exact ⟨_, rfl, doGrantTimer_kept (.refl s)⟩
  | ladderStep => exact ⟨_, rfl, doLadderStep_kept (.refl s)⟩
  | energyDebtLimit => exact ⟨_, rfl, doEnergyDebtLimit_kept (.refl s)⟩
  | clockChangeDone => exact ⟨_, rfl, doClockChangeDone_kept (.refl s)⟩
  | tempSample => exact ⟨_, rfl, doTempSample_kept (.refl s)⟩
  | agingMeasure => exact ⟨_, rfl, doAgingMeasure_kept (.refl s)⟩
  | avsStep => exact ⟨_, rfl, doAvsStep_kept (.refl s)⟩
  | egvBudget => exact ⟨_, rfl, doEgvBudget_kept (.refl s)⟩
  | pmuFreeze => exact ⟨_, rfl, doPmuFreeze_kept (.refl s)⟩
  | pmuUnfreeze => exact ⟨_, rfl, doPmuFreeze_kept (.refl s)⟩
  | snapNow => exact ⟨_, rfl, .takeSnapshot (.refl s)⟩
  | counterOverflow => exact ⟨_, rfl, doCounterOverflow_kept (.refl s)⟩
  | clockMonitorFail => exact ⟨_, rfl, doClockMonitorFail_kept (.refl s)⟩
  | collectorSelfCheckFail => exact ⟨_, rfl, .ite (.selfCheckFail (.refl s)) (.refl s)⟩
  | laneClockLockLoss => exact ⟨_, rfl, doLaneClockLockLoss_kept (.refl s)⟩
  | canBusError => exact ⟨_, rfl, doCanBusError_kept (.refl s)⟩
  | smb0ProtocolError => exact ⟨_, rfl, doSmb0ProtocolError_kept (.refl s)⟩

/-- PORST_N keeps the queue and leads to a state of the invariant. -/
theorem doPorstN_inv (m a : Nat) (p r : Bool) (s : State) : (doPorstN m a p r s).pending = s.pending ∧ (doPorstN m a p r s).Inv := by
  unfold doPorstN
  extract_lets q q'
  have strapped : q.Kept q' := (State.Kept.refl q).strapPre
  have kept : q.Kept (if s.sec.pwrGood = true then q'.startRom r else q') :=
    .ite (strapped.startRom fun _ => congrArg Fcl.safe (State.strapPre_fcl q)) strapped
  exact ⟨kept.pending, kept.inv (.of_calm rfl rfl)⟩

/-- WRST_N keeps the queue and the invariant. -/
theorem doWrstN_inv (r : Bool) (s : State) (h : s.Inv) : (doWrstN r s).pending = s.pending ∧ (doWrstN r s).Inv := by
  unfold doWrstN
  split
  · exact ⟨rfl, h⟩
  · extract_lets u ready q sec q' w
    have met : s.Kept u := (State.Kept.refl s).when fun _ ht => ht.gwLinkDown
    have shown : q'.Kept w := (State.Kept.refl q').setFlag.strapPre.showResources
    have fcl : w.fcl = q'.fcl :=
      (State.read_of_offRegs (State.showResources_offRegs _) State.fcl fun _ => rfl).trans (State.strapPre_fcl _)
    have kept : q'.Kept (w.startRom r) := shown.startRom fun _ => congrArg Fcl.safe fcl
    exact ⟨kept.pending.trans met.pending, kept.inv (.of_calm (keepRegs_wf _ _ (met.inv h).regs) rfl)⟩

/-- Every command answers a next state and keeps the queue and the invariant. -/
theorem exec_inv (c : Instr) (s : State) (h : s.Inv) : ∃ t, exec c s = .next t ∧ t.pending = s.pending ∧ t.Inv := by
  by_cases porst : ∃ m a p r, c = .porstN m a p r
  · obtain ⟨m, a, p, r, rfl⟩ := porst
    exact ⟨_, rfl, doPorstN_inv m.toNat a.toNat p r s⟩
  by_cases wrst : ∃ r, c = .wrstN r
  · obtain ⟨r, rfl⟩ := wrst
    exact ⟨_, rfl, doWrstN_inv r s h⟩
  by_cases loss : c = .powerLoss
  · subst loss
    refine ⟨doPowerLoss s, rfl, ?_⟩
    unfold doPowerLoss
    split
    · exact ⟨s.toStandby_pending, State.toStandby_inv h⟩
    · exact ⟨rfl, h⟩
  · obtain ⟨t, ran, kept⟩ := exec_kept c s (fun m a p r e => porst ⟨m, a, p, r, e⟩) (fun r e => wrst ⟨r, e⟩) loss
    exact ⟨t, ran, kept.pending, kept.inv h⟩

end Sys2Proof.Machine
end

section
/-! PROOFS. The machine's invariant at reset and at every step, and the safe state. -/
namespace Sys2Proof.Machine

/-- Settles O58: the command taken keeps the invariant and what is left of the queue; an idle cycle keeps both. -/
theorem everyStepKeepsTheMachineInvariant : Obligations.EveryStepKeepsTheMachineInvariant := by
  intro s t stepped inv
  unfold step at stepped
  cases queue : s.pending with
  | nil =>
    have kept : s.Kept s.cycle := (State.Kept.refl s).cycle
    simp only [queue, Host.Outcome.next.injEq] at stepped
    subst stepped
    exact ⟨kept.inv inv, kept.pending.trans queue⟩
  | cons c rest =>
    simp only [queue] at stepped
    obtain ⟨u, ran, pending, kept⟩ := exec_inv c { s with pending := rest } ⟨inv.regs, inv.faultN, inv.power⟩
    obtain rfl : u = t := Host.Outcome.next.inj (ran.symm.trans stepped)
    exact ⟨kept, pending⟩

/-- Settles O60: every command but these three keeps the safe state. -/
theorem onlyResetsLeaveTheSafeState : Obligations.OnlyResetsLeaveTheSafeState := by
  intro s c safe porst wrst loss
  obtain ⟨t, ran, kept⟩ := exec_kept c s porst wrst loss
  exact ⟨t, ran, kept.safe safe⟩

/-- Settles O57: by the two equations of a step. -/
theorem stepRunsTheFrontCommand : Obligations.StepRunsTheFrontCommand := by
  refine fun s => ⟨fun c rest queue => ?_, fun queue => ?_⟩ <;> simp only [step, queue]

/-- Settles O59: at reset every part of the state has its default, and an empty register file reads reset values. -/
theorem theInvariantHoldsAtReset : Obligations.TheInvariantHoldsAtReset :=
  ⟨.of_calm rfl rfl, rfl, rfl, fun _ _ _ => rfl⟩

end Sys2Proof.Machine
end

section
/-!
SUPPORT. What a field reads after a write of a flag or a field: itself, one beside it in the same register, or one of another kind.
A write of a register of the list keeps the registers beside the list; its three side conditions are routine and found by `simp`-free
tactics, so that a chain of writes is a chain of dots.
-/

namespace Sys2Proof.Machine

theorem State.fld_setFlag_same (s : State) (f : Fld) (b : Bool) (i j : Nat) (h : f.lo ≤ f.hi) (h32 : f.hi < 32) :
    (s.setFlag f b i j).fld f i j = b2n b := by
  have one : 1 < 2 ^ (f.hi + 1 - f.lo) := Nat.one_lt_two_pow (by omega)
  refine (s.fld_setFld_same f _ i j h h32).trans (Nat.mod_eq_of_lt ?_)
  cases b
  · exact Nat.zero_lt_of_lt one
  · exact one

theorem State.fld_setFlag_beside (s : State) (f g : Fld) (b : Bool) (i j : Nat) (hr : g.reg = f.reg) (h : f.lo ≤ f.hi) (h32 : f.hi < 32)
    (hd : f.hi < g.lo ∨ g.hi < f.lo) : (s.setFlag f b i j).fld g i j = s.fld g i j :=
  s.fld_setFld_beside f g _ i j hr h h32 hd

theorem State.flag_setFld_beside (s : State) (f g : Fld) (v i j : Nat) (hr : g.reg = f.reg) (h : f.lo ≤ f.hi) (h32 : f.hi < 32)
    (hd : f.hi < g.lo ∨ g.hi < f.lo) : (s.setFld f v i j).flag g i j = s.flag g i j :=
  congrArg (· == 1) (s.fld_setFld_beside f g v i j hr h h32 hd)

theorem State.flag_setFlag_beside (s : State) (f g : Fld) (b : Bool) (i j : Nat) (hr : g.reg = f.reg) (h : f.lo ≤ f.hi) (h32 : f.hi < 32)
    (hd : f.hi < g.lo ∨ g.hi < f.lo) : (s.setFlag f b i j).flag g i j = s.flag g i j :=
  s.flag_setFld_beside f g _ i j hr h h32 hd

theorem State.fld_setFlag_kind (s : State) (f g : Fld) (b : Bool) (i j i' j' : Nat) (h : g.reg ≠ f.reg) :
    (s.setFlag f b i j).fld g i' j' = s.fld g i' j' := s.fld_setFld_kind f g _ i j i' j' h

theorem State.flag_setFld_kind (s : State) (f g : Fld) (v i j i' j' : Nat) (h : g.reg ≠ f.reg) :
    (s.setFld f v i j).flag g i' j' = s.flag g i' j' := congrArg (· == 1) (s.fld_setFld_kind f g v i j i' j' h)

theorem State.flag_setFlag_kind (s : State) (f g : Fld) (b : Bool) (i j i' j' : Nat) (h : g.reg ≠ f.reg) :
    (s.setFlag f b i j).flag g i' j' = s.flag g i' j' := s.flag_setFld_kind f g _ i j i' j' h

theorem State.fld_count_same (s : State) (f : Fld) (i j : Nat) (h : f.lo ≤ f.hi) (h32 : f.hi < 32) :
    (s.count f i j).fld f i j = min f.max (s.fld f i j + 1) := s.fld_addTo_same f 1 i j h h32

theorem State.fld_count_beside (s : State) (f g : Fld) (i j : Nat) (hr : g.reg = f.reg) (h : f.lo ≤ f.hi) (h32 : f.hi < 32)
    (hd : f.hi < g.lo ∨ g.hi < f.lo) : (s.count f i j).fld g i j = s.fld g i j := s.fld_setFld_beside f g _ i j hr h h32 hd

theorem State.fld_count_kind (s : State) (f g : Fld) (i j i' j' : Nat) (h : g.reg ≠ f.reg) : (s.count f i j).fld g i' j' = s.fld g i' j' :=
  s.fld_setFld_kind f g _ i j i' j' h

theorem State.rd_count_kind (s : State) (f : Fld) (k : RegKind) (i j i' j' : Nat) (h : k ≠ f.reg) : (s.count f i j).rd k i' j' = s.rd k i' j' :=
  s.rd_setFld_kind f k _ i j i' j' h

theorem SameRegs.andWr {l : List RegId} {s t : State} {k : RegKind} {v i j : Nat} (h : SameRegs l s t)
    (hm : (⟨k, i, j⟩ : RegId) ∈ l) (low : i < 4096 ∧ j < 4096) :
    SameRegs l s (t.wr k v i j) := h.wr _ _ _ _ low.1 low.2 hm

theorem SameRegs.andFld {l : List RegId} {s t : State} {f : Fld} {v i j : Nat} (h : SameRegs l s t)
    (hm : (⟨f.reg, i, j⟩ : RegId) ∈ l) (low : i < 4096 ∧ j < 4096) :
    SameRegs l s (t.setFld f v i j) := h.setFld _ _ _ _ low.1 low.2 hm

theorem SameRegs.andFlag {l : List RegId} {s t : State} {f : Fld} {b : Bool} {i j : Nat} (h : SameRegs l s t)
    (hm : (⟨f.reg, i, j⟩ : RegId) ∈ l) (low : i < 4096 ∧ j < 4096) :
    SameRegs l s (t.setFlag f b i j) := h.setFlag _ _ _ _ low.1 low.2 hm

theorem SameRegs.andAdd {l : List RegId} {s t : State} {f : Fld} {v i j : Nat} (h : SameRegs l s t)
    (hm : (⟨f.reg, i, j⟩ : RegId) ∈ l) (low : i < 4096 ∧ j < 4096) :
    SameRegs l s (t.addTo f v i j) := h.addTo _ _ _ _ low.1 low.2 hm

theorem SameRegs.andCount {l : List RegId} {s t : State} {f : Fld} {i j : Nat} (h : SameRegs l s t)
    (hm : (⟨f.reg, i, j⟩ : RegId) ∈ l) (low : i < 4096 ∧ j < 4096) :
    SameRegs l s (t.count f i j) := h.count _ _ _ low.1 low.2 hm

theorem SameRegs.each {α : Type} {l : List RegId} {s t : State} {xs : List α} {f : α → State → State} (h : SameRegs l s t)
    (hf : ∀ a ∈ xs, ∀ u, SameRegs l s u → SameRegs l s (f a u)) : SameRegs l s (t.each xs f) := by
  unfold State.each
  induction xs generalizing t with
  | nil => exact h
  | cons a r ih => exact ih (hf a List.mem_cons_self t h) fun b hb => hf b (List.mem_cons_of_mem _ hb)

theorem SameRegs.when {l : List RegId} {s t : State} {c : Bool} {f : State → State} (h : SameRegs l s t)
    (hf : SameRegs l s (f t)) : SameRegs l s (t.when c f) := SameRegs.ite hf h

@[simp] theorem State.addTo_offRegs (s : State) (f : Fld) (n i j : Nat) : (s.addTo f n i j).offRegs = s.offRegs := (rfl)

@[simp] theorem State.count_offRegs (s : State) (f : Fld) (i j : Nat) : (s.count f i j).offRegs = s.offRegs := (rfl)

theorem State.when_offRegs (s : State) (c : Bool) (f : State → State) (h : ∀ t : State, (f t).offRegs = t.offRegs) :
    (s.when c f).offRegs = s.offRegs := by
  cases c
  · rfl
  · exact h s

theorem State.when_true (s : State) (f : State → State) : s.when true f = f s := rfl

theorem State.when_false (s : State) (f : State → State) : s.when false f = s := rfl

theorem State.regs_back {s t : State} (h : t.offRegs = s.offRegs) : { t with regs := s.regs } = s :=
  congrArg (fun u : State => { u with regs := s.regs }) h

theorem State.rd_of_regs {s t : State} (h : t.regs = s.regs) (k : RegKind) (i j : Nat) : t.rd k i j = s.rd k i j := by
  unfold State.rd
  rw [h]

theorem State.fld_of_regs {s t : State} (h : t.regs = s.regs) (f : Fld) (i j : Nat) : t.fld f i j = s.fld f i j := by
  unfold State.fld
  rw [State.rd_of_regs h]

theorem State.flag_of_regs {s t : State} (h : t.regs = s.regs) (f : Fld) (i j : Nat) : t.flag f i j = s.flag f i j := by
  unfold State.flag
  rw [State.fld_of_regs h]

/-- A count of an event changes the counters' registers and their wraps, and nothing else. -/
theorem State.pmuAdd_rest (s : State) (ev inst n : Nat) (c : Option Nat) :
    { s.pmuAdd ev inst n c with regs := {}, pmu := {} } = { s with regs := {}, pmu := {} } := by
  unfold State.pmuAdd
  split
  · rfl
  · refine State.each_keeps (fun t : State => { t with regs := {}, pmu := {} }) _ _ _ fun i t => ?_
    dsimp only
    split
    · split <;> simp
    · rfl

theorem State.pmuAdd_cfg (s : State) (ev inst n : Nat) (c : Option Nat) : (s.pmuAdd ev inst n c).cfg = s.cfg :=
  (congrArg State.cfg (s.pmuAdd_rest ev inst n c) :)

theorem State.pmuAdd_pool (s : State) (ev inst n : Nat) (c : Option Nat) : (s.pmuAdd ev inst n c).pool = s.pool :=
  (congrArg State.pool (s.pmuAdd_rest ev inst n c) :)

theorem State.pmuAdd_prd (s : State) (ev inst n : Nat) (c : Option Nat) : (s.pmuAdd ev inst n c).prd = s.prd :=
  (congrArg State.prd (s.pmuAdd_rest ev inst n c) :)

theorem State.pmuAdd_hqe (s : State) (ev inst n : Nat) (c : Option Nat) : (s.pmuAdd ev inst n c).hqe = s.hqe :=
  (congrArg State.hqe (s.pmuAdd_rest ev inst n c) :)

theorem State.pmuAdd_fcl (s : State) (ev inst n : Nat) (c : Option Nat) : (s.pmuAdd ev inst n c).fcl = s.fcl :=
  (congrArg State.fcl (s.pmuAdd_rest ev inst n c) :)

theorem State.pmuAdd_gwl (s : State) (ev inst n : Nat) (c : Option Nat) : (s.pmuAdd ev inst n c).gwl = s.gwl :=
  (congrArg State.gwl (s.pmuAdd_rest ev inst n c) :)

theorem State.pmuAdd_vbr (s : State) (ev inst n : Nat) (c : Option Nat) : (s.pmuAdd ev inst n c).vbr = s.vbr :=
  (congrArg State.vbr (s.pmuAdd_rest ev inst n c) :)

theorem State.pmuAdd_seals (s : State) (ev inst n : Nat) (c : Option Nat) : (s.pmuAdd ev inst n c).seals = s.seals :=
  (congrArg State.seals (s.pmuAdd_rest ev inst n c) :)

theorem State.pmuAdd_lup (s : State) (ev inst n : Nat) (c : Option Nat) : (s.pmuAdd ev inst n c).lup = s.lup :=
  (congrArg State.lup (s.pmuAdd_rest ev inst n c) :)

theorem State.modPmu_rd (s : State) (f : Pmu → Pmu) (k : RegKind) (i j : Nat) : (s.modPmu f).rd k i j = s.rd k i j := (rfl)

/-- A count of an event reads in its counter only. -/
theorem State.pmuAdd_rd_beside (s : State) (ev inst n : Nat) (c : Option Nat) (k : RegKind) (i j : Nat) (lo : k ≠ .PMU_CTR_LO)
    (hi : k ≠ .PMU_CTR_HI) : (s.pmuAdd ev inst n c).rd k i j = s.rd k i j := by
  unfold State.pmuAdd
  split
  · rfl
  · refine State.each_rd _ _ _ _ _ _ fun a t => ?_
    dsimp only
    generalize t.fld F.PMU_CTR_HI.COUNT a * 2 ^ 32 + t.fld F.PMU_CTR_LO.COUNT a + n = v
    have set := (State.rd_setFld_kind (t.setFld F.PMU_CTR_LO.COUNT (v % 2 ^ 32) a) F.PMU_CTR_HI.COUNT k (v / 2 ^ 32 % 2 ^ 16) a 0 i j hi).trans
      (t.rd_setFld_kind F.PMU_CTR_LO.COUNT k (v % 2 ^ 32) a 0 i j lo)
    split
    · split
      · exact set
      · exact (State.modPmu_rd _ _ _ _ _).trans set
    · rfl

theorem State.pmuAdd_fld_beside (s : State) (ev inst n : Nat) (c : Option Nat) (f : Fld) (i j : Nat) (lo : f.reg ≠ .PMU_CTR_LO)
    (hi : f.reg ≠ .PMU_CTR_HI) : (s.pmuAdd ev inst n c).fld f i j = s.fld f i j := by
  unfold State.fld
  rw [State.pmuAdd_rd_beside _ _ _ _ _ _ _ _ lo hi]

theorem State.pmuAdd_flag (s : State) (ev inst n : Nat) (c : Option Nat) (f : Fld) (i j : Nat) (h : f.reg.reported = false) :
    (s.pmuAdd ev inst n c).flag f i j = s.flag f i j := congrArg (· == 1) (s.pmuAdd_fld ev inst n c f i j h)

theorem State.each_nil {α : Type} (s : State) (f : α → State → State) : s.each [] f = s := rfl

theorem State.each_same {α : Type} (s : State) (l : List α) (f : α → State → State) (h : ∀ a ∈ l, f a s = s) : s.each l f = s := by
  unfold State.each
  induction l with
  | nil => rfl
  | cons a r ih =>
    rw [List.foldl_cons, h a List.mem_cons_self]
    exact ih fun b hb => h b (List.mem_cons_of_mem _ hb)

/-- Visiting numbers of which only `e` acts is acting at `e`, when the others do not act before nor after it. -/
theorem State.each_range_only (s : State) (n e : Nat) (f : Nat → State → State) (he : e < n) (before : ∀ x, x < n → x ≠ e → f x s = s)
    (after : ∀ x, x < n → x ≠ e → f x (f e s) = f e s) : s.each (List.range n) f = f e s := by
  obtain ⟨m, rfl⟩ : ∃ m, n = e + 1 + m := ⟨n - (e + 1), by omega⟩
  have first := s.each_same (List.range e) f fun x hx => before x (by have := List.mem_range.mp hx; omega) (by have := List.mem_range.mp hx; omega)
  have last := (f e s).each_same ((List.range m).map (e + 1 + ·)) f fun x hx => by
    obtain ⟨y, hy, rfl⟩ := List.mem_map.mp hx
    have := List.mem_range.mp hy
    exact after _ (by omega) (by omega)
  unfold State.each at first last ⊢
  rw [List.range_add, List.range_succ, List.foldl_append, List.foldl_append, first, List.foldl_cons, List.foldl_nil, last]

theorem filter_range_eq_singleton (n e : Nat) (p : Nat → Bool) (he : e < n) (h : ∀ x, x < n → p x = decide (x = e)) : (List.range n).filter p
    = [e] := by
  rw [List.filter_congr fun x hx => h x (List.mem_range.mp hx)]
  have nodup := (List.nodup_range (n := n)).filter (fun x => decide (x = e))
  refine List.Perm.eq_singleton ((List.perm_ext_iff_of_nodup nodup (List.nodup_singleton e)).mpr fun x => ?_)
  simp only [List.mem_filter, List.mem_range, decide_eq_true_eq, List.mem_singleton]
  exact ⟨fun hx => hx.2, fun hx => ⟨hx ▸ he, hx⟩⟩

theorem State.modPool_regs (s : State) (f : Pool → Pool) : (s.modPool f).regs = s.regs := rfl

/-! A field or a register reads as before when a part of the state beside the register file changes. -/

@[simp] theorem State.modGwl_fld (s : State) (f : Gwl → Gwl) (g : Fld) (i j : Nat) : (s.modGwl f).fld g i j = s.fld g i j := (rfl)

@[simp] theorem State.modGwl_flag (s : State) (f : Gwl → Gwl) (g : Fld) (i j : Nat) : (s.modGwl f).flag g i j = s.flag g i j := (rfl)

@[simp] theorem State.modGwl_rd (s : State) (f : Gwl → Gwl) (k : RegKind) (i j : Nat) : (s.modGwl f).rd k i j = s.rd k i j := (rfl)

@[simp] theorem State.modHqe_fld (s : State) (f : Hqe → Hqe) (g : Fld) (i j : Nat) : (s.modHqe f).fld g i j = s.fld g i j := (rfl)

@[simp] theorem State.modHqe_flag (s : State) (f : Hqe → Hqe) (g : Fld) (i j : Nat) : (s.modHqe f).flag g i j = s.flag g i j := (rfl)

@[simp] theorem State.modHqe_rd (s : State) (f : Hqe → Hqe) (k : RegKind) (i j : Nat) : (s.modHqe f).rd k i j = s.rd k i j := (rfl)

@[simp] theorem State.modPrd_fld (s : State) (f : Prd → Prd) (g : Fld) (i j : Nat) : (s.modPrd f).fld g i j = s.fld g i j := (rfl)

@[simp] theorem State.modPrd_flag (s : State) (f : Prd → Prd) (g : Fld) (i j : Nat) : (s.modPrd f).flag g i j = s.flag g i j := (rfl)

@[simp] theorem State.modPrd_rd (s : State) (f : Prd → Prd) (k : RegKind) (i j : Nat) : (s.modPrd f).rd k i j = s.rd k i j := (rfl)

@[simp] theorem State.modFcl_fld (s : State) (f : Fcl → Fcl) (g : Fld) (i j : Nat) : (s.modFcl f).fld g i j = s.fld g i j := (rfl)

@[simp] theorem State.modFcl_flag (s : State) (f : Fcl → Fcl) (g : Fld) (i j : Nat) : (s.modFcl f).flag g i j = s.flag g i j := (rfl)

@[simp] theorem State.modFcl_rd (s : State) (f : Fcl → Fcl) (k : RegKind) (i j : Nat) : (s.modFcl f).rd k i j = s.rd k i j := (rfl)

@[simp] theorem State.modVbr_fld (s : State) (f : Vbr → Vbr) (g : Fld) (i j : Nat) : (s.modVbr f).fld g i j = s.fld g i j := (rfl)

@[simp] theorem State.modVbr_flag (s : State) (f : Vbr → Vbr) (g : Fld) (i j : Nat) : (s.modVbr f).flag g i j = s.flag g i j := (rfl)

@[simp] theorem State.modVbr_rd (s : State) (f : Vbr → Vbr) (k : RegKind) (i j : Nat) : (s.modVbr f).rd k i j = s.rd k i j := (rfl)

@[simp] theorem State.modMgd_fld (s : State) (f : Mgd → Mgd) (g : Fld) (i j : Nat) : (s.modMgd f).fld g i j = s.fld g i j := (rfl)

@[simp] theorem State.modMgd_flag (s : State) (f : Mgd → Mgd) (g : Fld) (i j : Nat) : (s.modMgd f).flag g i j = s.flag g i j := (rfl)

@[simp] theorem State.modMgd_rd (s : State) (f : Mgd → Mgd) (k : RegKind) (i j : Nat) : (s.modMgd f).rd k i j = s.rd k i j := (rfl)

@[simp] theorem State.modSec_fld (s : State) (f : Sec → Sec) (g : Fld) (i j : Nat) : (s.modSec f).fld g i j = s.fld g i j := (rfl)

@[simp] theorem State.modSec_flag (s : State) (f : Sec → Sec) (g : Fld) (i j : Nat) : (s.modSec f).flag g i j = s.flag g i j := (rfl)

@[simp] theorem State.modSec_rd (s : State) (f : Sec → Sec) (k : RegKind) (i j : Nat) : (s.modSec f).rd k i j = s.rd k i j := (rfl)

@[simp] theorem State.modFst_fld (s : State) (f : Fst → Fst) (g : Fld) (i j : Nat) : (s.modFst f).fld g i j = s.fld g i j := (rfl)

@[simp] theorem State.modFst_flag (s : State) (f : Fst → Fst) (g : Fld) (i j : Nat) : (s.modFst f).flag g i j = s.flag g i j := (rfl)

@[simp] theorem State.modFst_rd (s : State) (f : Fst → Fst) (k : RegKind) (i j : Nat) : (s.modFst f).rd k i j = s.rd k i j := (rfl)

@[simp] theorem State.modEgv_fld (s : State) (f : Egv → Egv) (g : Fld) (i j : Nat) : (s.modEgv f).fld g i j = s.fld g i j := (rfl)

@[simp] theorem State.modEgv_flag (s : State) (f : Egv → Egv) (g : Fld) (i j : Nat) : (s.modEgv f).flag g i j = s.flag g i j := (rfl)

@[simp] theorem State.modEgv_rd (s : State) (f : Egv → Egv) (k : RegKind) (i j : Nat) : (s.modEgv f).rd k i j = s.rd k i j := (rfl)

@[simp] theorem State.modLup_fld (s : State) (f : Lup → Lup) (g : Fld) (i j : Nat) : (s.modLup f).fld g i j = s.fld g i j := (rfl)

@[simp] theorem State.modLup_flag (s : State) (f : Lup → Lup) (g : Fld) (i j : Nat) : (s.modLup f).flag g i j = s.flag g i j := (rfl)

@[simp] theorem State.modLup_rd (s : State) (f : Lup → Lup) (k : RegKind) (i j : Nat) : (s.modLup f).rd k i j = s.rd k i j := (rfl)

@[simp] theorem State.modGwp_fld (s : State) (f : GwPhy → GwPhy) (g : Fld) (i j : Nat) : (s.modGwp f).fld g i j = s.fld g i j := (rfl)

@[simp] theorem State.modGwp_flag (s : State) (f : GwPhy → GwPhy) (g : Fld) (i j : Nat) : (s.modGwp f).flag g i j = s.flag g i j := (rfl)

@[simp] theorem State.modGwp_rd (s : State) (f : GwPhy → GwPhy) (k : RegKind) (i j : Nat) : (s.modGwp f).rd k i j = s.rd k i j := (rfl)

@[simp] theorem State.modSmb_fld (s : State) (f : Smb → Smb) (g : Fld) (i j : Nat) : (s.modSmb f).fld g i j = s.fld g i j := (rfl)

@[simp] theorem State.modSmb_flag (s : State) (f : Smb → Smb) (g : Fld) (i j : Nat) : (s.modSmb f).flag g i j = s.flag g i j := (rfl)

@[simp] theorem State.modSmb_rd (s : State) (f : Smb → Smb) (k : RegKind) (i j : Nat) : (s.modSmb f).rd k i j = s.rd k i j := (rfl)

@[simp] theorem State.modCfg_fld (s : State) (f : Cfg → Cfg) (g : Fld) (i j : Nat) : (s.modCfg f).fld g i j = s.fld g i j := (rfl)

@[simp] theorem State.modCfg_flag (s : State) (f : Cfg → Cfg) (g : Fld) (i j : Nat) : (s.modCfg f).flag g i j = s.flag g i j := (rfl)

@[simp] theorem State.modCfg_rd (s : State) (f : Cfg → Cfg) (k : RegKind) (i j : Nat) : (s.modCfg f).rd k i j = s.rd k i j := (rfl)

/-! With no injector in the way a unit passes as it is. -/

theorem State.injOne_idle (s : State) (link inst i : Nat) (u : InjUnit) (firing : (s.fcl.fij.get i).firing = false)
    (held : (s.fcl.fij.get i).held = []) : s.injOne link inst i u = ([u], s) := by
  have mine : ((s.fcl.fij.get i).held != [] && (s.fcl.fij.get i).link == link && (decide (link < 2) || (s.fcl.fij.get i).inst == inst)) = false := by
    simp [held]
  unfold State.injOne
  simp only [mine, State.when_false, firing, Bool.false_eq_true, false_and, not_false_eq_true, true_or, if_true, if_false]

theorem State.inject_idle (s : State) (link inst : Nat) (u : InjUnit) (idle : s.injIdle) : s.inject link inst u = ([u], s) := by
  have through (l : List Nat) (hl : ∀ i ∈ l, i < 8) : s.injectThrough l link inst u = ([u], s) := by
    unfold State.injectThrough
    induction l with
    | nil => rfl
    | cons i r ih =>
      obtain ⟨firing, held, -⟩ := idle i (hl i List.mem_cons_self)
      rw [List.foldl_cons]
      simp only [List.foldl_cons, List.foldl_nil, s.injOne_idle link inst i u firing held, List.nil_append]
      exact ih fun j hj => hl j (List.mem_cons_of_mem _ hj)
  exact through _ fun i hi => List.mem_range.mp hi

theorem bit_eq_testBit (w i : Nat) : bit w i = w.testBit i := by
  unfold bit bits
  rw [Nat.testBit_eq_decide_div_mod_eq, Nat.shiftRight_eq_div_pow, show i + 1 - i = 1 by omega, pow_one]
  rfl

theorem testBit_bits (w hi lo k : Nat) : (bits w hi lo).testBit k = (decide (k < hi + 1 - lo) && w.testBit (lo + k)) := by
  rw [bits, Nat.testBit_mod_two_pow, Nat.testBit_shiftRight]

end Sys2Proof.Machine
end

section
/-! PROOFS. HALT of a bloom, and the probe of the tile hash. -/
namespace Sys2Proof.Machine

theorem State.preemptAll_of_noFast (b n : Nat) (s : State) (h : (s.blm.get b).fast = []) : State.preemptAll b n s = s := by
  cases n with
  | zero => rfl
  | succ n => rw [State.preemptAll, h]; rfl

theorem State.tileHash_lt (s : State) (k : Nat) : (s.tileHash k).1 < 8 ∧ (s.tileHash k).2 < 32 := by
  refine ⟨?_, Nat.mod_lt _ (by decide)⟩
  have below := Nat.mod_lt ((k ^^^ s.rd .BLM_HASH_SEED_LO) * (s.rd .BLM_HASH_SEED_HI ||| 1)) (show 0 < 2 ^ 32 by decide)
  simp only [State.tileHash, Nat.shiftRight_eq_div_pow]
  omega

/-- Settles O23. -/
theorem haltAndHashFollowTheirRegisters : Obligations.HaltAndHashFollowTheirRegisters := by
  refine fun s => ⟨fun b refused => ?_, fun b h allowed => ?_, fun v => ?_⟩
  · have halts : doBloomHalt b true s = s.setFlag F.BLM_CTRL.HALT_REF true b := by
      rcases refused with scope | homes
      · exact if_pos ⟨rfl, .inl (by simp [scope])⟩
      · exact if_pos ⟨rfl, .inr homes⟩
    refine ⟨_, congrArg Host.Outcome.next halts, ?_, ?_, (SameRegs.refl _ s).andFlag (by repeat constructor) (by omega), by simp⟩ <;>
      simp (disch := decide) only [State.flag_setFlag_same, State.flag_setFlag_beside]
  · have acts : doBloomHalt b h s = if h then s.setFlag F.BLM_CTRL.HALT h b else (s.setFlag F.BLM_CTRL.HALT h b).preemptAll b 64 := by
      refine if_neg fun ⟨halt, blocked⟩ => ?_
      obtain ⟨scope, homes⟩ := allowed halt
      rcases blocked with locked | homed
      · exact locked scope
      · exact homed homes
    refine ⟨_, congrArg Host.Outcome.next acts, ?_, ?_, fun idle => State.preemptAll_of_noFast _ _ _ (by simpa using idle),
      (SameRegs.refl _ s).andFlag (by repeat constructor) (by omega), by simp⟩ <;>
      simp (disch := decide) only [State.flag_setFlag_same, State.flag_setFlag_beside]
  · intro k x
    obtain ⟨bloom, slot⟩ := s.tileHash_lt k
    refine ⟨((s.wr .BLM_HASH_PROBE k).setFld F.BLM_HASH_PROBE_OUT.BLOOM (s.tileHash k).1).setFld F.BLM_HASH_PROBE_OUT.SLOT (s.tileHash k).2,
      rfl, ?_, ?_, ?_, (((SameRegs.refl _ s).andWr (by repeat constructor) (by omega)).andFld (by repeat constructor) (by omega)).andFld
        (by repeat constructor) (by omega), by simp⟩
    · simp (disch := decide) only [State.rd_setFld_kind, State.rd_wr_same]
      exact Nat.mod_eq_of_lt (by omega)
    · simp (disch := decide) only [State.fld_setFld_beside, State.fld_setFld_same]
      exact (Nat.mod_eq_of_lt bloom).trans (Nat.shiftRight_eq_div_pow _ _)
    · simp (disch := decide) only [State.fld_setFld_same]
      exact (Nat.mod_eq_of_lt slot).trans (congrArg (· % 32) (Nat.shiftRight_eq_div_pow _ _))
end Sys2Proof.Machine
end

section
/-! PROOFS. The end of training of the frame store. -/
namespace Sys2Proof.Machine

/-- A stack in training with one cached context, of ring 0, which is not yet in the frame store. -/
def cachedInTraining : State :=
  State.setFlag { hqe := { rings := ({} : Tbl Ring).set 0 { base := 1 }, cache := [0] } } F.FST_STAT.TRAINING

theorem cachedInTraining_training : cachedInTraining.flag F.FST_STAT.TRAINING = true := State.flag_setFlag_same _ _ _ _ _ rfl (by decide)

theorem padTo_cons (n : Nat) (b : Byte) (r : List Byte) : ∃ rest, padTo (n + 1) (b :: r) = b :: rest := ⟨_, rfl⟩

theorem State.ctxBytes_head (s : State) (g : Nat) : ∃ rest, s.ctxBytes g = BitVec.ofNat 8 (s.ring g).base :: rest := ⟨_, rfl⟩

/-- A row put with a first byte that is not 0 is not blank. -/
theorem State.putRow_row (s : State) (k : Nat) (b : Byte) (r : List Byte) (h : b ≠ 0) : (s.putRow k (b :: r)).fst.rows.get k ≠ [] := by
  obtain ⟨rest, padded⟩ := padTo_cons 1023 b r
  simp only [State.putRow, State.modFst_fst, Tbl.get_set_same, padded, List.all_cons, beq_eq_false_iff_ne.mpr h, Bool.false_and]
  exact List.cons_ne_nil _ _

theorem State.storeCtx_row (s : State) (base : BitVec.ofNat 8 (s.ring 0).base ≠ 0) :
    (s.storeCtx 0).fst.rows.get (0x3FEE00000 / 1024 + 0 / 16) ≠ [] := by
  obtain ⟨rest, bytes⟩ := s.ctxBytes_head 0
  unfold State.storeCtx
  rw [bytes]
  exact s.putRow_row _ _ _ base

theorem State.showResources_fst (s : State) : s.showResources.fst = s.fst :=
  State.read_of_offRegs s.showResources_offRegs State.fst fun _ => rfl

theorem State.backContexts_ring (s : State) (g : Nat) : s.backContexts.ring g = s.ring g := by
  unfold State.backContexts State.when
  split <;> simp [State.ring]

theorem State.backContexts_cache (s : State) : s.backContexts.hqe.cache = s.hqe.cache := by
  unfold State.backContexts State.when
  split <;> simp

theorem doTrainingEnd_good (s : State) (h : s.flag F.FST_STAT.TRAINING = true) :
    doTrainingEnd true s = (((s.setFlag F.FST_STAT.TRAINING false).setFlag F.FST_STAT.READY).backContexts.storeContexts).showResources := by
  simp [doTrainingEnd, h]

/-- Refutes O25: good training stores the cached contexts in the frame store, so that more than registers change; here it writes the row of
ring 0's context. -/
theorem not_trainingAndTemperatureOfTheStack : ¬ Obligations.TrainingAndTemperatureOfTheStack := by
  intro h
  obtain ⟨⟨u, ran, _, _, _, kept⟩, _⟩ := (h cachedInTraining).1 cachedInTraining_training
  have fst : u.fst = cachedInTraining.fst := (congrArg State.fst kept :)
  let v := ((cachedInTraining.setFlag F.FST_STAT.TRAINING false).setFlag F.FST_STAT.READY).backContexts
  have cached : v.storeContexts = v.storeCtx 0 := by
    rw [State.storeContexts, State.backContexts_cache]
    rfl
  have base : BitVec.ofNat 8 (v.ring 0).base ≠ 0 := by
    rw [State.backContexts_ring]
    decide
  have ends : u.showResources = (v.storeCtx 0).showResources := by
    rw [← cached]
    exact (Host.Outcome.next.inj ran).symm.trans (doTrainingEnd_good _ cachedInTraining_training)
  have rows : (v.storeCtx 0).fst = ({} : Fst) :=
    calc (v.storeCtx 0).fst = u.fst := by simpa only [State.showResources_fst] using (congrArg State.fst ends).symm
      _ = cachedInTraining.fst := fst
      _ = {} := rfl
  exact v.storeCtx_row base (by rw [rows]; rfl)
end Sys2Proof.Machine
end

section
/-! PROOFS. The reads that latch a second word, and the performance counters' control. -/
namespace Sys2Proof.Machine

theorem findReg_pmuCtrLo (i : Fin 8) : findReg (BitVec.ofNat 26 (RegKind.off .PMU_CTR_LO i 0)).toNat = some ⟨.PMU_CTR_LO, i, 0⟩ := by
  revert i
  decide +kernel

theorem findReg_pmuCycLo : findReg (BitVec.ofNat 26 (RegKind.off .PMU_CYC_LO 0 0)).toNat = some ⟨.PMU_CYC_LO, 0, 0⟩ := by decide +kernel

/-- A read of a register's low word leaves what the register's read does. -/
theorem doLoRegisterRead_of_findReg (s : State) (off : Nat) (r : RegId) (h : findReg off = some r) :
    doLoRegisterRead off s = s.readActs r.kind r.i r.j := by
  simp only [doLoRegisterRead, State.readWord, h]

theorem State.pmuAdd_frozen (s : State) (ev inst n : Nat) (h : s.flag F.PMU_CTRL.FREEZE = true) : s.pmuAdd ev inst n = s := if_pos h

/-- The copy of counter `i` to its snapshot registers. -/
def State.snapCounter (i : Nat) (s : State) : State :=
  (s.wr .PMU_SNAP_LO (s.fld F.PMU_CTR_LO.COUNT i) i).wr .PMU_SNAP_HI (s.fld F.PMU_CTR_HI.COUNT i) i

theorem State.snapCounter_rd (i : Nat) (s : State) (k : RegKind) (i' j : Nat) (lo : k ≠ .PMU_SNAP_LO) (hi : k ≠ .PMU_SNAP_HI) :
    (s.snapCounter i).rd k i' j = s.rd k i' j := by
  rw [State.snapCounter, State.rd_wr_kind _ _ _ _ _ _ _ _ hi, State.rd_wr_kind _ _ _ _ _ _ _ _ lo]

theorem State.snapCounter_lo (i : Nat) (s : State) : (s.snapCounter i).fld F.PMU_SNAP_LO.COUNT i = s.fld F.PMU_CTR_LO.COUNT i := by
  have small : s.fld F.PMU_CTR_LO.COUNT i < 2 ^ 32 := bits_lt _ 31 0
  rw [State.snapCounter, State.fld_wr_kind _ _ _ _ _ _ _ _ (by decide)]
  refine (congrArg (bits · 31 0) (State.rd_wr_same _ _ _ _ _)).trans ?_
  simp only [bits, Nat.shiftRight_zero]
  omega

theorem State.snapCounter_hi (i : Nat) (s : State) : (s.snapCounter i).fld F.PMU_SNAP_HI.COUNT i = s.fld F.PMU_CTR_HI.COUNT i := by
  have small : s.fld F.PMU_CTR_HI.COUNT i < 2 ^ 16 := bits_lt _ 15 0
  refine (congrArg (bits · 15 0) (State.rd_wr_same _ _ _ _ _)).trans ?_
  simp only [bits, Nat.shiftRight_zero]
  omega

theorem State.snapCounter_other (i a : Nat) (s : State) (h : i ≠ a) (hi : i < 8) (ha : a < 8) :
    (s.snapCounter a).fld F.PMU_SNAP_LO.COUNT i = s.fld F.PMU_SNAP_LO.COUNT i
      ∧ (s.snapCounter a).fld F.PMU_SNAP_HI.COUNT i = s.fld F.PMU_SNAP_HI.COUNT i := by
  have key (k k' : RegKind) : k'.key i 0 ≠ k.key a 0 := RegKind.key_ne_index h (by omega) (by omega) _ _
  simp only [State.fld, State.snapCounter, State.rd_wr_other _ _ _ _ _ _ _ _ (key _ _), and_self]

/-- The snapshot of counter `i` agrees with the counter. -/
def State.Snapped (i : Nat) (s : State) : Prop :=
  s.fld F.PMU_SNAP_LO.COUNT i = s.fld F.PMU_CTR_LO.COUNT i ∧ s.fld F.PMU_SNAP_HI.COUNT i = s.fld F.PMU_CTR_HI.COUNT i

theorem State.snapCounter_ctrLo (i a : Nat) (s : State) : (s.snapCounter a).fld F.PMU_CTR_LO.COUNT i = s.fld F.PMU_CTR_LO.COUNT i :=
  congrArg (bits · 31 0) (s.snapCounter_rd a .PMU_CTR_LO i 0 (by decide) (by decide))

theorem State.snapCounter_ctrHi (i a : Nat) (s : State) : (s.snapCounter a).fld F.PMU_CTR_HI.COUNT i = s.fld F.PMU_CTR_HI.COUNT i :=
  congrArg (bits · 15 0) (s.snapCounter_rd a .PMU_CTR_HI i 0 (by decide) (by decide))

theorem State.snapCounter_snapped (i : Nat) (s : State) : (s.snapCounter i).Snapped i :=
  ⟨(s.snapCounter_lo i).trans (s.snapCounter_ctrLo i i).symm, (s.snapCounter_hi i).trans (s.snapCounter_ctrHi i i).symm⟩

/-- After the copies each snapshot register of the eight counters reads as its counter. -/
theorem State.snapCounters_snapped (s : State) (i : Nat) (hi : i < 8) : (s.each (List.range 8) State.snapCounter).Snapped i := by
  refine State.each_reaches _ i _ _ _ (List.mem_range.mpr hi) (·.snapCounter_snapped i) fun a ha t snapped => ?_
  by_cases same : i = a
  · exact same ▸ t.snapCounter_snapped i
  · obtain ⟨lo, hi⟩ := t.snapCounter_other i a same hi (List.mem_range.mp ha)
    exact ⟨lo.trans (snapped.1.trans (t.snapCounter_ctrLo i a).symm), hi.trans (snapped.2.trans (t.snapCounter_ctrHi i a).symm)⟩

theorem State.snapCounters_rd (s : State) (k : RegKind) (i j : Nat) (lo : k ≠ .PMU_SNAP_LO) (hi : k ≠ .PMU_SNAP_HI) :
    (s.each (List.range 8) State.snapCounter).rd k i j = s.rd k i j :=
  State.each_rd _ _ _ _ _ _ fun a t => t.snapCounter_rd a k i j lo hi

/-- The copies that a snapshot makes: the cycle and the eight counters. -/
def State.snapCopied (s : State) : State :=
  ((s.wr .PMU_SNAP_CYC_LO (s.pmu.cyc % 2 ^ 32)).wr .PMU_SNAP_CYC_HI (s.pmu.cyc / 2 ^ 32)).each (List.range 8) State.snapCounter

theorem State.snapCopied_offRegs (s : State) : s.snapCopied.offRegs = s.offRegs :=
  State.each_offRegs _ _ _ fun _ _ => rfl

theorem State.snapCopied_rd (s : State) (k : RegKind) (i j : Nat)
    (h : k ∉ [RegKind.PMU_SNAP_LO, .PMU_SNAP_HI, .PMU_SNAP_CYC_LO, .PMU_SNAP_CYC_HI]) : s.snapCopied.rd k i j = s.rd k i j := by
  simp only [List.mem_cons, List.not_mem_nil, or_false, not_or] at h
  obtain ⟨lo, hi, cycLo, cycHi⟩ := h
  rw [State.snapCopied, State.snapCounters_rd _ _ _ _ lo hi, State.rd_wr_kind _ _ _ _ _ _ _ _ cycHi, State.rd_wr_kind _ _ _ _ _ _ _ _ cycLo]

theorem State.snapCopied_fld (s : State) (f : Fld) (i j : Nat)
    (h : f.reg ∉ [RegKind.PMU_SNAP_LO, .PMU_SNAP_HI, .PMU_SNAP_CYC_LO, .PMU_SNAP_CYC_HI]) : s.snapCopied.fld f i j = s.fld f i j :=
  congrArg (bits · f.hi f.lo) (s.snapCopied_rd f.reg i j h)

theorem State.snapCopied_snapped (s : State) (i : Nat) (hi : i < 8) : s.snapCopied.fld F.PMU_SNAP_LO.COUNT i = s.fld F.PMU_CTR_LO.COUNT i
    ∧ s.snapCopied.fld F.PMU_SNAP_HI.COUNT i = s.fld F.PMU_CTR_HI.COUNT i := by
  have snapped : s.snapCopied.Snapped i := State.snapCounters_snapped _ i hi
  rwa [State.Snapped, s.snapCopied_fld F.PMU_CTR_LO.COUNT _ _ (by decide), s.snapCopied_fld F.PMU_CTR_HI.COUNT _ _ (by decide)] at snapped

/-- What a snapshot writes, before its event. -/
def State.snapshotTaken (s : State) : State := s.snapCopied.setFld F.PMU_SNAP_SEQ.SEQ ((s.fld F.PMU_SNAP_SEQ.SEQ + 1) % 2 ^ 32)

theorem State.takeSnapshot_eq (s : State) : s.takeSnapshot = if s.flag F.PMU_CTRL.SNAP_EVT then
    s.snapshotTaken.event 0 0xA3 0 ((s.fld F.PMU_SNAP_SEQ.SEQ + 1) % 2 ^ 32) 0 0 else s.snapshotTaken := by
  have seq : s.snapCopied.fld F.PMU_SNAP_SEQ.SEQ = s.fld F.PMU_SNAP_SEQ.SEQ := s.snapCopied_fld _ _ _ (by decide)
  have asked : s.snapshotTaken.flag F.PMU_CTRL.SNAP_EVT = s.flag F.PMU_CTRL.SNAP_EVT :=
    (State.flag_setFld_kind _ _ _ _ _ _ _ _ (by decide)).trans (congrArg (· == 1) (s.snapCopied_fld _ _ _ (by decide)))
  rw [← asked, State.snapshotTaken, ← seq]
  rfl

theorem State.snapshotTaken_fld (s : State) (f : Fld) (i j : Nat) (h : f.reg ≠ .PMU_SNAP_SEQ) :
    s.snapshotTaken.fld f i j = s.snapCopied.fld f i j := State.fld_setFld_kind _ _ _ _ _ _ _ _ h

theorem State.snapCopied_sameRegs (s : State) : SameRegs ([⟨.PMU_SNAP_CYC_LO, 0, 0⟩, ⟨.PMU_SNAP_CYC_HI, 0, 0⟩, ⟨.PMU_SNAP_SEQ, 0, 0⟩]
    ++ (List.range 8).flatMap (fun i => [⟨.PMU_SNAP_LO, i, 0⟩, ⟨.PMU_SNAP_HI, i, 0⟩])) s s.snapCopied := by
  refine (((SameRegs.refl _ s).andWr (by repeat constructor) (by omega)).andWr (by repeat constructor) (by omega)).each fun a ha u kept => ?_
  have small := List.mem_range.mp ha
  refine (kept.andWr ?_ (by omega)).andWr ?_ (by omega)
  · exact List.mem_append_right _ (List.mem_flatMap.mpr ⟨a, ha, .head _⟩)
  · exact List.mem_append_right _ (List.mem_flatMap.mpr ⟨a, ha, .tail _ (.head _)⟩)

theorem State.snapshotTaken_sameRegs (s : State) : SameRegs ([⟨.PMU_SNAP_CYC_LO, 0, 0⟩, ⟨.PMU_SNAP_CYC_HI, 0, 0⟩, ⟨.PMU_SNAP_SEQ, 0, 0⟩]
    ++ (List.range 8).flatMap (fun i => [⟨.PMU_SNAP_LO, i, 0⟩, ⟨.PMU_SNAP_HI, i, 0⟩])) s s.snapshotTaken :=
  s.snapCopied_sameRegs.andFld (List.mem_append_left _ (.tail _ (.tail _ (.head _)))) (by omega)

theorem State.snapshotTaken_back (s : State) : { s.snapshotTaken with regs := s.regs } = s :=
  State.regs_back ((State.setFld_offRegs _ _ _ _ _).trans s.snapCopied_offRegs)

theorem State.rd_snapshotTaken_kind (s : State) (k : RegKind) (i j : Nat) (h : k ≠ .PMU_SNAP_SEQ) :
    s.snapshotTaken.rd k i j = s.snapCopied.rd k i j := State.rd_setFld_kind _ _ _ _ _ _ _ _ h

theorem State.snapCopied_cycle (s : State) : s.snapCopied.rd .PMU_SNAP_CYC_LO = s.pmu.cyc % 2 ^ 32
    ∧ s.snapCopied.rd .PMU_SNAP_CYC_HI = s.pmu.cyc / 2 ^ 32 % 2 ^ 32 := by
  unfold State.snapCopied
  constructor
  · rw [State.snapCounters_rd _ _ _ _ (by decide) (by decide), State.rd_wr_kind _ _ _ _ _ _ _ _ (by decide), State.rd_wr_same, Nat.mod_mod]
  · rw [State.snapCounters_rd _ _ _ _ (by decide) (by decide), State.rd_wr_same]

/-- A counter that has wrapped, before its event: the wrap is taken, its bit set, and the counters frozen if its configuration says so. -/
def State.overflowed (i : Nat) (s : State) : State :=
  ((s.modPmu (fun p => { p with ovf := p.ovf.filter (· != i) })).wr .PMU_OVF (s.rd .PMU_OVF ||| 1 <<< i)).when (s.flag F.PMU_CFG.OVF_FRZ i)
    (doPmuFreeze true)

theorem State.overflowed_flag_kind (s : State) (i : Nat) (f : Fld) (i' j : Nat) (ovf : f.reg ≠ .PMU_OVF) (ctrl : f.reg ≠ .PMU_CTRL) :
    (s.overflowed i).flag f i' j = s.flag f i' j := by
  have wrote (t : State) (v : Nat) : (t.wr .PMU_OVF v).flag f i' j = t.flag f i' j :=
    congrArg (· == 1) (State.fld_wr_kind _ _ _ _ _ _ _ _ ovf)
  unfold State.overflowed State.when
  split
  · exact (State.flag_setFlag_kind _ _ _ _ _ _ _ _ ctrl).trans (wrote _ _)
  · exact wrote _ _

theorem doCounterOverflow_of_mem (s : State) (i : Nat) (h : i ∈ s.pmu.ovf) : doCounterOverflow i s = if s.flag F.PMU_CFG.OVF_EVT i then
    (s.overflowed i).event 0 0xA4 ((s.overflowed i).fld F.PMU_OVF.OVF) 0 0 0 else s.overflowed i := by
  have listed : s.pmu.ovf.any (· == i) = true := List.any_eq_true.mpr ⟨i, h, beq_self_eq_true i⟩
  have frozen : ((s.modPmu (fun p => { p with ovf := p.ovf.filter (· != i) })).wr .PMU_OVF (s.rd .PMU_OVF ||| 1 <<< i)).flag F.PMU_CFG.OVF_FRZ i
      = s.flag F.PMU_CFG.OVF_FRZ i := congrArg (· == 1) (State.fld_wr_kind _ _ _ _ _ _ _ _ (by decide))
  rw [← s.overflowed_flag_kind i F.PMU_CFG.OVF_EVT i 0 (by decide) (by decide), State.overflowed, ← frozen]
  exact if_pos listed

theorem doCounterOverflow_of_not_mem (s : State) (i : Nat) (h : i ∉ s.pmu.ovf) : doCounterOverflow i s = s := by
  refine if_neg fun listed => h ?_
  obtain ⟨k, hk, same⟩ := List.any_eq_true.mp listed
  exact beq_iff_eq.mp same ▸ hk

theorem State.overflowed_ovf (s : State) (i k : Nat) (hk : k < 8) :
    bit ((s.overflowed i).fld F.PMU_OVF.OVF) k = (bit (s.fld F.PMU_OVF.OVF) k || decide (k = i)) := by
  have word : (s.overflowed i).rd .PMU_OVF = (s.rd .PMU_OVF ||| 1 <<< i) % 2 ^ 32 := by
    unfold State.overflowed State.when
    split
    · exact (State.rd_setFlag_kind _ _ _ _ _ _ _ _ (by decide)).trans (State.rd_wr_same _ _ _ _ _)
    · exact State.rd_wr_same _ _ _ _ _
  have shown : (s.overflowed i).fld F.PMU_OVF.OVF = bits ((s.rd .PMU_OVF ||| 1 <<< i) % 2 ^ 32) 7 0 := congrArg (bits · 7 0) word
  rw [shown, State.fld, bit_eq_testBit, bit_eq_testBit, testBit_bits, testBit_bits, Nat.testBit_mod_two_pow, Nat.testBit_or, Nat.one_shiftLeft,
    Nat.testBit_two_pow]
  have first : k < 7 + 1 - 0 := hk
  have second : k < 32 := by omega
  simp only [first, second, F.PMU_OVF.OVF, decide_true, Bool.true_and, Nat.zero_add, eq_comm]

theorem State.overflowed_pmu (s : State) (i : Nat) : (s.overflowed i).pmu.ovf = s.pmu.ovf.filter (· != i) := by
  unfold State.overflowed State.when
  split <;> simp [doPmuFreeze]

theorem State.overflowed_sameRegs (s : State) (i : Nat) :
    SameRegs [⟨.PMU_OVF, 0, 0⟩, ⟨.PMU_CTRL, 0, 0⟩] s (s.overflowed i) := by
  have wrote : SameRegs [⟨.PMU_OVF, 0, 0⟩, ⟨.PMU_CTRL, 0, 0⟩] s
      ((s.modPmu (fun p => { p with ovf := p.ovf.filter (· != i) })).wr .PMU_OVF (s.rd .PMU_OVF ||| 1 <<< i)) :=
    ((SameRegs.refl _ s).of_regs rfl).andWr (by repeat constructor) (by omega)
  exact wrote.when (wrote.andFlag (by repeat constructor) (by omega))

theorem State.overflowed_back (s : State) (i : Nat) : { s.overflowed i with regs := s.regs, pmu := s.pmu } = s := by
  unfold State.overflowed State.when
  split <;> simp [doPmuFreeze]

/-- Settles O56. -/
theorem latchingReadsAndCounterControl : Obligations.LatchingReadsAndCounterControl := by
  refine fun s => ⟨fun n => ?pos, ?tod, fun i => ?ctr, ?cyc, ?freeze, ?unfreeze, ?snap, fun i => ⟨fun h => ?none, fun h => ?wrap⟩⟩
  case pos => exact ⟨_, rfl, congrArg Raster.latch (Tbl.get_upd_same _ _ _), rfl, rfl⟩
  case tod => exact ⟨_, rfl, rfl, rfl, rfl⟩
  case ctr =>
    refine ⟨_, congrArg Host.Outcome.next (doLoRegisterRead_of_findReg s _ _ (findReg_pmuCtrLo i)), ?_, rfl⟩
    exact Tbl.get_set_same _ _ _
  case cyc =>
    refine ⟨_, congrArg Host.Outcome.next (doLoRegisterRead_of_findReg s _ _ findReg_pmuCycLo), ?_, rfl⟩
    exact Tbl.get_set_same _ _ _
  case freeze =>
    have frozen : (s.setFlag F.PMU_CTRL.FREEZE).flag F.PMU_CTRL.FREEZE = true := State.flag_setFlag_same _ _ _ _ _ rfl (by decide)
    exact ⟨s.setFlag F.PMU_CTRL.FREEZE, rfl, frozen, (SameRegs.refl _ s).andFlag (by repeat constructor) (by omega),
      State.regs_back (State.setFlag_offRegs _ _ _ _ _), fun _ _ _ => State.pmuAdd_frozen _ _ _ _ frozen⟩
  case unfreeze =>
    exact ⟨s.setFlag F.PMU_CTRL.FREEZE false, rfl, State.flag_setFlag_same _ _ _ _ _ rfl (by decide),
      (SameRegs.refl _ s).andFlag (by repeat constructor) (by omega),
      State.regs_back (State.setFlag_offRegs _ _ _ _ _)⟩
  case snap =>
    intro k n
    obtain ⟨low, high⟩ := s.snapCopied_cycle
    refine ⟨s.snapshotTaken, congrArg Host.Outcome.next s.takeSnapshot_eq, ?_, ?_, ?_, fun i hi => ?_, s.snapshotTaken_sameRegs,
      s.snapshotTaken_back⟩
    · exact (s.rd_snapshotTaken_kind _ _ _ (by decide)).trans low
    · exact (s.rd_snapshotTaken_kind _ _ _ (by decide)).trans high
    · exact (State.fld_setFld_same _ _ _ _ _ (by decide) (by decide)).trans (Nat.mod_mod _ _)
    · rw [s.snapshotTaken_fld _ _ _ (by decide), s.snapshotTaken_fld _ _ _ (by decide)]
      exact s.snapCopied_snapped i hi
  case none => exact congrArg Host.Outcome.next (doCounterOverflow_of_not_mem s i h)
  case wrap =>
    refine ⟨s.overflowed i, congrArg Host.Outcome.next (doCounterOverflow_of_mem s i h), ?_, fun k hk other => ?_, fun frz => ?_, fun frz => ?_,
      s.overflowed_pmu i, s.overflowed_sameRegs i, s.overflowed_back i⟩
    · rw [s.overflowed_ovf i i i.isLt, decide_eq_true rfl, Bool.or_true]
    · rw [s.overflowed_ovf i k hk, decide_eq_false other, Bool.or_false]
    · rw [State.overflowed, frz]
      exact State.flag_setFlag_same _ _ _ _ _ rfl (by decide)
    · rw [State.overflowed, frz]
      exact congrArg (· == 1) (State.fld_wr_kind _ _ _ _ _ _ _ _ (by decide))
end Sys2Proof.Machine
end

section
/-! PROOFS. The time base: measurements, holdover and the load of the time of day. -/
namespace Sys2Proof.Machine

/-- What the discipline loop shows of its lock after a measurement that steers. -/
def State.shownLock (s : State) : State :=
  if s.time.lockCnt = 8 then s.setFlag F.RAS_DISC_STAT.LOCKED
  else if s.time.badCnt = 4 then s.setFlag F.RAS_DISC_STAT.LOCKED false else s

theorem State.shownLock_cases (s : State) : s.shownLock = s ∨ ∃ b, s.shownLock = s.setFlag F.RAS_DISC_STAT.LOCKED b := by
  unfold State.shownLock
  split
  · exact .inr ⟨true, rfl⟩
  · split
    · exact .inr ⟨false, rfl⟩
    · exact .inl rfl

/-- The time base after a measurement that steers. -/
def Time.steered (f : Int) (good : Prop) [Decidable good] (ki kp : Nat) (t : Time) : Time :=
  let g := clampI (-trimMax) trimMax (t.integ + f / (2 ^ ki : Nat))
  { t with
    integ := g, trim := clampI (-trimMax) trimMax (f / (2 ^ kp : Nat) + g)
    lockCnt := if good then min 8 (t.lockCnt + 1) else 0
    badCnt := if good then 0 else min 4 (t.badCnt + 1) }

theorem State.shownLock_bad (s : State) (free : s.time.lockCnt ≠ 8) (bad : s.time.badCnt = 4) :
    s.shownLock = s.setFlag F.RAS_DISC_STAT.LOCKED false := (if_neg free).trans (if_pos bad)

theorem State.shownLock_time (s : State) : s.shownLock.time = s.time := by
  rcases s.shownLock_cases with e | ⟨b, e⟩ <;> rw [e]
  exact State.setFlag_time _ _ _ _ _

theorem State.shownLock_holdover (s : State) : s.shownLock.flag F.RAS_DISC_STAT.HOLDOVER = s.flag F.RAS_DISC_STAT.HOLDOVER := by
  rcases s.shownLock_cases with e | ⟨b, e⟩ <;> rw [e]
  exact State.flag_setFlag_beside _ _ _ _ _ _ rfl (by decide) (by decide) (by decide)

theorem State.shownLock_sameRegs {s t : State} (h : SameRegs [⟨.RAS_DISC_STAT, 0, 0⟩] s t) :
    SameRegs [⟨.RAS_DISC_STAT, 0, 0⟩] s t.shownLock := by
  rcases t.shownLock_cases with e | ⟨b, e⟩ <;> rw [e]
  · exact h
  · exact h.andFlag (by repeat constructor) (by omega)

theorem Time.steered_lockCnt_of_badCnt (f : Int) (good : Prop) [Decidable good] (ki kp : Nat) (t : Time)
    (full : (t.steered f good ki kp).badCnt = 4) : (t.steered f good ki kp).lockCnt ≠ 8 := by
  unfold Time.steered at full ⊢
  dsimp only at full ⊢
  split at full
  · omega
  · rename_i bad
    rw [if_neg bad]
    decide

theorem State.showTrim_time (s : State) : s.showTrim.time = s.time := State.setFld_time _ _ _ _ _

theorem State.measure_step (s : State) (e : Int) (tm : Nat) (h : s.fld F.RAS_DISC_PARAM.STEP_US * 1000 < e.natAbs) :
    s.measure e tm = ((((s.setFlag F.RAS_DISC_STAT.HOLDOVER false).modTime
      (fun t => { t with tod := (((t.tod : Int) + e) % (2 ^ 64 : Nat)).toNat, lockCnt := 0, badCnt := 0 })).setFlag
        F.RAS_DISC_STAT.STEPPED).setFlag F.RAS_DISC_STAT.LOCKED false).showTrim := by
  have beyond : (s.setFlag F.RAS_DISC_STAT.HOLDOVER false).fld F.RAS_DISC_PARAM.STEP_US * 1000 < e.natAbs := by
    rwa [State.fld_setFlag_kind _ _ _ _ _ _ _ _ (by decide)]
  exact congrArg State.showTrim (if_pos beyond)

theorem State.measure_steer (s : State) (e : Int) (tm : Nat) (h : e.natAbs ≤ s.fld F.RAS_DISC_PARAM.STEP_US * 1000) :
    s.measure e tm = ((s.setFlag F.RAS_DISC_STAT.HOLDOVER false).modTime (Time.steered (roundDiv (e * (2 ^ 64 : Nat)) tm)
      (e.natAbs ≤ s.fld F.RAS_DISC_PARAM.LOCK_NS) (s.fld F.RAS_DISC_CTRL.KI_SHIFT) (s.fld F.RAS_DISC_CTRL.KP_SHIFT))).shownLock.showTrim := by
  have within : ¬ (s.setFlag F.RAS_DISC_STAT.HOLDOVER false).fld F.RAS_DISC_PARAM.STEP_US * 1000 < e.natAbs := by
    rw [State.fld_setFlag_kind _ _ _ _ _ _ _ _ (by decide)]
    omega
  have param (f : Fld) (hf : f.reg ≠ .RAS_DISC_STAT) : (s.setFlag F.RAS_DISC_STAT.HOLDOVER false).fld f = s.fld f :=
    State.fld_setFlag_kind _ _ _ _ _ _ _ _ hf
  rw [← param F.RAS_DISC_PARAM.LOCK_NS (by decide), ← param F.RAS_DISC_CTRL.KI_SHIFT (by decide), ← param F.RAS_DISC_CTRL.KP_SHIFT (by decide)]
  exact congrArg State.showTrim (if_neg within)

theorem State.showTrim_flag (s : State) (f : Fld) (hr : f.reg = .RAS_DISC_STAT) (h : 23 < f.lo) : s.showTrim.flag f = s.flag f :=
  State.flag_setFld_beside _ _ _ _ _ _ hr (by decide) (by decide) (.inl h)

theorem State.tsyncEdge_eq (s : State) (h : s.fld F.RAS_DISC_CTRL.SRC = 1) :
    s.tsyncEdge = s.measure (nearestErr s.time.tod (s.fld F.RAS_TSYNC_PERIOD.PERIOD_NS)) (s.fld F.RAS_TSYNC_PERIOD.PERIOD_NS) := if_pos h

theorem State.modTime_flag (s : State) (g : Time → Time) (f : Fld) (i j : Nat) : (s.modTime g).flag f i j = s.flag f i j := (rfl)

/-- Settles O14. -/
theorem theTimeBaseFollowsItsSource : Obligations.TheTimeBaseFollowsItsSource := by
  refine fun s => ⟨fun src => ?edge, fun src on => ?holdover, fun hi => ?load⟩
  case edge =>
    intro p e
    refine ⟨fun far => ?_, fun near => ?_⟩
    · refine ⟨_, congrArg Host.Outcome.next ((s.tsyncEdge_eq src).trans (s.measure_step e p far)), ?_, ?_, ?_, ?_, ?_, ?_, ?_⟩
      · simp only [State.showTrim, State.setFld_time, State.setFlag_time, State.modTime_time]
      · simp only [State.showTrim, State.setFld_time, State.setFlag_time, State.modTime_time]
      · simp (disch := decide) only [State.showTrim_flag, State.flag_setFlag_beside, State.flag_setFlag_same]
      · simp (disch := decide) only [State.showTrim_flag, State.flag_setFlag_same]
      · simp (disch := decide) only [State.showTrim_flag, State.flag_setFlag_beside, State.modTime_flag, State.flag_setFlag_same]
      · exact (((((SameRegs.refl _ s).andFlag (by repeat constructor) (by omega)).of_regs (State.modTime_regs _ _)).andFlag (by repeat constructor)
          (by omega)).andFlag (by repeat constructor) (by omega)).andFld (by repeat constructor) (by omega)
      · simp [State.showTrim]
    · refine ⟨_, congrArg Host.Outcome.next ((s.tsyncEdge_eq src).trans (s.measure_steer e p near)), ?_⟩
      rw [State.showTrim_time, State.shownLock_time]
      refine ⟨rfl, rfl, rfl, ?_, fun full => ?_, fun full => ?_, ?_, ?_⟩
      · rw [State.showTrim_flag _ _ rfl (by decide), State.shownLock_holdover, State.modTime_flag]
        exact State.flag_setFlag_same _ _ _ _ _ rfl (by decide)
      · rw [State.showTrim_flag _ _ rfl (by decide), State.shownLock, if_pos full]
        exact State.flag_setFlag_same _ _ _ _ _ rfl (by decide)
      · rw [State.showTrim_flag _ _ rfl (by decide), State.shownLock_bad _ (Time.steered_lockCnt_of_badCnt _ _ _ _ _ full) full]
        exact State.flag_setFlag_same _ _ _ _ _ rfl (by decide)
      · exact (State.shownLock_sameRegs (((SameRegs.refl _ s).andFlag (by repeat constructor) (by omega)).of_regs (State.modTime_regs _ _))).andFld
          (by repeat constructor) (by omega)
      · rcases State.shownLock_cases _ with e | ⟨b, e⟩ <;> rw [e] <;> simp [State.showTrim]
  case holdover =>
    have runs : ¬ (s.fld F.RAS_DISC_CTRL.SRC = 0 ∨ s.flag F.RAS_DISC_STAT.HOLDOVER = true) := by simp [src, on]
    refine ⟨_, congrArg Host.Outcome.next (if_neg runs), ?_, ?_, ?_, ?_, ?_⟩
    · simp (disch := decide) only [State.showTrim_flag, State.modTime_flag, State.flag_setFlag_beside, State.flag_setFlag_same]
    · simp (disch := decide) only [State.showTrim_flag, State.modTime_flag, State.flag_setFlag_same]
    · simp [State.showTrim]
    · exact ((((SameRegs.refl _ s).andFlag (by repeat constructor) (by omega)).andFlag (by repeat constructor) (by omega)).of_regs
        (State.modTime_regs _ _)).andFld (by repeat constructor) (by omega)
    · simp [State.showTrim]
  case load =>
    refine ⟨s.loadTod hi.toNat, rfl, ?_, State.flag_setFlag_same _ _ _ _ _ rfl (by decide),
      ((SameRegs.refl _ s).of_regs (State.modTime_regs _ _)).andFlag (by repeat constructor) (by omega), ?_⟩ <;>
      simp [State.loadTod]
end Sys2Proof.Machine
end

section
/-! PROOFS. A follower's sync words. -/
namespace Sys2Proof.Machine

/-- What a good frame word shows: lock, the last frame and a fresh count of missed words. -/
def State.tookFrameWord (f : Nat) (s : State) : State :=
  ((s.setFlag F.CFG_SYNC_STAT.LOCKED).setFld F.CFG_SYNC_STAT.LAST_FRAME f).modCfg (fun c => { c with syncGood := true, syncMiss := 0 })

theorem State.tookFrameWord_fld (f : Nat) (s : State) (g : Fld) (i j : Nat) (h : g.reg ≠ .CFG_SYNC_STAT) :
    (s.tookFrameWord f).fld g i j = s.fld g i j :=
  (State.fld_of_regs (State.modCfg_regs _ _) g i j).trans
    ((State.fld_setFld_kind _ _ _ _ _ _ _ _ h).trans (State.fld_setFlag_kind _ _ _ _ _ _ _ _ h))

theorem State.tookFrameWord_locked (f : Nat) (s : State) : (s.tookFrameWord f).flag F.CFG_SYNC_STAT.LOCKED = true :=
  (State.flag_of_regs (State.modCfg_regs _ _) _ _ _).trans
    ((State.flag_setFld_beside _ F.CFG_SYNC_STAT.LAST_FRAME F.CFG_SYNC_STAT.LOCKED _ _ _ rfl (by decide) (by decide) (by decide)).trans
      (State.flag_setFlag_same _ _ _ _ _ rfl (by decide)))

theorem State.tookFrameWord_ras (f : Nat) (s : State) : (s.tookFrameWord f).ras = s.ras := by simp [State.tookFrameWord]

theorem State.tookFrameWord_time (f : Nat) (s : State) : (s.tookFrameWord f).time = s.time := by simp [State.tookFrameWord]

theorem State.tookFrameWord_cfg (f : Nat) (s : State) : (s.tookFrameWord f).cfg = { s.cfg with syncGood := true, syncMiss := 0 } := by
  simp [State.tookFrameWord]

theorem State.tookFrameWord_sameRegs (f : Nat) (s : State) : SameRegs [⟨.CFG_SYNC_STAT, 0, 0⟩] s (s.tookFrameWord f) :=
  (((SameRegs.refl _ s).andFlag (by repeat constructor) (by omega)).andFld (by repeat constructor) (by omega)).of_regs (State.modCfg_regs _ _)

theorem State.tookFrameWord_master (f : Nat) (s : State) : (s.tookFrameWord f).master = s.master := s.tookFrameWord_fld f _ _ _ (by decide)

theorem State.tookFrameWord_peff (f n : Nat) (s : State) : (s.tookFrameWord f).peff n = s.peff n := by
  simp (disch := decide) only [State.peff, State.follows, State.period, State.flag, State.tookFrameWord_master, State.tookFrameWord_fld,
    State.tookFrameWord_ras, State.tookFrameWord_time]
  rfl

theorem doSyncWordRx_badCheck (s : State) (w : Nat) (en : s.flag F.CFG_SYNC_CTRL.EN = true) (role : 2 ≤ s.fld F.CFG_SYNC_CTRL.ROLE)
    (bad : w % 256 ≠ syncCrc w) :
    doSyncWordRx w s = (s.when (s.fld F.CFG_SYNC_CTRL.ROLE == 3) (·.emit (.syncWord w))).setFlag F.CFG_SYNC_STAT.CRC_ERR := by
  have takes : ¬ (¬ s.flag F.CFG_SYNC_CTRL.EN = true ∨ s.fld F.CFG_SYNC_CTRL.ROLE < 2) := by
    simp only [en, not_true_eq_false, false_or]
    omega
  exact (if_neg takes).trans (if_pos bad)

theorem doSyncWordRx_frame (s : State) (w : Nat) (en : s.flag F.CFG_SYNC_CTRL.EN = true) (role : s.fld F.CFG_SYNC_CTRL.ROLE = 2)
    (good : w % 256 = syncCrc w) (kind : bits w 47 44 = 1) :
    doSyncWordRx w s =
      if (s.ras.get s.master).running then (s.tookFrameWord (bits w 43 12)).placeBoundary s.master (bits w 43 12)
        ((48 * 48 - s.sfld F.CFG_SYNC_OFFSET.OFFSET : Int) * (2 ^ 32 : Nat))
      else s.tookFrameWord (bits w 43 12) := by
  have takes : ¬ (¬ s.flag F.CFG_SYNC_CTRL.EN = true ∨ s.fld F.CFG_SYNC_CTRL.ROLE < 2) := by simp [en, role]
  have offset : (s.tookFrameWord (bits w 43 12)).sfld F.CFG_SYNC_OFFSET.OFFSET = s.sfld F.CFG_SYNC_OFFSET.OFFSET :=
    congrArg (signed _) (s.tookFrameWord_fld _ _ _ _ (by decide))
  have relay : s.when (s.fld F.CFG_SYNC_CTRL.ROLE == 3) (·.emit (.syncWord w)) = s := by simp [role, State.when]
  rw [← offset, ← s.tookFrameWord_ras (bits w 43 12), ← s.tookFrameWord_master (bits w 43 12)]
  unfold doSyncWordRx
  rw [if_neg takes, relay]
  exact (if_neg (not_not_intro good)).trans (if_neg (not_not_intro kind))

theorem State.peff_modRas (s : State) (n : Nat) (g : Raster → Raster) (m : Nat) (h : ∀ r, (g r).slew = r.slew) :
    (s.modRas n g).peff m = s.peff m := by
  have slew : ((s.modRas n g).ras.get m).slew = (s.ras.get m).slew := by
    by_cases same : m = n
    · rw [same, State.modRas_ras, Tbl.get_upd_same, h]
    · rw [State.modRas_ras, Tbl.get_upd_other _ _ _ _ same]
  unfold State.peff
  rw [slew]
  rfl

theorem State.lineDue_of_short (s : State) (n : Nat) (jump : (s.ras.get n).jumping = false) (acc : (s.ras.get n).acc < s.peff n) :
    s.lineDue n = false := by
  have len : s.lineLen n = s.peff n := by
    unfold State.lineLen
    exact if_neg (by simp [jump])
  rw [State.lineDue, len, decide_eq_false (by omega), Bool.and_false]

theorem State.moveTo_back (s : State) (n line acc : Nat) (back : line ≤ (s.ras.get n).line) (jump : (s.ras.get n).jumping = false)
    (short : acc < s.peff n) : (s.moveTo n line acc).ras.get n = { s.ras.get n with line := line, acc := acc } ∧
      (s.moveTo n line acc).regs = s.regs := by
  obtain ⟨g, hg⟩ : ∃ g : Raster → Raster,
      g = fun r => if r.line ≤ line then { r with acc := (line - r.line) * s.peff n + acc } else { r with line := line, acc := acc } := ⟨_, rfl⟩
  have moved : g (s.ras.get n) = { s.ras.get n with line := line, acc := acc } := by
    rw [hg]
    dsimp only
    split
    · have here : (s.ras.get n).line = line := by omega
      rw [here, Nat.sub_self, Nat.zero_mul, Nat.zero_add, ← here]
    · rfl
  have get : (s.modRas n g).ras.get n = { s.ras.get n with line := line, acc := acc } := by
    rw [State.modRas_ras, Tbl.get_upd_same, moved]
  have slew (r : Raster) : (g r).slew = r.slew := by
    rw [hg]
    dsimp only
    split <;> rfl
  have ends : s.moveTo n line acc = State.catchUp (line - (s.ras.get n).line + 1) n (s.modRas n g) := by rw [hg]; rfl
  have due : (s.modRas n g).lineDue n = false := by
    refine State.lineDue_of_short _ _ ?_ ?_
    · rw [get]
      exact jump
    · rw [get, State.peff_modRas _ _ _ _ slew]
      exact short
  rw [ends, Nat.sub_eq_zero_of_le back, State.catchUp, if_neg (by simp [due])]
  exact ⟨get, State.modRas_regs _ _ _⟩

/-- With the raster in the frame of the word and not before its position, the position becomes that of the word. -/
theorem State.placeBoundary_back (s : State) (n d : Nat) (pos : 0 < s.peff n) (back : d / s.peff n ≤ (s.ras.get n).line) :
    (s.placeBoundary n (s.ras.get n).frame d).ras.get n
      = { s.ras.get n with jumping := false, jumpCarry := 0, line := d / s.peff n, acc := d % s.peff n }
    ∧ (s.placeBoundary n (s.ras.get n).frame d).regs = s.regs := by
  obtain ⟨v, hv⟩ : ∃ v, v = s.modRas n (fun r => { r with jumping := false, jumpCarry := 0 }) := ⟨_, rfl⟩
  have get : v.ras.get n = { s.ras.get n with jumping := false, jumpCarry := 0 } := by rw [hv, State.modRas_ras, Tbl.get_upd_same]
  have peff : v.peff n = s.peff n := by
    rw [hv]
    exact State.peff_modRas _ _ _ _ fun _ => rfl
  have here : (v.ras.get n).frame = (s.ras.get n).frame := by rw [get]
  have line : (v.ras.get n).line = (s.ras.get n).line := by rw [get]
  have late : ¬ (d : Int) < 0 := by omega
  have moves : s.placeBoundary n (s.ras.get n).frame d = v.moveTo n (d / s.peff n) (d % s.peff n) := by
    have one : max 1 (s.peff n) = s.peff n := by omega
    have ends : s.placeBoundary n (s.ras.get n).frame d = v.moveTo n (d / max 1 (s.peff n)) (d % max 1 (s.peff n)) := by
      unfold State.placeBoundary
      dsimp only
      rw [← hv, if_neg late, if_pos here, Int.toNat_natCast]
    rw [ends, one]
  have short : d % s.peff n < s.peff n := Nat.mod_lt _ pos
  obtain ⟨ends, regs⟩ := v.moveTo_back n (d / s.peff n) (d % s.peff n) (back.trans_eq line.symm) (congrArg Raster.jumping get)
    (short.trans_eq peff.symm)
  rw [moves, ends, get, regs, hv, State.modRas_regs]
  exact ⟨rfl, rfl⟩

/-- Settles O15. -/
theorem followersTakeSyncWords : Obligations.FollowersTakeSyncWords := by
  refine fun s w => ⟨fun en role bad => ?_, fun en role bad => ?_, fun en role good kind stopped => ?_,
    fun d hd en role good kind running frame offset pos back => ?_, fun locked follows missed => ?_⟩
  · have relay : s.when (s.fld F.CFG_SYNC_CTRL.ROLE == 3) (·.emit (.syncWord w.toNat)) = s := by simp [role, State.when]
    refine ⟨s.setFlag F.CFG_SYNC_STAT.CRC_ERR, ?_, State.flag_setFlag_same _ _ _ _ _ rfl (by decide),
      (SameRegs.refl _ s).andFlag (by repeat constructor) (by omega), by simp⟩
    exact congrArg Host.Outcome.next ((doSyncWordRx_badCheck s w.toNat en (by omega) bad).trans (by rw [relay]))
  · have relay : s.when (s.fld F.CFG_SYNC_CTRL.ROLE == 3) (·.emit (.syncWord w.toNat)) = s.emit (.syncWord w.toNat) := by simp [role, State.when]
    refine ⟨(s.emit (.syncWord w.toNat)).setFlag F.CFG_SYNC_STAT.CRC_ERR, ?_, by simp, State.flag_setFlag_same _ _ _ _ _ rfl (by decide)⟩
    exact congrArg Host.Outcome.next ((doSyncWordRx_badCheck s w.toNat en (by omega) bad).trans (by rw [relay]))
  · refine ⟨s.tookFrameWord (bits w.toNat 43 12), ?_, s.tookFrameWord_locked _, ?_, s.tookFrameWord_cfg _, s.tookFrameWord_sameRegs _⟩
    · refine congrArg Host.Outcome.next ((doSyncWordRx_frame s w.toNat en role good kind).trans (if_neg ?_))
      simp [stopped]
    · exact (State.fld_of_regs (State.modCfg_regs _ _) _ _ _).trans (State.fld_setFld_same _ _ _ _ _ (by decide) (by decide))
  · let v := s.tookFrameWord (bits w.toNat 43 12)
    have ras : v.ras = s.ras := s.tookFrameWord_ras _
    have peff : v.peff s.master = s.peff s.master := s.tookFrameWord_peff _ _
    have delay : (48 * 48 - s.sfld F.CFG_SYNC_OFFSET.OFFSET : Int) * (2 ^ 32 : Nat) = (d : Int) := by
      rw [hd]
      push_cast
      rw [Int.toNat_of_nonneg (by omega)]
    obtain ⟨placed, regs⟩ := v.placeBoundary_back s.master d (peff.symm ▸ pos) (by rw [peff, ras]; exact back)
    refine ⟨v.placeBoundary s.master (v.ras.get s.master).frame d, congrArg Host.Outcome.next ?_, ?_, ?_, ?_, ?_⟩
    · rw [doSyncWordRx_frame s w.toNat en role good kind, if_pos running, delay, ras, frame]
    · exact (State.flag_of_regs regs _ _ _).trans (s.tookFrameWord_locked _)
    · rw [placed, ras, frame]
    · rw [placed, peff]
    · rw [placed, peff]
  · exact ⟨s.setFlag F.CFG_SYNC_STAT.LOCKED false, congrArg Host.Outcome.next (if_pos ⟨locked, follows, missed⟩),
      State.flag_setFlag_same _ _ _ _ _ rfl (by decide), (SameRegs.refl _ s).andFlag (by repeat constructor) (by omega),
        State.regs_back (State.setFlag_offRegs _ _ _ _ _)⟩

end Sys2Proof.Machine
end

section
/-! PROOFS. A raster's line and frame boundaries, its start and its halt. -/
namespace Sys2Proof.Machine

/-- Visiting numbers below `k` at which nothing is due changes nothing. -/
theorem State.each_range_when_false (s : State) (due : State → Nat → Bool) (f : Nat → State → State) (k : Nat)
    (none : ∀ m, m < k → due s m = false) : s.each (List.range k) (fun m t => t.when (due t m) (f m)) = s := by
  induction k with
  | zero => rfl
  | succ k ih =>
    have first := ih fun m hm => none m (by omega)
    unfold State.each at first ⊢
    rw [List.range_succ, List.foldl_append, first]
    simp [State.when, none k (by omega)]

theorem doRasterLineBoundary_due (s : State) (n : Nat) (due : s.lineDue n = true) (none : ∀ m, m < n → s.lineDue m = false) :
    doRasterLineBoundary n s = s.lineStep n := by
  have before := s.each_range_when_false State.lineDue State.lineStep n none
  unfold State.each at before
  unfold doRasterLineBoundary State.each
  rw [if_pos due, List.range_succ, List.foldl_append, before]
  simp [State.when, due]

theorem State.lineDue_running (s : State) (n : Nat) (due : s.lineDue n = true) : (s.ras.get n).running = true :=
  (Bool.and_eq_true_iff.mp due).1

theorem State.boundaryRecord_get (s : State) (n : Nat) : ∃ h, (s.boundaryRecord n).ras.get n = { s.ras.get n with hist := h } :=
  ⟨_, Tbl.get_upd_same _ _ _⟩

theorem State.modRas_back (s : State) (n : Nat) (f : Raster → Raster) : { s.modRas n f with ras := s.ras } = s := rfl

theorem State.lineStep_inside (s : State) (n : Nat) (last : s.lastLine n = false) :
    s.lineStep n = ((s.modRas n (fun r => { r with acc := r.acc - s.lineLen n, line := r.line + 1 })).lineEvents n (s.lineLen n) false false
      (s.ras.get n).jumping) := by
  have moved : s.advanceLine n = s.modRas n (fun r => { r with acc := r.acc - s.lineLen n, line := r.line + 1 }) := if_neg (by simp [last])
  simp only [State.lineStep, last, moved, Bool.false_and, if_neg Bool.false_ne_true]

theorem State.lineStep_last (s : State) (n : Nat) (last : s.lastLine n = true) (run : Bool) (h : s.flag F.RAS_CTRL.RUN n = run) :
    s.lineStep n = if run then (s.advanceLine n).lineEvents n (s.lineLen n) true false (s.ras.get n).jumping
      else ((s.advanceLine n).lineEvents n (s.lineLen n) true true (s.ras.get n).jumping).stopRaster n := by
  cases run <;> simp [State.lineStep, last, h]

theorem State.advanceLine_last (s : State) (n : Nat) (last : s.lastLine n = true) :
    (∃ h, (s.advanceLine n).ras.get n
      = { s.ras.get n with acc := (s.ras.get n).acc - s.lineLen n, line := 0, frame := ((s.ras.get n).frame + 1) % 2 ^ 32, hist := h })
    ∧ { s.advanceLine n with ras := s.ras } = s := by
  have moved : s.advanceLine n = (s.modRas n
      (fun r => { r with acc := r.acc - s.lineLen n, line := 0, frame := (r.frame + 1) % 2 ^ 32 })).boundaryRecord n :=
    if_pos last
  rw [moved]
  refine ⟨?_, rfl⟩
  obtain ⟨h, get⟩ := State.boundaryRecord_get
    (s.modRas n (fun r => { r with acc := r.acc - s.lineLen n, line := 0, frame := (r.frame + 1) % 2 ^ 32 })) n
  refine ⟨h, get.trans ?_⟩
  rw [State.modRas_ras, Tbl.get_upd_same]

/-- A raster that begins is at line 0 of its frame, with nothing accumulated and PH_LOCK clear. -/
theorem State.rasterBegin_get (s : State) (n f : Nat) :
    ∃ h, (s.rasterBegin n f).ras.get n = { hist := h, latch := (s.ras.get n).latch, running := true, frame := f % 2 ^ 32 } := by
  obtain ⟨h, get⟩ := State.boundaryRecord_get (((s.modRas n
    (fun r => { hist := r.hist, latch := r.latch, running := true, frame := f % 2 ^ 32 })).modCfg
    (fun c => { c with since := c.since.set n none, old := c.old.set n [] })).setFlag F.RAS_POS.PH_LOCK false n) n
  refine ⟨h, get.trans ?_⟩
  rw [State.setFlag_ras, State.modCfg_ras, State.modRas_ras, Tbl.get_upd_same]

theorem State.rasterBegin_regs (s : State) (n f : Nat) : (s.rasterBegin n f).regs = (s.setFlag F.RAS_POS.PH_LOCK false n).regs := rfl

theorem State.setFlag_run_startFrame (s : State) (n : Nat) : (s.setFlag F.RAS_CTRL.RUN true n).startFrame n = s.startFrame n := by
  simp (disch := decide) only [State.startFrame, State.alignNs, State.fld_setFlag_kind, State.setFlag_time]
  rfl

theorem doRasterStart_idle (s : State) (n : Nat) (stopped : (s.ras.get n).running = false) (idle : (s.ras.get n).waiting = false) :
    doRasterStart n s = if s.fld F.RAS_ALIGN.FRAMES n ≠ 0 ∧ s.flag F.RAS_CTRL.WAIT n = true then
      (s.setFlag F.RAS_CTRL.RUN true n).modRas n (fun r => { r with waiting := true })
    else (s.setFlag F.RAS_CTRL.RUN true n).rasterGo n (s.startFrame n) := by
  have free : ¬ (((s.setFlag F.RAS_CTRL.RUN true n).ras.get n).running = true ∨ ((s.setFlag F.RAS_CTRL.RUN true n).ras.get n).waiting = true) := by
    simp [stopped, idle]
  rw [← State.setFlag_run_startFrame, ← State.fld_setFlag_kind s F.RAS_CTRL.RUN F.RAS_ALIGN.FRAMES true n 0 n 0 (by decide),
    ← State.flag_setFlag_beside s F.RAS_CTRL.RUN F.RAS_CTRL.WAIT true n 0 rfl (by decide) (by decide) (by decide)]
  exact if_neg free

/-- Settles O12. -/
theorem rastersStepStartAndStop : Obligations.RastersStepStartAndStop := by
  refine fun s n => ⟨fun due => ?early, fun due none last => ?inside, fun due none last run => ?frame, fun due none last run => ?stop, ?halt,
    fun stopped idle frames wait => ?wait, fun stopped idle now => ?start, fun waiting aligned => ?aligned, fun off => ?unaligned⟩
  case early => exact congrArg Host.Outcome.next (if_neg (by simp [due]))
  case inside =>
    exact ⟨_, congrArg Host.Outcome.next ((doRasterLineBoundary_due s n due none).trans (s.lineStep_inside n last)), rfl, State.modRas_back _ _ _⟩
  case frame =>
    obtain ⟨⟨h, get⟩, back⟩ := s.advanceLine_last n last
    refine ⟨s.advanceLine n, congrArg Host.Outcome.next ((doRasterLineBoundary_due s n due none).trans (s.lineStep_last n last true run)),
      ?_, ?_, ?_, ?_,
      back⟩ <;> rw [get]
    exact s.lineDue_running n due
  case stop =>
    obtain ⟨⟨h, get⟩, back⟩ := s.advanceLine_last n last
    refine ⟨s.advanceLine n, congrArg Host.Outcome.next ((doRasterLineBoundary_due s n due none).trans (s.lineStep_last n last false run)), ?_, ?_,
      back⟩ <;> rw [get]
  case halt => exact congrArg Raster.running (Tbl.get_upd_same _ _ _)
  case wait =>
    refine ⟨_, congrArg Host.Outcome.next ((doRasterStart_idle s n stopped idle).trans (if_pos ⟨frames, wait⟩)), ?_, by simp [Tbl.upd],
      ((SameRegs.refl _ s).andFlag (by repeat constructor) (by omega)).of_regs (State.modRas_regs _ _ _), ?_⟩
    · exact (State.flag_of_regs (State.modRas_regs _ _ _) _ _ _).trans (State.flag_setFlag_same _ _ _ _ _ rfl (by decide))
    · simp
  case start =>
    have goes : ¬ (s.fld F.RAS_ALIGN.FRAMES n ≠ 0 ∧ s.flag F.RAS_CTRL.WAIT n = true) := fun ⟨frames, wait⟩ => by
      rcases now with none | go
      · exact frames none
      · simp [go] at wait
    obtain ⟨h, get⟩ := (s.setFlag F.RAS_CTRL.RUN true n).rasterBegin_get n (s.startFrame n)
    refine ⟨(s.setFlag F.RAS_CTRL.RUN true n).rasterBegin n (s.startFrame n), _,
      congrArg Host.Outcome.next ((doRasterStart_idle s n stopped idle).trans (if_neg goes)), rfl, ?_, ?_, ?_, ?_, ?_, ?_⟩
    · rw [State.flag_of_regs (State.rasterBegin_regs _ _ _), State.flag_setFlag_kind _ _ _ _ _ _ _ _ (by decide)]
      exact State.flag_setFlag_same _ _ _ _ _ rfl (by decide)
    · rw [State.flag_of_regs (State.rasterBegin_regs _ _ _)]
      exact State.flag_setFlag_same _ _ _ _ _ rfl (by decide)
    · rw [get]
    · rw [get]
    · rw [get]
    · rw [get]
      split
      · rename_i none
        have first : s.startFrame n = 0 := if_pos (.inl none)
        exact congrArg (· % 2 ^ 32) first
      · rfl
  case aligned =>
    obtain ⟨h, get⟩ := s.rasterBegin_get n (s.alignedFrame n)
    refine ⟨s.rasterBegin n (s.alignedFrame n), _, congrArg Host.Outcome.next (if_pos ⟨waiting, aligned⟩), rfl, ?_, ?_, ?_, ?_⟩ <;> rw [get]
  case unaligned => exact congrArg Host.Outcome.next (if_neg (by simp [off]))
end Sys2Proof.Machine
end

section
/-! PROOFS. The triggers of a raster. -/
namespace Sys2Proof.Machine

/-- What the statement about triggers observes: what was sent, time, the positions shown, and which trigger of each stream comes next. -/
def State.trigView (s : State) : List Out × Time × (Nat → Nat) × (Nat → Bool × Nat) :=
  (s.out, s.time, fun st => s.fld F.RAS_TRIG_POS.POS st, fun st => ((s.strm.get st).started, (s.strm.get st).nextF))

theorem State.setFld_trigView (s : State) (f : Fld) (v i j : Nat) (h : RegKind.RAS_TRIG_POS ≠ f.reg) :
    (s.setFld f v i j).trigView = s.trigView := by
  simp only [State.trigView, State.setFld_out, State.setFld_time, State.setFld_strm, State.fld_setFld_kind _ f F.RAS_TRIG_POS.POS _ _ _ _ _ h]

theorem State.setFlag_trigView (s : State) (f : Fld) (b : Bool) (i j : Nat) (h : RegKind.RAS_TRIG_POS ≠ f.reg) :
    (s.setFlag f b i j).trigView = s.trigView := s.setFld_trigView f _ i j h

theorem State.count_trigView (s : State) (f : Fld) (i j : Nat) (h : RegKind.RAS_TRIG_POS ≠ f.reg) :
    (s.count f i j).trigView = s.trigView := s.setFld_trigView f _ i j h

theorem State.pmuAdd_trigView (s : State) (ev inst n : Nat) (c : Option Nat) : (s.pmuAdd ev inst n c).trigView = s.trigView := by
  simp only [State.trigView, State.pmuAdd_out, State.pmuAdd_time, State.pmuAdd_strm, State.pmuAdd_fld _ _ _ _ _ F.RAS_TRIG_POS.POS _ _ rfl]

theorem State.modStrm_trigView (s : State) (st : Nat) (g : Stream → Stream) (h : ∀ q, (g q).started = q.started ∧ (g q).nextF = q.nextF) :
    (s.modStrm st g).trigView = s.trigView := by
  have same (k : Nat) : (((s.modStrm st g).strm.get k).started, ((s.modStrm st g).strm.get k).nextF)
      = ((s.strm.get k).started, (s.strm.get k).nextF) := by
    by_cases e : k = st
    · rw [e, State.modStrm_strm, Tbl.get_upd_same, (h _).1, (h _).2]
    · rw [State.modStrm_strm, Tbl.get_upd_other _ _ _ _ e]
  simp only [State.trigView, same]
  rfl

theorem State.endTrig_trigView (s : State) (st f : Nat) : (s.endTrig st f).trigView = s.trigView :=
  s.modStrm_trigView st _ fun _ => ⟨rfl, rfl⟩

theorem State.loseLock_trigView (s : State) (st : Nat) : (s.loseLock st).trigView = s.trigView := by
  unfold State.loseLock
  refine (State.modStrm_trigView _ _ _ (by exact fun _ => ⟨rfl, rfl⟩)).trans ?_
  simp (disch := decide) only [State.setFld_trigView, State.setFlag_trigView, State.pmuAdd_trigView]

theorem State.missFrame_trigView (s : State) (st : Nat) (t : TrigFrame) : (s.missFrame st t).trigView = s.trigView := by
  unfold State.missFrame
  extract_lets missed shown
  have kept : shown.trigView = s.trigView := by
    simp (disch := decide) only [shown, missed, State.setFld_trigView, State.setFlag_trigView, State.count_trigView, State.pmuAdd_trigView]
  split
  · exact kept
  · split
    · exact (State.loseLock_trigView _ _).trans kept
    · exact (State.setFld_trigView _ _ _ _ _ (by decide)).trans kept

theorem State.settleMissed_trigView (s : State) (st : Nat) : (s.settleMissed st).trigView = s.trigView := by
  unfold State.settleMissed
  split
  · rfl
  · refine State.each_keeps State.trigView _ _ _ fun t u => ?_
    dsimp only
    split
    · rw [State.endTrig_trigView, State.missFrame_trigView]
    · exact (State.modStrm_trigView _ _ _ (by exact fun _ => ⟨rfl, rfl⟩)).trans (State.missFrame_trigView _ _ _)

theorem State.when_trigView (s : State) (c : Bool) (f : State → State) (h : (f s).trigView = s.trigView) : (s.when c f).trigView = s.trigView := by
  cases c
  · rfl
  · exact h

theorem State.enterTrigger_trigView (s : State) (st f : Nat) (p : Int) (sent : Bool) : (s.enterTrigger st f p sent).trigView = s.trigView := by
  unfold State.enterTrigger
  extract_lets settled closed unlocked t
  have ended : closed.trigView = s.trigView := by
    refine (State.each_keeps State.trigView _ _ _ fun t u => ?_).trans (State.settleMissed_trigView s st)
    rw [State.endTrig_trigView]
    exact State.when_trigView _ _ _ (State.missFrame_trigView _ _ _)
  have counted : unlocked.trigView = s.trigView :=
    (State.when_trigView _ _ _ (State.count_trigView _ _ _ _ (by decide))).trans ended
  split
  · exact (State.modStrm_trigView _ _ _ (by exact fun _ => ⟨rfl, rfl⟩)).trans counted
  · exact (State.missFrame_trigView _ _ _).trans counted

/-- What a trigger shows before its frames are entered: its position, and the next trigger frame of its stream. -/
def State.showTrigger (st f : Nat) (p : Int) (s : State) : State :=
  (s.setFld F.RAS_TRIG_POS.POS (unsigned 24 p) st).modStrm st (fun q => { q with started := true, pNext := p, nextF := (f + 1) % 2 ^ 32 })

theorem State.issueTrigger_trigView (s : State) (st port e : Nat) (h : s.mapOf st = some (port, e)) : (s.issueTrigger st).trigView
    = ((if s.portUp port && !s.fcl.safe then s.pulse st port else s).showTrigger st (s.nextTrigger st) (s.trigPos st)).trigView := by
  unfold State.issueTrigger
  rw [h]
  exact (State.each_keeps State.trigView _ _ _ fun q t => t.enterTrigger_trigView _ _ _ _).trans (State.enterTrigger_trigView _ _ _ _ _)

theorem unsigned_lt (n : Nat) (v : Int) : unsigned n v < 2 ^ n := by
  have pos : (0 : Int) < (2 ^ n : Nat) := by positivity
  have := Int.emod_nonneg v pos.ne'
  have := Int.emod_lt_of_pos v pos
  unfold unsigned
  omega

theorem State.showTrigger_pos (s : State) (st f : Nat) (p : Int) : (s.showTrigger st f p).fld F.RAS_TRIG_POS.POS st = unsigned 24 p :=
  ((State.fld_of_regs (State.modStrm_regs _ _ _) _ _ _).trans (State.fld_setFld_same _ _ _ _ _ (by decide) (by decide))).trans
    (Nat.mod_eq_of_lt (unsigned_lt 24 p))

theorem State.showTrigger_next (s : State) (st f : Nat) (p : Int) :
    ((s.showTrigger st f p).strm.get st).started = true ∧ ((s.showTrigger st f p).strm.get st).nextF = (f + 1) % 2 ^ 32 := by
  unfold State.showTrigger
  rw [State.modStrm_strm, Tbl.get_upd_same]
  exact ⟨rfl, rfl⟩

theorem State.trigger_alone (s : State) (st : Nat) (due : s.triggerDue st = true) (alone : s.coincident st = []) :
    s.trigger st = s.issueTrigger st := by
  unfold State.trigger
  rw [if_pos due, alone]
  rfl

theorem State.pulse_out (s : State) (st port : Nat) : (s.pulse st port).out = s.out ++ [(
    { port := port, line := if s.trigMode st = 1 then s.fld F.RAS_STRM_CFG.TRIG_IDX st else 0,
      rest := bit (s.fld F.ING_PORT_CTRL.TRIG_POL port) (if s.trigMode st = 1 then s.fld F.RAS_STRM_CFG.TRIG_IDX st else 0),
      until_ := s.time.now + 1200 } : Pulse).level
        (!bit (s.fld F.ING_PORT_CTRL.TRIG_POL port) (if s.trigMode st = 1 then s.fld F.RAS_STRM_CFG.TRIG_IDX st else 0))] := by
  simp [State.pulse]

theorem State.pulse_mem (s : State) (st port : Nat) : (
    { port := port, line := if s.trigMode st = 1 then s.fld F.RAS_STRM_CFG.TRIG_IDX st else 0,
      rest := bit (s.fld F.ING_PORT_CTRL.TRIG_POL port) (if s.trigMode st = 1 then s.fld F.RAS_STRM_CFG.TRIG_IDX st else 0),
      until_ := s.time.now + 1200 } : Pulse) ∈ (s.pulse st port).time.pulses := by
  simp [State.pulse]

/-- Settles O13. -/
theorem triggersLeaveAtTheirPosition : Obligations.TriggersLeaveAtTheirPosition := by
  refine fun s st => ⟨fun off => ?early, fun port e due alone mapped up calm => ?up, fun port e due alone mapped down => ?down,
    fun en unlocked feeds fresh beyond => ?limit, fun again => ?again⟩
  case early =>
    have stays : s.trigger st = s := if_neg (by simp [off])
    exact congrArg (fun t : State => Host.Outcome.next t.tryFrees) stays
  case up =>
    have view := s.issueTrigger_trigView st port e mapped
    rw [if_pos (by simp [up, calm])] at view
    have out : (s.issueTrigger st).out = (s.pulse st port).out := congrArg (·.1) view
    have time : (s.issueTrigger st).time = (s.pulse st port).time := congrArg (·.2.1) view
    have pos : (s.issueTrigger st).fld F.RAS_TRIG_POS.POS st = _ := congrFun (congrArg (·.2.2.1) view) st.val
    have next : (((s.issueTrigger st).strm.get st).started, ((s.issueTrigger st).strm.get st).nextF) = _ := congrFun (congrArg (·.2.2.2) view) st.val
    obtain ⟨started, nextF⟩ := State.showTrigger_next (s.pulse st port) st (s.nextTrigger st) (s.trigPos st)
    refine ⟨s.issueTrigger st, congrArg (fun t : State => Host.Outcome.next t.tryFrees) (s.trigger_alone st due alone), ?_, ?_, ?_, ?_⟩
    · rintro line rest rfl rfl
      rw [out, time, s.pulse_out]
      exact ⟨rfl, s.pulse_mem st port⟩
    · exact pos.trans (State.showTrigger_pos _ _ _ _)
    · exact (congrArg Prod.fst next).trans started
    · exact (congrArg Prod.snd next).trans nextF
  case down =>
    have view := s.issueTrigger_trigView st port e mapped
    rw [if_neg (by simp [down])] at view
    exact ⟨s.issueTrigger st, congrArg (fun t : State => Host.Outcome.next t.tryFrees) (s.trigger_alone st due alone), congrArg (·.1) view⟩
  case limit =>
    exact ⟨_, congrArg Host.Outcome.next (if_pos ⟨en, by simp [unlocked], feeds, by simp [fresh], beyond⟩), rfl, rfl⟩
  case again => exact congrArg Host.Outcome.next (if_neg fun ⟨_, _, _, fresh, _⟩ => fresh again)
end Sys2Proof.Machine
end

section
/-! PROOFS. RUN and the link of an ingress port. -/
namespace Sys2Proof.Machine

/-- What a port shows when its link falls, before its frames are closed. -/
def State.linkOff (p : Nat) (s : State) : State := (s.setFlag F.ING_PORT_STAT.LINK_UP false p).setFld F.ING_PORT_STAT.GEAR_ACT 0 p

theorem State.portRun_fall (s : State) (p : Nat) (was : s.flag F.ING_PORT_CTRL.RUN p = true) :
    s.portRun p false = if p < 28 then (((s.setFlag F.ING_PORT_CTRL.RUN false p).linkOff p).closeFrames p (fun _ => true)).tunDown p
      else ((s.setFlag F.ING_PORT_CTRL.RUN false p).linkOff p).closeFrames p (fun _ => true) :=
  if_pos ⟨was, Bool.false_ne_true⟩

theorem State.portRun_rise (s : State) (p : Nat) : s.portRun p true
    = if 28 ≤ p then (s.setFlag F.ING_PORT_CTRL.RUN true p).setFlag F.ING_PORT_STAT.LINK_UP true p else s.setFlag F.ING_PORT_CTRL.RUN true p := by
  simp [State.portRun]

theorem State.linkOff_shows (s : State) (p : Nat) : (s.linkOff p).flag F.ING_PORT_STAT.LINK_UP p = false
    ∧ (s.linkOff p).fld F.ING_PORT_STAT.GEAR_ACT p = 0 ∧ (s.linkOff p).flag F.ING_PORT_STAT.LINK_LOST p = s.flag F.ING_PORT_STAT.LINK_LOST p := by
  unfold State.linkOff
  refine ⟨?_, ?_, ?_⟩ <;>
    simp (disch := decide) only [State.flag_setFld_beside, State.flag_setFlag_same, State.fld_setFld_same, State.flag_setFlag_beside,
      Nat.zero_mod]

/-- Settles O16. -/
theorem portLinksComeAndGo : Obligations.PortLinksComeAndGo := by
  refine fun s p => ⟨fun stopped => ?rise, fun runs => ?fall, fun runs down => ?up, fun runs up => ⟨?lost, fun k => ?cut⟩, fun idle k => ?idle⟩
  case rise =>
    by_cases aphy : p.val < 28
    · have acts : s.portRun p true = s.setFlag F.ING_PORT_CTRL.RUN true p := (s.portRun_rise p).trans (if_neg (by omega))
      refine ⟨_, congrArg Host.Outcome.next acts, State.flag_setFlag_same _ _ _ _ _ rfl (by decide), ?_, by simp⟩
      rw [if_pos aphy]
      exact (SameRegs.refl _ s).andFlag (by repeat constructor) (by omega)
    · have acts : s.portRun p true = (s.setFlag F.ING_PORT_CTRL.RUN true p).setFlag F.ING_PORT_STAT.LINK_UP true p :=
        (s.portRun_rise p).trans (if_pos (by omega))
      refine ⟨_, congrArg Host.Outcome.next acts, ?_, ?_, by simp⟩
      · simp (disch := decide) only [State.flag_setFlag_kind, State.flag_setFlag_same]
      · rw [if_neg aphy]
        exact ⟨State.flag_setFlag_same _ _ _ _ _ rfl (by decide), ((SameRegs.refl _ s).andFlag (by repeat constructor) (by omega)).andFlag
          (by repeat constructor) (by omega)⟩
  case fall =>
    obtain ⟨link, gear, lost⟩ := (s.setFlag F.ING_PORT_CTRL.RUN false p).linkOff_shows p
    refine ⟨(s.setFlag F.ING_PORT_CTRL.RUN false p).linkOff p, congrArg Host.Outcome.next (s.portRun_fall p runs), ?_, link, gear, ?_, ?_, ?_⟩
    · rw [State.linkOff, State.flag_setFld_kind _ _ _ _ _ _ _ _ (by decide), State.flag_setFlag_kind _ _ _ _ _ _ _ _ (by decide)]
      exact State.flag_setFlag_same _ _ _ _ _ rfl (by decide)
    · rw [lost, State.flag_setFlag_kind _ _ _ _ _ _ _ _ (by decide)]
    · exact (((SameRegs.refl _ s).andFlag (by repeat constructor) (by omega)).andFlag (by repeat constructor) (by omega)).andFld
        (by repeat constructor) (by omega)
    · simp [State.linkOff]
  case up =>
    have acts : doAphyLinkUp p s = (s.setFlag F.ING_PORT_STAT.LINK_UP true p).when (decide (p.val < 28))
        (·.setFld F.ING_PORT_STAT.GEAR_ACT (s.fld F.ING_PORT_CTRL.GEAR p) p) := if_pos ⟨runs, by simp [down]⟩
    have gear : s.fld F.ING_PORT_CTRL.GEAR p < 2 ^ 3 := bits_lt _ 30 28
    refine ⟨_, congrArg (fun t : State => Host.Outcome.next t.bootAdvance) acts, ?_⟩
    by_cases aphy : p.val < 28
    · simp only [State.when, aphy, decide_true, if_true]
      refine ⟨?_, ?_, ((SameRegs.refl _ s).andFlag (by repeat constructor) (by omega)).andFld (by repeat constructor) (by omega), by simp⟩ <;>
        simp (disch := decide) only [State.flag_setFld_beside, State.flag_setFlag_same, State.fld_setFld_same]
      exact Nat.mod_eq_of_lt gear
    · simp only [State.when, aphy, decide_false, Bool.false_eq_true, if_false]
      refine ⟨?_, ?_, (SameRegs.refl _ s).andFlag (by repeat constructor) (by omega), by simp⟩ <;>
        simp (disch := decide) only [State.flag_setFlag_same, State.fld_setFlag_beside]
  case lost =>
    obtain ⟨link, gear, -⟩ := s.linkOff_shows p
    refine ⟨(s.linkOff p).setFlag F.ING_PORT_STAT.LINK_LOST true p, congrArg Host.Outcome.next (if_pos ⟨runs, up⟩), ?_, ?_, ?_, ?_, ?_⟩
    · simpa (disch := decide) only [State.flag_setFlag_beside] using link
    · simpa (disch := decide) only [State.fld_setFlag_beside] using gear
    · exact State.flag_setFlag_same _ _ _ _ _ rfl (by decide)
    · exact (((SameRegs.refl _ s).andFlag (by repeat constructor) (by omega)).andFld (by repeat constructor) (by omega)).andFlag
        (by repeat constructor) (by omega)
    · simp [State.linkOff]
  case cut => exact congrArg Host.Outcome.next (if_pos ⟨runs, up⟩)
  case idle =>
    refine congrArg Host.Outcome.next (if_neg fun ⟨runs, up⟩ => ?_)
    rcases idle with off | off
    · simp [off] at runs
    · simp [off] at up
end Sys2Proof.Machine
end

section
/-! PROOFS. The short packets of a virtual channel. -/
namespace Sys2Proof.Machine

/-! A line that is published leaves the ports as they are. -/

theorem State.modLine_ports (s : State) (d : Nat) (f : PLine → PLine) : (s.modLine d f).ports = s.ports := rfl

theorem State.dropLine_ports (s : State) (d : Nat) : (s.dropLine d).ports = s.ports := by
  unfold State.dropLine
  extract_lets t
  split
  · extract_lets heir kept left freed
    have shared : kept.ports = s.ports := by
      unfold kept
      generalize heir = o
      cases o <;> rfl
    split
    · exact (State.pmuAdd_ports _ _ _ _ _).trans shared
    · exact shared
  · rfl

theorem State.settle_ports (s : State) (d : Nat) : (s.settle d).ports = s.ports := by
  unfold State.settle
  split
  · split
    · exact s.dropLine_ports d
    · rfl
  · rfl

theorem State.dropHold_ports (s : State) (st f l : Nat) : (s.dropHold st f l).ports = s.ports := by
  unfold State.dropHold
  split
  · exact State.settle_ports _ _
  · rfl

theorem State.stitchTake_ports (s : State) (l : PLine) : (s.stitchTake l).ports = s.ports :=
  State.each_keeps State.ports _ _ _ fun _ _ => State.each_keeps State.ports _ _ _ fun _ _ => rfl

theorem State.ledgerFor_ports (s : State) (d : Nat) : (s.ledgerFor d).ports = s.ports := by
  unfold State.ledgerFor
  split <;> rfl

theorem State.publish_ports (s : State) (d : Nat) : (s.publish d).ports = s.ports := by
  unfold State.publish
  split
  · rfl
  · rename_i l _
    extract_lets hs ledgered staged dist held
    have before : staged.ports = s.ports :=
      (State.stitchTake_ports _ _).trans ((State.pmuAdd_ports _ _ _ _ _).trans ((State.ledgerFor_ports _ _).trans (State.modLine_ports _ _ _)))
    refine (State.settle_ports _ _).trans (Eq.trans ?_ before)
    unfold held State.when
    split
    · exact State.dropHold_ports _ _ _ _
    · rfl

theorem State.publishStream_ports (k st : Nat) (s : State) : (State.publishStream k st s).ports = s.ports := by
  induction k generalizing s with
  | zero => rfl
  | succ k ih =>
    unfold State.publishStream
    split
    · split
      · exact (ih _).trans (s.publish_ports _)
      · rfl
    · rfl

/-! What entering a trigger frame leaves as it is, for the frame that opens: the generations, the rasters and the registers of the map. -/

/-- The registers that the sampling of a stream's triggers writes. -/
def RegKind.ofTriggers (k : RegKind) : Bool := k.reported || k == .RAS_STRM_STAT || k == .RAS_STRM_MEAS

def State.openView (s : State) : Cfg × Tbl Raster × Tbl Port × (RegKind → Nat → Nat → Nat) :=
  (s.cfg, s.ras, s.ports, fun k i j => bif k.ofTriggers then 0 else s.rd k i j)

theorem State.setFld_openView (s : State) (f : Fld) (v i j : Nat) (h : f.reg.ofTriggers = true) : (s.setFld f v i j).openView = s.openView := by
  have regs : (fun k i' j' => bif k.ofTriggers then 0 else (s.setFld f v i j).rd k i' j')
      = fun k i' j' => bif k.ofTriggers then 0 else s.rd k i' j' := by
    funext k i' j'
    cases hk : k.ofTriggers
    · exact State.rd_setFld_kind _ _ _ _ _ _ _ _ fun e => by simp [e, h] at hk
    · rfl
  simp only [State.openView, regs, State.setFld_cfg, State.setFld_ras, State.setFld_ports]

theorem State.setFlag_openView (s : State) (f : Fld) (b : Bool) (i j : Nat) (h : f.reg.ofTriggers = true) :
    (s.setFlag f b i j).openView = s.openView := s.setFld_openView f _ i j h

theorem State.count_openView (s : State) (f : Fld) (i j : Nat) (h : f.reg.ofTriggers = true) :
    (s.count f i j).openView = s.openView := s.setFld_openView f _ i j h

theorem State.modStrm_openView (s : State) (st : Nat) (g : Stream → Stream) : (s.modStrm st g).openView = s.openView := rfl

theorem State.pmuAdd_openView (s : State) (ev inst n : Nat) (c : Option Nat) : (s.pmuAdd ev inst n c).openView = s.openView := by
  have regs : (fun k i j => bif k.ofTriggers then 0 else (s.pmuAdd ev inst n c).rd k i j)
      = fun k i j => bif k.ofTriggers then 0 else s.rd k i j := by
    funext k i j
    cases hk : k.ofTriggers
    · exact s.pmuAdd_rd ev inst n c k i j (by simp only [RegKind.ofTriggers, Bool.or_eq_false_iff] at hk; exact hk.1.1)
    · rfl
  simp only [State.openView, regs, State.pmuAdd_cfg, State.pmuAdd_ras, State.pmuAdd_ports]

theorem State.loseLock_openView (s : State) (st : Nat) : (s.loseLock st).openView = s.openView := by
  unfold State.loseLock
  refine (State.modStrm_openView _ _ _).trans ?_
  simp (disch := decide) only [State.setFld_openView, State.setFlag_openView, State.pmuAdd_openView]

theorem State.missFrame_openView (s : State) (st : Nat) (t : TrigFrame) : (s.missFrame st t).openView = s.openView := by
  unfold State.missFrame
  extract_lets missed shown
  have kept : shown.openView = s.openView := by
    simp (disch := decide) only [shown, missed, State.setFld_openView, State.setFlag_openView, State.count_openView, State.pmuAdd_openView]
  split
  · exact kept
  · split
    · exact (State.loseLock_openView _ _).trans kept
    · exact (State.setFld_openView _ _ _ _ _ (by decide)).trans kept

theorem State.endTrig_openView (s : State) (st f : Nat) : (s.endTrig st f).openView = s.openView := rfl

theorem State.settleMissed_openView (s : State) (st : Nat) : (s.settleMissed st).openView = s.openView := by
  unfold State.settleMissed
  split
  · rfl
  · refine State.each_keeps State.openView _ _ _ fun t u => ?_
    dsimp only
    split
    · rw [State.endTrig_openView, State.missFrame_openView]
    · exact (State.modStrm_openView _ _ _).trans (State.missFrame_openView _ _ _)

theorem State.when_openView (s : State) (c : Bool) (f : State → State) (h : (f s).openView = s.openView) : (s.when c f).openView = s.openView := by
  cases c
  · rfl
  · exact h

theorem State.enterTrigger_openView (s : State) (st f : Nat) (p : Int) (sent : Bool) : (s.enterTrigger st f p sent).openView = s.openView := by
  unfold State.enterTrigger
  extract_lets settled closed unlocked t
  have ended : closed.openView = s.openView := by
    refine (State.each_keeps State.openView _ _ _ fun t u => ?_).trans (State.settleMissed_openView s st)
    rw [State.endTrig_openView]
    exact State.when_openView _ _ _ (State.missFrame_openView _ _ _)
  have counted : unlocked.openView = s.openView :=
    (State.when_openView _ _ _ (State.count_openView _ _ _ _ (by decide))).trans ended
  split
  · exact (State.modStrm_openView _ _ _).trans counted
  · exact (State.missFrame_openView _ _ _).trans counted

theorem State.rd_of_openView {s t : State} (h : t.openView = s.openView) (k : RegKind) (i j : Nat) (hk : k.ofTriggers = false) :
    t.rd k i j = s.rd k i j := by
  have same : (bif k.ofTriggers then 0 else t.rd k i j) = bif k.ofTriggers then 0 else s.rd k i j :=
    congrFun (congrFun (congrFun (congrArg (·.2.2.2) h) k) i) j
  simpa only [hk, cond_false] using same

theorem State.fld_of_openView {s t : State} (h : t.openView = s.openView) (f : Fld) (i j : Nat) (hf : f.reg.ofTriggers = false) :
    t.fld f i j = s.fld f i j := congrArg (bits · f.hi f.lo) (State.rd_of_openView h f.reg i j hf)

theorem State.foldl_wr_rd (l : List CfgWrite) (s t : State) (k : RegKind) (i j : Nat) (h : t.rd k i j = s.rd k i j) :
    (l.foldl (fun s w => s.wr w.reg.kind w.val w.reg.i w.reg.j) t).rd k i j =
      (l.foldl (fun s w => s.wr w.reg.kind w.val w.reg.i w.reg.j) s).rd k i j := by
  induction l generalizing s t with
  | nil => exact h
  | cons w r ih =>
    refine ih _ _ ?_
    by_cases same : k.key i j = w.reg.kind.key w.reg.i w.reg.j
    · unfold State.rd State.wr
      simp only [same, Tbl.get_set_same]
    · rw [State.rd_wr_other _ _ _ _ _ _ _ _ same, State.rd_wr_other _ _ _ _ _ _ _ _ same, h]

theorem State.asOf_rd {s t : State} (cfg : t.cfg = s.cfg) (n f : Nat) (k : RegKind) (i j : Nat) (h : t.rd k i j = s.rd k i j) :
    (t.asOf n f).rd k i j = (s.asOf n f).rd k i j := by
  unfold State.asOf
  rw [cfg]
  split
  · split
    · exact State.foldl_wr_rd _ _ _ _ _ _ h
    · exact h
  · exact h

/-- The trigger frame of a frame that no trigger asked for. -/
def State.freeFrame (s : State) (st : Nat) : TrigFrame :=
  { frame := (s.ras.get (s.strmRaster st)).frame, issued := (s.ras.get (s.strmRaster st)).frame, sent := true, locked := s.locked st, bound := true }

theorem State.bindFrame_free (s : State) (st : Nat) (h : s.trigMode st = 0) :
    (s.bindFrame st).2 = some (s.freeFrame st) ∧ (s.bindFrame st).1.openView = s.openView := by
  unfold State.bindFrame
  rw [if_pos (beq_iff_eq.mpr h)]
  refine ⟨rfl, ?_⟩
  exact (State.each_keeps State.openView _ _ _ fun q t => t.enterTrigger_openView _ _ _ _).trans (State.modStrm_openView _ _ _)

theorem State.closeFrames_none (s : State) (p : Nat) (which : OpenFrame → Bool) (h : ∀ e, e < 8 → s.openAt p e = none) :
    s.closeFrames p which = s := s.each_same _ _ fun e he => by rw [h e (List.mem_range.mp he)]

/-- The frame that opens at entry `e` of port `p`, and the state that has it open. -/
def State.frameOpened (s : State) (p e fn : Nat) (t : TrigFrame) : OpenFrame :=
  { s.newFrame p e t.frame with sensorFn := fn, locked := t.locked, invalid := false }

def State.withOpen (s : State) (p e : Nat) (o : OpenFrame) (st : Nat) : State :=
  (s.modPort p (fun q => { q with opens := q.opens.set e (some o) })).modStrm st (fun q => { q with substs := [] })

theorem State.withOpen_openAt (s : State) (p e : Nat) (o : OpenFrame) (st : Nat) : (s.withOpen p e o st).openAt p e = some o := by
  unfold State.withOpen State.openAt
  rw [State.modStrm_ports, State.modPort, Tbl.get_upd_same, Tbl.get_set_same]

/-- The frame that starts at one entry of the map. -/
def State.startAt (p fn e : Nat) (s : State) : State :=
  match (s.bindFrame (s.fld F.ING_MAP.STREAM p e)).2 with
  | none => (s.bindFrame (s.fld F.ING_MAP.STREAM p e)).1
  | some t => ((((s.bindFrame (s.fld F.ING_MAP.STREAM p e)).1.withOpen p e ((s.bindFrame (s.fld F.ING_MAP.STREAM p e)).1.frameOpened p e fn t)
      (s.fld F.ING_MAP.STREAM p e)).limitSubst p e)).beginProducts (s.fld F.ING_MAP.STREAM p e) t.frame

theorem State.frameStart_eq (s : State) (p v fn : Nat) (closed : ∀ x, x < 8 → s.openAt p x = none) :
    s.frameStart p v fn = s.each (((List.range 8).filter (fun e => s.flag F.ING_MAP.EN p e && s.fld F.ING_MAP.VC p e == v)).filter
        (fun e => !(s.trigMode (s.fld F.ING_MAP.STREAM p e) == 3))
      ++ ((List.range 8).filter (fun e => s.flag F.ING_MAP.EN p e && s.fld F.ING_MAP.VC p e == v)).filter
        (fun e => s.trigMode (s.fld F.ING_MAP.STREAM p e) == 3)) (State.startAt p fn) := by
  unfold State.frameStart
  rw [s.closeFrames_none p _ closed]
  rfl

theorem State.frameStart_only (s : State) (p v fn e st : Nat) (he : e < 8) (closed : ∀ x, x < 8 → s.openAt p x = none)
    (en : s.flag F.ING_MAP.EN p e = true) (vc : s.fld F.ING_MAP.VC p e = v) (only : ∀ x, x < 8 → x ≠ e → s.flag F.ING_MAP.EN p x = false)
    (stream : s.fld F.ING_MAP.STREAM p e = st) (free : s.trigMode st = 0) :
    s.frameStart p v fn = ((((s.bindFrame st).1.withOpen p e ((s.bindFrame st).1.frameOpened p e fn
      (s.freeFrame st)) st).limitSubst p e)).beginProducts st
      (s.freeFrame st).frame := by
  have entries : (List.range 8).filter (fun e => s.flag F.ING_MAP.EN p e && s.fld F.ING_MAP.VC p e == v) = [e] := by
    refine filter_range_eq_singleton 8 e _ he fun x hx => ?_
    by_cases same : x = e
    · simp [same, en, vc]
    · simp [same, only x hx same]
  have untriggered : (s.trigMode (s.fld F.ING_MAP.STREAM p e) == 3) = false := by rw [stream, free]; rfl
  obtain ⟨bound, -⟩ := s.bindFrame_free st free
  have starts : s.startAt p fn e = ((((s.bindFrame st).1.withOpen p e ((s.bindFrame st).1.frameOpened p e fn
    (s.freeFrame st)) st).limitSubst p e)).beginProducts st
      (s.freeFrame st).frame := by
    unfold State.startAt
    rw [stream, bound]
  rw [s.frameStart_eq p v fn closed, entries, List.filter_cons_of_pos (by simp [untriggered]), List.filter_cons_of_neg (by simp [untriggered])]
  exact starts

/-! The header and the entries of a port. -/

theorem State.pmuAdd_openAt (s : State) (ev inst n : Nat) (c : Option Nat) (p e : Nat) : (s.pmuAdd ev inst n c).openAt p e = s.openAt p e :=
  congrArg (fun t : Tbl Port => (t.get p).opens.get e) (s.pmuAdd_ports ev inst n c)

theorem State.pmuAdd_vcOf (s : State) (ev inst n : Nat) (c : Option Nat) (p v : Nat) : (s.pmuAdd ev inst n c).vcOf p v = s.vcOf p v := by
  unfold State.vcOf
  rw [State.pmuAdd_flag _ _ _ _ _ _ _ _ rfl]

theorem State.shortPacket_lost (s : State) (p : Nat) (h : CsiHeader) (receives : s.receives p = true)
    (bad : checkHeader (s.flag F.ING_PORT_CTRL.VCX_EN p) h = none) : s.shortPacket p h =
      ((((s.pmuAdd 0x041 p).setFlag F.ING_PORT_STAT.HDR_UNCORR true p).count F.ING_PORT_CNT0.HDR_UNCORR p).pmuAdd 0x045 p).lostHeader p := by
  rw [← s.pmuAdd_flag 0x041 p 1 none F.ING_PORT_CTRL.VCX_EN p 0 rfl] at bad
  unfold State.shortPacket State.withHeader
  rw [if_pos receives, bad]

/-- What a good short packet does, by its data type. -/
def State.shortActs (p : Nat) (g : CsiHeader) (s : State) : State :=
  match g.dt.toNat with
  | 0 => s.frameStart p (s.vcOf p g.vc.toNat) g.wc.toNat
  | 1 => s.closeFrames p (fun o => o.vc == s.vcOf p g.vc.toNat)
  | 2 => s.lineStarts p (s.vcOf p g.vc.toNat) g.wc.toNat
  | _ => s

theorem State.shortPacket_good (s : State) (p : Nat) (h g : CsiHeader) (receives : s.receives p = true)
    (good : checkHeader (s.flag F.ING_PORT_CTRL.VCX_EN p) h = some (g, false)) : s.shortPacket p h = (s.pmuAdd 0x041 p).shortActs p g := by
  rw [← s.pmuAdd_flag 0x041 p 1 none F.ING_PORT_CTRL.VCX_EN p 0 rfl] at good
  unfold State.shortPacket State.withHeader
  rw [if_pos receives, good]
  rfl

/-- A line end that the ECC has corrected is counted. -/
theorem State.shortPacket_corrected_lineEnd (s : State) (p : Nat) (h g : CsiHeader) (receives : s.receives p = true)
    (good : checkHeader (s.flag F.ING_PORT_CTRL.VCX_EN p) h = some (g, true)) (dt : g.dt.toNat = 3) :
    s.shortPacket p h = ((s.pmuAdd 0x041 p).count F.ING_PORT_CNT0.ECC_CORR p).pmuAdd 0x044 p := by
  rw [← s.pmuAdd_flag 0x041 p 1 none F.ING_PORT_CTRL.VCX_EN p 0 rfl] at good
  unfold State.shortPacket State.withHeader
  rw [if_pos receives, good]
  simp only [dt, State.noteFixed, State.when_true]

theorem State.lineStart_next (s : State) (p e : Nat) (o : OpenFrame) (isOpen : s.openAt p e = some o) (numbered : o.lsNum = true)
    (n : Nat) (pos : 0 < n) (next : n = o.lastLs.getD 0 + 1) :
    s.lineStart p e n = (s.modOpen p e (fun o => { o with lastLs := some n, nextLs := some (n - 1), stuck := false })).publishAll o.stream := by
  have advances : ¬ ((n == 0 || o.lastLs.any (fun l => decide (n ≤ l))) = true) := by
    cases last : o.lastLs with
    | none => simp; omega
    | some l => simp [last] at next ⊢; omega
  have none : min n (o.height + 1) - 1 - o.lastLs.getD 0 = 0 := by omega
  unfold State.lineStart
  rw [isOpen]
  simp only [numbered, not_true_eq_false, if_false, if_neg advances, none, List.range_zero, List.map_nil]
  rfl

/-- The line start at one entry of the port. -/
def State.startLine (p v n e : Nat) (s : State) : State :=
  match s.openAt p e with
  | some o => if o.vc = v then s.lineStart p e n else s
  | none => s

theorem State.startLine_closed (s : State) (p v n e : Nat) (h : s.openAt p e = none) : s.startLine p v n e = s := by
  unfold State.startLine
  rw [h]

theorem State.startLine_open (s : State) (p v n e : Nat) (o : OpenFrame) (h : s.openAt p e = some o) (vc : o.vc = v) :
    s.startLine p v n e = s.lineStart p e n := by
  unfold State.startLine
  rw [h]
  exact if_pos vc

theorem State.lineStarts_only (s : State) (p v n e : Nat) (o : OpenFrame) (he : e < 8) (isOpen : s.openAt p e = some o) (vc : o.vc = v)
    (only : ∀ x, x < 8 → x ≠ e → s.openAt p x = none) (numbered : o.lsNum = true) (pos : 0 < n) (next : n = o.lastLs.getD 0 + 1) :
    s.lineStarts p v n = (s.modOpen p e (fun o => { o with lastLs := some n, nextLs := some (n - 1), stuck := false })).publishAll o.stream := by
  have starts := (s.startLine_open p v n e o isOpen vc).trans (s.lineStart_next p e o isOpen numbered n pos next)
  have elsewhere (x : Nat) (hx : x < 8) (other : x ≠ e) :
      ((s.modOpen p e (fun o => { o with lastLs := some n, nextLs := some (n - 1), stuck := false })).publishAll o.stream).openAt p x = none := by
    unfold State.publishAll State.openAt
    rw [State.publishStream_ports, State.modOpen, State.modPort, Tbl.get_upd_same, Tbl.get_upd_other _ _ _ _ other]
    exact only x hx other
  refine (s.each_range_only 8 e (State.startLine p v n) he (fun x hx other => s.startLine_closed p v n x (only x hx other))
    fun x hx other => ?_).trans starts
  rw [starts]
  exact State.startLine_closed _ p v n x (elsewhere x hx other)

theorem State.modOpen_openAt (s : State) (p e : Nat) (f : OpenFrame → OpenFrame) (o : OpenFrame) (h : s.openAt p e = some o) :
    (s.modOpen p e f).openAt p e = some (f o) := by
  unfold State.openAt at h ⊢
  rw [State.modOpen, State.modPort, Tbl.get_upd_same, Tbl.get_upd_same, h]
  rfl

/-- The frame that opens has the frame, size and format of its frame's generation. -/
theorem State.frameOpened_of_openView {s b : State} (view : b.openView = s.openView) (p e fn : Nat) (t : TrigFrame) :
    (b.frameOpened p e fn t).stream = s.fld F.ING_MAP.STREAM p e
    ∧ (b.frameOpened p e fn t).size = (s.asOf (s.strmRaster (s.fld F.ING_MAP.STREAM p e)) t.frame).rd .ING_STRM_SIZE p e
    ∧ (b.frameOpened p e fn t).fmt = (s.asOf (s.strmRaster (s.fld F.ING_MAP.STREAM p e)) t.frame).rd .ING_STRM_FMT p e := by
  have stream : b.fld F.ING_MAP.STREAM p e = s.fld F.ING_MAP.STREAM p e := State.fld_of_openView view _ _ _ rfl
  have raster (st : Nat) : b.strmRaster st = s.strmRaster st := State.fld_of_openView view _ _ _ rfl
  have old (n : Nat) (k : RegKind) (hk : k.ofTriggers = false) : (b.asOf n t.frame).rd k p e = (s.asOf n t.frame).rd k p e :=
    State.asOf_rd (congrArg (·.1) view) n t.frame k p e (State.rd_of_openView view k p e hk)
  unfold State.frameOpened State.newFrame
  refine ⟨stream, ?_, ?_⟩ <;> dsimp only <;> rw [stream, raster, old _ _ rfl]

/-- Settles O17. -/
theorem shortPacketsOpenNumberAndCloseFrames : Obligations.ShortPacketsOpenNumberAndCloseFrames := by
  refine fun s p h receives => ⟨fun c hc bad => ?lost, fun g good dt => ?corrected,
    fun g good => ⟨fun e st dt he closed en vc only stream free => ?start,
    fun dt => ?fend, fun e o dt he isOpen vc only numbered pos next => ?line, fun dt => ?lend⟩⟩
  case lost =>
    have ends : exec c s = .next (s.shortPacket p h) := by
      simp only [List.mem_cons, List.not_mem_nil, or_false] at hc
      rcases hc with rfl | rfl | rfl | rfl <;> rfl
    refine ⟨_, ends.trans (congrArg Host.Outcome.next (s.shortPacket_lost p h receives bad)), ?_, ?_, ?_, ?_⟩
    · exact (State.flag_setFld_kind _ _ _ _ _ _ _ _ (by decide)).trans (State.flag_setFlag_same _ _ _ _ _ rfl (by decide))
    · rw [State.count, State.fld_addTo_same _ _ _ _ _ (by decide) (by decide), State.fld_setFlag_kind _ _ _ _ _ _ _ _ (by decide),
        State.pmuAdd_fld _ _ _ _ _ _ _ _ rfl]
    · simp
    · simp [State.pmuAdd_pool]
  case corrected =>
    refine ⟨_, congrArg Host.Outcome.next (s.shortPacket_corrected_lineEnd p h g receives good dt), ?_, ?_, ?_⟩
    · simp
    · simp [State.pmuAdd_pool]
    · rw [State.pmuAdd_fld _ _ _ _ _ _ _ _ rfl, State.count, State.fld_addTo_same _ _ _ _ _ (by decide) (by decide),
        State.pmuAdd_fld _ _ _ _ _ _ _ _ rfl]
  case start =>
    let a := s.pmuAdd 0x041 p
    have fld (f : Fld) (i j : Nat) (hf : f.reg.reported = false) : a.fld f i j = s.fld f i j := s.pmuAdd_fld _ _ _ _ f i j hf
    have flag (f : Fld) (i j : Nat) (hf : f.reg.reported = false) : a.flag f i j = s.flag f i j := s.pmuAdd_flag _ _ _ _ f i j hf
    have opens : a.frameStart p (a.vcOf p g.vc.toNat) g.wc.toNat = _ := a.frameStart_only p (a.vcOf p g.vc.toNat) g.wc.toNat e st he
      (fun x hx => (s.pmuAdd_openAt _ _ _ _ p x).trans (closed x hx)) ((flag _ _ _ rfl).trans en)
      ((fld _ _ _ rfl).trans (vc.trans (s.pmuAdd_vcOf _ _ _ _ p _).symm)) (fun x hx other => (flag _ _ _ rfl).trans (only x hx other))
      ((fld _ _ _ rfl).trans stream) ((fld _ _ _ rfl).trans free)
    have acts : a.shortActs p g = a.frameStart p (a.vcOf p g.vc.toNat) g.wc.toNat := by
      simp only [State.shortActs, dt]
    obtain ⟨-, bound⟩ := a.bindFrame_free st ((fld _ _ _ rfl).trans free)
    have view : (a.bindFrame st).1.openView = s.openView := bound.trans (s.pmuAdd_openView _ _ _ _)
    obtain ⟨ofStream, size, fmt⟩ := State.frameOpened_of_openView view p e g.wc.toNat (a.freeFrame st)
    rw [stream] at ofStream size fmt
    let o := (a.bindFrame st).1.frameOpened p e g.wc.toNat (a.freeFrame st)
    have frame : o.frame = (a.freeFrame st).frame := rfl
    have raster : a.strmRaster st = s.strmRaster st := fld _ _ _ rfl
    have now : o.frame = (s.ras.get (s.strmRaster st)).frame := by
      rw [frame, State.freeFrame, raster, State.pmuAdd_ras]
    refine ⟨(a.bindFrame st).1.withOpen p e o st, o, ?_, State.withOpen_openAt _ _ _ _ _, ofStream, now, rfl, size, fmt, rfl, rfl, rfl⟩
    rw [frame, ← opens, ← acts]
    exact congrArg Host.Outcome.next (s.shortPacket_good p h g receives good)
  case fend =>
    have acts : (s.pmuAdd 0x041 p).shortActs p g = (s.pmuAdd 0x041 p).closeFrames p (fun o => o.vc == s.vcOf p g.vc.toNat) := by
      simp only [State.shortActs, dt, State.pmuAdd_vcOf]
    exact congrArg Host.Outcome.next ((s.shortPacket_good p h g receives good).trans acts)
  case line =>
    have acts : (s.pmuAdd 0x041 p).shortActs p g = (s.pmuAdd 0x041 p).lineStarts p (s.vcOf p g.vc.toNat) g.wc.toNat := by
      simp only [State.shortActs, dt, State.pmuAdd_vcOf]
    have isOpen' : (s.pmuAdd 0x041 p).openAt p e = some o := (s.pmuAdd_openAt _ _ _ _ p e).trans isOpen
    have starts := (s.pmuAdd 0x041 p).lineStarts_only p (s.vcOf p g.vc.toNat) g.wc.toNat e o he isOpen' vc
      (fun x hx other => (s.pmuAdd_openAt _ _ _ _ p x).trans (only x hx other)) numbered pos next
    exact ⟨_, congrArg Host.Outcome.next ((s.shortPacket_good p h g receives good).trans (acts.trans starts)), State.modOpen_openAt _ _ _ _ _ isOpen'⟩
  case lend =>
    have acts : (s.pmuAdd 0x041 p).shortActs p g = s.pmuAdd 0x041 p := by
      simp only [State.shortActs, dt]
    exact ⟨_, congrArg Host.Outcome.next ((s.shortPacket_good p h g receives good).trans acts), s.pmuAdd_quiet _ _ _ _, s.pmuAdd_ports _ _ _ _,
      s.pmuAdd_pool _ _ _ _⟩
end Sys2Proof.Machine
end

section
/-! PROOFS. The long packets of a port. -/
namespace Sys2Proof.Machine

/-- The counts of a long packet, before its header is looked at. -/
def State.sawPacket (s : State) (p : Nat) (k : LongPacket) : State := (s.pmuAdd 0x040 p).pmuAdd 0x043 p (ceilDiv k.payload.length 64)

theorem State.sawPacket_flag (s : State) (p : Nat) (k : LongPacket) (f : Fld) (i j : Nat) (h : f.reg.reported = false) :
    (s.sawPacket p k).flag f i j = s.flag f i j := (State.pmuAdd_flag _ _ _ _ _ _ _ _ h).trans (State.pmuAdd_flag _ _ _ _ _ _ _ _ h)

theorem State.sawPacket_fld (s : State) (p : Nat) (k : LongPacket) (f : Fld) (i j : Nat) (h : f.reg.reported = false) :
    (s.sawPacket p k).fld f i j = s.fld f i j := (State.pmuAdd_fld _ _ _ _ _ _ _ _ h).trans (State.pmuAdd_fld _ _ _ _ _ _ _ _ h)

theorem State.sawPacket_ports (s : State) (p : Nat) (k : LongPacket) : (s.sawPacket p k).ports = s.ports :=
  (State.pmuAdd_ports _ _ _ _ _).trans (State.pmuAdd_ports _ _ _ _ _)

theorem State.sawPacket_pool (s : State) (p : Nat) (k : LongPacket) : (s.sawPacket p k).pool = s.pool :=
  (State.pmuAdd_pool _ _ _ _ _).trans (State.pmuAdd_pool _ _ _ _ _)

theorem State.sawPacket_openAt (s : State) (p : Nat) (k : LongPacket) (q e : Nat) : (s.sawPacket p k).openAt q e = s.openAt q e :=
  congrArg (fun t : Tbl Port => (t.get q).opens.get e) (s.sawPacket_ports p k)

theorem State.sawPacket_entryOf (s : State) (p : Nat) (k : LongPacket) (vc dt : Nat) : (s.sawPacket p k).entryOf p vc dt = s.entryOf p vc dt := by
  unfold State.entryOf
  congr 1
  funext e
  rw [State.sawPacket_flag _ _ _ F.ING_MAP.EN _ _ rfl, State.sawPacket_fld _ _ _ F.ING_MAP.VC _ _ rfl, State.sawPacket_fld _ _ _ F.ING_MAP.DT _ _ rfl]

theorem State.sawPacket_vcOf (s : State) (p : Nat) (k : LongPacket) (v : Nat) : (s.sawPacket p k).vcOf p v = s.vcOf p v := by
  unfold State.vcOf
  rw [State.sawPacket_flag _ _ _ _ _ _ rfl]

theorem exec_longPacket_idle (s : State) (p : Fin 30) (k : LongPacket) (idle : s.injIdle) :
    exec (.longPacket p k) s = .next (doLongPacket p k s) := by
  have passes : s.passPacket p k = doLongPacket p k s := by
    unfold State.passPacket
    rw [s.inject_idle 2 p (.packet k) idle]
    rfl
  exact congrArg Host.Outcome.next passes

theorem doLongPacket_lost (s : State) (p : Nat) (k : LongPacket) (receives : s.receives p = true)
    (bad : checkHeader (s.flag F.ING_PORT_CTRL.VCX_EN p) k.hdr = none) : doLongPacket p k s =
      ((((s.sawPacket p k).setFlag F.ING_PORT_STAT.HDR_UNCORR true p).count F.ING_PORT_CNT0.HDR_UNCORR p).pmuAdd 0x045 p).lostHeader p := by
  rw [← s.sawPacket_flag p k F.ING_PORT_CTRL.VCX_EN p 0 rfl] at bad
  unfold doLongPacket
  rw [if_neg (not_not_intro receives)]
  change State.withHeader p k.hdr _ (s.sawPacket p k) = _
  unfold State.withHeader
  rw [bad]

theorem doLongPacket_good (s : State) (p : Nat) (k : LongPacket) (g : CsiHeader) (receives : s.receives p = true)
    (good : checkHeader (s.flag F.ING_PORT_CTRL.VCX_EN p) k.hdr = some (g, false)) (null : g.dt.toNat ≠ 0x10) (blank : g.dt.toNat ≠ 0x11)
    (gap : s.flag F.ING_PORT_CTRL.CSE_EN p = false ∨ k.cseGap = false) : doLongPacket p k s =
      match s.entryOf p (s.vcOf p g.vc.toNat) g.dt.toNat with
      | none => ((s.sawPacket p k).setFlag F.ING_PORT_STAT.UNMAPPED true p).count F.ING_PORT_CNT1.UNMAPPED p
      | some e => (s.sawPacket p k).mappedPacket p e { k with hdr := g } false false := by
  rw [← s.sawPacket_flag p k F.ING_PORT_CTRL.VCX_EN p 0 rfl] at good
  rw [← s.sawPacket_flag p k F.ING_PORT_CTRL.CSE_EN p 0 rfl] at gap
  have whole : ¬ ((s.sawPacket p k).flag F.ING_PORT_CTRL.CSE_EN p = true ∧ k.cseGap = true) := fun ⟨en, cut⟩ => by
    rcases gap with off | ok
    · simp [off] at en
    · simp [ok] at cut
  rw [← s.sawPacket_entryOf p k, ← s.sawPacket_vcOf p k]
  unfold doLongPacket
  rw [if_neg (not_not_intro receives)]
  change State.withHeader p k.hdr _ (s.sawPacket p k) = _
  unfold State.withHeader
  rw [good]
  exact (if_neg (not_or.mpr ⟨null, blank⟩)).trans (if_neg whole)

theorem OpenFrame.take_unnumbered (o : OpenFrame) (h : o.lsNum = false) : o.take = ({ o with count := o.count + 1 }, some o.count) := by
  unfold OpenFrame.take
  rw [if_neg (by simp [h])]

/-- Settles O18. -/
theorem longPacketsAreCheckedAndMapped : Obligations.LongPacketsAreCheckedAndMapped := by
  intro s p k receives idle a
  have saw : a = s.sawPacket p k := rfl
  refine ⟨fun bad => ?lost, fun g good null blank gap => ⟨fun unmapped => ?unmapped, fun e mapped => ⟨fun closed => ?orphan,
    fun o isOpen numbered more => ?stored⟩⟩⟩
  case lost =>
    refine ⟨_, (exec_longPacket_idle s p k idle).trans (congrArg Host.Outcome.next (doLongPacket_lost s p k receives bad)), ?_, ?_,
      ((SameRegs.refl _ _).andFlag (by repeat constructor) (by omega)).andCount (by repeat constructor) (by omega), by simp [saw]⟩
    · exact (State.flag_setFld_kind _ _ _ _ _ _ _ _ (by decide)).trans (State.flag_setFlag_same _ _ _ _ _ rfl (by decide))
    · rw [State.count, State.fld_addTo_same _ _ _ _ _ (by decide) (by decide), State.fld_setFlag_kind _ _ _ _ _ _ _ _ (by decide),
        State.sawPacket_fld _ _ _ _ _ _ rfl]
  case unmapped =>
    have acts := doLongPacket_good s p k g receives good null blank gap
    rw [unmapped] at acts
    refine ⟨_, (exec_longPacket_idle s p k idle).trans (congrArg Host.Outcome.next acts), ?_, ?_,
      ((SameRegs.refl _ _).andFlag (by repeat constructor) (by omega)).andCount (by repeat constructor) (by omega), ?_, ?_⟩
    · exact (State.flag_setFld_kind _ _ _ _ _ _ _ _ (by decide)).trans (State.flag_setFlag_same _ _ _ _ _ rfl (by decide))
    · rw [State.count, State.fld_addTo_same _ _ _ _ _ (by decide) (by decide), State.fld_setFlag_kind _ _ _ _ _ _ _ _ (by decide),
        State.sawPacket_fld _ _ _ _ _ _ rfl]
    · simp [State.sawPacket_ports]
    · simp [State.sawPacket_pool]
  case orphan =>
    have acts := doLongPacket_good s p k g receives good null blank gap
    have orphan : (s.sawPacket p k).mappedPacket p e { k with hdr := g } false false
        = ((s.sawPacket p k).setFlag F.ING_PORT_STAT.ORPHAN true p).raise 17 p := by
      unfold State.mappedPacket
      rw [State.sawPacket_openAt, closed]
      rfl
    rw [mapped] at acts
    refine ⟨_, (exec_longPacket_idle s p k idle).trans (congrArg Host.Outcome.next (acts.trans orphan)),
      State.flag_setFlag_same _ _ _ _ _ rfl (by decide),
      (SameRegs.refl _ _).andFlag (by repeat constructor) (by omega), ?_, ?_⟩
    · simp [State.sawPacket_ports]
    · simp [State.sawPacket_pool]
  case stored =>
    have acts := doLongPacket_good s p k g receives good null blank gap
    have stored : (s.sawPacket p k).mappedPacket p e { k with hdr := g } false false
        = ((s.sawPacket p k).modOpen p e (fun _ => { o with count := o.count + 1 })).storeLine p e o.count { k with hdr := g } false false := by
      unfold State.mappedPacket
      rw [State.sawPacket_openAt, isOpen]
      simp only [o.take_unnumbered numbered, if_pos more]
    rw [mapped] at acts
    refine ⟨_, (exec_longPacket_idle s p k idle).trans (congrArg Host.Outcome.next (acts.trans stored)), ?_, (SameRegs.refl _ _).of_regs rfl,
      s.sawPacket_pool p k⟩
    unfold State.openAt at isOpen ⊢
    rw [State.modOpen, State.modPort, Tbl.get_upd_same, Tbl.get_upd_same, State.sawPacket_ports, isOpen]
    rfl
end Sys2Proof.Machine
end

section
/-! PROOFS. Substitutes, overdue frames, the occupancy word and the release of a line. -/
namespace Sys2Proof.Machine

theorem State.modLine_line (s : State) (d : Nat) (f : PLine → PLine) (l : PLine) (h : s.line d = some l) : (s.modLine d f).line d = some (f l) := by
  unfold State.line at h ⊢
  rw [State.modLine, State.modPool, Tbl.get_upd_same, h]
  rfl

theorem State.modLine_line_other (s : State) (d x : Nat) (f : PLine → PLine) (h : x ≠ d) : (s.modLine d f).line x = s.line x :=
  Tbl.get_upd_other _ _ _ _ h

/-- A line that has left the pool is gone, whichever line inherits its granules. -/
theorem State.dropLine_line (s : State) (d : Nat) : (s.dropLine d).line d = none := by
  unfold State.dropLine
  extract_lets t
  have gone : t.line d = none := Tbl.get_set_same _ _ _
  split
  · extract_lets heir kept left freed
    have still : kept.line d = none := by
      unfold kept
      generalize heir = o
      cases o with
      | none => exact gone
      | some c =>
        by_cases same : d = c.1
        · dsimp only
          rw [State.line, State.modLine, State.modPool, ← same, Tbl.get_upd_same]
          exact congrArg (Option.map _) gone
        · exact (t.modLine_line_other c.1 d _ same).trans gone
    split
    · exact (congrArg (fun p : Pool => p.dir.get d) (State.pmuAdd_pool _ _ _ _ _)).trans still
    · exact still
  · exact gone

/-- A lost lock leaves what a stream shows of its missed frames. -/
theorem State.loseLock_keeps (s : State) (st : Nat) :
    (s.loseLock st).flag F.RAS_STRM_STAT.MISSED st = s.flag F.RAS_STRM_STAT.MISSED st
    ∧ (s.loseLock st).fld F.RAS_STRM_MEAS.RATIO_MEAS st = s.fld F.RAS_STRM_MEAS.RATIO_MEAS st
    ∧ (s.loseLock st).fld F.RAS_STRM_STAT.MISS_CNT st = s.fld F.RAS_STRM_STAT.MISS_CNT st
    ∧ ((s.loseLock st).strm.get st).frames = (s.strm.get st).frames := by
  unfold State.loseLock
  rw [State.flag_of_regs (State.modStrm_regs _ _ _), State.fld_of_regs (State.modStrm_regs _ _ _), State.fld_of_regs (State.modStrm_regs _ _ _)]
  refine ⟨?_, ?_, ?_, ?_⟩
  · simp (disch := decide) only [State.flag_setFld_beside, State.flag_setFlag_beside, State.pmuAdd_flag]
  · simp (disch := decide) only [State.fld_setFld_kind, State.fld_setFlag_kind, State.pmuAdd_fld]
  · simp (disch := decide) only [State.fld_setFld_beside, State.fld_setFlag_beside, State.pmuAdd_fld]
  · rw [State.modStrm_strm, Tbl.get_upd_same, State.setFld_strm, State.setFlag_strm, State.setFld_strm, State.pmuAdd_strm]

/-- What is noted of a missed frame before its stream's lock is looked at. -/
def State.noteMissed (st : Nat) (s : State) : State :=
  (((s.setFlag F.RAS_STRM_STAT.MISSED true st).count F.RAS_STRM_STAT.MISS_CNT st).pmuAdd 0x04D (s.portOf st)).setFld F.RAS_STRM_MEAS.RATIO_MEAS 0 st

theorem State.missFrame_eq (s : State) (st : Nat) (t : TrigFrame) : s.missFrame st t =
    if (s.noteMissed st).spansJump st t then s.noteMissed st
    else if (s.noteMissed st).locked st then (s.noteMissed st).loseLock st else (s.noteMissed st).setFld F.RAS_STRM_STAT.IN_WIN 0 st := rfl

theorem State.noteMissed_shows (s : State) (st : Nat) : (s.noteMissed st).flag F.RAS_STRM_STAT.MISSED st = true
    ∧ (s.noteMissed st).fld F.RAS_STRM_MEAS.RATIO_MEAS st = 0
    ∧ (s.noteMissed st).fld F.RAS_STRM_STAT.MISS_CNT st = min F.RAS_STRM_STAT.MISS_CNT.max (s.fld F.RAS_STRM_STAT.MISS_CNT st + 1)
    ∧ ((s.noteMissed st).strm.get st).frames = (s.strm.get st).frames := by
  unfold State.noteMissed
  refine ⟨?_, ?_, ?_, ?_⟩
  · simp (disch := decide) only [State.count, State.addTo, State.flag_setFld_kind, State.pmuAdd_flag, State.flag_setFld_beside,
      State.flag_setFlag_same]
  · simp (disch := decide) only [State.fld_setFld_same, Nat.zero_mod]
  · simp (disch := decide) only [State.count, State.fld_setFld_kind, State.pmuAdd_fld, State.fld_addTo_same, State.fld_setFlag_beside]
  · simp

/-- What a stream shows of a missed frame: MISSED, its count and a ratio of 0. -/
theorem State.missFrame_shows (s : State) (st : Nat) (t : TrigFrame) :
    (s.missFrame st t).flag F.RAS_STRM_STAT.MISSED st = true ∧ (s.missFrame st t).fld F.RAS_STRM_MEAS.RATIO_MEAS st = 0
    ∧ (s.missFrame st t).fld F.RAS_STRM_STAT.MISS_CNT st = min F.RAS_STRM_STAT.MISS_CNT.max (s.fld F.RAS_STRM_STAT.MISS_CNT st + 1)
    ∧ ((s.missFrame st t).strm.get st).frames = (s.strm.get st).frames := by
  obtain ⟨flag, ratio, cnt, frames⟩ := s.noteMissed_shows st
  rw [s.missFrame_eq st t]
  split
  · exact ⟨flag, ratio, cnt, frames⟩
  · split
    · obtain ⟨flag', ratio', cnt', frames'⟩ := (s.noteMissed st).loseLock_keeps st
      exact ⟨flag'.trans flag, ratio'.trans ratio, cnt'.trans cnt, frames'.trans frames⟩
    · simp (disch := decide) only [State.flag_setFld_beside, State.fld_setFld_beside, State.fld_setFld_kind, State.setFld_strm]
      exact ⟨flag, ratio, cnt, frames⟩

theorem State.settleMissed_late (s : State) (st : Nat) (f : TrigFrame) (triggered : s.trigMode st ≠ 0) (frames : (s.strm.get st).frames = [f])
    (fresh : f.missed = false) (late : s.overdue st f.frame = true) : s.settleMissed st = if f.bound then (s.missFrame st f).endTrig st f.frame
      else (s.missFrame st f).modStrm st
        (fun q => { q with frames := q.frames.map (fun u => if u.frame = f.frame then { u with missed := true } else u) }) := by
  have due : ((s.strm.get st).frames.filter (fun t => !t.missed && s.overdue st t.frame)) = [f] := by simp [frames, fresh, late]
  unfold State.settleMissed
  rw [if_neg triggered, due]
  rfl

theorem State.ovfUse_of_pool {s t : State} (h : t.pool = s.pool) (c : Nat) : t.ovfUse c = s.ovfUse c := by
  unfold State.ovfUse State.dirLines
  rw [h]

theorem doFrameTimeout_open (s : State) (st p e : Nat) (o : OpenFrame) (mapped : s.mapOf st = some (p, e)) (isOpen : s.openAt p e = some o) :
    doFrameTimeout st s = (if s.overdue st o.frame then s.closeFrame p e else s).settleMissed st := by
  unfold doFrameTimeout
  rw [mapped]
  dsimp only
  rw [isOpen]

theorem doFrameTimeout_early (s : State) (st : Nat)
    (early : ∀ p e o, s.mapOf st = some (p, e) → s.openAt p e = some o → s.overdue st o.frame = false) :
    doFrameTimeout st s = s.settleMissed st := by
  cases mapped : s.mapOf st with
  | none =>
    unfold doFrameTimeout
    rw [mapped]
  | some c =>
    obtain ⟨p, e⟩ := c
    cases isOpen : s.openAt p e with
    | none =>
      unfold doFrameTimeout
      rw [mapped]
      dsimp only
      rw [isOpen]
    | some o => rw [doFrameTimeout_open s st p e o mapped isOpen, if_neg (by simp [early p e o mapped isOpen])]

theorem doSubstitutePublished_first (s : State) (st l d : Nat) (q : PLine)
    (first : oldestLine (s.dirLines.filter (fun c => c.2.kind == .raw && c.2.owner == st && c.2.line == l && c.2.pendingSub)) = some (d, q)) :
    doSubstitutePublished st l s =
      ((s.modLine d (fun q => { q with pendingSub := false })).publishAll st).each
        (((s.modLine d (fun q => { q with pendingSub := false })).publishAll st).products.filter
          (fun i => (pdbStreams (((s.modLine d (fun q => { q with pendingSub := false })).publishAll st).product i).pdb).any (· == st)))
        (fun i s => s.tryEnds i) := by
  unfold doSubstitutePublished
  rw [first]

/-- Settles O19. -/
theorem linesAreSubstitutedTimedOutAndReleased : Obligations.LinesAreSubstitutedTimedOutAndReleased := by
  refine fun s => ⟨fun st l => ⟨fun none => ?nothing, fun d q first => ?publish⟩,
    fun st => ⟨fun p e o mapped isOpen late => ?close, fun early => ?early,
    fun free => ?free, fun f triggered frames fresh late => ?miss⟩, ?broadcast,
      fun d i => ⟨fun stays => ?stays, fun l isLine raw holds done => ?release⟩,
    fun d l isLine published holders hold ledger => ?gone⟩
  case nothing =>
    refine congrArg Host.Outcome.next ?_
    unfold doSubstitutePublished
    rw [none]
  case publish =>
    exact ⟨s.modLine d (fun q => { q with pendingSub := false }), _, congrArg Host.Outcome.next
      (doSubstitutePublished_first s st l.toNat d q first), rfl,
      fun r isLine => s.modLine_line d _ r isLine, fun x other => s.modLine_line_other d x _ other, rfl⟩
  case close =>
    refine congrArg Host.Outcome.next ((doFrameTimeout_open s st p e o mapped isOpen).trans ?_)
    rw [if_pos late]
  case early => exact congrArg Host.Outcome.next (doFrameTimeout_early s st early)
  case free => exact if_pos free
  case miss =>
    have settled := s.settleMissed_late st f triggered frames fresh late
    obtain ⟨flag, ratio, cnt, kept⟩ := s.missFrame_shows st f
    rw [frames] at kept
    rw [settled]
    cases bound : f.bound
    · rw [if_neg Bool.false_ne_true]
      refine ⟨?_, (State.flag_of_regs (State.modStrm_regs _ _ _) _ _ _).trans flag, (State.fld_of_regs (State.modStrm_regs _ _ _) _ _ _).trans ratio,
        (State.fld_of_regs (State.modStrm_regs _ _ _) _ _ _).trans cnt⟩
      rw [State.modStrm_strm, Tbl.get_upd_same, kept]
      simp [bound]
    · rw [if_pos rfl]
      refine ⟨?_, (State.flag_of_regs (State.modStrm_regs _ _ _) _ _ _).trans flag, (State.fld_of_regs (State.modStrm_regs _ _ _) _ _ _).trans ratio,
        (State.fld_of_regs (State.modStrm_regs _ _ _) _ _ _).trans cnt⟩
      rw [State.endTrig, State.modStrm_strm, Tbl.get_upd_same, kept]
      simp
  case broadcast =>
    refine ⟨doOccupancyBroadcast s, rfl, ?_, ?_, ?_, ?_, ?_⟩ <;> unfold doOccupancyBroadcast
    · rw [State.fld_of_regs (State.modPool_regs _ _)]
      simp (disch := decide) only [State.fld_setFld_kind, State.fld_setFld_same]
    · rw [State.fld_of_regs (State.modPool_regs _ _)]
      simp (disch := decide) only [State.fld_setFld_beside, State.fld_setFld_same]
    · simp only [State.modPool, State.setFld_pool]
      rw [State.ovfUse_of_pool (t := State.setFld _ _ _ _ _) (s := s), State.ovfUse_of_pool (t := State.setFld _ _ _ _ _) (s := s)] <;> simp
    · exact ((((SameRegs.refl _ s).andFld (by repeat constructor) (by omega)).andFld (by repeat constructor) (by omega)).andFld
        (by repeat constructor) (by omega)).of_regs (State.modPool_regs _ _)
    · simp [State.modPool]
  case stays =>
    have same : doLineRelease d.toNat i.toNat s = s := by
      unfold doLineRelease
      split
      · rfl
      · rename_i l isLine
        refine if_neg fun ⟨raw, holds, done⟩ => ?_
        rcases stays l isLine with other | free | needs
        · exact other raw
        · obtain ⟨x, hx, same⟩ := List.any_eq_true.mp holds
          exact free (beq_iff_eq.mp same ▸ hx)
        · exact done needs
    exact congrArg (fun t : State => Host.Outcome.next t.retryCommits) same
  case release =>
    have acts : doLineRelease d.toNat i.toNat s = s.release d.toNat i.toNat := by
      unfold doLineRelease
      rw [isLine]
      exact if_pos ⟨raw, List.any_eq_true.mpr ⟨_, holds, beq_self_eq_true _⟩, by simp [done]⟩
    exact ⟨_, congrArg (fun t : State => Host.Outcome.next t.retryCommits) acts, s.modLine_line _ _ l isLine,
      fun x other => s.modLine_line_other _ x _ other,
      rfl⟩
  case gone =>
    have leaves : s.settle d = s.dropLine d := by
      unfold State.settle
      rw [isLine]
      exact if_pos ⟨published, holders, by simp [hold], by simp [ledger]⟩
    rw [leaves]
    exact s.dropLine_line d
end Sys2Proof.Machine
end

section
/-! PROOFS. The tile former's next tile, and the staging of a queue's next tile. -/
namespace Sys2Proof.Machine

/-- The state without what the reads of a tile touch: the registers and counters of the pool's errors and of the petals, and the seals. -/
def State.besideReads (s : State) : State := { s with regs := {}, pmu := {}, seals := {} }

theorem State.pmuAdd_besideReads (s : State) (ev inst n : Nat) (c : Option Nat) : (s.pmuAdd ev inst n c).besideReads = s.besideReads :=
  congrArg (fun t : State => { t with seals := {} }) (s.pmuAdd_rest ev inst n c)

theorem State.poolRead_besideReads (s : State) (n st : Nat) : (s.poolRead n st).besideReads = s.besideReads := by
  unfold State.poolRead State.poolCorrected
  split
  · rfl
  · rw [State.pmuAdd_besideReads]
    rfl

theorem State.reportFrags_besideReads (s : State) (i : Nat) (q : PFrame) (t : Tile) : (s.reportFrags i q t).besideReads = s.besideReads := by
  refine State.each_keeps State.besideReads _ _ _ fun u v => ?_
  dsimp only
  split
  · rfl
  · split
    · rfl
    · split
      · rfl
      · exact State.each_keeps State.besideReads _ _ _ fun _ _ => rfl

theorem State.stage_besideReads (s : State) (t : Tile) : (s.stage t).1.besideReads = s.besideReads := by
  unfold State.stage
  split
  · rfl
  · split
    · rfl
    · refine (State.pmuAdd_besideReads _ _ _ _ _).trans ?_
      split
      · rfl
      · exact State.reportFrags_besideReads _ _ _ _

theorem State.stage_staged (s : State) (t : Tile) (q : PFrame) (fresh : t.staged = false) (slow : t.fast = false)
    (frame : s.pframe t.prd t.frame = some q) : (s.stage t).2.staged = true ∧ (s.stage t).2.seq = t.seq := by
  unfold State.stage
  rw [if_neg (by simp [fresh, slow]), frame]
  exact ⟨rfl, rfl⟩

theorem State.read_besideReads {α : Type} {s t : State} (h : t.besideReads = s.besideReads) (obs : State → α)
    (ho : ∀ u : State, obs u.besideReads = obs u) : obs t = obs s := (ho t).symm.trans ((congrArg obs h).trans (ho s))

theorem doTileStage_first (s : State) (b k n : Nat) (t : Tile) (clocked : s.blmClocked b = true) (room : (s.blm.get b).foots < 64)
    (first : (((s.blm.get b).q.get k).take 2).find? (fun x => !x.staged) = some t) : doTileStage b k n s =
      ((s.poolRead n (s.srcOf t)).stage t).1.modBlm b (fun x => { x with q := x.q.upd k (·.map
        (fun u => if u.seq = t.seq then ((s.poolRead n (s.srcOf t)).stage t).2 else u)) }) := by
  unfold doTileStage
  rw [if_neg (by rw [clocked]; simp; omega), first]

/-- Settles O20. -/
theorem tilesAreEmittedAndStaged : Obligations.TilesAreEmittedAndStaged := by
  refine fun s => ⟨fun i q u calm runs first up room claimed => ?emit, fun i q calm runs first down => ?abandon, fun idle => ?idle,
    fun b k n t q clocked room first slow frame => ?stage, fun b k n idle => ?unstaged⟩
  case emit =>
    refine congrArg Host.Outcome.next ?_
    unfold doTileEmit
    rw [if_neg (by simp [calm, runs]), first]
    simp only [up, room, claimed, Bool.false_eq_true, if_false, if_true]
  case abandon =>
    refine congrArg Host.Outcome.next ?_
    unfold doTileEmit
    rw [if_neg (by simp [calm, runs]), first]
    simp only [down, if_true]
  case idle =>
    refine congrArg Host.Outcome.next ?_
    unfold doTileEmit
    rcases idle with safe | stopped | none
    · exact if_pos (.inl safe)
    · exact if_pos (.inr (by simp [stopped]))
    · rw [none, ite_self]
  case stage =>
    let g := (s.poolRead n.toNat (s.srcOf t)).stage t
    have fresh : t.staged = false := by simpa using List.find?_some first
    have view : g.1.besideReads = s.besideReads := (State.stage_besideReads _ _).trans (State.poolRead_besideReads _ _ _)
    have read {α : Type} := State.read_besideReads (α := α) view
    have prd : (s.poolRead n.toNat (s.srcOf t)).prd = s.prd := State.read_besideReads (State.poolRead_besideReads _ _ _) State.prd fun _ => rfl
    have frame' : (s.poolRead n.toNat (s.srcOf t)).pframe t.prd t.frame = some q := by
      unfold State.pframe State.product at frame ⊢
      rw [prd, frame]
    obtain ⟨staged, seq⟩ := State.stage_staged _ t q fresh slow frame'
    have blm : g.1.blm = s.blm := read State.blm fun _ => rfl
    refine ⟨_, congrArg Host.Outcome.next (doTileStage_first s b k n.toNat t clocked room first), staged, seq, ?_, fun c other => ?_,
      read State.pool fun _ => rfl, read State.prd fun _ => rfl, read State.tf fun _ => rfl, read State.out fun _ => rfl⟩
    · rw [State.modBlm, Tbl.get_upd_same, Tbl.get_upd_same, blm]
    · rw [State.modBlm, Tbl.get_upd_other _ _ _ _ other, blm]
  case unstaged =>
    refine congrArg Host.Outcome.next ?_
    unfold doTileStage
    rcases idle with off | full | none
    · exact if_pos (.inl (by simp [off]))
    · exact if_pos (.inr full)
    · rw [none, ite_self]
end Sys2Proof.Machine
end

section
/-! PROOFS. The tile a free petal takes, and the steal across blooms. -/
namespace Sys2Proof.Machine

theorem Bloom.dropFoots_run (n : Nat) (x : Bloom) : (x.dropFoots n).run = x.run := by
  induction n generalizing x with
  | zero => rfl
  | succ n ih =>
    unfold Bloom.dropFoots
    split
    · exact ih _
    · rfl

theorem Bloom.trimFoots_run (x : Bloom) : x.trimFoots.run = x.run := Bloom.dropFoots_run _ _

/-- The state without what a petal that takes a tile touches, but for the tile former's budget. -/
def State.besidePetals (s : State) : State := { s with regs := {}, pmu := {}, seals := {}, blm := {} }

theorem State.pmuAdd_besidePetals (s : State) (ev inst n : Nat) (c : Option Nat) : (s.pmuAdd ev inst n c).besidePetals = s.besidePetals :=
  congrArg (fun t : State => { t with seals := {}, blm := {} }) (s.pmuAdd_rest ev inst n c)

theorem State.modBlm_besidePetals (s : State) (b : Nat) (f : Bloom → Bloom) : (s.modBlm b f).besidePetals = s.besidePetals := rfl

theorem State.setFld_besidePetals (s : State) (f : Fld) (v i j : Nat) : (s.setFld f v i j).besidePetals = s.besidePetals := rfl

theorem State.stage_besidePetals (s : State) (t : Tile) : (s.stage t).1.besidePetals = s.besidePetals :=
  congrArg (fun t : State => { t with blm := {} }) (s.stage_besideReads t)

theorem State.payTile_besidePetals (s : State) (b : Nat) (t : Tile) : (s.payTile b t).besidePetals = s.besidePetals := by
  unfold State.payTile
  split
  · rfl
  · dsimp only
    split
    · exact (State.pmuAdd_besidePetals _ _ _ _ _).trans (State.modBlm_besidePetals _ _ _)
    · exact (State.pmuAdd_besidePetals _ _ _ _ _).trans ((State.pmuAdd_besidePetals _ _ _ _ _).trans (State.modBlm_besidePetals _ _ _))

theorem State.openCtx_besidePetals (s : State) (u : Nat) (cs : List SealCtx) : (s.openCtx u cs).besidePetals = s.besidePetals :=
  State.each_keeps State.besidePetals _ _ _ fun _ _ => rfl

theorem State.when_besidePetals (s : State) (c : Bool) (f : State → State) (h : (f s).besidePetals = s.besidePetals) :
    (s.when c f).besidePetals = s.besidePetals := by
  cases c
  · rfl
  · exact h

/-- A petal that starts a tile leaves the pool, the products and what was sent, and gives up its turn among the thieves. -/
theorem State.startTile_besidePetals (s : State) (b k : Nat) (t : Tile) : (s.startTile b k t).besidePetals
    = (s.modTf (fun x => { x with thieves := x.thieves.filter (· != 32 * b + k) })).besidePetals := by
  unfold State.startTile
  extract_lets g opened noted
  have kept : noted.besidePetals = s.besidePetals :=
    (State.when_besidePetals _ _ _ (State.pmuAdd_besidePetals _ _ _ _ _)).trans ((State.openCtx_besidePetals _ _ _).trans
      ((State.payTile_besidePetals _ _ _).trans (State.stage_besidePetals _ _)))
  exact congrArg (fun u : State => u.modTf (fun x => { x with thieves := x.thieves.filter (· != 32 * b + k) })) kept

theorem State.takeTile_besidePetals (s : State) (b : Nat) (t : Tile) : (s.takeTile b t).besidePetals = s.besidePetals :=
  (State.modBlm_besidePetals _ _ _).trans (State.modBlm_besidePetals _ _ _)

/-- Staging a tile gives it no other place. -/
theorem State.stage_place (s : State) (t : Tile) : (s.stage t).2.seq = t.seq ∧ (s.stage t).2.prd = t.prd ∧ (s.stage t).2.frame = t.frame
    ∧ (s.stage t).2.row = t.row ∧ (s.stage t).2.col = t.col ∧ (s.stage t).2.stolen = t.stolen ∧ (s.stage t).2.bloom = t.bloom := by
  unfold State.stage
  split
  · exact ⟨rfl, rfl, rfl, rfl, rfl, rfl, rfl⟩
  · split <;> exact ⟨rfl, rfl, rfl, rfl, rfl, rfl, rfl⟩

theorem State.startTile_run (s : State) (b k : Nat) (t : Tile) :
    ((s.startTile b k t).blm.get b).run.get k = some { (s.stage t).2 with paid := true, preempted := false, seals := [] } := by
  unfold State.startTile
  extract_lets g opened noted
  have run : ((noted.modBlm b (fun x => Bloom.trimFoots { x with
      run := x.run.set k (some { g.2 with paid := true, preempted := false, seals := [] }) })).blm.get b).run.get k
        = some { g.2 with paid := true, preempted := false, seals := [] } := by
    rw [State.modBlm, Tbl.get_upd_same, Bloom.trimFoots_run, Tbl.get_set_same]
  exact run

theorem doPetalPick_best (s : State) (p : Nat) (t : Tile) (starts : s.canStart (p / 32) = true) (free : (s.blm.get (p / 32)).run.get (p % 32) = none)
    (best : s.bestIn (p / 32) (p % 32) = some t) : doPetalPick p s = if s.mustWait (p / 32) t then s
      else ((s.when (!t.fast && t.slot != p % 32) (·.pmuAdd 0x0C5 (p / 32) 1 (some t.cls))).takeTile (p / 32) t).startTile (p / 32) (p % 32) t := by
  unfold doPetalPick
  rw [if_neg (by simp [starts, free]), best]

theorem doPetalPick_steal (s : State) (p : Nat) (starts : s.canStart (p / 32) = true) (free : (s.blm.get (p / 32)).run.get (p % 32) = none)
    (best : s.bestIn (p / 32) (p % 32) = none) : doPetalPick p s = s.steal (p / 32) (p % 32) := by
  unfold doPetalPick
  rw [if_neg (by simp [starts, free]), best]

theorem doPetalPick_idle (s : State) (p : Nat) (idle : s.canStart (p / 32) = false ∨ (s.blm.get (p / 32)).run.get (p % 32) ≠ none) :
    doPetalPick p s = s := by
  refine if_pos ?_
  rcases idle with off | busy
  · exact .inl (by simp [off])
  · exact .inr (Option.isSome_iff_ne_none.mpr busy)

theorem doCrossBloomSteal_idle (s : State) (p : Nat) (h : s.isThief p = false) : doCrossBloomSteal p s = s := if_neg (by simp [h])

/-- What a granted steal does before the tile starts: the budget pays for it, and both blooms count it. -/
def State.stolen (b v : Nat) (t : Tile) (s : State) : State :=
  (((((s.modTf (fun x => { x with budget := x.budget - 100 * s.tileBytes t, xBytes := x.xBytes + s.tileBytes t })).takeTile v t).count
    F.BLM_CNT0.STEAL_IN b).count F.BLM_CNT0.STEAL_OUT v).pmuAdd 0x0C6 b 1 (some t.cls)).pmuAdd 0x0C7 b (ceilDiv (s.tileBytes t) 64) (some t.cls)

theorem State.stolen_besidePetals (s : State) (b v : Nat) (t : Tile) : (s.stolen b v t).besidePetals
    = (s.modTf (fun x => { x with budget := x.budget - 100 * s.tileBytes t, xBytes := x.xBytes + s.tileBytes t })).besidePetals :=
  (State.pmuAdd_besidePetals _ _ _ _ _).trans ((State.pmuAdd_besidePetals _ _ _ _ _).trans
    ((State.setFld_besidePetals _ _ _ _ _).trans ((State.setFld_besidePetals _ _ _ _ _).trans (State.takeTile_besidePetals _ _ _))))

theorem State.startTile_tf (s : State) (b k : Nat) (t : Tile) :
    (s.startTile b k t).tf = { s.tf with thieves := s.tf.thieves.filter (· != 32 * b + k) } :=
  (congrArg State.tf (s.startTile_besidePetals b k t) :)

theorem State.stolen_tf (s : State) (b v : Nat) (t : Tile) :
    (s.stolen b v t).tf = { s.tf with budget := s.tf.budget - 100 * s.tileBytes t, xBytes := s.tf.xBytes + s.tileBytes t } :=
  (congrArg State.tf (s.stolen_besidePetals b v t) :)

theorem State.steal_offer (s : State) (p v : Nat) (t : Tile) (offer : s.stealFrom (p / 32) = some (v, t)) (affords : s.mustWait (p / 32) t = false) :
    s.steal (p / 32) (p % 32) = if s.tf.budget < 100 * s.tileBytes t ∨ ¬ s.thiefFirst (p / 32) t then
        if s.tf.thieves.any (· == p) then s
        else (s.count F.BLM_XSTEAL_STAT.CAP_WAIT).modTf (fun x => { x with thieves := x.thieves ++ [p] })
      else (s.stolen (p / 32) v t).startTile (p / 32) (p % 32) { t with stolen := true, bloom := p / 32 } := by
  have whole : 32 * (p / 32) + p % 32 = p := Nat.div_add_mod p 32
  unfold State.steal
  rw [offer]
  simp only [affords, Bool.false_eq_true, if_false, whole]
  rfl

/-- Settles O21. -/
theorem petalsTakeTheBestTileOrSteal : Obligations.PetalsTakeTheBestTileOrSteal := by
  refine fun s p => ⟨fun t starts free best => ⟨fun waits => ?waits, fun affords => ?picks, ?holds⟩,
    fun v t starts free best offer affords => ⟨?same, fun denied => ⟨fun listed => ?again, fun fresh => ?queues⟩, fun budget turn => ?steals⟩,
    fun idle => ⟨?idle, ?none⟩⟩
  case waits =>
    exact congrArg Host.Outcome.next ((doPetalPick_best s p t starts free best).trans (if_pos waits))
  case picks =>
    obtain ⟨w, hw⟩ : ∃ w, w = (s.when (!t.fast && t.slot != p.val % 32)
      (·.pmuAdd 0x0C5 (p.val / 32) 1 (some t.cls))).takeTile (p.val / 32) t := ⟨_, rfl⟩
    have acts := (doPetalPick_best s p t starts free best).trans (if_neg (by simp [affords]))
    rw [← hw] at acts
    have kept : w.besidePetals = s.besidePetals := by
      rw [hw, State.takeTile_besidePetals]
      exact State.when_besidePetals _ _ _ (State.pmuAdd_besidePetals _ _ _ _ _)
    have view : (w.startTile (p.val / 32) (p.val % 32) t).besidePetals = _ := (w.startTile_besidePetals _ _ t).trans
      (congrArg (fun u : State => u.modTf (fun x => { x with thieves := x.thieves.filter (· != 32 * (p.val / 32) + p.val % 32) })) kept)
    obtain ⟨seq, prd, frame, row, col, -, -⟩ := w.stage_place t
    exact ⟨_, _, congrArg Host.Outcome.next acts, w.startTile_run _ _ t, seq, prd, frame, row, col, rfl, rfl, (congrArg State.pool view :),
      (congrArg State.prd view :), (congrArg (fun u : State => u.tf.budget) view :), (congrArg State.out view :)⟩
  case holds => exact congrArg Host.Outcome.next (doCrossBloomSteal_idle s p (by simp [State.isThief, best]))
  case same =>
    have thief : s.isThief p = true := by simp [State.isThief, starts, free, best]
    exact congrArg Host.Outcome.next ((if_pos thief).trans (doPetalPick_steal s p starts free best).symm)
  case again =>
    refine congrArg Host.Outcome.next ((doPetalPick_steal s p starts free best).trans ((s.steal_offer p v t offer affords).trans ?_))
    have waits : s.tf.thieves.any (· == p.val) = true := List.any_eq_true.mpr ⟨p.val, listed, beq_self_eq_true p.val⟩
    rw [if_pos (denied.imp id fun late => by simp [late]), if_pos waits]
  case queues =>
    refine congrArg Host.Outcome.next ((doPetalPick_steal s p starts free best).trans ((s.steal_offer p v t offer affords).trans ?_))
    rw [if_pos (denied.imp id fun late => by simp [late]), if_neg fun listed => ?_]
    obtain ⟨x, hx, same⟩ := List.any_eq_true.mp listed
    exact fresh (beq_iff_eq.mp same ▸ hx)
  case steals =>
    have acts := (doPetalPick_steal s p starts free best).trans ((s.steal_offer p v t offer affords).trans
      (if_neg (not_or.mpr ⟨by omega, not_not_intro turn⟩)))
    have whole : 32 * (p.val / 32) + p.val % 32 = p.val := Nat.div_add_mod _ _
    obtain ⟨x, hx⟩ : ∃ x : Tile, x = { t with stolen := true, bloom := p.val / 32 } := ⟨_, rfl⟩
    obtain ⟨w, hw⟩ : ∃ w, w = (s.stolen (p.val / 32) v t).startTile (p.val / 32) (p.val % 32) x := ⟨_, rfl⟩
    have view : w.besidePetals.modTf (fun _ => {}) = s.besidePetals.modTf (fun _ => {}) := by
      rw [hw, State.startTile_besidePetals]
      have beside := congrArg (fun u : State => u.modTf (fun _ => {})) (s.stolen_besidePetals (p.val / 32) v t)
      exact beside
    have tf : w.tf = { s.tf with budget := s.tf.budget - 100 * s.tileBytes t, xBytes := s.tf.xBytes + s.tileBytes t,
                                 thieves := s.tf.thieves.filter (· != p.val) } := by
      rw [hw, State.startTile_tf, State.stolen_tf, whole]
    obtain ⟨seq, -, -, -, -, stolen, bloom⟩ := (s.stolen (p.val / 32) v t).stage_place x
    have run := (s.stolen (p.val / 32) v t).startTile_run (p.val / 32) (p.val % 32) x
    rw [← hx, ← hw] at acts
    rw [← hw] at run
    refine ⟨w, _, congrArg Host.Outcome.next acts, run, seq.trans (by rw [hx]), stolen.trans (by rw [hx]), bloom.trans (by rw [hx]), rfl, ?_, ?_, ?_,
      (congrArg State.pool view :), (congrArg State.prd view :), (congrArg State.out view :)⟩
    · rw [tf]
    · rw [tf]
    · rw [tf]
      simp
  case idle => exact congrArg Host.Outcome.next (doPetalPick_idle s p idle)
  case none =>
    refine congrArg Host.Outcome.next (doCrossBloomSteal_idle s p ?_)
    rcases idle with off | busy
    · simp [State.isThief, off]
    · have some : ((s.blm.get (p.val / 32)).run.get (p.val % 32)).isNone = false :=
        Option.isNone_eq_false_iff.mpr (Option.isSome_iff_ne_none.mpr busy)
      simp [State.isThief, some]
end Sys2Proof.Machine
end

section
/-! PROOFS. The end of a petal's tile, and the ledger's verdict on a line. -/
namespace Sys2Proof.Machine

theorem closed_ctx_get (u n k : Nat) (c : Tbl SealCtx) (h : k < n) :
    ((List.range n).foldl (fun t x => t.set (64 * u + x) {}) c).get (64 * u + k) = {} := by
  induction n with
  | zero => omega
  | succ n ih =>
    rw [List.range_succ, List.foldl_append, List.foldl_cons, List.foldl_nil]
    by_cases last : k = n
    · rw [last, Tbl.get_set_same]
    · rw [Tbl.get_set_other _ _ _ _ (by omega)]
      exact ih (by omega)

theorem State.leavePetal_ctx (s : State) (p k : Nat) (h : k < 64) : (s.leavePetal p).ctxOf (unitPetal p) k = {} :=
  closed_ctx_get (unitPetal p) 64 k s.seals.ctx h

theorem State.closeCtx_beside (s : State) (u : Nat) : { s.closeCtx u with blm := {}, seals := {} } = { s with blm := {}, seals := {} } := by
  unfold State.closeCtx State.modSeals
  rfl

/-- A petal that ends its tile touches its bloom and its seal contexts only. -/
theorem State.leavePetal_beside (s : State) (p : Nat) : { s.leavePetal p with blm := {}, seals := {} } = { s with blm := {}, seals := {} } :=
  State.closeCtx_beside _ _

theorem State.leavePetal_run (s : State) (p : Nat) : ((s.leavePetal p).blm.get (p / 32)).run.get (p % 32) = none := by
  have run : ((s.modBlm (p / 32) (fun x => { x with run := x.run.set (p % 32) none })).blm.get (p / 32)).run.get (p % 32) = none := by
    rw [State.modBlm, Tbl.get_upd_same, Tbl.get_set_same]
  exact run

/-- A change of a frame that keeps its number is what the frame then shows. -/
theorem State.pframe_modPFrame (s : State) (i f : Nat) (g : PFrame → PFrame) (q : PFrame) (keeps : ∀ x, (g x).frame = x.frame)
    (frame : s.pframe i f = some q) : (s.modPFrame i f g).pframe i f = some (g q) := by
  have found (l : List PFrame) (h : l.find? (fun x => x.frame == f) = some q) :
      (l.map (fun x => if x.frame = f then g x else x)).find? (fun x => x.frame == f) = some (g q) := by
    induction l with
    | nil => simp at h
    | cons a l ih =>
      by_cases here : a.frame = f
      · obtain rfl : a = q := by simpa [List.find?, here] using h
        simp [here, keeps]
      · rw [List.find?_cons_of_neg (by simp [here])] at h
        rw [List.map_cons, if_neg here, List.find?_cons_of_neg (by simp [here])]
        exact ih h
  have frames : ((s.modPFrame i f g).product i).frames = (s.product i).frames.map (fun x => if x.frame = f then g x else x) := by
    unfold State.modPFrame State.modProduct State.product
    rw [State.modPrd, Tbl.get_upd_same]
  unfold State.pframe
  rw [frames]
  exact found _ frame

theorem State.pframe_of_prd {s t : State} (h : t.prd = s.prd) (i f : Nat) : t.pframe i f = s.pframe i f := by
  unfold State.pframe State.product
  rw [h]

theorem doTileComplete_frame (s : State) (p n : Nat) (us : List StageUpset) (t : Tile) (q : PFrame) (clocked : s.blmClocked (p / 32) = true)
    (run : (s.blm.get (p / 32)).run.get (p % 32) = some t) (frame : s.pframe t.prd t.frame = some q) : doTileComplete p us n s =
      if ¬ q.dead ∧ ¬ s.readBack t.prd q t then s
      else ((((if q.dead then (s.leavePetal p).modPFrame t.prd t.frame (fun q => { q with completed := q.completed + 1 })
        else (s.poolRead n (s.srcOf t)).tileEnds p q t us).publishFrame t.prd t.frame).tryEnds t.prd).retryCommits) := by
  unfold doTileComplete
  rw [if_neg (by simp [clocked]), run]
  dsimp only
  rw [frame]

theorem State.report_none (s : State) : s.report [] = s := rfl

/-- A slow tile ends with its stage seals' verdict: none fails, some fail for the first time, some fail again. -/
theorem State.tileEnds_slow (s : State) (p : Nat) (q : PFrame) (t : Tile) (us : List StageUpset) (w : State) (slow : t.fast = false)
    (hw : w = s.passesEnd p t (s.tilePasses q t)) : s.tileEnds p q t us =
      if w.stageFails t.prd q t us ≠ [] ∧ t.failed = 0 then (w.stageSealFails p t (w.stageFails t.prd q t us)).secondRun p t
      else ((w.stageSealFails p t (w.stageFails t.prd q t us)).finishTile p t.prd q t (!(w.stageFails t.prd q t us).isEmpty)).leavePetal p := by
  subst hw
  unfold State.tileEnds
  simp only [slow, Bool.false_eq_true, if_false, ne_eq, not_true_eq_false]

/-- The entry of a line leaves the ledger. -/
def State.leaveLedger (d : Nat) (e : LedgerEnt) (s : State) : State :=
  s.modSeals (fun q => { q with ledger := q.ledger.filter (fun x => !(x.line == d && x.prd == e.prd && x.output == e.output)) })

/-- The ledger's entry of an input line whose fragments cover the read range and agree with its seal leaves without a fault. -/
theorem doLedgerVerdict_passes (s : State) (d k : Nat) (e : LedgerEnt) (l : PLine)
    (due : s.seals.ledger.find? (fun x => x.line == d && rangesLen x.ranges ≤ x.covered) = some e) (line : s.line d = some l)
    (input : e.output = false) (within : e.covered + (e.n - rangesLen e.ranges) ≤ e.n)
    (agrees : ledgerSeal (sealHead e.st 0xFF e.frame e.lineNo) e.n (e.frags ++ (gaps 0 e.n e.ranges).map (fun u => fragOf l.data u.1 u.2))
      = l.sealVal) (u : State)
    (hu : u = (((s.leaveLedger d e).poolRead k e.st).pmuAdd 0x0CE 0).pmuAdd 0x2C0 (unitLedger / 2)) :
    doLedgerVerdict d k s = (((u.settle d).each (((u.settle d).product e.prd).frames.map (·.frame))
      (fun f x => x.publishFrame e.prd f)).tryEnds e.prd).retryCommits := by
  have spent : decide (e.n < e.covered + (e.n - rangesLen e.ranges)) = false := decide_eq_false (by omega)
  have verdict (w : State) : State.andReport (State.inVerdict e l false w) = w.pmuAdd 0x2C0 (unitLedger / 2) := by
    unfold State.inVerdict
    simp only [agrees, Bool.false_eq_true, ne_eq, not_true_eq_false, or_self, if_false]
    exact State.report_none _
  unfold doLedgerVerdict
  rw [due, line]
  simp only [spent, input, Bool.false_eq_true, if_false, verdict, Bool.not_false, State.when_true]
  rw [hu, State.leaveLedger, input]

theorem State.poolRead_seals (s : State) (n st : Nat) : (s.poolRead n st).seals = s.seals := by
  unfold State.poolRead
  split
  · rfl
  · rw [State.pmuAdd_seals]
    unfold State.poolCorrected
    split <;> rfl

theorem State.poolRead_leaveLedger_quiet (s : State) (d n st : Nat) (e : LedgerEnt) :
    ((s.leaveLedger d e).poolRead n st).quiet = (s.poolRead n st).quiet := by
  unfold State.poolRead
  split
  · rfl
  · rw [State.pmuAdd_quiet, State.pmuAdd_quiet]
    unfold State.poolCorrected
    split <;> rfl

/-- What the verdict on a line counts changes counters only, beside the ledger's entry. -/
theorem State.verdictCounts (s : State) (d k : Nat) (e : LedgerEnt) (u : State)
    (hu : u = (((s.leaveLedger d e).poolRead k e.st).pmuAdd 0x0CE 0).pmuAdd 0x2C0 (unitLedger / 2)) :
    u.besideReads = s.besideReads ∧ u.seals = (s.leaveLedger d e).seals ∧ u.quiet = (s.poolRead k e.st).quiet := by
  refine ⟨?_, ?_, ?_⟩
  · rw [hu, State.pmuAdd_besideReads, State.pmuAdd_besideReads, State.poolRead_besideReads]
    rfl
  · rw [hu, State.pmuAdd_seals, State.pmuAdd_seals, State.poolRead_seals]
  · rw [hu, State.pmuAdd_quiet, State.pmuAdd_quiet, State.poolRead_leaveLedger_quiet]

/-- Settles O22. -/
theorem tilesFinishAndLedgerVerdictsFollow : Obligations.TilesFinishAndLedgerVerdictsFollow := by
  refine fun s => ⟨fun p us n t q clocked run frame dead => ?dead, fun p us n t q w clocked run frame live back slow hw => ⟨fun good => ?finish,
    fun fails first => ?second⟩, fun p us n idle => ?idle, fun p us n t q run frame live waits => ?waits,
    fun d k e l due line input within agrees => ?verdict⟩
  case dead =>
    obtain ⟨v, hv⟩ : ∃ v, v = s.leavePetal p := ⟨_, rfl⟩
    have ends := (doTileComplete_frame s p n.toNat us t q clocked run frame).trans (if_neg (by simp [dead]))
    rw [if_pos dead, ← hv] at ends
    have beside := s.leavePetal_beside p
    rw [← hv] at beside
    have frame' : v.pframe t.prd t.frame = some q := (State.pframe_of_prd (congrArg State.prd beside :) _ _).trans frame
    refine ⟨_, congrArg Host.Outcome.next ends, ?_, v.pframe_modPFrame _ _ _ q (by exact fun _ => rfl) frame',
      (congrArg State.regs beside :), (congrArg State.pool beside :), (congrArg State.out beside :)⟩
    have free := s.leavePetal_run p
    rw [← hv] at free
    exact free
  case finish =>
    have ends := (doTileComplete_frame s p n.toNat us t q clocked run frame).trans (if_neg (by simp [back]))
    rw [live, if_neg Bool.false_ne_true, State.tileEnds_slow _ _ _ _ _ w slow hw, good, if_neg (by simp)] at ends
    exact ⟨_, congrArg Host.Outcome.next ends, rfl, State.leavePetal_run _ _, fun k hk => State.leavePetal_ctx _ _ k hk⟩
  case second =>
    have ends := (doTileComplete_frame s p n.toNat us t q clocked run frame).trans (if_neg (by simp [back]))
    rw [live, if_neg Bool.false_ne_true, State.tileEnds_slow _ _ _ _ _ w slow hw, if_pos ⟨fails, first⟩] at ends
    exact congrArg Host.Outcome.next ends
  case idle =>
    refine congrArg Host.Outcome.next ?_
    unfold doTileComplete
    rcases idle with off | free
    · exact if_pos (by simp [off])
    · rw [free, ite_self]
  case waits =>
    refine congrArg Host.Outcome.next ?_
    by_cases clocked : s.blmClocked (p.val / 32) = true
    · exact (doTileComplete_frame s p n.toNat us t q clocked run frame).trans (if_pos (by simp [live, waits]))
    · exact if_pos clocked
  case verdict =>
    obtain ⟨u, hu⟩ : ∃ u, u = (((s.leaveLedger d.toNat e).poolRead k.toNat e.st).pmuAdd 0x0CE 0).pmuAdd 0x2C0 (unitLedger / 2) := ⟨_, rfl⟩
    obtain ⟨beside, seals, quiet⟩ := s.verdictCounts d.toNat k.toNat e u hu
    have read {α : Type} := State.read_besideReads (α := α) beside
    exact ⟨u, congrArg Host.Outcome.next (doLedgerVerdict_passes s d.toNat k.toNat e l due line input within agrees u hu),
      (congrArg Seal.ledger seals :), quiet ▸ SameRegs.refl _ _, read State.pool fun _ => rfl, read State.prd fun _ => rfl,
      read State.out fun _ => rfl⟩
end Sys2Proof.Machine
end

section
/-! PROOFS. Replays, and the limit of replays. -/
namespace Sys2Proof.Machine

/-- The replays that started at the oldest frame `f` without acknowledgement. -/
def State.replaysAt (s : State) (f : TxFrame) : Nat := if s.gwl.replayAt = f.seq then s.gwl.replayCnt else 0

theorem doReplayTimeout_again (s : State) (f : TxFrame) (r : List TxFrame) (active : s.gwActive = true) (oldest : s.gwl.replay = f :: r)
    (within : s.replaysAt f < s.fld F.GWL_CTRL.REPLAY_MAX) : doReplayTimeout s =
      ((((s.count F.GWL_CNT1.REPLAY).pmuAdd 0x1C4 0).count F.GWL_CNT3.TIMEOUT).modGwl
        (fun g => { g with resend := some 0, replayAt := f.seq, replayCnt := s.replaysAt f + 1 })) := by
  unfold doReplayTimeout State.startReplay
  rw [if_pos active, oldest]
  exact if_neg (Nat.not_le.mpr within)

/-- What the limit of replays shows before the link goes down. -/
def State.replayLimit (s : State) (f : TxFrame) : State :=
  ((s.when (!s.flag F.GWL_PROTO_REC.VALID) (·.wr .GWL_PROTO_REC (1 <<< 31 + 4 <<< 28 + (f.seq % 4096) <<< 12 + 0 % 1024))).setFlag
    F.GWL_STAT.PROTO_ERR).setFlag F.GWL_STAT.REPLAY_LIM

theorem doReplayTimeout_limit (s : State) (f : TxFrame) (r : List TxFrame) (active : s.gwActive = true) (oldest : s.gwl.replay = f :: r)
    (spent : s.fld F.GWL_CTRL.REPLAY_MAX ≤ s.replaysAt f) : doReplayTimeout s = (s.replayLimit f).gwLinkDown true := by
  unfold doReplayTimeout State.startReplay
  rw [if_pos active, oldest]
  exact if_pos spent

/-- Settles O34. -/
theorem replaysStartAndGiveUp : Obligations.ReplaysStartAndGiveUp := by
  refine fun s f r active oldest => ⟨fun within => ?again, fun spent => ?limit⟩
  case again =>
    refine ⟨_, congrArg Host.Outcome.next (doReplayTimeout_again s f r active oldest within), ?_, ?_, ?_, ?_⟩
    · rw [State.modGwl_gwl, State.count_gwl, State.pmuAdd_gwl, State.count_gwl]
      rfl
    all_goals simp (disch := decide) only [State.modGwl_fld, State.modGwl_out, State.count_out, State.fld_count_same, State.fld_count_kind,
      State.pmuAdd_fld, State.pmuAdd_out]
  case limit =>
    refine ⟨_, congrArg Host.Outcome.next (doReplayTimeout_limit s f r active oldest spent), ?_, ?_, fun free => ?_, ?_⟩
    · simp (disch := decide) only [State.replayLimit, State.flag_setFlag_beside, State.flag_setFlag_same]
    · simp (disch := decide) only [State.replayLimit, State.flag_setFlag_same]
    · rw [State.replayLimit, State.rd_setFlag_kind _ _ _ _ _ _ _ _ (by decide), State.rd_setFlag_kind _ _ _ _ _ _ _ _ (by decide), free,
        Bool.not_false, State.when_true, State.rd_wr_same, Nat.shiftLeft_eq, Nat.shiftLeft_eq, Nat.shiftLeft_eq]
      simp only [one_mul, Nat.zero_mod, add_zero]
    · exact State.regs_back (by simp [State.replayLimit, State.when_offRegs])
end Sys2Proof.Machine
end

section
/-! PROOFS. The answers to Korlet's own reads. -/
namespace Sys2Proof.Machine

/-- What an answer of the host does to the open read `m` of its tag. -/
theorem doCplRx_read (s : State) (t : HostTxn) (m : MrdOpen) (opened : s.gwl.mrds.get t.tag.toNat = some m) (waits : m.again = false) :
    doCplRx t s = if bits t.sub.toNat 2 0 = 0 then
        let m := { m with got := putOpt m.got m.txn.len (t.addr.toNat - m.txn.addr) (t.data.take t.len.toNat) }
        if bit t.sub.toNat 7 then (s.pmuAdd 0x1CB 0).mrdOk t.tag.toNat m
        else (s.pmuAdd 0x1CB 0).modGwl (fun g => { g with mrds := g.mrds.set t.tag.toNat (some m) })
      else if bits t.sub.toNat 2 0 = 1 ∧ m.txn.retries < s.fld F.GWL_CTRL.HOST_RETRY then
        (s.pmuAdd 0x1CB 0).modGwl (fun g => { g with mrds := g.mrds.set t.tag.toNat (some { m with again := true, got := [] }) })
      else (s.pmuAdd 0x1CB 0).mrdAbort t.tag.toNat m := by
  unfold doCplRx
  dsimp only
  rw [State.pmuAdd_gwl, opened, State.pmuAdd_fld _ _ _ _ _ _ _ _ (by decide)]
  exact if_neg (by simp [waits])

theorem doCplRx_late (s : State) (t : HostTxn) (closed : s.gwl.mrds.get t.tag.toNat = none) :
    doCplRx t s = (s.pmuAdd 0x1CB 0).count F.GWL_CNT5.LATE_CPL := by
  unfold doCplRx
  dsimp only
  rw [State.pmuAdd_gwl, closed]

theorem doCplTimeout_read (s : State) (tag : Nat) (m : MrdOpen) (opened : s.gwl.mrds.get tag = some m) (waits : m.again = false) :
    doCplTimeout tag s = ((s.count F.GWL_CNT3.CPL_TMO).modGwl
      (fun g => { g with heldTags := (tag, s.time.now + 4 * s.fld F.GWL_CTRL.CPL_TMO_US * 1200) :: g.heldTags })).mrdAbort tag m := by
  unfold doCplTimeout
  rw [opened]
  exact if_neg (by simp [waits])

theorem doHostRetryReissue_read (s : State) (tag : Nat) (m : MrdOpen) (opened : s.gwl.mrds.get tag = some m) (again : m.again = true) :
    doHostRetryReissue tag s = (s.closeTag tag).txPush { m.txn with retries := m.txn.retries + 1 } := by
  unfold doHostRetryReissue
  rw [opened]
  exact if_pos again

/-- Settles O36. -/
theorem completionsEndOrRetryReads : Obligations.CompletionsEndOrRetryReads := by
  refine fun s => ⟨fun t closed => ?late, fun t m opened waits => ⟨fun retry within => ?retry, fun good more => ?more, fun good last => ?last,
    fun bad => ?bad⟩, fun tag m opened waits => ?timeout, fun tag m opened again => ?reissue, fun tag closed => ⟨?_, ?_⟩⟩
  case late =>
    refine ⟨_, congrArg Host.Outcome.next (doCplRx_late s t closed), ?_, ?_, ?_, ?_, ?_⟩
    · simp (disch := decide) only [State.fld_count_same, State.pmuAdd_fld]
    · rw [State.count_gwl, State.pmuAdd_gwl]
    · rw [State.count_hqe, State.pmuAdd_hqe]
    · rw [State.count_prd, State.pmuAdd_prd]
    · rw [State.count_out, State.pmuAdd_out]
  case retry =>
    have acts := doCplRx_read s t m opened waits
    rw [if_neg (by omega), if_pos ⟨retry, within⟩] at acts
    exact ⟨_, congrArg Host.Outcome.next acts, by rw [State.modGwl_gwl, State.pmuAdd_gwl]⟩
  case more =>
    have acts := doCplRx_read s t m opened waits
    rw [if_pos good] at acts
    exact ⟨_, congrArg Host.Outcome.next (acts.trans (if_neg (by simp [more]))), by rw [State.modGwl_gwl, State.pmuAdd_gwl]⟩
  case last =>
    have acts := doCplRx_read s t m opened waits
    rw [if_pos good] at acts
    exact ⟨_, congrArg Host.Outcome.next (acts.trans (if_pos last)), State.pmuAdd_gwl _ _ _ _ _, State.pmuAdd_hqe _ _ _ _ _⟩
  case bad =>
    have acts := doCplRx_read s t m opened waits
    rw [if_neg (by omega), if_neg (by omega)] at acts
    exact ⟨_, congrArg Host.Outcome.next acts, State.pmuAdd_gwl _ _ _ _ _, State.pmuAdd_hqe _ _ _ _ _, State.pmuAdd_prd _ _ _ _ _⟩
  case timeout =>
    refine ⟨_, congrArg Host.Outcome.next (doCplTimeout_read s tag.toNat m opened waits), ?_, rfl⟩
    rw [State.modGwl_fld, State.fld_count_same _ _ _ _ (by decide) (by decide)]
  case reissue =>
    refine ⟨_, congrArg Host.Outcome.next (doHostRetryReissue_read s tag.toNat m opened again), ?_, rfl, ?_, ?_⟩
    · exact Tbl.get_set_same _ _ _
    · exact (((SameRegs.refl _ s).of_regs (State.modGwl_regs _ _)).andFld (by repeat constructor) (by omega)).of_regs (State.modGwl_regs _ _)
    · simp [State.txPush, State.closeTag]
  · refine congrArg Host.Outcome.next ?_
    unfold doCplTimeout
    rw [closed]
  · refine congrArg Host.Outcome.next ?_
    unfold doHostRetryReissue
    rw [closed]
end Sys2Proof.Machine
end

section
/-! PROOFS. The time message and the write fault of the host. -/
namespace Sys2Proof.Machine

/-- What a write fault without a write counts and records, before it raises its fault. -/
def State.unmatched (tag d cause addr : Nat) (s : State) : State :=
  (((s.count F.GWL_CNT5.WF_RX).count F.GWL_CNT5.WF_UNMATCHED).lupSubmit 0x11 0 0 (tag + d <<< 12) addr).event 0 0x05 cause (tag + d <<< 12)
    (addr % 2 ^ 32) (addr / 2 ^ 32)

theorem doWriteFault_unmatched (s : State) (d tag cause addr : Nat)
    (none : s.hqe.mwrs.find? (fun m => m.tag == tag && m.dom == d && m.addr ≤ addr && addr < m.addr + m.len) = none) :
    doWriteFault d tag cause addr s = (s.unmatched tag d cause addr).draw.raise 29 ((s.unmatched tag d cause addr).free % 2 ^ 32) := by
  unfold doWriteFault
  dsimp only
  rw [State.count_hqe, none]
  rfl

theorem doWriteFault_ofRing (s : State) (d tag cause addr : Nat) (m : MwrRec)
    (hit : s.hqe.mwrs.find? (fun m => m.tag == tag && m.dom == d && m.addr ≤ addr && addr < m.addr + m.len) = some m) (ring : m.ofRing = true) :
    doWriteFault d tag cause addr s = (s.count F.GWL_CNT5.WF_RX).mwrFailed m 4 addr := by
  unfold doWriteFault
  dsimp only
  rw [State.count_hqe, hit]
  exact if_pos ring

theorem State.unmatched_quiet (s : State) (tag d cause addr : Nat) :
    (s.unmatched tag d cause addr).quiet = ((s.count F.GWL_CNT5.WF_RX).count F.GWL_CNT5.WF_UNMATCHED).quiet := by
  simp [State.unmatched]

theorem State.timeMessage_measured (s : State) (host l : Nat) (src : s.fld F.RAS_DISC_CTRL.SRC = 2) (last : s.time.lastMsg = some l)
    (later : l < s.time.tod) : s.timeMessage host =
      (s.measure ((host + s.fld F.RAS_GW_DELAY.DELAY_NS : Nat) - (s.time.tod : Nat)) (s.time.tod - l)).modTime
        (fun t => { t with lastMsg := some t.tod }) := by
  unfold State.timeMessage
  rw [if_pos src, last]
  simp only [if_pos later]

theorem State.timeMessage_first (s : State) (host : Nat) (src : s.fld F.RAS_DISC_CTRL.SRC = 2) (first : s.time.lastMsg = none) :
    s.timeMessage host = s.modTime (fun t => { t with lastMsg := some t.tod }) := by
  unfold State.timeMessage
  rw [if_pos src, first]

/-- Settles O37. -/
theorem timeAndWriteFaultMessages : Obligations.TimeAndWriteFaultMessages := by
  refine fun s => ⟨fun h => ⟨?bad, fun src => ?other, fun src first => ?first, fun l src last later => ?later⟩,
    fun d tag c a => ⟨fun none => ?none, fun m hit ring => ?ring⟩⟩
  case bad =>
    exact ⟨_, rfl, State.fld_count_same _ _ _ _ (by decide) (by decide), (SameRegs.refl _ s).andCount (by repeat constructor) (by omega),
      State.regs_back (State.count_offRegs _ _ _ _)⟩
  case other => exact congrArg Host.Outcome.next (if_neg src)
  case first => exact congrArg Host.Outcome.next (s.timeMessage_first h.toNat src first)
  case later =>
    refine ⟨_, congrArg Host.Outcome.next (s.timeMessage_measured h.toNat l src last later), rfl, fun far => ?_⟩
    rw [State.measure_step _ _ _ far]
    refine ⟨?_, ?_⟩
    · simp only [State.showTrim, State.setFld_time, State.setFlag_time, State.modTime_time]
    · simp (disch := decide) only [State.showTrim_flag, State.flag_setFlag_beside, State.flag_setFlag_same]
  case none =>
    have quiet := s.unmatched_quiet tag.toNat d c.toNat a.toNat
    have acts := doWriteFault_unmatched s d tag.toNat c.toNat a.toNat none
    obtain ⟨u, hu⟩ : ∃ u, u = s.unmatched tag.toNat d c.toNat a.toNat := ⟨_, rfl⟩
    obtain ⟨w, hw⟩ : ∃ w, w = (s.count F.GWL_CNT5.WF_RX).count F.GWL_CNT5.WF_UNMATCHED := ⟨_, rfl⟩
    rw [← hu] at acts
    rw [← hu, ← hw] at quiet
    have freeIdx : u.freeIdx = w.freeIdx := (congrArg State.freeIdx quiet :)
    have out : u.out = w.out := (congrArg State.out quiet :)
    refine ⟨u, congrArg Host.Outcome.next acts, freeIdx.trans (by rw [hw, State.count_freeIdx, State.count_freeIdx]), ?_, ?_,
      out.trans (by rw [hw, State.count_out, State.count_out])⟩
    · rw [State.fld_of_quiet quiet _ _ _ (by decide), hw]
      simp (disch := decide) only [State.fld_count_same, State.fld_count_beside]
    · rw [State.fld_of_quiet quiet _ _ _ (by decide), hw]
      simp (disch := decide) only [State.fld_count_same, State.fld_count_beside]
  case ring =>
    exact ⟨_, congrArg Host.Outcome.next (doWriteFault_ofRing s d tag.toNat c.toNat a.toNat m hit ring),
      State.fld_count_same _ _ _ _ (by decide) (by decide), (SameRegs.refl _ s).andCount (by repeat constructor) (by omega),
        State.regs_back (State.count_offRegs _ _ _ _)⟩
end Sys2Proof.Machine
end

section
/-! PROOFS. The queue of doorbells and the doorbell that is processed. -/
namespace Sys2Proof.Machine

/-- The entry that a doorbell makes. -/
def doorbellEntry (source page value : Nat) : DbEntry :=
  { dom := page, ring := bits value 11 0, index := bits value 63 32, op := bits value 31 30, arm := bit value 29
    bad := source != page || 2 ≤ bits value 31 30 || bits value 28 12 != 0 }

/-- The queue of doorbells after another one has come. -/
def doorbellQueue (l : List DbEntry) (e : DbEntry) : List DbEntry :=
  let same := fun (q : DbEntry) => !q.bad && q.dom == e.dom && q.ring == e.ring && q.op == e.op
  if !e.bad && l.any same then l.map (fun q => if same q then { q with index := e.index, arm := q.arm || e.arm } else q) else l ++ [e]

theorem doDoorbell_eq (source page value : Nat) (s : State) : doDoorbell source page value s =
    ((s.pmuAdd 0x200 page).modHqe (fun h => { h with dbq := doorbellQueue (s.pmuAdd 0x200 page).hqe.dbq (doorbellEntry source page value) })).when
      (decide (1024 ≤ (doorbellQueue (s.pmuAdd 0x200 page).hqe.dbq (doorbellEntry source page value)).length)) (·.setFlag F.HQE_STAT.DBQ_FULL) := rfl

theorem State.doorbell_shown (s : State) (q : List DbEntry) (t : State)
    (ht : t = (s.modHqe (fun h => { h with dbq := q })).when (decide (1024 ≤ q.length)) (·.setFlag F.HQE_STAT.DBQ_FULL)) :
    t.hqe = { s.hqe with dbq := q } ∧ (1024 ≤ q.length → t.flag F.HQE_STAT.DBQ_FULL = true) ∧ t.gwl = s.gwl ∧ t.prd = s.prd ∧ t.out = s.out := by
  subst ht
  by_cases full : 1024 ≤ q.length
  · rw [decide_eq_true full, State.when_true]
    have shown := (s.modHqe (fun h => { h with dbq := q })).flag_setFlag_same F.HQE_STAT.DBQ_FULL true 0 0 rfl (by decide)
    exact ⟨State.setFlag_hqe _ _ _ _ _, fun _ => shown, State.setFlag_gwl _ _ _ _ _, State.setFlag_prd _ _ _ _ _, State.setFlag_out _ _ _ _ _⟩
  · rw [decide_eq_false full, State.when_false]
    exact ⟨rfl, fun h => absurd h full, rfl, rfl, rfl⟩

theorem doorbellQueue_joins (l : List DbEntry) (e : DbEntry)
    (h : e.bad = true ∨ l.any (fun q => !q.bad && q.dom == e.dom && q.ring == e.ring && q.op == e.op) = false) : doorbellQueue l e = l ++ [e] := by
  refine if_neg ?_
  rcases h with h | h <;> simp [h]

theorem doorbellQueue_merges (l : List DbEntry) (e : DbEntry) (good : e.bad = false)
    (h : l.any (fun q => !q.bad && q.dom == e.dom && q.ring == e.ring && q.op == e.op) = true) : doorbellQueue l e = l.map (fun q =>
      if !q.bad && q.dom == e.dom && q.ring == e.ring && q.op == e.op then { q with index := e.index, arm := q.arm || e.arm } else q) :=
  if_pos (by rw [good, h]; rfl)

theorem State.freeCredits_none (s : State) (h : s.hqe.credHdr = 0) : s.freeCredits = s := if_pos (.inr h)

/-- A doorbell that waits alone is processed when it is bad or its context is cached. -/
theorem doDoorbellProcess_alone (s : State) (e : DbEntry) (alone : s.hqe.dbq = [e]) (credits : s.hqe.credHdr = 0)
    (ready : (s.dbBad e || s.hqe.cache.any (· == ringG e.dom e.ring)) = true) : doDoorbellProcess s =
      if s.dbBad e then (s.modHqe (fun h => { h with dbq := [] })).dbDiscard e.dom else
        (s.modHqe (fun h => { h with dbq := [] })).ringDoorbell e := by
  have bad (q : List DbEntry) : (s.modHqe (fun h => { h with dbq := q })).dbBad e = s.dbBad e := rfl
  unfold doDoorbellProcess
  rw [alone]
  simp only [List.filter_cons, List.filter_nil, ready, Bool.not_true, Bool.false_and, Bool.false_eq_true, if_false, List.map_nil, List.eraseDups_nil]
  rw [show s.each [] State.askFill = s from rfl]
  simp only [alone, State.modHqe_hqe, List.map_cons, List.map_nil, ready, if_true, List.find?_cons]
  have taken : (s.modHqe (fun h => { h with dbq := h.dbq.map (fun q => if (s.dbBad q || s.hqe.cache.any (· == ringG q.dom q.ring)) = true then q
      else { q with missed := true }) })).modHqe (fun h => { h with dbq := h.dbq.erase e }) = s.modHqe (fun h => { h with dbq := [] }) := by
    simp only [State.modHqe, alone, List.map_cons, List.map_nil, ready, if_true, List.erase_cons_head]
  rw [taken, State.freeCredits_none _ (by exact credits), bad]

/-- The state in which a submission ring's doorbell acts: its context is the one used last. -/
def State.doorbellCtx (s : State) (e : DbEntry) : State := (s.useCtx (ringG e.dom e.ring)).when (!e.missed) (·.pmuAdd 0x203 e.dom)

theorem State.doorbellCtx_hqe (s : State) (e : DbEntry) :
    (s.doorbellCtx e).hqe = { s.hqe with cache := s.hqe.cache.filter (· != ringG e.dom e.ring) ++ [ringG e.dom e.ring] } := by
  unfold State.doorbellCtx
  cases e.missed
  · rw [Bool.not_false, State.when_true, State.pmuAdd_hqe]
    rfl
  · rfl

theorem State.doorbellCtx_ring (s : State) (e : DbEntry) (g : Nat) : (s.doorbellCtx e).ring g = s.ring g := by
  unfold State.ring
  rw [s.doorbellCtx_hqe e]

theorem State.ringDoorbell_submission (s : State) (e : DbEntry) (op : e.op = 0) (r : Ring) (hr : r = s.ring (ringG e.dom e.ring)) :
    s.ringDoorbell e = if subMod (2 ^ 32) e.index r.pi = 0 then s.doorbellCtx e
      else if subMod (2 ^ 32) e.index r.pi ≤ 2 ^ r.k - subMod (2 ^ 32) r.pi r.ci then
        ((s.doorbellCtx e).modRing (ringG e.dom e.ring) (fun r => { r with pi := e.index })).fetchMore (ringG e.dom e.ring)
      else (s.doorbellCtx e).report [.ringErr (ringG e.dom e.ring) 1 e.index 0 false] := by
  subst hr
  exact if_pos op

theorem subMod_eq (a b : Nat) : subMod (2 ^ 32) a b = (a + 2 ^ 32 - b % 2 ^ 32) % 2 ^ 32 := by
  unfold subMod
  congr 1
  omega

theorem State.modHqe_same (s : State) (f : Hqe → Hqe) (h : f s.hqe = s.hqe) : s.modHqe f = s := by
  unfold State.modHqe
  rw [h]

/-- Settles O38. -/
theorem doorbellsQueueAndMoveTheIndex : Obligations.DoorbellsQueueAndMoveTheIndex := by
  refine fun s => ⟨fun d p v => ?queue, fun e r first credits => ⟨fun bad last => ?bad,
    fun good last cached op => ⟨fun moves fits => ?moves, fun tooFar => ?tooFar⟩⟩,
    fun empty => ?empty⟩
  case queue =>
    intro bad same
    obtain ⟨t, ht⟩ : ∃ t, t = doDoorbell d p v.toNat s := ⟨_, rfl⟩
    obtain ⟨hqe, full, gwl, prd, out⟩ := State.doorbell_shown _ _ t (ht.trans (doDoorbell_eq d p v.toNat s))
    rw [State.pmuAdd_hqe] at hqe full
    rw [State.pmuAdd_gwl] at gwl
    rw [State.pmuAdd_prd] at prd
    rw [State.pmuAdd_out] at out
    refine ⟨t, congrArg Host.Outcome.next ht.symm, fun joins => ?_, fun good merges => ?_, by rw [hqe], fun long => full (by rwa [hqe] at long),
      gwl, prd, out⟩
    · rw [hqe]
      exact doorbellQueue_joins _ (doorbellEntry d p v.toNat) joins
    · rw [hqe]
      exact doorbellQueue_merges _ (doorbellEntry d p v.toNat) good merges
  case bad =>
    refine ⟨_, congrArg Host.Outcome.next ((doDoorbellProcess_alone s e (last ▸ first) credits (by rw [bad]; rfl)).trans (if_pos bad)), ?_, ?_⟩
    · rw [State.dbDiscard, State.pmuAdd_hqe, State.count_hqe, State.modHqe_hqe]
    · simp (disch := decide) only [State.dbDiscard, State.pmuAdd_fld, State.fld_count_same, State.modHqe_fld]
  case moves =>
    have alone := doDoorbellProcess_alone s e (last ▸ first) credits (by rw [cached, Bool.or_true])
    rw [if_neg (by simp [good]), State.ringDoorbell_submission _ e op (s.ring (ringG e.dom e.ring)) (by exact rfl), subMod_eq, subMod_eq,
      if_neg (by omega), if_pos fits] at alone
    refine ⟨_, congrArg Host.Outcome.next alone, ?_, fun g other => ?_, ?_⟩
    · rw [State.ring, State.modRing, State.modHqe_hqe, Tbl.get_upd_same, State.doorbellCtx_hqe]
      rfl
    · rw [State.ring, State.modRing, State.modHqe_hqe, Tbl.get_upd_other _ _ _ _ other, State.doorbellCtx_hqe]
      rfl
    · rw [State.modRing, State.modHqe_hqe, State.doorbellCtx_hqe]
      rfl
  case tooFar =>
    have alone := doDoorbellProcess_alone s e (last ▸ first) credits (by rw [cached, Bool.or_true])
    rw [if_neg (by simp [good]), State.ringDoorbell_submission _ e op (s.ring (ringG e.dom e.ring)) (by exact rfl), subMod_eq, subMod_eq,
      if_neg (by omega), if_neg (by omega)] at alone
    refine ⟨_, congrArg Host.Outcome.next alone, fun g => ?_, ?_⟩
    · rw [State.doorbellCtx_ring]
      rfl
    · rw [State.doorbellCtx_hqe]
      rfl
  case empty =>
    refine congrArg Host.Outcome.next ?_
    unfold doDoorbellProcess
    rw [empty]
    simp only [List.filter_nil, List.map_nil, List.eraseDups_nil]
    rw [show s.each [] State.askFill = s from rfl, State.modHqe_same _ _ (by rw [empty, List.map_nil, ← empty]), empty]
    rfl
end Sys2Proof.Machine
end

section
/-! PROOFS. The next fetched descriptor of a ring. -/
namespace Sys2Proof.Machine

theorem State.ringLive_of_fetches (s : State) (g : Nat) (h : s.fetches g = true) : s.ringLive g = true :=
  (Bool.and_eq_true_iff.mp h).1

/-- The next descriptor of a live submission ring waits when it is a fence behind other commands; else it starts, or its header ends it. -/
theorem doDescriptorFetch_next (s : State) (d r : Nat) (e : Desc) (rest : List Desc) (sub : (s.ring (ringG d r)).typ = .sub)
    (live : s.ringLive (ringG d r) = true) (fetched : (s.ring (ringG d r)).fetched = e :: rest) (next : e.idx = s.nextStart (ringG d r))
    (u : State) (hu : u = s.modRing (ringG d r)
      (fun x => { x with fetched := rest, started := x.started ++ [{ idx := e.idx, bytes := e.bytes }] })) :
    doDescriptorFetch d r s = if descFence e.bytes = true ∧ (s.ring (ringG d r)).started ≠ [] then s.fetchMore (ringG d r)
      else (match startStatus d r e.bytes with
        | some st => (u.takeCmd (ringG d r) e.idx).finishCmd (ringG d r) e.idx e.bytes st
        | none => u).fetchMore (ringG d r) := by
  subst hu
  unfold doDescriptorFetch
  dsimp only
  rw [if_neg (by simp [sub, live]), fetched]
  dsimp only
  simp only [next, ne_eq, not_true_eq_false, false_or] <;> rfl

theorem startStatus_reserved (d r : Nat) (b : List Byte) (h : bits (leAt b 0 4) 22 0 ≠ 0) : startStatus d r b = some 0x30 := if_pos h

theorem startStatus_create (d r : Nat) (b : List Byte) (h : bits (leAt b 0 4) 22 0 = 0) (cmd : descCmd b = 0x02) :
    startStatus d r b = if r = 0 then none else some 0x31 := by
  unfold startStatus
  rw [if_neg (not_not_intro h), cmd]
  rfl

theorem startStatus_domSet (d r : Nat) (b : List Byte) (h : bits (leAt b 0 4) 22 0 = 0) (cmd : descCmd b = 0x08) :
    startStatus d r b = if d ≠ 0 then some 0x32 else if r = 0 then none else some 0x31 := by
  unfold startStatus
  rw [if_neg (not_not_intro h), cmd]
  rfl

/-- Settles O39. -/
theorem descriptorsStartInRingOrder : Obligations.DescriptorsStartInRingOrder := by
  intro s d r e rest g u sub fetches fetched next
  have acts := doDescriptorFetch_next s d r e rest sub (s.ringLive_of_fetches g fetches) fetched next u rfl
  refine ⟨fun fence behind => ?waits, fun free => ⟨fun none => ?starts, fun c refused => ?ends⟩, fun h cmd => ?create, fun h cmd => ?domSet,
    fun h => startStatus_reserved _ _ _ h⟩
  case waits => exact congrArg Host.Outcome.next (acts.trans (if_pos ⟨fence, behind⟩))
  case starts =>
    refine congrArg Host.Outcome.next (acts.trans ((if_neg ?_).trans (by rw [none])))
    rcases free with plain | first
    · simp [plain]
    · exact fun h => h.2 first
  case ends =>
    refine congrArg Host.Outcome.next (acts.trans ((if_neg ?_).trans (by rw [refused])))
    rcases free with plain | first
    · simp [plain]
    · exact fun h => h.2 first
  case create =>
    rw [startStatus_create _ _ _ h cmd]
    simp
  case domSet =>
    rw [startStatus_domSet _ _ _ h cmd]
    by_cases hd : d.val = 0 <;> simp [hd]
end Sys2Proof.Machine
end

section
/-! PROOFS. The ring commands. -/
namespace Sys2Proof.Machine

theorem State.runCmd_started (s : State) (d r idx cmd : Nat) (f : Nat → List Byte → State → State) (x : Started)
    (h : s.startedCmd (ringG d r) idx cmd = some x) : s.runCmd d r idx cmd f = f (ringG d r) x.bytes (s.takeCmd (ringG d r) idx) := by
  unfold State.runCmd
  dsimp only
  rw [h]

theorem State.ring_modRing_same (s : State) (g : Nat) (f : Ring → Ring) : (s.modRing g f).ring g = f (s.ring g) := Tbl.get_upd_same _ _ _

theorem State.ring_modRing_other (s : State) (g q : Nat) (f : Ring → Ring) (h : q ≠ g) : (s.modRing g f).ring q = s.ring q :=
  Tbl.get_upd_other _ _ _ _ h

theorem State.useCtx_ring (s : State) (g q : Nat) : (s.useCtx g).ring q = s.ring q := (rfl)

/-- The ring that RING_CREATE makes. -/
def createdRing (b : List Byte) : Ring :=
  { typ := if rcType b = 0 then .sub else if rcType b = 1 then .buf else .cmp
    st := .running, cls := cfld b 16 29 28, pin := bit (leAt b 16 4) 27, armed := rcType b == 2, k := rcSize b + 4, base := rcAddr b
    cmp := if rcType b = 2 then 0 else rcIndex b % 4096
    vector := if rcType b = 2 then rcIndex b / 65536 else 0
    modCnt := if rcType b = 2 then cfld b 24 31 24 else 0
    modLines := if rcType b = 2 then cfld b 24 23 16 else 0
    modRaster := if rcType b = 2 then cfld b 24 15 13 else 0 }

theorem doRingCreate_refused (s : State) (d r i : Nat) (x : Started) (c : Nat) (h : s.startedCmd (ringG d r) i 0x02 = some x)
    (status : (s.takeCmd (ringG d r) i).createStatus (ringG d r) x.bytes = some c) :
    doRingCreate d r i s = (s.takeCmd (ringG d r) i).finishCmd (ringG d r) i x.bytes c := by
  unfold doRingCreate
  rw [State.runCmd_started _ _ _ _ _ _ x h, status]
  rfl

theorem doRingCreate_granted (s : State) (d r i : Nat) (x : Started) (h : s.startedCmd (ringG d r) i 0x02 = some x)
    (status : (s.takeCmd (ringG d r) i).createStatus (ringG d r) x.bytes = none)
    (room : (s.takeCmd (ringG d r) i).hqe.cache.length < 4096) : doRingCreate d r i s =
      (((s.takeCmd (ringG d r) i).modRing (ringG (rcDom x.bytes) (rcRing x.bytes)) (fun _ => createdRing x.bytes)).useCtx
        (ringG (rcDom x.bytes) (rcRing x.bytes))).finishCmd (ringG d r) i x.bytes 0 := by
  unfold doRingCreate
  rw [State.runCmd_started _ _ _ _ _ _ x h, status]
  exact congrArg (fun t : State => t.finishCmd (ringG d r) i x.bytes 0) (if_pos (.inr room))

/-- A RING_DESTROY of a ring in reach is refused by the ring's state, or disables the ring. -/
theorem doRingDestroy_reach (s : State) (d r i : Nat) (x : Started) (h : s.startedCmd (ringG d r) i 0x03 = some x)
    (form : rcReserved x.bytes false = false) (reach : rcReach (ringG d r) x.bytes false = none) (v : State)
    (hv : v = s.takeCmd (ringG d r) i) (t : Nat) (ht : t = ringG (rcDom x.bytes) (rcRing x.bytes)) : doRingDestroy d r i s =
      if rcRing x.bytes < 2 ∨ ((v.ring t).st ≠ .stopped ∧ (v.ring t).st ≠ .error) ∨ ((v.ring t).typ = .buf ∧ (v.ring t).bound ≠ 0)
        ∨ ((v.ring t).typ = .cmp ∧ v.boundTo t ≠ []) then v.finishCmd (ringG d r) i x.bytes 0x33
      else (v.disableRing t).finishCmd (ringG d r) i x.bytes 0 := by
  subst hv ht
  unfold doRingDestroy
  rw [State.runCmd_started _ _ _ _ _ _ x h]
  simp only [form, Bool.false_eq_true, if_false, reach]
  split <;> rfl

theorem doRingStop_reach (s : State) (d r i : Nat) (x : Started) (h : s.startedCmd (ringG d r) i 0x04 = some x)
    (form : rcReserved x.bytes false = false) (reach : rcReach (ringG d r) x.bytes false = none) (v : State)
    (hv : v = s.takeCmd (ringG d r) i) (t : Nat) (ht : t = ringG (rcDom x.bytes) (rcRing x.bytes)) : doRingStop d r i s =
      if (v.ring t).st ≠ .running ∨ (v.ring t).typ = .cmp then v.finishCmd (ringG d r) i x.bytes 0x33
      else State.finishCmd (ringG d r) i x.bytes 0 (if (v.ring t).typ = .buf ∧ (v.ring t).bound ≠ 0
        then v.modRing t (fun r => { r with stopping := true }) else (v.stopFetch t).modRing t (fun r => { r with st := .stopped })) := by
  subst hv ht
  unfold doRingStop
  rw [State.runCmd_started _ _ _ _ _ _ x h]
  simp only [form, Bool.false_eq_true, if_false, reach]
  split <;> rfl

theorem doRingResume_reach (s : State) (d r i : Nat) (x : Started) (h : s.startedCmd (ringG d r) i 0x05 = some x)
    (form : rcReserved x.bytes false = false) (reach : rcReach (ringG d r) x.bytes false = none) (plain : 2 ≤ rcRing x.bytes) (v : State)
    (hv : v = s.takeCmd (ringG d r) i) (t : Nat) (ht : t = ringG (rcDom x.bytes) (rcRing x.bytes)) : doRingResume d r i s =
      if ((v.ring t).st ≠ .stopped ∧ (v.ring t).st ≠ .error) ∨ ((v.ring t).typ ≠ .cmp ∧ (v.ring (v.cmpOf t)).st ≠ .running)
      then v.finishCmd (ringG d r) i x.bytes 0x33
      else State.ringCmd (ringG d r) i x.bytes (if (v.ring t).typ = .cmp ∧ rcIndex x.bytes % 2 = 1 then some 0x34 else none)
        (·.resumeRing t (rcIndex x.bytes)) v := by
  subst hv ht
  unfold doRingResume
  rw [State.runCmd_started _ _ _ _ _ _ x h]
  have admin : ¬ rcRing x.bytes < 2 := by omega
  simp only [form, Bool.false_eq_true, if_false, admin, false_and, decide_false, reach]
  split <;> rfl

theorem doRingQuery_reach (s : State) (d r i : Nat) (x : Started) (h : s.startedCmd (ringG d r) i 0x06 = some x)
    (form : rcReserved x.bytes true = false) (reach : rcReach (ringG d r) x.bytes true = none) (aligned : rcAddr x.bytes % 64 = 0) (v : State)
    (hv : v = s.takeCmd (ringG d r) i) (t : Nat) (ht : t = ringG (rcDom x.bytes) (rcRing x.bytes)) : doRingQuery d r i s =
      match v.writeHost { kind := .cmdWrite, ring := ringG d r, idx := i } (ringDom (ringG d r)) (v.ring (ringG d r)).cls (rcAddr x.bytes)
        (v.ctxBytes t) false with
      | some u => u.finishCmd (ringG d r) i x.bytes 0
      | none => (v.writeRefused { kind := .cmdWrite, ring := ringG d r, idx := i } (ringDom (ringG d r)) (v.ring (ringG d r)).cls (rcAddr x.bytes)
          (v.ctxBytes t) false).finishCmd (ringG d r) i x.bytes 0x36 := by
  subst hv ht
  unfold doRingQuery
  rw [State.runCmd_started _ _ _ _ _ _ x h]
  simp only [form, Bool.false_eq_true, if_false, reach, aligned, ne_eq, not_true_eq_false] <;> rfl

theorem doRingQuery_refused (s : State) (d r i : Nat) (x : Started) (h : s.startedCmd (ringG d r) i 0x06 = some x)
    (form : rcReserved x.bytes true = false) (reach : rcReach (ringG d r) x.bytes true = none) (aligned : rcAddr x.bytes % 64 = 0) (v : State)
    (hv : v = s.takeCmd (ringG d r) i) (t : Nat) (ht : t = ringG (rcDom x.bytes) (rcRing x.bytes))
    (refused : v.writeHost { kind := .cmdWrite, ring := ringG d r, idx := i } (ringDom (ringG d r)) (v.ring (ringG d r)).cls (rcAddr x.bytes)
      (v.ctxBytes t) false = none) :
    doRingQuery d r i s = (v.writeRefused { kind := .cmdWrite, ring := ringG d r, idx := i } (ringDom (ringG d r)) (v.ring (ringG d r)).cls
      (rcAddr x.bytes) (v.ctxBytes t) false).finishCmd (ringG d r) i x.bytes 0x36 :=
  (doRingQuery_reach s d r i x h form reach aligned v hv t ht).trans (by rw [refused])

theorem State.writeRefused_window (s : State) (org : Org) (d cls addr : Nat) (data : List Byte) (ro : Bool) :
    (s.writeRefused org d cls addr data ro).fld F.HQE_CNT1.WINDOW = min F.HQE_CNT1.WINDOW.max (s.fld F.HQE_CNT1.WINDOW + 1) := by
  have pushed (n : Nat) (ex : List (Nat × Nat)) : (s.pushWrites org d cls addr data ro none n ex).regs = s.regs :=
    State.each_keeps State.regs _ _ _ fun _ _ => rfl
  simp (disch := decide) only [State.writeRefused, State.windowRefused, State.pmuAdd_fld_beside, State.fld_count_same]
  rw [State.fld_of_regs (pushed _ _)]

/-- A ring without waiting entries has nothing to drain. -/
theorem State.drainCmp_empty (s : State) (g n : Nat) (queue : (s.ring g).waitQ = []) (lost : (s.ring g).lost = 0) : s.drainCmp g n = (s, []) := by
  cases n with
  | zero => rfl
  | succ n =>
    unfold State.drainCmp
    simp only [queue, lost, ne_eq, not_true_eq_false, if_false, ite_self]

/-- A ring as a resume at index `i` leaves it. -/
def Ring.resumed (i : Nat) (r : Ring) : Ring :=
  { r with st := .running, err := 0, pi := i, ci := i, fi := i, fetched := [], stopping := false, modCount := none
           started := (r.started.filter (!·.done)).map (fun x => { x with old := true }) }

theorem State.resumeRing_quiet_queue (s : State) (g i : Nat) (queue : (s.ring g).waitQ = []) (lost : (s.ring g).lost = 0) :
    s.resumeRing g i = (s.dropJobs .desc g).modRing g (Ring.resumed i) := by
  have same : ((s.dropJobs .desc g).modRing g (Ring.resumed i)).ring g = Ring.resumed i (s.ring g) := State.ring_modRing_same _ _ _
  unfold State.resumeRing
  exact congrArg State.andReport (State.drainCmp_empty _ g 65536 ((congrArg Ring.waitQ same).trans queue) ((congrArg Ring.lost same).trans lost))

/-- Settles O40. -/
theorem ringCommandsChangeTheirRing : Obligations.RingCommandsChangeTheirRing := by
  intro s d r i x g v t
  refine ⟨fun h => ?nop, fun h => ⟨fun c refused => ?refused, fun granted room => ?created⟩,
    fun h form reach => ⟨fun bad => ?notStopped, fun low stopped sub => ?destroyed⟩,
    fun h form reach => ⟨fun bad => ?notRunning, fun runs sub => ?stopped, fun runs buf bound => ?stopping⟩,
    fun h form reach low => ⟨fun bad => ?running, fun error sub cmp queue lost => ?resumed⟩,
    fun h form reach aligned => ⟨fun u ok => ?written, fun refused => ?window⟩⟩
  case nop =>
    refine congrArg Host.Outcome.next ((State.runCmd_started _ _ _ _ _ _ x h).trans ?_)
    simp only [restZero, beq_iff_eq]
    rfl
  case refused => exact congrArg Host.Outcome.next (doRingCreate_refused s d r i.toNat x c h refused)
  case created =>
    refine ⟨_, congrArg Host.Outcome.next (doRingCreate_granted s d r i.toNat x h granted room), ?_⟩
    have ring : ((v.modRing t (fun _ => createdRing x.bytes)).useCtx t).ring t = createdRing x.bytes :=
      (State.useCtx_ring _ _ _).trans (State.ring_modRing_same _ _ _)
    rw [ring]
    refine ⟨rfl, rfl, rfl, rfl, rfl, rfl, by simp [createdRing], ?_, fun q other => ?_, ?_⟩
    · exact List.mem_append_right _ List.mem_cons_self
    · rw [State.useCtx_ring, State.ring_modRing_other _ _ _ _ other]
    · simp [State.takeCmd, State.useCtx, State.modRing]
  case notStopped =>
    refine congrArg Host.Outcome.next ((doRingDestroy_reach s d r i.toNat x h form reach v rfl t rfl).trans (if_pos ?_))
    exact bad.imp id .inl
  case destroyed =>
    have acts := (doRingDestroy_reach s d r i.toNat x h form reach v rfl t rfl).trans (if_neg (by simp [stopped, sub]; omega))
    refine ⟨_, congrArg Host.Outcome.next acts, State.ring_modRing_same _ _ _, ?_, fun q other => State.ring_modRing_other _ _ _ _ other⟩
    exact fun mem => absurd (List.mem_filter.mp mem).2 (by simp)
  case notRunning =>
    exact congrArg Host.Outcome.next ((doRingStop_reach s d r i.toNat x h form reach v rfl t rfl).trans (if_pos (.inl bad)))
  case stopped =>
    have acts := (doRingStop_reach s d r i.toNat x h form reach v rfl t rfl).trans (if_neg (by simp [runs, sub]))
    rw [if_neg (by simp [sub])] at acts
    refine ⟨_, congrArg Host.Outcome.next acts, ?_⟩
    rw [State.ring_modRing_same, State.stopFetch, State.ring_modRing_same]
    rfl
  case stopping =>
    have acts := (doRingStop_reach s d r i.toNat x h form reach v rfl t rfl).trans (if_neg (by simp [runs, buf]))
    rw [if_pos ⟨buf, bound⟩] at acts
    exact ⟨_, congrArg Host.Outcome.next acts, State.ring_modRing_same _ _ _⟩
  case running =>
    refine congrArg Host.Outcome.next ((doRingResume_reach s d r i.toNat x h form reach low v rfl t rfl).trans (if_pos (.inl ?_)))
    simp [bad]
  case resumed =>
    have acts := (doRingResume_reach s d r i.toNat x h form reach low v rfl t rfl).trans (if_neg (by simp [error, sub, cmp]))
    rw [if_neg (by simp [sub])] at acts
    refine ⟨v.resumeRing t (rcIndex x.bytes), congrArg Host.Outcome.next acts, ?_⟩
    rw [State.resumeRing_quiet_queue v t _ queue lost, State.ring_modRing_same]
    exact ⟨rfl, rfl, rfl, rfl, rfl⟩
  case written =>
    refine congrArg Host.Outcome.next ((doRingQuery_reach s d r i.toNat x h form reach aligned v rfl t rfl).trans ?_)
    rw [ok]
  case window =>
    have acts := doRingQuery_refused s d r i.toNat x h form reach aligned v rfl t rfl refused
    exact ⟨_, congrArg Host.Outcome.next acts, State.writeRefused_window _ _ _ _ _ _ _⟩
end Sys2Proof.Machine
end

section
/-! PROOFS. DOM_SET, DOM_RESET and FST_COPY. -/
namespace Sys2Proof.Machine

theorem doDomSet_started (s : State) (d r i : Nat) (x : Started) (h : s.startedCmd (ringG d r) i 0x08 = some x) (v : State)
    (hv : v = s.takeCmd (ringG d r) i) : doDomSet d r i s =
      if rcReserved x.bytes true then v.finishCmd (ringG d r) i x.bytes 0x30
      else match v.readHost { kind := .cmdRead, ring := ringG d r, idx := i } (ringDom (ringG d r)) (v.ring (ringG d r)).cls (rcAddr x.bytes) 256 with
        | some u => u
        | none => (v.readRefused { kind := .cmdRead, ring := ringG d r, idx := i } (ringDom (ringG d r)) (v.ring (ringG d r)).cls (rcAddr x.bytes)
            256).finishCmd (ringG d r) i x.bytes 0x36 := by
  subst hv
  exact State.runCmd_started _ _ _ _ _ _ x h

theorem State.readHost_hqe (org : Org) (d cls addr len : Nat) (s u : State) (h : s.readHost org d cls addr len = some u) : u.hqe = s.hqe := by
  unfold State.readHost at h
  dsimp only at h
  split at h
  · obtain rfl := Option.some.inj h
    exact State.each_keeps State.hqe _ _ _ fun _ _ => rfl
  · exact nomatch h

theorem cellsGet_of_not_mem {α : Type} (d : α) (k : Nat) (l : List (Nat × α)) (h : k ∉ l.map (·.1)) : cellsGet d k l = d := by
  induction l with
  | nil => rfl
  | cons c l ih =>
    rw [List.map_cons, List.mem_cons, not_or] at h
    exact (if_neg (Ne.symm h.1)).trans (ih h.2)

theorem Tbl.get_of_not_mem_keys {α : Type} [Inhabited α] (t : Tbl α) (k : Nat) (h : k ∉ t.keys) : t.get k = default := cellsGet_of_not_mem _ _ _ h

theorem State.disableRing_ring (s : State) (g q : Nat) : (s.disableRing g).ring q = if q = g then {} else s.ring q := by
  by_cases h : q = g
  · rw [if_pos h, h]
    exact State.ring_modRing_same _ _ _
  · rw [if_neg h]
    exact State.ring_modRing_other _ _ _ _ h

theorem State.disableRings_ring (s : State) (l : List Nat) (q : Nat) : (s.each l State.disableRing).ring q = if q ∈ l then {} else s.ring q := by
  unfold State.each
  induction l generalizing s with
  | nil => rfl
  | cons g l ih =>
    rw [List.foldl_cons, ih, State.disableRing_ring]
    by_cases here : q = g <;> by_cases later : q ∈ l <;> simp [here, later]

/-- The rings of domain `t` are disabled, and no other. -/
theorem State.disableDomain_ring (s : State) (t q : Nat) :
    (s.each (s.hqe.rings.keys.filter (fun g => ringDom g == t)) State.disableRing).ring q = if ringDom q = t then {} else s.ring q := by
  rw [State.disableRings_ring]
  by_cases mine : ringDom q = t
  · rw [if_pos mine]
    by_cases used : q ∈ s.hqe.rings.keys
    · exact if_pos (List.mem_filter.mpr ⟨used, by simp [mine]⟩)
    · exact (ite_eq_left_iff.mpr fun _ => Tbl.get_of_not_mem_keys _ _ used)
  · rw [if_neg mine]
    exact if_neg fun mem => mine (by simpa using (List.mem_filter.mp mem).2)

/-- The state without the rings, the domains and the jobs, which a DOM_RESET changes in an idle domain. -/
def State.besideRings (s : State) : State := { s with hqe := {}, gwl := {} }

theorem State.disableRing_besideRings (s : State) (g : Nat) : (s.disableRing g).besideRings = s.besideRings := by
  simp [State.disableRing, State.besideRings, State.modRing, State.dropJobs, State.modHqe]

theorem State.disableRings_besideRings (s : State) (l : List Nat) : (s.each l State.disableRing).besideRings = s.besideRings :=
  State.each_keeps State.besideRings _ _ _ fun g t => t.disableRing_besideRings g

/-- A DOM_RESET of a domain without products and with the product engine idle disables the domain's rings and the domain. -/
def State.domEmptied (t g i : Nat) (s : State) : State :=
  (s.each (s.hqe.rings.keys.filter (fun q => ringDom q == t)) State.disableRing).modDom t (fun _ => { resetBy := some (g, i) })

theorem State.domEmptied_besideRings (s : State) (t g i : Nat) : (s.domEmptied t g i).besideRings = s.besideRings :=
  s.disableRings_besideRings _

theorem State.ownedBy_of_besideRings {s t : State} (h : t.besideRings = s.besideRings) (d : Nat) : t.ownedBy d = s.ownedBy d := by
  have regs : t.regs = s.regs := (congrArg State.regs h :)
  have prd : t.prd = s.prd := (congrArg State.prd h :)
  unfold State.ownedBy State.products State.prdSt State.product State.fld State.rd
  rw [regs, prd]

theorem State.modPrd_same (s : State) (f : Prd → Prd) (h : f s.prd = s.prd) : s.modPrd f = s := by
  unfold State.modPrd
  rw [h]

theorem State.startPrd_idle (s : State) (h : s.prd.queue = []) : s.startPrd = s := by
  unfold State.startPrd State.startPrds
  rw [h]

theorem doDomReset_started (s : State) (d r i : Nat) (x : Started) (h : s.startedCmd (ringG d r) i 0x09 = some x)
    (form : rcReserved x.bytes false = false) (v : State) (hv : v = s.takeCmd (ringG d r) i)
    (bad : rcDom x.bytes = 0 ∨ (v.dom (rcDom x.bytes)).en = false) : doDomReset d r i s = v.finishCmd (ringG d r) i x.bytes 0x33 := by
  subst hv
  unfold doDomReset
  rw [State.runCmd_started _ _ _ _ _ _ x h]
  refine (if_neg (by simp [form])).trans (if_pos ?_)
  simpa using bad

theorem doDomReset_idle (s : State) (d r i : Nat) (x : Started) (h : s.startedCmd (ringG d r) i 0x09 = some x)
    (form : rcReserved x.bytes false = false) (v : State) (hv : v = s.takeCmd (ringG d r) i) (other : rcDom x.bytes ≠ 0)
    (en : (v.dom (rcDom x.bytes)).en = true) (owned : v.ownedBy (rcDom x.bytes) = []) (queue : v.prd.queue = []) :
    doDomReset d r i s = State.andReport ((v.domEmptied (rcDom x.bytes) (ringG d r) i).resetDone (rcDom x.bytes)) := by
  subst hv
  obtain ⟨v, hv⟩ : ∃ v, v = s.takeCmd (ringG d r) i := ⟨_, rfl⟩
  rw [← hv] at en owned queue
  obtain ⟨u, hu⟩ : ∃ u, u = v.domEmptied (rcDom x.bytes) (ringG d r) i := ⟨_, rfl⟩
  have view : u.besideRings = v.besideRings := hu ▸ v.domEmptied_besideRings _ _ _
  have owned' : u.ownedBy (rcDom x.bytes) = [] := (State.ownedBy_of_besideRings view _).trans owned
  have queue' : u.prd.queue = [] := (congrArg (fun t : State => t.prd.queue) view :).trans queue
  unfold doDomReset
  rw [State.runCmd_started _ _ _ _ _ _ x h, ← hv]
  refine (if_neg (by simp [form])).trans ((if_neg (by simp [other, en])).trans ?_)
  dsimp only
  rw [owned, List.filter_nil, State.each_nil]
  rw [State.domEmptied] at hu
  rw [← hu, State.modPrd_same u _ (by rw [queue', List.filter_nil, ← queue']), u.startPrd_idle queue', owned', State.each_nil, hu]
  rfl

theorem State.resetDone_idle (s : State) (d g i : Nat) (by' : (s.dom d).resetBy = some (g, i)) (owned : s.ownedBy d = []) :
    s.resetDone d = (s.modDom d (fun q => { q with resetBy := none }),
      s.completion g i (((s.ring g).started.find? (fun x => x.idx == i)).elim [] (·.bytes)) 0 0xFF 0 0 s.now) := by
  unfold State.resetDone
  rw [by']
  dsimp only
  rw [owned]
  rfl

theorem State.dom_modDom (s : State) (d : Nat) (f : Dom → Dom) : (s.modDom d f).dom d = f (s.dom d) := Tbl.get_upd_same _ _ _

/-- The status of an FST_COPY of good form, once the store is ready. -/
theorem doFstCopy_started (s : State) (d r i : Nat) (x : Started) (h : s.startedCmd (ringG d r) i 0x10 = some x) (v : State)
    (hv : v = s.takeCmd (ringG d r) i) (form : leAt x.bytes 24 8 = 0) : doFstCopy d r i s =
      match (if ¬ v.flag F.FST_STAT.READY then some 0x39
        else if leAt x.bytes 8 8 % 64 ≠ 0 then some 0x34
        else if 64 ≤ cfld x.bytes 16 15 0 ∨ ¬ v.flag F.FST_RGN.EN (cfld x.bytes 16 15 0) ∨ v.fld F.FST_RGN.KIND (cfld x.bytes 16 15 0) ≠ 0
          ∨ (v.fst.geo.get (cfld x.bytes 16 15 0)).size = 0
          ∨ v.fld F.FST_RGN.SIZE (cfld x.bytes 16 15 0) * 2 ^ 21 < (cfld x.bytes 16 31 16 + 1) * (v.fst.geo.get (cfld x.bytes 16 15 0)).size
          ∨ ¬ slotValid (v.fstRow (v.slotAddr (cfld x.bytes 16 15 0) (cfld x.bytes 16 31 16) / 1024)) then some 0x38
        else none) with
      | some c => v.finishCmd (ringG d r) i x.bytes c
      | none => v.modFst (fun f => { f with copies := f.copies ++ [{ ring := ringG d r, idx := i, bytes := x.bytes }] }) := by
  subst hv
  unfold doFstCopy
  rw [State.runCmd_started _ _ _ _ _ _ x h]
  dsimp only
  rw [if_neg (not_not_intro form)] <;> rfl

/-- Settles O41. -/
theorem domainCommandsAndCopiesStart : Obligations.DomainCommandsAndCopiesStart := by
  intro s d r i x g v
  refine ⟨fun h => ⟨fun bad => ?reserved, fun form u read => ⟨?read, ?readHqe⟩⟩,
    fun h form => ⟨fun bad => ?notEnabled, fun other en owned queue => ?emptied⟩,
    fun h form => ⟨fun off => ?notReady, fun ready aligned => ?copy⟩⟩
  case reserved => exact congrArg Host.Outcome.next ((doDomSet_started s d r i.toNat x h v rfl).trans (if_pos bad))
  case read =>
    refine congrArg Host.Outcome.next ((doDomSet_started s d r i.toNat x h v rfl).trans ((if_neg (by simp [form])).trans ?_))
    rw [read]
  case readHqe => exact State.readHost_hqe _ _ _ _ _ _ _ read
  case notEnabled => exact congrArg Host.Outcome.next (doDomReset_started s d r i.toNat x h form v rfl bad)
  case emptied =>
    have acts := doDomReset_idle s d r i.toNat x h form v rfl other en owned queue
    obtain ⟨u, hu⟩ : ∃ u, u = v.domEmptied (rcDom x.bytes) g i.toNat := ⟨_, rfl⟩
    have view : u.besideRings = v.besideRings := hu ▸ v.domEmptied_besideRings _ _ _
    have by' : (u.dom (rcDom x.bytes)).resetBy = some (g, i.toNat) := by rw [hu, State.domEmptied, State.dom_modDom]
    have off : (u.dom (rcDom x.bytes)).en = false := by rw [hu, State.domEmptied, State.dom_modDom]
    have rings (q : Nat) : u.ring q = if ringDom q = rcDom x.bytes then {} else v.ring q := hu ▸ v.disableDomain_ring _ q
    rw [← hu, State.resetDone_idle u _ g i.toNat by' ((State.ownedBy_of_besideRings view _).trans owned)] at acts
    refine ⟨u.modDom (rcDom x.bytes) (fun q => { q with resetBy := none }), _, congrArg Host.Outcome.next acts, ?_, fun q mine => ?_,
      fun q other => ?_,
      List.cons_ne_nil _ _⟩
    · rw [State.dom_modDom]
      exact off
    · exact (rings q).trans (if_pos mine)
    · exact (rings q).trans (if_neg other)
  case notReady =>
    have acts := doFstCopy_started s d r i.toNat x h v rfl form
    have off' : v.flag F.FST_STAT.READY = false := off
    rw [if_pos (by simp [off'])] at acts
    exact congrArg Host.Outcome.next acts
  case copy =>
    intro rg k within en kind size fits
    have acts := doFstCopy_started s d r i.toNat x h v rfl form
    have ready' : v.flag F.FST_STAT.READY = true := ready
    rw [if_neg (by simp [ready']), if_neg (by simp [aligned])] at acts
    refine ⟨fun valid => ?_, fun bad => ?_⟩
    · rw [if_neg ?_] at acts
      · exact congrArg Host.Outcome.next acts
      · rintro (big | shut | other | empty | long | bad)
        · exact absurd big (Nat.not_le.mpr within)
        · exact shut en
        · exact other kind
        · exact size empty
        · exact absurd long (Nat.not_lt.mpr fits)
        · exact bad valid
    · rw [if_pos (by simp [bad, rg, k])] at acts
      exact congrArg Host.Outcome.next acts
end Sys2Proof.Machine
end

section
/-! PROOFS. The queue engine's enable, its admin rings and the context cache. -/
namespace Sys2Proof.Machine

theorem State.cacheCtx_room (s : State) (g : Nat) (room : s.hqe.cache.length < 4096) : s.cacheCtx g = s.useCtx g := if_pos (.inr room)

/-- The queue engine as its enable leaves it, with the windows and the admin rings of the registers. -/
def State.enabledHqe (s : State) (wins : List Win) : Hqe :=
  { rings := (({} : Tbl Ring).upd 0 (fun _ => { typ := .sub, st := .running, pin := true, k := min 16 (s.fld F.HQE_ADMIN_CFG.SUB_SIZE + 4), cmp := 1
                                                base := s.fld F.HQE_ASUB_HI.BASE_HI * 2 ^ 32 + s.fld F.HQE_ASUB_LO.BASE_LO * 4096 })).upd 1
      (fun _ => { typ := .cmp, st := .running, pin := true, k := min 16 (s.fld F.HQE_ADMIN_CFG.CMP_SIZE + 4), armed := true
                  base := s.fld F.HQE_ACMP_HI.BASE_HI * 2 ^ 32 + s.fld F.HQE_ACMP_LO.BASE_LO * 4096
                  vector := s.fld F.HQE_ADMIN_CFG.VECTOR, modCnt := s.fld F.HQE_ADMIN_CFG.MOD_CNT })
    doms := ({} : Tbl Dom).upd 0 (fun _ => { en := true, remote := 0, evtRing := 1, wins := wins })
    cache := [0, 1] }

theorem State.modHqe_modHqe (s : State) (f g : Hqe → Hqe) : (s.modHqe f).modHqe g = s.modHqe (fun h => g (f h)) := (rfl)

/-- With no context cached the two admin rings of domain 0 are made and cached. -/
theorem State.createAdmin_fresh (s : State) (a b k l v m : Nat) (fresh : s.hqe.cache = []) : s.createAdmin 0 a b k l v m true =
    s.modHqe (fun h => { h with
      rings := (h.rings.upd 0 (fun _ => { typ := .sub, st := .running, pin := true, k := min 16 k, cmp := 1, base := a })).upd 1
        (fun _ => { typ := .cmp, st := .running, pin := true, k := min 16 l, base := b, armed := true, vector := v, modCnt := m })
      cache := [0, 1] }) := by
  unfold State.createAdmin
  dsimp only
  rw [State.cacheCtx_room _ (ringG 0 0) (by simp [State.modRing, fresh]), State.cacheCtx_room _ _ (by simp [State.modRing, State.useCtx, fresh])]
  simp only [State.modRing, State.useCtx, State.modHqe_modHqe]
  simp only [State.modHqe, fresh, ringG]
  rfl

/-- Enabling the engine makes the admin rings, and shows that the engine runs. -/
theorem State.hqeEnable_eq (s : State) : ∃ wins, s.hqeEnable =
    (((s.setFlag F.HQE_CTRL.EN).setFlag F.HQE_STAT.RUNNING).modHqe (fun _ => s.enabledHqe wins)).when
      (s.flag F.FST_STAT.READY) State.backContexts := by
  refine ⟨(List.range 8).map (fun w =>
    ({ base := s.fld F.HQE_WIN1.BASE_HI w * 2 ^ 32 + s.fld F.HQE_WIN0.BASE_LO w * 4096, pages := s.fld F.HQE_WIN2.SIZE w
       rd := s.flag F.HQE_WIN0.RD w, wr := s.flag F.HQE_WIN0.WR w } : Win)), ?_⟩
  unfold State.hqeEnable State.enabledHqe
  dsimp only
  rw [State.createAdmin_fresh _ _ _ _ _ _ _ (by simp only [State.modDom, State.modHqe_hqe])]
  simp (disch := decide) only [State.modDom, State.modHqe_fld, State.modHqe_flag, State.fld_setFlag_kind, State.flag_setFlag_kind,
    State.modHqe_modHqe]

theorem State.dropJobs_ring (s : State) (k : OrgKind) (g q : Nat) : (s.dropJobs k g).ring q = s.ring q := (rfl)

theorem State.backContexts_cases (s : State) (c : Bool) : s.when c State.backContexts = s ∨ s.when c State.backContexts
    = s.setFlag F.HQE_STAT.CTX_HBM := by
  cases c
  · exact .inl rfl
  · rw [State.when_true, State.backContexts]
    cases s.flag F.HQE_CTRL.EN
    · exact .inl rfl
    · exact .inr rfl

/-- The registers and the other parts of the state after the enable, with or without room for contexts in the frame store. -/
theorem State.enabled_shown (s : State) (h : Hqe) (w t : State) (hw : w = ((s.setFlag F.HQE_CTRL.EN).setFlag F.HQE_STAT.RUNNING).modHqe (fun _ => h))
    (ht : t = w ∨ t = w.setFlag F.HQE_STAT.CTX_HBM) : t.hqe = h ∧ t.flag F.HQE_CTRL.EN = true ∧ t.flag F.HQE_STAT.RUNNING = true
      ∧ SameRegs [⟨.HQE_CTRL, 0, 0⟩, ⟨.HQE_STAT, 0, 0⟩] s t ∧ { t with regs := s.regs, hqe := s.hqe } = s := by
  subst hw
  have same : SameRegs [⟨.HQE_CTRL, 0, 0⟩, ⟨.HQE_STAT, 0, 0⟩] s (((s.setFlag F.HQE_CTRL.EN).setFlag F.HQE_STAT.RUNNING).modHqe (fun _ => h)) :=
    (((SameRegs.refl _ s).andFlag (by repeat constructor) (by omega)).andFlag (by repeat constructor) (by omega)).of_regs (State.modHqe_regs _ _)
  rcases ht with rfl | rfl
  · refine ⟨State.modHqe_hqe _ _, ?_, ?_, same, by simp⟩ <;>
      simp (disch := decide) only [State.modHqe_flag, State.flag_setFlag_same, State.flag_setFlag_kind]
  · refine ⟨by simp, ?_, ?_, same.andFlag (by repeat constructor) (by omega), by simp⟩ <;>
      simp (disch := decide) only [State.modHqe_flag, State.flag_setFlag_same, State.flag_setFlag_kind, State.flag_setFlag_beside]

theorem State.enabledHqe_other (s : State) (wins : List Win) (q : Nat) (h : 2 ≤ q) : (s.enabledHqe wins).rings.get q = {} := by
  unfold State.enabledHqe
  rw [Tbl.get_upd_other _ _ _ _ (by omega), Tbl.get_upd_other _ _ _ _ (by omega)]
  rfl

/-- Settles O42. -/
theorem theQueueEngineEnablesAndCaches : Obligations.TheQueueEngineEnablesAndCaches := by
  refine fun s => ⟨fun off => ?enable, fun on => congrArg Host.Outcome.next (if_pos on), fun on q0 l0 q1 l1 => ?resume,
    fun off => congrArg Host.Outcome.next (if_neg (by simp [off])), fun g due room => ?fill, fun g idle => ?idle⟩
  case enable =>
    obtain ⟨wins, enabled⟩ := s.hqeEnable_eq
    obtain ⟨w, hw⟩ : ∃ w, w = ((s.setFlag F.HQE_CTRL.EN).setFlag F.HQE_STAT.RUNNING).modHqe (fun _ => s.enabledHqe wins) := ⟨_, rfl⟩
    rw [← hw] at enabled
    have acts : doHqeEnable s = w.when (s.flag F.FST_STAT.READY) State.backContexts := (if_neg (by simp [off])).trans enabled
    obtain ⟨hqe, en, runs, same, rest⟩ := s.enabled_shown (s.enabledHqe wins) w _ hw (w.backContexts_cases (s.flag F.FST_STAT.READY))
    refine ⟨_, congrArg Host.Outcome.next acts, en, runs, ?_⟩
    unfold State.ring State.dom
    rw [hqe]
    exact ⟨rfl, rfl, rfl, rfl, rfl, rfl, rfl, rfl, rfl, rfl, s.enabledHqe_other wins, rfl, rfl, same, rest⟩
  case resume =>
    have first := s.resumeRing_quiet_queue 1 0 q1 l1
    have same : (s.resumeRing 1 0).ring 0 = s.ring 0 := by
      rw [first, State.ring_modRing_other _ _ _ _ (by decide)]
      rfl
    have second := (s.resumeRing 1 0).resumeRing_quiet_queue 0 0 (by rw [same, q0]) (by rw [same, l0])
    have acts : doAdminResume s = _ := (if_pos on).trans second
    rw [first] at acts
    have ring (q : Nat) : (((((s.dropJobs .desc 1).modRing 1 (Ring.resumed 0)).dropJobs .desc 0).modRing 0 (Ring.resumed 0)).ring q)
        = if q < 2 then Ring.resumed 0 (s.ring q) else s.ring q := by
      by_cases zero : q = 0
      · rw [zero, State.ring_modRing_same, State.dropJobs_ring, State.ring_modRing_other _ _ _ _ (by decide), State.dropJobs_ring]
        rfl
      · rw [State.ring_modRing_other _ _ _ _ zero, State.dropJobs_ring]
        by_cases one : q = 1
        · rw [one, State.ring_modRing_same, State.dropJobs_ring]
          rfl
        · rw [State.ring_modRing_other _ _ _ _ one, State.dropJobs_ring, if_neg (by omega)]
    refine ⟨_, congrArg Host.Outcome.next acts, fun q low => ?_, fun q high => ?_, ?_, ?_, ?_⟩
    · rw [ring, if_pos low]
      exact ⟨rfl, rfl, rfl, rfl, rfl, rfl, rfl⟩
    · rw [ring, if_neg (by omega)]
    all_goals simp [State.modRing, State.dropJobs]
  case fill =>
    have waits : s.hqe.fills.any (· == g.toNat) = true := List.any_eq_true.mpr ⟨_, due, beq_self_eq_true _⟩
    have acts : doContextFill g.toNat s = _ := if_pos waits
    rw [State.cacheCtx_room _ _ (by exact room)] at acts
    refine ⟨_, congrArg Host.Outcome.next acts, List.mem_append_right _ List.mem_cons_self, fun mem => ?_, fun q cached => ?_,
      by simp [State.useCtx], by simp [State.useCtx]⟩
    · simpa using (List.mem_filter.mp mem).2
    · by_cases h : q = g.toNat
      · exact List.mem_append_right _ (h ▸ List.mem_cons_self)
      · exact List.mem_append_left _ (List.mem_filter.mpr ⟨cached, by simp [h]⟩)
  case idle =>
    refine congrArg Host.Outcome.next (if_neg fun h => ?_)
    obtain ⟨x, mem, same⟩ := List.any_eq_true.mp h
    exact idle (beq_iff_eq.mp same ▸ mem)
end Sys2Proof.Machine
end

section
/-! PROOFS. The lines that the host writes through its aperture. -/
namespace Sys2Proof.Machine

theorem State.discardTxn_shown (s : State) : s.discardTxn.fld F.GWL_CNT4.DISCARD = min F.GWL_CNT4.DISCARD.max (s.fld F.GWL_CNT4.DISCARD + 1)
    ∧ SameRegs [⟨.GWL_CNT4, 0, 0⟩] s s.discardTxn ∧ { s.discardTxn with regs := s.regs } = s :=
  ⟨State.fld_count_same _ _ _ _ (by decide) (by decide), (SameRegs.refl _ s).andCount (by repeat constructor) (by omega),
    State.regs_back (State.count_offRegs _ _ _ _)⟩

/-- A new line of the host claims pool space without a write of a register. -/
theorem State.claimHost_kept (s : State) (n : Nat) (h : HostOpen) (plain : h.credHdr = 0) :
    (s.claimHost n h).1.disp = s.disp ∧ (s.claimHost n h).1.regs = s.regs ∧ (s.claimHost n h).2.frame = h.frame
      ∧ (s.claimHost n h).2.line = h.line ∧ (s.claimHost n h).2.layer = h.layer ∧ (s.claimHost n h).2.bytes = h.bytes
      ∧ (s.claimHost n h).2.data = h.data := by
  unfold State.claimHost
  dsimp only
  split
  · exact ⟨rfl, rfl, rfl, rfl, rfl, rfl, rfl⟩
  · split
    · exact ⟨rfl, rfl, rfl, rfl, rfl, rfl, rfl⟩
    · split
      · exact ⟨rfl, rfl, rfl, rfl, rfl, rfl, rfl⟩
      · refine ⟨?_, ?_, rfl, rfl, rfl, rfl, rfl⟩ <;>
          (rw [plain, State.putLine]; split <;> rfl)

theorem State.hostErr_closed (s : State) (n : Nat) (closed : (s.disp.get n).host = none) : s.hostErr n
    = s.setFlag F.DEG_PORT_STAT.HOST_ERR true n := by
  unfold State.hostErr
  dsimp only
  rw [State.setFlag_disp, closed]

theorem State.hostErr_shown (s : State) (n : Fin 4) (closed : (s.disp.get n).host = none) : (s.hostErr n).flag F.DEG_PORT_STAT.HOST_ERR n = true
    ∧ SameRegs [⟨.DEG_PORT_STAT, n, 0⟩] s (s.hostErr n) ∧ { s.hostErr n with regs := s.regs } = s := by
  rw [s.hostErr_closed n closed]
  exact ⟨State.flag_setFlag_same _ _ _ _ _ rfl (by decide), (SameRegs.refl _ s).andFlag (by repeat constructor) (by omega),
    State.regs_back (State.setFlag_offRegs _ _ _ _ _)⟩

theorem State.hostHeader_discarded (s : State) (n : Nat) (b : List Byte)
    (h : b.length ≠ 16 ∨ s.fcl.safe = true) : s.hostHeader n 0 0 b = s.discardTxn :=
  if_pos h

theorem State.hostHeader_good (s : State) (n : Nat) (b : List Byte) (calm : s.fcl.safe = false) (len : b.length = 16)
    (closed : (s.disp.get n).host = none) : s.hostHeader n 0 0 b =
      if leAt b 6 1 ≤ 3 ∧ s.fld F.DEG_LAYER_CFG.SRC n (leAt b 6 1) = 1 ∧ leAt b 4 2 < s.fld F.DEG_LAYER_SIZE.H n (leAt b 6 1)
          ∧ leAt b 8 4 = 4 * s.fld F.DEG_LAYER_SIZE.W n (leAt b 6 1) then
        let h : HostOpen := { frame := leAt b 0 4, line := leAt b 4 2, layer := leAt b 6 1, bytes := leAt b 8 4 }
        let p := if (s.disp.get n).stalled = [] then s.claimHost n h else (s, h)
        (p.1.setCtx unitGwRx n (SealCtx.line (hostHead n (leAt b 6 1) (leAt b 0 4) (leAt b 4 2)))).modDisp n (fun d => { d with host := some p.2 })
      else s.hostErr n := by
  unfold State.hostHeader
  dsimp only
  rw [if_neg (by simp [calm, len]), closed]
  rfl

theorem State.hostData_discarded (s : State) (n o : Nat) (b : List Byte)
    (h : s.fcl.safe = true ∨ b.length < 4 ∨ 4096 < b.length ∨ b.length % 4 ≠ 0 ∨ o % 4 ≠ 0 ∨ 4096 < o % 4096 + b.length) :
    s.hostData n o 0 0 b = s.discardTxn := if_pos h

/-- Data of a good form that is next in its line joins the line and its seal; the last of it ends the line. -/
theorem State.hostData_next (s : State) (n o : Nat) (b : List Byte) (h : HostOpen) (calm : s.fcl.safe = false) (short : 4 ≤ b.length)
    (long : b.length ≤ 4096) (words : b.length % 4 = 0) (aligned : o % 4 = 0) (page : o % 4096 + b.length ≤ 4096)
    (opened : (s.disp.get n).host = some h) (next : o = h.data.length) (within : o + b.length ≤ h.bytes) : s.hostData n o 0 0 b =
      if o + b.length < h.bytes then
        (s.setCtx unitGwRx n ((s.ctxOf unitGwRx n).take b)).modDisp n (fun d => { d with host := some { h with data := h.data ++ b } })
      else
        let h' := { h with data := h.data ++ b, sealVal := ((s.ctxOf unitGwRx n).take b).seal }
        let t := (s.setCtx unitGwRx n {}).modDisp n (fun d => { d with host := none })
        match h.dir with
        | some d => t.sealHost n d h'
        | none => t.modDisp n (fun d => { d with stalled := d.stalled ++ [h'] }) := by
  unfold State.hostData
  dsimp only
  rw [if_neg (by simp [calm]; omega), opened]
  dsimp only
  rw [if_neg (by omega)]
  have len : (h.data ++ b).length = o + b.length := by rw [List.length_append, next]
  simp only [ite_self, Nat.add_zero, len, bne_self_eq_false, State.when_false] <;> rfl

theorem State.hostData_closed (s : State) (n o : Nat) (b : List Byte) (calm : s.fcl.safe = false) (short : 4 ≤ b.length)
    (long : b.length ≤ 4096) (words : b.length % 4 = 0) (aligned : o % 4 = 0) (page : o % 4096 + b.length ≤ 4096)
    (closed : (s.disp.get n).host = none) : s.hostData n o 0 0 b = s.hostErr n := by
  unfold State.hostData
  dsimp only
  rw [if_neg (by simp [calm]; omega), closed]
  rfl

theorem State.ctxOf_setCtx (s : State) (u k : Nat) (c : SealCtx) : (s.setCtx u k c).ctxOf u k = c := Tbl.get_set_same _ _ _

theorem State.modDisp_ctxOf (s : State) (n : Nat) (f : Disp → Disp) (u k : Nat) : (s.modDisp n f).ctxOf u k = s.ctxOf u k := (rfl)

theorem SealCtx.seal_take_take (head a b : List Byte) : ((((SealCtx.line head).take a).take b).seal) = crc32c (head ++ (a ++ b)) := by
  unfold crc32c SealCtx.seal SealCtx.take SealCtx.line crc32cRun
  dsimp only
  rw [List.foldl_append, List.foldl_append]

theorem State.setCtx_disp (s : State) (u k : Nat) (c : SealCtx) : (s.setCtx u k c).disp = s.disp := (rfl)

theorem State.line_modLine_same (s : State) (d : Nat) (f : PLine → PLine) : (s.modLine d f).line d = (s.line d).map f := Tbl.get_upd_same _ _ _

theorem State.line_modLine_other (s : State) (d x : Nat) (f : PLine → PLine) (h : x ≠ d) : (s.modLine d f).line x = s.line x :=
  Tbl.get_upd_other _ _ _ _ h

theorem State.pmuAdd_line (s : State) (ev i n : Nat) (c : Option Nat) (d : Nat) : (s.pmuAdd ev i n c).line d = s.line d := by
  unfold State.line
  rw [State.pmuAdd_pool]

theorem State.sealHost_disp (s : State) (n d : Nat) (h : HostOpen) : (s.sealHost n d h).disp = s.disp := State.pmuAdd_disp _ _ _ _ _

theorem State.line_sealHost_same (s : State) (n d : Nat) (h : HostOpen) (l : PLine) (line : s.line d = some l) : (s.sealHost n d h).line d
    = some { l with data := h.data, sealVal := h.sealVal, ready := true, published := true, holders := [n] } := by
  rw [State.sealHost, State.pmuAdd_line, State.line_modLine_same, line, Option.map_some]

theorem State.line_sealHost_other (s : State) (n d x : Nat) (h : HostOpen) (other : x ≠ d) : (s.sealHost n d h).line x = s.line x := by
  rw [State.sealHost, State.pmuAdd_line, State.line_modLine_other _ _ _ _ other]

/-- Settles O45. -/
theorem hostWritesLinesThroughItsAperture : Obligations.HostWritesLinesThroughItsAperture := by
  refine fun s n b => ⟨fun bad => ?discarded, fun calm len closed layer src line width => ?opened, fun calm len closed layer => ?layer,
    fun o calm short long words aligned page => ⟨fun closed => ?closed, fun h opened next more => ?more,
      fun h d l opened dir line next last ctx => ?last⟩,
    fun o bad => ?lost⟩
  case discarded => exact ⟨_, congrArg Host.Outcome.next (s.hostHeader_discarded n b bad), s.discardTxn_shown⟩
  case opened =>
    have acts := (s.hostHeader_good n b calm len closed).trans (if_pos ⟨layer, src, line, width⟩)
    let h : HostOpen := { frame := leAt b 0 4, line := leAt b 4 2, layer := leAt b 6 1, bytes := leAt b 8 4 }
    obtain ⟨p, hp⟩ : ∃ p, p = if (s.disp.get n).stalled = [] then s.claimHost n h else (s, h) := ⟨_, rfl⟩
    have kept : p.1.disp = s.disp ∧ p.1.regs = s.regs ∧ p.2.frame = h.frame ∧ p.2.line = h.line ∧ p.2.layer = h.layer ∧ p.2.bytes = h.bytes
        ∧ p.2.data = h.data := by
      rw [hp]
      split
      · exact s.claimHost_kept n h rfl
      · exact ⟨rfl, rfl, rfl, rfl, rfl, rfl, rfl⟩
    obtain ⟨disp, regs, frame, line', layer', bytes, data⟩ := kept
    dsimp only at acts
    rw [← hp] at acts
    refine ⟨_, p.2, congrArg Host.Outcome.next acts, ?_, frame, line', layer', bytes, data, ?_, ?_, regs⟩
    · rw [State.modDisp, Tbl.get_upd_same]
    · rw [State.modDisp_ctxOf, State.ctxOf_setCtx]
    · rw [State.modDisp, Tbl.get_upd_same, State.setCtx_disp, disp]
  case layer =>
    have acts := (s.hostHeader_good n b calm len closed).trans (if_neg (by omega))
    exact ⟨_, congrArg Host.Outcome.next acts, s.hostErr_shown n closed⟩
  case closed =>
    exact ⟨_, congrArg Host.Outcome.next (s.hostData_closed n o.toNat b calm short long words aligned page closed), s.hostErr_shown n closed⟩
  case more =>
    have acts := (s.hostData_next n o.toNat b h calm short long words aligned page opened next (by omega)).trans (if_pos more)
    refine ⟨_, congrArg Host.Outcome.next acts, ?_, ?_, ?_⟩
    · rw [State.modDisp, Tbl.get_upd_same]
    · rw [State.modDisp_ctxOf, State.ctxOf_setCtx]
    · simp [State.setCtx, State.modSeals]
  case last =>
    have acts := (s.hostData_next n o.toNat b h calm short long words aligned page opened next (by omega)).trans (if_neg (by omega))
    dsimp only at acts
    rw [dir] at acts
    obtain ⟨w, hw⟩ : ∃ w, w = (s.setCtx unitGwRx n {}).modDisp n (fun d => { d with host := none }) := ⟨_, rfl⟩
    have host : (w.disp.get n).host = none := by rw [hw, State.modDisp, Tbl.get_upd_same]
    have line' (x : Nat) : w.line x = s.line x := by rw [hw]; rfl
    rw [← hw] at acts
    refine ⟨_, _, congrArg Host.Outcome.next acts, ?_, State.line_sealHost_same _ _ _ _ l ((line' d).trans line), rfl, rfl, ?_, fun x other => ?_⟩
    · rw [State.sealHost_disp, host]
    · rw [ctx]
      exact SealCtx.seal_take_take _ _ _
    · rw [State.line_sealHost_other _ _ _ _ _ other, line']
  case lost => exact ⟨_, congrArg Host.Outcome.next (s.hostData_discarded n o.toNat b bad), s.discardTxn_shown⟩
end Sys2Proof.Machine
end

section
/-! PROOFS. The link of a display port, and the lines of its frames. -/
namespace Sys2Proof.Machine

theorem State.modDisp_get_same (s : State) (n : Nat) (f : Disp → Disp) : (s.modDisp n f).disp.get n = f (s.disp.get n) := Tbl.get_upd_same _ _ _

theorem State.modDisp_get_other (s : State) (n k : Nat) (f : Disp → Disp) (h : k ≠ n) : (s.modDisp n f).disp.get k = s.disp.get k :=
  Tbl.get_upd_other _ _ _ _ h

theorem State.modDisp_flag (s : State) (n : Nat) (f : Disp → Disp) (g : Fld) (i j : Nat) : (s.modDisp n f).flag g i j = s.flag g i j := (rfl)

/-- A tunnel without transfers goes down. -/
def State.tunClosed (s : State) (p : Nat) : State := (s.each (List.range 4) (fun k s => doCacheLineExpiry p k s)).modTun p (fun _ => {})

theorem State.tunDown_idle (s : State) (p : Nat) (jobs : (s.vbr.tun.get p).jobs = []) (held : (s.vbr.tun.get p).held = []) :
    s.tunDown p = s.tunClosed p := by
  unfold State.tunDown
  dsimp only
  rw [jobs, held, State.each_nil, State.each_nil]
  rfl

/-- The state without the bridge. -/
def State.offVbr (s : State) : State := { s with vbr := {} }

theorem State.tunClosed_offVbr (s : State) (p : Nat) : (s.tunClosed p).offVbr = s.offVbr := State.each_keeps State.offVbr _ _ _ fun _ _ => rfl

/-- The display port's frames that have not ended, without a link. -/
def State.cutLink (s : State) (n : Nat) : State :=
  (s.setFlag F.DEG_PORT_STAT.LINK_UP false n).modDisp n
    (fun d => { d with frames := d.frames.map (fun q => if q.spent then q else { q with ok := false }) })

theorem State.dispDown_quiet (s : State) (n : Nat) (jobs : (s.vbr.tun.get (28 + n)).jobs = []) (held : (s.vbr.tun.get (28 + n)).held = []) :
    s.dispDown n false = (s.cutLink n).tunClosed (28 + n) := by
  have down : (s.cutLink n).tunDown (28 + n) = (s.cutLink n).tunClosed (28 + n) := State.tunDown_idle _ _ jobs held
  unfold State.dispDown
  dsimp only
  rw [if_neg (by simp)]
  exact down

theorem State.dispDown_lost (s : State) (n : Nat) (jobs : (s.vbr.tun.get (28 + n)).jobs = []) (held : (s.vbr.tun.get (28 + n)).held = [])
    (up : s.flag F.DEG_PORT_STAT.LINK_UP n = true) (t : State) (ht : t = (s.cutLink n).tunClosed (28 + n)) : s.dispDown n true =
      ((t.setFlag F.DEG_PORT_STAT.LINK_LOST true n).raise 30 n).mgdEvent 0x43 n (t.ras.get (t.portRaster n)).frame 0 0 := by
  have down : (s.cutLink n).tunDown (28 + n) = t := ht ▸ State.tunDown_idle _ _ jobs held
  unfold State.dispDown
  dsimp only
  rw [if_pos ⟨rfl, up⟩]
  unfold State.cutLink at down
  rw [down]

theorem State.displayRun_start (s : State) (n : Nat) (idle : s.flag F.DEG_PORT_CTRL.RUN n = false) :
    s.displayRun n true = (s.setFlag F.DEG_PORT_CTRL.RUN true n).modDisp n (fun d => { d with seen := false }) := by
  unfold State.displayRun
  dsimp only
  rw [if_pos rfl, if_neg (by simp [idle])]

theorem State.setFld_products (s : State) (f : Fld) (v i j : Nat) : (s.setFld f v i j).products = s.products := (rfl)

theorem State.displayRun_stop (s : State) (n : Nat) (runs : s.flag F.DEG_PORT_CTRL.RUN n = true) (u : State)
    (hu : u = (((((s.setFlag F.DEG_PORT_CTRL.RUN false n).dispDown n false).modDisp n (fun d => { d with seen := false })).endDisplay n).setFld
      F.DEG_PORT_STAT.NOSRC 0 n)) : s.displayRun n false = (u.each u.products (fun i x => x.tryEnds i)).retryCommits := by
  subst hu
  unfold State.displayRun
  dsimp only
  rw [if_neg Bool.false_ne_true, if_pos runs, State.setFld_products]

theorem State.cutDisplay_spent (s : State) (n : Nat) (spent : ∀ q, q ∈ (s.disp.get n).frames → q.spent = true) : s.cutDisplay n = s := by
  unfold State.cutDisplay
  rw [List.filter_eq_nil_iff.mpr fun q hq => by simp [spent q hq]]
  rfl

theorem State.dframe_only (s : State) (n : Nat) (q : DispFrame) (only : (s.disp.get n).frames = [q]) : s.dframe n q.frame = some q := by
  unfold State.dframe
  rw [only]
  exact List.find?_cons_of_pos (by simp)

theorem State.cutDisplay_plain (s : State) (n : Nat) (q : DispFrame) (only : (s.disp.get n).frames = [q])
    (slots : q.slots = []) : s.cutDisplay n = s := by
  refine State.each_same _ _ _ fun f hf => ?_
  obtain ⟨x, hx, rfl⟩ := List.mem_map.mp hf
  obtain rfl : x = q := by simpa [only] using (List.mem_filter.mp hx).1
  unfold State.notSent
  rw [s.dframe_only n x only]
  dsimp only
  rw [slots]
  rfl

theorem State.modDFrame_only (s : State) (n : Nat) (q : DispFrame) (g : DispFrame → DispFrame) (only : (s.disp.get n).frames = [q]) :
    ((s.modDFrame n q.frame g).disp.get n).frames = [g q] := by
  unfold State.modDFrame
  rw [State.modDisp_get_same, only]
  simp

/-- Without a live layer the fetch of a row goes to the next row. -/
theorem State.fetchRow_empty (s : State) (n : Nat) (q : DispFrame) (only : (s.disp.get n).frames = [q]) (none : ∀ l, l < 4 → q.live n l = false) :
    s.fetchRow n q = s.modDFrame n q.frame (fun x => { x with fetch := q.fetch + 1 }) := by
  unfold State.fetchRow
  dsimp only
  rw [State.each_same]
  intro l hl
  have low : l < 4 := by
    rcases List.mem_append.mp hl with h | h <;> exact List.mem_range.mp (List.mem_filter.mp h).1
  rw [s.dframe_only n q only]
  exact if_neg (by simp [none l low])

theorem doLayerFetch_frame (s : State) (n k : Nat) (q : DispFrame) (calm : s.fcl.safe = false) (runs : s.flag F.DEG_PORT_CTRL.RUN n = true)
    (only : (s.disp.get n).frames = [q]) (going : q.spent = false) (due : q.fetch < q.fld F.DEG_VTIMING0.VACT n) : doLayerFetch n k s =
      s.when (s.dispReached n q ((q.lineAt n (s.portRaster n) (q.top n + q.fetch) : Nat) - 256)) (fun s => (s.poolRead k 64).fetchRow n q) := by
  unfold doLayerFetch
  rw [if_neg (by simp [calm, runs]), only, List.find?_cons_of_pos (by simp [going, due])]

theorem State.endDisplay_spent (s : State) (n : Nat) (spent : ∀ q, q ∈ (s.disp.get n).frames → q.spent = true) :
    s.endDisplay n = s.modDisp n (fun d => { d with frames := d.frames.map (fun q => { q with spent := true, fifo := [] }) }) := by
  unfold State.endDisplay
  rw [s.cutDisplay_spent n spent]

theorem State.cutLink_frames (s : State) (n : Nat) :
    ((s.cutLink n).disp.get n).frames = (s.disp.get n).frames.map (fun q => if q.spent then q else { q with ok := false }) := by
  unfold State.cutLink
  rw [State.modDisp_get_same, State.setFlag_disp]

theorem State.cutLink_flag (s : State) (n : Nat) (f : Fld) (i : Nat) : (s.cutLink n).flag f i =
    (s.setFlag F.DEG_PORT_STAT.LINK_UP false n).flag f i :=
  State.modDisp_flag _ _ _ _ _ _

theorem State.cutLink_fld (s : State) (n : Nat) (f : Fld) (i : Nat) : (s.cutLink n).fld f i =
    (s.setFlag F.DEG_PORT_STAT.LINK_UP false n).fld f i := by
  unfold State.fld State.rd State.cutLink
  rw [State.modDisp_regs]

theorem State.cutLink_rest (s : State) (n : Nat) : { s.cutLink n with regs := s.regs, disp := s.disp } = s := by
  simp [State.cutLink, State.modDisp]

/-- The loss of a display port's link and of its tunnel leaves the rasters, the products, the pool and what was sent. -/
theorem State.cutLink_closed (s : State) (n : Nat) (v : State) (view : v.offVbr = (s.cutLink n).offVbr) : v.regs = (s.cutLink n).regs
    ∧ v.disp = (s.cutLink n).disp ∧ v.ras = s.ras ∧ v.prd = s.prd ∧ v.pool = s.pool ∧ v.out = s.out := by
  have rest := s.cutLink_rest n
  obtain ⟨w, hw⟩ : ∃ w, w = s.cutLink n := ⟨_, rfl⟩
  rw [← hw] at view rest ⊢
  have ras : v.ras = w.ras := (congrArg State.ras view :)
  have prd : v.prd = w.prd := (congrArg State.prd view :)
  have pool : v.pool = w.pool := (congrArg State.pool view :)
  have out : v.out = w.out := (congrArg State.out view :)
  exact ⟨(congrArg State.regs view :), (congrArg State.disp view :), ras.trans (congrArg State.ras rest :), prd.trans (congrArg State.prd rest :),
    pool.trans (congrArg State.pool rest :), out.trans (congrArg State.out rest :)⟩

/-- A port without frames under way stops: its link is off, and its frames end. -/
def State.portStopped (s : State) (n : Nat) : State :=
  (((((s.setFlag F.DEG_PORT_CTRL.RUN false n).cutLink n).tunClosed (28 + n)).modDisp n (fun d => { d with seen := false })).endDisplay n).setFld
    F.DEG_PORT_STAT.NOSRC 0 n

theorem State.portStopped_shown (s : State) (n : Nat) (spent : ∀ q, q ∈ (s.disp.get n).frames → q.spent = true) :
    (s.portStopped n).flag F.DEG_PORT_CTRL.RUN n = false ∧ (s.portStopped n).flag F.DEG_PORT_STAT.LINK_UP n = false
      ∧ ((s.portStopped n).disp.get n).seen = false ∧ (s.portStopped n).flag F.DEG_PORT_STAT.LINK_LOST n = s.flag F.DEG_PORT_STAT.LINK_LOST n
      ∧ (s.portStopped n).prd = s.prd ∧ (s.portStopped n).pool = s.pool ∧ (s.portStopped n).out = s.out := by
  unfold State.portStopped
  have view := ((s.setFlag F.DEG_PORT_CTRL.RUN false n).cutLink n).tunClosed_offVbr (28 + n)
  obtain ⟨w, hw⟩ : ∃ w, w = (s.setFlag F.DEG_PORT_CTRL.RUN false n).cutLink n := ⟨_, rfl⟩
  rw [← hw] at view ⊢
  obtain ⟨v, hv⟩ : ∃ v, v = w.tunClosed (28 + n) := ⟨_, rfl⟩
  rw [← hv] at view ⊢
  rw [hw] at view
  obtain ⟨regs, disp, -, prd, pool, out⟩ := State.cutLink_closed _ n v view
  rw [State.endDisplay_spent _ n fun q hq => ?_]
  · refine ⟨?_, ?_, ?_, ?_, ?_, ?_, ?_⟩
    · rw [State.flag_setFld_kind _ _ _ _ _ _ _ _ (by decide), State.modDisp_flag, State.modDisp_flag, State.flag_of_regs regs, State.cutLink_flag]
      simp (disch := decide) only [State.flag_setFlag_kind, State.flag_setFlag_same]
    · rw [State.flag_setFld_beside _ F.DEG_PORT_STAT.NOSRC F.DEG_PORT_STAT.LINK_UP _ _ _ rfl (by decide) (by decide) (by decide),
        State.modDisp_flag, State.modDisp_flag, State.flag_of_regs regs, State.cutLink_flag]
      simp (disch := decide) only [State.flag_setFlag_same]
    · rw [State.setFld_disp, State.modDisp_get_same, State.modDisp_get_same]
    · rw [State.flag_setFld_beside _ F.DEG_PORT_STAT.NOSRC F.DEG_PORT_STAT.LINK_LOST _ _ _ rfl (by decide) (by decide) (by decide),
        State.modDisp_flag, State.modDisp_flag, State.flag_of_regs regs, State.cutLink_flag]
      simp (disch := decide) only [State.flag_setFlag_kind, State.flag_setFlag_beside]
    · rw [State.setFld_prd, State.modDisp_prd, State.modDisp_prd, prd, State.setFlag_prd]
    · rw [State.setFld_pool, State.modDisp_pool, State.modDisp_pool, pool, State.setFlag_pool]
    · rw [State.setFld_out, State.modDisp_out, State.modDisp_out, out, State.setFlag_out]
  · rw [State.modDisp_get_same, disp, State.cutLink_frames, State.setFlag_disp] at hq
    obtain ⟨y, hy, rfl⟩ := List.mem_map.mp hq
    rw [if_pos (spent y hy)]
    exact spent y hy

/-- The end of a line of a frame: its line counts, and the fetched rows up to it leave. -/
def State.lineEnded (s : State) (n : Nat) (q : DispFrame) : State :=
  s.modDFrame n q.frame (fun x => { x with line := x.line + 1, fifo := x.fifo.filter (fun e => q.line - q.top n < e.row) })

theorem State.lineEnded_out (s : State) (n : Nat) (q : DispFrame) : (s.lineEnded n q).out = s.out := (rfl)

theorem State.lineEnded_pool (s : State) (n : Nat) (q : DispFrame) : (s.lineEnded n q).pool = s.pool := (rfl)

theorem State.lineEnded_prd (s : State) (n : Nat) (q : DispFrame) : (s.lineEnded n q).prd = s.prd := (rfl)

theorem State.when_safe_cutDisplay (s : State) (n : Nat) (q : DispFrame) (only : (s.disp.get n).frames = [q])
    (slots : s.fcl.safe = true → q.slots = []) : s.when s.fcl.safe (State.cutDisplay n) = s := by
  cases safe : s.fcl.safe with
  | false => exact State.when_false _ _
  | true => rw [State.when_true, s.cutDisplay_plain n q only (slots safe)]

/-- A line above the active rows sends nothing. -/
theorem doDisplayLine_above (s : State) (n : Nat) (q : DispFrame) (due : s.displayDue n = true) (only : (s.disp.get n).frames = [q])
    (going : q.spent = false) (slots : s.fcl.safe = true → q.slots = []) (above : q.line < q.top n)
    (more : q.line + 1 < q.fld F.DEG_VTIMING0.VTOTAL n) : doDisplayLine n s = (s.pmuAdd 0x240 n).lineEnded n q := by
  have inactive : (decide (q.top n ≤ q.line) && decide (q.line - q.top n < q.fld F.DEG_VTIMING0.VACT n)) = false := by
    rw [decide_eq_false (Nat.not_le.mpr above), Bool.false_and]
  unfold doDisplayLine
  dsimp only
  rw [if_neg (by simp [due]), s.when_safe_cutDisplay n q only slots, only, List.find?_cons_of_pos (by simp [going])]
  dsimp only
  rw [inactive, if_neg (by simp), s.dframe_only n q only]
  dsimp only
  rw [if_neg Bool.false_ne_true, if_pos more]
  rfl

/-- An active line whose row has been fetched sends its row. -/
theorem doDisplayLine_active (s : State) (n : Nat) (q : DispFrame) (due : s.displayDue n = true) (only : (s.disp.get n).frames = [q])
    (going : q.spent = false) (slots : s.fcl.safe = true → q.slots = []) (top : q.top n ≤ q.line)
    (row : q.line - q.top n < q.fld F.DEG_VTIMING0.VACT n) (fetch : q.fetch ≠ q.line - q.top n) (more : q.line + 1 < q.fld F.DEG_VTIMING0.VTOTAL n) :
    doDisplayLine n s = ((s.pmuAdd 0x240 n).sendRow n (q.line - q.top n) q).lineEnded n q := by
  have active : (decide (q.top n ≤ q.line) && decide (q.line - q.top n < q.fld F.DEG_VTIMING0.VACT n)) = true := by
    rw [decide_eq_true top, decide_eq_true row, Bool.true_and]
  unfold doDisplayLine
  dsimp only
  rw [if_neg (by simp [due]), s.when_safe_cutDisplay n q only slots, only, List.find?_cons_of_pos (by simp [going])]
  dsimp only
  rw [active, if_neg (by simp [fetch]), s.dframe_only n q only]
  dsimp only
  rw [if_pos rfl, if_pos more]
  rfl

/-- Without tell-tale slots the row on the wire is compared with nothing. -/
theorem State.tapRow_plain (s : State) (n r : Nat) (q : DispFrame) (wire : Option (List Byte)) (only : (s.disp.get n).frames = [q])
    (slots : q.slots = []) : s.tapRow n q.frame r wire = s := by
  unfold State.tapRow
  rw [s.dframe_only n q only]
  dsimp only
  rw [slots]
  rfl

theorem State.sendRow_bad (s : State) (n r : Nat) (q : DispFrame) (calm : s.fcl.safe = false) (only : (s.disp.get n).frames = [q])
    (slots : q.slots = []) (bad : q.ok = false) : s.sendRow n r q = s := by
  unfold State.sendRow
  dsimp only
  rw [if_pos (by simp [bad]), if_neg (by simp [calm]), s.tapRow_plain n r q none only slots]

theorem State.sendRow_good (s : State) (n r : Nat) (q : DispFrame) (calm : s.fcl.safe = false) (only : (s.disp.get n).frames = [q])
    (slots : q.slots = []) (srcs : q.srcs = []) (good : q.ok = true) (clock : s.clockUp (33 + n) = true) : s.sendRow n r q =
      s.emit (.row n q.frame r (encodeRow (q.fld F.DEG_PORT_CTRL.FORMAT n) (q.compose n r)) (s.flag F.DEG_PORT_CTRL.E2E_EN n)) := by
  have plain : s.drawSlots n q r (q.compose n r) = q.compose n r := by
    unfold State.drawSlots
    rw [slots]
    rfl
  have late : q.fifo.any (fun e => e.row == r && e.data.isSome && q.srcs.any (fun u => u.layer == e.layer && (s.product u.prd).boot)) = false := by
    simp [srcs]
  unfold State.sendRow
  dsimp only
  rw [if_neg (by simp [good, clock]), if_neg (by simp [calm]), late, State.when_false, plain]
  exact State.tapRow_plain _ n r q _ only slots

/-- Settles O44. -/
theorem displayPortsStartSendAndStop : Obligations.DisplayPortsStartSendAndStop := by
  refine fun s n => ⟨fun idle => ?start, fun runs spent jobs held => ?stop, fun runs => ?linkUp, fun runs up seen jobs held => ?linkDown,
    fun q c calm runs only going due none => ⟨fun reached => ?fetch, fun early => ?early⟩, fun early => ?notDue,
    fun q due only going above slots more => ?above, fun q calm due only going slots top row fetch more => ⟨fun bad => ?bad,
      fun good clock srcs => ?row⟩⟩
  case start =>
    refine ⟨_, congrArg Host.Outcome.next (s.displayRun_start n idle), ?_, ?_, fun k other => ?_, ?_, ?_⟩
    · rw [State.modDisp_flag, State.flag_setFlag_same _ _ _ _ _ rfl (by decide)]
    · rw [State.modDisp_get_same, State.setFlag_disp]
    · rw [State.modDisp_get_other _ _ _ _ other, State.setFlag_disp]
    · exact ((SameRegs.refl _ s).andFlag (by repeat constructor) (by omega)).of_regs (State.modDisp_regs _ _ _)
    · simp [State.modDisp]
  case stop =>
    have down := (s.setFlag F.DEG_PORT_CTRL.RUN false n).dispDown_quiet n jobs held
    exact ⟨s.portStopped n, congrArg Host.Outcome.next (s.displayRun_stop n runs _ (by rw [down]; rfl)), s.portStopped_shown n spent⟩
  case linkUp =>
    refine ⟨_, congrArg (fun t : State => Host.Outcome.next t.bootAdvance) (if_pos runs), ?_, ?_, ?_, ?_⟩
    · rw [State.modDisp_flag, State.flag_setFlag_same _ _ _ _ _ rfl (by decide)]
    · rw [State.modDisp_get_same]
    · exact ((SameRegs.refl _ s).andFlag (by repeat constructor) (by omega)).of_regs (State.modDisp_regs _ _ _)
    · simp [State.modDisp]
  case linkDown =>
    have view := (s.cutLink n).tunClosed_offVbr (28 + n)
    obtain ⟨v, hv⟩ : ∃ v, v = (s.cutLink n).tunClosed (28 + n) := ⟨_, rfl⟩
    rw [← hv] at view
    have acts : doDisplayLinkDown n s = s.dispDown n true := (if_pos runs).trans (by rw [seen])
    have lost := acts.trans (s.dispDown_lost n jobs held up v hv)
    obtain ⟨regs, disp, ras, prd, pool, out⟩ := s.cutLink_closed n v view
    have raster : v.portRaster n = s.portRaster n := by
      unfold State.portRaster
      rw [State.fld_of_regs regs, State.cutLink_fld, State.fld_setFlag_kind _ _ _ _ _ _ _ _ (by decide)]
    rw [ras, raster] at lost
    refine ⟨_, congrArg Host.Outcome.next lost, ?_, State.flag_setFlag_same _ _ _ _ _ rfl (by decide), fun q hq going => ?_, ?_, ?_, ?_⟩
    · rw [State.flag_setFlag_beside _ F.DEG_PORT_STAT.LINK_LOST F.DEG_PORT_STAT.LINK_UP _ _ _ rfl (by decide) (by decide) (by decide),
        State.flag_of_regs regs, State.cutLink_flag, State.flag_setFlag_same _ _ _ _ _ rfl (by decide)]
    · rw [State.setFlag_disp, disp, State.cutLink_frames] at hq
      obtain ⟨y, -, rfl⟩ := List.mem_map.mp hq
      by_cases spent : y.spent = true
      · rw [if_pos spent, spent] at going
        exact absurd going (by simp)
      · rw [if_neg spent]
    · rw [State.setFlag_prd, prd]
    · rw [State.setFlag_pool, pool]
    · rw [State.setFlag_out, out]
  case fetch =>
    have read := s.poolRead_besideReads c.toNat 64
    obtain ⟨v, hv⟩ : ∃ v, v = s.poolRead c.toNat 64 := ⟨_, rfl⟩
    have acts := doLayerFetch_frame s n c.toNat q calm runs only going due
    rw [reached, State.when_true, ← hv] at acts
    rw [← hv] at read
    have disp : v.disp = s.disp := (congrArg State.disp read :)
    have only' : (v.disp.get n).frames = [q] := by rw [disp, only]
    rw [v.fetchRow_empty n q only' none] at acts
    refine ⟨_, congrArg Host.Outcome.next acts, v.modDFrame_only n q _ only', ?_⟩
    rw [← hv, ← disp]
    rfl
  case early =>
    refine congrArg Host.Outcome.next ((doLayerFetch_frame s n c.toNat q calm runs only going due).trans ?_)
    rw [early]
    rfl
  case notDue => exact congrArg Host.Outcome.next (if_pos (by simp [early]))
  case above =>
    have only' : ((s.pmuAdd 0x240 n).disp.get n).frames = [q] := by rw [State.pmuAdd_disp, only]
    refine ⟨_, congrArg Host.Outcome.next (doDisplayLine_above s n q due only going slots above more), ?_, _,
      State.modDFrame_only _ n q _ only', rfl, rfl⟩
    rw [State.lineEnded_out, State.pmuAdd_out]
  case bad =>
    have sent := State.sendRow_bad (s.pmuAdd 0x240 n) n (q.line - q.top n) q (by rw [State.pmuAdd_fcl, calm])
      (by rw [State.pmuAdd_disp, only]) slots bad
    refine ⟨_, congrArg Host.Outcome.next (doDisplayLine_active s n q due only going (fun _ => slots) top row fetch more), ?_⟩
    rw [sent, State.lineEnded_out, State.pmuAdd_out]
  case row =>
    have up : (s.pmuAdd 0x240 n).clockUp (33 + n) = true := by
      rw [← clock]
      unfold State.clockUp
      rw [State.pmuAdd_fcl]
    have sent := State.sendRow_good (s.pmuAdd 0x240 n) n (q.line - q.top n) q (by rw [State.pmuAdd_fcl, calm])
      (by rw [State.pmuAdd_disp, only]) slots srcs
      good up
    refine ⟨_, congrArg Host.Outcome.next (doDisplayLine_active s n q due only going (fun _ => slots) top row fetch more), ?_, ?_, ?_⟩
    · rw [State.lineEnded_out, sent, State.pmuAdd_flag _ _ _ _ _ _ _ _ rfl]
      exact congrArg (· ++ _) (State.pmuAdd_out _ _ _ _ _)
    · rw [State.lineEnded_pool, sent]
      exact State.pmuAdd_pool _ _ _ _ _
    · rw [State.lineEnded_prd, sent]
      exact State.pmuAdd_prd _ _ _ _ _
end Sys2Proof.Machine
end

section
/-! PROOFS. The boot profile and its camera scripts. -/
namespace Sys2Proof.Machine

theorem State.modSec_bootStage (s : State) (f : Sec → Sec) : (s.modSec f).bootStage = s.bootStage := (rfl)

/-- The script of a port code becomes `x`. -/
def State.keepScript (s : State) (c : Nat) (x : Script) : State := (s.setStage 6).modSec (fun y => { y with scripts := y.scripts.set c (some x) })

theorem State.keepScript_script (s : State) (c : Nat) (x : Script) : (s.keepScript c x).sec.scripts.get c = some x := Tbl.get_set_same _ _ _

theorem State.keepScript_bootStage (s : State) (c : Nat) (x : Script) : (s.keepScript c x).bootStage = 6 :=
  (State.modSec_bootStage _ _).trans (s.setStage_bootStage 6 (by decide))

theorem State.keepScript_regs (s : State) (c : Nat) (x : Script) : SameRegs [⟨.SEC_BOOT_STAT, 0, 0⟩] s (s.keepScript c x) :=
  ((SameRegs.refl _ s).andFld (by repeat constructor) (by omega)).of_regs (State.modSec_regs _ _)

theorem State.keepScript_rest (s : State) (c : Nat) (x : Script) : { s.keepScript c x with regs := s.regs, sec := s.sec } = s := by
  simp [State.keepScript, State.setStage, State.modSec]

theorem doScriptEntry_some (s : State) (c : Nat) (ok : Bool) (q : Script) (e : List Byte) (r : List (List Byte)) (stage : s.bootStage = 6)
    (script : s.sec.scripts.get c = some q) (entries : q.entries = e :: r) : doScriptEntry c ok s =
      (if ok = true ∨ scOp e = 2 then s.keepScript c { q with entries := r, failed := false }
        else if q.failed = true then (s.setStage 6).stopScript c else s.keepScript c { q with failed := true }).bootAdvance := by
  unfold doScriptEntry
  rw [if_neg (by simp [stage]), script]
  dsimp only
  rw [entries]
  rfl

/-- The script of a port code is ended, and the port does not start. -/
def State.dropScript (s : State) (c : Nat) : State := s.modSec (fun x => { x with
    scripts := x.scripts.upd c (·.map (fun q => { q with entries := [], stopped := true }))
    startPorts := x.startPorts.filter (· != c) })

theorem State.dropScript_script (s : State) (c : Nat) (q : Script) (script : s.sec.scripts.get c = some q) :
    (s.dropScript c).sec.scripts.get c = some { q with entries := [], stopped := true } :=
  (Tbl.get_upd_same _ _ _).trans (congrArg _ script)

theorem State.dropScript_ports (s : State) (c : Nat) : c ∉ (s.dropScript c).sec.startPorts := fun h => by
  simpa using (List.mem_filter.mp h).2

/-- The state of a boot whose profile has been taken: its ports, its rasters and its show rules wait for the links. -/
def State.profileTaken (s : State) (ports : List Nat) (p : List Byte) : State := (s.modSec (fun c => { c with
      startPorts := ports, startRas := profRasters p, due := true
      shows := (profShows p).map (fun e => { port := e.1, layer := e.2.1, settle := e.2.2.1, maxFr := e.2.2.2 }) })).setStage 5

theorem State.profileTaken_shown (s : State) (ports : List Nat) (p : List Byte) : (s.profileTaken ports p).bootStage = 5
    ∧ (s.profileTaken ports p).sec.due = true ∧ (s.profileTaken ports p).sec.startRas = profRasters p
    ∧ (s.profileTaken ports p).sec.shows
      = (profShows p).map (fun e => { port := e.1, layer := e.2.1, settle := e.2.2.1, maxFr := e.2.2.2 }) :=
  ⟨State.setStage_bootStage _ 5 (by decide), rfl, rfl, rfl⟩

theorem doProfileApply_takes (s : State) (stage : s.bootStage = 3) (profile : s.sec.env.get 2 ≠ []) (calm : s.fcl.safe = false) :
    ∃ t ports, doProfileApply s = State.profileTaken t ports (envPayload (s.sec.env.get 2)) := by
  unfold doProfileApply
  rw [if_neg (by simp [stage, profile, calm])]
  exact ⟨_, _, (rfl)⟩

/-- Settles O4. -/
theorem profileIsAppliedAndScriptsRunWithOneRetry : Obligations.ProfileIsAppliedAndScriptsRunWithOneRetry := by
  refine fun s => ⟨fun stage profile calm => ?profile, fun c e r stage script => ⟨?good, fun op => ?first⟩,
    fun c e r stage script op => ?again, fun c e r f stage up script => ?cut⟩
  case profile =>
    obtain ⟨t, ports, acts⟩ := doProfileApply_takes s stage profile calm
    exact ⟨_, congrArg (fun u : State => Host.Outcome.next u.bootAdvance) acts, t.profileTaken_shown ports _⟩
  case good =>
    have acts := doScriptEntry_some s c true _ e r stage script rfl
    rw [if_pos (Or.inl rfl)] at acts
    exact ⟨_, congrArg Host.Outcome.next acts, s.keepScript_bootStage c _, s.keepScript_script c _, s.keepScript_regs c _, s.keepScript_rest c _⟩
  case first =>
    have acts := doScriptEntry_some s c false _ e r stage script rfl
    rw [if_neg (by simp [op]), if_neg Bool.false_ne_true] at acts
    exact ⟨_, congrArg Host.Outcome.next acts, s.keepScript_bootStage c _, s.keepScript_script c _⟩
  case again =>
    have acts := doScriptEntry_some s c false _ e r stage script rfl
    rw [if_neg (by simp [op]), if_pos rfl] at acts
    exact ⟨(s.setStage 6).dropScript c, congrArg Host.Outcome.next acts, State.dropScript_script _ c _ script, State.dropScript_ports _ c⟩
  case cut =>
    have acts : doScriptTimeout c s = ((s.setFlag F.SEC_BOOT_STAT.SCRIPT_CUT).stopScript c).bootAdvance := by
      unfold doScriptTimeout
      rw [if_neg (by simp [stage]), script]
      exact if_neg (by simp [up])
    have cut : (s.setFlag F.SEC_BOOT_STAT.SCRIPT_CUT).flag F.SEC_BOOT_STAT.SCRIPT_CUT = true := State.flag_setFlag_same _ _ _ _ _ rfl (by decide)
    rw [← State.setFlag_sec s F.SEC_BOOT_STAT.SCRIPT_CUT true 0 0] at script
    obtain ⟨w, hw⟩ : ∃ w, w = s.setFlag F.SEC_BOOT_STAT.SCRIPT_CUT := ⟨_, rfl⟩
    rw [← hw] at acts cut script
    exact ⟨w.dropScript c, congrArg Host.Outcome.next acts, (State.flag_of_regs (State.modSec_regs _ _) _ _ _).trans cut,
      w.dropScript_script c _ script, w.dropScript_ports c⟩
end Sys2Proof.Machine
end

section
/-! PROOFS. Handover, and the operations of the security unit. -/
namespace Sys2Proof.Machine

/-! Alerts: the cause is recorded, and no register but the two of the alert changes. -/

theorem State.alert_offRegs (s : State) (c : Nat) : (s.alert c).offRegs = s.offRegs := by
  obtain h | h := State.alert_cases s c <;> rw [h]
  · exact State.wr_offRegs _ _ _ _ _
  · exact (State.setFlag_offRegs _ _ _ _ _).trans (State.wr_offRegs _ _ _ _ _)

/-- An alert shows its cause. -/
theorem State.alert_cause (s : State) (c : Nat) (h : c < 32) : bit ((s.alert c).rd .SMB0_ALERT) c = true := by
  have shown : (s.alert c).rd .SMB0_ALERT = (s.rd .SMB0_ALERT ||| 1 <<< c) % 2 ^ 32 := by
    obtain e | e := State.alert_cases s c <;> rw [e]
    · exact State.rd_wr_same _ _ _ _ _
    · rw [State.rd_setFlag_kind _ _ _ _ _ _ _ _ (by decide), State.rd_wr_same]
  rw [shown, bit_eq_testBit, Nat.testBit_mod_two_pow, Nat.testBit_or, Nat.testBit_shiftLeft]
  simp [h]

theorem State.lupSubmit_sameRegs (s : State) (k src sev a b : Nat) : SameRegs [⟨.LUP_CNT, 0, 0⟩] s (s.lupSubmit k src sev a b) := by
  have lost : SameRegs [⟨.LUP_CNT, 0, 0⟩] s (s.count F.LUP_CNT.LOST) := (SameRegs.refl _ s).andCount (by repeat constructor) (by omega)
  have queued (f : Lup → Lup) : SameRegs [⟨.LUP_CNT, 0, 0⟩] s (s.modLup f) := (SameRegs.refl _ s).of_regs (State.modLup_regs _ _)
  unfold State.lupSubmit
  extract_lets r
  clear_value r
  refine SameRegs.ite (SameRegs.ite (queued _) lost) (SameRegs.ite lost (SameRegs.ite (queued _) (SameRegs.ite lost ?_)))
  split
  · exact lost.of_regs (State.modLup_regs _ _)
  · exact lost

theorem SameRegs.widen {l l' : List RegId} {s t : State} (h : SameRegs l s t) (sub : l ⊆ l') : SameRegs l' s t :=
  fun k i j hi hj mem => h k i j hi hj fun m => mem (sub m)

/-! Handover and the operations of the security unit. -/

/-- Stage 9, without a handover that waits. -/
def State.opened (s : State) : State := (s.setStage 9).modSec (fun c => { c with handover := false })

theorem State.opened_bootStage (s : State) : s.opened.bootStage = 9 := (State.setStage_bootStage s 9 (by decide) :)

theorem State.opened_rd (s : State) (k : RegKind) (i j : Nat) (h : k ≠ .SEC_BOOT_STAT) : s.opened.rd k i j = s.rd k i j :=
  (State.rd_setFld_kind s F.SEC_BOOT_STAT.STAGE k 9 0 0 i j h :)

theorem State.handOver_eq (s : State) : s.handOver = ((s.lupSubmit 0x04 0 0 0 0).alert 4).opened := (rfl)

theorem State.handOver_bootStage (s : State) : s.handOver.bootStage = 9 := by
  rw [State.handOver_eq, State.opened_bootStage]

theorem State.handOver_alert (s : State) : bit (s.handOver.rd .SMB0_ALERT) 4 = true := by
  rw [State.handOver_eq, State.opened_rd _ _ _ _ (by decide), State.alert_cause _ 4 (by decide)]

theorem State.handOver_rest (s : State) : s.handOver.sec = { s.sec with handover := false } ∧ s.handOver.lup = (s.lupSubmit 0x04 0 0 0 0).lup := by
  have off := (s.lupSubmit 0x04 0 0 0 0).alert_offRegs 4
  have sec := s.lupSubmit_sec 0x04 0 0 0 0
  rw [State.handOver_eq]
  obtain ⟨u, hu⟩ : ∃ u, u = s.lupSubmit 0x04 0 0 0 0 := ⟨_, rfl⟩
  rw [← hu] at off sec ⊢
  obtain ⟨v, hv⟩ : ∃ v, v = u.alert 4 := ⟨_, rfl⟩
  rw [← hv] at off ⊢
  exact ⟨congrArg (fun c : Sec => { c with handover := false }) ((congrArg State.sec off :).trans sec), (congrArg State.lup off :)⟩

theorem State.handOver_sameRegs (s : State) :
    SameRegs [⟨.SEC_BOOT_STAT, 0, 0⟩, ⟨.SMB0_ALERT, 0, 0⟩, ⟨.SMB0_STAT, 0, 0⟩, ⟨.LUP_CNT, 0, 0⟩] s s.handOver := by
  have lup := (s.lupSubmit_sameRegs 0x04 0 0 0 0).widen (l' := [⟨.SEC_BOOT_STAT, 0, 0⟩, ⟨.SMB0_ALERT, 0, 0⟩, ⟨.SMB0_STAT, 0, 0⟩, ⟨.LUP_CNT, 0, 0⟩])
    (by simp)
  have alert := ((s.lupSubmit 0x04 0 0 0 0).alert_sameRegs 4).widen
    (l' := [⟨.SEC_BOOT_STAT, 0, 0⟩, ⟨.SMB0_ALERT, 0, 0⟩, ⟨.SMB0_STAT, 0, 0⟩, ⟨.LUP_CNT, 0, 0⟩]) (by simp)
  rw [State.handOver_eq]
  exact ((lup.trans alert).andFld (by repeat constructor) (by omega) (f := F.SEC_BOOT_STAT.STAGE) (v := 9)).of_regs (State.modSec_regs _ _)

/-- Operation `op` of the security unit is under way. -/
def State.opStarted (s : State) (op : Nat) : State :=
  ((s.setFld F.SEC_OP_CTRL.OP op).setFlag F.SEC_OP_STAT.BUSY).modSec (fun c => { c with op := op })

theorem State.opStarted_shown (s : State) (op : Nat) (h : op < 8) : (s.opStarted op).flag F.SEC_OP_STAT.BUSY = true
    ∧ (s.opStarted op).fld F.SEC_OP_CTRL.OP = op := by
  unfold State.opStarted
  rw [State.modSec_flag, State.modSec_fld, State.flag_setFlag_same _ _ _ _ _ rfl (by decide), State.fld_setFlag_kind _ _ _ _ _ _ _ _ (by decide),
    State.fld_setFld_same _ _ _ _ _ (by decide) (by decide)]
  exact ⟨rfl, Nat.mod_eq_of_lt (lt_of_lt_of_le h (by decide))⟩

theorem State.opStarted_regs (s : State) (op : Nat) : SameRegs [⟨.SEC_OP_CTRL, 0, 0⟩, ⟨.SEC_OP_STAT, 0, 0⟩] s (s.opStarted op) :=
  (((SameRegs.refl _ s).andFld (by repeat constructor) (by omega)).andFlag (by repeat constructor) (by omega)).of_regs (State.modSec_regs _ _)

theorem State.opStarted_rest (s : State) (op : Nat) : (s.opStarted op).sec = { s.sec with op := op }
    ∧ { s.opStarted op with regs := s.regs, sec := s.sec } = s := by
  constructor
  · simp [State.opStarted, State.modSec]
  · simp [State.opStarted, State.modSec]

theorem doSecOp_free (s : State) (op : Nat) (free : s.flag F.SEC_OP_STAT.BUSY = false) (lo : op ≠ 0) (hi : op ≤ 5) : doSecOp op s = s.opStarted op :=
  if_neg (by simp [free, lo, hi])

/-- An operation ends with result `r`. -/
def State.opEnded (s : State) (r : Nat) : State := ((s.setFlag F.SEC_OP_STAT.BUSY false).setFlag F.SEC_OP_STAT.DONE).setFld F.SEC_OP_STAT.RESULT r

theorem State.opEnded_shown (s : State) (r : Nat) (h : r < 16) : (s.opEnded r).flag F.SEC_OP_STAT.BUSY = false
    ∧ (s.opEnded r).flag F.SEC_OP_STAT.DONE = true ∧ (s.opEnded r).fld F.SEC_OP_STAT.RESULT = r := by
  unfold State.opEnded
  refine ⟨?_, ?_, ?_⟩
  · rw [State.flag_setFld_beside _ F.SEC_OP_STAT.RESULT F.SEC_OP_STAT.BUSY _ _ _ rfl (by decide) (by decide) (by decide),
      State.flag_setFlag_beside _ F.SEC_OP_STAT.DONE F.SEC_OP_STAT.BUSY _ _ _ rfl (by decide) (by decide) (by decide),
      State.flag_setFlag_same _ _ _ _ _ rfl (by decide)]
  · rw [State.flag_setFld_beside _ F.SEC_OP_STAT.RESULT F.SEC_OP_STAT.DONE _ _ _ rfl (by decide) (by decide) (by decide),
      State.flag_setFlag_same _ _ _ _ _ rfl (by decide)]
  · rw [State.fld_setFld_same _ _ _ _ _ (by decide) (by decide)]
    exact Nat.mod_eq_of_lt h

theorem State.opEnded_regs (s : State) (r : Nat) : SameRegs [⟨.SEC_OP_STAT, 0, 0⟩] s (s.opEnded r) :=
    (((SameRegs.refl _ s).andFlag (by repeat constructor) (by omega)).andFlag (by repeat constructor) (by omega)).andFld
    (by repeat constructor) (by omega)

theorem State.opEnded_offRegs (s : State) (r : Nat) : (s.opEnded r).offRegs = s.offRegs := by simp [State.opEnded]

theorem State.opEnded_sec (s : State) (r : Nat) : (s.opEnded r).sec = s.sec := by
  simp [State.opEnded]

theorem doSecOpDone_unidentified (s : State) (sig otp : Bool) (busy : s.flag F.SEC_OP_STAT.BUSY = true) (op : s.sec.op ≤ 3)
    (unknown : s.flag F.SEC_BOOT_STAT.ID_OK = false) : doSecOpDone sig otp s = s.opEnded 8 := by
  unfold doSecOpDone
  dsimp only
  rw [if_neg (by simp [busy]), if_pos ⟨op, by simp [unknown]⟩]
  rfl

/-- The counters after a commit of the envelopes `used`. -/
def commitArb (used : List (List Byte)) (arb : Tbl Nat) : Tbl Nat := used.foldl (fun t e => t.upd (envCtrIdx e % 64) (max (envCtrVal e % 64))) arb

theorem le_commitArb (used : List (List Byte)) (arb : Tbl Nat) (i : Nat) : arb.get i ≤ (commitArb used arb).get i := by
  induction used generalizing arb with
  | nil => exact Nat.le_refl _
  | cons e r ih =>
    refine Nat.le_trans ?_ (ih _)
    by_cases h : i = envCtrIdx e % 64
    · rw [h, Tbl.get_upd_same]
      exact Nat.le_max_right _ _
    · rw [Tbl.get_upd_other _ _ _ _ h]

theorem commitArb_covers (used : List (List Byte)) (arb : Tbl Nat) (e : List Byte) (h : e ∈ used) :
    envCtrVal e % 64 ≤ (commitArb used arb).get (envCtrIdx e % 64) := by
  induction used generalizing arb with
  | nil => cases h
  | cons x r ih =>
    rcases List.mem_cons.mp h with rfl | h
    · refine Nat.le_trans ?_ (le_commitArb r _ _)
      rw [Tbl.get_upd_same]
      exact Nat.le_max_left _ _
    · exact ih _ h

theorem doSecOpDone_commit (s : State) (sig : Bool) (busy : s.flag F.SEC_OP_STAT.BUSY = true) (op : s.sec.op = 5) :
    doSecOpDone sig true s = (s.secArb true).2.opEnded 0 := by
  unfold doSecOpDone
  dsimp only
  rw [if_neg (by simp [busy]), if_neg (by simp [op]), op]
  rfl

theorem State.showArb_sec (s : State) : s.showArb.sec = s.sec := State.each_keeps State.sec _ _ _ fun _ _ => State.wr_sec _ _ _ _ _

/-- The envelopes whose counters a commit takes: what runs. -/
def State.usedEnvs (s : State) : List (List Byte) := [s.sec.env.get 1, s.sec.env.get 2, s.validBank 0, s.validBank 1].filter (· != [])

theorem State.secArb_good (s : State) : (s.secArb true).2 = (s.modSec (fun c => { c with arb := commitArb s.usedEnvs c.arb })).showArb := by
  unfold State.secArb
  rw [if_neg (by simp)]
  exact (rfl)

theorem State.secArb_arb (s : State) : (s.secArb true).2.sec.arb = commitArb s.usedEnvs s.sec.arb := by
  simp only [State.secArb_good, State.showArb_sec, State.modSec]

/-- Settles O5. -/
theorem handoverAndSecurityOperations : Obligations.HandoverAndSecurityOperations := by
  refine fun s => ⟨fun stage => ?opens, fun early => ?waits, fun done => congrArg Host.Outcome.next (if_pos done), fun p hp => ⟨fun free => ?starts,
    fun busy => ?busy⟩, fun sig otp busy op unknown => ?unidentified, fun sig busy op => ?commit⟩
  case opens =>
    have acts : doHandover s = s.handOver := (if_neg (by omega)).trans (if_pos stage)
    exact ⟨_, congrArg Host.Outcome.next acts, s.handOver_bootStage, s.handOver_alert, s.handOver_rest.1, s.handOver_rest.2, s.handOver_sameRegs⟩
  case waits => exact congrArg Host.Outcome.next ((if_neg (by omega)).trans (if_neg (by omega)))
  case starts =>
    have run : exec p.1 s = .next (doSecOp p.2 s) ∧ p.2 ≠ 0 ∧ p.2 ≤ 5 := by
      simp only [List.mem_cons, List.not_mem_nil, or_false] at hp
      rcases hp with rfl | rfl | rfl | rfl | rfl <;> exact ⟨rfl, by decide, by decide⟩
    obtain ⟨run, lo, hi⟩ := run
    rw [doSecOp_free s p.2 free lo hi] at run
    exact ⟨_, run, (s.opStarted_shown p.2 (by omega)).1, (s.opStarted_shown p.2 (by omega)).2, (s.opStarted_rest p.2).1, s.opStarted_regs p.2,
      (s.opStarted_rest p.2).2⟩
  case busy =>
    simp only [List.mem_cons, List.not_mem_nil, or_false] at hp
    rcases hp with rfl | rfl | rfl | rfl | rfl <;> exact congrArg Host.Outcome.next (if_pos (.inl busy))
  case unidentified =>
    have low : s.sec.op ≤ 3 := by
      simp only [List.mem_cons, List.not_mem_nil, or_false] at op
      omega
    obtain ⟨off, done, result⟩ := s.opEnded_shown 8 (by decide)
    exact ⟨_, congrArg Host.Outcome.next (doSecOpDone_unidentified s sig otp busy low unknown), off, done, result, s.opEnded_regs 8,
      State.regs_back (s.opEnded_offRegs 8)⟩
  case commit =>
    have acts := doSecOpDone_commit s sig busy op
    have arb := s.secArb_arb
    obtain ⟨u, hu⟩ : ∃ u, u = (s.secArb true).2 := ⟨_, rfl⟩
    rw [← hu] at acts arb
    rw [← u.opEnded_sec 0] at arb
    obtain ⟨off, done, result⟩ := u.opEnded_shown 0 (by decide)
    refine ⟨_, congrArg Host.Outcome.next acts, off, done, result, fun i => ?_, fun e he used => ?_⟩
    · rw [arb]
      exact le_commitArb _ _ i
    · rw [arb]
      exact commitArb_covers _ _ e (List.mem_filter.mpr ⟨he, by simpa using used⟩)
end Sys2Proof.Machine
end

section
/-! PROOFS. The life of a generation, from the request to the end of its check. -/
namespace Sys2Proof.Machine

/-- A request with nothing staged freezes the open generation. -/
def State.frozen (s : State) (g : Nat) : State :=
  ((s.modCfg (fun c => { c with opn := c.opn.set g [], stg := c.stg.set g (some { writes := s.cfg.opn.get g }) })).setFlag
    F.CFG_STATE.OPEN_DIRTY false g).setFld F.CFG_STATE.STATE 1 g

theorem State.commitRequest_free (s : State) (g : Nat) (h : s.cfg.stg.get g = none) : s.commitRequest g = s.frozen g := by
  unfold State.commitRequest
  rw [h]
  rfl

theorem State.frozen_cfg (s : State) (g : Nat) :
    (s.frozen g).cfg = { s.cfg with opn := s.cfg.opn.set g [], stg := s.cfg.stg.set g (some { writes := s.cfg.opn.get g }) } := by
  unfold State.frozen
  rw [State.setFld_cfg, State.setFlag_cfg, State.modCfg_cfg]

theorem State.frozen_state (s : State) (g : Nat) : (s.frozen g).fld F.CFG_STATE.STATE g = 1 :=
  State.fld_setFld_same _ F.CFG_STATE.STATE 1 g 0 (by decide) (by decide)

theorem State.frozen_clean (s : State) (g : Nat) : (s.frozen g).flag F.CFG_STATE.OPEN_DIRTY g = false := by
  unfold State.frozen
  rw [State.flag_setFld_beside _ F.CFG_STATE.STATE F.CFG_STATE.OPEN_DIRTY _ _ _ rfl (by decide) (by decide) (by decide),
    State.flag_setFlag_same _ _ _ _ _ rfl (by decide)]

theorem State.frozen_sameRegs (s : State) (g : Fin 8) : SameRegs [⟨.CFG_STATE, g, 0⟩] s (s.frozen g) :=
  (((SameRegs.refl _ s).of_regs (State.modCfg_regs _ _)).andFlag (by repeat constructor) (by omega)).andFld (by repeat constructor) (by omega)

/-- A generation that failed its check: it is not staged any more, it is counted, and the first rule that failed is recorded. -/
def State.rejected (s : State) (g rule i : Nat) : State :=
  (((s.modCfg (fun c => { c with stg := c.stg.set g none })).setFld F.CFG_STATE.STATE 0 g).count F.CFG_STATE.REJ_CNT g).when
    (!s.flag F.CFG_REJECT.REJECTED g) (·.wr .CFG_REJECT (1 <<< 31 + rule <<< 16 + i % 65536) g)

theorem State.rejectGen_eq (s : State) (g rule i : Nat) : s.rejectGen g rule i =
    (((s.rejected g rule i).pmuAdd 0x005 0).raise 16 g).event 0 3 g ((s.rejected g rule i).rd .CFG_REJECT g) 0 0 := by
  have first : (((s.modCfg (fun c => { c with stg := c.stg.set g none })).setFld F.CFG_STATE.STATE 0 g).count F.CFG_STATE.REJ_CNT g).flag
      F.CFG_REJECT.REJECTED g = s.flag F.CFG_REJECT.REJECTED g := by
    rw [State.flag, State.fld_count_kind _ _ _ _ _ _ _ (by decide), State.fld_setFld_kind _ _ _ _ _ _ _ _ (by decide), State.modCfg_fld, State.flag]
  unfold State.rejectGen State.rejected
  dsimp only
  rw [first]

theorem State.rejected_stg (s : State) (g rule i : Nat) : (s.rejected g rule i).cfg = { s.cfg with stg := s.cfg.stg.set g none } := by
  unfold State.rejected State.when
  split <;> simp

theorem State.rejected_fld (s : State) (g rule i : Nat) (f : Fld) (h : f.reg = .CFG_STATE) : (s.rejected g rule i).fld f g =
    ((s.setFld F.CFG_STATE.STATE 0 g).count F.CFG_STATE.REJ_CNT g).fld f g := by
  unfold State.rejected State.when
  split
  · unfold State.fld
    rw [State.rd_wr_kind _ _ _ _ _ _ _ _ (by rw [h]; decide)]
    rfl
  · rfl

theorem State.rejected_state (s : State) (g rule i : Nat) : (s.rejected g rule i).fld F.CFG_STATE.STATE g = 0 := by
  rw [State.rejected_fld _ _ _ _ _ rfl, State.fld_count_beside _ F.CFG_STATE.REJ_CNT F.CFG_STATE.STATE _ _ rfl (by decide) (by decide) (by decide),
    State.fld_setFld_same _ _ _ _ _ (by decide) (by decide)]
  rfl

theorem State.rejected_count (s : State) (g rule i : Nat) :
    (s.rejected g rule i).fld F.CFG_STATE.REJ_CNT g = min F.CFG_STATE.REJ_CNT.max (s.fld F.CFG_STATE.REJ_CNT g + 1) := by
  rw [State.rejected_fld _ _ _ _ _ rfl, State.fld_count_same _ _ _ _ (by decide) (by decide),
    State.fld_setFld_beside _ F.CFG_STATE.STATE F.CFG_STATE.REJ_CNT _ _ _ rfl (by decide) (by decide) (by decide)]

theorem State.rejected_record (s : State) (g rule i : Nat) : (s.rejected g rule i).rd .CFG_REJECT g =
    if s.flag F.CFG_REJECT.REJECTED g then s.rd .CFG_REJECT g else (1 <<< 31 + rule <<< 16 + i % 65536) % 2 ^ 32 := by
  unfold State.rejected
  cases s.flag F.CFG_REJECT.REJECTED g with
  | false =>
    rw [Bool.not_false, State.when_true, State.rd_wr_same]
    rfl
  | true =>
    rw [Bool.not_true, State.when_false, State.rd_count_kind _ _ _ _ _ _ _ (by decide), State.rd_setFld_kind _ _ _ _ _ _ _ _ (by decide),
      State.modCfg_rd]
    rfl

theorem State.rejected_sameRegs (s : State) (g : Fin 8) (rule i : Nat) :
    SameRegs [⟨.CFG_STATE, g, 0⟩, ⟨.CFG_REJECT, g, 0⟩] s (s.rejected g rule i) := by
  have counted : SameRegs [⟨.CFG_STATE, g, 0⟩, ⟨.CFG_REJECT, g, 0⟩] s
      (((s.modCfg (fun c => { c with stg := c.stg.set g none })).setFld F.CFG_STATE.STATE 0 g).count F.CFG_STATE.REJ_CNT g) :=
    (((SameRegs.refl _ s).of_regs (State.modCfg_regs _ _)).andFld (by repeat constructor) (by omega)).andCount (by repeat constructor) (by omega)
  exact counted.when (counted.andWr (by repeat constructor) (by omega))

theorem doConsistencyCheckEnd_fails (s : State) (g : Nat) (q : Staged) (rule i : Nat) (staged : s.cfg.stg.get g = some q) (open_ : q.passed = false)
    (fails : s.checkGen g q.writes = some (rule, i)) : doConsistencyCheckEnd g s = s.rejectGen g rule i := by
  unfold doConsistencyCheckEnd
  rw [staged]
  dsimp only
  rw [if_neg (by simp [open_]), fails]

/-- The generation passed and waits for frame `due`. -/
def State.passedFor (s : State) (g : Nat) (q : Staged) (due : Nat) : State := (s.modCfg (fun c => { c with stg := c.stg.set g (some { q with
  passed := true, tookEn := false, late := false, due := due }) })).setFld F.CFG_STATE.STATE 2 g

theorem doConsistencyCheckEnd_passes (s : State) (g : Nat) (q : Staged) (staged : s.cfg.stg.get g = some q) (open_ : q.passed = false)
    (passes : s.checkGen g q.writes = none) (target : s.flag F.CFG_TARGET.EN g = false) (u : State)
    (hu : u = s.passedFor g q (((s.ras.get g).frame + 1) % 2 ^ 32)) :
    doConsistencyCheckEnd g s = if (s.ras.get g).running = true then u else (u.switchGen g).showResources := by
  subst hu
  unfold doConsistencyCheckEnd
  rw [staged]
  dsimp only
  rw [if_neg (by simp [open_]), passes]
  dsimp only
  unfold State.passGen
  dsimp only
  rw [target]
  rfl

/-- One write of a generation that is applied, up to what the choice of a time source does. -/
def State.writeTaken (s : State) (w : CfgWrite) : State :=
  ((s.wr w.reg.kind (s.rd w.reg.kind w.reg.i w.reg.j - (s.rd w.reg.kind w.reg.i w.reg.j &&& w.mask) + w.val) w.reg.i w.reg.j).pmuAdd 0x004 0).when
    (w.reg.kind == .RAS_DISC_CTRL) State.srcSelected

theorem State.srcSelected_rd (s : State) (k : RegKind) (i j : Nat) (h : k ≠ .RAS_DISC_STAT) : s.srcSelected.rd k i j = s.rd k i j := by
  unfold State.srcSelected State.when
  dsimp only
  split
  · rw [State.rd_setFld_kind _ _ _ _ _ _ _ _ h]
    split <;> rfl
  · split <;> rfl

/-- The register of the write holds its value. -/
theorem State.writeTaken_same (s : State) (w : CfgWrite) (plain : w.reg.kind.reported = false) : (s.writeTaken w).rd w.reg.kind w.reg.i w.reg.j =
    (s.rd w.reg.kind w.reg.i w.reg.j - (s.rd w.reg.kind w.reg.i w.reg.j &&& w.mask) + w.val) % 2 ^ 32 := by
  unfold State.writeTaken State.when
  split
  case isTrue h =>
    rw [State.srcSelected_rd _ _ _ _ (by rw [eq_of_beq h]; decide), State.pmuAdd_rd _ _ _ _ _ _ _ _ plain, State.rd_wr_same]
  case isFalse => rw [State.pmuAdd_rd _ _ _ _ _ _ _ _ plain, State.rd_wr_same]

/-- CFG_STATE does not change. -/
theorem State.writeTaken_state (s : State) (w : CfgWrite) (plain : w.reg.kind.reported = false) (i j : Nat) :
    (s.writeTaken w).rd .CFG_STATE i j = s.rd .CFG_STATE i j := by
  have other : RegKind.CFG_STATE ≠ w.reg.kind := fun h => by simp [← h, RegKind.reported] at plain
  unfold State.writeTaken State.when
  split
  · rw [State.srcSelected_rd _ _ _ _ (by decide), State.pmuAdd_rd_beside _ _ _ _ _ _ _ _ (by decide) (by decide),
      State.rd_wr_kind _ _ _ _ _ _ _ _ other]
  · rw [State.pmuAdd_rd_beside _ _ _ _ _ _ _ _ (by decide) (by decide), State.rd_wr_kind _ _ _ _ _ _ _ _ other]

/-- The generation of one write is applied at once. -/
def State.switched (s : State) (g : Nat) (w : CfgWrite) (since : Option Nat) : State :=
  ((((s.writeTaken w).setFld F.CFG_STATE.GEN (((s.writeTaken w).fld F.CFG_STATE.GEN g + 1) % 65536) g).setFld F.CFG_STATE.STATE 0 g).when
    (w.reg.kind == .EGV_BUDGET) (·.modEgv (fun e => { e with cmd := none }))).modCfg (fun c => { c with
      stg := c.stg.set g none, old := c.old.set g [], since := c.since.set g since })

theorem State.switchGen_one (s : State) (g : Nat) (q : Staged) (w : CfgWrite) (staged : s.cfg.stg.get g = some q) (one : q.writes = [w])
    (target : q.tookEn = false) (late : q.late = false) (stopped : (s.ras.get g).running = false) : s.switchGen g = s.switched g w none := by
  unfold State.switchGen
  rw [staged]
  dsimp only
  rw [one, target, late, stopped]
  simp only [List.any_cons, List.any_nil, Bool.or_false, Bool.false_and, State.when_false, Bool.false_eq_true, if_false]
  rfl

theorem State.switched_shown (s : State) (g : Nat) (w : CfgWrite) (since : Option Nat) (plain : w.reg.kind.reported = false) :
    (s.switched g w since).cfg.stg.get g = none ∧ (s.switched g w since).fld F.CFG_STATE.STATE g = 0
      ∧ (s.switched g w since).fld F.CFG_STATE.GEN g = (s.fld F.CFG_STATE.GEN g + 1) % 65536
      ∧ (s.switched g w since).rd w.reg.kind w.reg.i w.reg.j =
        (s.rd w.reg.kind w.reg.i w.reg.j - (s.rd w.reg.kind w.reg.i w.reg.j &&& w.mask) + w.val) % 2 ^ 32 := by
  have other : w.reg.kind ≠ .CFG_STATE := fun h => by simp [h, RegKind.reported] at plain
  have taken := s.writeTaken_same w plain
  have gen : (s.writeTaken w).fld F.CFG_STATE.GEN g = s.fld F.CFG_STATE.GEN g := by
    exact congrArg (bits · _ _) (s.writeTaken_state w plain g 0)
  unfold State.switched
  obtain ⟨v, hv⟩ : ∃ v, v = s.writeTaken w := ⟨_, rfl⟩
  rw [← hv] at taken gen ⊢
  have regs (x : State) (f : Cfg → Cfg) : ((x.when (w.reg.kind == .EGV_BUDGET) (·.modEgv (fun e => { e with cmd := none }))).modCfg f).regs
    = x.regs := by
    unfold State.when
    split <;> rfl
  refine ⟨?_, ?_, ?_, ?_⟩
  · rw [State.modCfg_cfg]
    exact Tbl.get_set_same _ _ _
  · rw [State.fld_of_regs (regs _ _), State.fld_setFld_same _ _ _ _ _ (by decide) (by decide)]
    rfl
  · rw [State.fld_of_regs (regs _ _), State.fld_setFld_beside _ F.CFG_STATE.STATE F.CFG_STATE.GEN _ _ _ rfl (by decide) (by decide) (by decide),
      State.fld_setFld_same _ _ _ _ _ (by decide) (by decide), gen]
    exact Nat.mod_mod _ _
  · rw [State.rd_of_regs (regs _ _), State.rd_setFld_kind _ _ _ _ _ _ _ _ other, State.rd_setFld_kind _ _ _ _ _ _ _ _ other, taken]

/-- Settles O6. -/
theorem commitsFreezeCheckAndReject : Obligations.CommitsFreezeCheckAndReject := by
  refine fun s g => ⟨fun free => ?freeze, ?discard, fun q rule i staged open_ fails => ?fails,
    fun q staged open_ passes target => ⟨fun runs => ?waits, fun w stopped one plain _ _ => ?applied⟩⟩
  case freeze =>
    refine ⟨_, congrArg Host.Outcome.next (s.commitRequest_free g free), ?_, ?_, s.frozen_state g, s.frozen_clean g, s.frozen_sameRegs g, ?_⟩
    · rw [State.frozen_cfg]
      exact Tbl.get_set_same _ _ _
    · rw [State.frozen_cfg]
      exact Tbl.get_set_same _ _ _
    · simp [State.frozen, State.modCfg]
  case discard =>
    refine ⟨_, rfl, s.discardOpen_cfg g, s.discardOpen_dirty g, ?_, ?_⟩
    · exact ((SameRegs.refl _ s).of_regs (State.modCfg_regs _ _)).andFlag (by repeat constructor) (by omega)
    · simp [State.discardOpen, State.modCfg]
  case fails =>
    have acts := (doConsistencyCheckEnd_fails s g q rule i staged open_ fails).trans (s.rejectGen_eq g rule i)
    refine ⟨s.rejected g rule i, _, congrArg Host.Outcome.next acts, ?_, ?_, s.rejected_state g rule i, s.rejected_count g rule i, fun first => ?_,
      fun later => ?_, s.rejected_sameRegs g rule i, rfl⟩
    · rw [State.rejected_stg]
      exact Tbl.get_set_same _ _ _
    · rw [State.rejected_stg]
    · rw [State.rejected_record, first, if_neg Bool.false_ne_true]
    · rw [State.rejected_record, later, if_pos rfl]
  case waits =>
    have acts := (doConsistencyCheckEnd_passes s g q staged open_ passes target _ rfl).trans (if_pos runs)
    refine ⟨_, congrArg Host.Outcome.next acts, State.fld_setFld_same _ F.CFG_STATE.STATE 2 g 0 (by decide) (by decide), ?_, ?_, ?_⟩
    · exact Tbl.get_set_same _ _ _
    · exact ((SameRegs.refl _ s).of_regs (State.modCfg_regs _ _)).andFld (by repeat constructor) (by omega)
    · simp [State.passedFor, State.modCfg]
  case applied =>
    obtain ⟨due, hd⟩ : ∃ d, d = ((s.ras.get g).frame + 1) % 2 ^ 32 := ⟨_, rfl⟩
    obtain ⟨u, hu⟩ : ∃ u, u = s.passedFor g q due := ⟨_, rfl⟩
    have acts := (doConsistencyCheckEnd_passes s g q staged open_ passes target u (hd ▸ hu)).trans (if_neg (by simp [stopped]))
    have switch : u.switchGen g = u.switched g w none := by
      subst hu
      exact State.switchGen_one _ g _ w (Tbl.get_set_same _ _ _) one rfl rfl stopped
    obtain ⟨cleared, state, gen, taken⟩ := u.switched_shown g w none plain
    have value : u.rd w.reg.kind w.reg.i w.reg.j = s.rd w.reg.kind w.reg.i w.reg.j := by
      rw [hu]
      exact (State.rd_setFld_kind _ F.CFG_STATE.STATE _ _ _ _ _ _ (fun h => by simp [h, RegKind.reported, F.CFG_STATE.STATE] at plain)).trans
        (State.modCfg_rd _ _ _ _ _)
    have number : u.fld F.CFG_STATE.GEN g = s.fld F.CFG_STATE.GEN g := by
      rw [hu]
      exact (State.fld_setFld_beside _ F.CFG_STATE.STATE F.CFG_STATE.GEN _ _ _ rfl (by decide) (by decide) (by decide)).trans
        (State.modCfg_fld _ _ _ _ _)
    rw [switch] at acts
    rw [number] at gen
    rw [value] at taken
    exact ⟨_, congrArg Host.Outcome.next acts, cleared, state, gen, taken⟩
end Sys2Proof.Machine
end

section
/-! PROOFS. Lupin's records, and the injectors. -/
namespace Sys2Proof.Machine

/-! Lupin's records. -/

/-- The record stands at its sequence number, and the number and the count have moved. -/
def State.recorded (s : State) (r : LupRec) : State :=
  ((s.modLup (fun l => { l with buf := l.buf.set (s.fld F.LUP_SEQ.NEXT % 4096) (some { r with seq := s.fld F.LUP_SEQ.NEXT }) })).setFld
    F.LUP_SEQ.NEXT ((s.fld F.LUP_SEQ.NEXT + 1) % 2 ^ 32)).setFld F.LUP_STAT.COUNT (min 4096 (s.fld F.LUP_STAT.COUNT + 1))

theorem State.lupWrite_eq (s : State) (r : LupRec) : s.lupWrite r = (s.recorded r).pmuAdd 0x008 0 := (rfl)

theorem State.recorded_lup (s : State) (r : LupRec) : (s.recorded r).lup =
    { s.lup with buf := s.lup.buf.set (s.fld F.LUP_SEQ.NEXT % 4096) (some { r with seq := s.fld F.LUP_SEQ.NEXT }) } := by
  simp [State.recorded]

theorem State.recorded_next (s : State) (r : LupRec) : (s.recorded r).fld F.LUP_SEQ.NEXT = (s.fld F.LUP_SEQ.NEXT + 1) % 2 ^ 32 := by
  unfold State.recorded
  rw [State.fld_setFld_kind _ _ _ _ _ _ _ _ (by decide), State.fld_setFld_same _ _ _ _ _ (by decide) (by decide)]
  exact Nat.mod_mod _ _

theorem State.recorded_count (s : State) (r : LupRec) : (s.recorded r).fld F.LUP_STAT.COUNT = min 4096 (s.fld F.LUP_STAT.COUNT + 1) := by
  unfold State.recorded
  rw [State.fld_setFld_same _ _ _ _ _ (by decide) (by decide)]
  exact Nat.mod_eq_of_lt (lt_of_le_of_lt (Nat.min_le_left _ _) (by decide))

theorem State.recorded_sameRegs (s : State) (r : LupRec) : SameRegs [⟨.LUP_SEQ, 0, 0⟩, ⟨.LUP_STAT, 0, 0⟩] s (s.recorded r) :=
  (((SameRegs.refl _ s).of_regs (State.modLup_regs _ _)).andFld (by repeat constructor) (by omega)).andFld (by repeat constructor) (by omega)

theorem doLupinRecordWrite_next (s : State) (r : LupRec) (q : List LupRec) (open_ : s.flag F.LUP_STAT.FROZEN = false) (runs : s.sysStopped = false)
    (queue : s.lup.queue = r :: q) : doLupinRecordWrite s = (s.modLup (fun l => { l with queue := q })).lupWrite r := by
  unfold doLupinRecordWrite
  rw [if_neg (by simp [open_, runs]), queue]

/-- A record of the present time. -/
def State.lupRec (s : State) (kind src sev a0 a1 : Nat) : LupRec :=
  { kind := kind, source := src, sev := sev, boot := s.fld F.SEC_BOOT_CNT.COUNT % 32, at_ := s.now
    arg0 := a0 % 2 ^ 32, arg1 := a1 % 2 ^ 32, cyc := s.time.now }

theorem State.lupSubmit_held (s : State) (kind src sev a0 a1 : Nat) (holds : s.lup.holding = true) (room : s.lup.hold.length < 256) :
    s.lupSubmit kind src sev a0 a1 = s.modLup (fun l => { l with hold := l.hold ++ [s.lupRec kind src sev a0 a1] }) :=
  (if_pos holds).trans (if_pos room)

theorem State.lupSubmit_frozen (s : State) (kind src sev a0 a1 : Nat) (free : s.lup.holding = false) (frozen : s.flag F.LUP_STAT.FROZEN = true) :
    s.lupSubmit kind src sev a0 a1 = s.count F.LUP_CNT.LOST :=
  (if_neg (by simp [free])).trans (if_pos frozen)

theorem State.lupSubmit_queued (s : State) (kind src sev a0 a1 : Nat) (free : s.lup.holding = false) (open_ : s.flag F.LUP_STAT.FROZEN = false)
    (empty : s.lup.queue = []) :
    s.lupSubmit kind src sev a0 a1 = s.modLup (fun l => { l with queue := insertLup (s.lupRec kind src sev a0 a1) l.queue }) :=
  (if_neg (by simp [free])).trans ((if_neg (by simp [open_])).trans (if_pos (by rw [empty]; decide)))

/-- A record that waits alone. -/
theorem State.lupSubmit_alone (s : State) (kind src sev a0 a1 : Nat) (free : s.lup.holding = false) (open_ : s.flag F.LUP_STAT.FROZEN = false)
    (empty : s.lup.queue = []) : (s.lupSubmit kind src sev a0 a1).lup = { s.lup with queue := [s.lupRec kind src sev a0 a1] } := by
  rw [State.lupSubmit_queued s kind src sev a0 a1 free open_ empty]
  obtain ⟨r, hr⟩ : ∃ r, r = s.lupRec kind src sev a0 a1 := ⟨_, rfl⟩
  rw [← hr]
  exact congrArg (fun q => { s.lup with queue := q }) (congrArg (insertLup r) empty)

/-! The copy of the records into flash. -/

/-- The records' slot `k` holds `d`, and the buffer is empty again. -/
theorem State.lupResume_empty (s : State) (h : s.lup.hold = []) :
    s.lupResume = (s.setFlag F.LUP_STAT.UNSAVED false).lupEmpty.modLup (fun l => { l with hold := [], holding := false }) := by
  unfold State.lupResume
  rw [h]
  rfl

theorem State.lupOrder_addTo (s : State) (n : Nat) : (s.addTo F.LUP_CNT.CORR n).lupOrder = s.lupOrder := by
  unfold State.lupOrder
  rw [State.addTo, State.fld_setFld_kind _ _ _ _ _ _ _ _ (by decide), State.fld_setFld_kind _ _ _ _ _ _ _ _ (by decide), State.setFld_lup]

/-- The copy in slot `k`. -/
def State.dumpOf (s : State) : DumpSlot :=
  { bootCount := s.fld F.SEC_BOOT_CNT.COUNT, lastSeq := (s.lupOrder.getLast?.map (·.seq)).getD 0
    header := s.dumpHeader s.lupOrder, recs := s.lupOrder }

theorem doLupinSaveDone_bad (s : State) (k n : Nat) (saving : s.lup.saving = some k) : doLupinSaveDone false n s =
    ((s.addTo F.LUP_CNT.CORR n).modLup (fun l => { l with saving := none })).setFlag F.LUP_STAT.SAVE_FAIL := by
  unfold doLupinSaveDone
  rw [saving]
  exact if_neg Bool.false_ne_true

/-- A saved buffer: the copy is in its slot. -/
def State.saved (s : State) (k : Nat) (d : DumpSlot) : State :=
  ((s.modLup (fun l => { l with saving := none })).modLup (fun l => { l with dump := l.dump.set k (some d) })).setFld F.LUP_STAT.LAST_SLOT k

theorem doLupinSaveDone_good (s : State) (k n : Nat) (saving : s.lup.saving = some k) (calm : s.fcl.safe = false) : doLupinSaveDone true n s =
    ((s.addTo F.LUP_CNT.CORR n).saved k (s.addTo F.LUP_CNT.CORR n).dumpOf).lupResume := by
  unfold doLupinSaveDone
  rw [saving]
  dsimp only
  rw [if_pos rfl, if_neg (by simp [calm, State.addTo])]
  rfl

theorem State.lupEmpty_stat (s : State) : s.lupEmpty.flag F.LUP_STAT.FROZEN = false ∧ s.lupEmpty.fld F.LUP_STAT.COUNT = 0
    ∧ s.lupEmpty.flag F.LUP_STAT.UNSAVED = s.flag F.LUP_STAT.UNSAVED ∧ s.lupEmpty.fld F.LUP_STAT.LAST_SLOT = s.fld F.LUP_STAT.LAST_SLOT := by
  unfold State.lupEmpty
  refine ⟨State.flag_setFlag_same _ _ _ _ _ rfl (by decide), ?_, ?_, ?_⟩
  · rw [State.fld_setFlag_beside _ F.LUP_STAT.FROZEN F.LUP_STAT.COUNT _ _ _ rfl (by decide) (by decide) (by decide),
      State.fld_setFld_same _ _ _ _ _ (by decide) (by decide)]
    rfl
  · rw [State.flag_setFlag_beside _ F.LUP_STAT.FROZEN F.LUP_STAT.UNSAVED _ _ _ rfl (by decide) (by decide) (by decide),
      State.flag_setFld_beside _ F.LUP_STAT.COUNT F.LUP_STAT.UNSAVED _ _ _ rfl (by decide) (by decide) (by decide), State.modLup_flag]
  · rw [State.fld_setFlag_beside _ F.LUP_STAT.FROZEN F.LUP_STAT.LAST_SLOT _ _ _ rfl (by decide) (by decide) (by decide),
      State.fld_setFld_beside _ F.LUP_STAT.COUNT F.LUP_STAT.LAST_SLOT _ _ _ rfl (by decide) (by decide) (by decide), State.modLup_fld]

theorem State.lupEmpty_lup (s : State) : s.lupEmpty.lup = { s.lup with buf := {} } := by simp [State.lupEmpty]

theorem State.lupEmpty_fld_kind (s : State) (f : Fld) (i j : Nat) (h : f.reg ≠ .LUP_STAT) : s.lupEmpty.fld f i j = s.fld f i j := by
  unfold State.lupEmpty
  rw [State.fld_setFlag_kind _ _ _ _ _ _ _ _ h, State.fld_setFld_kind _ _ _ _ _ _ _ _ h, State.modLup_fld]

theorem State.lupEmpty_sameRegs (s : State) : SameRegs [⟨.LUP_STAT, 0, 0⟩] s s.lupEmpty :=
  (((SameRegs.refl _ s).of_regs (State.modLup_regs _ _)).andFld (by repeat constructor) (by omega)).andFlag (by repeat constructor) (by omega)

/-- What a good copy leaves, with no record that came during it. -/
theorem State.saved_resumed (s : State) (k : Nat) (d : DumpSlot) (hold : s.lup.hold = []) (small : k < 4) :
    (s.saved k d).lupResume.lup = { buf := {}, queue := s.lup.queue, hold := [], holding := false, dump := s.lup.dump.set k (some d), saving := none }
      ∧ (s.saved k d).lupResume.fld F.LUP_STAT.LAST_SLOT = k ∧ (s.saved k d).lupResume.flag F.LUP_STAT.FROZEN = false
      ∧ (s.saved k d).lupResume.flag F.LUP_STAT.UNSAVED = false ∧ (s.saved k d).lupResume.fld F.LUP_CNT.CORR = s.fld F.LUP_CNT.CORR
      ∧ SameRegs [⟨.LUP_STAT, 0, 0⟩] s (s.saved k d).lupResume := by
  have lup : (s.saved k d).lup = { s.lup with saving := none, dump := s.lup.dump.set k (some d) } := by simp [State.saved]
  have slot : (s.saved k d).fld F.LUP_STAT.LAST_SLOT = k :=
    (State.fld_setFld_same _ _ _ _ _ (by decide) (by decide)).trans (Nat.mod_eq_of_lt small)
  have corr : (s.saved k d).fld F.LUP_CNT.CORR = s.fld F.LUP_CNT.CORR := State.fld_setFld_kind _ F.LUP_STAT.LAST_SLOT _ _ _ _ _ _ (by decide)
  have regs : SameRegs [⟨.LUP_STAT, 0, 0⟩] s (s.saved k d) :=
    (((SameRegs.refl _ s).of_regs (State.modLup_regs _ _)).of_regs (State.modLup_regs _ _)).andFld (by repeat constructor) (by omega)
  obtain ⟨u, hu⟩ : ∃ u, u = s.saved k d := ⟨_, rfl⟩
  rw [← hu] at lup slot corr regs ⊢
  obtain ⟨frozen, -, unsaved, last⟩ := (u.setFlag F.LUP_STAT.UNSAVED false).lupEmpty_stat
  rw [u.lupResume_empty (by rw [lup]; exact hold), State.modLup_fld, State.modLup_flag, State.modLup_flag, State.modLup_fld]
  refine ⟨?_, ?_, frozen, ?_, ?_, ?_⟩
  · rw [State.modLup_lup, State.lupEmpty_lup, State.setFlag_lup, lup]
  · rw [last, State.fld_setFlag_beside _ F.LUP_STAT.UNSAVED F.LUP_STAT.LAST_SLOT _ _ _ rfl (by decide) (by decide) (by decide), slot]
  · rw [unsaved, State.flag_setFlag_same _ _ _ _ _ rfl (by decide)]
  · rw [State.lupEmpty_fld_kind _ _ _ _ (by decide), State.fld_setFlag_kind _ _ _ _ _ _ _ _ (by decide), corr]
  · exact ((regs.andFlag (by repeat constructor) (by omega)).trans (State.lupEmpty_sameRegs _)).of_regs (State.modLup_regs _ _)

/-! Injectors. -/

theorem State.noHeld_of_fij {s t : State} (h : s.noHeld) (same : ∀ i, i < 8 → (t.fcl.fij.get i).held = (s.fcl.fij.get i).held
    ∧ (t.fcl.fij.get i).cut = (s.fcl.fij.get i).cut) : t.noHeld := fun i hi =>
  ⟨(same i hi).1.trans (h i hi).1, (same i hi).2.trans (h i hi).2⟩

/-- Injector `i` is armed. -/
def State.injArmed (s : State) (i : Nat) : State :=
  (s.setFlag F.FIJ_CTRL.ARM true i).setFld F.FIJ_STAT.ARMED (s.fld F.FIJ_STAT.ARMED ||| 1 <<< i)

theorem State.injArmed_shown (s : State) (i : Nat) (h : i < 8) : (s.injArmed i).flag F.FIJ_CTRL.ARM i = true
    ∧ bit ((s.injArmed i).fld F.FIJ_STAT.ARMED) i = true := by
  unfold State.injArmed
  constructor
  · rw [State.flag_setFld_kind _ _ _ _ _ _ _ _ (by decide), State.flag_setFlag_same _ _ _ _ _ rfl (by decide)]
  · rw [State.fld_setFld_same _ _ _ _ _ (by decide) (by decide), bit_eq_testBit, Nat.testBit_mod_two_pow, Nat.testBit_or, Nat.testBit_shiftLeft]
    simp [F.FIJ_STAT.ARMED, h]

theorem State.injArmed_sameRegs (s : State) (i : Fin 8) : SameRegs [⟨.FIJ_CTRL, i, 0⟩, ⟨.FIJ_STAT, 0, 0⟩] s (s.injArmed i) :=
  ((SameRegs.refl _ s).andFlag (by repeat constructor) (by omega)).andFld (by repeat constructor) (by omega)

theorem State.injArmed_offRegs (s : State) (i : Nat) : (s.injArmed i).offRegs = s.offRegs := by simp [State.injArmed]

theorem State.injArmed_fcl (s : State) (i : Nat) : (s.injArmed i).fcl = s.fcl := by simp [State.injArmed]

theorem State.injArmed_ctrl (s : State) (i : Nat) (f : Fld) (reg : f.reg = .FIJ_CTRL) (below : f.hi < 31) :
    (s.injArmed i).fld f i = s.fld f i := by
  unfold State.injArmed
  rw [State.fld_setFld_kind _ _ _ _ _ _ _ _ (by rw [reg]; decide),
    State.fld_setFlag_beside _ F.FIJ_CTRL.ARM f _ _ _ reg (by decide) (by decide) (.inr below)]

theorem State.injArmed_unlocked (s : State) (i : Nat) : (s.injArmed i).flag F.FIJ_STAT.UNLOCKED = s.flag F.FIJ_STAT.UNLOCKED := by
  unfold State.injArmed
  rw [State.flag_setFld_beside _ F.FIJ_STAT.ARMED F.FIJ_STAT.UNLOCKED _ _ _ rfl (by decide) (by decide) (by decide),
    State.flag_setFlag_kind _ _ _ _ _ _ _ _ (by decide)]

theorem State.armInjector_free (s : State) (i : Nat) (unlocked : s.flag F.FIJ_STAT.UNLOCKED = true) (calm : s.fcl.safe = false)
    (idle : s.flag F.FIJ_CTRL.ARM i = false) :
    s.armInjector i true = (s.injArmed i).when (!s.flag F.FIJ_TRIG.AT_EN i) (·.injStart i) := by
  have at_ : (s.injArmed i).flag F.FIJ_TRIG.AT_EN i = s.flag F.FIJ_TRIG.AT_EN i := by
    unfold State.injArmed
    rw [State.flag_setFld_kind _ _ _ _ _ _ _ _ (by decide), State.flag_setFlag_kind _ _ _ _ _ _ _ _ (by decide)]
  refine (if_pos rfl).trans ((if_neg (by simp [unlocked, calm, idle])).trans ?_)
  rw [← at_]
  rfl

/-- Injector `i` fires. -/
def State.injFiring (s : State) (i : Nat) : State := s.modFcl (fun f => { f with fij := f.fij.upd i (fun x =>
  { x with firing := true, hit := false, gap := 0, left := max 1 (s.fld F.FIJ_CTRL.COUNT i) }) })

theorem State.injStart_fires (s : State) (i : Nat) (armed : s.flag F.FIJ_CTRL.ARM i = true) (unlocked : s.flag F.FIJ_STAT.UNLOCKED = true)
    (calm : s.fcl.safe = false) (still : (s.fcl.fij.get i).firing = false) (link : s.fld F.FIJ_CTRL.LINK i ≠ 6) :
    s.injStart i = s.injFiring i :=
  (if_neg (by simp [armed, unlocked, calm, still])).trans (if_neg link)

theorem State.injFiring_same (s : State) (i : Nat) : ((s.injFiring i).fcl.fij.get i).firing = true
    ∧ ((s.injFiring i).fcl.fij.get i).left = max 1 (s.fld F.FIJ_CTRL.COUNT i) := by
  have same : (s.injFiring i).fcl.fij.get i =
      { s.fcl.fij.get i with firing := true, hit := false, gap := 0, left := max 1 (s.fld F.FIJ_CTRL.COUNT i) } := Tbl.get_upd_same _ _ _
  rw [same]
  exact ⟨rfl, rfl⟩

theorem State.injFiring_other (s : State) (i k : Nat) (h : k ≠ i) : (s.injFiring i).fcl.fij.get k = s.fcl.fij.get k := Tbl.get_upd_other _ _ _ _ h

theorem State.injFiring_held (s : State) (i k : Nat) : ((s.injFiring i).fcl.fij.get k).held = (s.fcl.fij.get k).held
    ∧ ((s.injFiring i).fcl.fij.get k).cut = (s.fcl.fij.get k).cut := by
  by_cases h : k = i
  · subst h
    have same : (s.injFiring k).fcl.fij.get k =
      { s.fcl.fij.get k with firing := true, hit := false, gap := 0, left := max 1 (s.fld F.FIJ_CTRL.COUNT k) } := Tbl.get_upd_same _ _ _
    rw [same]
    exact ⟨rfl, rfl⟩
  · rw [s.injFiring_other i k h]
    exact ⟨rfl, rfl⟩

/-- Injector `i`, which holds nothing, is disarmed. -/
def State.injOff (s : State) (i : Nat) : State :=
  ((s.setFlag F.FIJ_CTRL.ARM false i).setFld F.FIJ_STAT.ARMED (putBits (s.fld F.FIJ_STAT.ARMED) i i 0)).modFcl (fun f =>
    { f with fij := f.fij.upd i (fun x => { x with firing := false, left := 0, gap := 0, cut := x.held != [] }) })

theorem State.injOff_same (s : State) (i : Nat) : (s.injOff i).fcl.fij.get i =
    { s.fcl.fij.get i with firing := false, left := 0, gap := 0, cut := (s.fcl.fij.get i).held != [] } := by
  unfold State.injOff
  rw [State.modFcl_fcl, State.setFld_fcl, State.setFlag_fcl]
  exact Tbl.get_upd_same _ _ _

theorem State.injOff_other (s : State) (i k : Nat) (h : k ≠ i) : (s.injOff i).fcl.fij.get k = s.fcl.fij.get k := by
  unfold State.injOff
  rw [State.modFcl_fcl, State.setFld_fcl, State.setFlag_fcl]
  exact Tbl.get_upd_other _ _ _ _ h

theorem State.injOff_noHeld (s : State) (i : Nat) (h : s.noHeld) (low : i < 8) : (s.injOff i).noHeld := fun k hk => by
  by_cases e : k = i
  · rw [e, State.injOff_same]
    exact ⟨(h i low).1, by rw [(h i low).1]; rfl⟩
  · rw [State.injOff_other _ _ _ e]
    exact h k hk

theorem State.injOff_shown (s : State) (i : Nat) : (s.injOff i).flag F.FIJ_CTRL.ARM i = false
    ∧ bit ((s.injOff i).fld F.FIJ_STAT.ARMED) i = false := by
  unfold State.injOff
  rw [State.modFcl_flag, State.modFcl_fld]
  constructor
  · rw [State.flag_setFld_kind _ _ _ _ _ _ _ _ (by decide), State.flag_setFlag_same _ _ _ _ _ rfl (by decide)]
  · rw [State.fld_setFld_same _ _ _ _ _ (by decide) (by decide), bit_eq_testBit, Nat.testBit_mod_two_pow]
    rw [← bit_eq_testBit, bit, bits_putBits_same _ _ _ _ (by omega)]
    simp

/-- The held units of injector `i` are taken from it. -/
def State.injEmptied (s : State) (i : Nat) : State :=
  s.modFcl (fun f => { f with fij := f.fij.upd i (fun x => { x with held := [], cut := false }) })

theorem State.releaseHeld_eq (s : State) (i : Nat) : s.releaseHeld i = (s.injEmptied i).each (s.fcl.fij.get i).held.reverse
    (fun u t => t.releaseUnit i (s.fcl.fij.get i).link (s.fcl.fij.get i).inst u) := (rfl)

theorem State.injEmptied_same (s : State) (i : Nat) : (s.injEmptied i).fcl.fij.get i = { s.fcl.fij.get i with held := [], cut := false } :=
  Tbl.get_upd_same _ _ _

theorem State.injEmptied_other (s : State) (i k : Nat) (h : k ≠ i) : (s.injEmptied i).fcl.fij.get k = s.fcl.fij.get k := Tbl.get_upd_other _ _ _ _ h

/-- A unit passes injectors that neither fire nor hold one as it is. -/
theorem State.injectThrough_idle (s : State) (l : List Nat) (link inst : Nat) (u : InjUnit)
    (idle : ∀ k ∈ l, (s.fcl.fij.get k).firing = false ∧ (s.fcl.fij.get k).held = []) : s.injectThrough l link inst u = ([u], s) := by
  unfold State.injectThrough
  induction l with
  | nil => rfl
  | cons k r ih =>
    obtain ⟨firing, held⟩ := idle k List.mem_cons_self
    rw [List.foldl_cons]
    simp only [List.foldl_cons, List.foldl_nil, s.injOne_idle link inst k u firing held, List.nil_append]
    exact ih fun j hj => idle j (List.mem_cons_of_mem _ hj)

theorem State.releaseUnit_can (s : State) (i link inst : Nat) (f : CanFrame)
    (idle : ∀ k, k < 8 → k ≠ i → (s.fcl.fij.get k).firing = false ∧ (s.fcl.fij.get k).held = []) :
    s.releaseUnit i link inst (.canTx f) = s.emit (.can inst f) := by
  have through := s.injectThrough_idle ((List.range 8).filter (fun j => decide (i < j))) link inst (.canTx f) fun k hk => by
    obtain ⟨low, above⟩ := List.mem_filter.mp hk
    exact idle k (List.mem_range.mp low) (Nat.ne_of_gt (of_decide_eq_true above))
  unfold State.releaseUnit
  dsimp only
  rw [through]
  rfl

/-- Settles O54. -/
theorem lupinRecordsAndInjectorsFire : Obligations.LupinRecordsAndInjectorsFire := by
  refine fun s => ⟨fun quiet => ?quiet, fun r q open_ runs queue => ?write, ?freeze, fun owed => ?refused, fun calm saved => ?cleared,
    fun good => ?release, fun p v => ⟨fun free frozen => ?lost, fun free open_ empty => ?queued, fun holds room => ?held⟩,
    fun holds unsaved good idle first last => ?save, fun k saving small => ⟨fun calm hold c => ?copied, fun c => ?failed⟩,
      fun i => ⟨fun locked free => ?ignored,
    fun unlocked calm idle waits free => ?armed, fun unlocked calm idle now link still free => ?fires, fun free => ?disarmed,
      fun waits early => ?notYet,
    fun armed unlocked calm still link reached => ?fired, fun held cut => ?nothing, fun f held idle => ?released⟩⟩
  case quiet =>
    refine congrArg Host.Outcome.next ?_
    unfold doLupinRecordWrite
    rcases quiet with h | h | h
    · exact if_pos (.inl h)
    · exact if_pos (.inr h)
    · rw [h]
      split <;> rfl
  case write =>
    have acts := (doLupinRecordWrite_next s r q open_ runs queue).trans (State.lupWrite_eq _ r)
    have number : (s.modLup (fun l => { l with queue := q })).fld F.LUP_SEQ.NEXT = s.fld F.LUP_SEQ.NEXT := State.modLup_fld _ _ _ _ _
    have count : (s.modLup (fun l => { l with queue := q })).fld F.LUP_STAT.COUNT = s.fld F.LUP_STAT.COUNT := State.modLup_fld _ _ _ _ _
    have lup := (s.modLup (fun l => { l with queue := q })).recorded_lup r
    rw [number] at lup
    refine ⟨_, congrArg Host.Outcome.next acts, ?_, ?_, ?_, ?_, fun k other => ?_, ?_, ?_⟩
    · rw [lup]
      exact Tbl.get_set_same _ _ _
    · rw [lup]
      rfl
    · rw [State.recorded_next, number]
    · rw [State.recorded_count, count]
    · rw [lup]
      exact Tbl.get_set_other _ _ _ _ other
    · exact ((SameRegs.refl _ s).of_regs (State.modLup_regs _ _)).trans (State.recorded_sameRegs _ r)
    · simp [State.recorded, State.modLup]
  case freeze =>
    refine ⟨_, rfl, State.flag_setFlag_same _ _ _ _ _ rfl (by decide), ?_, ?_, State.regs_back ?_⟩ <;> unfold doFreeze
    · rw [State.flag_setFlag_beside _ F.LUP_STAT.FROZEN F.LUP_STAT.UNSAVED _ _ _ rfl (by decide) (by decide) (by decide),
        State.flag_setFlag_same _ _ _ _ _ rfl (by decide)]
    · exact ((SameRegs.refl _ s).andFlag (by repeat constructor) (by omega)).andFlag (by repeat constructor) (by omega)
    · simp
  case refused =>
    refine ⟨_, congrArg Host.Outcome.next (if_pos owed), State.flag_setFlag_same _ _ _ _ _ rfl (by decide), ?_, ?_,
      State.regs_back (State.setFlag_offRegs _ _ _ _ _)⟩
    · exact State.flag_setFlag_beside _ F.LUP_STAT.REFUSED F.LUP_STAT.FROZEN _ _ _ rfl (by decide) (by decide) (by decide)
    · exact (SameRegs.refl _ s).andFlag (by repeat constructor) (by omega)
  case cleared =>
    obtain ⟨frozen, count, -, -⟩ := s.lupEmpty_stat
    exact ⟨_, congrArg Host.Outcome.next (if_neg (by simp [calm, saved])), s.lupEmpty_lup, frozen, count, s.lupEmpty_sameRegs⟩
  case release =>
    refine ⟨_, congrArg Host.Outcome.next (if_neg (by simp [good])), State.flag_setFlag_same _ _ _ _ _ rfl (by decide), ?_, ?_,
      State.regs_back (State.setFlag_offRegs _ _ _ _ _)⟩
    · exact State.flag_setFlag_beside _ F.LUP_STAT.UNSAVED F.LUP_STAT.FROZEN _ _ _ rfl (by decide) (by decide) (by decide)
    · exact (SameRegs.refl _ s).andFlag (by repeat constructor) (by omega)
  case lost =>
    refine ⟨_, congrArg Host.Outcome.next (s.lupSubmit_frozen 0x50 0 0 v.toNat (pathCode p) free frozen), ?_, ?_,
      State.regs_back (State.count_offRegs _ _ _ _)⟩
    · exact State.fld_count_same _ F.LUP_CNT.LOST _ _ (by decide) (by decide)
    · exact (SameRegs.refl _ s).andCount (by repeat constructor) (by omega)
  case queued =>
    refine ⟨_, s.lupRec 0x50 0 0 v.toNat (pathCode p), rfl, s.lupSubmit_alone 0x50 0 0 v.toNat (pathCode p) free open_ empty, rfl,
      Nat.mod_eq_of_lt v.isLt, ?_, ?_⟩
    · cases p <;> rfl
    · exact (congrArg (fun t : State => { t with lup := s.lup }) (s.lupSubmit_queued 0x50 0 0 v.toNat (pathCode p) free open_ empty) :)
  case held =>
    have acts := s.lupSubmit_held 0x50 0 0 v.toNat (pathCode p) holds room
    exact ⟨_, s.lupRec 0x50 0 0 v.toNat (pathCode p), rfl, (congrArg State.lup acts :), rfl,
      (congrArg (fun t : State => { t with lup := s.lup }) acts :)⟩
  case save =>
    refine congrArg Host.Outcome.next (if_pos ⟨?_, ?_, first, last⟩)
    · simp [State.saveOwed, holds, unsaved, good]
    · rw [idle]
      rfl
  case copied =>
    obtain ⟨u, hu⟩ : ∃ u, u = s.addTo F.LUP_CNT.CORR c.toNat := ⟨_, rfl⟩
    have acts := doLupinSaveDone_good s k c.toNat saving calm
    have order : u.lupOrder = s.lupOrder := hu ▸ s.lupOrder_addTo c.toNat
    have boot : u.fld F.SEC_BOOT_CNT.COUNT = s.fld F.SEC_BOOT_CNT.COUNT := hu ▸ State.fld_setFld_kind s F.LUP_CNT.CORR _ _ _ _ _ _ (by decide)
    have corr : u.fld F.LUP_CNT.CORR = min F.LUP_CNT.CORR.max (s.fld F.LUP_CNT.CORR + c.toNat) :=
      hu ▸ s.fld_addTo_same F.LUP_CNT.CORR _ _ _ (by decide) (by decide)
    have regs : SameRegs [⟨.LUP_STAT, 0, 0⟩, ⟨.LUP_CNT, 0, 0⟩] s u := hu ▸ (SameRegs.refl _ s).andAdd (by repeat constructor) (by omega)
    have lup : u.lup = s.lup := hu ▸ State.setFld_lup _ _ _ _ _
    rw [← hu] at acts
    obtain ⟨lup', slot, frozen, unsaved, kept, same⟩ := u.saved_resumed k u.dumpOf (by rw [lup]; exact hold) small
    refine ⟨_, u.dumpOf, congrArg Host.Outcome.next acts, ?_, order, boot, ?_, ?_, ?_, slot, frozen, unsaved, kept.trans corr,
      regs.trans (same.widen (by simp))⟩
    · rw [lup']
      exact Tbl.get_set_same _ _ _
    · rw [lup']
    · rw [lup']
    · rw [lup']
  case failed =>
    refine ⟨_, congrArg Host.Outcome.next (doLupinSaveDone_bad s k c.toNat saving), State.flag_setFlag_same _ _ _ _ _ rfl (by decide), ?_, ?_, ?_, ?_⟩
    · simp [State.addTo]
    · rw [State.fld_setFlag_kind _ _ _ _ _ _ _ _ (by decide), State.modLup_fld, State.fld_addTo_same _ _ _ _ _ (by decide) (by decide)]
    · rw [State.flag_setFlag_beside _ F.LUP_STAT.SAVE_FAIL F.LUP_STAT.FROZEN _ _ _ rfl (by decide) (by decide) (by decide), State.modLup_flag,
        State.addTo, State.flag_setFld_kind _ _ _ _ _ _ _ _ (by decide)]
    · exact (((SameRegs.refl _ s).andAdd (by repeat constructor) (by omega)).of_regs (State.modLup_regs _ _)).andFlag
        (by repeat constructor) (by omega)
  case ignored =>
    have same : s.armInjector i true = s := by
      refine (if_pos rfl).trans (if_pos ?_)
      rcases locked with h | h
      · exact .inr (.inl (by simp [h]))
      · exact .inl h
    refine congrArg Host.Outcome.next ?_
    unfold doInjectorArm
    rw [same, s.releaseDisarmed_of_noHeld free]
  case armed =>
    have acts := s.armInjector_free i unlocked calm idle
    rw [waits, Bool.not_true, State.when_false] at acts
    have held : (s.injArmed i).noHeld := State.noHeld_of_fij free fun k _ =>
      ⟨congrArg (fun f : Fcl => (f.fij.get k).held) (s.injArmed_fcl i), congrArg (fun f : Fcl => (f.fij.get k).cut) (s.injArmed_fcl i)⟩
    refine ⟨s.injArmed i, congrArg Host.Outcome.next ?_, (s.injArmed_shown i i.isLt).1, (s.injArmed_shown i i.isLt).2, s.injArmed_sameRegs i,
      State.regs_back (s.injArmed_offRegs i)⟩
    unfold doInjectorArm
    rw [acts, State.releaseDisarmed_of_noHeld _ held]
  case fires =>
    have acts := s.armInjector_free i unlocked calm idle
    have fcl := s.injArmed_fcl i
    have start := (s.injArmed i).injStart_fires i (s.injArmed_shown i i.isLt).1 ((s.injArmed_unlocked i).trans unlocked) (by rw [fcl, calm])
      (by rw [fcl, still]) (by rw [s.injArmed_ctrl i _ rfl (by decide)]; exact link)
    rw [now, Bool.not_false, State.when_true, start] at acts
    have held : ((s.injArmed i).injFiring i).noHeld := State.noHeld_of_fij free fun k _ => by
      rw [← fcl]
      exact (s.injArmed i).injFiring_held i k
    refine ⟨_, congrArg Host.Outcome.next ((congrArg State.releaseDisarmed acts).trans (State.releaseDisarmed_of_noHeld _ held)), ?_,
      ((s.injArmed i).injFiring_same i).1, ?_⟩
    · exact (State.modFcl_flag _ _ _ _ _).trans (s.injArmed_shown i i.isLt).1
    · rw [((s.injArmed i).injFiring_same i).2, s.injArmed_ctrl i _ rfl (by decide)]
  case disarmed =>
    have off : s.armInjector i false = s.injOff i := if_neg Bool.false_ne_true
    have acts := (congrArg State.releaseDisarmed off).trans (State.releaseDisarmed_of_noHeld _ (s.injOff_noHeld i free i.isLt))
    refine ⟨_, congrArg Host.Outcome.next acts, (s.injOff_shown i).1, (s.injOff_shown i).2, ?_, fun k h => s.injOff_other i k h, ?_⟩
    · rw [State.injOff_same]
    · exact (((SameRegs.refl _ s).andFlag (by repeat constructor) (by omega)).andFld (by repeat constructor) (by omega)).of_regs
        (State.modFcl_regs _ _)
  case notYet => exact congrArg Host.Outcome.next (if_neg (by simp [waits, early]))
  case fired =>
    have acts : doInjectorFire i s = s.injFiring i :=
      (if_pos (by simpa using reached)).trans (s.injStart_fires i armed unlocked calm still link)
    exact ⟨_, congrArg Host.Outcome.next acts, (s.injFiring_same i).1, (s.injFiring_same i).2, fun k h => s.injFiring_other i k h,
      by simp [State.injFiring, State.modFcl]⟩
  case nothing =>
    have acts := s.releaseHeld_eq i
    rw [held] at acts
    refine ⟨_, congrArg Host.Outcome.next acts, fun k => ?_, by simp [State.injEmptied, State.modFcl, State.each]⟩
    by_cases e : k = i
    · rw [e]
      refine (s.injEmptied_same i).trans ?_
      rw [← held, ← cut]
    · exact s.injEmptied_other i k e
  case released =>
    have acts := s.releaseHeld_eq i
    rw [held] at acts
    have sent := (s.injEmptied i).releaseUnit_can i (s.fcl.fij.get i).link (s.fcl.fij.get i).inst f fun k low e => by
      rw [s.injEmptied_other i k e]
      exact idle k low e
    refine ⟨_, congrArg Host.Outcome.next (acts.trans sent), ?_, rfl⟩
    exact (congrArg Inj.held (s.injEmptied_same i) :)
end Sys2Proof.Machine
end

section
/-! PROOFS. Bits of a number in which a field was replaced. -/
namespace Sys2Proof.Machine

/-- A bit of a number in which one field was replaced. -/
theorem testBit_putBits (w hi lo v k : Nat) (h : lo ≤ hi) :
    (putBits w hi lo v).testBit k = if lo ≤ k ∧ k ≤ hi then v.testBit (k - lo) else w.testBit k := by
  have single (x : Nat) : x.testBit k = bit x k := (bit_eq_testBit x k).symm
  by_cases inside : lo ≤ k ∧ k ≤ hi
  · have same := congrArg (·.testBit (k - lo)) (bits_putBits_same w hi lo v (by omega))
    rw [testBit_bits, Nat.testBit_mod_two_pow, show lo + (k - lo) = k by omega, decide_eq_true (by omega), Bool.true_and, Bool.true_and] at same
    rw [if_pos inside, same]
  · rw [if_neg inside, single, single, bit, bit]
    rcases Nat.lt_or_ge k lo with below | above
    · rw [bits_putBits_below w hi lo v k k (by omega) below]
    · rw [bits_putBits_above w hi lo v k k (by omega) (by omega)]

/-- A flag is its bit of the register. -/
theorem State.flag_eq_testBit (s : State) (f : Fld) (i j : Nat) (one : f.hi = f.lo) : s.flag f i j = (s.rd f.reg i j).testBit f.lo := by
  rw [State.flag, State.fld, one]
  exact bit_eq_testBit _ _

/-- Two fields are equal when their bits are. -/
theorem bits_congr {v w hi lo : Nat} (h : ∀ k, k < hi + 1 - lo → v.testBit (lo + k) = w.testBit (lo + k)) : bits v hi lo = bits w hi lo :=
  Nat.eq_of_testBit_eq fun k => by
    rw [testBit_bits, testBit_bits]
    by_cases low : k < hi + 1 - lo
    · rw [h k low]
    · rw [decide_eq_false low, Bool.false_and, Bool.false_and]

theorem bits_eq_zero {w hi lo : Nat} (h : ∀ k, k < hi + 1 - lo → w.testBit (lo + k) = false) : bits w hi lo = 0 := by
  have zero : bits 0 hi lo = 0 := by simp [bits]
  rw [← zero]
  exact bits_congr fun k low => by rw [h k low, Nat.zero_testBit]
end Sys2Proof.Machine
end

section
/-! PROOFS. The lanes of Geward: an attempt's start and the clock mode. -/
namespace Sys2Proof.Machine

/-! What the start of a lane's attempt leaves of GWP_LANE_STAT (R334, R336): its lock, its place and its equaliser are gone. -/

/-- GWP_LANE_STAT after the start of an attempt. -/
def attemptStat (v : Nat) : Nat := putBits (putBits (putBits v 31 28 0) 26 26 0) 7 0 0 % 2 ^ 32

theorem testBit_attemptStat (v k : Nat) : (attemptStat v).testBit k = (decide (8 ≤ k ∧ k < 28 ∧ k ≠ 26) && v.testBit k) := by
  rw [attemptStat, Nat.testBit_mod_two_pow, testBit_putBits _ _ _ _ _ (by decide), testBit_putBits _ _ _ _ _ (by decide),
    testBit_putBits _ _ _ _ _ (by decide)]
  by_cases low : k ≤ 7
  · simp [low]
    omega
  · by_cases act : k = 26
    · simp [act]
    · by_cases high : 28 ≤ k
      · have out : ¬ (8 ≤ k ∧ k < 28 ∧ k ≠ 26) := by omega
        rw [decide_eq_false out, Bool.false_and]
        by_cases top : k ≤ 31
        · simp [low, high, top]
        · simp [show ¬ k < 32 by omega]
      · simp [show ¬ k ≤ 7 by omega, show ¬ (26 ≤ k ∧ k ≤ 26) by omega, high, show k < 32 by omega, show 8 ≤ k by omega, show k < 28 by omega, act]

theorem State.gwp_of_offRegs {s t : State} (h : t.offRegs = s.offRegs) : t.gwp = s.gwp := (congrArg State.gwp h :)

theorem State.besideGwp_of_offRegs {s t : State} (h : t.offRegs = s.offRegs) (r : Tbl (Option Word)) (g : GwPhy) :
    { t with regs := r, gwp := g } = { s with regs := r, gwp := g } := (congrArg (fun u : State => { u with regs := r, gwp := g }) h :)

theorem State.modRx_gwp (s : State) (k : Nat) (f : GwRx → GwRx) : (s.modRx k f).gwp = { s.gwp with rx := s.gwp.rx.upd k f } := (rfl)

theorem State.modRx_besideGwp (s : State) (k : Nat) (f : GwRx → GwRx) (r : Tbl (Option Word)) (g : GwPhy) :
    { s.modRx k f with regs := r, gwp := g } = { s with regs := r, gwp := g } := (rfl)

/-- The equaliser of a lane takes its start values unless they are frozen. -/
def State.eqReset (s : State) (k : Nat) : State := s.when (!s.flag F.GWP_LANE_CTRL.EQ_FREEZE k) (·.wr .GWP_LANE_EQ 0 k)

theorem State.eqReset_offRegs (s : State) (k : Nat) : (s.eqReset k).offRegs
    = s.offRegs := State.when_offRegs _ _ _ fun _ => State.wr_offRegs _ _ _ _ _

theorem State.eqReset_rd_kind (s : State) (k : Nat) (q : RegKind) (i j : Nat) (h : q ≠ .GWP_LANE_EQ) : (s.eqReset k).rd q i j = s.rd q i j := by
  unfold State.eqReset State.when
  split
  · exact State.rd_wr_kind _ _ _ _ _ _ _ _ h
  · rfl

theorem State.eqReset_rd (s : State) (k : Nat) :
    (s.eqReset k).rd .GWP_LANE_EQ k = if s.flag F.GWP_LANE_CTRL.EQ_FREEZE k then s.rd .GWP_LANE_EQ k else 0 := by
  unfold State.eqReset
  cases s.flag F.GWP_LANE_CTRL.EQ_FREEZE k with
  | true => rfl
  | false => exact State.rd_wr_same _ _ _ _ _

theorem State.startAttempt_eq (s : State) (k : Nat) : s.startAttempt k = ((s.modRx k (fun r => { fails := r.fails })).eqReset k).wr .GWP_LANE_STAT
    (putBits (putBits (putBits (((s.modRx k (fun r => { fails := r.fails })).eqReset k).rd .GWP_LANE_STAT k) 31 28 0) 26 26 0) 7 0 0) k := (rfl)

theorem State.modRx_rd (s : State) (k : Nat) (f : GwRx → GwRx) (q : RegKind) (i j : Nat) : (s.modRx k f).rd q i j = s.rd q i j := (rfl)

theorem State.modRx_flag (s : State) (k : Nat) (f : GwRx → GwRx) (g : Fld) (i j : Nat) : (s.modRx k f).flag g i j = s.flag g i j := (rfl)

theorem State.modRx_regs (s : State) (k : Nat) (f : GwRx → GwRx) : (s.modRx k f).regs = s.regs := (rfl)

theorem State.startAttempt_offRegs (s : State) (k : Nat) : (s.startAttempt k).offRegs = (s.modRx k (fun r => { fails := r.fails })).offRegs := by
  rw [State.startAttempt_eq, State.wr_offRegs, State.eqReset_offRegs]

theorem State.startAttempt_gwp (s : State) (k : Nat) : (s.startAttempt k).gwp = { s.gwp with rx := s.gwp.rx.upd k (fun r => { fails := r.fails }) } :=
  (State.gwp_of_offRegs (s.startAttempt_offRegs k)).trans (s.modRx_gwp k _)

theorem State.startAttempt_rd_stat (s : State) (k : Nat) : (s.startAttempt k).rd .GWP_LANE_STAT k = attemptStat (s.rd .GWP_LANE_STAT k) := by
  rw [State.startAttempt_eq, State.rd_wr_same, State.eqReset_rd_kind _ _ _ _ _ (by decide), State.modRx_rd, attemptStat]

theorem State.startAttempt_rd_eq (s : State) (k : Nat) :
    (s.startAttempt k).rd .GWP_LANE_EQ k = if s.flag F.GWP_LANE_CTRL.EQ_FREEZE k then s.rd .GWP_LANE_EQ k else 0 := by
  rw [State.startAttempt_eq, State.rd_wr_kind _ _ _ _ _ _ _ _ (by decide), State.eqReset_rd, State.modRx_flag, State.modRx_rd]

theorem State.startAttempt_sameRegs (s : State) (k : Nat) (h : k < 8) :
    SameRegs [⟨.GWP_LANE_STAT, k, 0⟩, ⟨.GWP_LANE_EQ, k, 0⟩] s (s.startAttempt k) := by
  have start : SameRegs [⟨.GWP_LANE_STAT, k, 0⟩, ⟨.GWP_LANE_EQ, k, 0⟩] s (s.modRx k (fun r => { fails := r.fails })) :=
    (SameRegs.refl _ s).of_regs (State.modRx_regs _ _ _)
  rw [State.startAttempt_eq]
  exact (start.when (start.andWr (by repeat constructor) (by omega))).andWr (by repeat constructor) (by omega)

/-- A flag of the lane's register after the start of an attempt. -/
theorem State.startAttempt_flag (s : State) (k : Nat) (f : Fld) (reg : f.reg = .GWP_LANE_STAT) (one : f.hi = f.lo) :
    (s.startAttempt k).flag f k = (decide (8 ≤ f.lo ∧ f.lo < 28 ∧ f.lo ≠ 26) && s.flag f k) := by
  rw [State.flag_eq_testBit _ _ _ _ one, State.flag_eq_testBit _ _ _ _ one, reg, State.startAttempt_rd_stat, testBit_attemptStat]

theorem State.startAttempt_pos (s : State) (k : Nat) : (s.startAttempt k).fld F.GWP_LANE_STAT.POS k = 0 := by
  refine bits_eq_zero fun j low => ?_
  rw [show (s.startAttempt k).rd F.GWP_LANE_STAT.POS.reg k = _ from s.startAttempt_rd_stat k, testBit_attemptStat, decide_eq_false, Bool.false_and]
  simp only [F.GWP_LANE_STAT.POS] at low ⊢
  omega

theorem State.startAttempt_attempts (s : State) (k : Nat) : (s.startAttempt k).fld F.GWP_LANE_STAT.ATTEMPTS k = s.fld F.GWP_LANE_STAT.ATTEMPTS k := by
  refine bits_congr fun j low => ?_
  rw [show (s.startAttempt k).rd F.GWP_LANE_STAT.ATTEMPTS.reg k = _ from s.startAttempt_rd_stat k, testBit_attemptStat, decide_eq_true, Bool.true_and]
  · rfl
  · simp only [F.GWP_LANE_STAT.ATTEMPTS] at low ⊢
    omega

theorem State.startAttempt_rd_kind (s : State) (k : Nat) (q : RegKind) (i j : Nat) (stat : q ≠ .GWP_LANE_STAT) (eq : q ≠ .GWP_LANE_EQ) :
    (s.startAttempt k).rd q i j = s.rd q i j := by
  rw [State.startAttempt_eq, State.rd_wr_kind _ _ _ _ _ _ _ _ stat, State.eqReset_rd_kind _ _ _ _ _ eq, State.modRx_rd]

/-! The clock mode of a lane. -/

theorem State.setFb_offRegs (s : State) (k : Nat) (fb : Bool) : (s.setFb k fb).offRegs = s.offRegs := by
  unfold State.setFb
  rw [State.setFlag_offRegs, State.when_offRegs _ _ _ fun _ => State.count_offRegs _ _ _ _]

theorem State.setFb_mode (s : State) (k : Nat) (fb : Bool) : (s.setFb k fb).flag F.GWP_LANE_STAT.FB_MODE k = fb :=
  State.flag_setFlag_same _ _ _ _ _ rfl (by decide)

/-- What a change of the clock mode counts. -/
theorem State.setFb_cases (s : State) (k : Nat) (fb : Bool) : s.setFb k fb = s.setFlag F.GWP_LANE_STAT.FB_MODE fb k
    ∨ s.setFb k fb = (s.count F.GWP_LANE_CNT1.FB_ENTRY k).setFlag F.GWP_LANE_STAT.FB_MODE fb k := by
  unfold State.setFb State.when
  dsimp only
  split
  · exact .inr rfl
  · exact .inl rfl

theorem State.setFb_fld (s : State) (k : Nat) (fb : Bool) (f : Fld) (reg : f.reg = .GWP_LANE_STAT) (beside : 27 < f.lo ∨ f.hi < 27) :
    (s.setFb k fb).fld f k = s.fld f k := by
  obtain h | h := s.setFb_cases k fb <;> rw [h, State.fld_setFlag_beside _ _ _ _ _ _ reg (by decide) (by decide) beside]
  exact State.fld_count_kind _ _ _ _ _ _ _ (by rw [reg]; decide)

theorem State.setFb_flag (s : State) (k : Nat) (fb : Bool) (f : Fld) (reg : f.reg = .GWP_LANE_STAT) (beside : 27 < f.lo ∨ f.hi < 27) :
    (s.setFb k fb).flag f k = s.flag f k := congrArg (· == 1) (s.setFb_fld k fb f reg beside)

theorem State.setFb_rd_kind (s : State) (k : Nat) (fb : Bool) (q : RegKind) (i j : Nat) (stat : q ≠ .GWP_LANE_STAT) (cnt : q ≠ .GWP_LANE_CNT1) :
    (s.setFb k fb).rd q i j = s.rd q i j := by
  obtain h | h := s.setFb_cases k fb <;> rw [h, State.rd_setFlag_kind _ _ _ _ _ _ _ _ stat]
  exact State.rd_count_kind _ _ _ _ _ _ _ cnt

theorem State.setFb_sameRegs (s : State) (k : Nat) (fb : Bool) (h : k < 8) :
    SameRegs [⟨.GWP_LANE_STAT, k, 0⟩, ⟨.GWP_LANE_CNT1, k, 0⟩] s (s.setFb k fb) := by
  obtain e | e := s.setFb_cases k fb <;> rw [e]
  · exact (SameRegs.refl _ s).andFlag (by repeat constructor) (by omega)
  · exact ((SameRegs.refl _ s).andCount (by repeat constructor) (by omega)).andFlag (by repeat constructor) (by omega)

/-! All lanes start anew. -/

/-- Lane `k` starts anew. -/
def State.laneStarted (s : State) (k : Nat) : State :=
  ((s.modRx k (fun _ => {})).startAttempt k).setFb k (s.flag F.GWP_CTRL.FORCE_FB && s.gwTxOn && !s.flag F.GWP_LANE_CTRL.RX_DIS k)

/-- Lane `k` has no lock and no place. -/
def State.laneFresh (s : State) (k : Nat) : Prop := s.flag F.GWP_LANE_STAT.BLK_LOCK k = false ∧ s.flag F.GWP_LANE_STAT.ACTIVE k = false
  ∧ s.fld F.GWP_LANE_STAT.POS k = 0 ∧ s.gwp.rx.get k = {}

theorem State.laneStarted_gwp (s : State) (k : Nat) :
    (s.laneStarted k).gwp = { s.gwp with rx := (s.gwp.rx.upd k (fun _ => {})).upd k (fun r => { fails := r.fails }) } :=
  (State.gwp_of_offRegs (State.setFb_offRegs _ k _)).trans (State.startAttempt_gwp _ k)

theorem State.laneStarted_fresh (s : State) (k : Nat) : (s.laneStarted k).laneFresh k := by
  have gwp := s.laneStarted_gwp k
  unfold State.laneFresh
  rw [gwp]
  unfold State.laneStarted
  rw [State.setFb_flag _ _ _ _ rfl (by decide), State.setFb_flag _ _ _ _ rfl (by decide), State.setFb_fld _ _ _ _ rfl (by decide),
    State.startAttempt_flag _ _ _ rfl rfl, State.startAttempt_flag _ _ _ rfl rfl, State.startAttempt_pos]
  exact ⟨rfl, rfl, rfl, (Tbl.get_upd_same _ _ _).trans (by rw [Tbl.get_upd_same])⟩

theorem State.laneStarted_sameRegs (s : State) (k : Nat) (h : k < 8) :
    SameRegs [⟨.GWP_LANE_STAT, k, 0⟩, ⟨.GWP_LANE_EQ, k, 0⟩, ⟨.GWP_LANE_CNT1, k, 0⟩] s (s.laneStarted k) := by
  have one := ((SameRegs.refl _ s).of_regs (State.modRx_regs s k (fun _ => {}))).trans ((s.modRx k (fun _ => {})).startAttempt_sameRegs k h)
  exact (one.widen (by simp)).trans ((State.setFb_sameRegs _ k _ h).widen (by simp))

theorem State.laneStarted_offGwp (s : State) (k : Nat) : { s.laneStarted k with regs := s.regs, gwp := s.gwp } = s := by
  have off := (State.setFb_offRegs ((s.modRx k (fun _ => {})).startAttempt k) k (s.flag F.GWP_CTRL.FORCE_FB && s.gwTxOn
    && !s.flag F.GWP_LANE_CTRL.RX_DIS k)).trans (State.startAttempt_offRegs _ k)
  exact (State.besideGwp_of_offRegs off s.regs s.gwp).trans (State.modRx_besideGwp _ k _ s.regs s.gwp)

theorem State.laneFresh_of_other (s : State) (j k : Nat) (hj : j < 8) (hk : k < 8) (other : k ≠ j) (fresh : s.laneFresh k) :
    (s.laneStarted j).laneFresh k := by
  have stat : (s.laneStarted j).rd .GWP_LANE_STAT k = s.rd .GWP_LANE_STAT k :=
    s.laneStarted_sameRegs j hj .GWP_LANE_STAT k 0 (by omega) (by omega) (by simp [other])
  have same (f : Fld) (reg : f.reg = .GWP_LANE_STAT) : (s.laneStarted j).fld f k = s.fld f k := by
    unfold State.fld
    rw [reg, stat]
  obtain ⟨lock, act, pos, rx⟩ := fresh
  refine ⟨?_, ?_, ?_, ?_⟩
  · exact (congrArg (· == 1) (same F.GWP_LANE_STAT.BLK_LOCK rfl)).trans lock
  · exact (congrArg (· == 1) (same F.GWP_LANE_STAT.ACTIVE rfl)).trans act
  · exact (same F.GWP_LANE_STAT.POS rfl).trans pos
  · rw [State.laneStarted_gwp]
    exact ((Tbl.get_upd_other _ _ _ _ other).trans (Tbl.get_upd_other _ _ _ _ other)).trans rx

/-- The assembly of units from the lanes starts anew. -/
def State.unitsAnew (s : State) : State :=
  s.modGwp (fun p => { p with lanes := [], said := false, lastM := none, asm := [], broken := false, slots := 0 })

theorem State.startLanes_eq (s : State) : s.startLanes = s.unitsAnew.each (List.range 8) (fun k t => t.laneStarted k) := (rfl)

theorem State.each_cons {α : Type} (s : State) (a : α) (l : List α) (f : α → State → State) : s.each (a :: l) f = (f a s).each l f := (rfl)

theorem State.lanesStarted_fresh (s : State) (l : List Nat) (low : ∀ k ∈ l, k < 8) (k : Nat) (hk : k < 8) (done : k ∈ l ∨ s.laneFresh k) :
    (s.each l (fun k t => t.laneStarted k)).laneFresh k := by
  induction l generalizing s with
  | nil => exact done.resolve_left (by simp)
  | cons j r ih =>
    rw [State.each_cons]
    refine ih (s.laneStarted j) (fun i hi => low i (List.mem_cons_of_mem _ hi)) ?_
    by_cases e : k = j
    · rw [e]
      exact .inr (s.laneStarted_fresh j)
    · rcases done with mem | fresh
      · exact .inl ((List.mem_cons.mp mem).resolve_left e)
      · exact .inr (s.laneFresh_of_other j k (low j List.mem_cons_self) hk e fresh)

/-- Every lane starts anew. -/
theorem State.startLanes_fresh (s : State) (k : Nat) (hk : k < 8) : s.startLanes.laneFresh k :=
  State.lanesStarted_fresh _ _ (fun _ h => List.mem_range.mp h) k hk (.inl (List.mem_range.mpr hk))

/-- What the lanes' start leaves of the physical layer. -/
def State.lanesView (s : State) : GwPhy := { s.gwp with rx := {} }

theorem State.laneStarted_view (s : State) (k : Nat) : (s.laneStarted k).lanesView = s.lanesView := by
  unfold State.lanesView
  rw [State.laneStarted_gwp]

theorem State.startLanes_view (s : State) : s.startLanes.lanesView =
    { s.gwp with rx := {}, lanes := [], said := false, lastM := none, asm := [], broken := false, slots := 0 } := by
  rw [State.startLanes_eq]
  exact State.each_keeps State.lanesView _ _ _ fun k t => t.laneStarted_view k

theorem State.startLanes_rd_kind (s : State) (q : RegKind) (i j : Nat) (stat : q ≠ .GWP_LANE_STAT) (eq : q ≠ .GWP_LANE_EQ)
    (cnt : q ≠ .GWP_LANE_CNT1) : s.startLanes.rd q i j = s.rd q i j := by
  rw [State.startLanes_eq]
  refine (State.each_keeps (fun t : State => t.rd q i j) _ _ _ fun k t => ?_).trans (State.modGwp_rd _ _ _ _ _)
  exact (State.setFb_rd_kind _ _ _ _ _ _ stat cnt).trans ((State.startAttempt_rd_kind _ _ _ _ _ stat eq).trans (State.modRx_rd _ _ _ _ _ _))

theorem State.startLanes_flag_kind (s : State) (f : Fld) (i j : Nat) (stat : f.reg ≠ .GWP_LANE_STAT) (eq : f.reg ≠ .GWP_LANE_EQ)
    (cnt : f.reg ≠ .GWP_LANE_CNT1) : s.startLanes.flag f i j = s.flag f i j := by
  unfold State.flag State.fld
  rw [s.startLanes_rd_kind _ _ _ stat eq cnt]

/-- The state without its registers and the physical layer. -/
def State.offPhy (s : State) : State := { s with regs := {}, gwp := {} }

theorem State.startLanes_offPhy (s : State) : s.startLanes.offPhy = s.offPhy := by
  rw [State.startLanes_eq]
  refine (State.each_keeps State.offPhy _ _ _ fun k t => ?_).trans (rfl)
  have off := t.laneStarted_offGwp k
  obtain ⟨u, hu⟩ : ∃ u, u = t.laneStarted k := ⟨_, rfl⟩
  rw [← hu] at off ⊢
  exact (congrArg State.offPhy off :)
end Sys2Proof.Machine
end

section
/-! PROOFS. The attempts of a lane, their failure and the clock modes. -/
namespace Sys2Proof.Machine

/-- The PLL is in lock, and AM_SEQ starts anew. -/
def State.pllLocked (s : State) : State := s.modGwp (fun p => { p with pll := true, tx := {}, amSeq := 0 })

theorem doGwPllLock_locks (s : State) (ref : s.flag F.GWP_CTRL.TX_REF = false ∨ s.refclkOk = true) :
    doGwPllLock s = if s.flag F.GWP_CTRL.EN = true then s.pllLocked.startLanes else s.pllLocked :=
  if_neg (by rcases ref with h | h <;> simp [h])

theorem State.startLanes_gwp (s : State) : s.startLanes.gwp.pll = s.gwp.pll ∧ s.startLanes.gwp.amSeq = s.gwp.amSeq ∧ s.startLanes.gwp.lanes = []
    ∧ s.startLanes.gwp.said = false := by
  have view := s.startLanes_view
  obtain ⟨u, hu⟩ : ∃ u, u = s.startLanes := ⟨_, rfl⟩
  rw [← hu] at view ⊢
  exact ⟨(congrArg GwPhy.pll view :), (congrArg GwPhy.amSeq view :), (congrArg GwPhy.lanes view :), (congrArg GwPhy.said view :)⟩

/-- The equaliser has found its values. -/
def State.eqFound (s : State) (k : Nat) : State :=
  (s.draw.wr .GWP_LANE_EQ ((bits s.free 31 28) <<< 28 + bits s.free 23 0) k).setFlag F.GWP_LANE_STAT.EQ_READY true k

theorem doEqConverged_frozen (s : State) (k : Nat) (on : s.rxOn k = true) (freeze : s.flag F.GWP_LANE_CTRL.EQ_FREEZE k = true) :
    doEqConverged k s = s.setFlag F.GWP_LANE_STAT.EQ_READY true k := by
  unfold doEqConverged
  rw [if_pos on, freeze]
  rfl

theorem doEqConverged_found (s : State) (k : Nat) (on : s.rxOn k = true) (freeze : s.flag F.GWP_LANE_CTRL.EQ_FREEZE k = false) :
    doEqConverged k s = s.eqFound k := by
  unfold doEqConverged
  rw [if_pos on, freeze]
  rfl

theorem State.eqFound_rest (s : State) (k : Nat) : { s.eqFound k with regs := s.regs, freeIdx := s.freeIdx } = s ∧
    (s.eqFound k).freeIdx = s.freeIdx + 1 := by
  simp [State.eqFound, State.draw]

/-- The mode of the next attempt after a failed one, with `n` failures in a row. -/
def State.nextMode (s : State) (k n : Nat) : Bool :=
  if s.flag F.GWP_CTRL.FORCE_FB then true
  else if s.flag F.GWP_LANE_STAT.FB_MODE k then decide (n < 3)
  else decide (3 ≤ n) && s.flag F.GWP_CTRL.FALLBACK_EN && s.refclkOk

/-- A failed attempt is counted, in the register and for the change of the clock mode. -/
def State.attemptFailed (s : State) (k : Nat) : State :=
  (s.count F.GWP_LANE_STAT.ATTEMPTS k).modRx k (fun r => { r with
    fails := if s.nextMode k ((s.gwp.rx.get k).fails + 1) = s.flag F.GWP_LANE_STAT.FB_MODE k then (s.gwp.rx.get k).fails + 1 else 0 })

theorem doLockAttemptTimeout_fails (s : State) (k : Nat) (on : s.rxOn k = true) (unlocked : s.flag F.GWP_LANE_STAT.BLK_LOCK k = false) :
    doLockAttemptTimeout k s = ((s.attemptFailed k).startAttempt k).setFb k (s.nextMode k ((s.gwp.rx.get k).fails + 1)) := by
  have mode : (s.count F.GWP_LANE_STAT.ATTEMPTS k).flag F.GWP_LANE_STAT.FB_MODE k = s.flag F.GWP_LANE_STAT.FB_MODE k :=
    congrArg (· == 1) (State.fld_count_beside s F.GWP_LANE_STAT.ATTEMPTS F.GWP_LANE_STAT.FB_MODE k 0 rfl (by decide) (by decide) (by decide))
  have ctrl (f : Fld) (h : f.reg = .GWP_CTRL) : (s.count F.GWP_LANE_STAT.ATTEMPTS k).flag f = s.flag f :=
    congrArg (· == 1) (State.fld_count_kind s F.GWP_LANE_STAT.ATTEMPTS f k 0 0 0 (by rw [h]; decide))
  unfold doLockAttemptTimeout
  rw [if_neg (by simp [on, unlocked])]
  dsimp only
  rw [mode, ctrl F.GWP_CTRL.FORCE_FB rfl, ctrl F.GWP_CTRL.FALLBACK_EN rfl]
  rfl

theorem State.attemptFailed_fails (s : State) (k : Nat) (fb : Bool) : ((((s.attemptFailed k).startAttempt k).setFb k fb).gwp.rx.get k).fails =
    if s.nextMode k ((s.gwp.rx.get k).fails + 1) = s.flag F.GWP_LANE_STAT.FB_MODE k then (s.gwp.rx.get k).fails + 1 else 0 := by
  rw [State.gwp_of_offRegs (State.setFb_offRegs _ _ _), State.startAttempt_gwp]
  refine (congrArg GwRx.fails (Tbl.get_upd_same _ _ _)).trans ?_
  exact (congrArg GwRx.fails (Tbl.get_upd_same _ _ _) :)

theorem State.attemptFailed_rd (s : State) (k : Nat) (q : RegKind) (i j : Nat) :
    (s.attemptFailed k).rd q i j = (s.count F.GWP_LANE_STAT.ATTEMPTS k).rd q i j := State.modRx_rd _ _ _ _ _ _

theorem State.attemptFailed_sameRegs (s : State) (k : Nat) (h : k < 8) : SameRegs [⟨.GWP_LANE_STAT, k, 0⟩] s (s.attemptFailed k) :=
  ((SameRegs.refl _ s).andCount (by repeat constructor) (by omega)).of_regs (State.modRx_regs _ _ _)

theorem State.attemptFailed_besideGwp (s : State) (k : Nat) (r : Tbl (Option Word)) (g : GwPhy) :
    { s.attemptFailed k with regs := r, gwp := g } = { s with regs := r, gwp := g } := by
  simp [State.attemptFailed, State.modRx, State.modGwp, State.count, State.addTo]

/-- What the end of an attempt without a lock leaves, whatever the mode of the next. -/
theorem State.attemptFailed_next (s : State) (k : Fin 8) (fb : Bool) (t : State) (ht : t = ((s.attemptFailed k).startAttempt k).setFb k fb) :
    t.fld F.GWP_LANE_STAT.ATTEMPTS k = min F.GWP_LANE_STAT.ATTEMPTS.max (s.fld F.GWP_LANE_STAT.ATTEMPTS k + 1)
      ∧ t.fld F.GWP_LANE_STAT.POS k = 0 ∧ t.flag F.GWP_LANE_STAT.EQ_READY k = false ∧ t.flag F.GWP_LANE_STAT.FB_MODE k = fb
      ∧ t.rd .GWP_LANE_EQ k = (if s.flag F.GWP_LANE_CTRL.EQ_FREEZE k then s.rd .GWP_LANE_EQ k else 0)
      ∧ SameRegs [⟨.GWP_LANE_STAT, k, 0⟩, ⟨.GWP_LANE_CNT1, k, 0⟩, ⟨.GWP_LANE_EQ, k, 0⟩] s t ∧ { t with regs := s.regs, gwp := s.gwp } = s := by
  subst ht
  refine ⟨?_, ?_, ?_, State.setFb_mode _ _ _, ?_, ?_, ?_⟩
  · rw [State.setFb_fld _ _ _ _ rfl (by decide), State.startAttempt_attempts]
    exact State.fld_count_same s F.GWP_LANE_STAT.ATTEMPTS k 0 (by decide) (by decide)
  · rw [State.setFb_fld _ _ _ _ rfl (by decide), State.startAttempt_pos]
  · rw [State.setFb_flag _ _ _ _ rfl (by decide), State.startAttempt_flag _ _ _ rfl rfl]
    rfl
  · have freeze : (s.attemptFailed k).flag F.GWP_LANE_CTRL.EQ_FREEZE k = s.flag F.GWP_LANE_CTRL.EQ_FREEZE k :=
      (State.modRx_flag _ _ _ _ _ _).trans (congrArg (· == 1)
        (State.fld_count_kind s F.GWP_LANE_STAT.ATTEMPTS F.GWP_LANE_CTRL.EQ_FREEZE k 0 k 0 (by decide)))
    rw [State.setFb_rd_kind _ _ _ _ _ _ (by decide) (by decide), State.startAttempt_rd_eq, freeze, State.attemptFailed_rd,
      State.rd_count_kind _ _ _ _ _ _ _ (by decide)]
  · refine ((s.attemptFailed_sameRegs k k.isLt).widen (by simp)).trans ?_
    exact ((State.startAttempt_sameRegs _ k k.isLt).widen (by simp)).trans ((State.setFb_sameRegs _ k fb k.isLt).widen (by simp))
  · rw [State.besideGwp_of_offRegs (State.setFb_offRegs _ _ _), State.besideGwp_of_offRegs (State.startAttempt_offRegs _ _), State.modRx_besideGwp,
      State.attemptFailed_besideGwp]

/-- A lane that is not active loses its lock: up to the start of the next attempt. -/
def State.lockLost (s : State) (k : Nat) : State :=
  (((s.setFlag F.GWP_LANE_STAT.LOCK_LOST true k).setFlag F.GWP_LANE_STAT.BLK_LOCK false k).setFlag F.GWP_LANE_STAT.DESKEWED false k).modRx k
    (fun r => { r with cnt := 0, hist := [], am := none, steady := false, fifo := [] })

theorem State.leaveLock_inactive (s : State) (k : Nat) (inactive : s.flag F.GWP_LANE_STAT.ACTIVE k = false) (restart : Bool) :
    s.leaveLock k restart = (s.lockLost k).when restart (·.startAttempt k) := by
  unfold State.leaveLock
  dsimp only
  rw [inactive, if_neg Bool.false_ne_true]
  rfl

theorem State.lockLost_flag (s : State) (k : Nat) : (s.lockLost k).flag F.GWP_LANE_STAT.LOCK_LOST k = true := by
  unfold State.lockLost
  rw [State.modRx_flag, State.flag_setFlag_beside _ F.GWP_LANE_STAT.DESKEWED F.GWP_LANE_STAT.LOCK_LOST _ _ _ rfl (by decide) (by decide) (by decide),
    State.flag_setFlag_beside _ F.GWP_LANE_STAT.BLK_LOCK F.GWP_LANE_STAT.LOCK_LOST _ _ _ rfl (by decide) (by decide) (by decide),
    State.flag_setFlag_same _ _ _ _ _ rfl (by decide)]

theorem State.lockLost_sameRegs (s : State) (k : Nat) (h : k < 8) : SameRegs [⟨.GWP_LANE_STAT, k, 0⟩] s (s.lockLost k) :=
  ((((SameRegs.refl _ s).andFlag (by repeat constructor) (by omega)).andFlag (by repeat constructor) (by omega)).andFlag (by repeat constructor)
    (by omega)).of_regs (State.modRx_regs _ _ _)

theorem State.lockLost_besideGwp (s : State) (k : Nat) (r : Tbl (Option Word)) (g : GwPhy) :
    { s.lockLost k with regs := r, gwp := g } = { s with regs := r, gwp := g } := by
  simp [State.lockLost, State.modRx, State.modGwp]

theorem doLaneClockLockLoss_locked (s : State) (k : Nat) (on : s.rxOn k = true) (clock : s.flag F.GWP_LANE_STAT.CLK_LOCK k = true)
    (lock : s.flag F.GWP_LANE_STAT.BLK_LOCK k = true) (inactive : s.flag F.GWP_LANE_STAT.ACTIVE k = false) :
    doLaneClockLockLoss k s = (s.lockLost k).startAttempt k := by
  unfold doLaneClockLockLoss
  rw [if_neg (by simp [on, clock]), if_pos lock, s.leaveLock_inactive k inactive]
  rfl

/-- Settles O29. -/
theorem laneAttemptsStartFailAndFallBack : Obligations.LaneAttemptsStartFailAndFallBack := by
  refine fun s => ⟨fun ref => ?pll, fun ref lost => congrArg Host.Outcome.next (if_pos ⟨ref, by simp [lost]⟩), fun k on freeze => ?frozen,
    fun k on freeze => ?found,
    fun k on unlocked => ?fails, fun k on clock lock inactive => ?lost⟩
  case pll =>
    refine ⟨_, congrArg Host.Outcome.next (doGwPllLock_locks s ref), ?_, ?_, fun off => ?_, fun en k low => ?_⟩
    · split
      · exact (State.startLanes_gwp _).1
      · rfl
    · split
      · exact (State.startLanes_gwp _).2.1
      · rfl
    · rw [if_neg (by simp [off])]
      rfl
    · rw [if_pos en]
      obtain ⟨lock, -, pos, rx⟩ := s.pllLocked.startLanes_fresh k low
      exact ⟨lock, pos, rx⟩
  case frozen =>
    refine ⟨_, congrArg Host.Outcome.next (doEqConverged_frozen s k on freeze), State.flag_setFlag_same _ _ _ _ _ rfl (by decide), ?_,
      State.regs_back (State.setFlag_offRegs _ _ _ _ _)⟩
    exact (SameRegs.refl _ s).andFlag (by repeat constructor) (by omega)
  case found =>
    refine ⟨_, congrArg Host.Outcome.next (doEqConverged_found s k on freeze), State.flag_setFlag_same _ _ _ _ _ rfl (by decide),
      (s.eqFound_rest k).2, ?_,
      (s.eqFound_rest k).1⟩
    have drawn : SameRegs [⟨.GWP_LANE_STAT, k, 0⟩, ⟨.GWP_LANE_EQ, k, 0⟩] s s.draw := (SameRegs.refl _ s).of_regs rfl
    exact (drawn.andWr (by repeat constructor) (by omega)).andFlag (by repeat constructor) (by omega)
  case fails =>
    have acts := doLockAttemptTimeout_fails s k on unlocked
    have fails := s.attemptFailed_fails k (s.nextMode k ((s.gwp.rx.get k).fails + 1))
    obtain ⟨n, hn⟩ : ∃ n, n = (s.gwp.rx.get k).fails + 1 := ⟨_, rfl⟩
    rw [← hn] at acts fails ⊢
    obtain ⟨attempts, pos, ready, mode, eq, regs, rest⟩ := s.attemptFailed_next k (s.nextMode k n) _ rfl
    refine ⟨_, congrArg Host.Outcome.next acts, attempts, pos, ready, fun force => ?_, fun force few => ?_, fun force many meso => ?_,
      fun force many fb => ?_,
      eq, regs, rest⟩
    · rw [mode, State.nextMode, force]
      rfl
    · have same : s.nextMode k n = s.flag F.GWP_LANE_STAT.FB_MODE k := by
        unfold State.nextMode
        rw [force]
        cases s.flag F.GWP_LANE_STAT.FB_MODE k <;> simp [few, show ¬ 3 ≤ n by omega]
      rw [if_pos same] at fails
      exact ⟨mode.trans same, fails⟩
    · rw [mode, State.nextMode, force]
      simp [meso, many]
    · have other : s.nextMode k n ≠ s.flag F.GWP_LANE_STAT.FB_MODE k := by
        unfold State.nextMode
        rw [force, fb]
        simp [show ¬ n < 3 by omega]
      rw [if_neg other] at fails
      refine ⟨mode.trans ?_, fails⟩
      simpa [fb] using other
  case lost =>
    refine ⟨_, congrArg Host.Outcome.next (doLaneClockLockLoss_locked s k on clock lock inactive), ?_, ?_, ?_, ?_, State.startAttempt_pos _ _, ?_, ?_⟩
    · rw [State.startAttempt_flag _ _ _ rfl rfl, s.lockLost_flag]
      rfl
    · rw [State.startAttempt_flag _ _ _ rfl rfl]
      rfl
    · rw [State.startAttempt_flag _ _ _ rfl rfl]
      rfl
    · rw [State.startAttempt_flag _ _ _ rfl rfl]
      rfl
    · exact ((s.lockLost_sameRegs k k.isLt).widen (by simp)).trans (State.startAttempt_sameRegs _ k k.isLt)
    · rw [State.besideGwp_of_offRegs (State.startAttempt_offRegs _ _), State.modRx_besideGwp, State.lockLost_besideGwp]
end Sys2Proof.Machine
end

section
/-! PROOFS. The link of Geward goes down, and its bring-up times out. -/
namespace Sys2Proof.Machine

/-- The state without what a sender changes: the physical layer and what was sent. -/
def State.offSend (s : State) : State := { s with gwp := {}, out := [] }

theorem State.sendBlock_offSend (s : State) (k : Nat) (d : Bool) (b : List Byte) : (s.sendBlock k d b).offSend = s.offSend := by
  unfold State.sendBlock
  dsimp only
  split <;> rfl

theorem State.sendSlot_offSend (s : State) (f : Nat → Option (List Byte)) (ctl : Nat → List Byte) : (s.sendSlot f ctl).offSend = s.offSend := by
  unfold State.sendSlot
  split
  · refine State.each_keeps State.offSend _ _ _ fun k t => ?_
    split
    · exact t.sendBlock_offSend _ _ _
    · exact t.sendBlock_offSend _ _ _
  · rfl

theorem State.sendLdn_offSend (s : State) : s.sendLdn.offSend = s.offSend :=
  State.each_keeps State.offSend _ _ _ fun _ t => t.sendSlot_offSend _ _

/-- The link's state is cleared and its lanes start anew, after the link-down words. -/
def State.linkCleared (s : State) : State :=
  (((s.sendLdn.setFlag F.GWP_STAT.LINK_UP false).setFld F.GWP_STAT.RX_W 0).setFld F.GWP_STAT.TX_W 0).startLanes

theorem State.gwLinkDown_up (s : State) (up : s.flag F.GWP_STAT.LINK_UP = true) :
    s.gwLinkDown true = (s.linkCleared.setFlag F.GWP_STAT.LINK_DOWN).gwDown.raise 28 0 := by
  unfold State.gwLinkDown
  dsimp only
  rw [if_pos up]
  rfl

theorem State.gwLinkDown_down (s : State) (down : s.flag F.GWP_STAT.LINK_UP = false) : s.gwLinkDown true = s.linkCleared := by
  unfold State.gwLinkDown
  dsimp only
  rw [if_neg (by simp [down])]
  rfl

/-- The state without the registers, the physical layer and what was sent. -/
def State.offLink (s : State) : State := { s with regs := {}, gwp := {}, out := [] }

theorem State.offLink_of_offRegs {s t : State} (h : t.offRegs = s.offRegs) : t.offLink = s.offLink := (congrArg State.offLink h :)

theorem State.offLink_of_offSend {s t : State} (h : t.offSend = s.offSend) : t.offLink = s.offLink := (congrArg State.offLink h :)

theorem State.offLink_of_offPhy {s t : State} (h : t.offPhy = s.offPhy) : t.offLink = s.offLink := (congrArg State.offLink h :)

theorem State.regs_of_offSend {s t : State} (h : t.offSend = s.offSend) : t.regs = s.regs := (congrArg State.regs h :)

theorem State.gwl_of_offLink {s t : State} (h : t.offLink = s.offLink) : t.gwl = s.gwl ∧ t.hqe = s.hqe :=
  ⟨(congrArg State.gwl h :), (congrArg State.hqe h :)⟩

theorem State.back_of_offLink {s t : State} (h : t.offLink = s.offLink) : { t with regs := s.regs, gwp := s.gwp, out := s.out } = s :=
  (congrArg (fun u : State => { u with regs := s.regs, gwp := s.gwp, out := s.out }) h :)

theorem State.linkCleared_offLink (s : State) : s.linkCleared.offLink = s.offLink := by
  unfold State.linkCleared
  rw [State.offLink_of_offPhy (State.startLanes_offPhy _), State.offLink_of_offRegs (State.setFld_offRegs _ _ _ _ _),
    State.offLink_of_offRegs (State.setFld_offRegs _ _ _ _ _), State.offLink_of_offRegs (State.setFlag_offRegs _ _ _ _ _),
    State.offLink_of_offSend s.sendLdn_offSend]

/-- GWP_STAT without its link and widths. -/
theorem State.linkCleared_stat (s : State) : s.linkCleared.flag F.GWP_STAT.LINK_UP = false ∧ s.linkCleared.fld F.GWP_STAT.RX_W = 0
    ∧ s.linkCleared.fld F.GWP_STAT.TX_W = 0 ∧ s.linkCleared.flag F.GWP_STAT.LINK_DOWN = s.flag F.GWP_STAT.LINK_DOWN
    ∧ s.linkCleared.flag F.GWP_STAT.LDN_RX = s.flag F.GWP_STAT.LDN_RX := by
  have regs := State.regs_of_offSend s.sendLdn_offSend
  have same (f : Fld) (reg : f.reg = .GWP_STAT) : s.linkCleared.fld f =
      (((s.sendLdn.setFlag F.GWP_STAT.LINK_UP false).setFld F.GWP_STAT.RX_W 0).setFld F.GWP_STAT.TX_W 0).fld f :=
    congrArg (bits · f.hi f.lo) (State.startLanes_rd_kind _ _ _ _ (by rw [reg]; decide) (by rw [reg]; decide) (by rw [reg]; decide))
  unfold State.flag
  rw [same _ rfl, same _ rfl, same _ rfl, same _ rfl, same _ rfl, ← State.fld_of_regs regs F.GWP_STAT.LINK_DOWN,
    ← State.fld_of_regs regs F.GWP_STAT.LDN_RX]
  obtain ⟨v, hv⟩ : ∃ v, v = s.sendLdn := ⟨_, rfl⟩
  rw [← hv]
  simp (disch := decide) only [State.fld_setFld_beside, State.fld_setFld_same, State.fld_setFlag_beside, State.fld_setFlag_same]
  exact ⟨rfl, rfl, rfl, trivial, trivial⟩

theorem State.linkCleared_gwp (s : State) : s.linkCleared.gwp.lanes = [] ∧ s.linkCleared.gwp.said = false := by
  unfold State.linkCleared
  exact ⟨(State.startLanes_gwp _).2.2.1, (State.startLanes_gwp _).2.2.2⟩

theorem State.linkCleared_fresh (s : State) (k : Nat) (h : k < 8) : s.linkCleared.laneFresh k := State.startLanes_fresh _ k h

/-- The link has gone down while it was up. -/
def State.linkDropped (s : State) : State := s.linkCleared.setFlag F.GWP_STAT.LINK_DOWN

theorem State.linkDropped_stat (s : State) : s.linkDropped.flag F.GWP_STAT.LINK_UP = false ∧ s.linkDropped.flag F.GWP_STAT.LINK_DOWN = true
    ∧ s.linkDropped.fld F.GWP_STAT.RX_W = 0 ∧ s.linkDropped.fld F.GWP_STAT.TX_W = 0
    ∧ s.linkDropped.flag F.GWP_STAT.LDN_RX = s.flag F.GWP_STAT.LDN_RX := by
  obtain ⟨up, rxw, txw, -, ldn⟩ := s.linkCleared_stat
  unfold State.linkDropped
  obtain ⟨v, hv⟩ : ∃ v, v = s.linkCleared := ⟨_, rfl⟩
  rw [← hv] at up rxw txw ldn ⊢
  simp (disch := decide) only [State.flag_setFlag_beside, State.flag_setFlag_same, State.fld_setFlag_beside]
  exact ⟨up, trivial, rxw, txw, ldn⟩

theorem State.linkDropped_offLink (s : State) : s.linkDropped.offLink = s.offLink :=
  (State.offLink_of_offRegs (State.setFlag_offRegs _ _ _ _ _)).trans s.linkCleared_offLink

theorem State.linkDropped_lanes (s : State) (k : Nat) (h : k < 8) : s.linkDropped.flag F.GWP_LANE_STAT.BLK_LOCK k = false
    ∧ s.linkDropped.flag F.GWP_LANE_STAT.ACTIVE k = false := by
  obtain ⟨lock, act, -, -⟩ := s.linkCleared_fresh k h
  unfold State.linkDropped
  rw [State.flag_setFlag_kind _ _ _ _ _ _ _ _ (by decide), State.flag_setFlag_kind _ _ _ _ _ _ _ _ (by decide)]
  exact ⟨lock, act⟩

theorem State.linkDropped_gwp (s : State) : s.linkDropped.gwp.lanes = [] ∧ s.linkDropped.gwp.said = false := by
  unfold State.linkDropped
  rw [State.setFlag_gwp]
  exact s.linkCleared_gwp

theorem State.gwEnable_off (s : State) (en : s.flag F.GWP_CTRL.EN = true) : s.gwEnable false = (s.gwLinkDown true).setFlag F.GWP_CTRL.EN false := by
  unfold State.gwEnable
  dsimp only
  rw [if_neg Bool.false_ne_true, if_pos en]

/-- Geward starts: its transmitters and AM_SEQ are anew. -/
def State.gwStarted (s : State) : State := ((s.setFlag F.GWP_CTRL.EN).modGwp (fun p => { p with tx := {}, amSeq := 0 })).startLanes

theorem State.gwEnable_on (s : State) (off : s.flag F.GWP_CTRL.EN = false) : s.gwEnable true = s.gwStarted := by
  unfold State.gwEnable
  dsimp only
  rw [if_pos rfl, off, if_neg Bool.false_ne_true]
  rfl

theorem State.modGwp_offPhy (s : State) (f : GwPhy → GwPhy) : (s.modGwp f).offPhy = s.offPhy := (rfl)

theorem State.gwStarted_offLink (s : State) : s.gwStarted.offLink = s.offLink := by
  unfold State.gwStarted
  rw [State.offLink_of_offPhy (State.startLanes_offPhy _), State.offLink_of_offPhy (State.modGwp_offPhy _ _),
    State.offLink_of_offRegs (State.setFlag_offRegs _ _ _ _ _)]

/-- Settles O30. -/
theorem theLinkGoesDownAndTimesOut : Obligations.TheLinkGoesDownAndTimesOut := by
  refine fun s => ⟨fun en up => ?retrain, fun en down => ?retrainDown, fun off => ⟨congrArg Host.Outcome.next (if_neg (by simp [off])), ?off⟩,
    fun en down => ?disableDown, fun en up => ?disable, fun off => ?enable, fun k on lock skew => ?noted, fun k on lock skew up => ?dropped,
    fun en down => ?timeout, fun idle => ?idle⟩
  case retrain =>
    obtain ⟨gone, down, rxw, txw, -⟩ := s.linkDropped_stat
    exact ⟨s.linkDropped, congrArg Host.Outcome.next ((if_pos en).trans (s.gwLinkDown_up up)), gone, down, rxw, txw, s.linkDropped_gwp.1,
      s.linkDropped_gwp.2, s.linkDropped_lanes, State.back_of_offLink s.linkDropped_offLink⟩
  case retrainDown =>
    obtain ⟨gone, -, -, same, -⟩ := s.linkCleared_stat
    obtain ⟨gwl, hqe⟩ := State.gwl_of_offLink s.linkCleared_offLink
    exact ⟨s.linkCleared, congrArg Host.Outcome.next ((if_pos en).trans (s.gwLinkDown_down down)), gone, same, gwl, hqe,
      fun k low => (s.linkCleared_fresh k low).1⟩
  case off =>
    refine congrArg Host.Outcome.next ?_
    unfold State.gwEnable
    dsimp only
    rw [if_neg Bool.false_ne_true, off, if_neg Bool.false_ne_true]
  case disableDown =>
    obtain ⟨gone, -⟩ := s.linkCleared_stat
    obtain ⟨gwl, hqe⟩ := State.gwl_of_offLink s.linkCleared_offLink
    have acts := (s.gwEnable_off en).trans (congrArg (·.setFlag F.GWP_CTRL.EN false) (s.gwLinkDown_down down))
    obtain ⟨v, hv⟩ : ∃ v, v = s.linkCleared := ⟨_, rfl⟩
    rw [← hv] at acts gone gwl hqe
    refine ⟨_, congrArg Host.Outcome.next acts, State.flag_setFlag_same _ _ _ _ _ rfl (by decide), ?_, ?_, ?_⟩
    · rw [State.flag_setFlag_kind _ _ _ _ _ _ _ _ (by decide), gone]
    · rw [State.setFlag_gwl, gwl]
    · rw [State.setFlag_hqe, hqe]
  case disable =>
    obtain ⟨gwl, hqe⟩ := State.gwl_of_offLink s.linkDropped_offLink
    exact ⟨s.linkDropped, congrArg Host.Outcome.next ((s.gwEnable_off en).trans (congrArg (·.setFlag F.GWP_CTRL.EN false) (s.gwLinkDown_up up))),
      s.linkDropped_stat.1, gwl, hqe⟩
  case enable =>
    obtain ⟨gwl, hqe⟩ := State.gwl_of_offLink s.gwStarted_offLink
    refine ⟨s.gwStarted, congrArg Host.Outcome.next (s.gwEnable_on off), ?_, (State.startLanes_gwp _).2.1, gwl, hqe, fun k low => ?_⟩
    · unfold State.gwStarted
      rw [State.startLanes_flag_kind _ _ _ _ (by decide) (by decide) (by decide), State.modGwp_flag,
        State.flag_setFlag_same _ _ _ _ _ rfl (by decide)]
    · obtain ⟨lock, -, pos, -⟩ := State.startLanes_fresh ((s.setFlag F.GWP_CTRL.EN).modGwp (fun p => { p with tx := {}, amSeq := 0 })) k low
      exact ⟨pos, lock⟩
  case noted =>
    have acts : doLdnRx k s = s.setFlag F.GWP_STAT.LDN_RX := (if_pos ⟨on, lock⟩).trans (by rw [skew, State.when_false])
    refine ⟨_, congrArg Host.Outcome.next acts, State.flag_setFlag_same _ _ _ _ _ rfl (by decide), ?_,
      State.regs_back (State.setFlag_offRegs _ _ _ _ _)⟩
    exact (SameRegs.refl _ s).andFlag (by repeat constructor) (by omega)
  case dropped =>
    have same : (s.setFlag F.GWP_STAT.LDN_RX).flag F.GWP_STAT.LINK_UP = true :=
      (State.flag_setFlag_beside s F.GWP_STAT.LDN_RX F.GWP_STAT.LINK_UP _ _ _ rfl (by decide) (by decide) (by decide)).trans up
    have acts : doLdnRx k s = (s.setFlag F.GWP_STAT.LDN_RX).gwLinkDown true := (if_pos ⟨on, lock⟩).trans (by rw [skew, State.when_true])
    obtain ⟨gone, down, -, -, ldn⟩ := (s.setFlag F.GWP_STAT.LDN_RX).linkDropped_stat
    have off := (s.setFlag F.GWP_STAT.LDN_RX).linkDropped_offLink.trans (State.offLink_of_offRegs (State.setFlag_offRegs _ _ _ _ _))
    exact ⟨(s.setFlag F.GWP_STAT.LDN_RX).linkDropped, congrArg Host.Outcome.next (acts.trans (State.gwLinkDown_up _ same)),
      ldn.trans (State.flag_setFlag_same _ _ _ _ _ rfl (by decide)), gone, down, State.back_of_offLink off⟩
  case timeout =>
    refine ⟨s.setFlag F.GWP_STAT.TMO, congrArg Host.Outcome.next (if_pos ⟨en, by simp [down]⟩), State.flag_setFlag_same _ _ _ _ _ rfl (by decide), ?_,
      State.regs_back (State.setFlag_offRegs _ _ _ _ _)⟩
    exact (SameRegs.refl _ s).andFlag (by repeat constructor) (by omega)
  case idle => exact congrArg Host.Outcome.next (if_neg (by rcases idle with h | h <;> simp [h]))
end Sys2Proof.Machine
end

section
/-! PROOFS. A receive lane's hunt for headers and its lock. -/
namespace Sys2Proof.Machine

theorem State.releaseDisarmed_uncut (s : State) (h : ∀ i, i < 8 → (s.fcl.fij.get i).cut = false) : s.releaseDisarmed = s :=
  State.each_same _ _ _ fun i hi => by rw [h i (List.mem_range.mp hi), State.when_false]

/-- The lane has decoded its symbols, and its clock is in lock. -/
def State.symbolsTaken (s : State) (k last scr : Nat) : State :=
  (s.modRx k (fun r => { r with last := last, scr := scr, slip := false })).setFlag F.GWP_LANE_STAT.CLK_LOCK true k

/-- The header's symbol, and the symbol that stands before it. -/
def lastSymbol (inv slip : Bool) (last skipped : Nat) : Nat := if slip then (if inv then 3 - skipped else skipped) else last

def headerValue (pre inv : Bool) (last header : Nat) : Nat :=
  if pre then ((if inv then 3 - header else header) + last) % 4 else if inv then 3 - header else header

theorem headerValue_lt (pre inv : Bool) (last header : Nat) (h : header < 4) : headerValue pre inv last header < 4 := by
  unfold headerValue
  split
  · exact Nat.mod_lt _ (by decide)
  · split <;> omega

theorem State.symbolsTaken_flag (s : State) (k last scr : Nat) (f : Fld) (reg : f.reg = .GWP_LANE_STAT) (below : f.hi < 31) :
    (s.symbolsTaken k last scr).flag f k = s.flag f k :=
  (State.flag_setFlag_beside _ F.GWP_LANE_STAT.CLK_LOCK f _ _ _ reg (by decide) (by decide) (.inr below)).trans (State.modRx_flag _ _ _ _ _ _)

theorem State.symbolsTaken_fld (s : State) (k last scr : Nat) (f : Fld) (reg : f.reg = .GWP_LANE_STAT) (below : f.hi < 31) :
    (s.symbolsTaken k last scr).fld f k = s.fld f k :=
  (State.fld_setFlag_beside _ F.GWP_LANE_STAT.CLK_LOCK f _ _ _ reg (by decide) (by decide) (.inr below)).trans
    (State.fld_of_regs (State.modRx_regs _ _ _) _ _ _)

theorem State.symbolsTaken_clock (s : State) (k last scr : Nat) : (s.symbolsTaken k last scr).flag F.GWP_LANE_STAT.CLK_LOCK k = true :=
  State.flag_setFlag_same _ _ _ _ _ rfl (by decide)

theorem State.symbolsTaken_gwp (s : State) (k last scr : Nat) : (s.symbolsTaken k last scr).gwp =
    { s.gwp with rx := s.gwp.rx.upd k (fun r => { r with last := last, scr := scr, slip := false }) } := by
  unfold State.symbolsTaken
  rw [State.setFlag_gwp, State.modRx_gwp]

theorem State.symbolsTaken_rx (s : State) (k last scr : Nat) : (s.symbolsTaken k last scr).gwp.rx.get k =
    { s.gwp.rx.get k with last := last, scr := scr, slip := false } := by
  rw [State.symbolsTaken_gwp]
  exact Tbl.get_upd_same _ _ _

theorem State.symbolsTaken_sameRegs (s : State) (k : Fin 8) (last scr : Nat) :
    SameRegs [⟨.GWP_LANE_STAT, k, 0⟩] s (s.symbolsTaken k last scr) :=
  ((SameRegs.refl _ s).of_regs (State.modRx_regs _ _ _)).andFlag (by repeat constructor) (by omega)

theorem State.symbolsTaken_besideGwp (s : State) (k last scr : Nat) (r : Tbl (Option Word)) (g : GwPhy) :
    { s.symbolsTaken k last scr with regs := r, gwp := g } = { s with regs := r, gwp := g } :=
  (State.besideGwp_of_offRegs (State.setFlag_offRegs _ _ _ _ _) r g).trans (State.modRx_besideGwp _ _ _ _ _)

theorem doBlockRx_up (s : State) (k sk h w : Nat) (on : s.rxOn k = true) (lane : s.clockUp (15 + k) = true) (core : s.clockUp 23 = true)
    (pre inv : Bool) (hpre : s.flag F.GWP_LANE_CTRL.RX_PRE k = pre) (hinv : s.flag F.GWP_LANE_CTRL.RX_INV k = inv) (q : List Bool × Nat)
    (hq : q = takeSymbols pre inv 128 (if inv then 3 - h else h) w) (v : Nat)
    (hv : v = headerValue pre inv (lastSymbol inv (s.gwp.rx.get k).slip (s.gwp.rx.get k).last sk) h) (u : State)
    (hu : u = s.symbolsTaken k q.2 (descramble (s.gwp.rx.get k).scr q.1).2) :
    doBlockRx k sk h w s = if s.flag F.GWP_LANE_STAT.BLK_LOCK k = true
      then u.lockedRx k v (bitBytes 32 (descramble (s.gwp.rx.get k).scr q.1).1) else u.huntRx k v := by
  have lock : u.flag F.GWP_LANE_STAT.BLK_LOCK k = s.flag F.GWP_LANE_STAT.BLK_LOCK k := by
    rw [hu]
    exact s.symbolsTaken_flag k _ _ _ rfl (by decide)
  rw [← lock, hu, hv, hq]
  unfold doBlockRx
  rw [if_neg (by simp [on, lane, core])]
  dsimp only
  rw [hpre, hinv]
  rfl

/-! HUNT (R328). -/

theorem State.huntRx_bad (s : State) (k v : Nat) (bad : v = 0 ∨ v = 2) : s.huntRx k v =
    (s.modRx k (fun r => { r with cnt := 0, slip := true })).setFld F.GWP_LANE_STAT.POS ((s.fld F.GWP_LANE_STAT.POS k + 1) % 129) k :=
  if_neg (by omega)

theorem State.huntRx_counts (s : State) (k v : Nat) (good : v = 1 ∨ v = 3) (few : (s.gwp.rx.get k).cnt < 63) :
    s.huntRx k v = s.modRx k (fun r => { r with cnt := (s.gwp.rx.get k).cnt + 1 }) :=
  (if_pos good).trans (if_pos (by omega))

theorem State.huntRx_locks (s : State) (k v : Nat) (good : v = 1 ∨ v = 3) (last : (s.gwp.rx.get k).cnt = 63) : s.huntRx k v =
    ((s.modRx k (fun r => { r with cnt := (s.gwp.rx.get k).cnt + 1 })).modRx k
      (fun r => { r with cnt := 0, hist := [], fails := 0, fifo := [] })).setFlag
      F.GWP_LANE_STAT.BLK_LOCK true k :=
  (if_pos good).trans (if_neg (by omega))

theorem State.modRx_get_same (s : State) (k : Nat) (f : GwRx → GwRx) : (s.modRx k f).gwp.rx.get k = f (s.gwp.rx.get k) := Tbl.get_upd_same _ _ _

theorem State.modRx_get_other (s : State) (j k : Nat) (f : GwRx → GwRx) (h : j ≠ k) : (s.modRx k f).gwp.rx.get j = s.gwp.rx.get j :=
  Tbl.get_upd_other _ _ _ _ h

theorem State.modRx_fld (s : State) (k : Nat) (f : GwRx → GwRx) (g : Fld) (i j : Nat) : (s.modRx k f).fld g i j = s.fld g i j := (rfl)

/-- What a block in HUNT does to the lane's registers and to its receiver, whatever the header. -/
theorem State.huntRx_lane (s : State) (k : Fin 8) (v : Nat) : SameRegs [⟨.GWP_LANE_STAT, k, 0⟩] s (s.huntRx k v)
    ∧ (s.huntRx k v).flag F.GWP_LANE_STAT.CLK_LOCK k = s.flag F.GWP_LANE_STAT.CLK_LOCK k
    ∧ (∀ r g, { s.huntRx k v with regs := r, gwp := g } = { s with regs := r, gwp := g })
    ∧ ((s.huntRx k v).gwp.rx.get k).last = (s.gwp.rx.get k).last := by
  unfold State.huntRx
  split
  · dsimp only
    split
    · refine ⟨(SameRegs.refl _ s).of_regs (State.modRx_regs _ _ _), State.modRx_flag _ _ _ _ _ _, fun r g => State.modRx_besideGwp _ _ _ _ _, ?_⟩
      rw [State.modRx_get_same]
    · refine ⟨?_, ?_, fun r g => ?_, ?_⟩
      · exact (((SameRegs.refl _ s).of_regs (State.modRx_regs _ _ _)).of_regs (State.modRx_regs _ _ _)).andFlag (by repeat constructor) (by omega)
      · rw [State.flag_setFlag_beside _ F.GWP_LANE_STAT.BLK_LOCK F.GWP_LANE_STAT.CLK_LOCK _ _ _ rfl (by decide) (by decide) (by decide),
          State.modRx_flag, State.modRx_flag]
      · rw [State.besideGwp_of_offRegs (State.setFlag_offRegs _ _ _ _ _), State.modRx_besideGwp, State.modRx_besideGwp]
      · rw [State.setFlag_gwp, State.modRx_get_same, State.modRx_get_same]
  · refine ⟨?_, ?_, fun r g => ?_, ?_⟩
    · exact ((SameRegs.refl _ s).of_regs (State.modRx_regs _ _ _)).andFld (by repeat constructor) (by omega)
    · rw [State.flag_setFld_beside _ F.GWP_LANE_STAT.POS F.GWP_LANE_STAT.CLK_LOCK _ _ _ rfl (by decide) (by decide) (by decide), State.modRx_flag]
    · rw [State.besideGwp_of_offRegs (State.setFld_offRegs _ _ _ _ _), State.modRx_besideGwp]
    · rw [State.setFld_gwp, State.modRx_get_same]

/-! LOCK (R328). -/

/-- The history of the headers takes one more. -/
def State.headerNoted (s : State) (k : Nat) (bad : Bool) : State :=
  s.modRx k (fun r => { r with hist := (bad :: r.hist).take 64, blocks := r.blocks + 1 })

theorem State.headerNoted_hist (s : State) (k : Nat) (bad : Bool) :
    ((s.headerNoted k bad).gwp.rx.get k).hist = (bad :: (s.gwp.rx.get k).hist).take 64 := by
  unfold State.headerNoted
  rw [State.modRx_get_same]

theorem State.lockedRx_ends (s : State) (k v : Nat) (b : List Byte) (bad : v = 0 ∨ v = 2)
    (many : 16 ≤ (((true :: (s.gwp.rx.get k).hist).take 64).filter id).length) :
    s.lockedRx k v b = ((s.headerNoted k true).count F.GWP_LANE_CNT0.HDR_INVALID k).leaveLock k false := by
  have invalid : (v != 1 && v != 3) = true := by rcases bad with rfl | rfl <;> rfl
  have hist : (((s.headerNoted k true).count F.GWP_LANE_CNT0.HDR_INVALID k).gwp.rx.get k).hist = (true :: (s.gwp.rx.get k).hist).take 64 :=
    s.headerNoted_hist k true
  unfold State.lockedRx
  dsimp only
  rw [invalid, State.when_true]
  exact if_pos (by rw [← hist] at many; exact many)

theorem State.lockedRx_data (s : State) (k : Nat) (b : List Byte)
    (few : (((false :: (s.gwp.rx.get k).hist).take 64).filter id).length < 16) :
    s.lockedRx k 1 b = (s.headerNoted k false).pushBlk k (.data b) := by
  have hist := s.headerNoted_hist k false
  refine (if_neg ?_).trans ((if_neg (by decide)).trans (if_pos rfl))
  rw [← hist] at few
  exact Nat.not_le.mpr few

theorem bad_header_ends (s : State) (k : Fin 8) (inactive : s.flag F.GWP_LANE_STAT.ACTIVE k = false) (t : State)
    (ht : t = ((s.headerNoted k true).count F.GWP_LANE_CNT0.HDR_INVALID k).leaveLock k false) :
    t.flag F.GWP_LANE_STAT.LOCK_LOST k = true ∧ t.flag F.GWP_LANE_STAT.BLK_LOCK k = false
      ∧ t.flag F.GWP_LANE_STAT.DESKEWED k = false ∧ t.fld F.GWP_LANE_STAT.POS k = s.fld F.GWP_LANE_STAT.POS k ∧ (t.gwp.rx.get k).cnt = 0
      ∧ SameRegs [⟨.GWP_LANE_STAT, k, 0⟩, ⟨.GWP_LANE_CNT0, k, 0⟩] s t ∧ ∀ r g, { t with regs := r, gwp := g } = { s with regs := r, gwp := g } := by
  obtain ⟨u, hu⟩ : ∃ u, u = (s.headerNoted k true).count F.GWP_LANE_CNT0.HDR_INVALID k := ⟨_, rfl⟩
  have stat (f : Fld) (reg : f.reg = .GWP_LANE_STAT) : u.fld f k = s.fld f k := by
    rw [hu, State.fld_count_kind _ _ _ _ _ _ _ (by rw [reg]; decide)]
    exact State.modRx_fld _ _ _ _ _ _
  have regs : SameRegs [⟨.GWP_LANE_STAT, k, 0⟩, ⟨.GWP_LANE_CNT0, k, 0⟩] s u := by
    rw [hu]
    exact ((SameRegs.refl _ s).of_regs (State.modRx_regs _ _ _)).andCount (by repeat constructor) (by omega)
  have rest (r : Tbl (Option Word)) (g : GwPhy) : { u with regs := r, gwp := g } = { s with regs := r, gwp := g } := by
    rw [hu, State.besideGwp_of_offRegs (State.count_offRegs _ _ _ _)]
    exact State.modRx_besideGwp _ _ _ _ _
  have still : u.flag F.GWP_LANE_STAT.ACTIVE k = false := (congrArg (· == 1) (stat F.GWP_LANE_STAT.ACTIVE rfl)).trans inactive
  rw [← hu, u.leaveLock_inactive k still, State.when_false] at ht
  rw [ht]
  refine ⟨u.lockLost_flag k, ?_, ?_, ?_, ?_, regs.trans ((u.lockLost_sameRegs k k.isLt).widen (by simp)), fun r g => ?_⟩
  · unfold State.lockLost
    rw [State.modRx_flag, State.flag_setFlag_beside _ F.GWP_LANE_STAT.DESKEWED F.GWP_LANE_STAT.BLK_LOCK _ _ _ rfl (by decide) (by decide) (by decide),
      State.flag_setFlag_same _ _ _ _ _ rfl (by decide)]
  · unfold State.lockLost
    rw [State.modRx_flag, State.flag_setFlag_same _ _ _ _ _ rfl (by decide)]
  · unfold State.lockLost
    rw [State.modRx_fld]
    simp (disch := decide) only [State.fld_setFlag_beside]
    exact stat F.GWP_LANE_STAT.POS rfl
  · unfold State.lockLost
    rw [State.modRx_get_same]
  · rw [State.lockLost_besideGwp, rest]

/-- Settles O27. -/
theorem receiveLanesHuntAndLock : Obligations.ReceiveLanesHuntAndLock := by
  intro s k sk h w on lane core uncut r p skipped v q
  have value : v = headerValue (s.flag F.GWP_LANE_CTRL.RX_PRE k) (s.flag F.GWP_LANE_CTRL.RX_INV k)
    (lastSymbol (s.flag F.GWP_LANE_CTRL.RX_INV k) r.slip r.last sk.toNat) h.toNat := rfl
  have small : v < 4 := value ▸ headerValue_lt _ _ _ _ h.isLt
  obtain ⟨u, hu⟩ : ∃ u, u = s.symbolsTaken k q.2 (descramble r.scr q.1).2 := ⟨_, rfl⟩
  have acts := doBlockRx_up s k sk.toNat h.toNat w.toNat on lane core _ _ rfl rfl q rfl v value u hu
  have clock : u.flag F.GWP_LANE_STAT.CLK_LOCK k = true := hu ▸ s.symbolsTaken_clock k _ _
  have stat (f : Fld) (reg : f.reg = .GWP_LANE_STAT) (below : f.hi < 31) : u.fld f k = s.fld f k := hu ▸ s.symbolsTaken_fld k _ _ f reg below
  have rx : u.gwp.rx.get k = { r with last := q.2, scr := (descramble r.scr q.1).2, slip := false } := hu ▸ s.symbolsTaken_rx k _ _
  have regs : SameRegs [⟨.GWP_LANE_STAT, k, 0⟩] s u := hu ▸ s.symbolsTaken_sameRegs k _ _
  have rest (a : Tbl (Option Word)) (g : GwPhy) : { u with regs := a, gwp := g } = { s with regs := a, gwp := g } :=
    hu ▸ s.symbolsTaken_besideGwp k _ _ a g
  have same (t : State) (ht : ∀ a g, { t with regs := a, gwp := g } = { s with regs := a, gwp := g }) : t.releaseDisarmed = t :=
    t.releaseDisarmed_uncut fun i low => by
      have fcl : t.fcl = s.fcl := (congrArg State.fcl (ht {} {}) :)
      rw [fcl]
      exact uncut i low
  refine ⟨fun hunt => ?hunt, fun lock bad inactive many => ?ends, fun lock data few => ?data⟩
  case hunt =>
    rw [if_neg (by simp [hunt])] at acts
    have lock : u.flag F.GWP_LANE_STAT.BLK_LOCK k = false := (congrArg (· == 1) (stat F.GWP_LANE_STAT.BLK_LOCK rfl (by decide))).trans hunt
    have pos := stat F.GWP_LANE_STAT.POS rfl (by decide)
    obtain ⟨regs', clock', rest', last⟩ := u.huntRx_lane k v
    have out : exec (.blockRx k sk h w) s = .next (u.huntRx k v) :=
      congrArg Host.Outcome.next ((congrArg State.releaseDisarmed acts).trans (same _ fun a g => (rest' a g).trans (rest a g)))
    refine ⟨_, out, clock'.trans clock, fun good few => ?_, fun good full => ?_, fun bad => ?_, ?_, ?_, regs.trans regs', ?_⟩
    · rw [u.huntRx_counts k v good (by rw [rx]; exact few), State.modRx_get_same, State.modRx_flag, State.modRx_fld, rx]
      exact ⟨rfl, lock, pos⟩
    · rw [u.huntRx_locks k v good (by rw [rx]; exact full), State.setFlag_gwp, State.modRx_get_same,
        State.flag_setFlag_same _ _ _ _ _ rfl (by decide)]
      refine ⟨rfl, rfl, ?_⟩
      simp (disch := decide) only [State.fld_setFlag_beside]
      exact pos
    · rw [u.huntRx_bad k v bad, State.setFld_gwp, State.modRx_get_same]
      refine ⟨rfl, ?_, ?_⟩
      · rw [State.flag_setFld_beside _ F.GWP_LANE_STAT.POS F.GWP_LANE_STAT.BLK_LOCK _ _ _ rfl (by decide) (by decide) (by decide)]
        exact lock
      · rw [State.fld_setFld_same _ _ _ _ _ (by decide) (by decide), pos]
        exact Nat.mod_eq_of_lt (lt_of_lt_of_le (Nat.mod_lt _ (by decide)) (by decide))
    · by_cases bad : v = 0 ∨ v = 2
      · rw [u.huntRx_bad k v bad, State.setFld_gwp, State.modRx_get_same]
        rcases bad with e | e <;> rw [e] <;> rfl
      · have good : v = 1 ∨ v = 3 := by omega
        have slip : ((u.huntRx k v).gwp.rx.get k).slip = false := by
          unfold State.huntRx
          rw [if_pos good]
          dsimp only
          split
          · rw [State.modRx_get_same, rx]
          · rw [State.setFlag_gwp, State.modRx_get_same, State.modRx_get_same, rx]
        rw [slip]
        rcases good with e | e <;> rw [e] <;> rfl
    · rw [last, rx]
    · rw [rest', rest]
  case ends =>
    rw [if_pos lock] at acts
    have pos := stat F.GWP_LANE_STAT.POS rfl (by decide)
    have inactive' : u.flag F.GWP_LANE_STAT.ACTIVE k = false := (congrArg (· == 1) (stat F.GWP_LANE_STAT.ACTIVE rfl (by decide))).trans inactive
    rw [u.lockedRx_ends k v _ bad (by rw [rx]; exact many)] at acts
    obtain ⟨lost, unlocked, skew, pos', cnt, regs', rest'⟩ := bad_header_ends u k inactive' _ rfl
    have out := (congrArg State.releaseDisarmed acts).trans (same _ fun a g => (rest' a g).trans (rest a g))
    refine ⟨_, congrArg Host.Outcome.next out, lost, unlocked, skew, pos'.trans pos, cnt, (regs.widen (by simp)).trans regs', ?_⟩
    rw [rest', rest]
  case data =>
    rw [if_pos lock, data, u.lockedRx_data k _ (by rw [rx]; exact few)] at acts
    refine ⟨u.headerNoted k false, congrArg (fun t : State => Host.Outcome.next t.releaseDisarmed) acts, ?_, fun j other => ?_, ?_,
      regs.of_regs (State.modRx_regs _ _ _), ?_⟩
    · unfold State.headerNoted
      rw [State.modRx_get_same, rx]
    · unfold State.headerNoted
      rw [State.modRx_get_other _ _ _ _ other, hu, State.symbolsTaken_gwp]
      exact Tbl.get_upd_other _ _ _ _ other
    · unfold State.headerNoted
      rw [State.modRx_gwp, hu, State.symbolsTaken_gwp]
    · unfold State.headerNoted
      rw [State.modRx_besideGwp, rest]
end Sys2Proof.Machine
end

section
/-! PROOFS. Received frames and the start of the link layer. -/
namespace Sys2Proof.Machine

theorem State.frameRx_idle (s : State) (b : List Byte) (idle : s.injIdle) (up : s.flag F.GWP_STAT.LINK_UP = true) : s.frameRx b = s.rxChecked b := by
  unfold State.frameRx
  rw [if_pos up, s.inject_idle _ _ _ idle]
  rfl

/-- A received frame is counted. -/
def State.frameSeen (s : State) : State := s.pmuAdd 0x1C1 s.rxLane0

theorem State.frameSeen_keeps (s : State) : s.frameSeen.gwl = s.gwl ∧ s.frameSeen.hqe = s.hqe ∧ s.frameSeen.pool = s.pool ∧ s.frameSeen.out = s.out
    ∧ s.frameSeen.fcl = s.fcl ∧ s.frameSeen.time = s.time :=
  ⟨State.pmuAdd_gwl _ _ _ _ _, State.pmuAdd_hqe _ _ _ _ _, State.pmuAdd_pool _ _ _ _ _, State.pmuAdd_out _ _ _ _ _, State.pmuAdd_fcl _ _ _ _ _,
    State.pmuAdd_time _ _ _ _ _⟩

theorem State.frameSeen_fld (s : State) (f : Fld) (i j : Nat) (h : f.reg.reported = false) : s.frameSeen.fld f i j = s.fld f i j :=
  State.pmuAdd_fld _ _ _ _ _ _ _ _ h

theorem State.frameSeen_rd (s : State) (k : RegKind) (i j : Nat) (h : k.reported = false) : s.frameSeen.rd k i j = s.rd k i j :=
  State.pmuAdd_rd _ _ _ _ _ _ _ _ h

theorem State.frameSeen_active (s : State) : s.frameSeen.gwActive = s.gwActive := congrArg (· == 1) (s.frameSeen_fld F.GWL_STAT.ACTIVE 0 0 rfl)

theorem State.rxChecked_broken (s : State) (b : List Byte) (broken : correctFrame b = none) : s.rxChecked b = s.frameSeen.badFrame := by
  unfold State.rxChecked
  dsimp only
  rw [broken]
  rfl

/-- A frame without a corrected byte and with a good check, by its type. -/
theorem State.rxChecked_good (s : State) (b c : List Byte) (good : correctFrame b = some (c, []))
    (check : frameCrc (if fhType c = 3 then 0 else s.rd .GWL_EPOCH_RX) c = leAt c 244 4) : s.rxChecked b = match fhType c with
      | 1 => s.frameSeen.when s.frameSeen.gwActive (·.rxData c)
      | 2 => s.frameSeen.when s.frameSeen.gwActive (·.rxCtrl c)
      | 3 => s.frameSeen.rxInit c
      | _ => s.frameSeen.count F.GWL_CNT4.DISCARD := by
  have epoch := s.frameSeen_rd .GWL_EPOCH_RX 0 0 rfl
  unfold State.rxChecked
  dsimp only
  rw [good]
  dsimp only
  rw [show s.pmuAdd 0x1C1 s.rxLane0 = s.frameSeen from rfl, epoch, if_neg (not_not_intro check), bne_self_eq_false, Bool.false_and, State.when_false,
    State.when_false] <;> rfl

theorem State.rxChecked_reserved (s : State) (b c : List Byte) (good : correctFrame b = some (c, []))
    (check : frameCrc (s.rd .GWL_EPOCH_RX) c = leAt c 244 4) (data : fhType c ≠ 1) (ctrl : fhType c ≠ 2) (init : fhType c ≠ 3) :
    s.rxChecked b = s.frameSeen.count F.GWL_CNT4.DISCARD := by
  rw [s.rxChecked_good b c good (by rw [if_neg init]; exact check)]
  split
  · exact absurd ‹_› data
  · exact absurd ‹_› ctrl
  · exact absurd ‹_› init
  · rfl

theorem State.rxChecked_init (s : State) (b c : List Byte) (good : correctFrame b = some (c, [])) (init : fhType c = 3)
    (check : frameCrc 0 c = leAt c 244 4) : s.rxChecked b = s.frameSeen.rxInit c := by
  rw [s.rxChecked_good b c good (by rw [if_pos init]; exact check), init] <;> rfl

/-- A broken frame counts. -/
def State.badCounted (s : State) : State := (s.count F.GWL_CNT0.FRAME_BAD).pmuAdd 0x1C2 s.rxLane0

theorem State.badFrame_eq (s : State) : s.badFrame = (s.badCounted).wantNak := by
  unfold State.badFrame State.badCounted State.rxLane0
  rfl

theorem State.badCounted_keeps (s : State) : s.badCounted.gwl = s.gwl ∧ s.badCounted.hqe = s.hqe ∧ s.badCounted.pool = s.pool
    ∧ s.badCounted.out = s.out
    ∧ s.badCounted.fcl = s.fcl ∧ s.badCounted.time = s.time := by
  unfold State.badCounted
  refine ⟨?_, ?_, ?_, ?_, ?_, ?_⟩
  · rw [State.pmuAdd_gwl, State.count_gwl]
  · rw [State.pmuAdd_hqe, State.count_hqe]
  · rw [State.pmuAdd_pool, State.count_pool]
  · rw [State.pmuAdd_out, State.count_out]
  · rw [State.pmuAdd_fcl, State.count_fcl]
  · rw [State.pmuAdd_time, State.count_time]

theorem State.badCounted_bad (s : State) : s.badCounted.fld F.GWL_CNT0.FRAME_BAD = min F.GWL_CNT0.FRAME_BAD.max (s.fld F.GWL_CNT0.FRAME_BAD + 1) :=
  (State.pmuAdd_fld _ _ _ _ _ _ _ _ rfl).trans (s.fld_count_same _ _ _ (by decide) (by decide))

theorem State.badCounted_active (s : State) : s.badCounted.gwActive = s.gwActive :=
  congrArg (· == 1) ((State.pmuAdd_fld _ _ _ _ _ _ _ _ rfl).trans (s.fld_count_kind F.GWL_CNT0.FRAME_BAD F.GWL_STAT.ACTIVE 0 0 0 0 (by decide)))

/-- R356: a NAK becomes due, or is due already; nothing else moves. -/
theorem State.wantNak_mod (s : State) : ∃ due, s.wantNak = s.modGwl (fun g => { g with nakDue := due }) := by
  unfold State.wantNak
  extract_lets old
  by_cases due : s.gwActive ∧ old
  · exact ⟨true, if_pos due⟩
  · exact ⟨s.gwl.nakDue, if_neg due⟩

theorem State.wantNak_first (s : State) (active : s.gwActive = true) (none : s.gwl.nakAt = none) :
    s.wantNak = s.modGwl (fun g => { g with nakDue := true }) := by
  unfold State.wantNak
  dsimp only
  rw [none]
  exact if_pos ⟨active, rfl⟩

theorem State.wantNak_early (s : State) (n : Nat) (sent : s.gwl.nakAt = some n) (early : s.time.now < n + 2400) : s.wantNak = s := by
  unfold State.wantNak
  dsimp only
  rw [sent]
  refine if_neg fun h => ?_
  have late := of_decide_eq_true h.2
  omega

/-- What a frame that fails its codes leaves. -/
theorem State.badFrame_only (s : State) : ∃ due, s.badFrame = s.badCounted.modGwl (fun g => { g with nakDue := due })
    ∧ (s.gwActive = true → s.gwl.nakAt = none → due = true) ∧ (∀ n, s.gwl.nakAt = some n → s.time.now < n + 2400 → due = s.gwl.nakDue) := by
  obtain ⟨gwl, -, -, -, -, time⟩ := s.badCounted_keeps
  have active := s.badCounted_active
  rw [s.badFrame_eq]
  obtain ⟨due, h⟩ := s.badCounted.wantNak_mod
  have hdue : due = (s.badCounted.wantNak).gwl.nakDue := by rw [h, State.modGwl_gwl]
  refine ⟨due, h, fun on none => ?_, fun n sent early => ?_⟩
  · rw [hdue, s.badCounted.wantNak_first (active.trans on) (by rw [gwl]; exact none), State.modGwl_gwl]
  · rw [hdue, s.badCounted.wantNak_early n (by rw [gwl]; exact sent) (by rw [time]; exact early), gwl]

theorem leNat_lt (bs : List Byte) : leNat bs < 256 ^ bs.length := by
  induction bs with
  | nil => decide
  | cons b bs ih =>
    have byte := b.isLt
    rw [leNat, List.length_cons, pow_succ]
    omega

theorem leAt_lt (bs : List Byte) (a n : Nat) : leAt bs a n < 256 ^ n := by
  have len : (bytesAt bs a n).length = n := by simp [bytesAt]
  exact (leNat_lt (bytesAt bs a n)).trans_eq (congrArg (256 ^ ·) len)

/-- A good INIT before the link layer is active is noted. -/
def State.initNoted (s : State) : State := s.modGwl (fun g => { g with rxDone := true })

/-- R352: sequence numbers, credits and the far side's length start anew. -/
def State.initTaken (s : State) (b : List Byte) : State :=
  s.initNoted.modGwl (fun g => { g with
    farMaxLen := leAt b 11 1, seq := 0, expect := 0, lastAck := 4095, limit := firstLimits (bytesAt b 16 16), used := {}, grant := firstGrants,
      taken := {} })

theorem State.rxInit_early (s : State) (b : List Byte) (idle : s.gwActive = false) (one : leAt b 8 2 = 1) (done : bit (leAt b 10 1) 0 = false) :
    s.rxInit b = s.initNoted := by
  unfold State.rxInit
  dsimp only
  rw [if_neg (by simp [idle, one]), done]
  rfl

theorem State.rxInit_done (s : State) (b : List Byte) (idle : s.gwActive = false) (one : leAt b 8 2 = 1) (done : bit (leAt b 10 1) 0 = true) :
    s.rxInit b = ((s.initTaken b).wr .GWL_EPOCH_RX (leAt b 4 4)).setFlag F.GWL_STAT.ACTIVE := by
  unfold State.rxInit
  dsimp only
  rw [if_neg (by simp [idle, one]), done]
  rfl

theorem State.rxInit_again (s : State) (b : List Byte) (active : s.gwActive = true) : s.rxInit b = s.protoError 3 (fhSeq b) 0 := by
  unfold State.rxInit
  exact if_pos (Or.inl active)

/-- Nothing is held for an injector that was disarmed. -/
theorem State.injIdle.uncut {s : State} (idle : s.injIdle) (t : State) (fcl : t.fcl = s.fcl) : t.releaseDisarmed = t :=
  t.releaseDisarmed_uncut fun i low => by rw [fcl]; exact (idle i low).2.2

/-- The three frames' commands all receive the frame. -/
theorem exec_frameRx (s t : State) (b : List Byte) (p : Instr) (one : p ∈ [Instr.initFrameRx b, .dataFrameRx b, .ctrlFrameRx b])
    (acts : s.frameRx b = t) (same : t.releaseDisarmed = t) : exec p s = .next t := by
  simp only [List.mem_cons, List.not_mem_nil, or_false] at one
  obtain rfl | rfl | rfl := one
  · exact congrArg Host.Outcome.next acts
  · exact congrArg Host.Outcome.next ((congrArg State.releaseDisarmed acts).trans same)
  · exact congrArg Host.Outcome.next acts

/-- Settles O31. -/
theorem framesAreCheckedAndInitStartsTheLinkLayer : Obligations.FramesAreCheckedAndInitStartsTheLinkLayer := by
  intro s b idle up
  have acts := s.frameRx_idle b idle up
  obtain ⟨gwl, hqe, pool, out, fcl, time⟩ := s.frameSeen_keeps
  have active := s.frameSeen_active
  refine ⟨fun p one broken => ?broken, fun c good init check off version => ⟨fun done => ?starts, fun early => ?noted⟩,
    fun p c one good data ctrl init check => ?reserved, fun c good init check on => ?again⟩
  case broken =>
    rw [s.rxChecked_broken b broken] at acts
    obtain ⟨due, is, first, soon⟩ := s.frameSeen.badFrame_only
    obtain ⟨gwl', hqe', pool', out', fcl', -⟩ := s.frameSeen.badCounted_keeps
    have bad := s.frameSeen.badCounted_bad
    rw [s.frameSeen_fld _ _ _ rfl] at bad
    rw [active, gwl] at first
    rw [gwl, time] at soon
    obtain ⟨u, hu⟩ : ∃ u, u = s.frameSeen.badCounted := ⟨_, rfl⟩
    rw [← hu, gwl] at gwl'
    rw [← hu] at is hqe' pool' out' fcl' bad
    refine ⟨u.modGwl (fun g => { g with nakDue := due }), exec_frameRx s _ b p one (acts.trans is) (idle.uncut _ ?_), ?_⟩
    · rw [State.modGwl_fcl, fcl', fcl]
    · rw [State.modGwl_fld, State.modGwl_gwl, State.modGwl_hqe, State.modGwl_pool, State.modGwl_out, gwl']
      exact ⟨bad, rfl, rfl, rfl, first, soon, hqe'.trans hqe, pool'.trans pool, out'.trans out⟩
  case starts =>
    rw [s.rxChecked_init b c good init check, State.rxInit_done _ c (active.trans off) version done] at acts
    refine ⟨_, congrArg Host.Outcome.next acts, State.flag_setFlag_same _ _ _ _ _ rfl (by decide), ?_, ?_⟩
    · rw [State.rd_setFlag_kind _ _ _ _ _ _ _ _ (by decide), State.rd_wr_same]
      exact Nat.mod_eq_of_lt (leAt_lt c 4 4)
    · rw [State.setFlag_gwl, State.wr_gwl]
      unfold State.initTaken State.initNoted
      rw [State.modGwl_gwl, State.modGwl_gwl, gwl]
      exact ⟨rfl, rfl, rfl, rfl, rfl, rfl⟩
  case noted =>
    rw [s.rxChecked_init b c good init check, State.rxInit_early _ c (active.trans off) version early] at acts
    refine ⟨_, congrArg Host.Outcome.next acts, (State.modGwl_flag _ _ _ _ _).trans (active.trans off), ?_⟩
    unfold State.initNoted
    rw [State.modGwl_gwl, gwl]
  case reserved =>
    rw [s.rxChecked_reserved b c good check data ctrl init] at acts
    refine ⟨_, exec_frameRx s _ b p one acts (idle.uncut _ ?_), ?_, ?_⟩
    · rw [State.count_fcl, fcl]
    · rw [State.fld_count_same _ _ _ _ (by decide) (by decide), s.frameSeen_fld _ _ _ rfl]
    · rw [State.count_gwl, State.count_hqe, State.count_pool, State.count_out]
      exact ⟨gwl, hqe, pool, out⟩
  case again =>
    rw [s.rxChecked_init b c good init check, State.rxInit_again _ c (active.trans on)] at acts
    exact ⟨s.frameSeen, congrArg Host.Outcome.next acts, gwl⟩
end Sys2Proof.Machine
end

section
/-! PROOFS. Sequence numbers and acknowledgements. -/
namespace Sys2Proof.Machine

theorem State.rxChecked_data (s : State) (b c : List Byte) (good : correctFrame b = some (c, [])) (data : fhType c = 1)
    (check : frameCrc (s.rd .GWL_EPOCH_RX) c = leAt c 244 4) (on : s.gwActive = true) : s.rxChecked b = s.frameSeen.rxData c := by
  rw [s.rxChecked_good b c good (by rw [if_neg (by omega)]; exact check), data, s.frameSeen_active, on] <;> rfl

theorem State.rxChecked_ctrl (s : State) (b c : List Byte) (good : correctFrame b = some (c, [])) (ctrl : fhType c = 2)
    (check : frameCrc (s.rd .GWL_EPOCH_RX) c = leAt c 244 4) (on : s.gwActive = true) : s.rxChecked b = s.frameSeen.rxCtrl c := by
  rw [s.rxChecked_good b c good (by rw [if_neg (by omega)]; exact check), ctrl, s.frameSeen_active, on] <;> rfl

/-- A DATA frame without reports leaves its reports' fields alone. -/
theorem State.takeReports_none (s : State) (b : List Byte) (ack : fhAckv b = false) (nak : fhNak b = false) : s.takeReports b false = s := by
  unfold State.takeReports
  rw [ack, nak]
  rfl

theorem State.rxData_plain (s : State) (b : List Byte) (on : s.gwActive = true) (ack : fhAckv b = false) (crd : fhCrd b = false)
    (nak : fhNak b = false) :
    s.rxData b = if fhSeq b = s.gwl.expect
      then (s.modGwl (fun g => { g with expect := (fhSeq b + 1) % 4096, ackDue := true, nakDue := false, nakAt := none })).takeUnits (fhSeq b)
        (!fhRpl b) (bytesAt b 4 240)
      else s.when (s.seqAhead (fhSeq b)) State.wantNak := by
  unfold State.rxData
  dsimp only
  rw [crd, s.takeReports_none b ack nak, if_neg (not_not_intro on)]
  rfl

theorem fhSeq_lt (b : List Byte) : fhSeq b < 4096 := by
  unfold fhSeq
  exact bits_lt _ _ _

/-- How many numbers back a number lies, modulo 4,096 (R355). -/
theorem subMod_twelve (a b : Nat) (low : b < 4096) : subMod 4096 a b = (a + 4096 - b) % 4096 := by
  unfold subMod
  congr 1
  omega

theorem State.seqAhead_back (s : State) (q : Nat) (low : q < 4096) (one : 1 ≤ (s.gwl.expect + 4096 - q) % 4096)
    (near : (s.gwl.expect + 4096 - q) % 4096 ≤ 2048) : s.seqAhead q = false := by
  unfold State.seqAhead
  rw [subMod_twelve _ _ low]
  simp [one, near]

theorem State.seqAhead_far (s : State) (q : Nat) (low : q < 4096) (other : q ≠ s.gwl.expect)
    (far : 2048 < (s.gwl.expect + 4096 - q) % 4096) : s.seqAhead q = true := by
  unfold State.seqAhead
  rw [subMod_twelve _ _ low]
  simp [other, far]

theorem State.seqAhead_now (s : State) : s.seqAhead s.gwl.expect = false := by
  unfold State.seqAhead
  simp

/-- R359: a credit report moves the limits only. -/
theorem State.takeCredits_only (s : State) (b : List Byte) : ∃ l, s.takeCredits b = s.modGwl (fun g => { g with limit := l }) := by
  unfold State.takeCredits
  generalize List.range 4 = cs
  induction cs generalizing s with
  | nil => exact ⟨s.gwl.limit, rfl⟩
  | cons c cs ih =>
    obtain ⟨l, h⟩ := ih (s.modGwl (fun g => { g with limit := g.limit.upd c (fun l => { l with
      hdr := if l.hdrUnl then l.hdr else creditAhead 12 l.hdr (bits (leAt b (4 * c) 4) 11 0)
      data := if l.dataUnl then l.data else creditAhead 20 l.data (bits (leAt b (4 * c) 4) 31 12) }) }))
    exact ⟨l, h⟩

theorem State.rxCtrl_ack (s : State) (b : List Byte) (ack : fhAckv b = true) (nak : fhNak b = false) (seq : fhSeq b = s.gwl.expect)
    (same : (s.takeAck (fhAck b)).gwl.expect = s.gwl.expect) : ∃ l, s.rxCtrl b = (s.takeAck (fhAck b)).modGwl (fun g => { g with limit := l }) := by
  obtain ⟨l, h⟩ := (s.takeAck (fhAck b)).takeCredits_only (bytesAt b 4 16)
  have reports : s.takeReports b true = (s.takeAck (fhAck b)).modGwl (fun g => { g with limit := l }) := by
    unfold State.takeReports
    rw [ack, nak]
    exact h
  refine ⟨l, ?_⟩
  unfold State.rxCtrl
  dsimp only
  have now := ((s.takeAck (fhAck b)).modGwl (fun g => { g with limit := l })).seqAhead_now
  rw [State.modGwl_gwl] at now
  rw [reports, seq, ← same, now, State.when_false]

/-- An acknowledgement of more than was sent. -/
theorem State.takeAck_beyond (s : State) (a : Nat) (low : s.gwl.lastAck < 4096) (far : s.gwl.replay.length < (a + 4096 - s.gwl.lastAck) % 4096) :
    s.takeAck a = s.count F.GWL_CNT4.ACK_ERR := by
  unfold State.takeAck
  dsimp only
  rw [subMod_twelve _ _ low, if_pos far]

/-- R357: the frames acknowledged leave the replay buffer. -/
def State.ackTaken (s : State) (a d : Nat) : State :=
  s.modGwl (fun g => { g with lastAck := a, replay := g.replay.drop d, replayCnt := 0, resend := none })

theorem State.takeAck_some (s : State) (a : Nat) (low : s.gwl.lastAck < 4096) (one : 0 < (a + 4096 - s.gwl.lastAck) % 4096)
    (fits : (a + 4096 - s.gwl.lastAck) % 4096 ≤ s.gwl.replay.length) (quiet : s.gwl.resend = none) :
    s.takeAck a = s.ackTaken a ((a + 4096 - s.gwl.lastAck) % 4096) := by
  unfold State.takeAck State.ackTaken State.modGwl
  dsimp only
  rw [subMod_twelve _ _ low, if_neg (by omega), if_neg (by omega), quiet]
  rfl

/-- Settles O32. -/
theorem sequenceNumbersAcceptDiscardAndAcknowledge : Obligations.SequenceNumbersAcceptDiscardAndAcknowledge := by
  intro s b c idle up on good check
  have acts := s.frameRx_idle b idle up
  obtain ⟨gwl, hqe, pool, out, fcl, time⟩ := s.frameSeen_keeps
  have active := s.frameSeen_active.trans on
  have seqLow := fhSeq_lt c
  have data (is : fhType c = 1) (ack : fhAckv c = false) (crd : fhCrd c = false) (nak : fhNak c = false) :=
    (acts.trans (s.rxChecked_data b c good is check on)).trans (s.frameSeen.rxData_plain c active ack crd nak)
  have ctrl (is : fhType c = 2) := acts.trans (s.rxChecked_ctrl b c good is check on)
  have errs := s.frameSeen_fld F.GWL_CNT4.ACK_ERR 0 0 rfl
  obtain ⟨u, hu⟩ : ∃ u, u = s.frameSeen := ⟨_, rfl⟩
  rw [← hu] at gwl hqe pool out fcl time active data ctrl errs
  refine ⟨fun is ack crd nak seq => ?taken, fun is ack crd nak low one near => ?back, fun is ack crd nak low far quiet => ?ahead,
    fun is ack nak seq low => ⟨fun one fits quiet => ?acked, fun beyond => ?wrong⟩⟩
  case taken =>
    have acts := data is ack crd nak
    rw [if_pos (by rw [gwl]; exact seq)] at acts
    refine ⟨_, congrArg Host.Outcome.next (congrArg State.releaseDisarmed acts), ?_, ?_⟩
    · rw [State.modGwl_gwl, gwl, seq]
    · rw [State.modGwl_hqe, State.modGwl_pool, State.modGwl_out]
      exact ⟨hqe, pool, out⟩
  case back =>
    have acts := data is ack crd nak
    rw [if_neg (by rw [gwl]; intro h; rw [h] at one; omega), u.seqAhead_back _ seqLow (by rw [gwl]; exact one) (by rw [gwl]; exact near),
      State.when_false] at acts
    exact ⟨u, congrArg Host.Outcome.next ((congrArg State.releaseDisarmed acts).trans (idle.uncut u fcl)), gwl, hqe, pool, out⟩
  case ahead =>
    have other : fhSeq c ≠ s.gwl.expect := by
      intro h
      rw [h] at far
      omega
    have acts := data is ack crd nak
    rw [if_neg (by rw [gwl]; exact other), u.seqAhead_far _ seqLow (by rw [gwl]; exact other) (by rw [gwl]; exact far), State.when_true,
      u.wantNak_first active (by rw [gwl]; exact quiet)] at acts
    refine ⟨_, congrArg Host.Outcome.next ((congrArg State.releaseDisarmed acts).trans (idle.uncut _ ((State.modGwl_fcl _ _).trans fcl))), ?_⟩
    rw [State.modGwl_gwl, State.modGwl_hqe, State.modGwl_out, gwl]
    exact ⟨rfl, hqe, out⟩
  case acked =>
    have some := u.takeAck_some (fhAck c) (by rw [gwl]; exact low) (by rw [gwl]; exact one) (by rw [gwl]; exact fits) (by rw [gwl]; exact quiet)
    obtain ⟨l, h⟩ := u.rxCtrl_ack c ack nak (by rw [gwl]; exact seq) (by rw [some]; rfl)
    rw [some] at h
    refine ⟨_, congrArg Host.Outcome.next ((ctrl is).trans h), ?_⟩
    unfold State.ackTaken
    rw [State.modGwl_gwl, State.modGwl_gwl, State.modGwl_hqe, State.modGwl_hqe, State.modGwl_out, State.modGwl_out, gwl]
    exact ⟨rfl, rfl, rfl, rfl, rfl, hqe, out⟩
  case wrong =>
    have err := u.takeAck_beyond (fhAck c) (by rw [gwl]; exact low) (by rw [gwl]; exact beyond)
    obtain ⟨l, h⟩ := u.rxCtrl_ack c ack nak (by rw [gwl]; exact seq) (by rw [err, State.count_gwl])
    rw [err] at h
    refine ⟨_, congrArg Host.Outcome.next ((ctrl is).trans h), ?_, ?_, ?_⟩
    · rw [State.modGwl_gwl, State.count_gwl, gwl]
    · rw [State.modGwl_gwl, State.count_gwl, gwl]
    · rw [State.modGwl_fld, State.fld_count_same _ _ _ _ (by decide) (by decide), errs]
end Sys2Proof.Machine
end

section
/-! PROOFS. Transfers of the power bus. -/
namespace Sys2Proof.Machine

theorem leNat_leBytes_word (v : Nat) : leNat (leBytes 4 v) = v % 2 ^ 32 := by
  simp only [leBytes, leNat, BitVec.toNat_ofNat]
  omega

theorem State.each_congr {α : Type} (s : State) (l : List α) (f g : α → State → State) (h : ∀ a ∈ l, ∀ t, f a t = g a t) :
    s.each l f = s.each l g := List.foldl_ext _ _ _ fun t a mem => h a mem t

/-- The four data registers with the first word written. -/
theorem State.smb1Data_word (s : State) (d : List Byte) (four : d.length = 4) :
    s.smb1Data d = s.each [0, 1, 2, 3] (fun i t => t.wr .SMB1_DATA (if i = 0 then leNat d else s.rd .SMB1_DATA i % 2 ^ 32) i) := by
  obtain ⟨a, b, c, e, rfl⟩ : ∃ a b c e, d = [a, b, c, e] := by
    match d, four with
    | [a, b, c, e], _ => exact ⟨a, b, c, e, rfl⟩
  have words (i : Nat) (one : 1 ≤ i) (low : i < 4) :
      leAt (putBytes ((List.range 4).flatMap (fun i => leBytes 4 (s.rd .SMB1_DATA i))) 0 [a, b, c, e]) (4 * i) 4 = s.rd .SMB1_DATA i % 2 ^ 32 := by
    rw [← leNat_leBytes_word]
    obtain rfl | rfl | rfl : i = 1 ∨ i = 2 ∨ i = 3 := by omega
    · rfl
    · rfl
    · rfl
  unfold State.smb1Data
  dsimp only
  refine State.each_congr _ [0, 1, 2, 3] _ _ fun i mem t => ?_
  by_cases first : i = 0
  · subst first
    rfl
  · rw [if_neg first, words i (by omega) (by simp at mem; omega)]

theorem State.smb1Data_read (s : State) (d : List Byte) (four : d.length = 4) :
    (s.smb1Data d).rd .SMB1_DATA 0 = leNat d
    ∧ ∀ k, 1 ≤ k → k < 4 → (s.smb1Data d).rd .SMB1_DATA k = s.rd .SMB1_DATA k % 2 ^ 32 := by
  have fits : leNat d % 2 ^ 32 = leNat d := Nat.mod_eq_of_lt ((leNat_lt d).trans_eq (by rw [four]; rfl))
  have other (t : State) (v i k : Nat) (ne : RegKind.SMB1_DATA.key k 0 ≠ RegKind.SMB1_DATA.key i 0) :=
    t.rd_wr_other .SMB1_DATA .SMB1_DATA v i 0 k 0 ne
  rw [s.smb1Data_word d four, State.each_cons, State.each_cons, State.each_cons, State.each_cons, State.each_nil]
  refine ⟨?_, fun k one low => ?_⟩
  · rw [other _ _ _ _ (by decide), other _ _ _ _ (by decide), other _ _ _ _ (by decide), State.rd_wr_same, if_pos rfl, fits]
  · obtain rfl | rfl | rfl : k = 1 ∨ k = 2 ∨ k = 3 := by omega
    · rw [other _ _ _ _ (by decide), other _ _ _ _ (by decide), State.rd_wr_same, if_neg (by decide), Nat.mod_mod]
    · rw [other _ _ _ _ (by decide), State.rd_wr_same, if_neg (by decide), Nat.mod_mod]
    · rw [State.rd_wr_same, if_neg (by decide), Nat.mod_mod]

/-- R528: what a transfer of the registers shows at its end. -/
def State.smb1Shown (s : State) (res attempts : Nat) : State :=
  (((s.setFlag F.SMB1_STAT.BUSY false).setFlag F.SMB1_STAT.DONE).setFld F.SMB1_STAT.RESULT res).setFld F.SMB1_STAT.ATTEMPTS attempts

theorem State.smb1Shown_stat (s : State) (res attempts : Nat) (few : attempts < 32) :
    (s.smb1Shown res attempts).flag F.SMB1_STAT.BUSY = false ∧ (s.smb1Shown res attempts).fld F.SMB1_STAT.ATTEMPTS = attempts := by
  unfold State.smb1Shown
  refine ⟨?_, ?_⟩
  · rw [State.flag_setFld_beside _ F.SMB1_STAT.ATTEMPTS F.SMB1_STAT.BUSY _ _ _ rfl (by decide) (by decide) (by decide),
      State.flag_setFld_beside _ F.SMB1_STAT.RESULT F.SMB1_STAT.BUSY _ _ _ rfl (by decide) (by decide) (by decide),
      State.flag_setFlag_beside _ F.SMB1_STAT.DONE F.SMB1_STAT.BUSY _ _ _ rfl (by decide) (by decide) (by decide),
      State.flag_setFlag_same _ _ _ _ _ rfl (by decide)]
  · rw [State.fld_setFld_same _ _ _ _ _ (by decide) (by decide)]
    exact Nat.mod_eq_of_lt few

theorem State.smb1Shown_done (s : State) (res attempts : Nat) (low : res < 8) :
    (s.smb1Shown res attempts).flag F.SMB1_STAT.DONE = true ∧ (s.smb1Shown res attempts).fld F.SMB1_STAT.RESULT = res
    ∧ (s.smb1Shown res attempts).flag F.SMB1_STAT.BUS_CLEAR = s.flag F.SMB1_STAT.BUS_CLEAR := by
  unfold State.smb1Shown
  refine ⟨?_, ?_, ?_⟩
  · rw [State.flag_setFld_beside _ F.SMB1_STAT.ATTEMPTS F.SMB1_STAT.DONE _ _ _ rfl (by decide) (by decide) (by decide),
      State.flag_setFld_beside _ F.SMB1_STAT.RESULT F.SMB1_STAT.DONE _ _ _ rfl (by decide) (by decide) (by decide),
      State.flag_setFlag_same _ _ _ _ _ rfl (by decide)]
  · rw [State.fld_setFld_beside _ F.SMB1_STAT.ATTEMPTS F.SMB1_STAT.RESULT _ _ _ rfl (by decide) (by decide) (by decide),
      State.fld_setFld_same _ _ _ _ _ (by decide) (by decide)]
    exact Nat.mod_eq_of_lt low
  · rw [State.flag_setFld_beside _ F.SMB1_STAT.ATTEMPTS F.SMB1_STAT.BUS_CLEAR _ _ _ rfl (by decide) (by decide) (by decide),
      State.flag_setFld_beside _ F.SMB1_STAT.RESULT F.SMB1_STAT.BUS_CLEAR _ _ _ rfl (by decide) (by decide) (by decide),
      State.flag_setFlag_beside _ F.SMB1_STAT.DONE F.SMB1_STAT.BUS_CLEAR _ _ _ rfl (by decide) (by decide) (by decide),
      State.flag_setFlag_beside _ F.SMB1_STAT.BUSY F.SMB1_STAT.BUS_CLEAR _ _ _ rfl (by decide) (by decide) (by decide)]

theorem State.smb1Shown_rd (s : State) (res attempts : Nat) (k : RegKind) (i j : Nat) (h : k ≠ .SMB1_STAT) :
    (s.smb1Shown res attempts).rd k i j = s.rd k i j := by
  unfold State.smb1Shown
  rw [State.rd_setFld_kind _ _ _ _ _ _ _ _ h, State.rd_setFld_kind _ _ _ _ _ _ _ _ h, State.rd_setFlag_kind _ _ _ _ _ _ _ _ h,
    State.rd_setFlag_kind _ _ _ _ _ _ _ _ h]

theorem State.smb1Shown_offRegs (s : State) (res attempts : Nat) : (s.smb1Shown res attempts).offRegs = s.offRegs := by
  unfold State.smb1Shown
  rw [State.setFld_offRegs, State.setFld_offRegs, State.setFlag_offRegs, State.setFlag_offRegs]

theorem State.modSmb_regs (s : State) (f : Smb → Smb) : (s.modSmb f).regs = s.regs := (rfl)

theorem State.modSmb_smb (s : State) (f : Smb → Smb) : (s.modSmb f).smb = f s.smb := (rfl)

/-- The transfer leaves the bus. -/
def State.smb1Freed (s : State) : State := (s.pmuAdd 0x287 0).modSmb (fun b => { b with job := none, lost := false })

theorem State.smb1Freed_rd (s : State) (k : RegKind) (i j : Nat) (h : k.reported = false) : s.smb1Freed.rd k i j = s.rd k i j :=
  (State.modSmb_rd _ _ _ _ _).trans (State.pmuAdd_rd _ _ _ _ _ _ _ _ h)

theorem State.smb1Freed_fld (s : State) (f : Fld) (i j : Nat) (h : f.reg.reported = false) : s.smb1Freed.fld f i j = s.fld f i j :=
  (State.modSmb_fld _ _ _ _ _).trans (State.pmuAdd_fld _ _ _ _ _ _ _ _ h)

/-- What a failed transfer of the registers leaves before its alert and its source. -/
def State.smb1Failed (s : State) (j : Smb1Job) (res : Nat) : State := (s.smb1Freed.when (res == 1) (·.count F.SMB1_CNT.NACK)).smb1Shown res j.attempts

theorem State.smb1End_failed (s : State) (j : Smb1Job) (res : Nat) (b : List Byte) (regs : j.firmware = false) (bad : res ≠ 0) :
    s.smb1End j res b = (((s.smb1Failed j res).alert 5).raise 36 res).smb1Next := by
  have no : (res == 0) = false := by simp [bad]
  have yes : (res != 0) = true := by simp [bad]
  unfold State.smb1End
  dsimp only
  rw [regs, if_neg Bool.false_ne_true, no, Bool.false_and, State.when_false, yes, State.when_true]
  rfl

theorem State.smb1Failed_stat (s : State) (j : Smb1Job) (res : Nat) (low : res < 8) : (s.smb1Failed j res).fld F.SMB1_STAT.RESULT = res
    ∧ (s.smb1Failed j res).flag F.SMB1_STAT.DONE = true ∧ (s.smb1Failed j res).smb.job = none
    ∧ (s.smb1Failed j res).flag F.SMB1_STAT.BUS_CLEAR = s.flag F.SMB1_STAT.BUS_CLEAR := by
  unfold State.smb1Failed
  obtain ⟨done, result, clear⟩ := (s.smb1Freed.when (res == 1) (·.count F.SMB1_CNT.NACK)).smb1Shown_done res j.attempts low
  have freed : s.smb1Freed.flag F.SMB1_STAT.BUS_CLEAR = s.flag F.SMB1_STAT.BUS_CLEAR := congrArg (· == 1) (s.smb1Freed_fld _ _ _ rfl)
  refine ⟨result, done, ?_, ?_⟩
  · cases res == 1
    · rfl
    · rfl
  · rw [clear]
    cases res == 1
    · exact freed
    · exact (congrArg (· == 1) (State.fld_count_kind _ F.SMB1_CNT.NACK F.SMB1_STAT.BUS_CLEAR _ _ _ _ (by decide))).trans freed

theorem State.smb1Failed_nack (s : State) (j : Smb1Job) : (s.smb1Failed j 1).fld F.SMB1_CNT.NACK = min 65535 (s.fld F.SMB1_CNT.NACK + 1)
    ∧ ∀ k, (s.smb1Failed j 1).rd .SMB1_DATA k = s.rd .SMB1_DATA k := by
  have is : s.smb1Failed j 1 = (s.smb1Freed.count F.SMB1_CNT.NACK).smb1Shown 1 j.attempts := rfl
  have counted := s.smb1Freed.fld_count_same F.SMB1_CNT.NACK 0 0 (by decide) (by decide)
  rw [s.smb1Freed_fld _ _ _ rfl] at counted
  rw [is]
  refine ⟨Eq.trans ?_ counted, fun k => ?_⟩
  · unfold State.fld
    rw [State.smb1Shown_rd _ _ _ _ _ _ (by decide)]
  · rw [State.smb1Shown_rd _ _ _ _ _ _ (by decide), State.rd_count_kind _ _ _ _ _ _ _ (by decide), s.smb1Freed_rd _ _ _ rfl]

/-- A good read of four bytes, as the registers and the bus show it. -/
def State.smb1Good (s : State) (j : Smb1Job) (b : List Byte) : State :=
  ((s.modSmb (fun b => { b with job := none, lost := false })).smb1Data b).smb1Shown 0 j.attempts

theorem padTo_full (b : List Byte) : padTo b.length b = b := by simp [padTo]

theorem State.smb1Next_quiet (s : State) (no : s.smb.job = none) (fw : s.smb.fwWait = 0) (reg : s.smb.regWait = false) : s.smb1Next = s := by
  unfold State.smb1Next
  rw [no]
  dsimp only
  rw [if_neg (not_not_intro fw), reg]
  rfl

theorem State.smb1Data_offRegs (s : State) (b : List Byte) : (s.smb1Data b).offRegs = s.offRegs := by
  unfold State.smb1Data
  dsimp only
  exact State.each_offRegs _ _ _ fun _ _ => rfl

theorem State.smb_of_offRegs {s t : State} (h : t.offRegs = s.offRegs) : t.smb = s.smb := (congrArg State.smb h :)

/-- What the registers and the bus alone have changed is put back. -/
theorem State.smb_back {s t : State} {f : Smb → Smb} (h : t.offRegs = (s.modSmb f).offRegs) : { t with regs := s.regs, smb := s.smb } = s :=
  (congrArg (fun u : State => { u with regs := s.regs, smb := s.smb }) h :)

theorem State.smb1Good_smb (s : State) (j : Smb1Job) (b : List Byte) : (s.smb1Good j b).smb = { s.smb with job := none, lost := false } := by
  unfold State.smb1Good
  rw [State.smb_of_offRegs ((State.smb1Shown_offRegs _ _ _).trans (State.smb1Data_offRegs _ _)), State.modSmb_smb]

theorem State.smb1End_good (s : State) (j : Smb1Job) (b : List Byte) (regs : j.firmware = false) (fw : s.smb.fwWait = 0) (reg : s.smb.regWait = false)
    (frozen : s.flag F.PMU_CTRL.FREEZE = true) (read : s.flag F.SMB1_XFER.DIR = true) (four : s.fld F.SMB1_XFER.LEN = 4) (len : b.length = 4) :
    s.smb1End j 0 b = s.smb1Good j b := by
  have whole : padTo (min 16 (s.fld F.SMB1_XFER.LEN)) b = b := by rw [four, show min 16 4 = b.length by rw [len]; rfl, padTo_full]
  have smb := s.smb1Good_smb j b
  refine Eq.trans ?_ ((s.smb1Good j b).smb1Next_quiet (by rw [smb]) (by rw [smb]; exact fw) (by rw [smb]; exact reg))
  unfold State.smb1End
  dsimp only
  rw [s.pmuAdd_frozen _ _ _ frozen, regs, if_neg Bool.false_ne_true]
  rw [show (0 == 1) = false from rfl, State.when_false, State.modSmb_flag, State.modSmb_fld, read, whole]
  rfl

/-- The end of a transfer on the bus, by its result. -/
theorem doSmb1TransferDone_ends (s : State) (j : Smb1Job) (res : Nat) (b : List Byte) (job : s.smb.job = some j) (held : s.smb.lost = false)
    (low : res ≤ 4) (other : res ≠ 2) : doSmb1TransferDone res b s = s.smb1End j res b := by
  unfold doSmb1TransferDone
  rw [job]
  dsimp only
  rw [if_neg (by rw [held]; simpa using low), if_neg other]

theorem doSmb1TransferDone_lost (s : State) (j : Smb1Job) (b : List Byte) (job : s.smb.job = some j) (held : s.smb.lost = false) :
    doSmb1TransferDone 2 b s = if j.attempts ≤ s.fld F.SMB1_CTRL.RETRY then (s.count F.SMB1_CNT.ARB_LOST).modSmb (fun b => { b with lost := true })
      else (s.count F.SMB1_CNT.ARB_LOST).smb1End j 2 [] := by
  unfold doSmb1TransferDone
  rw [job]
  dsimp only
  rw [if_neg (by simp [held]), if_pos rfl, State.fld_count_kind _ F.SMB1_CNT.ARB_LOST F.SMB1_CTRL.RETRY _ _ _ _ (by decide)]

theorem doSmb1Timeout_held (s : State) (j : Smb1Job) (cleared : Bool) (job : s.smb.job = some j) : doSmb1Timeout true cleared s
    = if cleared then s.setFlag F.SMB1_STAT.BUS_CLEAR else (s.setFlag F.SMB1_STAT.BUS_CLEAR).smb1End j 3 [] := by
  unfold doSmb1Timeout
  rw [job]
  rfl

theorem doSmb1Timeout_clock (s : State) (j : Smb1Job) (job : s.smb.job = some j) : doSmb1Timeout false false s
    = if s.flag F.SMB1_CTRL.TMO_EN then s.smb1End j 3 [] else s := by
  unfold doSmb1Timeout
  rw [job]
  rfl

theorem State.modSmb_offRegs {s u : State} (f : Smb → Smb) (h : u.offRegs = s.offRegs) : (u.modSmb f).offRegs = (s.modSmb f).offRegs :=
  (congrArg (fun v : State => v.modSmb f) h :)

/-- A transfer of the registers that waits takes the free bus. -/
theorem State.smb1Next_regs (u : State) (free : u.smb.job = none) (fw : u.smb.fwWait = 0) :
    (u.modSmb (fun b => { b with regWait := true })).smb1Next = u.modSmb (fun b => { b with regWait := false, job := some { attempts := 1 } }) := by
  unfold State.smb1Next
  rw [State.modSmb_smb, free]
  dsimp only
  rw [if_neg (not_not_intro fw)]
  rfl

theorem State.smb1Next_firmware (u : State) (free : u.smb.job = none) (fw : u.smb.fwWait = 0) :
    (u.modSmb (fun b => { b with fwWait := b.fwWait + 1 })).smb1Next = u.modSmb
      (fun b => { b with job := some { firmware := true, attempts := 1 } }) := by
  unfold State.smb1Next
  rw [State.modSmb_smb, free]
  dsimp only
  rw [if_pos (by omega)]
  rfl

theorem doSmb1Transfer_regs (s : State) (on : s.flag F.SMB1_CTRL.EN = true) : doSmb1Transfer false s
    = if s.flag F.SMB1_STAT.BUSY then s else ((s.setFlag F.SMB1_STAT.BUSY).modSmb (fun b => { b with regWait := true })).smb1Next := by
  unfold doSmb1Transfer
  rw [if_neg (not_not_intro on), if_neg Bool.false_ne_true]

theorem doSmb1Transfer_firmware (s : State) (on : s.flag F.SMB1_CTRL.EN = true) : doSmb1Transfer true s
    = (s.modSmb (fun b => { b with fwWait := b.fwWait + 1 })).smb1Next := by
  unfold doSmb1Transfer
  rw [if_neg (not_not_intro on), if_pos rfl]

/-- Settles O52. -/
theorem powerBusTransfersRetryAndEnd : Obligations.PowerBusTransfersRetryAndEnd := by
  intro s
  refine ⟨fun on free fw reg => ⟨fun busy => ?busy, fun quiet => ?starts, ?firmware⟩, fun j job lost => ?again,
    fun j b job held regs fw reg => ⟨fun frozen read four len few => ?good, ?nack, fun more => ?lost, fun beyond => ?gone, ?cleared, ?stuck,
      fun off => ?quiet, fun tmo => ?timeout⟩⟩
  case busy =>
    exact congrArg Host.Outcome.next ((doSmb1Transfer_regs s on).trans (if_pos busy))
  case starts =>
    have acts := (doSmb1Transfer_regs s on).trans ((if_neg (by simp [quiet])).trans
      ((s.setFlag F.SMB1_STAT.BUSY).smb1Next_regs ((congrArg Smb.job (State.setFlag_smb _ _ _ _ _)).trans free)
        ((congrArg Smb.fwWait (State.setFlag_smb _ _ _ _ _)).trans fw)))
    refine ⟨_, congrArg Host.Outcome.next acts, ?_, by rw [State.modSmb_smb], ?_,
      State.smb_back (State.modSmb_offRegs _ (State.setFlag_offRegs _ _ _ _ _))⟩
    · rw [State.modSmb_flag, State.flag_setFlag_same _ _ _ _ _ rfl (by decide)]
    · exact ((SameRegs.refl _ s).andFlag (by repeat constructor) (by omega)).of_regs (State.modSmb_regs _ _)
  case firmware =>
    exact congrArg Host.Outcome.next ((doSmb1Transfer_firmware s on).trans (s.smb1Next_firmware free fw))
  case again =>
    have acts : doSmb1Retry s = { s with smb := { s.smb with job := some { j with attempts := j.attempts + 1 }, lost := false } } := by
      unfold doSmb1Retry
      rw [job]
      exact if_pos lost
    exact congrArg Host.Outcome.next acts
  case good =>
    have acts := (doSmb1TransferDone_ends s j 0 b job held (by omega) (by omega)).trans (s.smb1End_good j b regs fw reg frozen read four len)
    obtain ⟨busy, attempts⟩ := ((s.modSmb (fun b => { b with job := none, lost := false })).smb1Data b).smb1Shown_stat 0 j.attempts few
    obtain ⟨done, result, -⟩ := ((s.modSmb (fun b => { b with job := none, lost := false })).smb1Data b).smb1Shown_done 0 j.attempts (by omega)
    obtain ⟨first, others⟩ := (s.modSmb (fun b => { b with job := none, lost := false })).smb1Data_read b len
    have smb := s.smb1Good_smb j b
    have whole : leAt b 0 4 = leNat b := by unfold leAt bytesAt; rw [List.drop_zero, List.take_append_of_le_length (by omega),
      List.take_of_length_le (by omega)]
    refine ⟨s.smb1Good j b, congrArg Host.Outcome.next acts, done, busy, result, attempts, by rw [smb], ?_, fun k one low => ?_, ?_⟩
    · exact (State.smb1Shown_rd _ _ _ _ _ _ (by decide)).trans (first.trans whole.symm)
    · exact (State.smb1Shown_rd _ _ _ _ _ _ (by decide)).trans (others k one low)
    · exact State.smb_back ((State.smb1Shown_offRegs _ _ _).trans (State.smb1Data_offRegs _ _))
  case nack =>
    obtain ⟨result, done, free, -⟩ := s.smb1Failed_stat j 1 (by omega)
    obtain ⟨counted, kept⟩ := s.smb1Failed_nack j
    exact ⟨s.smb1Failed j 1, congrArg Host.Outcome.next ((doSmb1TransferDone_ends s j 1 b job held (by omega) (by omega)).trans
      (s.smb1End_failed j 1 b regs (by omega))), result, done, free, counted, fun k _ => kept k⟩
  case lost =>
    have acts := (doSmb1TransferDone_lost s j b job held).trans (if_pos more)
    refine ⟨_, congrArg Host.Outcome.next acts, ?_, ?_, ?_, State.smb_back (State.modSmb_offRegs _ (State.count_offRegs _ _ _ _))⟩
    · rw [State.modSmb_smb, State.count_smb]
    · exact (State.modSmb_fld _ _ _ _ _).trans (s.fld_count_same _ _ _ (by decide) (by decide))
    · exact ((SameRegs.refl _ s).andCount (by repeat constructor) (by omega)).of_regs (State.modSmb_regs _ _)
  case gone =>
    obtain ⟨result, done, free, -⟩ := (s.count F.SMB1_CNT.ARB_LOST).smb1Failed_stat j 2 (by omega)
    exact ⟨_, congrArg Host.Outcome.next ((doSmb1TransferDone_lost s j b job held).trans ((if_neg (by omega)).trans
      (State.smb1End_failed _ j 2 [] regs (by omega)))), result, done, free⟩
  case cleared =>
    exact ⟨_, congrArg Host.Outcome.next (doSmb1Timeout_held s j true job), State.flag_setFlag_same _ _ _ _ _ rfl (by decide),
      (SameRegs.refl _ s).andFlag (by repeat constructor) (by omega), State.regs_back (State.setFlag_offRegs _ _ _ _ _)⟩
  case stuck =>
    obtain ⟨result, -, free, clear⟩ := (s.setFlag F.SMB1_STAT.BUS_CLEAR).smb1Failed_stat j 3 (by omega)
    exact ⟨_, congrArg Host.Outcome.next ((doSmb1Timeout_held s j false job).trans (State.smb1End_failed _ j 3 [] regs (by omega))),
      clear.trans (State.flag_setFlag_same _ _ _ _ _ rfl (by decide)), result, free⟩
  case quiet =>
    exact congrArg Host.Outcome.next ((doSmb1Timeout_clock s j job).trans (if_neg (by rw [off]; exact Bool.false_ne_true)))
  case timeout =>
    obtain ⟨result, done, free, -⟩ := s.smb1Failed_stat j 3 (by omega)
    exact ⟨_, congrArg Host.Outcome.next ((doSmb1Timeout_clock s j job).trans ((if_pos tmo).trans (s.smb1End_failed j 3 [] regs (by omega)))),
      result, done, free⟩
end Sys2Proof.Machine
end

section
/-! PROOFS. The commands of the board controller. -/
namespace Sys2Proof.Machine

/-! Taking the bits of a mask out of a number. -/

theorem testBit_sub_and (p m i : Nat) : (p - (p &&& m)).testBit i = (p.testBit i && !m.testBit i) := by
  have le : p &&& m ≤ p := Nat.and_le_left
  have low : (p &&& m) % 2 = 1 ↔ p % 2 = 1 ∧ m % 2 = 1 := by
    simp only [Nat.mod_two_eq_one_iff_testBit_zero, Nat.testBit_and, Bool.and_eq_true]
  induction i generalizing p m with
  | zero =>
    have is : (p - (p &&& m)) % 2 = 1 ↔ p % 2 = 1 ∧ ¬ m % 2 = 1 := by omega
    simp only [Nat.mod_two_eq_one_iff_testBit_zero] at is
    cases hp : p.testBit 0 <;> cases hm : m.testBit 0 <;> simp_all
  | succ i ih =>
    have half : (p - (p &&& m)) / 2 = p / 2 - (p / 2 &&& m / 2) := by
      rw [← Nat.and_div_two]
      omega
    rw [Nat.testBit_succ, half, ih (p / 2) (m / 2) Nat.and_le_left, ← Nat.testBit_succ, ← Nat.testBit_succ]
    simp only [Nat.mod_two_eq_one_iff_testBit_zero, Nat.testBit_and, Bool.and_eq_true]

/-! A message of SMB[0] (R510): counted where it acts, refused where SYS does not run. -/

/-- The message counts. -/
def State.smbCounted (s : State) : State := s.count F.SMB0_CNT.MSG

theorem State.smbCounted_offRegs (s : State) : s.smbCounted.offRegs = s.offRegs := State.count_offRegs _ _ _ _

theorem State.smbCounted_rd (s : State) (k : RegKind) (i j : Nat) (h : k ≠ .SMB0_CNT) : s.smbCounted.rd k i j = s.rd k i j :=
  State.rd_count_kind _ _ _ _ _ _ _ h

theorem State.smbCounted_fld (s : State) (f : Fld) (i j : Nat) (h : f.reg ≠ .SMB0_CNT) : s.smbCounted.fld f i j = s.fld f i j :=
  State.fld_count_kind _ _ _ _ _ _ _ h

theorem State.sec_of_offRegs {s t : State} (h : t.offRegs = s.offRegs) : t.sec = s.sec ∧ t.fcl = s.fcl ∧ t.out = s.out ∧ t.smb = s.smb
    ∧ t.lup = s.lup :=
  ⟨(congrArg State.sec h :), (congrArg State.fcl h :), (congrArg State.out h :), (congrArg State.smb h :), (congrArg State.lup h :)⟩

theorem State.smbCounted_sysRuns (s : State) : s.smbCounted.sysRuns = s.sysRuns := by
  obtain ⟨sec, fcl, -⟩ := State.sec_of_offRegs s.smbCounted_offRegs
  unfold State.sysRuns State.sysStopped State.clockUp State.bootStage
  rw [sec, fcl, s.smbCounted_fld _ _ _ (by decide)]

theorem State.smbCounted_status (s : State) : s.smbCounted.smbStatus = s.smbStatus := by
  obtain ⟨sec, fcl, -⟩ := State.sec_of_offRegs s.smbCounted_offRegs
  have alert : s.smbCounted.flag F.SMB0_STAT.ALERT = s.flag F.SMB0_STAT.ALERT := congrArg (· == 1) (s.smbCounted_fld _ _ _ (by decide))
  unfold State.smbStatus State.powerState State.bootStage
  rw [s.smbCounted_sysRuns, sec, fcl, alert, s.smbCounted_fld F.SEC_BOOT_STAT.STAGE _ _ (by decide)]

theorem State.smbAct_standby (s : State) (f : State → State) : s.smbAct true f = f s.smbCounted := if_pos (Or.inl rfl)

theorem State.smbAct_runs (s : State) (f : State → State) (runs : s.sysRuns = true) : s.smbAct false f = f s.smbCounted := if_pos (Or.inr runs)

/-- A message that ends with an error: its flag, and the count of errors. -/
def State.smbErred (s : State) (f : Fld) : State := (s.setFlag f).count F.SMB0_CNT.ERR

theorem State.smbAct_stopped (s : State) (f : State → State) (stopped : s.sysRuns = false) : s.smbAct false f = s.smbErred F.SMB0_STAT.CMD_NACK :=
  if_neg (by simp [stopped])

theorem State.smbErred_shows (s : State) (f : Fld) (stat : f.reg = .SMB0_STAT) (one : f.hi = f.lo) (low : f.hi < 32) :
    (s.smbErred f).flag f = true ∧ (s.smbErred f).fld F.SMB0_CNT.ERR = (s.count F.SMB0_CNT.ERR).fld F.SMB0_CNT.ERR
    ∧ SameRegs [⟨.SMB0_CNT, 0, 0⟩, ⟨.SMB0_STAT, 0, 0⟩] s (s.smbErred f) ∧ (s.smbErred f).offRegs = s.offRegs := by
  unfold State.smbErred
  refine ⟨?_, ?_, ?_, ?_⟩
  · exact (congrArg (· == 1) (State.fld_count_kind _ F.SMB0_CNT.ERR f _ _ _ _ (by rw [stat]; decide))).trans
      (State.flag_setFlag_same _ _ _ _ _ one low)
  · rw [State.fld_count_same _ _ _ _ (by decide) (by decide), State.fld_count_same _ _ _ _ (by decide) (by decide),
      State.fld_setFlag_kind _ _ _ _ _ _ _ _ (by rw [stat]; decide)]
  · exact ((SameRegs.refl _ s).andFlag (by rw [stat]; repeat constructor) (by omega)).andCount (by repeat constructor) (by omega)
  · rw [State.count_offRegs, State.setFlag_offRegs]

theorem State.smbSend_eq {s m : State} (h : m.out = s.out) (b : List Byte) : m.smbSend b = { m with out := s.out ++ [.smb b] } := by
  unfold State.smbSend State.emit
  rw [h]

theorem State.smbCounted_send (s : State) (b : List Byte) : s.smbCounted.smbSend b = { s.smbCounted with out := s.out ++ [.smb b] } :=
  State.smbSend_eq (State.sec_of_offRegs s.smbCounted_offRegs).2.2.1 b

/-! The commands, one by one. -/

theorem doStatus_eq (s : State) : doStatus s = { s.smbCounted with out := s.out ++ [.smb s.smbStatus] } := by
  unfold doStatus
  rw [s.smbAct_standby]
  dsimp only
  rw [s.smbCounted_status, s.smbCounted_send]

theorem State.smbStatus_length (s : State) : s.smbStatus.length = 4 := by
  unfold State.smbStatus
  simp [leBytes]

theorem State.smbStatus_head (s : State) : s.smbStatus.head? = some (BitVec.ofNat 8 s.powerState) := (rfl)

theorem State.powerState_off (s : State) (off : s.sec.pwrGood = false) : s.powerState = 0 := if_pos (by simp [off])

theorem State.powerState_safe (s : State) (on : s.sec.pwrGood = true) (safe : s.fcl.safe = true) : s.powerState = 4 :=
  (if_neg (by simp [on])).trans (if_pos safe)

theorem doDeviceId_eq (s : State) : doDeviceId s = { s.smbCounted with out := s.out ++ [.smb [0x11, 0x48, 0x0B, 0xDA]] } := by
  unfold doDeviceId
  rw [s.smbAct_standby]
  exact s.smbCounted_send _

theorem doWakeIn_on (t : State) (on : t.sec.pwrGood = true) : doWakeIn t = t := if_pos (Or.inl on)

theorem doWakeIn_standby (t : State) (off : t.sec.pwrGood = false) (low : t.sec.pwrEn = false) :
    doWakeIn t = ({ t with sec := { t.sec with pwrEn := true } } : State).alert 3 := if_neg (by simp [off, low])

theorem doPowerCtrlWake_on (s : State) (on : s.sec.pwrGood = true) : doPowerCtrlWake s = s.smbCounted := by
  unfold doPowerCtrlWake
  rw [s.smbAct_standby, doWakeIn_on _ ((congrArg Sec.pwrGood (State.sec_of_offRegs s.smbCounted_offRegs).1).trans on)]

theorem doPowerCtrlWake_standby (s : State) (off : s.sec.pwrGood = false) (low : s.sec.pwrEn = false) :
    doPowerCtrlWake s = ({ s.smbCounted with sec := { s.sec with pwrEn := true } } : State).alert 3 := by
  obtain ⟨sec, -⟩ := State.sec_of_offRegs s.smbCounted_offRegs
  unfold doPowerCtrlWake
  rw [s.smbAct_standby, doWakeIn_standby _ ((congrArg Sec.pwrGood sec).trans off) ((congrArg Sec.pwrEn sec).trans low), sec]

theorem doPowerCtrlStandby_safe (s : State) (safe : s.fcl.safe = true) : doPowerCtrlStandby s = s.smbCounted.setFlag F.SMB0_STAT.STBY_REF := by
  unfold doPowerCtrlStandby
  rw [s.smbAct_standby]
  exact if_pos ((congrArg Fcl.safe (State.sec_of_offRegs s.smbCounted_offRegs).2.1).trans safe)

theorem doPowerCtrlStandby_runs (s : State) (safe : s.fcl.safe = false) (runs : s.sysRuns = true) :
    doPowerCtrlStandby s = { s.smbCounted with sec := { s.sec with standby := true } } := by
  obtain ⟨sec, fcl, -⟩ := State.sec_of_offRegs s.smbCounted_offRegs
  unfold doPowerCtrlStandby
  rw [s.smbAct_standby, if_neg (by rw [fcl, safe]; exact Bool.false_ne_true), if_pos (s.smbCounted_sysRuns.trans runs)]
  unfold State.modSec
  rw [sec]

theorem doTemp_eq (s : State) (runs : s.sysRuns = true) :
    doTemp s = { s.smbCounted with out := s.out ++ [.smb ((List.range 12).flatMap (fun i => leBytes 2 (s.fld F.EGV_TEMP.TEMP i)))] } := by
  have temps (i : Nat) : s.smbCounted.fld F.EGV_TEMP.TEMP i = s.fld F.EGV_TEMP.TEMP i := s.smbCounted_fld _ _ _ (by decide)
  unfold doTemp
  rw [s.smbAct_runs _ runs]
  simp only [temps]
  exact s.smbCounted_send _

theorem doFaults_eq (s : State) (runs : s.sysRuns = true) : ∃ u : State, u = s.smbCounted.settleMonitors ∧ doFaults s
    = { u with out := u.out ++ [.smb (leBytes 4 (u.rd .FCL_STATUS_LO) ++ leBytes 4 (u.rd .FCL_STATUS_HI) ++ leBytes 4 (u.liveWord false)
        ++ leBytes 4 (u.liveWord true))] } :=
  ⟨_, rfl, s.smbAct_runs _ runs⟩

theorem doRegPtr_good (s : State) (o l : Nat) (runs : s.sysRuns = true) (good : ¬ (o % 4 ≠ 0 ∨ l % 4 ≠ 0 ∨ l < 4 ∨ 252 < l)) :
    doRegPtr o l s = { s.smbCounted with smb := { s.smb with ptr := some (o, l) } } := by
  unfold doRegPtr
  rw [if_neg fun h => good h.2, s.smbAct_runs _ runs, (State.sec_of_offRegs s.smbCounted_offRegs).2.2.2.1]

theorem doRegPtr_bad (s : State) (o l : Nat) (runs : s.sysRuns = true) (bad : o % 4 ≠ 0 ∨ l % 4 ≠ 0 ∨ l < 4 ∨ 252 < l) :
    doRegPtr o l s = s.count F.SMB0_CNT.ERR := if_pos ⟨runs, bad⟩

theorem doRegPtr_stopped (s : State) (o l : Nat) (stopped : s.sysRuns = false) : doRegPtr o l s = s.smbErred F.SMB0_STAT.CMD_NACK := by
  unfold doRegPtr
  rw [if_neg (by simp [stopped]), s.smbAct_stopped _ stopped]

theorem doLupPtr_stopped (s : State) (i : Nat) (stopped : s.sysRuns = false) : doLupPtr i s = s.smbErred F.SMB0_STAT.CMD_NACK := by
  unfold doLupPtr
  rw [if_neg (by simp [stopped]), s.smbAct_stopped _ stopped]

theorem doLupPtr_good (s : State) (i : Nat) (runs : s.sysRuns = true) (low : i ≤ 4095) :
    doLupPtr i s = { s.smbCounted with smb := { s.smb with lupPtr := i } } := by
  unfold doLupPtr
  rw [if_neg (by omega), s.smbAct_runs _ runs, (State.sec_of_offRegs s.smbCounted_offRegs).2.2.2.1]

theorem doRegRead_stopped (s : State) (stopped : s.sysRuns = false) : doRegRead s = s.smbErred F.SMB0_STAT.CMD_NACK := by
  unfold doRegRead
  split
  · rw [if_neg (by simp [stopped]), s.smbAct_stopped _ stopped]
  · exact s.smbAct_stopped _ stopped

theorem doRegRead_none (s : State) (runs : s.sysRuns = true) (none : s.smb.ptr = none) :
    doRegRead s = (s.setFlag F.SMB0_STAT.ACC_ERR).smbSend [0] := by
  unfold doRegRead
  rw [none]
  exact if_pos runs

/-- A read of one register word. -/
theorem doRegRead_word (s : State) (o : Nat) (runs : s.sysRuns = true) (ptr : s.smb.ptr = some (o, 4)) :
    doRegRead s = ({ (s.smbCounted.smbWord o).2 with
      smb := { (s.smbCounted.smbWord o).2.smb with ptr := some ((o + 4) % 2 ^ 32, 4) } } : State).smbSend
      (leBytes 1 4 ++ (s.smbCounted.smbWord o).1) := by
  unfold doRegRead
  rw [ptr]
  exact s.smbAct_runs _ runs

theorem State.smbWord_register (m : State) (o : Nat) (r : Nat × State) (open' : smbExcluded o = false) (reg : bufAt o = none)
    (word : m.readWord o = some r) : m.smbWord o = (leBytes 4 r.1, r.2) := by
  unfold State.smbWord
  dsimp only
  rw [if_neg (by simp [open']), reg]
  dsimp only
  rw [word]

theorem State.smbWord_excluded (m : State) (o : Nat) (excluded : smbExcluded o = true) :
    m.smbWord o = (List.replicate 4 0xFF, m.setFlag F.SMB0_STAT.ACC_ERR) := if_pos excluded

theorem doRegWrite_stopped (s : State) (o : Nat) (b : List Byte) (stopped : s.sysRuns = false) : doRegWrite o b s = s.smbErred F.SMB0_STAT.CMD_NACK :=
  (if_pos (by simp [stopped])).trans (s.smbAct_stopped _ stopped)

theorem doRegWrite_bad (s : State) (o : Nat) (b : List Byte) (runs : s.sysRuns = true) (four : b.length = 4)
    (bad : o % 4 ≠ 0 ∨ smbExcluded o = true) : doRegWrite o b s = s.smbErred F.SMB0_STAT.ACC_ERR := by
  unfold doRegWrite
  dsimp only
  rw [if_neg (not_not_intro runs), four, if_neg (by decide), if_pos]
  · rfl
  · rcases bad with odd | excluded
    · exact Or.inl odd
    · refine Or.inr fun all => ?_
      have here := List.all_eq_true.mp all 0 (by simp)
      unfold smbWritable at here
      simp [excluded] at here

theorem doRegWrite_register (s : State) (o : Nat) (b : List Byte) (runs : s.sysRuns = true) (four : b.length = 4) (word : o % 4 = 0)
    (open' : smbExcluded o = false) (reg : bufAt o = none) (known : findReg o ≠ none) :
    doRegWrite o b s = (doRegisterWrite .smb0 o (leAt b 0 4) s).count F.SMB0_CNT.MSG := by
  have writable : smbWritable o = true := by
    unfold smbWritable
    rw [open', reg]
    exact Option.isSome_iff_ne_none.mpr known
  have all : (List.range (4 / 4)).all (fun k => smbWritable (o + 4 * k)) = true := by
    rw [List.all_eq_true]
    intro k mem
    obtain rfl : k = 0 := by simpa using mem
    exact writable
  unfold doRegWrite
  dsimp only
  rw [if_neg (not_not_intro runs), four, if_neg (by decide), if_neg (by simp only [word, all]; decide)]
  refine congrArg (fun t : State => t.count F.SMB0_CNT.MSG) ?_
  show (match bufAt o with
    | some _ => s.writeBuf o (bytesAt b 0 4)
    | none => doRegisterWrite .smb0 o (leAt b 0 4) s) = _
  rw [reg]

theorem State.lupSlot_of_lup {s t : State} (h : t.lup = s.lup) (i : Nat) : t.lupSlot i = s.lupSlot i := by
  unfold State.lupSlot
  rw [h]

theorem doLupRead_eq (s : State) (c : Nat) (runs : s.sysRuns = true) : doLupRead c s = { s.smbCounted.addTo F.LUP_CNT.CORR c with out := s.out ++
    [.smb (leBytes 1 224 ++ (List.range 7).flatMap (fun k => s.lupSlot ((s.smb.lupPtr + k) % 4096)))] } := by
  obtain ⟨-, -, out, smb, lup⟩ := State.sec_of_offRegs s.smbCounted_offRegs
  have slots (i : Nat) : s.smbCounted.lupSlot i = s.lupSlot i := State.lupSlot_of_lup lup i
  unfold doLupRead
  rw [s.smbAct_runs _ runs]
  dsimp only
  rw [State.smbSend_eq (((State.sec_of_offRegs (State.addTo_offRegs s.smbCounted F.LUP_CNT.CORR c 0 0)).2.2.1).trans out), smb]
  simp only [slots]

/-! The alerts (R517, R518). -/

/-- R517: the causes named go, except that of a lasting safe state. -/
def State.alertsLeft (s : State) (mask : Nat) : Nat := s.rd .SMB0_ALERT - (s.rd .SMB0_ALERT &&& mask) ||| b2n s.fcl.safe

theorem State.clearAlerts_eq (t : State) (mask : Nat) : t.clearAlerts mask = t.wr .SMB0_ALERT (t.alertsLeft mask) := (rfl)

theorem State.alertsLeft_lt (s : State) (mask : Nat) : s.alertsLeft mask < 2 ^ 32 := by
  have low := s.rd_lt .SMB0_ALERT 0 0
  exact Nat.or_lt_two_pow (by omega) (by cases s.fcl.safe <;> decide)

theorem testBit_b2n (b : Bool) (i : Nat) : (b2n b).testBit i = (b && i == 0) := by
  cases b
  · exact Nat.zero_testBit i
  · rw [Bool.true_and, show b2n true = 2 ^ 0 from rfl, Nat.testBit_two_pow]
    cases i <;> rfl

theorem State.alertsLeft_bit (s : State) (mask i : Nat) :
    bit (s.alertsLeft mask) i = (bit (s.rd .SMB0_ALERT) i && !bit mask i || s.fcl.safe && i == 0) := by
  unfold State.alertsLeft
  rw [bit_eq_testBit, bit_eq_testBit, bit_eq_testBit, Nat.testBit_or, testBit_sub_and, testBit_b2n]

theorem State.alertsLeft_all (s : State) : s.alertsLeft (s.rd .SMB0_ALERT) = b2n s.fcl.safe := by
  unfold State.alertsLeft
  rw [Nat.and_self, Nat.sub_self, Nat.zero_or]

theorem State.alertsLeft_counted (s : State) (mask : Nat) : s.smbCounted.alertsLeft mask = s.alertsLeft mask := by
  unfold State.alertsLeft
  rw [s.smbCounted_rd _ _ _ (by decide), (State.sec_of_offRegs s.smbCounted_offRegs).2.1]

theorem doAlertClear_eq (s : State) (mask : Nat) : doAlertClear mask s = s.smbCounted.wr .SMB0_ALERT (s.alertsLeft mask) := by
  unfold doAlertClear
  rw [s.smbAct_standby, State.clearAlerts_eq, s.alertsLeft_counted]

theorem State.alertsCleared_same (s : State) (v : Nat) : SameRegs [⟨.SMB0_CNT, 0, 0⟩, ⟨.SMB0_ALERT, 0, 0⟩] s (s.smbCounted.wr .SMB0_ALERT v) :=
  ((SameRegs.refl _ s).andCount (by repeat constructor) (by omega)).andWr (by repeat constructor) (by omega)

theorem State.alertsCleared_offRegs (s : State) (v : Nat) : (s.smbCounted.wr .SMB0_ALERT v).offRegs = s.offRegs :=
  (State.wr_offRegs _ _ _ _ _).trans s.smbCounted_offRegs

/-- What the commands of SMB[0] send is put beside what was sent before. -/
def State.sent (s t : State) (b : List Byte) : State := { t with out := s.out ++ [.smb b] }

theorem State.sent_back {s t : State} (b : List Byte) (h : t.offRegs = s.offRegs) : { s.sent t b with regs := s.regs, out := s.out } = s :=
  (congrArg (fun u : State => { u with regs := s.regs, out := s.out }) h :)

theorem State.sent_regs (s t : State) (b : List Byte) : (s.sent t b).regs = t.regs := (rfl)

theorem State.sent_wr (s t : State) (b : List Byte) (k : RegKind) (v i j : Nat) : (s.sent t b).wr k v i j = s.sent (t.wr k v i j) b := (rfl)

theorem State.sent_alertsLeft (s t : State) (b : List Byte) (mask : Nat) : (s.sent t b).alertsLeft mask = t.alertsLeft mask := (rfl)

theorem doAlertStatus_eq (s : State) : doAlertStatus s
    = s.sent (s.smbCounted.wr .SMB0_ALERT (b2n s.fcl.safe)) (leBytes 1 (s.rd .SMB0_ALERT)) := by
  have alerts := s.smbCounted_rd .SMB0_ALERT 0 0 (by decide)
  have send : s.smbCounted.smbSend (leBytes 1 (s.rd .SMB0_ALERT)) = s.sent s.smbCounted (leBytes 1 (s.rd .SMB0_ALERT)) := s.smbCounted_send _
  unfold doAlertStatus
  rw [s.smbAct_standby, alerts, send, State.clearAlerts_eq, State.sent_alertsLeft, s.alertsLeft_counted, s.alertsLeft_all, State.sent_wr]

theorem doAlertResponse_won (s : State) (alert : s.flag F.SMB0_STAT.ALERT = true) : doAlertResponse true s
    = s.sent ((s.setFlag F.SMB0_STAT.ALERT false).setFlag F.SMB0_STAT.ARA_WON) (leBytes 1 (2 * (0x58 + s.sec.smbAddr))) := by
  have double : (0x58 + s.sec.smbAddr) <<< 1 = 2 * (0x58 + s.sec.smbAddr) := by omega
  unfold doAlertResponse
  rw [if_pos ⟨alert, rfl⟩, double, State.smbSend_eq (s := s) (by rw [State.setFlag_out, State.setFlag_out])]
  rfl

theorem doSmb0ProtocolError_counted (s : State) (x : SmbError × Fld) (one : x ∈ [(SmbError.proto, F.SMB0_STAT.PROTO), (.rsAck, F.SMB0_STAT.RS_ACK),
    (.short, F.SMB0_STAT.SHORT), (.pec, F.SMB0_STAT.PEC_ERR), (.cmdNack, F.SMB0_STAT.CMD_NACK)])
    (mode : x.1 = .pec → s.fld F.SMB0_CTRL.PEC_MODE ≠ 0) :
    doSmb0ProtocolError x.1 s = s.smbErred x.2 ∧ x.2.reg = .SMB0_STAT ∧ x.2.hi = x.2.lo ∧ x.2.hi < 32 := by
  simp only [List.mem_cons, List.not_mem_nil, or_false] at one
  obtain rfl | rfl | rfl | rfl | rfl := one
  · exact ⟨rfl, rfl, rfl, by decide⟩
  · exact ⟨rfl, rfl, rfl, by decide⟩
  · exact ⟨rfl, rfl, rfl, by decide⟩
  · refine ⟨?_, rfl, rfl, by decide⟩
    show (s.setFlag (if s.fld F.SMB0_CTRL.PEC_MODE = 0 then F.SMB0_STAT.PROTO else F.SMB0_STAT.PEC_ERR)).smbDiscard = _
    rw [if_neg (mode rfl)]
    rfl
  · exact ⟨rfl, rfl, rfl, by decide⟩

/-- Nothing was held for an injector before the error, and nothing is held after it. -/
theorem State.erred_uncut (s : State) (f : Fld) (free : s.noHeld) : (s.smbErred f).releaseDisarmed = s.smbErred f := by
  have fcl : (s.smbErred f).fcl = s.fcl :=
    (State.sec_of_offRegs ((State.count_offRegs _ _ _ _).trans (State.setFlag_offRegs _ _ _ _ _))).2.1
  exact (s.smbErred f).releaseDisarmed_uncut fun i low => by rw [fcl]; exact (free i low).2

theorem doTemp_stopped (s : State) (stopped : s.sysRuns = false) : doTemp s = s.smbErred F.SMB0_STAT.CMD_NACK := by
  unfold doTemp
  rw [s.smbAct_stopped _ stopped]

theorem doFaults_stopped (s : State) (stopped : s.sysRuns = false) : doFaults s = s.smbErred F.SMB0_STAT.CMD_NACK := by
  unfold doFaults
  rw [s.smbAct_stopped _ stopped]

theorem doLupRead_stopped (s : State) (c : Nat) (stopped : s.sysRuns = false) : doLupRead c s = s.smbErred F.SMB0_STAT.CMD_NACK := by
  unfold doLupRead
  rw [s.smbAct_stopped _ stopped]

/-- What answers only while SYS runs is refused in one way. -/
theorem State.stopped_refuse (s : State) (stopped : s.sysRuns = false) (o : BitVec 32) (l : BitVec 8) (b : List Byte) (i : BitVec 16) :
    exec .temp s = .next (s.smbErred F.SMB0_STAT.CMD_NACK) ∧ exec .faults s = .next (s.smbErred F.SMB0_STAT.CMD_NACK)
    ∧ exec (.regPtr o l) s = .next (s.smbErred F.SMB0_STAT.CMD_NACK) ∧ exec .regRead s = .next (s.smbErred F.SMB0_STAT.CMD_NACK)
    ∧ (s.noHeld → exec (.regWrite o b) s = .next (s.smbErred F.SMB0_STAT.CMD_NACK))
    ∧ exec (.lupPtr i) s = .next (s.smbErred F.SMB0_STAT.CMD_NACK) ∧ (∀ c, exec (.lupRead c) s = .next (s.smbErred F.SMB0_STAT.CMD_NACK)) := by
  refine ⟨?_, ?_, ?_, ?_, fun free => ?_, ?_, fun c => ?_⟩
  · exact congrArg Host.Outcome.next (doTemp_stopped s stopped)
  · exact congrArg Host.Outcome.next (doFaults_stopped s stopped)
  · exact congrArg Host.Outcome.next (doRegPtr_stopped s _ _ stopped)
  · exact congrArg Host.Outcome.next (doRegRead_stopped s stopped)
  · refine congrArg Host.Outcome.next ((congrArg State.releaseDisarmed (doRegWrite_stopped s _ b stopped)).trans ?_)
    exact State.erred_uncut s F.SMB0_STAT.CMD_NACK free
  · exact congrArg Host.Outcome.next (doLupPtr_stopped s _ stopped)
  · exact congrArg Host.Outcome.next (doLupRead_stopped s _ stopped)

/-- The two registers of SMB[0] that an error changes. -/
theorem State.erred_back (s : State) (f : Fld) : { s.smbErred f with regs := s.regs } = s :=
  State.regs_back ((State.count_offRegs _ _ _ _).trans (State.setFlag_offRegs _ _ _ _ _))

/-- The two counts of SMB[0]. -/
theorem State.smbCounts_move (s : State) :
    s.smbCounted.fld F.SMB0_CNT.MSG = min 65535 (s.fld F.SMB0_CNT.MSG + 1)
    ∧ (s.count F.SMB0_CNT.ERR).fld F.SMB0_CNT.ERR = min 65535 (s.fld F.SMB0_CNT.ERR + 1) ∧ SameRegs [⟨.SMB0_CNT, 0, 0⟩] s s.smbCounted
    ∧ SameRegs [⟨.SMB0_CNT, 0, 0⟩] s (s.count F.SMB0_CNT.ERR) ∧ { s.smbCounted with regs := s.regs } = s
    ∧ { s.count F.SMB0_CNT.ERR with regs := s.regs } = s :=
  ⟨s.fld_count_same _ _ _ (by decide) (by decide), s.fld_count_same _ _ _ (by decide) (by decide),
    (SameRegs.refl _ s).andCount (by repeat constructor) (by omega), (SameRegs.refl _ s).andCount (by repeat constructor) (by omega),
    State.regs_back s.smbCounted_offRegs, State.regs_back (State.count_offRegs _ _ _ _)⟩

theorem exec_powerCtrlStandby_safe (s : State) (safe : s.fcl.safe = true) : ∃ t, exec .powerCtrlStandby s = .next t
    ∧ t.flag F.SMB0_STAT.STBY_REF = true ∧ t.sec = s.sec ∧ SameRegs [⟨.SMB0_CNT, 0, 0⟩, ⟨.SMB0_STAT, 0, 0⟩] s t ∧ { t with regs := s.regs } = s := by
  have off : (s.smbCounted.setFlag F.SMB0_STAT.STBY_REF).offRegs = s.offRegs := (State.setFlag_offRegs _ _ _ _ _).trans s.smbCounted_offRegs
  exact ⟨_, congrArg Host.Outcome.next (doPowerCtrlStandby_safe s safe), State.flag_setFlag_same _ _ _ _ _ rfl (by decide),
    (State.sec_of_offRegs off).1, ((SameRegs.refl _ s).andCount (by repeat constructor) (by omega)).andFlag (by repeat constructor) (by omega),
    State.regs_back off⟩

theorem exec_regRead_none (s : State) (runs : s.sysRuns = true) (none : s.smb.ptr = none) : ∃ t, exec .regRead s = .next t
    ∧ t.flag F.SMB0_STAT.ACC_ERR = true ∧ t.out = s.out ++ [.smb [0]] ∧ SameRegs [⟨.SMB0_STAT, 0, 0⟩] s t
    ∧ { t with regs := s.regs, out := s.out } = s := by
  have acts : doRegRead s = s.sent (s.setFlag F.SMB0_STAT.ACC_ERR) [0] :=
    (doRegRead_none s runs none).trans (State.smbSend_eq (State.setFlag_out _ _ _ _ _) _)
  refine ⟨_, congrArg Host.Outcome.next acts, ?_, rfl, ?_, State.sent_back _ (State.setFlag_offRegs _ _ _ _ _)⟩
  · exact (State.flag_of_regs (State.sent_regs s _ _) _ _ _).trans (State.flag_setFlag_same _ _ _ _ _ rfl (by decide))
  · exact ((SameRegs.refl _ s).andFlag (by repeat constructor) (by omega)).of_regs (State.sent_regs _ _ _)

theorem exec_regRead_register (s : State) (o : Nat) (r : Nat × State) (runs : s.sysRuns = true) (ptr : s.smb.ptr = some (o, 4))
    (inside : smbExcluded o = false) (reg : bufAt o = none) (word : s.smbCounted.readWord o = some r) :
    exec .regRead s = .next { r.2 with smb := { r.2.smb with ptr := some ((o + 4) % 2 ^ 32, 4) }
                                       out := r.2.out ++ [.smb (leBytes 1 4 ++ leBytes 4 r.1)] } := by
  refine congrArg Host.Outcome.next ((doRegRead_word s o runs ptr).trans ?_)
  rw [State.smbWord_register _ o r inside reg word]
  rfl

/-- The pointer moves on. -/
def State.ptrMoved (s : State) (o : Nat) : State := { s with smb := { s.smb with ptr := some ((o + 4) % 2 ^ 32, 4) } }

theorem State.ptrMoved_regs (s : State) (o : Nat) : (s.ptrMoved o).regs = s.regs := (rfl)

theorem State.ptrMoved_out (s : State) (o : Nat) : (s.ptrMoved o).out = s.out := (rfl)

theorem exec_regRead_excluded (s : State) (o : Nat) (runs : s.sysRuns = true) (ptr : s.smb.ptr = some (o, 4)) (excluded : smbExcluded o = true) :
    ∃ t, exec .regRead s = .next t ∧ t.flag F.SMB0_STAT.ACC_ERR = true ∧ t.out = s.out ++ [.smb [4, 0xFF, 0xFF, 0xFF, 0xFF]]
      ∧ t.smb.ptr = some ((o + 4) % 2 ^ 32, 4) ∧ SameRegs [⟨.SMB0_CNT, 0, 0⟩, ⟨.SMB0_STAT, 0, 0⟩] s t := by
  have acts := doRegRead_word s o runs ptr
  rw [s.smbCounted.smbWord_excluded o excluded] at acts
  have out : ((s.smbCounted.setFlag F.SMB0_STAT.ACC_ERR).ptrMoved o).out = s.out :=
    (State.ptrMoved_out _ _).trans (State.sec_of_offRegs ((State.setFlag_offRegs _ _ _ _ _).trans s.smbCounted_offRegs)).2.2.1
  have acts : doRegRead s = s.sent ((s.smbCounted.setFlag F.SMB0_STAT.ACC_ERR).ptrMoved o) [4, 0xFF, 0xFF, 0xFF, 0xFF] :=
    acts.trans (State.smbSend_eq out _)
  have regs := (State.sent_regs s ((s.smbCounted.setFlag F.SMB0_STAT.ACC_ERR).ptrMoved o) [4, 0xFF, 0xFF, 0xFF, 0xFF]).trans
    (State.ptrMoved_regs (s.smbCounted.setFlag F.SMB0_STAT.ACC_ERR) o)
  refine ⟨_, congrArg Host.Outcome.next acts, ?_, rfl, rfl, ?_⟩
  · exact (State.flag_of_regs regs _ _ _).trans (State.flag_setFlag_same _ _ _ _ _ rfl (by decide))
  · exact (((SameRegs.refl _ s).andCount (by repeat constructor) (by omega)).andFlag (by repeat constructor) (by omega)).of_regs regs

theorem exec_regWrite_register (s : State) (o : BitVec 32) (a : BitVec 26) (b : List Byte) (runs : s.sysRuns = true) (four : b.length = 4)
    (same : a.toNat = o.toNat) (word : o.toNat % 4 = 0) (inside : smbExcluded o.toNat = false) (reg : bufAt o.toNat = none)
    (known : findReg o.toNat ≠ none) : ∃ u : State, exec (.regWrite o b) s = .next (u.count F.SMB0_CNT.MSG).releaseDisarmed
      ∧ exec (.registerWrite .smb0 a (BitVec.ofNat 32 (leAt b 0 4))) s = .next u.releaseDisarmed := by
  have fits : (BitVec.ofNat 32 (leAt b 0 4)).toNat = leAt b 0 4 :=
    (BitVec.toNat_ofNat _ _).trans (Nat.mod_eq_of_lt ((leAt_lt b 0 4).trans_eq (by norm_num)))
  refine ⟨doRegisterWrite .smb0 o.toNat (leAt b 0 4) s,
    congrArg (fun t => Host.Outcome.next (State.releaseDisarmed t)) (doRegWrite_register s _ b runs four word inside reg known), ?_⟩
  show Host.Outcome.next (doRegisterWrite .smb0 a.toNat (BitVec.ofNat 32 (leAt b 0 4)).toNat s).releaseDisarmed = _
  rw [same, fits]

theorem exec_regWrite_bad (s : State) (o : BitVec 32) (b : List Byte) (runs : s.sysRuns = true) (four : b.length = 4) (free : s.noHeld)
    (bad : o.toNat % 4 ≠ 0 ∨ smbExcluded o.toNat = true) : exec (.regWrite o b) s = .next (s.smbErred F.SMB0_STAT.ACC_ERR) :=
  congrArg Host.Outcome.next ((congrArg State.releaseDisarmed (doRegWrite_bad s _ b runs four bad)).trans (s.erred_uncut _ free))

/-- Settles O51. -/
theorem boardControllerCommandsAnswer : Obligations.BoardControllerCommandsAnswer := by
  intro s
  have errs (f : Fld) (stat : f.reg = .SMB0_STAT) (one : f.hi = f.lo) (low : f.hi < 32) := s.smbErred_shows f stat one low
  refine ⟨s.smbCounts_move, congrArg Host.Outcome.next (doStatus_eq s), s.smbStatus_length, fun off => ?_, fun on safe => ?_,
    congrArg Host.Outcome.next (doDeviceId_eq s), fun on => congrArg Host.Outcome.next (doPowerCtrlWake_on s on),
    fun off low => congrArg Host.Outcome.next (doPowerCtrlWake_standby s off low), exec_powerCtrlStandby_safe s,
    fun safe runs => congrArg Host.Outcome.next (doPowerCtrlStandby_runs s safe runs), fun stopped o l b i => ?stopped, fun runs => ?runs,
    ?status, fun k => ?clear, rfl, fun alert => ⟨?loses, ?wins⟩, fun off => ?quiet, fun on => ?timeout, fun x one mode => ?errors, ?overread⟩
  · rw [s.smbStatus_head, s.powerState_off off]
    rfl
  · rw [s.smbStatus_head, s.powerState_safe on safe]
    rfl
  case stopped =>
    obtain ⟨temp, faults, ptr, read, write, lup, slots⟩ := s.stopped_refuse stopped o l b i
    obtain ⟨flag, count, same, -⟩ := errs F.SMB0_STAT.CMD_NACK rfl rfl (by decide)
    exact ⟨_, temp, faults, ptr, read, write, lup, slots, flag, count, same, s.erred_back _⟩
  case runs =>
    refine ⟨congrArg Host.Outcome.next (doTemp_eq s runs), ?_, fun o l => ⟨fun a b c d => ?_, fun bad => ?_⟩, exec_regRead_none s runs,
      fun o ptr => ⟨fun r inside reg word => exec_regRead_register s o r runs ptr inside reg word, exec_regRead_excluded s o runs ptr⟩,
      fun o a b four same => ⟨exec_regWrite_register s o a b runs four same, fun free bad => ?_⟩,
        fun i => ⟨fun low => ?_, fun high => ?_⟩, fun c => ?_⟩
    · obtain ⟨u, hu, acts⟩ := doFaults_eq s runs
      exact ⟨u, hu, congrArg Host.Outcome.next acts⟩
    · exact congrArg Host.Outcome.next (doRegPtr_good s _ _ runs (by omega))
    · exact congrArg Host.Outcome.next (doRegPtr_bad s _ _ runs bad)
    · obtain ⟨flag, count, same, -⟩ := errs F.SMB0_STAT.ACC_ERR rfl rfl (by decide)
      exact ⟨_, exec_regWrite_bad s o b runs four free bad, flag, count, same, s.erred_back _⟩
    · exact congrArg Host.Outcome.next (doLupPtr_good s _ runs low)
    · exact congrArg Host.Outcome.next (if_pos ⟨runs, high⟩)
    · exact congrArg Host.Outcome.next (doLupRead_eq s _ runs)
  case status =>
    have regs := State.sent_regs s (s.smbCounted.wr .SMB0_ALERT (b2n s.fcl.safe)) (leBytes 1 (s.rd .SMB0_ALERT))
    refine ⟨_, congrArg Host.Outcome.next (doAlertStatus_eq s), rfl, ?_, (s.alertsCleared_same _).of_regs regs,
      State.sent_back _ (s.alertsCleared_offRegs _)⟩
    rw [State.rd_of_regs regs, State.rd_wr_same]
    exact Nat.mod_eq_of_lt (by cases s.fcl.safe <;> decide)
  case clear =>
    have left := (s.smbCounted.rd_wr_same .SMB0_ALERT (s.alertsLeft k.toNat) 0 0).trans (Nat.mod_eq_of_lt (s.alertsLeft_lt _))
    refine ⟨_, congrArg Host.Outcome.next (doAlertClear_eq s k.toNat), fun safe => ?_, fun i low other => ?_, s.alertsCleared_same _,
      State.regs_back (s.alertsCleared_offRegs _)⟩
    · rw [left, s.alertsLeft_bit, safe]
      simp
    · rw [left, s.alertsLeft_bit]
      rcases other with other | safe
      · simp [other]
      · simp [safe]
  case loses => exact congrArg Host.Outcome.next (if_neg (by simp))
  case wins =>
    have regs := State.sent_regs s ((s.setFlag F.SMB0_STAT.ALERT false).setFlag F.SMB0_STAT.ARA_WON) (leBytes 1 (2 * (0x58 + s.sec.smbAddr)))
    refine ⟨_, congrArg Host.Outcome.next (doAlertResponse_won s alert), ?_, ?_, ?_, rfl, ?_,
      State.sent_back _ ((State.setFlag_offRegs _ _ _ _ _).trans (State.setFlag_offRegs _ _ _ _ _))⟩
    · rw [State.flag_of_regs regs, State.flag_setFlag_beside _ F.SMB0_STAT.ARA_WON F.SMB0_STAT.ALERT _ _ _ rfl (by decide) (by decide) (by decide),
        State.flag_setFlag_same _ _ _ _ _ rfl (by decide)]
    · rw [State.flag_of_regs regs, State.flag_setFlag_same _ _ _ _ _ rfl (by decide)]
    · rw [State.rd_of_regs regs, State.rd_setFlag_kind _ _ _ _ _ _ _ _ (by decide), State.rd_setFlag_kind _ _ _ _ _ _ _ _ (by decide)]
    · exact (((SameRegs.refl _ s).andFlag (by repeat constructor) (by omega)).andFlag (by repeat constructor) (by omega)).of_regs regs
  case quiet => exact congrArg Host.Outcome.next (if_neg (by rw [off]; exact Bool.false_ne_true))
  case timeout =>
    obtain ⟨flag, count, same, -⟩ := errs F.SMB0_STAT.TIMEOUT rfl rfl (by decide)
    exact ⟨_, congrArg Host.Outcome.next (if_pos on), flag, count, same, s.erred_back _⟩
  case errors =>
    obtain ⟨acts, stat, bit, low⟩ := doSmb0ProtocolError_counted s x one mode
    obtain ⟨flag, count, same, -⟩ := errs x.2 stat bit low
    exact ⟨_, congrArg Host.Outcome.next acts, flag, count, same, s.erred_back _⟩
  case overread =>
    exact ⟨_, rfl, State.flag_setFlag_same _ _ _ _ _ rfl (by decide), (SameRegs.refl _ s).andFlag (by repeat constructor) (by omega),
      State.regs_back (State.setFlag_offRegs _ _ _ _ _)⟩
end Sys2Proof.Machine
end

section
/-! PROOFS. Marigold's commands. -/
namespace Sys2Proof.Machine

/-! A command that a ring has started, taken up by its unit. -/

theorem State.takeCmd_regs (s : State) (g i : Nat) : (s.takeCmd g i).regs = s.regs := (rfl)

theorem State.takeCmd_mgd (s : State) (g i : Nat) : (s.takeCmd g i).mgd = s.mgd := (rfl)

/-! Inputs of tell-tales, touched one by one. -/

/-- One tell-tale's input changes. -/
def State.insTouch (s : State) (k : Nat) (f : TtIn → TtIn) : State := s.modMgd (fun m => { m with ins := m.ins.upd k f })

theorem State.insTouch_back {s u : State} (k : Nat) (f : TtIn → TtIn) (h : { u with mgd := s.mgd } = s) :
    { u.insTouch k f with mgd := s.mgd } = s := h

theorem State.insTouch_same (u : State) (k : Nat) (f : TtIn → TtIn) : (u.insTouch k f).mgd.ins.get k = f (u.mgd.ins.get k) := Tbl.get_upd_same _ _ _

theorem State.insTouch_other (u : State) (k q : Nat) (f : TtIn → TtIn) (h : q ≠ k) : (u.insTouch k f).mgd.ins.get q = u.mgd.ins.get q :=
  Tbl.get_upd_other _ _ _ _ h

/-- Touching the inputs of a list changes those inputs only. `f` may read the state, but not its tell-tales. -/
theorem State.each_insTouch (s : State) (f : State → Nat → TtIn → TtIn) (steady : ∀ u k, { u with mgd := s.mgd } = s → f u k = f s k)
    (l : List Nat) (once : l.Nodup) (u : State) (hu : { u with mgd := s.mgd } = s) :
    { u.each l (fun k t => t.insTouch k (f t k)) with mgd := s.mgd } = s
    ∧ { (u.each l (fun k t => t.insTouch k (f t k))).mgd with ins := u.mgd.ins } = u.mgd
    ∧ ∀ k, (k ∈ l → (u.each l (fun k t => t.insTouch k (f t k))).mgd.ins.get k = f s k (u.mgd.ins.get k))
      ∧ (k ∉ l → (u.each l (fun k t => t.insTouch k (f t k))).mgd.ins.get k = u.mgd.ins.get k) := by
  induction l generalizing u with
  | nil => exact ⟨hu, rfl, fun k => ⟨fun h => absurd h List.not_mem_nil, fun _ => rfl⟩⟩
  | cons a l ih =>
    obtain ⟨new, once⟩ := List.nodup_cons.mp once
    obtain ⟨back, mgd, get⟩ := ih once (u.insTouch a (f u a)) (State.insTouch_back a _ hu)
    rw [State.each_cons]
    refine ⟨back, ?_, fun k => ⟨fun mem => ?_, fun out => ?_⟩⟩
    · exact (congrArg (fun m : Mgd => { m with ins := u.mgd.ins }) mgd :)
    · by_cases same : k = a
      · rw [same, (get a).2 new, State.insTouch_same, steady u a hu]
      · rw [(get k).1 ((List.mem_cons.mp mem).resolve_left same), State.insTouch_other _ _ _ _ same]
    · rw [(get k).2 fun h => out (List.mem_cons_of_mem _ h), State.insTouch_other _ _ _ _ fun h => out (List.mem_cons.mpr (Or.inl h))]

/-! MGD_SET (R437). -/

/-- The tell-tales that a command names and the host may set. -/
def State.setNames (s : State) (b : List Byte) : List Nat := (List.range 64).filter (fun t => bit (leAt b 8 8) t && s.fld F.MGD_TT_CFG.SRC t == 1)

/-- The input that a command sets, dated by its port's raster. -/
def State.inputSet (s : State) (b : List Byte) (k : Nat) (i : TtIn) : TtIn :=
  { i with hostVal := bits (leAt b 16 16) (2 * k + 1) (2 * k), setAt := some (s.ras.get (s.portRaster (s.fld F.MGD_TT_CFG.PORT k))).frame }

theorem State.inputSet_steady {s u : State} (b : List Byte) (k : Nat) (h : { u with mgd := s.mgd } = s) : u.inputSet b k = s.inputSet b k :=
  (congrArg (fun t : State => t.inputSet b k) h :)

theorem doMgdSet_started (s : State) (d r i : Nat) (x : Started) (h : s.startedCmd (ringG d r) i 0x30 = some x) (v : State)
    (hv : v = s.takeCmd (ringG d r) i) : doMgdSet d r i s = if d ≠ v.fld F.MGD_CTRL.HOST_DOMAIN then v.finishCmd (ringG d r) i x.bytes 0x32
      else (v.each (v.setNames x.bytes) (fun k t => t.insTouch k (t.inputSet x.bytes k))).finishCmd (ringG d r) i x.bytes 0
        (v.setNames x.bytes).length := by
  subst hv
  exact State.runCmd_started _ _ _ _ _ _ x h

theorem State.mem_setNames (s : State) (b : List Byte) (k : Nat) (low : k < 64) :
    k ∈ s.setNames b ↔ bit (leAt b 8 8) k = true ∧ s.fld F.MGD_TT_CFG.SRC k = 1 := by
  simp [State.setNames, low]

theorem State.setNames_nodup (s : State) (b : List Byte) : (s.setNames b).Nodup := List.nodup_range.filter _

/-! MGD_LOAD (R451). -/

theorem doMgdLoad_started (s : State) (d r i : Nat) (x : Started) (h : s.startedCmd (ringG d r) i 0x31 = some x) (v : State)
    (hv : v = s.takeCmd (ringG d r) i) (form : cfld x.bytes 20 31 1 = 0) (rest : leAt x.bytes 24 8 = 0) : doMgdLoad d r i s =
      if v.bankNamed (cfld x.bytes 20 0 0) ∨ v.flag F.MGD_BANK_STAT.LOADING (cfld x.bytes 20 0 0) then v.finishCmd (ringG d r) i x.bytes 0x42
      else if leAt x.bytes 16 4 < 8192 ∨ 8192 + 262144 < leAt x.bytes 16 4 then v.finishCmd (ringG d r) i x.bytes 0x40
      else match v.readHost { kind := .asset, ring := ringG d r, idx := cfld x.bytes 20 0 0 } 0 (v.ring (ringG d r)).cls (leAt x.bytes 8 8)
          (leAt x.bytes 16 4) with
        | none => (v.readRefused { kind := .asset, ring := ringG d r, idx := cfld x.bytes 20 0 0 } 0 (v.ring (ringG d r)).cls (leAt x.bytes 8 8)
            (leAt x.bytes 16 4)).finishCmd (ringG d r) i x.bytes 0x36
        | some u => (u.wr .MGD_BANK_STAT (1 <<< 30) (cfld x.bytes 20 0 0)).modMgd (fun m => { m with
            banks := m.banks.set (cfld x.bytes 20 0 0) []
            loads := m.loads.set (cfld x.bytes 20 0 0) (some { ring := ringG d r, idx := i, cmd := x.bytes }) }) := by
  have zero : restZero x.bytes 24 = true := beq_iff_eq.mpr rest
  subst hv
  refine (State.runCmd_started _ _ _ _ _ _ x h).trans ?_
  dsimp only
  rw [if_neg (by simp [form, zero])] <;> rfl

/-- A load that started. -/
def State.bankLoading (u : State) (bank : Nat) (l : MgdLoad) : State :=
  (u.wr .MGD_BANK_STAT (1 <<< 30) bank).modMgd (fun m => { m with banks := m.banks.set bank [], loads := m.loads.set bank (some l) })

theorem State.bankLoading_shows (u : State) (bank : Nat) (l : MgdLoad) : (u.bankLoading bank l).flag F.MGD_BANK_STAT.LOADING bank = true
    ∧ (u.bankLoading bank l).flag F.MGD_BANK_STAT.VALID bank = false ∧ (u.bankLoading bank l).mgd.loads.get bank = some l
    ∧ (u.bankLoading bank l).gwl = u.gwl := by
  unfold State.bankLoading
  have word := u.rd_wr_same .MGD_BANK_STAT (1 <<< 30) bank 0
  refine ⟨?_, ?_, Tbl.get_set_same _ _ _, rfl⟩
  · rw [State.modMgd_flag]
    unfold State.flag State.fld
    rw [show F.MGD_BANK_STAT.LOADING.reg = .MGD_BANK_STAT from rfl, word]
    rfl
  · rw [State.modMgd_flag]
    unfold State.flag State.fld
    rw [show F.MGD_BANK_STAT.VALID.reg = .MGD_BANK_STAT from rfl, word]
    rfl

/-! MGD_LOG (R454). -/

theorem doMgdLog_started (s : State) (d r i : Nat) (x : Started) (h : s.startedCmd (ringG d r) i 0x32 = some x) (v : State)
    (hv : v = s.takeCmd (ringG d r) i) (form : cfld x.bytes 24 30 4 = 0) (rest : leAt x.bytes 28 4 = 0) : doMgdLog d r i s =
      if bit (leAt x.bytes 24 4) 31 = false then
        ((v.modMgd (fun m => { m with log := none })).setFlag F.MGD_LOG_STAT.EN false).finishCmd (ringG d r) i x.bytes 0
      else if leAt x.bytes 8 8 % 32 ≠ 0 ∨ leAt x.bytes 16 8 % 8 ≠ 0 then v.finishCmd (ringG d r) i x.bytes 0x34
      else (((v.modMgd (fun m => { m with
          log := some { base := leAt x.bytes 8 8, piAddr := leAt x.bytes 16 8, k := cfld x.bytes 24 3 0 + 4 } })).wr .MGD_LOG_CI
        0).setFlag F.MGD_LOG_STAT.EN).finishCmd (ringG d r) i x.bytes 0 := by
  subst hv
  refine (State.runCmd_started _ _ _ _ _ _ x h).trans ?_
  rw [if_neg (by simp [form, rest])]
  simp only [Bool.not_eq_true]

/-! The end of a load (R452). -/

/-- Bank 0's load leaves the list of loads. -/
def State.loadTaken (s : State) : State := (s.modMgd (fun m => { m with loads := m.loads.set 0 none })).setFlag F.MGD_BANK_STAT.LOADING false 0

theorem doAssetLoadDone_first (s : State) (l : MgdLoad) (e : List Byte) (sig : Bool) (load : s.mgd.loads.get 0 = some l)
    (got : l.got = some (some e)) :
    doAssetLoadDone sig s = if s.loadTaken.envCheck 3 e sig ≠ 0 then s.loadTaken.finishCmd l.ring l.idx l.cmd 0x40
      else if storeForm (envPayload e) ∧ storeRefs (envPayload e) then (s.loadTaken.setBank 0 e).finishCmd l.ring l.idx l.cmd 0
      else s.loadTaken.finishCmd l.ring l.idx l.cmd 0x41 := by
  have first : (List.range 2).findSome? (fun b => (s.mgd.loads.get b).bind (fun l => l.got.map (fun d => (b, l, d)))) = some (0, l, some e) := by
    rw [show List.range 2 = [0, 1] from rfl, List.findSome?_cons, load]
    simp only [Option.bind_some, got, Option.map_some]
  unfold doAssetLoadDone
  rw [first]
  rfl

/-- The key slot of an envelope whose checks pass is one of the four of its type. -/
theorem State.envKey_of_check (s : State) (b : List Byte) (sig : Bool) (good : s.envCheck 3 b sig = 0) : envKey b ≤ 4 := by
  have key : s.envKeyOk 3 b = true := by
    by_contra bad
    unfold State.envCheck at good
    split at good
    · omega
    · omega
  unfold State.envKeyOk at key
  dsimp only at key
  have allowed := (Bool.and_eq_true_iff.mp key).1
  unfold envKeyAllowed at allowed
  exact of_decide_eq_true (Bool.and_eq_true_iff.mp allowed).2

theorem storeForm_count (p : List Byte) (form : storeForm p = true) : leAt p 6 2 ≤ 1023 := by
  unfold storeForm at form
  dsimp only at form
  simp only [Bool.and_eq_true, decide_eq_true_eq] at form
  obtain ⟨⟨⟨⟨⟨⟨⟨-, few⟩, -⟩, -⟩, -⟩, -⟩, -⟩, -⟩ := form
  exact few

theorem State.setBank_valid (s : State) (b : Nat) (e : List Byte) (key : envKey e ≤ 4) (few : leAt (envPayload e) 6 2 ≤ 1023) :
    (s.setBank b e).flag F.MGD_BANK_STAT.VALID b = true := by
  have version := leAt_lt (envPayload e) 4 2
  have word := (s.modMgd (fun m => { m with banks := m.banks.set b e })).rd_wr_same .MGD_BANK_STAT
    (1 <<< 31 + envKey e <<< 26 + leAt (envPayload e) 6 2 <<< 16 + leAt (envPayload e) 4 2) b 0
  refine (congrArg (fun w => bits w 31 31 == 1) word).trans (beq_iff_eq.mpr ?_)
  unfold bits
  simp only [Nat.shiftLeft_eq, Nat.shiftRight_eq_div_pow]
  omega

/-- Settles O47. -/
theorem marigoldCommandsSetLoadAndLog : Obligations.MarigoldCommandsSetLoadAndLog := by
  intro s d r i x
  have domain : (s.takeCmd (ringG d r) i.toNat).fld F.MGD_CTRL.HOST_DOMAIN
    = s.fld F.MGD_CTRL.HOST_DOMAIN := State.fld_of_regs (s.takeCmd_regs _ _) _ _ _
  have sources (k : Nat) : (s.takeCmd (ringG d r) i.toNat).fld F.MGD_TT_CFG.SRC k = s.fld F.MGD_TT_CFG.SRC k :=
    State.fld_of_regs (s.takeCmd_regs _ _) _ _ _
  have loading (k : Nat) : (s.takeCmd (ringG d r) i.toNat).flag F.MGD_BANK_STAT.LOADING k = s.flag F.MGD_BANK_STAT.LOADING k :=
    State.flag_of_regs (s.takeCmd_regs _ _) _ _ _
  have mgd := s.takeCmd_mgd (ringG d r) i.toNat
  have dated (k : Nat) (t : TtIn) : (s.takeCmd (ringG d r) i.toNat).inputSet x.bytes k t = s.inputSet x.bytes k t := (rfl)
  obtain ⟨v, hv⟩ : ∃ v, v = s.takeCmd (ringG d r) i.toNat := ⟨_, rfl⟩
  simp only [← hv] at domain sources loading mgd dated ⊢
  refine ⟨fun cmd => ⟨fun other => ?denied, fun own => ?set⟩, fun cmd form rest => ⟨fun busy => ?busy, fun a free idle low high read => ?load⟩,
    fun cmd form rest => ⟨fun off => ?logEnds, fun on base pi => ?logStarts⟩,
    fun l e sig load got => ⟨fun bad => ?envelope, fun good form refs => ?valid, fun good form => ?form⟩⟩
  case denied => exact congrArg Host.Outcome.next ((doMgdSet_started s d r _ x cmd v hv).trans (if_pos (by rw [domain]; exact other)))
  case set =>
    have acts := (doMgdSet_started s d r _ x cmd v hv).trans (if_neg (by rw [domain]; exact not_not_intro own))
    obtain ⟨back, -, get⟩ := v.each_insTouch (fun t => t.inputSet x.bytes) (fun u k h => State.inputSet_steady x.bytes k h) (v.setNames x.bytes)
      (v.setNames_nodup _) v rfl
    refine ⟨_, _, congrArg Host.Outcome.next acts, back, fun k low => ⟨fun named host => ?_, fun other => ?_⟩⟩
    · rw [(get k).1 ((v.mem_setNames _ k low).mpr ⟨named, (sources k).trans host⟩), mgd, dated]
      rfl
    · rw [(get k).2 fun h => ?_, mgd]
      obtain ⟨named, host⟩ := (v.mem_setNames _ k low).mp h
      rcases other with unnamed | foreign
      · rw [named] at unnamed
        exact Bool.false_ne_true unnamed.symm
      · exact foreign ((sources k).symm.trans host)
  case busy =>
    exact congrArg Host.Outcome.next ((doMgdLoad_started s d r _ x cmd v hv form rest).trans (if_pos (by rw [loading]; exact busy)))
  case load =>
    have acts := doMgdLoad_started s d r _ x cmd v hv form rest
    rw [if_neg (by rw [loading, free, idle]; decide), if_neg (by omega), read] at acts
    obtain ⟨shown, gone, kept, gwl⟩ := a.bankLoading_shows (cfld x.bytes 20 0 0) { ring := ringG d r, idx := i.toNat, cmd := x.bytes }
    exact ⟨_, congrArg Host.Outcome.next acts, shown, gone, kept, gwl⟩
  case logEnds =>
    refine ⟨_, congrArg Host.Outcome.next ((doMgdLog_started s d r _ x cmd v hv form rest).trans (if_pos off)), ?_,
      State.flag_setFlag_same _ _ _ _ _ rfl (by decide), ?_⟩
    · rw [State.setFlag_mgd, State.modMgd_mgd]
    · rw [State.setFlag_mgd, State.modMgd_mgd, mgd]
  case logStarts =>
    refine ⟨_, congrArg Host.Outcome.next ((doMgdLog_started s d r _ x cmd v hv form rest).trans ((if_neg (by rw [on]; decide)).trans
      (if_neg (by omega)))), State.flag_setFlag_same _ _ _ _ _ rfl (by decide), ?_, ?_⟩
    · rw [State.setFlag_mgd, State.wr_mgd, State.modMgd_mgd]
    · rw [State.setFlag_mgd, State.wr_mgd, State.modMgd_mgd, mgd]
  case envelope => exact congrArg Host.Outcome.next ((doAssetLoadDone_first s l e sig load got).trans (if_pos bad))
  case valid =>
    exact ⟨congrArg Host.Outcome.next ((doAssetLoadDone_first s l e sig load got).trans ((if_neg (not_not_intro good)).trans (if_pos ⟨form, refs⟩))),
      State.setBank_valid _ 0 e (State.envKey_of_check _ e sig good) (storeForm_count _ form)⟩
  case form =>
    exact congrArg Host.Outcome.next ((doAssetLoadDone_first s l e sig load got).trans ((if_neg (not_not_intro good)).trans
      (if_neg fun h => by rw [form] at h; exact Bool.false_ne_true h.1)))
end Sys2Proof.Machine
end

section
/-! PROOFS. Tell-tale inputs, readbacks and the proof log. -/
namespace Sys2Proof.Machine

/-! Host inputs that are no longer fresh (R437). -/

/-- The tell-tales of a port whose host input has grown stale. -/
def State.staleInputs (s : State) (n : Nat) : List Nat :=
  (List.range 64).filter (fun t => s.fld F.MGD_TT_CFG.SRC t == 1 && s.fld F.MGD_TT_CFG.PORT t == n && !s.hostFresh t)

theorem doHostInputTimeout_eq (s : State) (n : Nat) :
    doHostInputTimeout n s = s.each (s.staleInputs n) (fun k t => t.insTouch k (fun i => { i with setAt := none })) := (rfl)

theorem State.mem_staleInputs (s : State) (n k : Nat) (low : k < 64) :
    k ∈ s.staleInputs n ↔ s.fld F.MGD_TT_CFG.SRC k = 1 ∧ s.fld F.MGD_TT_CFG.PORT k = n ∧ s.hostFresh k = false := by
  simp [State.staleInputs, low, and_assoc]

theorem State.hostFresh_never (s : State) (k : Nat) (never : (s.mgd.ins.get k).setAt = none) : s.hostFresh k = false := by
  unfold State.hostFresh
  rw [never]

/-- R438: a host input that is not fresh gives its stale state. -/
theorem State.ttEff_never (s : State) (k : Nat) (host : s.fld F.MGD_TT_CFG.SRC k = 1) (never : (s.mgd.ins.get k).setAt = none) :
    s.ttEff k = (s.fld F.MGD_TT_CFG.STALE_STATE k, true) := by
  have invalid : s.ttValid k = false := by
    unfold State.ttValid
    rw [host]
    exact s.hostFresh_never k never
  unfold State.ttEff
  dsimp only
  rw [host, invalid]
  rfl

theorem exec_hostInputTimeout (s : State) (n : Fin 4) : ∃ t, exec (.hostInputTimeout n) s = .next t ∧ { t with mgd := s.mgd } = s
    ∧ { t.mgd with ins := s.mgd.ins } = s.mgd ∧ ∀ k, k < 64 →
      (s.fld F.MGD_TT_CFG.SRC k = 1 → s.fld F.MGD_TT_CFG.PORT k = n.val → s.hostFresh k = false →
        t.mgd.ins.get k = { s.mgd.ins.get k with setAt := none } ∧ t.ttEff k = (s.fld F.MGD_TT_CFG.STALE_STATE k, true))
      ∧ ((s.fld F.MGD_TT_CFG.SRC k ≠ 1 ∨ s.fld F.MGD_TT_CFG.PORT k ≠ n.val ∨ s.hostFresh k = true) → t.mgd.ins.get k = s.mgd.ins.get k) := by
  obtain ⟨back, mgd, get⟩ := s.each_insTouch (fun _ _ i => { i with setAt := none }) (fun _ _ _ => rfl) (s.staleInputs n)
    (List.nodup_range.filter _) s rfl
  rw [← doHostInputTimeout_eq] at back mgd get
  obtain ⟨t, ht⟩ : ∃ t, t = doHostInputTimeout n s := ⟨_, rfl⟩
  rw [← ht] at back mgd get
  have regs : t.regs = s.regs := (congrArg State.regs back :)
  refine ⟨t, congrArg Host.Outcome.next ht.symm, back, mgd, fun k low => ⟨fun host port old => ?_, fun other => ?_⟩⟩
  · have gone := (get k).1 ((s.mem_staleInputs n k low).mpr ⟨host, port, old⟩)
    refine ⟨gone, ?_⟩
    rw [t.ttEff_never k ((State.fld_of_regs regs _ _ _).trans host) (by rw [gone]), State.fld_of_regs regs]
  · refine (get k).2 fun h => ?_
    obtain ⟨host, port, old⟩ := (s.mem_staleInputs n k low).mp h
    rcases other with h | h | h
    · exact h host
    · exact h port
    · rw [old] at h
      exact Bool.false_ne_true h

/-! Readbacks (R446, R447). -/

/-- The readback is counted and its slot marked as read. -/
def State.rbRead (s : State) (n k : Nat) (q : DispFrame) : State := (s.pmuAdd 0x245 n).modSlot n q.frame k (fun u => { u with read := true })

/-- The record of one tell-tale. -/
def State.rbRecord (s : State) (n : Nat) (q : DispFrame) (u : SlotRun) (tt : TtLatch) (outcome v : Nat) : ProofRec :=
  { bytes := s.proofBytes n q u tt 1 outcome v u.plain, fail := outcome != 0 }

theorem State.endReadback_good (s : State) (n k : Nat) (q : DispFrame) (u : SlotRun) (v : Nat) (tt : TtLatch)
    (one : q.tts.filter (fun x => u.mem.any (· == x.tt)) = [tt]) (same : v = u.plain) :
    s.endReadback n k q u (some v) = (s.rbRead n k q).pushProof ((s.rbRead n k q).rbRecord n q u tt 0 v) := by
  unfold State.endReadback
  dsimp only
  rw [one, if_pos same]
  rfl

theorem State.endReadback_fails (s : State) (n k : Nat) (q : DispFrame) (u : SlotRun) (v : Nat) (tt : TtLatch)
    (one : q.tts.filter (fun x => u.mem.any (· == x.tt)) = [tt]) (differs : v ≠ u.plain) :
    s.endReadback n k q u (some v) = (((s.rbRead n k q).count F.MGD_TT_CNT1.RB_FAIL tt.tt).proofFails n q u tt.tt 0x41 2 v).pushProof
      ((s.rbRead n k q).rbRecord n q u tt 2 v) := by
  unfold State.endReadback
  dsimp only
  rw [one, if_neg differs]
  rfl

theorem State.rbRead_fld (s : State) (n k : Nat) (q : DispFrame) (f : Fld) (i j : Nat) (h : f.reg.reported = false) :
    (s.rbRead n k q).fld f i j = s.fld f i j :=
  (State.fld_of_regs (t := s.rbRead n k q) (s := s.pmuAdd 0x245 n) rfl f i j).trans (State.pmuAdd_fld _ _ _ _ _ _ _ _ h)

theorem State.modSlot_mgd (s : State) (n f k : Nat) (g : SlotRun → SlotRun) : (s.modSlot n f k g).mgd = s.mgd := (rfl)

theorem State.rbRead_mgd (s : State) (n k : Nat) (q : DispFrame) : (s.rbRead n k q).mgd = s.mgd :=
  (State.modSlot_mgd _ _ _ _ _).trans (State.pmuAdd_mgd _ _ _ _ _)

/-- R449: a record with room for it. -/
theorem State.pushProof_room (s : State) (r : ProofRec) (room : s.mgd.buf.length < 4096) :
    s.pushProof r = (s.modMgd (fun m => { m with buf := m.buf ++ [r] })).setFld F.MGD_LOG_STAT.BUF_USED (s.mgd.buf ++ [r]).length := by
  unfold State.pushProof
  dsimp only
  rw [if_pos room]
  rfl

theorem doReadback_frame (s : State) (n k : Nat) (v : Nat) (q : DispFrame) (u : SlotRun) (calm : s.fcl.safe = false)
    (frame : s.rbFrame n k = some (q, u)) : doReadback n k (some v) s = s.endReadback n k q u (some v) := by
  unfold doReadback
  rw [if_neg (by rw [calm]; exact Bool.false_ne_true), frame]

/-! Delivery of the proof records (R449, R454). -/

/-- Writes to the host change what a push and a refusal change. -/
theorem State.writeEach_keeps {β : Type} (obs : State → β) (push : ∀ t x, obs (State.txPush t x) = obs t)
    (refuse : ∀ t d, obs (State.windowRefused t d) = obs t) (org : Org) (d cls : Nat) (l : List (Nat × List Byte)) (s : State) :
    obs (s.writeEach org d cls l).1 = obs s := by
  have pushed (s : State) (a : Nat) (b : List Byte) (n : Nat) (ex : List (Nat × Nat)) : obs (s.pushWrites org d cls a b false none n ex) = obs s :=
    State.each_keeps obs _ _ _ fun _ _ => push _ _
  induction l generalizing s with
  | nil => rfl
  | cons w l ih =>
    unfold State.writeEach
    cases written : s.writeHost org d cls w.1 w.2 false with
    | none => exact (refuse _ _).trans (pushed _ _ _ _ _)
    | some t =>
      unfold State.writeHost at written
      dsimp only at written
      split at written
      · obtain rfl := Option.some.inj written
        exact (ih _).trans (pushed _ _ _ _ _)
      · exact nomatch written

theorem State.windowRefused_mgd (s : State) (d : Nat) : (s.windowRefused d).mgd = s.mgd := by
  unfold State.windowRefused
  rw [State.pmuAdd_mgd, State.count_mgd]

theorem State.windowRefused_out (s : State) (d : Nat) : (s.windowRefused d).out = s.out := by
  unfold State.windowRefused
  rw [State.pmuAdd_out, State.count_out]

theorem State.writeEach_mgd (s : State) (org : Org) (d cls : Nat) (l : List (Nat × List Byte)) : (s.writeEach org d cls l).1.mgd = s.mgd :=
  State.writeEach_keeps State.mgd (fun _ _ => rfl) State.windowRefused_mgd org d cls l s

theorem State.writeEach_out (s : State) (org : Org) (d cls : Nat) (l : List (Nat × List Byte)) : (s.writeEach org d cls l).1.out = s.out :=
  State.writeEach_keeps State.out (fun _ _ => rfl) State.windowRefused_out org d cls l s

theorem doProofLogDelivery_idle (s : State) (idle : s.mgd.log = none ∨ s.mgd.buf = [] ∨ s.fcl.safe = true) : doProofLogDelivery s = s := by
  unfold doProofLogDelivery
  cases log : s.mgd.log with
  | none => rfl
  | some l =>
    dsimp only
    refine if_pos ?_
    rcases idle with none | empty | safe
    · rw [log] at none
      exact nomatch none
    · exact Or.inl (by rw [empty]; simp)
    · exact Or.inr safe

theorem doProofLogDelivery_writes (s : State) (l : ProofLog) (m : Nat) (w : State × Bool) (log : s.mgd.log = some l) (calm : s.fcl.safe = false)
    (hm : m = min (min 32 s.mgd.buf.length) (2 ^ l.k - subMod (2 ^ 32) l.pi (s.rd .MGD_LOG_CI))) (some : m ≠ 0)
    (hw : w = s.writeEach { kind := .proof } 0 0 (logWrites l (s.mgd.buf.take m))) : doProofLogDelivery s =
      if w.2 then (w.1.modMgd (fun g => { g with buf := g.buf.drop m, log := Option.some { l with pi := (l.pi + m) % 2 ^ 32 } })).setFld
        F.MGD_LOG_STAT.BUF_USED (w.1.mgd.buf.drop m).length
      else w.1.logOff F.MGD_LOG_STAT.WIN_OFF 4 := by
  subst hm hw
  unfold doProofLogDelivery
  rw [log]
  dsimp only
  rw [if_neg (by rw [calm]; exact fun h => h.elim some Bool.false_ne_true)]
  rfl

/-- R449: what is delivered leaves the buffer, and the index moves. -/
theorem State.delivered_shows (s : State) (l : ProofLog) (m : Nat) (ws : List (Nat × List Byte)) (w : State × Bool)
    (hw : w = s.writeEach { kind := .proof } 0 0 ws) (acts : doProofLogDelivery s =
      if w.2 then (w.1.modMgd (fun g => { g with buf := g.buf.drop m, log := Option.some { l with pi := (l.pi + m) % 2 ^ 32 } })).setFld
        F.MGD_LOG_STAT.BUF_USED (w.1.mgd.buf.drop m).length
      else w.1.logOff F.MGD_LOG_STAT.WIN_OFF 4) :
    (w.2 = true → ∃ t, exec .proofLogDelivery s = .next t ∧ t.mgd.buf = s.mgd.buf.drop m
      ∧ t.mgd.log = some { l with pi := (l.pi + m) % 2 ^ 32 } ∧ t.gwl = w.1.gwl ∧ t.out = s.out)
    ∧ (w.2 = false → ∃ u : State, exec .proofLogDelivery s = .next (u.mgdEvent 0x42 4 0 0 0) ∧ u.mgd.log = none ∧ u.mgd.buf = s.mgd.buf
      ∧ u.flag F.MGD_LOG_STAT.WIN_OFF = true ∧ u.flag F.MGD_LOG_STAT.EN = false) := by
  have mgd : w.1.mgd = s.mgd := by rw [hw]; exact s.writeEach_mgd _ _ _ _
  have out : w.1.out = s.out := by rw [hw]; exact s.writeEach_out _ _ _ _
  refine ⟨fun all => ?_, fun refused => ?_⟩
  · rw [if_pos all] at acts
    refine ⟨_, congrArg Host.Outcome.next acts, ?_, ?_, ?_, ?_⟩
    · rw [State.setFld_mgd, State.modMgd_mgd, mgd]
    · rw [State.setFld_mgd, State.modMgd_mgd]
    · rw [State.setFld_gwl, State.modMgd_gwl]
    · rw [State.setFld_out, State.modMgd_out, out]
  · rw [if_neg (by rw [refused]; exact Bool.false_ne_true)] at acts
    refine ⟨_, congrArg Host.Outcome.next acts, ?_, ?_, State.flag_setFlag_same _ _ _ _ _ rfl (by decide), ?_⟩
    · rw [State.setFlag_mgd, State.setFlag_mgd, State.modMgd_mgd]
    · rw [State.setFlag_mgd, State.setFlag_mgd, State.modMgd_mgd, mgd]
    · rw [State.flag_setFlag_beside _ F.MGD_LOG_STAT.WIN_OFF F.MGD_LOG_STAT.EN _ _ _ rfl (by decide) (by decide) (by decide),
        State.flag_setFlag_same _ _ _ _ _ rfl (by decide)]

/-- Settles O46. -/
theorem tellTalesProveAndLog : Obligations.TellTalesProveAndLog := by
  intro s
  refine ⟨exec_hostInputTimeout s, fun n k v q u tt calm frame one => ⟨fun same room => ?good, fun differs => ?fails⟩,
    fun idle => congrArg Host.Outcome.next (doProofLogDelivery_idle s idle), fun l log calm => ?delivers,
    fun b => ⟨congrArg Host.Outcome.next (if_neg (by simp)), fun valid => congrArg Host.Outcome.next (if_pos ⟨valid, by simp⟩)⟩⟩
  case good =>
    have acts := (doReadback_frame s n k v.toNat q u calm frame).trans (s.endReadback_good n k q u v.toNat tt one same)
    have mgd := s.rbRead_mgd n k q
    have fails := s.rbRead_fld n k q F.MGD_TT_CNT1.RB_FAIL tt.tt 0 rfl
    have consec := s.rbRead_fld n k q F.MGD_TT_STAT.CONSEC tt.tt 0 rfl
    rw [State.pushProof_room _ _ (by rw [mgd]; exact room)] at acts
    refine ⟨_, (s.rbRead n k q).rbRecord n q u tt 0 v.toNat, congrArg Host.Outcome.next acts, ?_, rfl, ?_, ?_⟩
    · rw [State.setFld_mgd, State.modMgd_mgd, mgd]
    · rw [State.fld_setFld_kind _ _ _ _ _ _ _ _ (by decide), State.modMgd_fld, fails]
    · rw [State.fld_setFld_kind _ _ _ _ _ _ _ _ (by decide), State.modMgd_fld, consec]
  case fails =>
    refine ⟨_, _, congrArg Host.Outcome.next ((doReadback_frame s n k v.toNat q u calm frame).trans
      (s.endReadback_fails n k q u v.toNat tt one differs)), rfl, ?_⟩
    rw [State.fld_count_same _ _ _ _ (by decide) (by decide), s.rbRead_fld _ _ _ _ _ _ rfl]
  case delivers =>
    intro m w some
    exact s.delivered_shows l m (logWrites l (s.mgd.buf.take m)) w rfl (doProofLogDelivery_writes s l m w log calm rfl some rfl)
end Sys2Proof.Machine
end

section
/-! PROOFS. Bridge commands, the value table and the copy of an entry. -/
namespace Sys2Proof.Machine

/-! VBR_LOAD and VBR_XFER (R472, R485, R486). -/

theorem doVbrLoad_started (s : State) (d r i : Nat) (x : Started) (h : s.startedCmd (ringG d r) i 0x40 = some x) (v : State)
    (hv : v = s.takeCmd (ringG d r) i) : doVbrLoad d r i s =
      if d ≠ 0 then v.finishCmd (ringG d r) i x.bytes 0x32
      else if cfld x.bytes 16 15 13 ≠ 0 ∨ ¬ restZero x.bytes 20 then v.finishCmd (ringG d r) i x.bytes 0x48
      else if vlCount x.bytes = 0 ∨ 1792 < vlCount x.bytes ∨ (vbrSize (vlTable x.bytes)).1 < vlFirst x.bytes + vlCount x.bytes ∨ leAt x.bytes 8 8 % 8 ≠ 0
        then v.finishCmd (ringG d r) i x.bytes 0x48
      else match v.readHost { kind := .cmdRead, ring := ringG d r, idx := i } d (v.ring (ringG d r)).cls (leAt x.bytes 8 8)
          (vlCount x.bytes * (vbrSize (vlTable x.bytes)).2) with
        | some u => u
        | none => (v.readRefused { kind := .cmdRead, ring := ringG d r, idx := i } d (v.ring (ringG d r)).cls (leAt x.bytes 8 8)
            (vlCount x.bytes * (vbrSize (vlTable x.bytes)).2)).finishCmd (ringG d r) i x.bytes 0x36 := by
  subst hv
  exact State.runCmd_started _ _ _ _ _ _ x h

theorem State.readHost_vbr (org : Org) (d cls addr len : Nat) (s u : State) (h : s.readHost org d cls addr len = some u) : u.vbr = s.vbr := by
  unfold State.readHost at h
  dsimp only at h
  split at h
  · obtain rfl := Option.some.inj h
    exact State.each_keeps State.vbr _ _ _ fun _ _ => rfl
  · exact nomatch h

/-- A transfer of a command that is in form. -/
theorem doVbrXfer_started (s : State) (d r i : Nat) (x : Started) (h : s.startedCmd (ringG d r) i 0x41 = some x) (v : State)
    (hv : v = s.takeCmd (ringG d r) i) (calm : s.fcl.safe = false) (form : cfld x.bytes 16 17 16 = 0) (form' : cfld x.bytes 20 31 7 = 0)
    (rest : leAt x.bytes 24 8 = 0) (one : 1 ≤ vxLen x.bytes) (few : vxLen x.bytes ≤ 64) : doVbrXfer d r i s =
      if d ≠ 0 ∧ ¬ (vxPort x.bytes < 28 ∧ bit (v.dom d).remote (vxPort x.bytes)) then v.finishCmd (ringG d r) i x.bytes 0x32
      else if vxWr x.bytes then
        match v.readHost { kind := .cmdRead, ring := ringG d r, idx := i } d (v.ring (ringG d r)).cls (leAt x.bytes 8 8) (vxLen x.bytes) with
        | some u => u
        | none => (v.readRefused { kind := .cmdRead, ring := ringG d r, idx := i } d (v.ring (ringG d r)).cls (leAt x.bytes 8 8)
            (vxLen x.bytes)).finishCmd (ringG d r) i x.bytes 0x36
      else v.queueXfer (vxPort x.bytes) (vxJob (ringG d r) i x.bytes []) := by
  have zero : restZero x.bytes 24 = true := beq_iff_eq.mpr rest
  subst hv
  unfold doVbrXfer
  rw [if_neg (by rw [calm]; exact Bool.false_ne_true)]
  refine (State.runCmd_started _ _ _ _ _ _ x h).trans ?_
  have good : ¬ (cfld x.bytes 16 17 16 ≠ 0 ∨ cfld x.bytes 20 31 7 ≠ 0 ∨ ¬ restZero x.bytes 24 ∨ vxLen x.bytes = 0 ∨ 64 < vxLen x.bytes) := by
    rintro (h | h | h | h | h)
    · exact h form
    · exact h form'
    · exact h zero
    · omega
    · omega
  rw [if_neg good] <;> rfl

/-! A transfer that joins its port's queue (R485, R490). -/

theorem State.passXfer_idle (s : State) (p : Nat) (j : TunJob) (idle : s.injIdle) : s.passXfer p j = s.admitXfer p j := by
  unfold State.passXfer
  rw [s.inject_idle _ _ _ idle]
  rfl

/-- A transfer queued at a port that is up. -/
def State.jobQueued (s : State) (p : Nat) (j : TunJob) : State := s.modTun p (fun t => { t with jobs := t.jobs ++ [j] })

theorem State.admitXfer_up (s : State) (p : Nat) (j : TunJob) (kept : j.lost = false)
    (up : s.tunUp p = true) : s.admitXfer p j = s.jobQueued p j := by
  unfold State.admitXfer
  rw [if_neg (by rw [kept]; exact Bool.false_ne_true), if_pos up]
  rfl

theorem State.admitXfer_down (s : State) (p : Nat) (j : TunJob) (kept : j.lost = false) (down : s.tunUp p = false) :
    s.admitXfer p j = s.xferEnd p j (.error 3) := by
  unfold State.admitXfer
  rw [if_neg (by rw [kept]; exact Bool.false_ne_true), if_neg (by rw [down]; exact Bool.false_ne_true)]

theorem State.queueXfer_read (s : State) (p : Nat) (j : TunJob) (read : j.wr = false) (idle : s.injIdle) : s.queueXfer p j = s.admitXfer p j := by
  unfold State.queueXfer
  rw [read, State.when_false, s.passXfer_idle p j idle]

theorem State.jobQueued_jobs (s : State) (p : Nat) (j : TunJob) : ((s.jobQueued p j).vbr.tun.get p).jobs = (s.vbr.tun.get p).jobs ++ [j] :=
  congrArg Tunnel.jobs (Tbl.get_upd_same _ _ _)

theorem State.jobQueued_regs (s : State) (p : Nat) (j : TunJob) : (s.jobQueued p j).regs = s.regs := (rfl)

theorem State.takeCmd_vbr (s : State) (g i : Nat) : (s.takeCmd g i).vbr = s.vbr := (rfl)

theorem State.takeCmd_fcl (s : State) (g i : Nat) : (s.takeCmd g i).fcl = s.fcl := (rfl)

theorem State.takeCmd_dom (s : State) (g i d : Nat) : (s.takeCmd g i).dom d = s.dom d := (rfl)

theorem State.tunUp_of_regs {s t : State} (h : t.regs = s.regs) (p : Nat) : t.tunUp p = s.tunUp p := by
  unfold State.tunUp
  simp only [State.flag_of_regs h]

theorem State.injIdle_of_fcl {s t : State} (h : t.fcl = s.fcl) (idle : s.injIdle) : t.injIdle := by
  unfold State.injIdle
  rw [h]
  exact idle

theorem exec_bridgeCommands (s : State) (d : Fin 64) (r : Fin 4096) (i : BitVec 32) (x : Started) :
    let g := ringG d r
    let v := s.takeCmd g i.toNat
    let b := x.bytes
    (s.startedCmd g i.toNat 0x40 = some x →
      (d.val ≠ 0 → exec (.vbrLoad d r i) s = .next (v.finishCmd g i.toNat b 0x32))
      ∧ (d.val = 0 → (vbrSize (vlTable b)).1 < vlFirst b + vlCount b → exec (.vbrLoad d r i) s = .next (v.finishCmd g i.toNat b 0x48))
      ∧ (∀ u, d.val = 0 → cfld b 16 15 13 = 0 → leAt b 20 12 = 0 → 1 ≤ vlCount b → vlCount b ≤ 1792 →
          vlFirst b + vlCount b ≤ (vbrSize (vlTable b)).1 → leAt b 8 8 % 8 = 0 →
          v.readHost { kind := .cmdRead, ring := g, idx := i.toNat } d (v.ring g).cls (leAt b 8 8) (vlCount b * (vbrSize (vlTable b)).2) = some u →
        exec (.vbrLoad d r i) s = .next u ∧ u.vbr = s.vbr))
    ∧ (s.startedCmd g i.toNat 0x41 = some x → s.fcl.safe = false → cfld b 16 17 16 = 0 → cfld b 20 31 7 = 0 → leAt b 24 8 = 0 →
        1 ≤ vxLen b → vxLen b ≤ 64 →
      (d.val ≠ 0 → (28 ≤ vxPort b ∨ bit (s.dom d).remote (vxPort b) = false) →
        exec (.vbrXfer d r i) s = .next (v.finishCmd g i.toNat b 0x32))
      ∧ ((d.val = 0 ∨ (vxPort b < 28 ∧ bit (s.dom d).remote (vxPort b) = true)) →
        (vxWr b = false → s.injIdle → s.tunUp (vxPort b) = true →
          ∃ t, exec (.vbrXfer d r i) s = .next t ∧ (t.vbr.tun.get (vxPort b)).jobs = (s.vbr.tun.get (vxPort b)).jobs ++ [vxJob g i.toNat b []]
            ∧ t.regs = s.regs)
        ∧ (vxWr b = false → s.injIdle → s.tunUp (vxPort b) = false →
          exec (.vbrXfer d r i) s = .next (v.xferEnd (vxPort b) (vxJob g i.toNat b []) (.error 3)))
        ∧ (∀ u, vxWr b = true → v.readHost { kind := .cmdRead, ring := g, idx := i.toNat } d (v.ring g).cls (leAt b 8 8) (vxLen b) = some u →
          exec (.vbrXfer d r i) s = .next u))) := by
  intro g v b
  have regs : v.regs = s.regs := s.takeCmd_regs g i.toNat
  have vbr : v.vbr = s.vbr := s.takeCmd_vbr g i.toNat
  have fcl : v.fcl = s.fcl := s.takeCmd_fcl g i.toNat
  have dom : v.dom d = s.dom d := s.takeCmd_dom g i.toNat d
  have bytes : x.bytes = b := rfl
  obtain ⟨w, hw⟩ : ∃ w, w = v := ⟨_, rfl⟩
  rw [← hw] at regs vbr fcl dom ⊢
  clear_value b
  refine ⟨fun cmd => ?_, fun cmd calm form form' rest one few => ?_⟩
  · have acts := doVbrLoad_started s d r i.toNat x cmd w hw
    rw [bytes] at acts
    refine ⟨fun other => congrArg Host.Outcome.next (acts.trans (if_pos other)), fun own far => ?_,
      fun u own form rest one few fits aligned read => ⟨?_, (State.readHost_vbr _ _ _ _ _ w u read).trans vbr⟩⟩
    · rw [if_neg (not_not_intro own)] at acts
      refine congrArg Host.Outcome.next (acts.trans ?_)
      split
      · rfl
      · exact if_pos (Or.inr (Or.inr (Or.inl far)))
    · have zero : restZero b 20 = true := beq_iff_eq.mpr rest
      rw [if_neg (not_not_intro own), if_neg (by rw [form, zero]; simp), if_neg (by omega), read] at acts
      exact congrArg Host.Outcome.next acts
  · have acts := doVbrXfer_started s d r i.toNat x cmd w hw calm (bytes ▸ form) (bytes ▸ form') (bytes ▸ rest) (bytes ▸ one) (bytes ▸ few)
    rw [dom, bytes] at acts
    refine ⟨fun other denied => ?_, fun reach => ⟨fun read idle up => ?_, fun read idle down => ?_, fun u wr got => ?_⟩⟩
    · refine congrArg Host.Outcome.next (acts.trans (if_pos ⟨other, fun h => ?_⟩))
      rcases denied with far | denied
      · omega
      · rw [h.2] at denied
        exact Bool.false_ne_true denied.symm
    all_goals rw [if_neg fun h => reach.elim h.1 h.2] at acts
    · rw [if_neg (by rw [read]; exact Bool.false_ne_true), State.queueXfer_read _ _ _ read (State.injIdle_of_fcl fcl idle),
        State.admitXfer_up _ _ _ rfl ((State.tunUp_of_regs regs _).trans up)] at acts
      exact ⟨_, congrArg Host.Outcome.next acts, (State.jobQueued_jobs _ _ _).trans (by rw [vbr]), (State.jobQueued_regs _ _ _).trans regs⟩
    · rw [if_neg (by rw [read]; exact Bool.false_ne_true), State.queueXfer_read _ _ _ read (State.injIdle_of_fcl fcl idle),
        State.admitXfer_down _ _ _ rfl ((State.tunUp_of_regs regs _).trans down)] at acts
      exact congrArg Host.Outcome.next acts
    · rw [if_pos wr, got] at acts
      exact congrArg Host.Outcome.next acts

/-! The latest-value table (R494). -/

theorem State.each_comm {α : Type} (l : List α) (g : α → State → State) (h : State → State) (comm : ∀ a t, g a (h t) = h (g a t)) (s : State) :
    (h s).each l g = h (s.each l g) := by
  unfold State.each
  induction l generalizing s with
  | nil => rfl
  | cons a l ih => rw [List.foldl_cons, List.foldl_cons, comm, ih]

/-- A write to the host does not see the bridge. -/
theorem State.writeHost_modVbr (s : State) (f : Vbr → Vbr) (org : Org) (d cls addr : Nat) (data : List Byte) (ro : Bool) :
    (s.modVbr f).writeHost org d cls addr data ro = (s.writeHost org d cls addr data ro).map (·.modVbr f) := by
  have push (n : Nat) (ex : List (Nat × Nat)) :
      (s.modVbr f).pushWrites org d cls addr data ro none n ex = (s.pushWrites org d cls addr data ro none n ex).modVbr f := by
    unfold State.pushWrites
    refine State.each_comm _ _ (State.modVbr f) (fun e t => ?_) s
    rfl
  unfold State.writeHost
  dsimp only
  rw [show (s.modVbr f).extents addr data.length = s.extents addr data.length from rfl,
    show (s.modVbr f).inWindow d = s.inWindow d from rfl, push]
  split
  · rfl
  · rfl

theorem State.writeHost_rest {s t : State} {org : Org} {d cls addr : Nat} {data : List Byte} {ro : Bool}
    (h : s.writeHost org d cls addr data ro = some t) : t.vbr = s.vbr ∧ t.regs = s.regs := by
  unfold State.writeHost at h
  dsimp only at h
  split at h
  · obtain rfl := Option.some.inj h
    exact ⟨State.each_keeps State.vbr _ _ _ fun _ _ => rfl, State.each_keeps State.regs _ _ _ fun _ _ => rfl⟩
  · exact nomatch h

/-- Two writes, the second after the first. -/
theorem State.writeEach_two (s : State) (org : Org) (d cls a a' : Nat) (b b' : List Byte) :
    (∀ u, (s.writeHost org d cls a b false).bind (fun t => t.writeHost org d cls a' b' false) = some u →
      s.writeEach org d cls [(a, b), (a', b')] = (u, true))
    ∧ ((s.writeHost org d cls a b false).bind (fun t => t.writeHost org d cls a' b' false) = none →
      (s.writeEach org d cls [(a, b), (a', b')]).2 = false) := by
  unfold State.writeEach
  cases first : s.writeHost org d cls a b false with
  | none => exact ⟨fun u h => (nomatch h), fun _ => rfl⟩
  | some t =>
    rw [Option.bind_some]
    dsimp only
    unfold State.writeEach
    cases second : t.writeHost org d cls a' b' false with
    | none => exact ⟨fun u h => (nomatch h), fun _ => rfl⟩
    | some w => exact ⟨fun u h => Option.some.inj h ▸ rfl, fun h => nomatch h⟩

/-- The tick is taken up. -/
def State.tickTaken (s : State) : State := s.modVbr (fun v => { v with lvtDue := false })

/-- Where the table lies in host memory. -/
def State.lvtBase (s : State) : Nat := s.rd .VBR_LVT_BASE_HI * 2 ^ 32 + s.fld F.VBR_LVT_BASE_LO.BASE_LO * 4096

/-- The block of the present generation, and then the generation. -/
def State.lvtWritten (s : State) : Option State :=
  (s.writeHost { kind := .lvt } s.sigDomain 0 (s.lvtBase + 0x1000 * (s.vbr.gen % 2)) ((List.range 256).flatMap s.lvtBytes) false).bind
    (fun t => t.writeHost { kind := .lvt } t.sigDomain 0 (s.lvtBase + 0x2000) (leBytes 8 t.vbr.gen) false)

theorem doLvtTick_idle (s : State)
    (idle : s.vbr.lvtDue = false ∨ s.flag F.VBR_CTRL.EN = false ∨ s.flag F.VBR_LVT_CTRL.EN = false ∨ s.fcl.safe = true) : doLvtTick s = s := by
  unfold doLvtTick
  refine if_pos ?_
  simp only [Bool.not_eq_true]
  exact idle

/-- A tick that is due, with no entry received since the one before. -/
theorem doLvtTick_due (s : State) (due : s.vbr.lvtDue = true) (on : s.flag F.VBR_CTRL.EN = true) (table : s.flag F.VBR_LVT_CTRL.EN = true)
    (calm : s.fcl.safe = false) (old : ∀ i, i < 256 → (s.vbr.lvt.get i).fresh = false) (w : State × Bool)
    (hw : w = s.tickTaken.writeEach { kind := .lvt } s.sigDomain 0
      [(s.lvtBase + 0x1000 * (s.vbr.gen % 2), (List.range 256).flatMap s.lvtBytes), (s.lvtBase + 0x2000, leBytes 8 s.vbr.gen)]) :
    doLvtTick s = if w.2 then w.1.modVbr (fun v => { v with gen := (s.vbr.gen + 1) % 2 ^ 64 }) else w.1.lvtOff := by
  have same : s.tickTaken.each (List.range 256) (fun i s => if (s.vbr.lvt.get i).fresh then
      s.modVbr (fun v => { v with lvt := v.lvt.upd i (fun e => { e with fresh := false, seq := (e.seq + 1) % 65536 }) }) else s) = s.tickTaken :=
    s.tickTaken.each_same _ _ fun i hi => if_neg (by rw [show s.tickTaken.vbr.lvt = s.vbr.lvt from rfl, old i (List.mem_range.mp hi)]; decide)
  subst hw
  unfold doLvtTick
  rw [if_neg (by simp [due, on, table, calm])]
  dsimp only
  rw [show s.modVbr (fun v => { v with lvtDue := false }) = s.tickTaken from rfl, same]
  rfl

/-- The writes of the table, seen after the tick was taken up. -/
theorem State.lvtWritten_tick (s : State) :
    (s.tickTaken.writeHost { kind := .lvt } s.sigDomain 0 (s.lvtBase + 0x1000 * (s.vbr.gen % 2)) ((List.range 256).flatMap s.lvtBytes) false).bind
      (fun t => t.writeHost { kind := .lvt } s.sigDomain 0 (s.lvtBase + 0x2000) (leBytes 8 s.vbr.gen) false) = s.lvtWritten.map State.tickTaken := by
  unfold State.lvtWritten State.tickTaken
  rw [State.writeHost_modVbr]
  cases first : s.writeHost { kind := .lvt } s.sigDomain 0 (s.lvtBase + 0x1000 * (s.vbr.gen % 2)) ((List.range 256).flatMap s.lvtBytes) false with
  | none => rfl
  | some t =>
    obtain ⟨vbr, regs⟩ := State.writeHost_rest first
    have domain : t.sigDomain = s.sigDomain := State.fld_of_regs regs _ _ _
    rw [Option.map_some, Option.bind_some, Option.bind_some, State.writeHost_modVbr, domain, vbr]

theorem State.lvtOff_shows (s : State) : s.lvtOff.flag F.VBR_LVT_CTRL.EN = false ∧ s.lvtOff.flag F.VBR_STAT.LVT_OFF = true
    ∧ s.lvtOff.vbr = s.vbr := by
  unfold State.lvtOff
  refine ⟨?_, State.flag_setFlag_same _ _ _ _ _ rfl (by decide), ?_⟩
  · rw [State.flag_setFlag_kind _ _ _ _ _ _ _ _ (by decide), State.flag_setFlag_same _ _ _ _ _ rfl (by decide)]
  · rw [State.setFlag_vbr, State.setFlag_vbr]

theorem State.windowRefused_vbr (s : State) (d : Nat) : (s.windowRefused d).vbr = s.vbr := by
  unfold State.windowRefused
  rw [State.pmuAdd_vbr, State.count_vbr]

theorem State.writeEach_vbr (s : State) (org : Org) (d cls : Nat) (l : List (Nat × List Byte)) : (s.writeEach org d cls l).1.vbr = s.vbr :=
  State.writeEach_keeps State.vbr (fun _ _ => rfl) State.windowRefused_vbr org d cls l s

theorem exec_lvtTick (s : State) (due : s.vbr.lvtDue = true) (on : s.flag F.VBR_CTRL.EN = true) (table : s.flag F.VBR_LVT_CTRL.EN = true)
    (calm : s.fcl.safe = false) (old : ∀ i, i < 256 → (s.vbr.lvt.get i).fresh = false) :
    (∀ u, s.lvtWritten = some u → ∃ t, exec .lvtTick s = .next t ∧ t.vbr = { u.vbr with gen := (s.vbr.gen + 1) % 2 ^ 64, lvtDue := false }
      ∧ t.gwl = u.gwl ∧ t.regs = u.regs)
    ∧ (s.lvtWritten = none → ∃ t, exec .lvtTick s = .next t ∧ t.flag F.VBR_LVT_CTRL.EN = false ∧ t.flag F.VBR_STAT.LVT_OFF = true
      ∧ t.vbr.gen = s.vbr.gen) := by
  obtain ⟨all, refused⟩ := s.tickTaken.writeEach_two { kind := .lvt } s.sigDomain 0 (s.lvtBase + 0x1000 * (s.vbr.gen % 2)) (s.lvtBase + 0x2000)
    ((List.range 256).flatMap s.lvtBytes) (leBytes 8 s.vbr.gen)
  rw [s.lvtWritten_tick] at all refused
  have acts := doLvtTick_due s due on table calm old _ rfl
  refine ⟨fun u written => ?_, fun none => ?_⟩
  · rw [all u.tickTaken (by rw [written]; rfl), if_pos rfl] at acts
    exact ⟨_, congrArg Host.Outcome.next acts, rfl, rfl, rfl⟩
  · rw [if_neg (by rw [refused (by rw [none]; rfl)]; decide)] at acts
    obtain ⟨off, shown, vbr⟩ := State.lvtOff_shows (s.tickTaken.writeEach { kind := .lvt } s.sigDomain 0
      [(s.lvtBase + 0x1000 * (s.vbr.gen % 2), (List.range 256).flatMap s.lvtBytes), (s.lvtBase + 0x2000, leBytes 8 s.vbr.gen)]).1
    exact ⟨_, congrArg Host.Outcome.next acts, off, shown, (congrArg Vbr.gen (vbr.trans (State.writeEach_vbr _ _ _ _ _))).trans rfl⟩

/-! A poll, and the copy of a table entry (R486, R507). -/

/-- The transfer of a poll. -/
def pollJob (k : Nat) (b : List Byte) : TunJob := { use := .poll k, reg16 := lvReg16 b, dev := lvDev b, reg := lvReg b, len := lvRegs b }

theorem exec_lvtPoll (s : State) (k : Fin 256) (on : s.flag F.VBR_CTRL.EN = true) (en : entEn (s.vbrEntry 3 k) = true)
    (poll : lvPoll (s.vbrEntry 3 k) = true) (calm : s.fcl.safe = false) (idle : s.injIdle) (up : s.tunUp (lvPort (s.vbrEntry 3 k)) = true) :
    ∃ t, exec (.lvtPoll k) s = .next t ∧ (t.vbr.tun.get (lvPort (s.vbrEntry 3 k))).jobs
      = (s.vbr.tun.get (lvPort (s.vbrEntry 3 k))).jobs ++ [pollJob k (s.vbrEntry 3 k)] ∧ t.regs = s.regs := by
  have acts : doLvtPoll k s = s.queueXfer (lvPort (s.vbrEntry 3 k)) (pollJob k (s.vbrEntry 3 k)) :=
    if_pos ⟨on, en, poll, by rw [calm]; exact Bool.false_ne_true⟩
  rw [s.queueXfer_read _ _ rfl idle, s.admitXfer_up _ _ rfl up] at acts
  exact ⟨_, congrArg Host.Outcome.next acts, State.jobQueued_jobs _ _ _, State.jobQueued_regs _ _ _⟩

/-- The entry that a host names. -/
def State.entryNamed (s : State) (v : Nat) : State := (s.setFld F.VBR_TBL_ACC.TABLE (bits v 14 12)).setFld F.VBR_TBL_ACC.INDEX (bits v 11 0)

/-- The eight data registers take the words of an entry. -/
def State.entryShown (s : State) (b : List Byte) : State := s.each (List.range 8) (fun k s => s.wr .VBR_TBL_DATA (leAt b (4 * k) 4) k)

theorem State.entryNamed_shows (s : State) (v : Nat) : (s.entryNamed v).fld F.VBR_TBL_ACC.TABLE = bits v 14 12
    ∧ (s.entryNamed v).fld F.VBR_TBL_ACC.INDEX = bits v 11 0 ∧ (s.entryNamed v).offRegs = s.offRegs := by
  unfold State.entryNamed
  refine ⟨?_, ?_, ?_⟩
  · rw [State.fld_setFld_beside _ F.VBR_TBL_ACC.INDEX F.VBR_TBL_ACC.TABLE _ _ _ rfl (by decide) (by decide) (by decide),
      State.fld_setFld_same _ _ _ _ _ (by decide) (by decide)]
    exact Nat.mod_eq_of_lt (bits_lt v 14 12)
  · rw [State.fld_setFld_same _ _ _ _ _ (by decide) (by decide)]
    exact Nat.mod_eq_of_lt (bits_lt v 11 0)
  · rw [State.setFld_offRegs, State.setFld_offRegs]

theorem State.entryShown_offRegs (s : State) (b : List Byte) : (s.entryShown b).offRegs = s.offRegs := State.each_offRegs _ _ _ fun _ _ => rfl

theorem State.entryShown_fld (s : State) (b : List Byte) (f : Fld) (i j : Nat) (h : f.reg ≠ .VBR_TBL_DATA) :
    (s.entryShown b).fld f i j = s.fld f i j :=
  State.each_keeps (fun t : State => t.fld f i j) _ _ _ fun _ t => t.fld_wr_kind _ _ _ _ _ _ _ h

/-- The registers of a range, each written once. -/
theorem State.each_wr_read (s : State) (k : RegKind) (v : Nat → Nat) (n i : Nat) (low : i < n) (small : n ≤ 4096) :
    (s.each (List.range n) (fun i t => t.wr k (v i) i)).rd k i = v i % 2 ^ 32 := by
  induction n with
  | zero => omega
  | succ n ih =>
    unfold State.each at ih ⊢
    rw [List.range_succ, List.foldl_append, List.foldl_cons, List.foldl_nil]
    by_cases last : i = n
    · rw [last, State.rd_wr_same]
    · rw [State.rd_wr_other _ _ _ _ _ _ _ _ (RegKind.key_ne_index last (by omega) (by omega) _ _)]
      exact ih (by omega) (by omega)

theorem State.entryShown_data (s : State) (b : List Byte) (k : Nat) (low : k < 8) : (s.entryShown b).rd .VBR_TBL_DATA k = leAt b (4 * k) 4 :=
  (s.each_wr_read .VBR_TBL_DATA (fun k => leAt b (4 * k) 4) 8 k low (by omega)).trans (Nat.mod_eq_of_lt (leAt_lt b (4 * k) 4))

theorem doTableRead_named (s : State) (v : Nat) (keep : bit v 31 = false) : doTableRead v s = s.entryNamed v :=
  if_pos (by rw [keep]; exact Bool.false_ne_true)

theorem doTableRead_shown (s : State) (v : Nat) (go : bit v 31 = true) (low : bits v 11 0 < (vbrSize (bits v 14 12)).1) :
    doTableRead v s = (s.entryNamed v).entryShown (padTo 32 (s.vbrEntry (bits v 14 12) (bits v 11 0))) := by
  unfold doTableRead
  dsimp only
  rw [if_neg (not_not_intro go), if_pos low]
  rfl

theorem State.entryNamed_same (s : State) (v : Nat) (l : List RegId) (mem : (⟨.VBR_TBL_ACC, 0, 0⟩ : RegId) ∈ l) : SameRegs l s (s.entryNamed v) :=
  ((SameRegs.refl _ s).andFld mem (by omega)).andFld mem (by omega)

/-- Settles O50. -/
theorem bridgeCommandsAndValueTable : Obligations.BridgeCommandsAndValueTable := by
  intro s
  refine ⟨exec_bridgeCommands s, fun k => exec_lvtPoll s k, fun idle => congrArg Host.Outcome.next (doLvtTick_idle s idle),
    fun due on table calm old => exec_lvtTick s due on table calm old, fun w => ⟨fun keep => ?_, fun go low => ?_⟩⟩
  · obtain ⟨table, index, off⟩ := s.entryNamed_shows w.toNat
    exact ⟨_, congrArg Host.Outcome.next (doTableRead_named s w.toNat keep), table, index, s.entryNamed_same _ _ (by repeat constructor),
      State.regs_back off⟩
  · obtain ⟨table, index, off⟩ := s.entryNamed_shows w.toNat
    refine ⟨_, congrArg Host.Outcome.next (doTableRead_shown s w.toNat go low), State.regs_back ((State.entryShown_offRegs _ _).trans off), ?_, ?_,
      fun k low => State.entryShown_data _ _ k low, ?_⟩
    · rw [State.entryShown_fld _ _ _ _ _ (by decide), table]
    · rw [State.entryShown_fld _ _ _ _ _ (by decide), index]
    · refine (s.entryNamed_same _ _ List.mem_cons_self).each fun k mem u same => same.andWr ?_ ?_
      · exact List.mem_cons_of_mem _ (List.mem_map.mpr ⟨k, mem, rfl⟩)
      · have low := List.mem_range.mp mem
        omega
end Sys2Proof.Machine
end

section
/-! PROOFS. Remote windows. -/
namespace Sys2Proof.Machine

/-! A remote access out of reach or out of form (R487, R488). -/

theorem State.remoteRead_denied (s : State) (x : HostTxn)
    (denied : s.reachRemote x.dom.toNat (s.remoteAt x.addr.toNat).1 = false ∨ s.fcl.safe = true) : s.remoteRead x = s.answer x 3 [] := by
  unfold State.remoteRead
  exact if_pos (by simpa only [Bool.not_eq_true] using denied)

theorem State.remoteRead_bad (s : State) (x : HostTxn) (reach : s.reachRemote x.dom.toNat (s.remoteAt x.addr.toNat).1 = true)
    (calm : s.fcl.safe = false) (bad : s.remoteOk x.addr.toNat x.len.toNat = false) : s.remoteRead x = s.answer x 2 [] := by
  unfold State.remoteRead
  dsimp only
  rw [if_neg (by simp [reach, calm]), if_pos (by rw [bad]; exact Bool.false_ne_true)]

theorem State.remoteWrite_discards (s : State) (x : HostTxn) (bad : s.reachRemote x.dom.toNat (s.remoteAt x.addr.toNat).1 = false
    ∨ s.remoteOk x.addr.toNat x.len.toNat = false ∨ s.fcl.safe = true) : s.remoteWrite x 0 0 = s.count F.GWL_CNT4.DISCARD := by
  unfold State.remoteWrite
  exact if_pos (by simpa only [Bool.not_eq_true] using bad)

/-- A write of a remote window that is discarded only counts. -/
theorem exec_remoteWrite_discards (s : State) (x : HostTxn) (remote : inRemote x.addr.toNat = true)
    (bad : s.reachRemote x.dom.toNat (s.remoteAt x.addr.toNat).1 = false ∨ s.remoteOk x.addr.toNat x.len.toNat = false ∨ s.fcl.safe = true) :
    ∃ t, exec (.remoteWrite x) s = .next t ∧ t.fld F.GWL_CNT4.DISCARD = min F.GWL_CNT4.DISCARD.max (s.fld F.GWL_CNT4.DISCARD + 1)
      ∧ SameRegs [⟨.GWL_CNT4, 0, 0⟩] s t ∧ { t with regs := s.regs } = s :=
  ⟨_, congrArg Host.Outcome.next ((if_pos remote).trans (s.remoteWrite_discards x bad)), s.fld_count_same _ _ _ (by decide) (by decide),
    (SameRegs.refl _ s).andCount (by repeat constructor) (by omega), State.regs_back (State.count_offRegs _ _ _ _)⟩

theorem exec_remoteRead (s t : State) (x : HostTxn) (remote : inRemote x.addr.toNat = true) (acts : s.remoteRead x = t) :
    exec (.remoteRead x) s = .next t := congrArg Host.Outcome.next ((if_pos remote).trans acts)

/-! A read in form, of bytes that are not all prefetched (R490, R491). -/

/-- The open entry that a read finds. -/
def State.readFound (s : State) (x : HostTxn) : Option Nat := s.vbr.reads.keys.find? (fun i => match s.vbr.reads.get i with
  | some e => e.dom == x.dom.toNat && e.addr == x.addr.toNat && e.len == x.len.toNat && !e.orphan
  | none => false)

/-- The entry that a read opens. -/
def State.readOpened (s : State) (x : HostTxn) : OpenRead :=
  { dom := x.dom.toNat, addr := x.addr.toNat, len := x.len.toNat, port := (s.remoteAt x.addr.toNat).1, slot := (s.remoteAt x.addr.toNat).2.1
    dev := s.fld F.VBR_RSLOT.DEV (s.remoteAt x.addr.toNat).1 (s.remoteAt x.addr.toNat).2.1, reg := (s.remoteAt x.addr.toNat).2.2, pf := false
    first := (s.remoteAt x.addr.toNat).2.2, n := x.len.toNat }

/-- The transfer that a read of entry `k` queues. -/
def State.readJob (s : State) (x : HostTxn) (k : Nat) : TunJob :=
  { use := .read k, reg16 := s.flag F.VBR_RSLOT.REG16 (s.remoteAt x.addr.toNat).1 (s.remoteAt x.addr.toNat).2.1
    dev := s.fld F.VBR_RSLOT.DEV (s.remoteAt x.addr.toNat).1 (s.remoteAt x.addr.toNat).2.1, reg := (s.remoteAt x.addr.toNat).2.2, len := x.len.toNat }

theorem State.remoteRead_plain (s : State) (x : HostTxn) (reach : s.reachRemote x.dom.toNat (s.remoteAt x.addr.toNat).1 = true)
    (calm : s.fcl.safe = false) (good : s.remoteOk x.addr.toNat x.len.toNat = true)
    (plain : s.vbr.prefetchAll (s.remoteAt x.addr.toNat).1 (s.fld F.VBR_RSLOT.DEV (s.remoteAt x.addr.toNat).1 (s.remoteAt x.addr.toNat).2.1)
      (s.remoteAt x.addr.toNat).2.2 x.len.toNat = false) : s.remoteRead x = match s.readFound x with
      | some k => match s.vbr.reads.get k with
        | some e => match e.st with
          | .pending => s.retry x (s.remoteAt x.addr.toNat).1
          | .done => (s.freeRead k).answer x 0 (bytesAt e.data (e.reg - e.first) x.len.toNat) (some e)
          | .failed _ => (s.freeRead k).answer x 4 [] (some e)
        | none => s
      | none => if ¬ s.tunUp (s.remoteAt x.addr.toNat).1 then s.answer x 4 []
        else match (List.range 64).find? (fun k => (s.vbr.reads.get k).isNone) with
          | none => (s.count F.VBR_CNT2.RD_BUSY).retry x (s.remoteAt x.addr.toNat).1
          | some k => ((s.modVbr (fun v => { v with reads := v.reads.set k (some (s.readOpened x)) })).queueXfer (s.remoteAt x.addr.toNat).1
              (s.readJob x k)).retry x (s.remoteAt x.addr.toNat).1 := by
  unfold State.remoteRead
  dsimp only
  rw [if_neg (by simp [reach, calm]), if_neg (not_not_intro good), plain]
  rfl

theorem State.readFound_none (s : State) (x : HostTxn) (none : s.vbr.reads.keys = []) : s.readFound x = Option.none := by
  unfold State.readFound
  rw [none]
  rfl

theorem State.firstRead_free (s : State) (none : s.vbr.reads.keys = []) : (List.range 64).find? (fun k => (s.vbr.reads.get k).isNone) = some 0 := by
  have free : s.vbr.reads.get 0 = Option.none := Tbl.get_of_not_mem_keys _ _ (by rw [none]; exact List.not_mem_nil)
  rw [show List.range 64 = 0 :: (List.range 63).map (· + 1) by decide, List.find?_cons_of_pos]
  rw [free]
  rfl

theorem State.freeRead_shows (s : State) (i : Nat) : (s.freeRead i).vbr.reads.get i = none
    ∧ (∀ j, j ≠ i → (s.freeRead i).vbr.reads.get j = s.vbr.reads.get j) ∧ (s.freeRead i).regs = s.regs :=
  ⟨Tbl.get_set_same _ _ _, fun _ other => Tbl.get_set_other _ _ _ _ other, rfl⟩

/-- An entry opened, and its transfer queued at a port that is up. -/
def State.readQueued (s : State) (x : HostTxn) : State :=
  (s.modVbr (fun v => { v with reads := v.reads.set 0 (some (s.readOpened x)) })).jobQueued (s.remoteAt x.addr.toNat).1 (s.readJob x 0)

theorem State.readQueued_shows (s : State) (x : HostTxn) : (s.readQueued x).vbr.reads.get 0 = some (s.readOpened x)
    ∧ ((s.readQueued x).vbr.tun.get (s.remoteAt x.addr.toNat).1).jobs = (s.vbr.tun.get (s.remoteAt x.addr.toNat).1).jobs ++ [s.readJob x 0]
    ∧ (s.readQueued x).regs = s.regs :=
  ⟨Tbl.get_set_same _ _ _, State.jobQueued_jobs _ _ _, rfl⟩

theorem State.remoteRead_opens (s : State) (x : HostTxn) (reach : s.reachRemote x.dom.toNat (s.remoteAt x.addr.toNat).1 = true)
    (calm : s.fcl.safe = false) (good : s.remoteOk x.addr.toNat x.len.toNat = true)
    (plain : s.vbr.prefetchAll (s.remoteAt x.addr.toNat).1 (s.fld F.VBR_RSLOT.DEV (s.remoteAt x.addr.toNat).1 (s.remoteAt x.addr.toNat).2.1)
      (s.remoteAt x.addr.toNat).2.2 x.len.toNat = false) (none : s.vbr.reads.keys = []) (up : s.tunUp (s.remoteAt x.addr.toNat).1 = true)
    (idle : s.injIdle) : s.remoteRead x = (s.readQueued x).retry x (s.remoteAt x.addr.toNat).1 := by
  rw [s.remoteRead_plain x reach calm good plain, s.readFound_none x none]
  dsimp only
  rw [if_neg (not_not_intro up), s.firstRead_free none]
  dsimp only
  rw [State.queueXfer_read _ _ _ rfl (State.injIdle_of_fcl (State.modVbr_fcl _ _) idle),
    State.admitXfer_up _ _ _ rfl ((State.tunUp_of_regs (State.modVbr_regs _ _) _).trans up)]
  rfl

/-! A write in form (R492). -/

/-- The transfer of a write. -/
def State.writeJob (s : State) (x : HostTxn) : TunJob :=
  { use := .write x.dom.toNat x.tag.toNat, wr := true, reg16 := s.flag F.VBR_RSLOT.REG16 (s.remoteAt x.addr.toNat).1 (s.remoteAt x.addr.toNat).2.1
    dev := s.fld F.VBR_RSLOT.DEV (s.remoteAt x.addr.toNat).1 (s.remoteAt x.addr.toNat).2.1, reg := (s.remoteAt x.addr.toNat).2.2, len := x.len.toNat
    data := padTo x.len.toNat x.data }

/-- Dropping cache lines keeps the transfers and the registers. -/
theorem State.invalidate_rest (s : State) (p dev r n : Nat) : (s.invalidate p dev r n).vbr.tun = s.vbr.tun ∧ (s.invalidate p dev r n).regs = s.regs
    ∧ (s.invalidate p dev r n).fcl = s.fcl :=
  ⟨State.each_keeps (fun t : State => t.vbr.tun) _ _ _ fun _ _ => rfl, State.each_keeps State.regs _ _ _ fun _ _ => rfl,
    State.each_keeps State.fcl _ _ _ fun _ _ => rfl⟩

theorem State.remoteWrite_queues (s : State) (x : HostTxn) (reach : s.reachRemote x.dom.toNat (s.remoteAt x.addr.toNat).1 = true)
    (calm : s.fcl.safe = false) (good : s.remoteOk x.addr.toNat x.len.toNat = true) (up : s.tunUp (s.remoteAt x.addr.toNat).1 = true)
    (idle : s.injIdle)
    (few : (s.vbr.tun.get (s.remoteAt x.addr.toNat).1).writes + (s.vbr.tun.get (s.remoteAt x.addr.toNat).1).held.length < 16) :
    s.remoteWrite x 0 0 = (s.invalidate (s.remoteAt x.addr.toNat).1 (s.writeJob x).dev (s.writeJob x).reg (s.writeJob x).len).jobQueued
      (s.remoteAt x.addr.toNat).1 (s.writeJob x) := by
  obtain ⟨-, regs, fcl⟩ := s.invalidate_rest (s.remoteAt x.addr.toNat).1 (s.writeJob x).dev (s.writeJob x).reg (s.writeJob x).len
  have queued : s.queueXfer (s.remoteAt x.addr.toNat).1 (s.writeJob x) =
    (s.invalidate (s.remoteAt x.addr.toNat).1 (s.writeJob x).dev (s.writeJob x).reg
      (s.writeJob x).len).jobQueued (s.remoteAt x.addr.toNat).1 (s.writeJob x) := by
    unfold State.queueXfer
    rw [show (s.writeJob x).wr = true from rfl, State.when_true, State.passXfer_idle _ _ _ (State.injIdle_of_fcl fcl idle),
      State.admitXfer_up _ _ _ rfl ((State.tunUp_of_regs regs _).trans up)]
  rw [← queued]
  unfold State.remoteWrite
  dsimp only
  rw [if_neg (by simp [reach, good, calm]), if_neg (by omega), if_pos rfl]
  rfl

/-! The end of a transfer (R491 to R493). -/

theorem xorAt_zero (a : Nat) (b : List Byte) : xorAt a 0 b = b := by
  unfold xorAt
  cases b with
  | nil => rfl
  | cons c b =>
    rw [if_neg (by simp)]
    have low : a % (c :: b).length < (c :: b).length := Nat.mod_lt _ (by simp)
    obtain ⟨i, hi⟩ : ∃ i, i = a % (c :: b).length := ⟨_, rfl⟩
    rw [← hi] at low ⊢
    dsimp only
    rw [show BitVec.ofNat 8 0 = 0#8 from rfl, BitVec.xor_zero, List.getD_eq_getElem _ _ low, List.append_assoc, List.singleton_append,
      List.getElem_cons_drop low, List.take_append_drop]

/-- The transfer at the front leaves its port's queue. -/
def State.xferLeft (s : State) (q : Nat) (rest : List TunJob) : State := s.modTun q (fun t => { t with jobs := rest })

theorem State.tunEnd_front (s : State) (q : Nat) (res : TunJob → Except Nat (List Byte)) (j : TunJob) (rest : List TunJob)
    (front : (s.vbr.tun.get q).jobs = j :: rest) (free : (s.vbr.tun.get q).held = []) :
    s.tunEnd q res = (s.xferLeft q rest).xferEnd q j (res j) := by
  have held : ((s.xferLeft q rest).vbr.tun.get q).held = [] := (congrArg Tunnel.held (Tbl.get_upd_same _ _ _)).trans free
  have same : (s.xferLeft q rest).admitHeld q = s.xferLeft q rest := by
    unfold State.admitHeld
    rw [held]
  unfold State.tunEnd
  rw [front]
  exact congrArg (State.xferEnd q j (res j)) same

/-- A read's entry takes the bytes that came. -/
def State.entryFilled (s : State) (i : Nat) (b : List Byte) : State := s.modRead i (fun e => { e with st := .done, data := b, tod := s.now.tod })

theorem State.xferEnd_read (s : State) (q i : Nat) (j : TunJob) (e : OpenRead) (b : List Byte) (use : j.use = .read i)
    (entry : s.vbr.reads.get i = some e) (kept : e.orphan = false) (single : e.pf = false) (frozen : s.flag F.PMU_CTRL.FREEZE = true) :
    s.xferEnd q j (.ok b) = s.entryFilled i b := by
  have filled : (s.entryFilled i b).vbr.reads.get i = some { e with st := .done, data := b, tod := s.now.tod } :=
    (Tbl.get_upd_same _ _ _).trans (congrArg (Option.map _) entry)
  unfold State.xferEnd
  dsimp only
  rw [s.pmuAdd_frozen _ _ _ frozen]
  unfold State.xferUser
  rw [use]
  dsimp only
  rw [entry, Option.map_some, single, Bool.false_and, Option.getD_some, State.when_false,
    show s.modRead i (fun e => { e with st := .done, data := b, tod := s.now.tod }) = s.entryFilled i b from rfl, filled]
  exact if_neg (by rw [kept]; exact Bool.false_ne_true)

theorem State.entryFilled_shows (s : State) (i : Nat) (e : OpenRead) (b : List Byte) (entry : s.vbr.reads.get i = some e) :
    (∃ f, (s.entryFilled i b).vbr.reads.get i = some f ∧ f.st = .done ∧ f.data = b)
    ∧ (s.entryFilled i b).vbr.tun = s.vbr.tun ∧ (s.entryFilled i b).regs = s.regs
    ∧ ∀ y, y ≠ i → (s.entryFilled i b).vbr.reads.get y = s.vbr.reads.get y :=
  ⟨⟨_, (Tbl.get_upd_same _ _ _).trans (congrArg (Option.map _) entry), rfl, rfl⟩, rfl, rfl, fun _ other => Tbl.get_upd_other _ _ _ _ other⟩

theorem exec_tunnelXferDone_read (s : State) (q : Fin 32) (b : List Byte) (i : Nat) (e : OpenRead) (j : TunJob) (rest : List TunJob)
    (front : (s.vbr.tun.get q).jobs = j :: rest) (free : (s.vbr.tun.get q).held = []) (use : j.use = .read i) (read : j.wr = false)
      (clean : j.mask = 0)
    (entry : s.vbr.reads.get i = some e) (kept : e.orphan = false) (single : e.pf = false) (frozen : s.flag F.PMU_CTRL.FREEZE = true) :
    ∃ t f, exec (.tunnelXferDone q (some b) 0) s = .next t ∧ (t.vbr.tun.get q).jobs = rest ∧ t.vbr.reads.get i = some f ∧ f.st = .done
      ∧ f.data = padTo j.len b ∧ t.regs = s.regs ∧ ∀ y, y ≠ i → t.vbr.reads.get y = s.vbr.reads.get y := by
  have acts := s.tunEnd_front q (fun j => .ok (if j.wr then [] else xorAt 0 j.mask (padTo j.len b))) j rest front free
  rw [read, if_neg Bool.false_ne_true, clean, xorAt_zero, State.xferEnd_read (s.xferLeft q rest) _ i j e _ use entry kept single
    ((State.flag_of_regs rfl _ _ _).trans frozen)] at acts
  obtain ⟨⟨f, get, done, data⟩, tun, regs, others⟩ := (s.xferLeft q rest).entryFilled_shows i e (padTo j.len b) entry
  exact ⟨_, f, congrArg Host.Outcome.next acts, (congrArg (fun t : Tbl Tunnel => (t.get q).jobs) tun).trans
    (congrArg Tunnel.jobs (Tbl.get_upd_same _ _ _)), get, done, data, regs, others⟩

theorem State.xferEnd_write (s : State) (q : Nat) (j : TunJob) (d tag c : Nat) (use : j.use = .write d tag) : s.xferEnd q j (.error c)
    = (((s.pmuAdd 0x285 q).raise 35 q).lupSubmit 0x30 0 0 (xferArg q j.dev j.len) (j.reg <<< 16 + c)).writeLate q j d tag c := by
  unfold State.xferEnd State.xferUser
  rw [use]

theorem exec_tunnelXferTimeout_write (s : State) (q : Fin 32) (d tag : Nat) (j : TunJob) (rest : List TunJob)
    (front : (s.vbr.tun.get q).jobs = j :: rest) (free : (s.vbr.tun.get q).held = []) (use : j.use = .write d tag) :
    ∃ u : State, exec (.tunnelXferTimeout q) s = .next ((((u.pmuAdd 0x285 q).raise 35 q).lupSubmit 0x30 0 0 (xferArg q j.dev j.len)
          (j.reg <<< 16 + 2)).writeLate q j d tag 2)
      ∧ exec (.tunnelXferDone q none 2) s = exec (.tunnelXferTimeout q) s ∧ (u.vbr.tun.get q).jobs = rest ∧ u.regs = s.regs := by
  have acts := (s.tunEnd_front q (fun _ => .error 2) j rest front free).trans (State.xferEnd_write _ q j d tag 2 use)
  have late : exec (.tunnelXferTimeout q) s = .next (s.tunEnd q (fun _ => .error 2)) := rfl
  have refused : exec (.tunnelXferDone q none 2) s = .next (s.tunEnd q (fun _ => .error 2)) := rfl
  exact ⟨s.xferLeft q rest, late.trans (congrArg Host.Outcome.next acts), refused.trans late.symm, congrArg Tunnel.jobs (Tbl.get_upd_same _ _ _), rfl⟩

/-! What expires (R493). -/

theorem doOpenReadExpiry_pending (s : State) (i : Nat) (e : OpenRead) (entry : s.vbr.reads.get i = some e) (pending : e.st = .pending) :
    doOpenReadExpiry i s = s := by
  unfold doOpenReadExpiry
  rw [entry]
  exact if_pos pending

theorem doOpenReadExpiry_done (s : State) (i : Nat) (e : OpenRead) (entry : s.vbr.reads.get i = some e) (done : e.st = .done) :
    doOpenReadExpiry i s = if e.pf then (s.freeRead i).count F.VBR_CNT2.PF_DROP else (s.freeRead i).parkRead e := by
  have expires : s.expireRead i = (s.freeRead i).expired e := by
    unfold State.expireRead
    rw [entry]
  unfold doOpenReadExpiry
  rw [entry]
  dsimp only
  rw [if_neg (by rw [done]; exact fun h => nomatch h), expires]
  unfold State.expired
  rw [done]

theorem exec_openReadExpiry (s : State) (i : Fin 64) (e : OpenRead) (entry : s.vbr.reads.get i = some e) :
    (e.st = .pending → exec (.openReadExpiry i) s = .next s)
    ∧ (e.st = .done → e.pf = true → ∃ t, exec (.openReadExpiry i) s = .next t ∧ t.vbr.reads.get i = none
      ∧ t.fld F.VBR_CNT2.PF_DROP = min F.VBR_CNT2.PF_DROP.max (s.fld F.VBR_CNT2.PF_DROP + 1) ∧ SameRegs [⟨.VBR_CNT2, 0, 0⟩] s t
      ∧ t.vbr.park = s.vbr.park)
    ∧ (e.st = .done → e.pf = false → ∃ u : State, exec (.openReadExpiry i) s = .next (u.parkRead e) ∧ u.vbr.reads.get i = none
      ∧ (∀ y, y ≠ i.val → u.vbr.reads.get y = s.vbr.reads.get y) ∧ { u with vbr := s.vbr } = s) := by
  obtain ⟨gone, others, regs⟩ := s.freeRead_shows i
  refine ⟨fun pending => congrArg Host.Outcome.next (doOpenReadExpiry_pending s i e entry pending), fun done pf => ?_, fun done pf => ?_⟩
  · have acts := (doOpenReadExpiry_done s i e entry done).trans (if_pos pf)
    have counted := (s.freeRead i).fld_count_same F.VBR_CNT2.PF_DROP 0 0 (by decide) (by decide)
    rw [State.fld_of_regs regs] at counted
    refine ⟨_, congrArg Host.Outcome.next acts, ?_, counted, ?_, ?_⟩
    · rw [State.count_vbr, gone]
    · exact (SameRegs.of_regs (SameRegs.refl _ s) regs).andCount (by repeat constructor) (by omega)
    · rw [State.count_vbr]
      rfl
  · exact ⟨_, congrArg Host.Outcome.next ((doOpenReadExpiry_done s i e entry done).trans (if_neg (by rw [pf]; exact Bool.false_ne_true))),
      gone, others, rfl⟩

/-- Settles O49. -/
theorem remoteWindowsReadThroughOpenEntries : Obligations.RemoteWindowsReadThroughOpenEntries := by
  intro s x a n p k r dev
  refine ⟨fun remote => ⟨fun denied => ⟨exec_remoteRead s _ x remote (s.remoteRead_denied x denied), ?_⟩,
      fun reach calm bad => ⟨exec_remoteRead s _ x remote (s.remoteRead_bad x reach calm bad), ?_⟩, fun reach calm good plain => ?reads,
      fun reach calm good up idle few => ?writes⟩,
    exec_tunnelXferDone_read s, exec_tunnelXferTimeout_write s, exec_openReadExpiry s, fun q y => ?cache, fun y => ?park⟩
  · exact exec_remoteWrite_discards s x remote (denied.imp_right Or.inr)
  · exact exec_remoteWrite_discards s x remote (Or.inr (Or.inl bad))
  case reads =>
    have acts := s.remoteRead_plain x reach calm good plain
    refine ⟨fun i e found entry => ?_, fun none down => ?_, fun none up idle => ?_⟩
    · rw [show s.readFound x = some i from found] at acts
      dsimp only at acts
      rw [entry] at acts
      dsimp only at acts
      obtain ⟨gone, others, regs⟩ := s.freeRead_shows i
      refine ⟨fun pending => exec_remoteRead s _ x remote (acts.trans (by rw [pending])), fun done => ⟨s.freeRead i, ?_, gone, others, regs⟩,
        fun c failed => ⟨s.freeRead i, ?_, gone, regs⟩⟩
      · exact exec_remoteRead s _ x remote (acts.trans (by rw [done]))
      · exact exec_remoteRead s _ x remote (acts.trans (by rw [failed]))
    · rw [s.readFound_none x none] at acts
      exact exec_remoteRead s _ x remote (acts.trans (if_pos (by rw [down]; exact Bool.false_ne_true)))
    · obtain ⟨entry, jobs, regs⟩ := s.readQueued_shows x
      exact ⟨s.readQueued x, s.readOpened x, s.readJob x 0, exec_remoteRead s _ x remote (s.remoteRead_opens x reach calm good plain none up idle),
        entry, rfl, rfl, rfl, rfl, jobs, rfl, rfl, rfl, rfl, rfl, regs⟩
  case writes =>
    have acts := s.remoteWrite_queues x reach calm good up idle few
    obtain ⟨tun, regs, -⟩ := s.invalidate_rest (s.remoteAt x.addr.toNat).1 (s.writeJob x).dev (s.writeJob x).reg (s.writeJob x).len
    refine ⟨_, congrArg Host.Outcome.next ((if_pos remote).trans acts), ?_, (State.jobQueued_regs _ _ _).trans regs⟩
    exact (State.jobQueued_jobs _ _ _).trans (by rw [tun]; rfl)
  case cache => exact ⟨_, rfl, Tbl.get_set_same _ _ _, fun z other => Tbl.get_set_other _ _ _ _ other, rfl⟩
  case park => exact ⟨_, rfl, Tbl.get_set_same _ _ _, fun z other => Tbl.get_set_other _ _ _ _ other, rfl⟩
end Sys2Proof.Machine
end

section
/-! PROOFS. CAN channels. -/
namespace Sys2Proof.Machine

/-! Error states of a channel (R469, R470). -/

theorem State.canJoin_shows (s : State) (c : Nat) : (s.canJoin c).fld F.VBR_CAN_STAT.STATE c = 0 ∧ (s.canJoin c).fld F.VBR_CAN_STAT.REC c = 0
    ∧ (s.canJoin c).fld F.VBR_CAN_STAT.TEC c = 0 ∧ (s.canJoin c).flag F.VBR_CAN_STAT.BUS_OFF c = s.flag F.VBR_CAN_STAT.BUS_OFF c := by
  unfold State.canJoin
  refine ⟨?_, ?_, ?_, ?_⟩
  · rw [State.fld_setFld_beside _ F.VBR_CAN_STAT.TEC F.VBR_CAN_STAT.STATE _ _ _ rfl (by decide) (by decide) (by decide),
      State.fld_setFld_beside _ F.VBR_CAN_STAT.REC F.VBR_CAN_STAT.STATE _ _ _ rfl (by decide) (by decide) (by decide),
      State.fld_setFld_same _ _ _ _ _ (by decide) (by decide), Nat.zero_mod]
  · rw [State.fld_setFld_beside _ F.VBR_CAN_STAT.TEC F.VBR_CAN_STAT.REC _ _ _ rfl (by decide) (by decide) (by decide),
      State.fld_setFld_same _ _ _ _ _ (by decide) (by decide), Nat.zero_mod]
  · rw [State.fld_setFld_same _ _ _ _ _ (by decide) (by decide), Nat.zero_mod]
  · rw [State.flag_setFld_beside _ F.VBR_CAN_STAT.TEC F.VBR_CAN_STAT.BUS_OFF _ _ _ rfl (by decide) (by decide) (by decide),
      State.flag_setFld_beside _ F.VBR_CAN_STAT.REC F.VBR_CAN_STAT.BUS_OFF _ _ _ rfl (by decide) (by decide) (by decide),
      State.flag_setFld_beside _ F.VBR_CAN_STAT.STATE F.VBR_CAN_STAT.BUS_OFF _ _ _ rfl (by decide) (by decide) (by decide)]

theorem State.canJoin_same (s : State) (c : Fin 4) : SameRegs [⟨.VBR_CAN_STAT, c, 0⟩] s (s.canJoin c) :=
  (((SameRegs.refl _ s).andFld (by repeat constructor) (by omega)).andFld (by repeat constructor) (by omega)).andFld
    (by repeat constructor) (by omega)

theorem State.canJoin_offRegs (s : State) (c : Nat) : (s.canJoin c).offRegs = s.offRegs := by
  unfold State.canJoin
  rw [State.setFld_offRegs, State.setFld_offRegs, State.setFld_offRegs]

/-- A channel that went bus-off. -/
def State.busOff (s : State) (c : Nat) : State := (s.setFld F.VBR_CAN_STAT.STATE 2 c).setFlag F.VBR_CAN_STAT.BUS_OFF true c

theorem exec_canBusOff (s : State) (c : Fin 4) (on : s.canOn c = true) : ∃ u : State,
    exec (.canBusOff c) s = .next ((u.event s.sigDomain 0x64 c 2 0 0).raise 33 c) ∧ u.fld F.VBR_CAN_STAT.STATE c = 2
      ∧ u.flag F.VBR_CAN_STAT.BUS_OFF c = true ∧ SameRegs [⟨.VBR_CAN_STAT, c, 0⟩] s u ∧ { u with regs := s.regs } = s := by
  refine ⟨s.busOff c, congrArg Host.Outcome.next (if_pos on), ?_, State.flag_setFlag_same _ _ _ _ _ rfl (by decide),
    ((SameRegs.refl _ s).andFld (by repeat constructor) (by omega)).andFlag (by repeat constructor) (by omega),
    State.regs_back ((State.setFlag_offRegs _ _ _ _ _).trans (State.setFld_offRegs _ _ _ _ _))⟩
  unfold State.busOff
  rw [State.fld_setFlag_beside _ F.VBR_CAN_STAT.BUS_OFF F.VBR_CAN_STAT.STATE _ _ _ rfl (by decide) (by decide) (by decide),
    State.fld_setFld_same _ _ _ _ _ (by decide) (by decide)]
  rfl

theorem exec_restart (s : State) (c : Fin 4) (off : s.fld F.VBR_CAN_STAT.STATE c = 2) (calm : s.fcl.safe = false) :
    (s.flag F.VBR_CAN_CTRL.AUTO_REC c = false → exec (.canBusOffRecovery c) s = .next s)
    ∧ ∃ t, exec (.restart c) s = .next t ∧ (s.flag F.VBR_CAN_CTRL.AUTO_REC c = true → exec (.canBusOffRecovery c) s = .next t)
      ∧ t.fld F.VBR_CAN_STAT.STATE c = 0 ∧ t.fld F.VBR_CAN_STAT.REC c = 0 ∧ t.fld F.VBR_CAN_STAT.TEC c = 0
      ∧ t.flag F.VBR_CAN_STAT.BUS_OFF c = s.flag F.VBR_CAN_STAT.BUS_OFF c ∧ SameRegs [⟨.VBR_CAN_STAT, c, 0⟩] s t
      ∧ { t with regs := s.regs } = s := by
  obtain ⟨state, rec, tec, bus⟩ := s.canJoin_shows c
  have calm' : ¬ s.fcl.safe = true := by rw [calm]; exact Bool.false_ne_true
  exact ⟨fun manual => congrArg Host.Outcome.next (if_neg (by simp [manual])), s.canJoin c, congrArg Host.Outcome.next (if_pos ⟨off, calm'⟩),
    fun auto => congrArg Host.Outcome.next (if_pos ⟨off, auto, calm'⟩), state, rec, tec, bus, s.canJoin_same c,
    State.regs_back (s.canJoin_offRegs c)⟩

/-- The state that the two error counts give (R469). -/
theorem State.canState_shows (s : State) (c : Nat) : (s.canState c).fld F.VBR_CAN_STAT.REC c = s.fld F.VBR_CAN_STAT.REC c
    ∧ (s.canState c).fld F.VBR_CAN_STAT.TEC c = s.fld F.VBR_CAN_STAT.TEC c
    ∧ (s.canState c).fld F.VBR_CAN_STAT.STATE c = if 127 < s.fld F.VBR_CAN_STAT.REC c ∨ 127 < s.fld F.VBR_CAN_STAT.TEC c then 1 else 0 := by
  unfold State.canState
  refine ⟨State.fld_setFld_beside _ _ _ _ _ _ rfl (by decide) (by decide) (by decide),
    State.fld_setFld_beside _ _ _ _ _ _ rfl (by decide) (by decide) (by decide), ?_⟩
  rw [State.fld_setFld_same _ _ _ _ _ (by decide) (by decide)]
  by_cases many : 127 < s.fld F.VBR_CAN_STAT.REC c ∨ 127 < s.fld F.VBR_CAN_STAT.TEC c
  · rw [if_pos many, show (decide (127 < s.fld F.VBR_CAN_STAT.REC c) || decide (127 < s.fld F.VBR_CAN_STAT.TEC c)) = true by simpa using many]
    rfl
  · rw [if_neg many, show (decide (127 < s.fld F.VBR_CAN_STAT.REC c) || decide (127 < s.fld F.VBR_CAN_STAT.TEC c)) = false by simpa using many]
    rfl

theorem State.canState_offRegs (s : State) (c : Nat) : (s.canState c).offRegs = s.offRegs := State.setFld_offRegs _ _ _ _ _

/-- A counted error of the bus. -/
def State.busErred (s : State) (c : Nat) (f : Fld) (n : Nat) : State := (((s.count F.VBR_CAN_CNT.ERR c).addTo f n c).canState c)

theorem State.busErred_rest (s : State) (c : Fin 4) (f : Fld) (n : Nat) (stat : f.reg = .VBR_CAN_STAT) :
    SameRegs [⟨.VBR_CAN_STAT, c, 0⟩, ⟨.VBR_CAN_CNT, c, 0⟩] s (s.busErred c f n) ∧ { s.busErred c f n with regs := s.regs } = s :=
  ⟨(((SameRegs.refl _ s).andCount (by repeat constructor) (by omega)).andAdd (by rw [stat]; repeat constructor) (by omega)).andFld
      (by repeat constructor) (by omega),
    State.regs_back ((State.canState_offRegs _ _).trans ((State.addTo_offRegs _ _ _ _ _).trans (State.count_offRegs _ _ _ _)))⟩

theorem exec_canBusError_rx (s : State) (c : Fin 4) (on : s.canOn c = true) : ∃ t, exec (.canBusError c false) s = .next t
    ∧ t.fld F.VBR_CAN_CNT.ERR c = min F.VBR_CAN_CNT.ERR.max (s.fld F.VBR_CAN_CNT.ERR c + 1)
    ∧ t.fld F.VBR_CAN_STAT.REC c = min 255 (s.fld F.VBR_CAN_STAT.REC c + 1)
    ∧ t.fld F.VBR_CAN_STAT.STATE c = (if 126 < s.fld F.VBR_CAN_STAT.REC c ∨ 127 < s.fld F.VBR_CAN_STAT.TEC c then 1 else 0)
    ∧ SameRegs [⟨.VBR_CAN_STAT, c, 0⟩, ⟨.VBR_CAN_CNT, c, 0⟩] s t ∧ { t with regs := s.regs } = s := by
  have acts : doCanBusError c false s = s.busErred c F.VBR_CAN_STAT.REC 1 := if_neg (not_not_intro on)
  obtain ⟨same, back⟩ := s.busErred_rest c F.VBR_CAN_STAT.REC 1 rfl
  obtain ⟨rec, -, state⟩ := ((s.count F.VBR_CAN_CNT.ERR c).addTo F.VBR_CAN_STAT.REC 1 c).canState_shows c
  have added : ((s.count F.VBR_CAN_CNT.ERR c).addTo F.VBR_CAN_STAT.REC 1 c).fld F.VBR_CAN_STAT.REC c = min 255 (s.fld F.VBR_CAN_STAT.REC c + 1) := by
    rw [State.fld_addTo_same _ _ _ _ _ (by decide) (by decide), State.fld_count_kind _ F.VBR_CAN_CNT.ERR F.VBR_CAN_STAT.REC _ _ _ _ (by decide)]
    rfl
  have tec : ((s.count F.VBR_CAN_CNT.ERR c).addTo F.VBR_CAN_STAT.REC 1 c).fld F.VBR_CAN_STAT.TEC c = s.fld F.VBR_CAN_STAT.TEC c := by
    unfold State.addTo
    rw [State.fld_setFld_beside _ F.VBR_CAN_STAT.REC F.VBR_CAN_STAT.TEC _ _ _ rfl (by decide) (by decide) (by decide),
      State.fld_count_kind _ F.VBR_CAN_CNT.ERR F.VBR_CAN_STAT.TEC _ _ _ _ (by decide)]
  refine ⟨_, congrArg Host.Outcome.next acts, ?_, rec.trans added, ?_, same, back⟩
  · unfold State.busErred State.canState State.addTo
    rw [State.fld_setFld_kind _ _ _ _ _ _ _ _ (by decide), State.fld_setFld_kind _ _ _ _ _ _ _ _ (by decide),
      State.fld_count_same _ _ _ _ (by decide) (by decide)]
  · refine state.trans ?_
    rw [added, tec]
    congr 1
    exact propext (by omega)

theorem exec_canBusError_tx (s : State) (c : Fin 4) (on : s.canOn c = true) (few : s.fld F.VBR_CAN_STAT.TEC c + 8 ≤ 255) :
    ∃ t, exec (.canBusError c true) s = .next t ∧ t.fld F.VBR_CAN_STAT.TEC c = s.fld F.VBR_CAN_STAT.TEC c + 8
    ∧ t.fld F.VBR_CAN_STAT.STATE c = (if 127 < s.fld F.VBR_CAN_STAT.REC c ∨ 119 < s.fld F.VBR_CAN_STAT.TEC c then 1 else 0)
    ∧ SameRegs [⟨.VBR_CAN_STAT, c, 0⟩, ⟨.VBR_CAN_CNT, c, 0⟩] s t ∧ { t with regs := s.regs } = s := by
  have kept : (s.count F.VBR_CAN_CNT.ERR c).fld F.VBR_CAN_STAT.TEC c = s.fld F.VBR_CAN_STAT.TEC c := State.fld_count_kind _ _ _ _ _ _ _ (by decide)
  have acts : doCanBusError c true s = s.busErred c F.VBR_CAN_STAT.TEC 8 :=
    (if_neg (not_not_intro on)).trans ((if_pos rfl).trans (if_neg (by rw [kept]; omega)))
  obtain ⟨same, back⟩ := s.busErred_rest c F.VBR_CAN_STAT.TEC 8 rfl
  obtain ⟨-, tec, state⟩ := ((s.count F.VBR_CAN_CNT.ERR c).addTo F.VBR_CAN_STAT.TEC 8 c).canState_shows c
  have added : ((s.count F.VBR_CAN_CNT.ERR c).addTo F.VBR_CAN_STAT.TEC 8 c).fld F.VBR_CAN_STAT.TEC c = s.fld F.VBR_CAN_STAT.TEC c + 8 := by
    rw [State.fld_addTo_same _ _ _ _ _ (by decide) (by decide), kept]
    exact min_eq_right few
  have received : ((s.count F.VBR_CAN_CNT.ERR c).addTo F.VBR_CAN_STAT.TEC 8 c).fld F.VBR_CAN_STAT.REC c = s.fld F.VBR_CAN_STAT.REC c := by
    unfold State.addTo
    rw [State.fld_setFld_beside _ F.VBR_CAN_STAT.TEC F.VBR_CAN_STAT.REC _ _ _ rfl (by decide) (by decide) (by decide),
      State.fld_count_kind _ F.VBR_CAN_CNT.ERR F.VBR_CAN_STAT.REC _ _ _ _ (by decide)]
  refine ⟨_, congrArg Host.Outcome.next acts, tec.trans added, ?_, same, back⟩
  refine state.trans ?_
  rw [added, received]
  congr 1
  exact propext (by omega)

/-! Transmit objects and the frames they queue (R484). -/

/-- The object has been taken up. -/
def State.objTaken (s : State) (k : Nat) : State := s.modVbr (fun v => { v with objs := v.objs.upd k (fun o => { o with changed := false }) })

/-- The alive counter of an object's next frame. -/
def TxObj.next (o : TxObj) : Nat := (o.cnt.map (fun n => (n + 1) % 16)).getD 0

/-- The frame of an object. -/
def State.objFrame (s : State) (k : Nat) : CanFrame :=
  { obj := k, id := wfld (s.vbrEntry 2 k) 0 28 0, ext := bit (word (s.vbrEntry 2 k) 0) 30, fd := bit (word (s.vbrEntry 2 k) 0) 29
    brs := bit (word (s.vbrEntry 2 k) 1) 29 && bit (word (s.vbrEntry 2 k) 0) 29
    data := s.snapshot (s.vbrEntry 2 k) (s.vbr.objs.get k) (s.vbr.objs.get k).next }

/-- The frame takes its object's place in the queue. -/
def State.frameQueued (s : State) (c k : Nat) (f : CanFrame) : State :=
  s.modVbr (fun v => { v with canQ := v.canQ.upd c (fun q => q.filter (fun g => g.obj != k) ++ [f]) })

/-- The alive counter moves. -/
def State.objCounted (s : State) (k n : Nat) : State := s.modVbr (fun v => { v with objs := v.objs.upd k (fun o => { o with cnt := some n }) })

theorem doTxObjectDue_due (s : State) (k c : Nat) (on : s.flag F.VBR_CTRL.EN = true) (calm : s.fcl.safe = false) (en : entEn (s.vbrEntry 2 k) = true)
    (due : wfld (s.vbrEntry 2 k) 1 15 0 ≠ 0 ∨ (bit (word (s.vbrEntry 2 k) 1) 28 = true ∧ (s.vbr.objs.get k).changed = true))
    (channel : wfld (s.vbrEntry 2 k) 1 31 30 = c) : doTxObjectDue k s =
      if s.flag F.VBR_CAN_CTRL.MON c ∨ ¬ s.canOn c ∨ (bit (word (s.vbrEntry 2 k) 0) 29 ∧ ¬ s.flag F.VBR_CAN_CTRL.FD_EN c) then s.objTaken k
      else ((s.objTaken k).frameQueued c k (s.objFrame k)).when (bit (word (s.vbrEntry 2 k) 1) 21)
        (fun t => t.objCounted k (s.vbr.objs.get k).next) := by
  have held : ¬ (¬ s.flag F.VBR_CTRL.EN ∨ s.fcl.safe ∨ ¬ entEn (s.vbrEntry 2 k)
      ∨ ¬ (wfld (s.vbrEntry 2 k) 1 15 0 ≠ 0 ∨ (bit (word (s.vbrEntry 2 k) 1) 28 ∧ (s.vbr.objs.get k).changed))) := by
    rintro (h | h | h | h)
    · exact h on
    · rw [calm] at h
      exact Bool.false_ne_true h
    · exact h en
    · exact h due
  unfold doTxObjectDue
  dsimp only
  rw [if_neg held, channel]
  unfold State.objFrame TxObj.next
  cases (s.vbr.objs.get k).cnt with
  | none => rfl
  | some n => rfl

theorem State.objTaken_shows (s : State) (k : Nat) : ((s.objTaken k).vbr.objs.get k).changed = false
    ∧ ((s.objTaken k).vbr.objs.get k).payload = (s.vbr.objs.get k).payload ∧ (s.objTaken k).regs = s.regs ∧ (s.objTaken k).vbr.canQ = s.vbr.canQ :=
  ⟨(congrArg TxObj.changed (Tbl.get_upd_same _ _ _)).trans rfl, (congrArg TxObj.payload (Tbl.get_upd_same _ _ _)).trans rfl, rfl, rfl⟩

theorem State.objCounted_shows (s : State) (k n : Nat) : ((s.objCounted k n).vbr.objs.get k).changed = (s.vbr.objs.get k).changed
    ∧ ((s.objCounted k n).vbr.objs.get k).payload = (s.vbr.objs.get k).payload ∧ ((s.objCounted k n).vbr.objs.get k).cnt = some n
    ∧ (s.objCounted k n).regs = s.regs ∧ (s.objCounted k n).vbr.canQ = s.vbr.canQ :=
  ⟨(congrArg TxObj.changed (Tbl.get_upd_same _ _ _)).trans rfl, (congrArg TxObj.payload (Tbl.get_upd_same _ _ _)).trans rfl,
    congrArg TxObj.cnt (Tbl.get_upd_same _ _ _),
    rfl, rfl⟩

theorem State.frameQueued_shows (s : State) (c k : Nat) (f : CanFrame) :
    (s.frameQueued c k f).vbr.canQ.get c = (s.vbr.canQ.get c).filter (fun g => g.obj != k) ++ [f]
    ∧ (s.frameQueued c k f).vbr.objs = s.vbr.objs ∧ (s.frameQueued c k f).regs = s.regs :=
  ⟨Tbl.get_upd_same _ _ _, rfl, rfl⟩

/-- A frame queued, with its object's counter moved where it has one. -/
theorem State.objQueued_shows (s : State) (c k n : Nat) (f : CanFrame) (count : Bool) (t : State)
    (ht : t = ((s.objTaken k).frameQueued c k f).when count (fun t => t.objCounted k n)) : (t.vbr.objs.get k).changed = false
    ∧ (t.vbr.objs.get k).payload = (s.vbr.objs.get k).payload ∧ t.regs = s.regs ∧ (count = true → (t.vbr.objs.get k).cnt = some n)
    ∧ t.vbr.canQ.get c = (s.vbr.canQ.get c).filter (fun g => g.obj != k) ++ [f] := by
  obtain ⟨changed, payload, regs, queue⟩ := s.objTaken_shows k
  obtain ⟨queue', objs', regs'⟩ := (s.objTaken k).frameQueued_shows c k f
  rw [queue] at queue'
  cases count with
  | false =>
    subst ht
    exact ⟨changed, payload, regs, fun h => (nomatch h), queue'⟩
  | true =>
    obtain ⟨changed'', payload'', cnt, regs'', queue''⟩ := ((s.objTaken k).frameQueued c k f).objCounted_shows k n
    rw [objs'] at changed'' payload''
    subst ht
    exact ⟨changed''.trans changed, payload''.trans payload, regs''.trans (regs'.trans regs), fun _ => cnt,
      (congrArg (fun q : Tbl (List CanFrame) => q.get c) queue'').trans queue'⟩

theorem exec_txObjectDue (s : State) (c : Fin 4) (k : Fin 64) (on : s.flag F.VBR_CTRL.EN = true) (calm : s.fcl.safe = false)
    (en : entEn (s.vbrEntry 2 k) = true)
    (due : wfld (s.vbrEntry 2 k) 1 15 0 ≠ 0 ∨ (bit (word (s.vbrEntry 2 k) 1) 28 = true ∧ (s.vbr.objs.get k).changed = true))
    (channel : wfld (s.vbrEntry 2 k) 1 31 30 = c) : ∃ t, exec (.txObjectDue k) s = .next t ∧ (t.vbr.objs.get k).changed = false
      ∧ (t.vbr.objs.get k).payload = (s.vbr.objs.get k).payload ∧ t.regs = s.regs
      ∧ ((s.flag F.VBR_CAN_CTRL.MON c = true ∨ s.canOn c = false ∨ (bit (word (s.vbrEntry 2 k) 0) 29 = true
        ∧ s.flag F.VBR_CAN_CTRL.FD_EN c = false)) →
        t.vbr.canQ = s.vbr.canQ)
      ∧ (s.flag F.VBR_CAN_CTRL.MON c = false → s.canOn c = true → (bit (word (s.vbrEntry 2 k) 0) 29 = false ∨ s.flag F.VBR_CAN_CTRL.FD_EN c = true) →
        let n := ((s.vbr.objs.get k).cnt.map (fun n => (n + 1) % 16)).getD 0
        (bit (word (s.vbrEntry 2 k) 1) 21 = true → (t.vbr.objs.get k).cnt = some n)
        ∧ ∃ f : CanFrame, t.vbr.canQ.get c = (s.vbr.canQ.get c).filter (fun g => g.obj != k.val) ++ [f] ∧ f.obj = k.val
          ∧ f.id = wfld (s.vbrEntry 2 k) 0 28 0
          ∧ f.data = s.snapshot (s.vbrEntry 2 k) (s.vbr.objs.get k) n) := by
  have acts := doTxObjectDue_due s k c on calm en due channel
  by_cases silent : s.flag F.VBR_CAN_CTRL.MON c ∨ ¬ s.canOn c ∨ (bit (word (s.vbrEntry 2 k) 0) 29 ∧ ¬ s.flag F.VBR_CAN_CTRL.FD_EN c)
  · obtain ⟨changed, payload, regs, queue⟩ := s.objTaken_shows k
    rw [if_pos silent] at acts
    refine ⟨_, congrArg Host.Outcome.next acts, changed, payload, regs, fun _ => queue, fun loud live plain => absurd silent ?_⟩
    rintro (h | h | ⟨fd, off⟩)
    · rw [loud] at h
      exact Bool.false_ne_true h
    · exact h live
    · rcases plain with h | h
      · rw [fd] at h
        exact Bool.false_ne_true h.symm
      · exact off h
  · rw [if_neg silent] at acts
    obtain ⟨changed, payload, regs, cnt, queue⟩ := s.objQueued_shows c k (s.vbr.objs.get k).next (s.objFrame k)
      (bit (word (s.vbrEntry 2 k) 1) 21) _ rfl
    exact ⟨_, congrArg Host.Outcome.next acts, changed, payload, regs, fun quiet => absurd (by simpa only [Bool.not_eq_true] using quiet) silent,
      fun _ _ _ => ⟨cnt, s.objFrame k, queue, rfl, rfl, rfl⟩⟩

/-! The frame of lowest order leaves (R484). -/

theorem firstFrame_least (l : List CanFrame) (f : CanFrame) (first : firstFrame l = some f) (g : CanFrame) (mem : g ∈ l) : f.order ≤ g.order := by
  induction l generalizing f with
  | nil => exact absurd mem List.not_mem_nil
  | cons a r ih =>
    unfold firstFrame at first
    cases rest : firstFrame r with
    | none =>
      rw [rest] at first
      obtain rfl := Option.some.inj first
      have empty : r = [] := by
        cases r with
        | nil => rfl
        | cons b r =>
          unfold firstFrame at rest
          cases h : firstFrame r <;> rw [h] at rest <;> exact nomatch rest
      rw [empty, List.mem_singleton] at mem
      rw [mem]
    | some h =>
      rw [rest] at first
      have least := ih h rest
      dsimp only at first
      rcases List.mem_cons.mp mem with rfl | mem
      · split at first
        · obtain rfl := Option.some.inj first
          omega
        · obtain rfl := Option.some.inj first
          exact le_refl _
      · have low := least mem
        split at first
        · obtain rfl := Option.some.inj first
          exact low
        · obtain rfl := Option.some.inj first
          omega

/-- The frame leaves the queue, and the channel. -/
def State.frameLeft (s : State) (c : Nat) (f : CanFrame) : State :=
  (s.modVbr (fun v => { v with canQ := v.canQ.upd c (·.filter (fun g => g.obj != f.obj)) })).emit (.can c f)

/-- R469: a frame that was sent lowers the count of transmit errors. -/
def State.frameSent (s : State) (c : Nat) (f : CanFrame) : State :=
  ((s.frameLeft c f).setFld F.VBR_CAN_STAT.TEC ((s.frameLeft c f).fld F.VBR_CAN_STAT.TEC c - 1) c).canState c

theorem doCanFrameTx_sends (s : State) (c : Nat) (f : CanFrame) (idle : s.injIdle) (on : s.canOn c = true)
    (loud : s.flag F.VBR_CAN_CTRL.MON c = false)
    (first : firstFrame (s.vbr.canQ.get c) = some f) : doCanFrameTx c s = (s.frameSent c f).pmuAdd 0x281 c := by
  unfold doCanFrameTx
  rw [if_neg (by simp [on, loud]), first]
  dsimp only
  rw [State.inject_idle _ _ _ _ (State.injIdle_of_fcl (State.modVbr_fcl _ _) idle)]
  rfl

theorem exec_canFrameTx (s : State) (c : Fin 4) (idle : s.injIdle) (on : s.canOn c = true) (loud : s.flag F.VBR_CAN_CTRL.MON c = false)
    (f : CanFrame) (first : firstFrame (s.vbr.canQ.get c) = some f) : (∀ g, g ∈ s.vbr.canQ.get c → f.order ≤ g.order)
      ∧ ∃ u : State, exec (.canFrameTx c) s = .next (u.pmuAdd 0x281 c) ∧ u.out = s.out ++ [.can c f]
        ∧ u.vbr.canQ.get c = (s.vbr.canQ.get c).filter (fun g => g.obj != f.obj)
        ∧ u.fld F.VBR_CAN_STAT.TEC c = s.fld F.VBR_CAN_STAT.TEC c - 1 ∧ SameRegs [⟨.VBR_CAN_STAT, c, 0⟩] s u := by
  have regs : (s.frameLeft c f).regs = s.regs := rfl
  have low : s.fld F.VBR_CAN_STAT.TEC c < 256 := bits_lt _ 15 8
  obtain ⟨-, tec, -⟩ := ((s.frameLeft c f).setFld F.VBR_CAN_STAT.TEC ((s.frameLeft c f).fld F.VBR_CAN_STAT.TEC c - 1) c).canState_shows c
  refine ⟨fun g mem => firstFrame_least _ f first g mem, s.frameSent c f,
    congrArg Host.Outcome.next (doCanFrameTx_sends s c f idle on loud first), rfl,
    Tbl.get_upd_same _ _ _, ?_, ?_⟩
  · refine tec.trans ?_
    rw [State.fld_setFld_same _ _ _ _ _ (by decide) (by decide), State.fld_of_regs regs]
    exact Nat.mod_eq_of_lt (by show _ < 256; omega)
  · exact (((SameRegs.refl _ s).of_regs regs).andFld (by repeat constructor) (by omega)).andFld (by repeat constructor) (by omega)

/-! A received message (R468, R474 to R476). -/

/-- R469: a good frame is counted and lowers the count of receive errors. -/
def State.canHeard (s : State) (c : Nat) : State :=
  ((s.count F.VBR_CAN_CNT.RX c).setFld F.VBR_CAN_STAT.REC (s.fld F.VBR_CAN_STAT.REC c - 1) c).canState c

theorem State.canGood_few (s : State) (c : Nat) (frozen : s.flag F.PMU_CTRL.FREEZE = true) (few : s.fld F.VBR_CAN_STAT.REC c ≤ 127) :
    s.canGood c = s.canHeard c := by
  have frozen' : (s.count F.VBR_CAN_CNT.RX c).flag F.PMU_CTRL.FREEZE = true :=
    (congrArg (· == 1) (State.fld_count_kind _ F.VBR_CAN_CNT.RX F.PMU_CTRL.FREEZE _ _ _ _ (by decide))).trans frozen
  have kept : (s.count F.VBR_CAN_CNT.RX c).fld F.VBR_CAN_STAT.REC c = s.fld F.VBR_CAN_STAT.REC c := State.fld_count_kind _ _ _ _ _ _ _ (by decide)
  unfold State.canGood
  dsimp only
  rw [State.pmuAdd_frozen _ _ _ _ frozen', kept, if_neg (by omega)]
  rfl

theorem State.canHeard_counts (s : State) (c : Nat) :
    (s.canHeard c).fld F.VBR_CAN_CNT.RX c = min F.VBR_CAN_CNT.RX.max (s.fld F.VBR_CAN_CNT.RX c + 1)
    ∧ (s.canHeard c).fld F.VBR_CAN_STAT.REC c = s.fld F.VBR_CAN_STAT.REC c - 1 := by
  have low : s.fld F.VBR_CAN_STAT.REC c < 256 := bits_lt _ 23 16
  obtain ⟨rec, -⟩ := ((s.count F.VBR_CAN_CNT.RX c).setFld F.VBR_CAN_STAT.REC (s.fld F.VBR_CAN_STAT.REC c - 1) c).canState_shows c
  refine ⟨?_, rec.trans ?_⟩
  · unfold State.canHeard State.canState
    rw [State.fld_setFld_kind _ _ _ _ _ _ _ _ (by decide), State.fld_setFld_kind _ _ _ _ _ _ _ _ (by decide),
      State.fld_count_same _ _ _ _ (by decide) (by decide)]
  · rw [State.fld_setFld_same _ _ _ _ _ (by decide) (by decide)]
    exact Nat.mod_eq_of_lt (by show _ < 256; omega)

theorem State.vbr_of_offRegs {s t : State} (h : t.offRegs = s.offRegs) : t.vbr = s.vbr ∧ t.mgd = s.mgd :=
  ⟨(congrArg State.vbr h :), (congrArg State.mgd h :)⟩

/-- Nothing but the two registers of a channel has moved. -/
theorem State.canHeard_rest (s : State) (c : Nat) : (s.canHeard c).vbr = s.vbr ∧ (s.canHeard c).mgd = s.mgd
    ∧ ∀ f i j, f.reg ≠ RegKind.VBR_CAN_STAT → f.reg ≠ RegKind.VBR_CAN_CNT → (s.canHeard c).fld f i j = s.fld f i j := by
  have off : (s.canHeard c).offRegs = s.offRegs :=
    (State.canState_offRegs _ _).trans ((State.setFld_offRegs _ _ _ _ _).trans (State.count_offRegs _ _ _ _))
  obtain ⟨vbr, mgd⟩ := State.vbr_of_offRegs off
  refine ⟨vbr, mgd, fun f i j stat cnt => ?_⟩
  unfold State.canHeard State.canState
  rw [State.fld_setFld_kind _ _ _ _ _ _ _ _ stat, State.fld_setFld_kind _ _ _ _ _ _ _ _ stat, State.fld_count_kind _ _ _ _ _ _ _ cnt]

theorem State.passMessage_idle (s : State) (c : Nat) (m : CanMsg) (idle : s.injIdle) : s.passMessage c m = doCanMessageRx c m s := by
  unfold State.passMessage
  rw [s.inject_idle _ _ _ idle]
  rfl

theorem doCanMessageRx_heard (s : State) (c : Nat) (m : CanMsg) (on : s.canOn c = true) (data : m.rtr = false) (plain : m.fd = false)
    (frozen : s.flag F.PMU_CTRL.FREEZE = true) (few : s.fld F.VBR_CAN_STAT.REC c ≤ 127) : doCanMessageRx c m s =
      if ¬ s.flag F.VBR_CTRL.EN then s.canHeard c
      else match (List.range 256).find? (s.filterHit c m) with
        | some f => (s.canHeard c).filterTakes c f m.data
        | none => s.canHeard c := by
  obtain ⟨vbr, -, fld⟩ := s.canHeard_rest c
  have en : (s.canHeard c).flag F.VBR_CTRL.EN = s.flag F.VBR_CTRL.EN := congrArg (· == 1) (fld _ _ _ (by decide) (by decide))
  have hit : (s.canHeard c).filterHit c m = s.filterHit c m := by
    unfold State.filterHit State.vbrEntry
    rw [vbr]
  unfold doCanMessageRx
  dsimp only
  rw [if_neg (by simp [on, data, plain]), s.canGood_few c frozen few, en, hit] <;> rfl

/-! What the filters and the signal map leave alone. -/

theorem State.writeTarget_fld (s : State) (i c : Nat) (v r : Int) (valid range stale : Bool) (g : Fld) (a b : Nat) (h : g.reg.reported = false) :
    (s.writeTarget i c v r valid range stale).fld g a b = s.fld g a b := by
  have counted : (s.pmuAdd 0x283 0).fld g a b = s.fld g a b := State.pmuAdd_fld _ _ _ _ _ _ _ _ h
  unfold State.writeTarget
  dsimp only
  obtain ⟨t, ht⟩ : ∃ t, t = s.pmuAdd 0x283 0 := ⟨_, rfl⟩
  rw [← ht] at counted ⊢
  rw [← counted]
  split
  · exact State.modMgd_fld _ _ _ _ _
  · split
    · rfl
    · exact (State.event_fld _ _ _ _ _ _ _ _ _ _ _ h).trans (State.modVbr_fld _ _ _ _ _)
  · exact State.modVbr_fld _ _ _ _ _
  · split
    · exact State.modVbr_fld _ _ _ _ _
    · rfl

theorem State.runEntry_fld (s : State) (c : Nat) (p : List Byte) (i : Nat) (g : Fld) (a b : Nat) (h : g.reg.reported = false)
    (other : g.reg ≠ .VBR_CNT1) : (s.runEntry c p i).fld g a b = s.fld g a b := by
  unfold State.runEntry
  extract_lets e inside s0 u r v w z
  have drawn : w.fld g a b = s.fld g a b := by
    show u.fld g a b = s.fld g a b
    unfold u State.when
    split
    · rfl
    · rfl
  have counted : z.fld g a b = w.fld g a b := State.fld_count_kind _ _ _ _ _ _ _ other
  clear_value w z
  split
  · exact (State.writeTarget_fld _ _ _ _ _ _ _ _ _ _ _ h).trans drawn
  · split
    · exact (State.writeTarget_fld _ _ _ _ _ _ _ _ _ _ _ h).trans (counted.trans drawn)
    · split
      · exact (State.writeTarget_fld _ _ _ _ _ _ _ _ _ _ _ h).trans (counted.trans drawn)
      · exact counted.trans drawn

theorem State.filterTakes_fld (s : State) (c f : Nat) (p : List Byte) (g : Fld) (a b : Nat) (h : g.reg.reported = false)
    (zero : g.reg ≠ .VBR_CNT0) (one : g.reg ≠ .VBR_CNT1) : (s.filterTakes c f p).fld g a b = s.fld g a b := by
  unfold State.filterTakes
  extract_lets e u w
  have noted : w.fld g a b = s.fld g a b := (State.pmuAdd_fld _ _ _ _ _ _ _ _ h).trans (State.modVbr_fld _ _ _ _ _)
  clear_value w
  split
  · exact (State.each_keeps (fun t : State => t.fld g a b) _ _ u fun i t => t.runEntry_fld c p i g a b h one).trans (State.modVbr_fld _ _ _ _ _)
  · split
    · exact (State.fld_count_kind _ _ _ _ _ _ _ zero).trans noted
    · exact (State.fld_count_kind _ _ _ _ _ _ _ zero).trans noted
    · exact (State.fld_count_kind _ _ _ _ _ _ _ zero).trans noted

theorem State.canHeard_rd (s : State) (c : Nat) (k : RegKind) (i j : Nat) (stat : k ≠ .VBR_CAN_STAT) (cnt : k ≠ .VBR_CAN_CNT) :
    (s.canHeard c).rd k i j = s.rd k i j := by
  unfold State.canHeard State.canState
  rw [State.rd_setFld_kind _ _ _ _ _ _ _ _ stat, State.rd_setFld_kind _ _ _ _ _ _ _ _ stat, State.rd_count_kind _ _ _ _ _ _ _ cnt]

theorem State.canHeard_e2eCheck (s : State) (c f : Nat) (p : List Byte) : (s.canHeard c).e2eCheck f p = s.e2eCheck f p := by
  obtain ⟨vbr, -, fld⟩ := s.canHeard_rest c
  have width (k : Nat) := fld F.SEAL_E2E_PROF.WIDTH k 0 (by decide) (by decide)
  have profile (k : Nat) : (s.canHeard c).e2eProfile k = s.e2eProfile k := by
    unfold State.e2eProfile State.flag
    simp (disch := decide) only [fld, State.canHeard_rd]
  unfold State.e2eCheck State.e2eOver State.vbrEntry
  simp only [vbr, width, profile]

/-- R475: what a filter holds of a message that it takes. -/
def State.filterHeld (s : State) (f ref : Nat) : State := s.modFilt f (fun q => { q with started := true, stale := false, ref := some ref })

theorem State.filterHeld_shows (s : State) (f ref : Nat) :
    (s.filterHeld f ref).vbr.filt.get f = { s.vbr.filt.get f with started := true, stale := false, ref := some ref } := Tbl.get_upd_same _ _ _

theorem State.filterTakes_good (s : State) (c f r : Nat) (p : List Byte)
    (good : (if rfE2e (s.vbrEntry 0 f) then s.e2eCheck f p else (0, 0)) = (0, r)) :
    s.filterTakes c f p = (s.filterHeld f r).each (s.mapsOf f) (State.runEntry c p) := by
  unfold State.filterTakes
  dsimp only
  rw [good, if_pos rfl]
  rfl

/-- R476: a message whose end-to-end check fails. -/
def State.filterRefused (s : State) (f : Nat) : State := (s.modFilt f (fun q => { q with reason := 1 })).count F.VBR_CNT0.E2E_CRC

theorem State.filterTakes_bad (s : State) (c f r : Nat) (p : List Byte) (frozen : s.flag F.PMU_CTRL.FREEZE = true)
    (bad : (if rfE2e (s.vbrEntry 0 f) then s.e2eCheck f p else (0, 0)) = (1, r)) : s.filterTakes c f p = s.filterRefused f := by
  have same : (s.modFilt f (fun q => { q with reason := 1 })).pmuAdd 0x282 0 = s.modFilt f (fun q => { q with reason := 1 }) :=
    State.pmuAdd_frozen _ _ _ _ ((State.flag_of_regs rfl _ _ _).trans frozen)
  unfold State.filterTakes
  dsimp only
  rw [bad, if_neg Nat.one_ne_zero]
  exact congrArg (fun t : State => t.count F.VBR_CNT0.E2E_CRC) same

theorem State.filterRefused_shows (s : State) (f : Nat) : (s.filterRefused f).vbr.filt.get f = { s.vbr.filt.get f with reason := 1 }
    ∧ (s.filterRefused f).fld F.VBR_CNT0.E2E_CRC = min F.VBR_CNT0.E2E_CRC.max (s.fld F.VBR_CNT0.E2E_CRC + 1) := by
  unfold State.filterRefused
  refine ⟨?_, (State.fld_count_same _ _ _ _ (by decide) (by decide)).trans rfl⟩
  rw [State.count_vbr]
  exact Tbl.get_upd_same _ _ _

/-- A map entry's values are noted. -/
def State.entryNoted (s : State) (i : Nat) (v r : Int) : State := s.modVbr
    (fun w => { w with maps := w.maps.upd i (fun q => { q with val := some (v, r) }) })

/-- R481: a field inside the message and inside its range goes to its target. -/
theorem State.runEntry_good (s : State) (c : Nat) (p : List Byte) (i : Nat) (v : Int)
    (hv : v = rescale (s.vbrEntry 1 i) (rawField (s.vbrEntry 1 i) p))
    (inside : fieldIn (smMoto (s.vbrEntry 1 i)) (smStart (s.vbrEntry 1 i)) (smLen (s.vbrEntry 1 i)) (8 * p.length) = true)
    (low : smMin (s.vbrEntry 1 i) ≤ v) (high : v ≤ smMax (s.vbrEntry 1 i)) :
    s.runEntry c p i = (s.entryNoted i v (rawField (s.vbrEntry 1 i) p)).writeTarget i c v (rawField (s.vbrEntry 1 i) p) true false false := by
  subst hv
  unfold State.runEntry
  dsimp only
  rw [inside]
  exact if_pos ⟨rfl, low, high⟩

theorem State.writeTarget_tell (s : State) (i c : Nat) (v r : Int) (kind : smKind (s.vbrEntry 1 i) = 0) (frozen : s.flag F.PMU_CTRL.FREEZE = true) :
    s.writeTarget i c v r true false false = s.insTouch (smTgt (s.vbrEntry 1 i)) (fun q => { q with val := v.toNat, valid := true }) := by
  unfold State.writeTarget
  dsimp only
  rw [s.pmuAdd_frozen _ _ _ frozen, kind]
  rfl

theorem exec_canMessageRx (s : State) (c : Fin 4) (m : CanMsg) (idle : s.injIdle) (on : s.canOn c = true) (data : m.rtr = false)
    (plain : m.fd = false)
    (frozen : s.flag F.PMU_CTRL.FREEZE = true) (few : s.fld F.VBR_CAN_STAT.REC c ≤ 127) : ∃ t, exec (.canMessageRx c m) s = .next t
        ∧ t.fld F.VBR_CAN_CNT.RX c = min F.VBR_CAN_CNT.RX.max (s.fld F.VBR_CAN_CNT.RX c + 1)
        ∧ t.fld F.VBR_CAN_STAT.REC c = s.fld F.VBR_CAN_STAT.REC c - 1
        ∧ ((s.flag F.VBR_CTRL.EN = false ∨ ∀ f, f < 256 → s.filterHit c m f = false) → t.vbr = s.vbr)
        ∧ (∀ f, s.flag F.VBR_CTRL.EN = true → (List.range 256).find? (s.filterHit c m) = some f → s.mapsOf f = [] →
          (rfE2e (s.vbrEntry 0 f) = false → t.vbr.filt.get f = { s.vbr.filt.get f with started := true, stale := false, ref := some 0 })
          ∧ (∀ r, rfE2e (s.vbrEntry 0 f) = true → s.e2eCheck f m.data = (0, r) →
            t.vbr.filt.get f = { s.vbr.filt.get f with started := true, stale := false, ref := some r })
          ∧ (∀ r, rfE2e (s.vbrEntry 0 f) = true → s.e2eCheck f m.data = (1, r) →
            t.vbr.filt.get f = { s.vbr.filt.get f with reason := 1 }
              ∧ t.fld F.VBR_CNT0.E2E_CRC = min F.VBR_CNT0.E2E_CRC.max (s.fld F.VBR_CNT0.E2E_CRC + 1)))
        ∧ (∀ f i, s.flag F.VBR_CTRL.EN = true → (List.range 256).find? (s.filterHit c m) = some f → s.mapsOf f = [i] →
            rfE2e (s.vbrEntry 0 f) = false → smKind (s.vbrEntry 1 i) = 0 →
            fieldIn (smMoto (s.vbrEntry 1 i)) (smStart (s.vbrEntry 1 i)) (smLen (s.vbrEntry 1 i)) (8 * m.data.length) = true →
            let v := rescale (s.vbrEntry 1 i) (rawField (s.vbrEntry 1 i) m.data)
            smMin (s.vbrEntry 1 i) ≤ v → v ≤ smMax (s.vbrEntry 1 i) →
          t.mgd.ins.get (smTgt (s.vbrEntry 1 i)) = { s.mgd.ins.get (smTgt (s.vbrEntry 1 i)) with val := v.toNat, valid := true }) := by
  have acts := (s.passMessage_idle c m idle).trans (doCanMessageRx_heard s c m on data plain frozen few)
  obtain ⟨rx, rec⟩ := s.canHeard_counts c
  obtain ⟨vbr, mgd, fld⟩ := s.canHeard_rest c
  have check (f : Nat) := s.canHeard_e2eCheck c f m.data
  have frozen : (s.canHeard c).flag F.PMU_CTRL.FREEZE = true := (congrArg (· == 1) (fld _ _ _ (by decide) (by decide))).trans frozen
  have crc := fld F.VBR_CNT0.E2E_CRC 0 0 (by decide) (by decide)
  obtain ⟨u, hu⟩ : ∃ u, u = s.canHeard c := ⟨_, rfl⟩
  simp only [← hu] at acts rx rec vbr mgd check frozen crc
  have entry (t i : Nat) : u.vbrEntry t i = s.vbrEntry t i := congrArg (fun v : Vbr => v.entry t i) vbr
  have maps (f : Nat) : u.mapsOf f = s.mapsOf f := by
    unfold State.mapsOf
    simp only [entry]
  by_cases off : s.flag F.VBR_CTRL.EN = true
  swap
  · rw [if_pos off] at acts
    exact ⟨u, congrArg Host.Outcome.next acts, rx, rec, fun _ => vbr, fun f en => absurd en off, fun f i en => absurd en off⟩
  rw [if_neg (not_not_intro off)] at acts
  cases found : (List.range 256).find? (s.filterHit c m) with
  | none =>
    rw [found] at acts
    exact ⟨u, congrArg Host.Outcome.next acts, rx, rec, fun _ => vbr, fun f _ h => (nomatch h), fun f i _ h => (nomatch h)⟩
  | some f =>
    rw [found] at acts
    dsimp only at acts
    have hit := List.find?_some found
    have low := List.mem_range.mp (List.mem_of_find?_eq_some found)
    refine ⟨_, congrArg Host.Outcome.next acts, (u.filterTakes_fld _ _ _ _ _ _ rfl (by decide) (by decide)).trans rx,
      (u.filterTakes_fld _ _ _ _ _ _ rfl (by decide) (by decide)).trans rec, fun none => ?_, fun f' _ is noMaps => ?_,
      fun f' i _ is one free kind inside => ?_⟩
    · rcases none with h | h
      · rw [off] at h
        exact absurd h.symm Bool.false_ne_true
      · rw [h f low] at hit
        exact absurd hit Bool.false_ne_true
    · obtain rfl := Option.some.inj is
      have takes (r : Nat) (good : (if rfE2e (s.vbrEntry 0 f) then s.e2eCheck f m.data else (0, 0)) = (0, r)) :
          (u.filterTakes c f m.data).vbr.filt.get f = { s.vbr.filt.get f with started := true, stale := false, ref := some r } := by
        rw [u.filterTakes_good c f r m.data (by rw [entry, check]; exact good), maps, noMaps, State.each_nil, State.filterHeld_shows, vbr]
      refine ⟨fun free => takes 0 (if_neg (by rw [free]; exact Bool.false_ne_true)), fun r e2e good => takes r ((if_pos e2e).trans good),
        fun r e2e bad => ?_⟩
      obtain ⟨reason, counted⟩ := u.filterRefused_shows f
      rw [u.filterTakes_bad c f r m.data frozen (by rw [entry, check]; exact (if_pos e2e).trans bad), ← vbr, ← crc]
      exact ⟨reason, counted⟩
    · obtain rfl := Option.some.inj is
      intro v low high
      have held : (u.filterHeld f 0).vbrEntry 1 i = s.vbrEntry 1 i := entry 1 i
      have noted : ((u.filterHeld f 0).entryNoted i v (rawField (s.vbrEntry 1 i) m.data)).vbrEntry 1 i = s.vbrEntry 1 i := entry 1 i
      rw [u.filterTakes_good c f 0 m.data (if_neg (by rw [entry, free]; exact Bool.false_ne_true)), maps, one, State.each_cons, State.each_nil,
        (u.filterHeld f 0).runEntry_good c m.data i v (by rw [held]) (by rw [held]; exact inside) (by rw [held]; exact low)
          (by rw [held]; exact high),
        held, ((u.filterHeld f 0).entryNoted i v (rawField (s.vbrEntry 1 i) m.data)).writeTarget_tell i c v _ (by rw [noted]; exact kind)
          ((State.flag_of_regs rfl _ _ _).trans frozen), noted, State.insTouch_same, ← mgd]
      rfl

/-! A filter that falls silent (R476). -/

/-- The filter is stale, and counted. -/
def State.filterSilent (s : State) (f : Nat) : State := (s.modFilt f (fun q => { q with stale := true, ref := none })).count F.VBR_CNT1.STALE_ENTRY

theorem exec_filterStale (s : State) (f : Fin 256) (on : s.flag F.VBR_CTRL.EN = true) (calm : s.fcl.safe = false) (en : entEn (s.vbrEntry 0 f) = true)
    (timed : rfStaleMs (s.vbrEntry 0 f) ≠ 0) (started : (s.vbr.filt.get f).started = true) (fresh : (s.vbr.filt.get f).stale = false)
    (none : s.mapsOf f = []) : ∃ u : State, exec (.filterStale f) s
          = .next ((u.event s.sigDomain 0x63 (rfCh (s.vbrEntry 0 f)) f (s.vbr.filt.get f).reason 0).raise 34 f)
        ∧ u.vbr.filt.get f = { s.vbr.filt.get f with stale := true, ref := Option.none }
        ∧ u.fld F.VBR_CNT1.STALE_ENTRY = min F.VBR_CNT1.STALE_ENTRY.max (s.fld F.VBR_CNT1.STALE_ENTRY + 1)
        ∧ SameRegs [⟨.VBR_CNT1, 0, 0⟩] s u ∧ u.out = s.out ∧ u.mgd = s.mgd := by
  have maps : (s.filterSilent f).mapsOf f = [] := none
  have domain : (s.filterSilent f).sigDomain = s.sigDomain := State.fld_count_kind _ F.VBR_CNT1.STALE_ENTRY F.VBR_CTRL.SIG_DOMAIN _ _ _ _ (by decide)
  have acts : doFilterStale f s
      = ((s.filterSilent f).event s.sigDomain 0x63 (rfCh (s.vbrEntry 0 f)) f (s.vbr.filt.get f).reason 0).raise 34 f := by
    unfold doFilterStale
    dsimp only
    rw [if_neg (by simp [on, calm, en, timed, started, fresh]),
      show (s.modFilt f (fun q => { q with stale := true, ref := Option.none })).count F.VBR_CNT1.STALE_ENTRY = s.filterSilent f from rfl, maps,
      State.each_nil, domain]
  refine ⟨s.filterSilent f, congrArg Host.Outcome.next acts, ?_, ?_, ?_, ?_, ?_⟩
  · unfold State.filterSilent
    rw [State.count_vbr]
    exact Tbl.get_upd_same _ _ _
  · exact (State.fld_count_same _ _ _ _ (by decide) (by decide)).trans rfl
  · exact ((SameRegs.refl _ s).of_regs rfl).andCount (by repeat constructor) (by omega)
  · exact (State.count_out _ _ _ _).trans rfl
  · exact (State.count_mgd _ _ _ _).trans rfl

/-- Settles O48. -/
theorem canChannelsCountSendAndReceive : Obligations.CanChannelsCountSendAndReceive := by
  intro s c
  refine ⟨exec_canBusOff s c, exec_restart s c, fun on => ⟨exec_canBusError_rx s c on, exec_canBusError_tx s c on⟩, exec_txObjectDue s c,
    fun idle on loud f first => exec_canFrameTx s c idle on loud f first, fun m idle remote => ?_, exec_canMessageRx s c, exec_filterStale s⟩
  exact congrArg Host.Outcome.next ((s.passMessage_idle c m idle).trans (if_pos (by simp [remote])))
end Sys2Proof.Machine
end

section
/-! PROOFS. Power events. -/
namespace Sys2Proof.Machine

/-! WAKE_IN and the rise of PWR_GOOD (R566, R644). -/

theorem State.modSec_offRegs_of {s u : State} (f : Sec → Sec) (h : u.offRegs = (s.modSec f).offRegs) : { u with regs := s.regs, sec := s.sec } = s :=
  (congrArg (fun v : State => { v with regs := s.regs, sec := s.sec }) h :)

theorem exec_wakeIn_standby (s : State) (low : s.sec.pwrEn = false) (off : s.sec.pwrGood = false) :
    ∃ t, exec .wakeIn s = .next t ∧ t.sec = { s.sec with pwrEn := true } ∧ bit (t.rd .SMB0_ALERT) 3 = true
      ∧ SameRegs [⟨.SMB0_ALERT, 0, 0⟩, ⟨.SMB0_STAT, 0, 0⟩] s t ∧ { t with regs := s.regs, sec := s.sec } = s := by
  refine ⟨_, congrArg Host.Outcome.next (doWakeIn_standby s off low), State.alert_sec _ _, State.alert_cause _ 3 (by omega), ?_,
    State.modSec_offRegs_of (fun c => { c with pwrEn := true }) (State.alert_offRegs _ _)⟩
  exact ((SameRegs.refl _ s).of_regs rfl).trans (State.alert_sameRegs _ _)

/-- ROM's self-test was good: FAULT_N rises, and boot goes on at stage 2. -/
def State.romPassed (s : State) : State := (((s.setStage 1).modFcl (fun f => { f with faultN := true })).setStage 2).startCore

/-- The epoch is drawn. -/
def State.epochDrawn (s : State) : State := (s.modGwl (fun g => { g with epoch := s.free % 2 ^ 32 })).draw

/-- The power is good. -/
def State.powered (s : State) : State := s.modSec (fun c => { c with pwrGood := true, pwrEn := true, warm := false })

theorem doPwrGoodRise_good (s : State) (off : s.sec.pwrGood = false) : doPwrGoodRise true s = s.powered.epochDrawn.romPassed := by
  unfold doPwrGoodRise State.startRom State.drawEpoch
  rw [if_neg (by rw [off]; exact Bool.false_ne_true)]
  rfl

theorem State.romPassed_offRegs (s : State) : s.romPassed.offRegs = (s.modFcl (fun f => { f with faultN := true })).offRegs := by
  unfold State.romPassed State.startCore State.setStage
  dsimp only
  rw [State.setFld_offRegs, State.setFld_offRegs, State.setFld_offRegs]
  exact (congrArg (fun u : State => u.modFcl (fun f => { f with faultN := true })) (State.setFld_offRegs s F.SEC_BOOT_STAT.STAGE 1 0 0) :)

theorem State.romPassed_stage (s : State) : s.romPassed.bootStage = 2 := by
  unfold State.romPassed State.startCore State.bootStage State.setStage
  dsimp only
  rw [State.fld_setFld_kind _ _ _ _ _ _ _ _ (by decide), State.fld_setFld_kind _ _ _ _ _ _ _ _ (by decide),
    State.fld_setFld_same _ _ _ _ _ (by decide) (by decide)]
  rfl

theorem State.romPassed_same (s : State) : SameRegs [⟨.SEC_BOOT_STAT, 0, 0⟩, ⟨.EGV_AVS, 0, 0⟩] s s.romPassed := by
  have first : SameRegs [⟨.SEC_BOOT_STAT, 0, 0⟩, ⟨.EGV_AVS, 0, 0⟩] s ((s.setStage 1).modFcl (fun f => { f with faultN := true })) :=
    ((SameRegs.refl _ s).andFld (by repeat constructor) (by omega)).of_regs (State.modFcl_regs _ _)
  exact ((first.andFld (by repeat constructor) (by omega)).andFld (by repeat constructor) (by omega)).andFld (by repeat constructor) (by omega)

/-- What a state that differs in some units only shows of them. -/
theorem State.romPassed_units {s t : State} (h : t.offRegs = (s.modFcl (fun f => { f with faultN := true })).offRegs) :
    t.sec = s.sec ∧ t.fcl.faultN = true ∧ t.gwl = s.gwl ∧ ∀ r c f g i, ({ t with regs := r, sec := c, fcl := f, gwl := g, freeIdx := i } : State)
      = { s with regs := r, sec := c, fcl := f, gwl := g, freeIdx := i } :=
  ⟨(congrArg State.sec h :), (congrArg (fun u : State => u.fcl.faultN) h :), (congrArg State.gwl h :), fun r c f g i =>
    (congrArg (fun u : State => ({ u with regs := r, sec := c, fcl := f, gwl := g, freeIdx := i } : State)) h :)⟩

theorem exec_pwrGoodRise_good (s : State) (off : s.sec.pwrGood = false) : ∃ t, exec (.pwrGoodRise true) s = .next t
    ∧ t.sec = { s.sec with pwrGood := true, pwrEn := true, warm := false } ∧ t.bootStage = 2 ∧ t.fcl.faultN = true
    ∧ SameRegs [⟨.SEC_BOOT_STAT, 0, 0⟩, ⟨.EGV_AVS, 0, 0⟩] s t ∧ t.gwl = { s.gwl with epoch := t.gwl.epoch }
    ∧ { t with regs := s.regs, sec := s.sec, fcl := s.fcl, gwl := s.gwl, freeIdx := s.freeIdx } = s := by
  obtain ⟨sec, faultN, gwl, back⟩ := State.romPassed_units s.powered.epochDrawn.romPassed_offRegs
  refine ⟨_, congrArg Host.Outcome.next (doPwrGoodRise_good s off), sec, State.romPassed_stage _, faultN,
    ((SameRegs.refl _ s).of_regs rfl).trans (State.romPassed_same _), ?_, back _ _ _ _ _⟩
  rw [gwl]
  rfl

/-! The way into standby (R566, R645). -/

/-- What standby leaves before the straps are shown. -/
def State.standbyLeft (s : State) : State :=
  { s.afterReset (keepRegs [.SMB0_CTRL, .SMB0_STAT, .SMB0_CNT, .SMB0_ALERT] s.regs) with
    time := { now := s.time.now }, smb := { ptr := s.smb.ptr, lupPtr := s.smb.lupPtr } }

theorem State.toStandby_eq (s : State) : s.toStandby = s.standbyLeft.strapPre := (rfl)

theorem State.toStandby_rd_kept (s : State) (k : RegKind) (i j : Nat) (kept : k ∈ [RegKind.SMB0_CTRL, .SMB0_STAT, .SMB0_CNT, .SMB0_ALERT]) :
    s.toStandby.rd k i j = s.rd k i j := by
  have beside : k ≠ .GWP_LANE_CTRL ∧ k ≠ .SEC_BOOT_STAT := by
    constructor <;> rintro rfl <;> simp at kept
  rw [s.toStandby_eq, State.strapPre_rd _ _ _ _ beside.1 beside.2]
  unfold State.rd
  rw [show s.standbyLeft.regs = keepRegs [.SMB0_CTRL, .SMB0_STAT, .SMB0_CNT, .SMB0_ALERT] s.regs from rfl, keepRegs_get _ _ _ _ _ kept]

theorem State.toStandby_rd_gone (s : State) (k : RegKind) (i j : Nat)
    (gone : k ∉ [RegKind.SMB0_CTRL, .SMB0_STAT, .SMB0_CNT, .SMB0_ALERT, .GWP_LANE_CTRL, .SEC_BOOT_STAT]) :
    s.toStandby.rd k i j = (k.resetVal i).toNat := by
  simp only [List.mem_cons, List.not_mem_nil, or_false, not_or] at gone
  obtain ⟨ctrl, stat, cnt, alert, lane, boot⟩ := gone
  rw [s.toStandby_eq, State.strapPre_rd _ _ _ _ lane boot]
  unfold State.rd
  rw [show s.standbyLeft.regs = keepRegs [.SMB0_CTRL, .SMB0_STAT, .SMB0_CNT, .SMB0_ALERT] s.regs from rfl,
    keepRegs_get_gone _ _ _ _ _ (by simp [ctrl, stat, cnt, alert])] <;> rfl

theorem State.toStandby_boot (s : State) : s.toStandby.fld F.SEC_BOOT_STAT.MODE = s.sec.bootMode % 4 := by
  rw [s.toStandby_eq, State.strapPre_mode]
  rfl

theorem State.toStandby_units (s : State) : s.toStandby.sec.pwrEn = false ∧ s.toStandby.sec.pwrGood = false ∧ s.toStandby.sec.standby = false
    ∧ s.toStandby.lup = { dump := s.lup.dump } ∧ s.toStandby.prd = {} ∧ s.toStandby.hqe = {} ∧ s.toStandby.gwl = {}
    ∧ s.toStandby.pending = s.pending ∧ s.toStandby.out = s.out ∧ s.toStandby.sec.count = s.sec.count ∧ s.toStandby.sec.slots = s.sec.slots
    ∧ s.toStandby.sec.revoked = s.sec.revoked ∧ s.toStandby.sec.arb = s.sec.arb := by
  have off : s.toStandby.offRegs = s.standbyLeft.offRegs := s.standbyLeft.strapPre_offRegs
  obtain ⟨t, ht⟩ : ∃ t, t = s.toStandby := ⟨_, rfl⟩
  rw [← ht] at off ⊢
  have sec : t.sec = s.standbyLeft.sec := (congrArg State.sec off :)
  rw [sec]
  exact ⟨rfl, rfl, rfl, (congrArg State.lup off :), (congrArg State.prd off :), (congrArg State.hqe off :), (congrArg State.gwl off :),
    (congrArg State.pending off :), (congrArg State.out off :), rfl, rfl, rfl, rfl⟩

/-- Everything is taken down before standby. -/
def State.shutDown (s : State) : State :=
  ((s.each (List.range 30) (fun p s => s.portRun p false)).each (List.range 4) (fun n s => s.displayRun n false)).gwEnable false

theorem State.shutDown_mode (s : State) : s.shutDown.sec.bootMode = s.sec.bootMode :=
  (State.Kept.gwEnable (((State.Kept.refl s).each fun _ _ ht => ht.portRun).each fun _ _ ht => ht.displayRun)).mode

theorem doStandbyEntry_accepted (s : State) (on : s.sec.pwrGood = true) (asked : s.sec.standby = true) (owed : s.saveOwed = false)
    (saving : s.lup.saving = none) (calm : s.fcl.safe = false) : doStandbyEntry s = s.shutDown.toStandby := by
  unfold doStandbyEntry
  rw [if_neg (by simp [on, asked, owed, saving, calm])]
  rfl

/-- Settles O1. -/
theorem powerEventsMoveBetweenStandbyAndBoot : Obligations.PowerEventsMoveBetweenStandbyAndBoot := by
  intro s
  refine ⟨fun en off => congrArg Host.Outcome.next (if_pos ⟨en, by simp [off]⟩), exec_wakeIn_standby s, exec_pwrGoodRise_good s, fun on => ?_,
    fun on asked owed saving calm => ?_⟩
  · obtain ⟨en, good, standby, lup, prd, hqe, gwl, pending, out, count, slots, revoked, arb⟩ := s.toStandby_units
    exact ⟨_, congrArg Host.Outcome.next (if_pos on), en, good, standby, lup, prd, hqe, gwl, pending, out, count, slots, revoked, arb,
      fun k i j _ _ kept => s.toStandby_rd_kept k i j kept, fun k i j _ _ gone => s.toStandby_rd_gone k i j gone, s.toStandby_boot⟩
  · obtain ⟨en, good, standby, -⟩ := s.shutDown.toStandby_units
    exact ⟨_, congrArg Host.Outcome.next (doStandbyEntry_accepted s on asked owed saving calm), en, good, standby,
      fun k i j _ _ gone => s.shutDown.toStandby_rd_gone k i j gone, s.shutDown.toStandby_boot.trans (congrArg (· % 4) s.shutDown_mode)⟩
end Sys2Proof.Machine
end

section
/-! PROOFS. What a raise keeps, shown once for every predicate that its writes keep. -/
namespace Sys2Proof.Machine

/-! What a raise leaves as it is, said of a predicate on states: a predicate that the writes and the units of a raise keep is kept by the
whole raise. -/

/-- The registers of a raise's own that more than its records write: those of the board alert, of Lupin's recorder, of the entry into the safe
state, and the sticky bits. -/
def RegKind.ofEntry (k : RegKind) : Bool := match k with
  | .FCL_SAFE | .LUP_STAT | .SMB0_ALERT | .PMU_CTRL | .FCL_STATUS_LO | .FCL_STATUS_HI => true
  | _ => false

/-- A predicate that no write of a raise outside the entry into the safe state changes: one about no other register, about no unit but the
collector and the rings, and about no ring but for a buffer that it holds. -/
structure Calm (P : State → Prop) : Prop where
  wr : ∀ {s k v i j}, k.ofEntry = false → P s → P (s.wr k v i j)
  hqe : ∀ {s f}, (∀ g, (s.ring g).held = none → ((s.modHqe f).ring g).held = none) → P s → P (s.modHqe f)
  units : ∀ {s cfg pool seals blm tf prd gwl lup vbr egv pmu}, P s →
    P { s with cfg := cfg, pool := pool, seals := seals, blm := blm, tf := tf, prd := prd, gwl := gwl, lup := lup
               vbr := vbr, egv := egv, pmu := pmu }
  ff : ∀ {s n}, P s → P (s.modFcl (fun f => { f with ffCycle := n }))

variable {P : State → Prop} {s : State}

theorem State.each_closed {α : Type} {l : List α} {f : α → State → State} (h : P s) (hf : ∀ a s, P s → P (f a s)) : P (s.each l f) := by
  unfold State.each
  induction l generalizing s with
  | nil => exact h
  | cons a l ih => exact ih (hf _ _ h)

theorem State.when_closed {b : Bool} {f : State → State} (h : P s) (hf : ∀ s, P s → P (f s)) : P (s.when b f) := by
  unfold State.when
  split
  · exact hf _ h
  · exact h

theorem foldl_closed {α : Type} {l : List α} {f : State → α → State} (h : P s) (hf : ∀ s a, P s → P (f s a)) : P (l.foldl f s) := by
  induction l generalizing s with
  | nil => exact h
  | cons a l ih => exact ih (hf _ _ h)

theorem Ring.complete_held (r : Ring) (idx : Nat) : (r.complete idx).held = r.held := by
  unfold Ring.complete
  split <;> rfl

namespace Calm

theorem setFld (c : Calm P) {f : Fld} {v i j : Nat} (k : f.reg.ofEntry = false) (h : P s) : P (s.setFld f v i j) := c.wr k h

theorem setFlag (c : Calm P) {f : Fld} {b : Bool} {i j : Nat} (k : f.reg.ofEntry = false) (h : P s) : P (s.setFlag f b i j) := c.wr k h

theorem count (c : Calm P) {f : Fld} {i j : Nat} (k : f.reg.ofEntry = false) (h : P s) : P (s.count f i j) := c.wr k h

theorem addTo (c : Calm P) {f : Fld} {n i j : Nat} (k : f.reg.ofEntry = false) (h : P s) : P (s.addTo f n i j) := c.wr k h

theorem modPool (c : Calm P) {f : Pool → Pool} (h : P s) : P (s.modPool f) := c.units h

theorem modSeals (c : Calm P) {f : Seal → Seal} (h : P s) : P (s.modSeals f) := c.units h

theorem modBlm (c : Calm P) {b : Nat} {f : Bloom → Bloom} (h : P s) : P (s.modBlm b f) := c.units h

theorem modPrd (c : Calm P) {f : Prd → Prd} (h : P s) : P (s.modPrd f) := c.units h

theorem modGwl (c : Calm P) {f : Gwl → Gwl} (h : P s) : P (s.modGwl f) := c.units h

theorem modLup (c : Calm P) {f : Lup → Lup} (h : P s) : P (s.modLup f) := c.units h

theorem modPmu (c : Calm P) {f : Pmu → Pmu} (h : P s) : P (s.modPmu f) := c.units h

theorem modProduct (c : Calm P) {i : Nat} {f : Product → Product} (h : P s) : P (s.modProduct i f) := c.modPrd h

theorem modPFrame (c : Calm P) {i f : Nat} {g : PFrame → PFrame} (h : P s) : P (s.modPFrame i f g) := c.modProduct h

theorem modLine (c : Calm P) {d : Nat} {f : PLine → PLine} (h : P s) : P (s.modLine d f) := c.modPool h

theorem modHqe (c : Calm P) {f : Hqe → Hqe} (same : ∀ h, (f h).rings = h.rings) (h : P s) : P (s.modHqe f) :=
  c.hqe (fun g empty => (congrArg (fun l : Tbl Ring => (l.get g).held) (same s.hqe)).trans empty) h

theorem modRing (c : Calm P) {g : Nat} {f : Ring → Ring} (h : P s) (hf : ∀ r, r.held = none → (f r).held = none) : P (s.modRing g f) := by
  refine c.hqe (fun g' empty => ?_) h
  change ((s.modRing g f).ring g').held = none
  by_cases e : g' = g
  · subst e
    rw [State.ring_modRing_same]
    exact hf _ empty
  · rw [State.ring_modRing_other _ _ _ _ e]
    exact empty

theorem pmuAdd (c : Calm P) {ev inst n : Nat} {cls : Option Nat} (h : P s) : P (s.pmuAdd ev inst n cls) := by
  unfold State.pmuAdd
  split
  · exact h
  · refine State.each_closed h fun i s h => ?_
    have written : ∀ v, P ((s.setFld F.PMU_CTR_LO.COUNT (v % 2 ^ 32) i).setFld F.PMU_CTR_HI.COUNT (v / 2 ^ 32 % 2 ^ 16) i) :=
      fun v => c.setFld rfl (c.setFld rfl h)
    have := @c.modPmu
    grind

theorem txPush (c : Calm P) {t : Txn} (h : P s) : P (s.txPush t) := c.modGwl h

theorem dropLine (c : Calm P) {d : Nat} (h : P s) : P (s.dropLine d) := by
  unfold State.dropLine
  have := @c.modPool; have := @c.modLine; have := @c.pmuAdd
  grind

theorem settle (c : Calm P) {d : Nat} (h : P s) : P (s.settle d) := by
  unfold State.settle
  have := @c.dropLine
  grind

theorem release (c : Calm P) {d prd : Nat} (h : P s) : P (s.release d prd) := c.settle (c.modLine h)

theorem dropPFrameLines (c : Calm P) {i f : Nat} (h : P s) : P (s.dropPFrameLines i f) := by
  unfold State.dropPFrameLines
  exact c.modSeals (State.each_closed h fun _ _ h => c.dropLine h)

theorem releaseSources (c : Calm P) {i f : Nat} (h : P s) : P (s.releaseSources i f) := by
  unfold State.releaseSources
  split
  · exact h
  · exact State.each_closed h fun _ _ h => c.release (c.modSeals h)

theorem cancelTiles (c : Calm P) {i f : Nat} (h : P s) : P (s.cancelTiles i f) := by
  refine foldl_closed h fun s b h => ?_
  extract_lets bl n
  split
  · exact h
  · exact c.pmuAdd (c.modPFrame (c.modBlm h))

theorem killFrame (c : Calm P) {i f : Nat} {host : Bool} (h : P s) : P (s.killFrame i f host) := by
  unfold State.killFrame
  exact c.releaseSources (c.dropPFrameLines (c.cancelTiles (c.modPFrame (c.modProduct h))))

theorem lupSubmit (c : Calm P) {kind src sev a0 a1 : Nat} (h : P s) : P (s.lupSubmit kind src sev a0 a1) := by
  unfold State.lupSubmit
  have lost : P (s.count F.LUP_CNT.LOST) := c.count rfl h
  extract_lets r full
  split
  · split
    · exact c.modLup h
    · exact lost
  · split
    · exact lost
    · split
      · exact c.modLup h
      · split
        · exact lost
        · split
          · exact c.modLup lost
          · exact lost

theorem signal (c : Calm P) {g : Nat} (h : P s) : P (s.signal g) := c.modRing (c.txPush (c.pmuAdd h)) fun _ => id

theorem signalIfCount (c : Calm P) {g : Nat} (h : P s) : P (s.signalIfCount g) := by
  unfold State.signalIfCount
  have := @c.signal
  grind

theorem touchCtx (c : Calm P) {g : Nat} (h : P s) : P (s.touchCtx g) := c.modHqe (fun h => by split <;> rfl) h

theorem writePair (c : Calm P) {g : Nat} {e : Entry} (h : P s) : P (s.writePair g e).1 := by
  unfold State.writePair
  dsimp only
  split
  · refine c.touchCtx (c.signalIfCount ?_)
    split
    · exact c.modRing (c.modRing (c.txPush (c.pmuAdd h)) fun _ => id) fun r empty => (r.complete_held _).trans empty
    · exact c.modRing (c.txPush (c.pmuAdd h)) fun _ => id
  · exact c.pmuAdd (c.count rfl h)

theorem putEntry (c : Calm P) {g : Nat} {e : Entry} (h : P s) : P (s.putEntry g e).1 := by
  unfold State.putEntry
  dsimp only
  split
  · exact h
  · split
    · exact c.writePair h
    · split
      · exact c.modRing (c.count rfl h) fun _ => id
      · exact c.modRing h fun _ => id

theorem setBit64 (c : Calm P) {lo hi : RegKind} {n : Nat} (l : lo.ofEntry = false) (u : hi.ofEntry = false) (h : P s) :
    P (s.setBit64 lo hi n) := by
  unfold State.setBit64
  split
  · exact c.wr l h
  · exact c.wr u h

theorem recordFF (c : Calm P) {src sev detail : Nat} (h : P s) : P (s.recordFF src sev detail) :=
  c.ff (c.wr rfl (c.wr rfl (c.wr rfl (c.wr rfl (c.wr rfl (c.wr rfl h))))))

theorem noteFF (c : Calm P) {src sev detail : Nat} (h : P s) : P (s.noteFF src sev detail) := by
  unfold State.noteFF
  split
  · exact c.setBit64 rfl rfl (c.recordFF h)
  · have marked : P (s.setBit64 .FCL_COINC_LO .FCL_COINC_HI src) := c.setBit64 rfl rfl h
    have := @c.recordFF
    grind

theorem abandonBuf (c : Calm P) {i f : Nat} (h : P s) : P (s.abandonBuf i f).1 := by
  unfold State.abandonBuf
  dsimp only
  split
  · exact h
  · split
    · split
      · exact c.modRing h fun _ _ => rfl
      · exact h
    · exact h

theorem abandon (c : Calm P) {i f : Nat} {fault : Bool} (h : P s) : P (s.abandon i f fault).1 := by
  unfold State.abandon
  split
  · split
    · exact h
    · exact c.pmuAdd (c.setFlag rfl (c.killFrame (c.abandonBuf h)))
  · exact h

/-- A ring's failure keeps what it keeps once the ring has given up its buffer. -/
theorem failRing_of (c : Calm P) {g cause idx addr : Nat} {completed : Bool} (runs : ¬((s.ring g).st = .error ∨ (s.ring g).st = .disabled))
    (h : ∀ f : Ring → Ring, (∀ r, (f r).held = none) → P (s.modRing g f)) : P (s.failRing g cause idx addr completed).1 := by
  unfold State.failRing
  extract_lets r lost s₁ s₂ s₃ kept s₄ arg s₅ buf s₆ down tgt ev
  rw [if_neg runs]
  have h₃ : P s₃ := c.pmuAdd (c.addTo rfl (c.count rfl (c.modGwl (h _ fun _ => rfl))))
  have h₅ : P s₅ := c.lupSubmit (State.when_closed h₃ fun _ h => c.modHqe (fun _ => rfl) (c.wr rfl (c.wr rfl (c.wr rfl h))))
  change P buf.1
  unfold buf
  split
  · exact c.abandon h₅
  · exact h₅

theorem failRing (c : Calm P) {g cause idx addr : Nat} {completed : Bool} (h : P s) : P (s.failRing g cause idx addr completed).1 := by
  by_cases runs : (s.ring g).st = .error ∨ (s.ring g).st = .disabled
  · unfold State.failRing
    rw [if_pos runs]
    exact h
  · exact c.failRing_of runs fun f empty => c.modRing h fun r _ => empty r

/-- Whether the safe state lasts. -/
theorem ofSafe (b : Bool) : Calm fun s => s.fcl.safe = b := ⟨fun _ h => h, fun _ h => h, fun h => h, fun h => h⟩

/-- A raise keeps what its writes keep, if the setting of a sticky bit, of the board alert outside the safe state, and the entry into it keep
it too. -/
structure Raise (P : State → Prop) : Prop extends Calm P where
  status : ∀ {s n}, P s → P (s.setBit64 .FCL_STATUS_LO .FCL_STATUS_HI n)
  alert : ∀ {s cause}, s.fcl.safe = false → P s → P (s.alert cause)
  enterSafe : ∀ {s cause src code}, P s → P (s.enterSafe cause src code).1

theorem Raise.raiseNow (c : Raise P) {src detail : Nat} (h : P s) : P (s.raiseNow src detail).1 := by
  unfold State.raiseNow
  split
  · exact h
  · split
    · exact h
    · extract_lets sev fresh s₁ s₂ s₃ s₄ ev al
      have h₃ : P s₃ := c.noteFF (c.status (c.wr rfl (c.pmuAdd h)))
      have h₄ : P s₄ := c.lupSubmit h₃
      split
      · exact h₃
      · rename_i run
        split
        · change P (if al then s₄.alert 1 else s₄)
          split
          · exact c.alert ((ofSafe false).lupSubmit (Bool.eq_false_iff.mpr run)) h₄
          · exact h₄
        · exact h₃

theorem Raise.runNote (c : Raise P) {n : Note} (h : P s) : P (s.runNote n).1 := by
  cases n with
  | entry g e => exact c.putEntry h
  | event d code detail a0 a1 a2 ring => exact c.putEntry h
  | ringErr g cause idx addr completed => exact c.failRing h
  | fault src detail => exact c.raiseNow h
  | safe cause src code => exact c.enterSafe h

theorem Raise.runNotes (c : Raise P) {k : Nat} {l : List Note} (h : P s) : P (State.runNotes k l s) := by
  induction k generalizing l s with
  | zero => exact h
  | succ k ih =>
    cases l with
    | nil => exact h
    | cons n l => exact ih (c.runNote h)

theorem Raise.report (c : Raise P) {l : List Note} (h : P s) : P (s.report l) := c.runNotes h

theorem Raise.raise (c : Raise P) {src detail : Nat} (h : P s) : P (s.raise src detail) := c.report h

/-! A predicate about no register but the sticky bits is kept by all that the entry into the safe state stops, as soon as the disarming of the
injectors keeps it. -/

/-- A predicate about no register but the sticky bits. -/
structure Free (P : State → Prop) : Prop extends Calm P where
  any : ∀ {s k v i j}, k ≠ .FCL_STATUS_LO → k ≠ .FCL_STATUS_HI → P s → P (s.wr k v i j)
  disarm : ∀ {s : State}, P s → P s.disarmAll

theorem Free.set (c : Free P) {f : Fld} {v i j : Nat} (lo : f.reg ≠ .FCL_STATUS_LO) (hi : f.reg ≠ .FCL_STATUS_HI) (h : P s) :
    P (s.setFld f v i j) := c.any lo hi h

theorem Free.flag (c : Free P) {f : Fld} {b : Bool} {i j : Nat} (lo : f.reg ≠ .FCL_STATUS_LO) (hi : f.reg ≠ .FCL_STATUS_HI) (h : P s) :
    P (s.setFlag f b i j) := c.any lo hi h

theorem Free.alert (c : Free P) {cause : Nat} (h : P s) : P (s.alert cause) := by
  unfold State.alert
  dsimp only
  split
  · exact c.flag (by decide) (by decide) (c.any (by decide) (by decide) h)
  · exact c.any (by decide) (by decide) h

theorem startClock (c : Calm P) {b code : Nat} (h : P s) : P (s.startClock b code) := by
  unfold State.startClock
  split
  · exact c.units h
  · split
    · exact h
    · exact c.pmuAdd (c.units h)

theorem giveCredit (c : Calm P) {cls hdr data : Nat} (h : P s) : P (s.giveCredit cls hdr data) := by
  unfold State.giveCredit
  split
  · exact c.modHqe (fun _ => rfl) h
  · exact c.modGwl h

theorem dropHoldings (c : Calm P) (h : P s) : P s.dropHoldings := by
  refine State.each_closed (c.modSeals h) fun l s h => ?_
  split
  · exact c.dropLine h
  · exact c.settle (c.modLine h)
  · exact h

theorem Free.showNoProducts (c : Free P) (h : P s) : P s.showNoProducts :=
  c.set (by decide) (by decide) (c.flag (by decide) (by decide) (c.set (by decide) (by decide)
    (State.each_closed (State.each_closed h fun _ _ h => c.any (by decide) (by decide) h) fun _ _ h =>
      c.set (by decide) (by decide) (c.set (by decide) (by decide) (c.set (by decide) (by decide) h)))))

theorem Free.dropProducts (c : Free P) (h : P s) : P s.dropProducts := by
  unfold State.dropProducts
  extract_lets u v
  have hv : P v := State.each_closed (State.each_closed h fun _ _ h =>
      c.any (by decide) (by decide) (c.any (by decide) (by decide) (c.any (by decide) (by decide) h))) fun _ _ h =>
    c.modRing h fun r empty => by split; exacts [rfl, empty]
  exact c.showNoProducts (c.dropHoldings (c.units hv))

theorem Free.dropGenerations (c : Free P) (h : P s) : P s.dropGenerations :=
  State.each_closed (c.units h) fun _ _ h => c.flag (by decide) (by decide) (c.set (by decide) (by decide) h)

theorem dropTiles (c : Calm P) (h : P s) : P s.dropTiles := State.each_closed h fun _ _ h => c.modBlm h

theorem dropBridge (c : Calm P) (h : P s) : P s.dropBridge := by
  refine c.units (State.each_closed h fun p s h => ?_)
  refine c.units (State.each_closed h fun x s h => ?_)
  split
  · exact h
  · exact c.giveCredit h

theorem Free.lupWrite (c : Free P) {r : LupRec} (h : P s) : P (s.lupWrite r) :=
  c.pmuAdd (c.set (by decide) (by decide) (c.set (by decide) (by decide) (c.modLup h)))

theorem Free.lupDrain (c : Free P) (h : P s) : P s.lupDrain := c.modLup (State.each_closed h fun _ _ h => c.lupWrite h)

end Calm

/-- What the entry into the safe state stops and drops, and the board alert that it sets (R538 to R545). -/
def State.allStopped (s : State) : State :=
  ((s.disarmAll.dropTiles.dropGenerations.dropProducts.dropBridge).each (List.range 8) (fun b s => s.startClock b 16)).alert 0

/-- What the entry records with SYS running: its register, its Lupin record, and the frozen buffer. -/
def State.entryRecorded (s : State) (word : Nat) : State :=
  (((s.wr .FCL_SAFE word).when (!(s.wr .FCL_SAFE word).flag F.LUP_STAT.FROZEN) (fun s => (s.lupDrain).lupWrite
    { kind := 2, boot := s.fld F.SEC_BOOT_CNT.COUNT % 32, at_ := s.now, arg0 := word, arg1 := s.rd .FCL_COINC_LO })).setFlag
      F.LUP_STAT.FROZEN).setFlag F.LUP_STAT.UNSAVED

/-- The word of the safe state's register (R542). -/
def safeWord (cause src code : Nat) : Nat := 1 <<< 31 + cause <<< 28 + (if cause = 1 then src else 0) <<< 22 + (if cause = 2 then code else 0) <<< 19

/-- The state at the entry, before anything is stopped. -/
def State.entering (s : State) (word : Nat) : State :=
  (s.modFcl (fun f => { f with safe := true, safeAt := s.time.now, safeD02 := word, faultN := false })).when
    ((s.modFcl (fun f => { f with safe := true, safeAt := s.time.now, safeD02 := word, faultN := false })).flag F.PMU_CTRL.FRZ_SAFE)
    (·.setFlag F.PMU_CTRL.FREEZE)

theorem State.enterSafe_none (s : State) (cause src code : Nat) (h : s.fcl.safe = true ∨ s.sec.pwrGood = false) :
    s.enterSafe cause src code = (s, []) := by
  unfold State.enterSafe
  exact if_pos (h.imp_right (by rw [·]; exact Bool.false_ne_true))

theorem State.enterSafe_stopped (s : State) (cause src code : Nat) (calm : s.fcl.safe = false) (power : s.sec.pwrGood = true)
    (stopped : (s.entering (safeWord cause src code)).allStopped.sysStopped = true) : s.enterSafe cause src code
      = (((((s.entering (safeWord cause src code)).allStopped.setFlag F.LUP_STAT.FROZEN).setFlag F.LUP_STAT.UNSAVED).modLup
          (fun l => { l with queue := [] })).modFcl (fun f => { f with lateDue := true }), []) := by
  unfold State.enterSafe
  rw [if_neg (by rw [calm, power]; decide)]
  exact if_pos stopped

theorem State.enterSafe_runs (s : State) (cause src code : Nat) (calm : s.fcl.safe = false) (power : s.sec.pwrGood = true)
    (runs : (s.entering (safeWord cause src code)).allStopped.sysStopped = false) : ∃ l, s.enterSafe cause src code
      = ((s.entering (safeWord cause src code)).allStopped.entryRecorded (safeWord cause src code), l) := by
  unfold State.enterSafe
  rw [if_neg (by rw [calm, power]; decide)]
  exact ⟨_, if_neg (by exact ne_true_of_eq_false runs)⟩

namespace Calm

theorem Free.allStopped (c : Free P) (h : P s) : P s.allStopped :=
  c.alert (State.each_closed (c.dropBridge (c.dropProducts (c.dropGenerations (c.dropTiles (c.disarm h))))) fun _ _ h => c.startClock h)

theorem Free.entryRecorded (c : Free P) {word : Nat} (h : P s) : P (s.entryRecorded word) :=
  c.flag (by decide) (by decide) (c.flag (by decide) (by decide)
    (State.when_closed (c.any (by decide) (by decide) h) fun _ h => c.lupWrite (c.lupDrain h)))

/-- Such a predicate is kept by a raise if it speaks of the collector's injectors only, and if the setting of a sticky bit keeps it. -/
theorem Free.raises (c : Free P) (fcl : ∀ {s f}, (∀ x : Fcl, (f x).fij = x.fij) → P s → P (s.modFcl f))
    (status : ∀ {s n}, P s → P (s.setBit64 .FCL_STATUS_LO .FCL_STATUS_HI n)) : Raise P where
  toCalm := c.toCalm
  status := status
  alert _ h := c.alert h
  enterSafe {s cause src code} h := by
    by_cases none_ : s.fcl.safe = true ∨ s.sec.pwrGood = false
    · rw [s.enterSafe_none cause src code none_]
      exact h
    · obtain ⟨calm, power⟩ := not_or.mp none_
      have calm' := Bool.eq_false_iff.mpr calm
      have power' : s.sec.pwrGood = true := by simpa using power
      have stops : P (s.entering (safeWord cause src code)).allStopped :=
        c.allStopped (State.when_closed (fcl (fun _ => rfl) h) fun _ h => c.flag (by decide) (by decide) h)
      by_cases stopped : (s.entering (safeWord cause src code)).allStopped.sysStopped = true
      · rw [s.enterSafe_stopped cause src code calm' power' stopped]
        have shown := c.flag (f := F.LUP_STAT.UNSAVED) (b := true) (i := 0) (j := 0) (by decide) (by decide)
          (c.flag (f := F.LUP_STAT.FROZEN) (b := true) (i := 0) (j := 0) (by decide) (by decide) stops)
        dsimp only
        refine fcl (fun _ => rfl) ?_
        exact c.modLup shown
      · obtain ⟨l, runs⟩ := s.enterSafe_runs cause src code calm' power' (Bool.eq_false_iff.mpr stopped)
        rw [runs]
        exact c.entryRecorded stops

end Calm

/-! Two such predicates: no injector holds a unit, and a ring holds no buffer. -/

theorem Tbl.get_foldl_range {α : Type} [DecidableEq α] [Inhabited α] (t : Tbl α) (n i : Nat) (f : α → α) (low : i < n) :
    ((List.range n).foldl (fun t i => t.upd i f) t).get i = f (t.get i) := by
  have all : ∀ n, ((List.range n).foldl (fun t i => t.upd i f) t).get i = if i < n then f (t.get i) else t.get i := fun n => by
    induction n with
    | zero => rfl
    | succ n ih =>
      rw [List.range_succ, List.foldl_append]
      change (Tbl.upd _ n f).get i = _
      by_cases e : i = n
      · subst e
        rw [Tbl.get_upd_same, ih, if_neg (by omega), if_pos (by omega)]
      · rw [Tbl.get_upd_other _ _ _ _ e, ih]
        exact if_congr (by omega) rfl rfl
  rw [all, if_pos low]

theorem State.disarmAll_fcl (s : State) : s.disarmAll.fcl = { s.fcl with
    fij := (List.range 8).foldl (fun t i => t.upd i (fun x =>
      { held := x.held, link := x.link, inst := x.inst, cut := x.held != [] })) s.fcl.fij } := by
  unfold State.disarmAll
  rw [State.modFcl_fcl, State.setFld_fcl, State.each_keeps State.fcl _ _ _ fun _ _ => State.setFlag_fcl _ _ _ _ _]

theorem State.disarmAll_hqe (s : State) : s.disarmAll.hqe = s.hqe := by
  unfold State.disarmAll
  rw [State.modFcl_hqe, State.setFld_hqe, State.each_keeps State.hqe _ _ _ fun _ _ => State.setFlag_hqe _ _ _ _ _]

theorem State.disarmAll_fij (s : State) (i : Nat) (low : i < 8) : (s.disarmAll.fcl.fij.get i).held = (s.fcl.fij.get i).held
    ∧ (s.disarmAll.fcl.fij.get i).cut = ((s.fcl.fij.get i).held != []) := by
  rw [State.disarmAll_fcl]
  dsimp only
  rw [Tbl.get_foldl_range _ _ _ _ low]
  exact ⟨rfl, rfl⟩

theorem State.noHeld_free : Calm.Free State.noHeld where
  wr _ h := h
  hqe _ h := h
  units h := h
  ff h := h
  any _ _ h := h
  disarm {s} h i low := by
    obtain ⟨held, cut⟩ := s.disarmAll_fij i low
    rw [held, cut, (h i low).1]
    exact ⟨rfl, rfl⟩

theorem State.noHeld_raises : Calm.Raise State.noHeld :=
  State.noHeld_free.raises
    (fun {s f} same h i low => by
      have e : (s.modFcl f).fcl.fij = s.fcl.fij := same _
      rw [e]
      exact h i low)
    (fun {s n} h => by
      unfold State.setBit64
      split <;> exact h)

theorem State.unheld_free (g : Nat) : Calm.Free fun s => (s.ring g).held = none where
  wr _ h := h
  hqe stays h := stays g h
  units h := h
  ff h := h
  any _ _ h := h
  disarm {s} h := by
    have kept := congrArg (fun x : Hqe => (x.rings.get g).held) s.disarmAll_hqe
    exact kept.trans h

theorem State.unheld_raises (g : Nat) : Calm.Raise fun s => (s.ring g).held = none :=
  (State.unheld_free g).raises (fun _ h => h) (fun {s n} h => by
    unfold State.setBit64
    split <;> exact h)

theorem State.raise_noHeld (s : State) (src detail : Nat) (h : s.noHeld) : (s.raise src detail).noHeld := State.noHeld_raises.raise h

end Sys2Proof.Machine
end

section
/-! PROOFS. A published line of a host product goes into the held buffer. -/
namespace Sys2Proof.Machine

/-! The next fetch of a ring: it leaves the pool as it is, and a ring whose fetch is refused holds no buffer. -/

theorem State.runNotes_cons (k : Nat) (n : Note) (l : List Note) (s : State) (pos : 0 < k) :
    State.runNotes k (n :: l) s = State.runNotes (k - 1) ((s.runNote n).2 ++ l) (s.runNote n).1 := by
  cases k with
  | zero => omega
  | succ k => rfl

theorem State.failRing_unheld (s : State) (g cause idx addr : Nat) (completed : Bool) (runs : (s.ring g).st = .running) :
    (((s.failRing g cause idx addr completed).1).ring g).held = none := by
  refine (State.unheld_free g).toCalm.failRing_of (by rw [runs]; decide) fun f empty => ?_
  rw [State.ring_modRing_same]
  exact empty _

theorem State.ringErr_unheld (s : State) (g cause idx addr : Nat) (completed : Bool) (runs : (s.ring g).st = .running) :
    ((s.report [.ringErr g cause idx addr completed]).ring g).held = none := by
  unfold State.report
  rw [State.runNotes_cons _ _ _ _ (by omega)]
  exact (State.unheld_raises g).runNotes (s.failRing_unheld g cause idx addr completed runs)

theorem State.readHost_pool (org : Org) (d cls addr len : Nat) (s u : State) (h : s.readHost org d cls addr len = some u) : u.pool = s.pool := by
  unfold State.readHost at h
  dsimp only at h
  split at h
  · rw [← Option.some.inj h]
    exact State.each_keeps State.pool _ _ _ fun _ _ => rfl
  · exact (nomatch h)

theorem State.readRefused_rest (s : State) (org : Org) (d cls addr len : Nat) : (s.readRefused org d cls addr len).pool = s.pool
    ∧ (s.readRefused org d cls addr len).hqe = s.hqe := by
  unfold State.readRefused State.windowRefused State.pushReads
  constructor
  · rw [State.pmuAdd_pool]
    exact State.each_keeps State.pool _ _ _ fun _ _ => rfl
  · rw [State.pmuAdd_hqe]
    exact State.each_keeps State.hqe _ _ _ fun _ _ => rfl

theorem State.touchCtx_pool (s : State) (g : Nat) : (s.touchCtx g).pool = s.pool := rfl

/-- A fetch leaves the pool and the held buffer; what it reports is a read that the domain's windows refuse, of a running ring. -/
theorem State.fetchRun_rest (k g : Nat) (s : State) : (State.fetchRun k g s).1.pool = s.pool
    ∧ ((State.fetchRun k g s).2 = [] ∨ ∃ i a, (State.fetchRun k g s).2 = [.ringErr g 2 i a false]
      ∧ ((State.fetchRun k g s).1.ring g).st = .running) := by
  induction k generalizing s with
  | zero => exact ⟨rfl, .inl rfl⟩
  | succ k ih =>
    unfold State.fetchRun
    extract_lets r slot addr n
    split
    · exact ⟨rfl, .inl rfl⟩
    · rename_i runs
      split
      case h_1 u read =>
        obtain ⟨pool, notes⟩ := ih ((u.modRing g (fun r => { r with fi := (r.fi + n) % 2 ^ 32 })).touchCtx g)
        have read' : u.pool = s.pool := State.readHost_pool _ _ _ _ _ _ _ read
        exact ⟨(pool.trans (State.touchCtx_pool _ _)).trans read', notes⟩
      case h_2 =>
        obtain ⟨pool, hqe⟩ := s.readRefused_rest { kind := .desc, ring := g, idx := r.fi } (ringDom g) r.cls addr (32 * n)
        have live : s.fetches g = true := not_not.mp (not_or.mp runs).2
        have running : (s.ring g).st = .running := by
          unfold State.fetches State.ringLive State.ringOn at live
          simp only [Bool.and_eq_true, beq_iff_eq] at live
          exact live.1.1.1.2
        exact ⟨pool, .inr ⟨_, _, rfl, (congrArg (fun h : Hqe => (h.rings.get g).st) hqe).trans running⟩⟩

/-- A ring that still holds a buffer after its fetch has not failed by it, so the pool is as it was. -/
theorem State.fetchMore_pool (g : Nat) (s : State) (h : HeldBuf) (held : ((s.fetchMore g).ring g).held = some h) : (s.fetchMore g).pool = s.pool := by
  unfold State.fetchMore at held ⊢
  split
  · split
    · rfl
    · unfold State.askFill
      rw [State.modHqe_pool, State.pmuAdd_pool, State.count_pool]
  · rename_i run
    rw [if_neg run] at held
    obtain ⟨pool, quiet | ⟨i, a, failed, runs⟩⟩ := State.fetchRun_rest 16 g s
    · unfold State.andReport at held ⊢
      rw [quiet]
      exact pool
    · unfold State.andReport at held
      rw [failed, State.ringErr_unheld _ _ _ _ _ _ runs] at held
      exact (nomatch held)

theorem State.takeBuf_held (s : State) (i g k : Nat) (q : PFrame) (h : HeldBuf) (held : (s.ring g).held = some h) : s.takeBuf i g q k = s := by
  cases k with
  | zero => rfl
  | succ k =>
    unfold State.takeBuf
    dsimp only
    rw [held]
    rfl

theorem State.writeHost_beside {s t : State} {org : Org} {d cls addr : Nat} {data : List Byte} {ro : Bool} {ends : Option (Nat × Nat × Nat)}
    (h : s.writeHost org d cls addr data ro ends = some t) : t.pool = s.pool ∧ t.hqe = s.hqe := by
  unfold State.writeHost at h
  dsimp only at h
  split at h
  · rw [← Option.some.inj h]
    exact ⟨State.each_keeps State.pool _ _ _ fun _ _ => rfl, State.each_keeps State.hqe _ _ _ fun _ _ => rfl⟩
  · exact (nomatch h)

/-! The release of a host product's line. -/

/-- The state once line `d` of a frame has been written to the held buffer: the line is marked, the frame goes on, the buffer counts it. -/
def State.lineHanded (s : State) (i g d f : Nat) (h : HeldBuf) (flags : Nat) : State :=
  ((s.modLine d (fun l => { l with sent := true })).modPFrame i f (fun q => { q with rel := q.rel + 1 })).modRing g
    (fun r => { r with held := some { h with lines := h.lines + 1, flags := h.flags ||| flags } })

theorem doHostLineRelease_writes (s : State) (i : Nat) (q : PFrame) (d : Nat) (l : PLine) (h0 h : HeldBuf) (a : State)
    (frame : (s.product i).frames.find? (fun x => !x.dead) = some q) (host : pdbDestKind q.pdb = 0) (next : s.nextOut i q = some d)
    (line : s.line d = some l) (held0 : (s.ring (pdbRing q.pdb)).held = some h0)
      (held : ((s.fetchMore (pdbRing q.pdb)).ring (pdbRing q.pdb)).held = some h)
    (plain : h.recs = 0) (sealed : lineSeal (pdbSrc0 q.pdb) i q.frame l.line l.data = l.sealVal)
    (write : (s.fetchMore (pdbRing q.pdb)).writeHost { kind := .lineData, ring := pdbRing q.pdb, idx := h.idx } (ringDom (pdbRing q.pdb))
      ((s.fetchMore (pdbRing q.pdb)).ring (pdbRing q.pdb)).cls (h.addr + h.lines * h.pitch) l.data
      ((s.fetchMore (pdbRing q.pdb)).flag F.GWL_CTRL.RO_EN) (some (i, q.frame, l.line)) = some a)
    (room : h.lines + 1 < h.bytes / h.pitch) (more : q.rel + 1 ≠ pdbFrameLines q.pdb) :
    doHostLineRelease i s
      = (((((a.lineHanded i (pdbRing q.pdb) d q.frame h l.flags).fetchMore (pdbRing q.pdb)).settleSpill i).tryEnds i).retryCommits) := by
  unfold doHostLineRelease
  rw [frame]
  dsimp only
  rw [if_neg (not_not.mpr host), next, Option.bind_some, line, Option.map_some]
  dsimp only
  rw [s.takeBuf_held _ _ _ _ _ held0, held]
  dsimp only
  rw [write]
  dsimp only [Option.bind_some]
  rw [if_pos plain]
  dsimp only
  rw [sealed]
  have partFull : ¬(q.rel + 1 == pdbFrameLines q.pdb || decide (h.bytes / h.pitch ≤ h.lines + 1)) = true := by
    rw [Bool.or_eq_true, beq_iff_eq, decide_eq_true_eq]
    omega
  rw [bne_self_eq_false, if_neg Bool.false_ne_true, if_neg partFull, Bool.or_false]
  rfl

/-- Settles O43. -/
theorem hostLinesFillTheirBuffer : Obligations.HostLinesFillTheirBuffer := by
  unfold Obligations.HostLinesFillTheirBuffer
  intro s i q d l h0 h a frame host next line g v held0 held plain sealed write room more
  obtain ⟨pool, -⟩ := State.writeHost_beside write
  have pool' : a.pool = s.pool := pool.trans (State.fetchMore_pool g s h held)
  have line' : ∀ x, a.line x = s.line x := fun x => congrArg (fun p : Pool => p.dir.get x) pool'
  refine ⟨a.lineHanded i.toNat g d q.frame h l.flags, congrArg Host.Outcome.next
    (doHostLineRelease_writes s i.toNat q d l h0 h a frame host next line held0 held plain sealed write room more), ?_,
      fun x other => ?_, ?_, rfl, rfl⟩
  · refine (a.line_modLine_same d _).trans ?_
    rw [line' d, line]
    rfl
  · exact (a.line_modLine_other d x _ other).trans (line' x)
  · unfold State.lineHanded
    rw [State.ring_modRing_same]

end Sys2Proof.Machine
end

section
/-! PROOFS. Register writes: fields by access type and class, the open generation, and dropped class-L writes. -/
namespace Sys2Proof.Machine

/-! The fields of a register lie in its word, one beside the other; a write sets each by its access type and class. -/

/-- Two fields share no bit. -/
def Fld.beside (f g : Fld) : Bool := f.hi < g.lo || g.hi < f.lo

/-- The fields of a register are its own, lie in its word, and share no bit. -/
def RegKind.fieldsFit (k : RegKind) : Bool :=
  k.fields.all (fun f => f.reg == k && f.lo ≤ f.hi && f.hi < 32) && decide (k.fields.Pairwise (fun f g => f.beside g = true))

theorem RegKind.fields_fit (k : RegKind) : k.fieldsFit = true := by
  cases k <;> rfl

theorem RegKind.field_fits {k : RegKind} {f : Fld} (h : f ∈ k.fields) : f.reg = k ∧ f.lo ≤ f.hi ∧ f.hi < 32 := by
  have fit := k.fields_fit
  unfold RegKind.fieldsFit at fit
  simpa [and_assoc] using List.all_eq_true.mp (Bool.and_eq_true_iff.mp fit).1 f h

theorem RegKind.fields_beside (k : RegKind) : k.fields.Pairwise (fun f g => f.beside g = true) := by
  have fit := k.fields_fit
  unfold RegKind.fieldsFit at fit
  exact of_decide_eq_true (Bool.and_eq_true_iff.mp fit).2

theorem bits_putBits_beside (f g : Fld) (w v : Nat) (fit : g.lo ≤ g.hi) (h : f.beside g = true) :
    bits (putBits w g.hi g.lo v) f.hi f.lo = bits w f.hi f.lo := by
  unfold Fld.beside at h
  rw [Bool.or_eq_true, decide_eq_true_eq, decide_eq_true_eq] at h
  rcases h with below | above
  · exact bits_putBits_below _ _ _ _ _ _ (by omega) below
  · exact bits_putBits_above _ _ _ _ _ _ (by omega) above

/-- Fields written one after the other leave the fields beside them. -/
theorem bits_foldl_beside (f : Fld) (val : Fld → Nat) (l : List Fld) (w : Nat) (fit : ∀ g ∈ l, g.lo ≤ g.hi) (h : ∀ g ∈ l, f.beside g = true) :
    bits (l.foldl (fun w g => putBits w g.hi g.lo (val g)) w) f.hi f.lo = bits w f.hi f.lo := by
  induction l generalizing w with
  | nil => rfl
  | cons g l ih =>
    rw [List.foldl_cons, ih _ (fun x hx => fit x (.tail _ hx)) (fun x hx => h x (.tail _ hx)),
      bits_putBits_beside f g w _ (fit g (.head _)) (h g (.head _))]

theorem bits_foldl_field (f : Fld) (val : Fld → Nat) (l : List Fld) (w : Nat) (fit : ∀ g ∈ l, g.lo ≤ g.hi)
    (apart : l.Pairwise (fun f g => f.beside g = true)) (h : f ∈ l) :
    bits (l.foldl (fun w g => putBits w g.hi g.lo (val g)) w) f.hi f.lo = val f % 2 ^ (f.hi + 1 - f.lo) := by
  induction l generalizing w with
  | nil => exact (nomatch h)
  | cons g l ih =>
    obtain ⟨first, rest⟩ := List.pairwise_cons.mp apart
    rw [List.foldl_cons]
    rcases List.mem_cons.mp h with rfl | later
    · rw [bits_foldl_beside f val l _ (fun x hx => fit x (.tail _ hx)) first, bits_putBits_same _ _ _ _ (by have := fit f h; omega)]
    · exact ih _ (fun x hx => fit x (.tail _ hx)) rest later

theorem foldl_putBits_lt (val : Fld → Nat) (l : List Fld) (w : Nat) (fit : ∀ g ∈ l, g.lo ≤ g.hi ∧ g.hi < 32) (h : w < 2 ^ 32) :
    l.foldl (fun w g => putBits w g.hi g.lo (val g)) w < 2 ^ 32 := by
  induction l generalizing w with
  | nil => exact h
  | cons g l ih =>
    obtain ⟨low, high⟩ := fit g (.head _)
    exact ih _ (fun x hx => fit x (.tail _ hx)) (putBits_lt _ _ _ _ _ (by omega) high h)

/-- The bits of a word below `n` that the predicate keeps. -/
theorem keptBits (keep : Nat → Bool) (o n : Nat) :
    (List.range n).foldl (fun t i => if keep i then t else t + (b2n (bit o i)) <<< i) 0 < 2 ^ n
    ∧ ∀ b, b < n → ((List.range n).foldl (fun t i => if keep i then t else t + (b2n (bit o i)) <<< i) 0).testBit b = (bit o b && !keep b) := by
  induction n with
  | zero => exact ⟨Nat.one_pos, fun b low => absurd low (Nat.not_lt_zero b)⟩
  | succ n ih =>
    obtain ⟨small, tested⟩ := ih
    rw [List.range_succ, List.foldl_append]
    generalize (List.range n).foldl (fun t i => if keep i then t else t + (b2n (bit o i)) <<< i) 0 = t at small tested
    change (if keep n then t else t + (b2n (bit o n)) <<< n) < 2 ^ (n + 1) ∧ ∀ b, b < n + 1 →
      (if keep n then t else t + (b2n (bit o n)) <<< n).testBit b = (bit o b && !keep b)
    have one : b2n (bit o n) < 2 := by unfold b2n; split <;> omega
    by_cases k : keep n = true
    · rw [if_pos k]
      refine ⟨by rw [pow_succ]; omega, fun b low => ?_⟩
      by_cases top : b = n
      · rw [top, k, Nat.testBit_lt_two_pow small, Bool.not_true, Bool.and_false]
      · exact tested b (by omega)
    · rw [if_neg k, Nat.shiftLeft_eq, mul_comm, add_comm]
      refine ⟨by rw [pow_succ]; nlinarith, fun b low => ?_⟩
      rw [Nat.testBit_two_pow_mul_add _ small]
      by_cases top : b = n
      · rw [top, if_neg (lt_irrefl n), Nat.sub_self, Bool.eq_false_iff.mpr k, Bool.not_false, Bool.and_true]
        unfold b2n
        cases bit o n <;> rfl
      · rw [if_pos (by omega)]
        exact tested b (by omega)

theorem fieldAfter_lt (f : Fld) (lock : Bool) (v old : Nat) : fieldAfter f lock v old < 2 ^ (f.hi + 1 - f.lo) := by
  have small : ∀ w, bits w f.hi f.lo < 2 ^ (f.hi + 1 - f.lo) := fun w => Nat.mod_lt _ (Nat.two_pow_pos _)
  unfold fieldAfter
  dsimp only
  split
  · exact small old
  · exact small old
  · exact (keptBits _ _ _).1
  · split
    · exact small old
    · exact Nat.two_pow_pos _
  · split
    · exact small old
    · split
      · exact small old
      · exact small v
    · exact small v

/-- Each field of a register holds after a write what its access type and class make of it. -/
theorem bits_fieldsAfter {k : RegKind} {f : Fld} (h : f ∈ k.fields) (lock : Bool) (v old : Nat) :
    bits (fieldsAfter k.fields lock v old) f.hi f.lo = fieldAfter f lock v old := by
  unfold fieldsAfter
  rw [bits_foldl_field f _ _ _ (fun g hg => (RegKind.field_fits hg).2.1) k.fields_beside h, Nat.mod_eq_of_lt (fieldAfter_lt f lock v old)]

theorem fieldsAfter_lt (k : RegKind) (lock : Bool) (v old : Nat) (h : old < 2 ^ 32) : fieldsAfter k.fields lock v old < 2 ^ 32 :=
  foldl_putBits_lt _ _ _ (fun _ hg => (RegKind.field_fits hg).2) h

/-- A write that the block does not lock changes a class-L field just when the value written differs there. -/
theorem changesL_fieldsAfter (k : RegKind) (v old : Nat) : changesL k.fields (fieldsAfter k.fields false v old) old = changesL k.fields v old := by
  unfold changesL
  rw [Bool.eq_iff_iff]
  simp only [List.any_eq_true, Bool.and_eq_true, beq_iff_eq, bne_iff_ne]
  refine exists_congr fun f => and_congr_right fun hf => and_congr_right fun kind => ?_
  have val : fieldAfter f false v old = bits v f.hi f.lo := by
    unfold fieldAfter
    rw [kind.1, kind.2]
    rfl
  rw [bits_fieldsAfter hf, val]

/-! A write of a plain register: the register takes the word, the class-S part waits in the open generation, and a write that would have
changed a locked field is reported. -/

/-- The state once the register has taken the word and the open generation its class-S part. -/
def State.fieldsWritten (s : State) (k : RegKind) (i j v : Nat) : State :=
  (s.wr k (fieldsAfter k.fields (s.ownerRuns k i j v) v (s.rd k i j)) i j).when (maskS k.fields != 0) (fun t =>
    (t.modCfg (fun c =>
      { c with opn := c.opn.upd (s.groupOf k i j) (· ++ [{ reg := ⟨k, i, j⟩, mask := maskS k.fields, val := v &&& maskS k.fields }]) }
      )).setFlag F.CFG_STATE.OPEN_DIRTY true (s.groupOf k i j))

theorem regFix_plain {k : RegKind} (plain : k.plain = true) (i v : Nat) : regFix k i v = v := by
  unfold regFix
  split
  case h_5 => rfl
  all_goals exact absurd plain (by decide)

theorem State.writeFields_plain (s : State) (path : Path) (k : RegKind) (i j v : Nat) (plain : k.plain = true) :
    s.writeFields path k i j v = (s.fieldsWritten k i j v).when (s.ownerRuns k i j v && changesL k.fields v (s.rd k i j))
      (·.ldrop path (k.off i j)) := by
  unfold State.writeFields State.fieldsWritten
  dsimp only
  rw [regFix_plain plain, regFix_plain plain, changesL_fieldsAfter]

theorem State.writeReg_plain (s : State) (path : Path) (k : RegKind) (i j v : Nat) (plain : k.plain = true) (bridge : k ≠ .VBR_CTRL) :
    s.writeReg path k i j v = s.writeFields path k i j v := by
  unfold State.writeReg
  dsimp only
  split
  case h_21 => exact absurd rfl bridge
  case h_38 => rfl
  all_goals exact absurd plain (by decide)

theorem State.fieldsWritten_fcl (s : State) (k : RegKind) (i j v : Nat) : (s.fieldsWritten k i j v).fcl = s.fcl := by
  unfold State.fieldsWritten State.when
  split <;> rfl

theorem State.fieldsWritten_rd_same (s : State) (k : RegKind) (i j v : Nat) (plain : k.plain = true) :
    (s.fieldsWritten k i j v).rd k i j = fieldsAfter k.fields (s.ownerRuns k i j v) v (s.rd k i j) := by
  have state : k ≠ .CFG_STATE := fun e => absurd plain (by rw [e]; decide)
  have taken := State.rd_wr_same s k (fieldsAfter k.fields (s.ownerRuns k i j v) v (s.rd k i j)) i j
  rw [Nat.mod_eq_of_lt (fieldsAfter_lt _ _ _ _ (s.rd_lt _ _ _))] at taken
  unfold State.fieldsWritten State.when
  split
  · rw [State.rd_setFlag_kind _ _ _ _ _ _ _ _ state, State.modCfg_rd, taken]
  · exact taken

theorem State.fieldsWritten_rd_kind (s : State) (k k' : RegKind) (i j v i' j' : Nat) (other : k' ≠ k) (state : k' ≠ .CFG_STATE) :
    (s.fieldsWritten k i j v).rd k' i' j' = s.rd k' i' j' := by
  unfold State.fieldsWritten State.when
  split
  · rw [State.rd_setFlag_kind _ _ _ _ _ _ _ _ state, State.modCfg_rd, State.rd_wr_kind _ _ _ _ _ _ _ _ other]
  · exact State.rd_wr_kind _ _ _ _ _ _ _ _ other

theorem State.fieldsWritten_fld (s : State) (k : RegKind) (f : Fld) (i j v : Nat) (plain : k.plain = true) (h : f ∈ k.fields) :
    (s.fieldsWritten k i j v).fld f i j = fieldAfter f (s.ownerRuns k i j v) v (s.rd k i j) := by
  unfold State.fld
  rw [(RegKind.field_fits h).1, s.fieldsWritten_rd_same k i j v plain, bits_fieldsAfter h]

/-- What is recorded of a dropped class-L write, before the raise. -/
def State.ldropNoted (s : State) (path : Path) (off : Nat) : State :=
  (s.count F.CFG_LDROP_CNT.COUNT).when (!(s.count F.CFG_LDROP_CNT.COUNT).flag F.CFG_LDROP.VALID)
    (·.wr .CFG_LDROP (1 <<< 31 + pathCode path <<< 26 + off))

theorem State.ldrop_eq (s : State) (path : Path) (off : Nat) : s.ldrop path off = (s.ldropNoted path off).raise 16 0xFF := (rfl)

theorem State.ldropNoted_fcl (s : State) (path : Path) (off : Nat) : (s.ldropNoted path off).fcl = s.fcl := by
  unfold State.ldropNoted State.when
  split <;> rfl

theorem State.ldropNoted_rd_kind (s : State) (path : Path) (off : Nat) (k : RegKind) (i j : Nat) (cnt : k ≠ .CFG_LDROP_CNT) (rec_ : k ≠ .CFG_LDROP) :
    (s.ldropNoted path off).rd k i j = s.rd k i j := by
  unfold State.ldropNoted State.when
  split
  · rw [State.rd_wr_kind _ _ _ _ _ _ _ _ rec_, State.rd_count_kind _ _ _ _ _ _ _ cnt]
  · exact State.rd_count_kind _ _ _ _ _ _ _ cnt

theorem State.bridgeStart_keeps {β : Type} (obs : State → β) (vbr : ∀ s f, obs (State.modVbr f s) = obs s)
    (mgd : ∀ s f, obs (State.modMgd f s) = obs s)
    (s : State) : obs s.bridgeStart = obs s := by
  unfold State.bridgeStart
  refine (State.each_keeps obs _ _ _ fun f s => State.each_keeps obs _ _ s fun i s => ?_).trans (vbr s _)
  unfold State.clearTarget
  dsimp only
  split
  · exact mgd s _
  · exact vbr s _
  · exact vbr s _
  · rfl

/-- A block that runs is not one of the records of dropped writes. -/
theorem State.ownerRuns_kind {s : State} {k : RegKind} {i j v : Nat} (h : s.ownerRuns k i j v = true) : k ≠ .CFG_LDROP_CNT ∧ k ≠ .CFG_LDROP :=
  ⟨fun e => absurd h (by rw [e]; exact Bool.false_ne_true), fun e => absurd h (by rw [e]; exact Bool.false_ne_true)⟩

/-- A plain write shows in its register what its fields take, and lets no injector hold a unit. -/
theorem State.writeFields_shows (s : State) (path : Path) (k : RegKind) (i j v : Nat) (plain : k.plain = true) (free : s.noHeld) :
    (s.writeFields path k i j v).rd k i j = (s.fieldsWritten k i j v).rd k i j ∧ (s.writeFields path k i j v).noHeld := by
  have held : (s.fieldsWritten k i j v).noHeld := by
    unfold State.noHeld
    rw [s.fieldsWritten_fcl]
    exact free
  rw [s.writeFields_plain path k i j v plain]
  unfold State.when
  split
  case isFalse => exact ⟨rfl, held⟩
  case isTrue drop =>
    obtain ⟨cnt, rec_⟩ := State.ownerRuns_kind (Bool.and_eq_true_iff.mp drop).1
    have quiet : k.reported = false := by
      unfold RegKind.plain at plain
      simpa using (Bool.and_eq_true_iff.mp plain).1
    dsimp only
    rw [State.ldrop_eq]
    refine ⟨?_, State.raise_noHeld _ _ _ ?_⟩
    · rw [State.rd_of_quiet (State.raise_quiet _ _ _) _ _ _ quiet, State.ldropNoted_rd_kind _ _ _ _ _ _ cnt rec_]
    · unfold State.noHeld
      rw [State.ldropNoted_fcl]
      exact held

theorem State.writeReg_shows (s : State) (path : Path) (k : RegKind) (i j v : Nat) (plain : k.plain = true) (free : s.noHeld) :
    (s.writeReg path k i j v).rd k i j = (s.fieldsWritten k i j v).rd k i j ∧ (s.writeReg path k i j v).noHeld := by
  obtain ⟨shown, held⟩ := s.writeFields_shows path k i j v plain free
  by_cases bridge : k = .VBR_CTRL
  · subst bridge
    change ((s.writeFields path .VBR_CTRL i j v).when _ _).rd .VBR_CTRL i j = _ ∧ ((s.writeFields path .VBR_CTRL i j v).when _ _).noHeld
    unfold State.when
    split
    · unfold State.noHeld
      rw [State.rd_of_regs (State.bridgeStart_keeps State.regs (fun _ _ => rfl) (fun _ _ => rfl) _),
        State.bridgeStart_keeps State.fcl (fun _ _ => rfl) (fun _ _ => rfl)]
      exact ⟨shown, held⟩
    · exact ⟨shown, held⟩
  · rw [s.writeReg_plain path k i j v plain bridge]
    exact ⟨shown, held⟩

theorem doRegisterWrite_found (s : State) (path : Path) (off v : Nat) (r : RegId) (found : findReg off = some r) :
    doRegisterWrite path off v s = s.writeReg path r.kind r.i r.j v := by
  unfold doRegisterWrite
  rw [found]

theorem exec_registerWrite (s : State) (path : Path) (off : BitVec 26) (v : BitVec 32) (r : RegId) (found : findReg off.toNat = some r)
    (plain : r.kind.plain = true) (free : s.noHeld) :
    exec (.registerWrite path off v) s = .next (s.writeReg path r.kind r.i r.j v.toNat) := by
  obtain ⟨-, held⟩ := s.writeReg_shows path r.kind r.i r.j v.toNat plain free
  exact congrArg Host.Outcome.next ((congrArg State.releaseDisarmed (doRegisterWrite_found s path off.toNat v.toNat r found)).trans
    (State.releaseDisarmed_of_noHeld _ held))

/-- Settles O7. -/
theorem registerWriteFollowsAccessTypeAndClass : Obligations.RegisterWriteFollowsAccessTypeAndClass := by
  unfold Obligations.RegisterWriteFollowsAccessTypeAndClass
  intro s path off v r found plain free
  obtain ⟨shown, -⟩ := s.writeReg_shows path r.kind r.i r.j v.toNat plain free
  refine ⟨_, exec_registerWrite s path off v r found plain free, fun f hf => ?_⟩
  have reg := (RegKind.field_fits hf).1
  have after : (s.writeReg path r.kind r.i r.j v.toNat).fld f r.i r.j
      = fieldAfter f (s.ownerRuns r.kind r.i r.j v.toNat) v.toNat (s.rd r.kind r.i r.j) := by
    rw [← s.fieldsWritten_fld r.kind f r.i r.j v.toNat plain hf]
    unfold State.fld
    rw [reg, shown]
  have before : s.fld f r.i r.j = bits (s.rd r.kind r.i r.j) f.hi f.lo := by
    unfold State.fld
    rw [reg]
  rw [after, before]
  unfold fieldAfter
  dsimp only
  refine ⟨fun ro => ?_, fun rw_ cls => ?_, fun rw_ cls => ?_, fun rw_ shadow lock => ?_, fun w1c b low => ?_, fun w1cn => ?_⟩
  · rw [ro]
  · rw [rw_, cls]
  · rw [rw_, cls]
  · rw [rw_]
    cases e : f.cls
    case s => exact absurd e shadow
    case l => exact absurd e lock
    all_goals rfl
  · rw [w1c, bit_eq_testBit]
    exact (keptBits _ _ _).2 b low
  · rw [w1cn]

/-- Settles O8. -/
theorem classSWritesWaitInTheOpenGeneration : Obligations.ClassSWritesWaitInTheOpenGeneration := by
  unfold Obligations.ClassSWritesWaitInTheOpenGeneration
  intro s path off v r found plain allS some_ free
  have bridge : r.kind ≠ .VBR_CTRL := fun e => by
    have only := allS F.VBR_CTRL.EN
    rw [e] at only
    exact absurd (only (by decide) rfl) (by decide)
  have unlocked : changesL r.kind.fields v.toNat (s.rd r.kind r.i r.j) = false := by
    refine List.any_eq_false.mpr fun f hf => ?_
    rw [Bool.and_eq_true, Bool.and_eq_true, beq_iff_eq, beq_iff_eq]
    rintro ⟨⟨rw_, lock⟩, -⟩
    exact absurd ((allS f hf rw_).symm.trans lock) (by decide)
  have acts : s.writeReg path r.kind r.i r.j v.toNat = s.fieldsWritten r.kind r.i r.j v.toNat := by
    rw [s.writeReg_plain path r.kind r.i r.j v.toNat plain bridge, s.writeFields_plain path r.kind r.i r.j v.toNat plain, unlocked, Bool.and_false]
    rfl
  refine ⟨_, exec_registerWrite s path off v r found plain free, ?_⟩
  rw [acts]
  unfold State.fieldsWritten
  rw [bne_iff_ne.mpr some_, State.when_true]
  refine ⟨Tbl.get_upd_same _ _ _, fun g other => Tbl.get_upd_other _ _ _ _ other, rfl, ?_⟩
  rw [State.flag_setFlag_same _ _ _ _ _ rfl (by decide)]

/-- Settles O9. -/
theorem droppedClassLWritesAreRecorded : Obligations.DroppedClassLWritesAreRecorded := by
  unfold Obligations.DroppedClassLWritesAreRecorded
  intro s path off v r found plain runs changes free
  obtain ⟨cnt, rec_⟩ := State.ownerRuns_kind runs
  have fields : s.writeFields path r.kind r.i r.j v.toNat = (s.fieldsWritten r.kind r.i r.j v.toNat).ldrop path (r.kind.off r.i r.j) := by
    rw [s.writeFields_plain path r.kind r.i r.j v.toNat plain, runs, changes]
    rfl
  have acts : s.writeReg path r.kind r.i r.j v.toNat = (s.fieldsWritten r.kind r.i r.j v.toNat).ldrop path (r.kind.off r.i r.j) := by
    rw [← fields]
    by_cases bridge : r.kind = .VBR_CTRL
    · rw [bridge] at runs ⊢
      have on : s.flag F.VBR_CTRL.EN = true := runs
      change (s.writeFields path .VBR_CTRL r.i r.j v.toNat).when (!s.flag F.VBR_CTRL.EN && _) State.bridgeStart = _
      rw [on, Bool.not_true, Bool.false_and, State.when_false]
    · exact s.writeReg_plain path r.kind r.i r.j v.toNat plain bridge
  generalize hw : s.fieldsWritten r.kind r.i r.j v.toNat = w at acts
  have kept : ∀ k, k ≠ r.kind → k ≠ .CFG_STATE → w.rd k = s.rd k := fun k other state => by
    rw [← hw, s.fieldsWritten_rd_kind _ _ _ _ _ _ _ other state]
  have count : w.fld F.CFG_LDROP_CNT.COUNT = s.fld F.CFG_LDROP_CNT.COUNT :=
    congrArg (fun x => bits x F.CFG_LDROP_CNT.COUNT.hi F.CFG_LDROP_CNT.COUNT.lo) (kept .CFG_LDROP_CNT cnt.symm (by decide))
  have record := kept .CFG_LDROP rec_.symm (by decide)
  have valid : (w.count F.CFG_LDROP_CNT.COUNT).flag F.CFG_LDROP.VALID = s.flag F.CFG_LDROP.VALID := by
    unfold State.flag State.fld
    rw [show F.CFG_LDROP.VALID.reg = .CFG_LDROP from rfl, State.rd_count_kind _ _ _ _ _ _ _ (by decide), record]
  refine ⟨w.ldropNoted path (r.kind.off r.i r.j), (exec_registerWrite s path off v r found plain free).trans
    (congrArg Host.Outcome.next (acts.trans (w.ldrop_eq path _))), ?_, fun empty => ?_, fun full => ?_⟩
  · rw [← count]
    unfold State.ldropNoted State.when
    split
    · rw [State.fld_wr_kind _ _ _ _ _ _ _ _ (by decide), State.fld_count_same _ _ _ _ (by decide) (by decide)]
    · exact State.fld_count_same _ _ _ _ (by decide) (by decide)
  · unfold State.ldropNoted
    rw [valid, empty, Bool.not_false, State.when_true, State.rd_wr_same]
  · unfold State.ldropNoted
    rw [valid, full, Bool.not_true, State.when_false, State.rd_count_kind _ _ _ _ _ _ _ (by decide), record]

end Sys2Proof.Machine
end

section
/-! PROOFS. Host reads and writes of the register window. -/
namespace Sys2Proof.Machine

/-! Reads of the host, in the order of the checks. -/

theorem State.hostRead_stopped (s : State) (t : HostTxn) (stopped : s.sysStopped = true) : s.hostRead t = s := by
  unfold State.hostRead
  dsimp only
  rw [if_pos stopped]

section
variable (s : State) (t : HostTxn) (run : s.sysStopped = false)
include run

theorem State.hostRead_denied (out : s.gwReach t.dom.toNat t.addr.toNat = false) : s.hostRead t = s.answer t 3 [] := by
  unfold State.hostRead
  dsimp only
  rw [if_neg (by rw [run]; decide), if_pos (by rw [out]; decide)]

theorem State.hostRead_extent (reach : s.gwReach t.dom.toNat t.addr.toNat = true) (bad : extentOk t.addr.toNat t.len.toNat = false) :
    s.hostRead t = s.answer t 2 [] := by
  unfold State.hostRead
  dsimp only
  rw [if_neg (by rw [run]; decide), if_neg (by rw [reach]; decide), if_pos (by rw [bad]; decide)]

theorem State.hostRead_doorbell (reach : s.gwReach t.dom.toNat t.addr.toNat = true) (good : extentOk t.addr.toNat t.len.toNat = true)
    (window : inRemote t.addr.toNat = false) (page : inDoorbells t.addr.toNat = true) (access : regAccess t.addr.toNat t.len.toNat = true) :
    s.hostRead t = s.answer t 0 (List.replicate t.len.toNat 0) := by
  unfold State.hostRead
  dsimp only
  rw [if_neg (by rw [run]; decide), if_neg (by rw [reach]; decide), if_neg (by rw [good]; decide), if_neg (by rw [window]; decide), if_pos page,
    if_pos access]

theorem State.hostRead_words (reach : s.gwReach t.dom.toNat t.addr.toNat = true) (good : extentOk t.addr.toNat t.len.toNat = true)
    (window : inRemote t.addr.toNat = false) (page : inDoorbells t.addr.toNat = false) (buf : bufAt t.addr.toNat = none)
    (access : regAccess t.addr.toNat t.len.toNat = true) : s.hostRead t
      = if wordsMapped t.addr.toNat t.len.toNat then (s.readWords t.addr.toNat t.len.toNat).2.answer t 0 (s.readWords t.addr.toNat t.len.toNat).1
        else s.answer t 2 [] := by
  unfold State.hostRead
  dsimp only
  rw [if_neg (by rw [run]; decide), if_neg (by rw [reach]; decide), if_neg (by rw [good]; decide), if_neg (by rw [window]; decide),
    if_neg (by rw [page]; decide), buf]
  exact if_congr (and_iff_right access) rfl rfl

end

theorem wordsMapped_one (a : Nat) : wordsMapped a 4 = (findReg a).isSome := by
  unfold wordsMapped
  rw [show 4 / 4 = 1 from rfl, List.range_one, List.all_cons, List.all_nil, Bool.and_true, Nat.mul_zero, Nat.add_zero]

theorem State.readWords_one (s : State) (a : Nat) (r : RegId) (found : findReg a = some r) :
    s.readWords a 4 = (leBytes 4 ((s.readActs r.kind r.i r.j).viewReg r.kind r.i r.j), s.readActs r.kind r.i r.j) := by
  have word : s.readWord (a + 4 * 0) = some ((s.readActs r.kind r.i r.j).viewReg r.kind r.i r.j, s.readActs r.kind r.i r.j) := by
    unfold State.readWord
    rw [Nat.mul_zero, Nat.add_zero, found]
  unfold State.readWords
  rw [show 4 / 4 = 1 from rfl, List.range_one, List.foldl_cons, List.foldl_nil]
  dsimp only
  rw [word]
  rfl

theorem extentOk_word (a : Nat) (aligned : a % 4 = 0) (inside : a < 0x4000000) : extentOk a 4 = true := by
  unfold extentOk
  simp only [Bool.and_eq_true, decide_eq_true_eq]
  omega

theorem regAccess_word (a : Nat) (aligned : a % 4 = 0) : regAccess a 4 = true := by
  unfold regAccess
  rw [aligned]
  rfl

/-! Writes of the host. -/

theorem State.hostWrite_discarded (s : State) (t : HostTxn) (run : s.sysStopped = false) (page : inDoorbells t.addr.toNat = false)
    (out : s.gwReach t.dom.toNat t.addr.toNat = false) : s.hostWrite t 0 0 = s.discardTxn := by
  unfold State.hostWrite
  dsimp only
  rw [if_neg (by rw [run]; decide), if_neg (by rw [page]; decide), if_pos (.inl (by rw [out]; decide))]
  rfl

theorem State.hostWrite_doorbell (s : State) (t : HostTxn) (run : s.sysStopped = false) (page : inDoorbells t.addr.toNat = true) :
    s.hostWrite t 0 0 = if t.len.toNat = 8 ∧ t.addr.toNat % 8 = 0
      then doDoorbell t.dom.toNat ((t.addr.toNat - 0x1800000) / 0x1000) (leNat (padTo t.len.toNat t.data)) s
      else s.dbDiscard ((t.addr.toNat - 0x1800000) / 0x1000) := by
  unfold State.hostWrite
  dsimp only
  rw [if_neg (by rw [run]; decide), if_pos page]
  rfl

theorem padTo_length (n : Nat) (b : List Byte) : (padTo n b).length = n := by simp [padTo]

theorem State.hostWrite_word (s : State) (t : HostTxn) (run : s.sysStopped = false) (dom : t.dom.toNat = 0) (len : t.len.toNat = 4)
    (aligned : t.addr.toNat % 4 = 0) (found : (findReg t.addr.toNat).isSome = true) (page : inDoorbells t.addr.toNat = false)
    (window : inRemote t.addr.toNat = false) (aperture : inApertures t.addr.toNat = false) (buf : bufAt t.addr.toNat = none)
    (inside : t.addr.toNat < 0x4000000) :
    s.hostWrite t 0 0 = doRegisterWrite .geward t.addr.toNat (leAt (padTo 4 t.data) 0 4) s := by
  have reach : s.gwReach t.dom.toNat t.addr.toNat = true := by
    unfold State.gwReach
    rw [dom, page]
    rfl
  have words : s.writeWords t.addr.toNat (padTo 4 t.data) = doRegisterWrite .geward t.addr.toNat (leAt (padTo 4 t.data) 0 4) s := by
    unfold State.writeWords
    rw [padTo_length]
    rfl
  unfold State.hostWrite
  dsimp only
  rw [if_neg (by rw [run]; decide), if_neg (by rw [page]; decide), len, reach, extentOk_word _ aligned inside, if_neg (by decide),
    if_neg (by rw [window]; decide), if_neg (by rw [aperture]; decide), buf]
  dsimp only
  rw [if_pos ⟨regAccess_word _ aligned, (wordsMapped_one _).trans found⟩, words]
  rfl

theorem State.dbDiscard_shows (s : State) (p : Nat) : (s.dbDiscard p).hqe = s.hqe
    ∧ (s.dbDiscard p).fld F.HQE_CNT0.DB_DISCARD = min F.HQE_CNT0.DB_DISCARD.max (s.fld F.HQE_CNT0.DB_DISCARD + 1) := by
  unfold State.dbDiscard
  rw [State.pmuAdd_hqe, State.pmuAdd_fld_beside _ _ _ _ _ _ _ _ (by decide) (by decide), State.fld_count_same _ _ _ _ (by decide) (by decide)]
  exact ⟨State.count_hqe _ _ _ _, rfl⟩

theorem State.dbDiscard_noHeld (s : State) (p : Nat) (free : s.noHeld) : (s.dbDiscard p).noHeld :=
  State.noHeld_free.pmuAdd (State.noHeld_free.count rfl free)

theorem doDoorbell_noHeld (s : State) (d p v : Nat) (free : s.noHeld) : (doDoorbell d p v s).noHeld := by
  unfold doDoorbell
  exact State.when_closed (State.noHeld_free.modHqe (fun _ => rfl) (State.noHeld_free.pmuAdd free)) fun _ h => State.noHeld_free.setFlag rfl h

/-- Settles O35. -/
theorem hostTransactionsReachTheRegisterWindow : Obligations.HostTransactionsReachTheRegisterWindow := by
  unfold Obligations.HostTransactionsReachTheRegisterWindow
  intro s t
  refine ⟨fun stopped => congrArg Host.Outcome.next (s.hostRead_stopped t stopped),
    fun run out => congrArg Host.Outcome.next (s.hostRead_denied t run out),
    fun run reach bad => congrArg Host.Outcome.next (s.hostRead_extent t run reach bad),
    fun run reach good window page access => congrArg Host.Outcome.next (s.hostRead_doorbell t run reach good window page access),
    fun r run reach window page buf len aligned inside => ?_, fun run free page out => ?_, fun run free page => ?_,
    fun run dom len aligned found page window aperture buf inside => ?_⟩
  case refine_1 =>
    have read := s.hostRead_words t run reach (by rw [len]; exact extentOk_word _ aligned inside) window page buf
      (by rw [len]; exact regAccess_word _ aligned)
    rw [len, wordsMapped_one] at read
    refine ⟨fun found => congrArg Host.Outcome.next ?_, fun none_ => congrArg Host.Outcome.next ?_⟩
    · refine read.trans ?_
      rw [found, if_pos Option.isSome_some, s.readWords_one _ r found]
    · refine read.trans ?_
      rw [none_]
      rfl
  case refine_2 =>
    refine ⟨s.discardTxn, ?_, State.fld_count_same _ _ _ _ (by decide) (by decide),
      (SameRegs.refl _ s).andCount (by repeat constructor) (by omega), rfl⟩
    exact congrArg Host.Outcome.next ((congrArg State.releaseDisarmed (s.hostWrite_discarded t run page out)).trans
      (State.releaseDisarmed_of_noHeld _ free))
  case refine_3 =>
    intro p
    have acts := s.hostWrite_doorbell t run page
    refine ⟨fun q at_ len aligned => congrArg Host.Outcome.next ?_, fun bad => ?_⟩
    · rw [if_pos ⟨len, aligned⟩, len] at acts
      have value : (BitVec.ofNat 64 (leNat (padTo 8 t.data))).toNat = leNat (padTo 8 t.data) :=
        Nat.mod_eq_of_lt ((leNat_lt _).trans_eq (by rw [padTo_length]; rfl))
      refine (congrArg State.releaseDisarmed acts).trans ?_
      rw [value, State.releaseDisarmed_of_noHeld _ (doDoorbell_noHeld _ _ _ _ free)]
      rw [at_]
    · rw [if_neg (by omega)] at acts
      obtain ⟨hqe, counted⟩ := s.dbDiscard_shows p
      exact ⟨s.dbDiscard p, congrArg Host.Outcome.next ((congrArg State.releaseDisarmed acts).trans
        (State.releaseDisarmed_of_noHeld _ (s.dbDiscard_noHeld p free))), hqe, counted⟩
  case refine_4 =>
    have acts := s.hostWrite_word t run dom len aligned found page window aperture buf inside
    have off : (BitVec.ofNat 26 t.addr.toNat).toNat = t.addr.toNat := Nat.mod_eq_of_lt inside
    have value : (BitVec.ofNat 32 (leAt (padTo 4 t.data) 0 4)).toNat = leAt (padTo 4 t.data) 0 4 := Nat.mod_eq_of_lt (leAt_lt _ _ _)
    refine congrArg Host.Outcome.next ((congrArg State.releaseDisarmed acts).trans ?_)
    rw [off, value]

end Sys2Proof.Machine
end

section
/-! PROOFS. The frame store: scrubber, requests, command parity, probe and self-refresh. -/
namespace Sys2Proof.Machine

/-! The quiet part of a state shows a reported register at its reset value. -/

theorem cellsGet_filter_out {α : Type} (d : α) (p : Nat × α → Bool) (k : Nat) (hp : ∀ v, p (k, v) = false) (l : List (Nat × α)) :
    cellsGet d k (l.filter p) = d := by
  induction l with
  | nil => rfl
  | cons c l ih =>
    obtain ⟨n, w⟩ := c
    by_cases h : n = k
    · subst h
      rw [List.filter_cons_of_neg (by rw [hp]; exact Bool.false_ne_true), ih]
    · rw [List.filter_cons]
      split <;> simp [cellsGet, h, ih]

theorem State.quiet_rd_reported (s : State) (k : RegKind) (i j : Nat) (h : k.reported = true) : s.quiet.rd k i j = (k.resetVal i).toNat := by
  unfold State.rd State.quiet Tbl.get
  dsimp only
  rw [cellsGet_filter_out _ _ _ (fun v => by rw [RegKind.key_div, RegKind.ofNat_ctorIdx, h]; rfl)]
  rfl

theorem SameRegs.quiet {l : List RegId} {s t : State} (h : SameRegs l s t) : SameRegs l s.quiet t.quiet := fun k i j hi hj out => by
  by_cases q : k.reported = true
  · rw [State.quiet_rd_reported _ _ _ _ q, State.quiet_rd_reported _ _ _ _ q]
  · have q' := Bool.eq_false_iff.mpr q
    rw [State.quiet_rd _ _ _ _ q', State.quiet_rd _ _ _ _ q']
    exact h k i j hi hj out

/-! What the error counters and the record of the frame store take. -/

theorem State.addTo_addTo_beside (s : State) (f g : Fld) (n i j : Nat) (hr : g.reg = f.reg) (h : f.lo ≤ f.hi) (h32 : f.hi < 32)
    (apart : f.hi < g.lo ∨ g.hi < f.lo) : (s.addTo f n i j).fld g i j = s.fld g i j :=
  State.fld_setFld_beside s f g _ i j hr h h32 apart

/-- The state once corrected words have been counted. -/
def State.corrCounted (s : State) (corr k : Nat) : State := (s.addTo F.FST_ECC_CNT.CORR corr).pmuAdd 0x184 (s.fstMap (4 * k)).pc corr

theorem State.corrCounted_corr (s : State) (corr k : Nat) :
    (s.corrCounted corr k).fld F.FST_ECC_CNT.CORR = min F.FST_ECC_CNT.CORR.max (s.fld F.FST_ECC_CNT.CORR + corr) := by
  unfold State.corrCounted
  rw [State.pmuAdd_fld_beside _ _ _ _ _ _ _ _ (by decide) (by decide), State.fld_addTo_same _ _ _ _ _ (by decide) (by decide)]

theorem State.corrCounted_uncorr (s : State) (corr k : Nat) : (s.corrCounted corr k).fld F.FST_ECC_CNT.UNCORR = s.fld F.FST_ECC_CNT.UNCORR := by
  unfold State.corrCounted
  rw [State.pmuAdd_fld_beside _ _ _ _ _ _ _ _ (by decide) (by decide),
    State.addTo_addTo_beside _ F.FST_ECC_CNT.CORR F.FST_ECC_CNT.UNCORR _ _ _ rfl (by decide) (by decide) (by decide)]

theorem State.corrCounted_quiet (s : State) (corr k : Nat) : SameRegs [⟨.FST_ECC_CNT, 0, 0⟩] s.quiet (s.corrCounted corr k).quiet := by
  unfold State.corrCounted
  rw [State.pmuAdd_quiet]
  exact ((SameRegs.refl _ s).andAdd (by repeat constructor) (by omega)).quiet

theorem State.corrCounted_units (s : State) (corr k : Nat) : (s.corrCounted corr k).fst = s.fst ∧ (s.corrCounted corr k).prd = s.prd
    ∧ (s.corrCounted corr k).pool = s.pool ∧ (s.corrCounted corr k).out = s.out := by
  unfold State.corrCounted
  rw [State.pmuAdd_fst, State.pmuAdd_prd, State.pmuAdd_pool, State.pmuAdd_out]
  exact ⟨State.addTo_fst _ _ _ _ _, State.addTo_prd _ _ _ _ _, State.addTo_pool _ _ _ _ _, State.addTo_out _ _ _ _ _⟩

theorem State.eccResult_corrected (s : State) (corr k : Nat) (scrub : Bool) : s.eccResult corr [] k scrub = s.corrCounted corr k := (rfl)

/-- The word of the error record (R298). -/
def eccWord (m : FstPlace) (scrub : Bool) (w : Nat) : Nat :=
  1 <<< 31 + b2n scrub <<< 30 + m.pc <<< 26 + m.bank <<< 21 + m.row <<< 6 + (w / 32 % 4) <<< 4

/-- The state once the uncorrectable words, of which `w` is the first, have been counted and recorded. -/
def State.uncorrNoted (s : State) (bad : List Nat) (w k : Nat) (scrub : Bool) : State :=
  let u := (s.addTo F.FST_ECC_CNT.UNCORR bad.length).pmuAdd 0x185 (s.fstMap (4 * k)).pc bad.length
  u.when (!u.flag F.FST_ECC_REC0.VALID) (fun t => (t.wr .FST_ECC_REC0 (eccWord (s.fstMap (4 * k)) scrub w)).wr .FST_ECC_REC1 (w % 32))

theorem State.corrCounted_fstMap (s : State) (corr k c : Nat) : (s.corrCounted corr k).fstMap c = s.fstMap c := by
  unfold State.fstMap State.corrCounted
  rw [State.pmuAdd_fld_beside _ _ _ _ _ _ _ _ (by decide) (by decide), State.pmuAdd_fld_beside _ _ _ _ _ _ _ _ (by decide) (by decide)]
  unfold State.addTo
  rw [State.fld_setFld_kind _ _ _ _ _ _ _ _ (by decide), State.fld_setFld_kind _ _ _ _ _ _ _ _ (by decide)]

theorem State.eccResult_uncorrectable (s : State) (corr k w : Nat) (l : List Nat) (scrub : Bool) :
    s.eccResult corr (w :: l) k scrub = ((s.corrCounted corr k).uncorrNoted (w :: l) w k scrub).raise 26 (s.fstMap (4 * k)).pc := by
  unfold State.uncorrNoted
  rw [s.corrCounted_fstMap]
  rfl

theorem fstMap_pc_lt (sx sm c : Nat) : (fstMap sx sm c).pc < 2 ^ 4 :=
  Nat.xor_lt_two_pow (Nat.mod_lt _ (by decide)) (by
    rw [Nat.shiftRight_eq_div_pow]
    have := Nat.mod_lt ((bits c 25 6 ^^^ sx) * sm) (show 0 < 2 ^ 20 by decide)
    omega)

theorem fstMap_bank_lt (sx sm c : Nat) : (fstMap sx sm c).bank < 2 ^ 5 :=
  Nat.xor_lt_two_pow (Nat.mod_lt _ (by decide)) (by
    rw [Nat.shiftRight_eq_div_pow]
    have := Nat.mod_lt ((bits c 25 11 ^^^ (sx >>> 5)) * sm) (show 0 < 2 ^ 15 by decide)
    omega)

theorem fstMap_row_lt (sx sm c : Nat) : (fstMap sx sm c).row < 2 ^ 15 := Nat.mod_lt _ (by decide)

theorem eccWord_valid (s : State) (c : Nat) (scrub : Bool) (w : Nat) : bits (eccWord (s.fstMap c) scrub w % 2 ^ 32) 31 31 = 1 := by
  have pc : (s.fstMap c).pc < 2 ^ 4 := fstMap_pc_lt _ _ _
  have bank : (s.fstMap c).bank < 2 ^ 5 := fstMap_bank_lt _ _ _
  have row : (s.fstMap c).row < 2 ^ 15 := fstMap_row_lt _ _ _
  have one : b2n scrub < 2 := by unfold b2n; split <;> omega
  unfold eccWord bits
  simp only [Nat.shiftLeft_eq, Nat.shiftRight_eq_div_pow]
  omega

theorem State.uncorrNoted_uncorr (s : State) (bad : List Nat) (w k : Nat) (scrub : Bool) :
    (s.uncorrNoted bad w k scrub).fld F.FST_ECC_CNT.UNCORR = min F.FST_ECC_CNT.UNCORR.max (s.fld F.FST_ECC_CNT.UNCORR + bad.length) := by
  have counted : ((s.addTo F.FST_ECC_CNT.UNCORR bad.length).pmuAdd 0x185 (s.fstMap (4 * k)).pc bad.length).fld F.FST_ECC_CNT.UNCORR
      = min F.FST_ECC_CNT.UNCORR.max (s.fld F.FST_ECC_CNT.UNCORR + bad.length) := by
    rw [State.pmuAdd_fld_beside _ _ _ _ _ _ _ _ (by decide) (by decide), State.fld_addTo_same _ _ _ _ _ (by decide) (by decide)]
  rw [← counted]
  unfold State.uncorrNoted State.when
  dsimp only
  split
  · rw [State.fld_wr_kind _ _ _ _ _ _ _ _ (by decide), State.fld_wr_kind _ _ _ _ _ _ _ _ (by decide)]
  · rfl

theorem State.uncorrNoted_corr (s : State) (bad : List Nat) (w k : Nat) (scrub : Bool) :
    (s.uncorrNoted bad w k scrub).fld F.FST_ECC_CNT.CORR = s.fld F.FST_ECC_CNT.CORR := by
  have counted : ((s.addTo F.FST_ECC_CNT.UNCORR bad.length).pmuAdd 0x185 (s.fstMap (4 * k)).pc bad.length).fld F.FST_ECC_CNT.CORR
      = s.fld F.FST_ECC_CNT.CORR := by
    rw [State.pmuAdd_fld_beside _ _ _ _ _ _ _ _ (by decide) (by decide),
      State.addTo_addTo_beside _ F.FST_ECC_CNT.UNCORR F.FST_ECC_CNT.CORR _ _ _ rfl (by decide) (by decide) (by decide)]
  rw [← counted]
  unfold State.uncorrNoted State.when
  dsimp only
  split
  · rw [State.fld_wr_kind _ _ _ _ _ _ _ _ (by decide), State.fld_wr_kind _ _ _ _ _ _ _ _ (by decide)]
  · rfl

theorem State.uncorrNoted_valid (s : State) (bad : List Nat) (w k : Nat) (scrub : Bool) :
    (s.uncorrNoted bad w k scrub).flag F.FST_ECC_REC0.VALID = true := by
  unfold State.uncorrNoted
  extract_lets u
  clear_value u
  by_cases valid : u.flag F.FST_ECC_REC0.VALID = true
  · rw [valid, Bool.not_true, State.when_false, valid]
  · rw [Bool.eq_false_iff.mpr valid, Bool.not_false, State.when_true]
    unfold State.flag State.fld
    rw [State.rd_wr_kind _ _ _ _ _ _ _ _ (by decide)]
    exact decide_eq_true (by
      rw [show F.FST_ECC_REC0.VALID.reg = .FST_ECC_REC0 from rfl, State.rd_wr_same, show F.FST_ECC_REC0.VALID.hi = 31 from rfl,
        show F.FST_ECC_REC0.VALID.lo = 31 from rfl, eccWord_valid])

theorem State.uncorrNoted_units (s : State) (bad : List Nat) (w k : Nat) (scrub : Bool) : (s.uncorrNoted bad w k scrub).fst = s.fst
    ∧ (s.uncorrNoted bad w k scrub).prd = s.prd ∧ (s.uncorrNoted bad w k scrub).pool = s.pool := by
  have counted (n : Nat) : ((s.addTo F.FST_ECC_CNT.UNCORR bad.length).pmuAdd 0x185 n bad.length).fst = s.fst
      ∧ ((s.addTo F.FST_ECC_CNT.UNCORR bad.length).pmuAdd 0x185 n bad.length).prd = s.prd
      ∧ ((s.addTo F.FST_ECC_CNT.UNCORR bad.length).pmuAdd 0x185 n bad.length).pool = s.pool := by
    rw [State.pmuAdd_fst, State.pmuAdd_prd, State.pmuAdd_pool]
    exact ⟨State.addTo_fst _ _ _ _ _, State.addTo_prd _ _ _ _ _, State.addTo_pool _ _ _ _ _⟩
  unfold State.uncorrNoted State.when
  dsimp only
  split <;> exact counted _

/-! The scrubber. -/

theorem doScrubRow_runs (s : State) (corr : Nat) (bad : List Nat) (runs : s.scrubs = true) :
    doScrubRow corr bad s = s.nextScrub.eccResult corr bad.eraseDups s.fst.scrub true := by
  unfold doScrubRow
  rw [if_pos runs]

theorem eraseDups_cons_ne {α : Type} [BEq α] (a : α) (l : List α) : ∃ r, (a :: l).eraseDups = a :: r := ⟨_, List.eraseDups_cons⟩

/-! A request of the frame store ends. -/

/-- The state once a request that was taken up is counted. -/
def State.reqCounted (s : State) (r : FstReq) (pc : Nat) : State := (s.pmuAdd (if r.wr then 0x181 else 0x180) pc).pmuAdd 0x182 pc

theorem State.reqCounted_units (s : State) (r : FstReq) (pc : Nat) : (s.reqCounted r pc).fst = s.fst ∧ (s.reqCounted r pc).prd = s.prd
    ∧ (s.reqCounted r pc).pool = s.pool ∧ (s.reqCounted r pc).out = s.out ∧ (s.reqCounted r pc).quiet = s.quiet := by
  unfold State.reqCounted
  rw [State.pmuAdd_fst, State.pmuAdd_fst, State.pmuAdd_prd, State.pmuAdd_prd, State.pmuAdd_pool, State.pmuAdd_pool, State.pmuAdd_out,
    State.pmuAdd_out, State.pmuAdd_quiet, State.pmuAdd_quiet]
  exact ⟨rfl, rfl, rfl, rfl, rfl⟩

theorem State.reqCounted_fld (s : State) (r : FstReq) (pc : Nat) (f : Fld) (i j : Nat) (quiet : f.reg.reported = false) :
    (s.reqCounted r pc).fld f i j = s.fld f i j := State.fld_of_quiet (s.reqCounted_units r pc).2.2.2.2 _ _ _ quiet

theorem State.fstDone_next (s o : State) (pc corr : Nat) (bad : List Nat) (r : FstReq)
    (offered : o = (s.modFst (fun f => { f with parity := f.parity.filter (· != pc) })).fstOffer) (next : nextReq (o.fst.queues.get pc) = some r) :
    s.fstDone pc corr bad false = (((o.reqCounted r pc).eccResult (if r.wr then 0 else corr)
      (if r.wr then [] else bad.eraseDups) r.row false).serveReq
      pc r (if r.wr then [] else bad.eraseDups)).fstOffer := by
  unfold State.fstDone
  dsimp only
  rw [← offered, next]
  rfl

theorem doFstRequestDone_eq (s : State) (pc corr : Nat) (bad : List Nat) :
    doFstRequestDone pc corr bad s = if s.fstRuns then s.fstDone pc corr bad false else s := by
  unfold doFstRequestDone State.fstRuns
  simp only [Bool.and_eq_true, and_assoc, Bool.not_eq_true, Bool.not_eq_true']

theorem fld_le_max (s : State) (f : Fld) (i j : Nat) : s.fld f i j ≤ f.max := by
  have low : s.fld f i j < 2 ^ (f.hi + 1 - f.lo) := Nat.mod_lt _ (Nat.two_pow_pos _)
  unfold Fld.max
  omega

/-! A command parity error. -/

theorem doCaParityError_idle (s : State) (pc : Nat) (w : Bool)
    (idle : if w then s.fstOffer.scrubs = false else s.fstOffer.fstRuns = false ∨ s.fstOffer.fst.queues.get pc = []) :
    doCaParityError pc w s = s.fstOffer := by
  unfold doCaParityError
  dsimp only
  refine if_pos ?_
  cases w
  · rw [if_neg Bool.false_ne_true] at idle ⊢
    rcases idle with off | empty
    · rw [off]
      rfl
    · rw [empty, List.isEmpty_nil, Bool.or_true]
  · rw [if_pos rfl] at idle ⊢
    rw [idle]
    rfl

theorem doCaParityError_acts (s o : State) (pc : Nat) (w : Bool) (offered : o = s.fstOffer)
    (busy : if w then o.scrubs = true else o.fstRuns = true ∧ o.fst.queues.get pc ≠ []) :
    doCaParityError pc w s = if (if w then 16 else pc) ∈ o.fst.parity
      then (if w then o.nextScrub.eccResult 0 (List.range 128) o.fst.scrub true else o.fstDone pc 0 [] true).raise 27 1
      else ((o.count F.FST_CNT.CA_RETRY).pmuAdd 0x186 (if w then (o.fstMap (4 * o.fst.scrub)).pc else pc)).modFst
        (fun f => { f with parity := f.parity ++ [if w then 16 else pc] }) := by
  have runs : ¬(if w then !o.scrubs else !o.fstRuns || (o.fst.queues.get pc).isEmpty) = true := by
    cases w
    · rw [if_neg Bool.false_ne_true] at busy ⊢
      rw [busy.1, Bool.not_true, Bool.false_or, List.isEmpty_iff]
      exact busy.2
    · rw [if_pos rfl] at busy ⊢
      rw [busy]
      decide
  have member (k : Nat) : (o.fst.parity.any (· == k)) = true ↔ k ∈ o.fst.parity := by simp
  unfold doCaParityError
  dsimp only
  rw [← offered, if_neg runs]
  exact if_congr (member _) rfl rfl

/-- A retried request: its error is noted and counted. -/
theorem State.parityNoted_shows (s : State) (k pc : Nat) :
    let t := ((s.count F.FST_CNT.CA_RETRY).pmuAdd 0x186 pc).modFst (fun f => { f with parity := f.parity ++ [k] })
    t.fst = { s.fst with parity := s.fst.parity ++ [k] }
    ∧ t.fld F.FST_CNT.CA_RETRY = min F.FST_CNT.CA_RETRY.max (s.fld F.FST_CNT.CA_RETRY + 1)
    ∧ SameRegs [⟨.FST_CNT, 0, 0⟩] s.quiet t.quiet ∧ t.prd = s.prd ∧ t.pool = s.pool ∧ t.out = s.out := by
  intro t
  have counted : (s.count F.FST_CNT.CA_RETRY).offRegs = s.offRegs := s.count_offRegs _ _ _
  refine ⟨?_, ?_, ?_, ?_, ?_, ?_⟩
  · unfold t
    rw [State.modFst_fst, State.pmuAdd_fst, State.count_fst]
  · unfold t
    rw [State.modFst_fld, State.pmuAdd_fld_beside _ _ _ _ _ _ _ _ (by decide) (by decide), State.fld_count_same _ _ _ _ (by decide) (by decide)]
  · have regs : SameRegs [⟨.FST_CNT, 0, 0⟩] s.quiet (s.count F.FST_CNT.CA_RETRY).quiet :=
      ((SameRegs.refl _ s).andCount (by repeat constructor) (by omega)).quiet
    rw [← State.pmuAdd_quiet (s.count F.FST_CNT.CA_RETRY) 0x186 pc 1 none] at regs
    exact regs.of_regs rfl
  · unfold t
    rw [State.modFst_prd, State.pmuAdd_prd, State.count_prd]
  · unfold t
    rw [State.modFst_pool, State.pmuAdd_pool, State.count_pool]
  · unfold t
    rw [State.modFst_out, State.pmuAdd_out, State.count_out]

/-- The probe shows where a chunk is stored. -/
theorem doFstProbe_shows (s : State) (v : Nat) :
    (doFstProbe v s).rd .FST_PROBE_IN = v % 2 ^ 26
    ∧ (doFstProbe v s).rd .FST_PROBE_OUT = ((s.fstMap (v % 2 ^ 26)).pc * 2 ^ 28 + (s.fstMap (v % 2 ^ 26)).bank * 2 ^ 23
      + (s.fstMap (v % 2 ^ 26)).col * 2 ^ 21 + (s.fstMap (v % 2 ^ 26)).row * 2 ^ 6) % 2 ^ 32
    ∧ SameRegs [⟨.FST_PROBE_IN, 0, 0⟩, ⟨.FST_PROBE_OUT, 0, 0⟩] s (doFstProbe v s) ∧ { doFstProbe v s with regs := s.regs } = s := by
  have chunk : bits v 25 0 = v % 2 ^ 26 := rfl
  unfold doFstProbe
  dsimp only
  rw [chunk]
  refine ⟨?_, ?_, ((SameRegs.refl _ s).andWr (by repeat constructor) (by omega)).andWr (by repeat constructor) (by omega), rfl⟩
  · rw [State.rd_wr_kind _ _ _ _ _ _ _ _ (by decide), State.rd_wr_same]
    omega
  · rw [State.rd_wr_same]
    simp only [Nat.shiftLeft_eq]

/-- Settles O26. -/
theorem frameStoreRequestsAndErrors : Obligations.FrameStoreRequestsAndErrors := by
  unfold Obligations.FrameStoreRequestsAndErrors
  intro s
  refine ⟨fun k bad runs => ⟨fun good => ?_, fun some_ => ?_⟩, fun off k bad => ?_,
    fun pc k bad o r runs offered next => ⟨fun good => ?_, fun read some_ => ?_⟩,
    fun pc k bad off => ?_, fun pc w o offered => ?_, fun v => ?_, fun why idle => ?_, fun no => ?_⟩
  · have acts := doScrubRow_runs s k.toNat (bad.map (·.val)) runs
    rw [good] at acts ⊢
    obtain ⟨fst, prd, pool, out⟩ := s.nextScrub.corrCounted_units k.toNat s.fst.scrub
    exact ⟨_, congrArg Host.Outcome.next (acts.trans (s.nextScrub.eccResult_corrected _ _ _)), fst, congrArg Fst.scrub fst,
      s.nextScrub.corrCounted_corr _ _, s.nextScrub.corrCounted_uncorr _ _, s.nextScrub.corrCounted_quiet _ _, prd, pool, out⟩
  · have acts := doScrubRow_runs s k.toNat (bad.map (·.val)) runs
    obtain ⟨b, l, rfl⟩ := List.exists_cons_of_ne_nil some_
    obtain ⟨rest, dups⟩ := eraseDups_cons_ne b.val (l.map (·.val))
    rw [List.map_cons, dups] at acts ⊢
    obtain ⟨fst, prd, pool, -⟩ := s.nextScrub.corrCounted_units k.toNat s.fst.scrub
    obtain ⟨fst', prd', pool'⟩ := (s.nextScrub.corrCounted k.toNat s.fst.scrub).uncorrNoted_units (b.val :: rest) b.val s.fst.scrub true
    refine ⟨_, congrArg Host.Outcome.next (acts.trans (s.nextScrub.eccResult_uncorrectable _ _ _ _ _)), ?_, ?_, State.uncorrNoted_valid _ _ _ _ _,
      fst'.trans fst, prd'.trans prd, pool'.trans pool⟩
    · rw [State.uncorrNoted_corr, State.corrCounted_corr]
      rfl
    · rw [State.uncorrNoted_uncorr, State.corrCounted_uncorr]
      rfl
  · unfold exec
    refine congrArg Host.Outcome.next ?_
    unfold doScrubRow
    rw [if_neg (by rw [off]; decide)]
  · have acts := (doFstRequestDone_eq s pc k.toNat (bad.map (·.val))).trans ((if_pos runs).trans (s.fstDone_next o pc k.toNat _ r offered next))
    have none_ : (if r.wr then [] else (bad.map (·.val)).eraseDups) = [] := by
      rcases good with w | empty
      · rw [if_pos w]
      · rw [empty]
        exact ite_self _
    rw [none_, State.eccResult_corrected] at acts
    obtain ⟨fst, prd, pool, out, quiet⟩ := o.reqCounted_units r pc
    generalize hn : (if r.wr then 0 else k.toNat) = n at acts
    obtain ⟨fst', prd', pool', out'⟩ := (o.reqCounted r pc).corrCounted_units n r.row
    refine ⟨_, congrArg Host.Outcome.next acts, fst'.trans fst, prd'.trans prd, pool'.trans pool, out'.trans out, ?_, ?_⟩
    · rw [State.corrCounted_corr, o.reqCounted_fld r pc _ _ _ rfl, ← hn]
      split
      · exact min_eq_right (fld_le_max _ _ _ _)
      · rfl
    · rw [← quiet]
      exact State.corrCounted_quiet _ _ _
  · have acts := (doFstRequestDone_eq s pc k.toNat (bad.map (·.val))).trans ((if_pos runs).trans (s.fstDone_next o pc k.toNat _ r offered next))
    obtain ⟨b, l, rfl⟩ := List.exists_cons_of_ne_nil some_
    obtain ⟨rest, dups⟩ := eraseDups_cons_ne b.val (l.map (·.val))
    obtain ⟨fst, prd, pool, -, quiet⟩ := o.reqCounted_units r pc
    have map : (o.reqCounted r pc).fstMap (4 * r.row) = o.fstMap (4 * r.row) := by
      unfold State.fstMap
      rw [o.reqCounted_fld r pc _ _ _ rfl, o.reqCounted_fld r pc _ _ _ rfl]
    rw [if_neg (by rw [read]; decide), if_neg (by rw [read]; decide), List.map_cons, dups, State.eccResult_uncorrectable, map] at acts
    rw [List.map_cons, dups]
    obtain ⟨fst', prd', pool', -⟩ := (o.reqCounted r pc).corrCounted_units k.toNat r.row
    obtain ⟨fst'', prd'', pool''⟩ := ((o.reqCounted r pc).corrCounted k.toNat r.row).uncorrNoted_units (b.val :: rest) b.val r.row false
    refine ⟨_, congrArg Host.Outcome.next acts, fst''.trans (fst'.trans fst), ?_, State.uncorrNoted_valid _ _ _ _ _, prd''.trans (prd'.trans prd),
      pool''.trans (pool'.trans pool)⟩
    rw [State.uncorrNoted_uncorr, State.corrCounted_uncorr, o.reqCounted_fld r pc _ _ _ rfl]
  · exact congrArg Host.Outcome.next ((doFstRequestDone_eq s pc k.toNat _).trans (if_neg (by rw [off]; decide)))
  · intro k
    refine ⟨fun idle => ?_, fun busy fresh => ?_, fun busy again => ?_⟩
    · rw [offered] at idle ⊢
      exact congrArg Host.Outcome.next (doCaParityError_idle s pc w idle)
    · have acts := (doCaParityError_acts s o pc w offered busy).trans (if_neg fresh)
      exact ⟨_, congrArg Host.Outcome.next acts, o.parityNoted_shows k _⟩
    · exact congrArg Host.Outcome.next ((doCaParityError_acts s o pc w offered busy).trans (if_pos again))
  · obtain ⟨chunk, place, regs, rest⟩ := doFstProbe_shows s v.toNat
    exact ⟨_, rfl, chunk, place, regs, rest⟩
  · refine congrArg Host.Outcome.next (if_pos ⟨why, List.all_eq_true.mpr fun c hc => ?_⟩)
    rw [idle c (List.mem_range.mp hc)]
    rfl
  · refine congrArg Host.Outcome.next (if_neg ?_)
    rintro ⟨why, all⟩
    rcases no with ⟨safe, warm⟩ | ⟨c, low, some_⟩
    · rw [safe, warm] at why
      simp at why
    · exact some_ (List.isEmpty_iff.mp (List.all_eq_true.mp all c (List.mem_range.mpr low)))

end Sys2Proof.Machine
end

section
/-! PROOFS. Product commands queue, are read and are checked. -/
namespace Sys2Proof.Machine

/-! A product command at the engine. -/

/-- The command of a descriptor, as the engine takes it. -/
def prdCmdOf (op : PrdOp) (g idx : Nat) (b : List Byte) : PrdCmd := { op := op, dom := ringDom g, ring := g, idx := idx, bytes := b }

/-- The state with one more product command at the engine. -/
def State.prdQueued (s : State) (c : PrdCmd) : State := s.modPrd (fun p => { p with queue := p.queue ++ [c] })

theorem State.prdCommand_eq (s : State) (op : PrdOp) (g idx : Nat) (b : List Byte) :
    s.prdCommand op g idx b = (s.prdQueued (prdCmdOf op g idx b)).startPrd := (rfl)

/-- Behind a command that has started, another waits. -/
theorem State.prdCommand_waits (s : State) (op : PrdOp) (g idx : Nat) (b : List Byte) (h : PrdCmd) (q : List PrdCmd) (queue : s.prd.queue = h :: q)
    (busy : h.stage ≠ .queued) : s.prdCommand op g idx b = s.prdQueued (prdCmdOf op g idx b) := by
  have front : (s.prdQueued (prdCmdOf op g idx b)).prd.queue = h :: (q ++ [prdCmdOf op g idx b]) := by
    change s.prd.queue ++ _ = _
    rw [queue]
    rfl
  rw [State.prdCommand_eq]
  unfold State.startPrd State.startPrds
  rw [front]
  exact if_pos busy

theorem State.startPrds_malformed (s : State) (k : Nat) (c : PrdCmd) (q : List PrdCmd) (queue : s.prd.queue = c :: q) (waits : c.stage = .queued)
    (bad : (!c.boot && prdMalformed c.op c.bytes) = true) : s.startPrds (k + 1)
      = ((s.modPrd (fun p => { p with queue := q })).report (s.completion c.ring c.idx c.bytes 0x30 0xFF
        (prdCmdId c.bytes) 0 s.now)).startPrds k := by
  conv_lhs => unfold State.startPrds
  rw [queue]
  dsimp only
  rw [if_neg (not_not.mpr waits), if_pos bad]

/-- What the engine changes when it takes up a command: the command's own stage, and what it asks of the host. -/
structure PrdTaken (s t : State) (c : PrdCmd) (q : List PrdCmd) : Prop where
  queue : ∃ y, t.prd.queue = y :: q ∧ y.op = c.op ∧ y.bytes = c.bytes ∧ y.stage ≠ .queued
  tab : t.prd.tab = s.prd.tab
  pool : t.pool = s.pool
  sec : t.sec = s.sec
  out : t.out = s.out

theorem PrdTaken.of_modHead {s u : State} {c : PrdCmd} {q : List PrdCmd} (f : PrdCmd → PrdCmd) (queue : s.prd.queue = c :: q) (prd : u.prd = s.prd)
    (pool : u.pool = s.pool) (sec : u.sec = s.sec) (out : u.out = s.out) (op : (f c).op = c.op) (bytes : (f c).bytes = c.bytes)
    (stage : (f c).stage ≠ .queued) : PrdTaken s (u.modHead f) c q :=
  ⟨⟨f c, by
      change (match u.prd.queue with
        | [] => []
        | c :: q => f c :: q) = f c :: q
      rw [prd, queue], op, bytes, stage⟩, (congrArg Prd.tab prd :), pool, sec, out⟩

theorem State.readHost_beside {β : Type} (obs : State → β)
    (gwl : ∀ s f, obs (State.modGwl f s) = obs s) {s u : State} {org : Org} {d cls addr len : Nat}
    (h : s.readHost org d cls addr len = some u) : obs u = obs s := by
  unfold State.readHost at h
  dsimp only at h
  split at h
  · rw [← Option.some.inj h]
    exact (State.each_keeps obs _ _ _ fun _ _ => gwl _ _).trans (gwl _ _)
  · exact (nomatch h)

theorem State.readRefused_beside {β : Type} (obs : State → β) (gwl : ∀ s f, obs (State.modGwl f s) = obs s)
    (window : ∀ s d, obs (State.windowRefused s d) = obs s) (s : State) (org : Org) (d cls addr len : Nat) :
    obs (s.readRefused org d cls addr len) = obs s :=
  (window _ _).trans ((State.each_keeps obs _ _ _ fun _ _ => gwl _ _).trans (gwl _ _))

theorem State.startPrds_taken (s : State) (k : Nat) (c : PrdCmd) (q : List PrdCmd) (queue : s.prd.queue = c :: q) (waits : c.stage = .queued)
    (good : (!c.boot && prdMalformed c.op c.bytes) = false) : PrdTaken s (s.startPrds (k + 1)) c q := by
  unfold State.startPrds
  rw [queue]
  dsimp only
  rw [if_neg (not_not.mpr waits), if_neg (by rw [good]; decide)]
  split
  · exact .of_modHead _ queue rfl rfl rfl rfl rfl rfl (by exact (nomatch ·))
  · split
    case h_1 u read =>
      exact .of_modHead _ queue (State.readHost_beside State.prd (fun _ _ => rfl) read) (State.readHost_beside State.pool (fun _ _ => rfl) read)
        (State.readHost_beside State.sec (fun _ _ => rfl) read) (State.readHost_beside State.out (fun _ _ => rfl) read) rfl rfl (by exact (nomatch ·))
    case h_2 =>
      refine .of_modHead _ queue (State.readRefused_beside State.prd (fun _ _ => rfl) (fun s d => ?_) _ _ _ _ _ _)
        (State.readRefused_beside State.pool (fun _ _ => rfl) (fun s d => ?_) _ _ _ _ _ _)
        (State.readRefused_beside State.sec (fun _ _ => rfl) (fun s d => ?_) _ _ _ _ _ _)
        (State.readRefused_beside State.out (fun _ _ => rfl) (fun s d => ?_) _ _ _ _ _ _) rfl rfl (by exact (nomatch ·))
      · exact (State.pmuAdd_prd _ _ _ _ _).trans (State.count_prd _ _ _ _)
      · exact (State.pmuAdd_pool _ _ _ _ _).trans (State.count_pool _ _ _ _)
      · exact (State.pmuAdd_sec _ _ _ _ _).trans (State.count_sec _ _ _ _)
      · exact (State.pmuAdd_out _ _ _ _ _).trans (State.count_out _ _ _ _)

section
variable (s : State) (op : PrdOp) (g idx : Nat) (b : List Byte) (empty : s.prd.queue = [])
include empty

theorem State.prdQueued_alone (c : PrdCmd) : (s.prdQueued c).prd.queue = [c] := by
  change s.prd.queue ++ [c] = [c]
  rw [empty]
  rfl

theorem State.prdQueued_taken (c : PrdCmd) : (s.prdQueued c).modPrd (fun p => { p with queue := [] }) = s := by
  change { s with prd := { s.prd with queue := [] } } = s
  rw [← empty]

theorem State.prdCommand_malformed (bad : prdMalformed op b = true) :
    s.prdCommand op g idx b = (s.report (s.completion g idx b 0x30 0xFF (prdCmdId b) 0 s.now)).startPrds 1 := by
  have alone := s.prdQueued_alone empty (prdCmdOf op g idx b)
  rw [State.prdCommand_eq]
  unfold State.startPrd
  rw [alone, List.length_singleton, State.startPrds_malformed _ 1 _ _ alone rfl (by exact bad), s.prdQueued_taken empty]
  rfl

theorem State.prdCommand_taken (good : prdMalformed op b = false) : PrdTaken s (s.prdCommand op g idx b) (prdCmdOf op g idx b) [] := by
  have alone := s.prdQueued_alone empty (prdCmdOf op g idx b)
  rw [State.prdCommand_eq]
  unfold State.startPrd
  rw [alone, List.length_singleton]
  obtain ⟨queue, tab, pool, sec, out⟩ := State.startPrds_taken _ 1 _ _ alone rfl (by exact good)
  exact ⟨queue, tab, pool, sec, out⟩

end

/-! The end of the checks. -/

theorem doProductChecksDone_head (s : State) (c : PrdCmd) (q : List PrdCmd) (queue : s.prd.queue = c :: q) : doProductChecksDone s
    = if c.stage ≠ .checking then s else (State.andReport ((s.modPrd (fun p => { p with queue := q })).checksDone c)).startPrd := by
  unfold doProductChecksDone
  rw [queue]

theorem State.checksDone_fails (s : State) (c : PrdCmd) (status detail : Nat) (other : c.op ≠ .retire)
    (fails : s.checkDef c false = some (status, detail)) :
    s.checksDone c = s.finishPrd c status detail 0 (s.prdRaster (if c.op = .define then c.pdb else (s.product (prdCmdId c.bytes)).pdb)) := by
  unfold State.checksDone
  cases op : c.op
  case retire => exact absurd op other
  all_goals
    dsimp only
    rw [fails]

theorem State.checksDone_retire (s : State) (c : PrdCmd) (status detail : Nat) (op : c.op = .retire)
    (fails : s.checkRetire c = some (status, detail)) :
    s.checksDone c = s.finishPrd c status detail 0 (s.prdRaster (s.product (prdCmdId c.bytes)).pdb) := by
  unfold State.checksDone
  rw [op]
  dsimp only
  rw [fails]
  rfl

theorem State.checksDone_grants (s : State) (c : PrdCmd) (op : c.op = .define) (pass : s.checkDef c false = none) : ∃ t : Option Nat,
    s.checksDone c = (s.grantPrd { c with stage := .pending, target := t }, []) := by
  unfold State.checksDone
  rw [op]
  dsimp only
  rw [pass]
  exact ⟨_, rfl⟩

/-! The grant of a definition that passes. -/

theorem State.showProduct_offRegs (s : State) (i : Nat) : (s.showProduct i).offRegs = s.offRegs := by
  unfold State.showProduct
  dsimp only
  rw [State.setFld_offRegs, State.setFld_offRegs, State.setFld_offRegs, State.setFld_offRegs, State.setFld_offRegs, State.setFld_offRegs,
    State.setFld_offRegs, State.setFlag_offRegs]

theorem State.showProduct_state (s : State) (i : Nat) : (s.showProduct i).fld F.PRD_STATE.STATE i = s.fld F.PRD_STATE.STATE i := by
  unfold State.showProduct
  dsimp only
  rw [State.fld_setFld_kind _ _ _ _ _ _ _ _ (by decide), State.fld_setFld_kind _ _ _ _ _ _ _ _ (by decide),
    State.fld_setFld_kind _ _ _ _ _ _ _ _ (by decide), State.fld_setFld_kind _ _ _ _ _ _ _ _ (by decide),
    State.fld_setFld_kind _ _ _ _ _ _ _ _ (by decide),
    State.fld_setFld_beside _ F.PRD_STATE.DEST_KIND F.PRD_STATE.STATE _ _ _ rfl (by decide) (by decide) (by decide),
    State.fld_setFld_beside _ F.PRD_STATE.CLASS F.PRD_STATE.STATE _ _ _ rfl (by decide) (by decide) (by decide),
    State.fld_setFlag_beside _ F.PRD_STATE.FAST F.PRD_STATE.STATE _ _ _ rfl (by decide) (by decide) (by decide)]

theorem State.placeTable_keeps {β : Type} (obs : State → β) (fst : ∀ s f, obs (State.modFst f s) = obs s) (s : State) (i h : Nat) (area : List Byte) :
    obs (s.placeTable i h area) = obs (s.modProduct i (fun p => { p with tbls := p.tbls.set h (area, false) })) := by
  unfold State.placeTable
  dsimp only
  split
  · rfl
  · refine State.each_keeps obs _ _ _ fun k s => ?_
    unfold State.putRow
    exact fst _ _

/-- The product that a definition is granted. -/
def State.granting (s : State) (c : PrdCmd) : Product :=
  let b := c.pdb
  let pool := s.areaInPool b
  s.sysGrants b pool {
    pdb := b, area := c.area, tblMax := pdbTblBytes b, waits := [c], boot := c.boot, pdbAddr := prdCmdPdb c.bytes
    areaPool := pool, areaG := if pool then s.lowGrans (areaGrant (pdbTblBytes b)) else [] }

/-- The state once the product of a definition is in its table. -/
def State.prdEntered (s : State) (c : PrdCmd) : State :=
  (((s.wr .PRD_STATE 0 (prdCmdId c.bytes)).wr .PRD_COST 0 (prdCmdId c.bytes)).modPrd
    (fun q => { q with tab := q.tab.set (prdCmdId c.bytes) (s.granting c) })).placeTable (prdCmdId c.bytes) 0 c.area

/-- The state once that product shows its state. -/
def State.prdShown (s : State) (c : PrdCmd) (home : Nat) : State :=
  (((((s.prdEntered c).setFld F.PRD_STATE.STATE 1 (prdCmdId c.bytes)).setFld F.PRD_STATE.DOMAIN c.dom (prdCmdId c.bytes)).setFld F.PRD_STATE.HOME home
    (prdCmdId c.bytes)).showProduct (prdCmdId c.bytes)).showResources

theorem State.grantPrd_eq (s : State) (c : PrdCmd) : s.grantPrd c
    = (s.prdShown c (if pdbFast c.pdb then (s.homeFor c.pdb c.area none).getD 0 else 0)).when
        (pdbDestKind c.pdb == 0 && ((s.prdShown c (if pdbFast c.pdb then (s.homeFor c.pdb c.area none).getD 0 else 0)).ring
          (pdbRing c.pdb)).bound == 0)
        (·.modRing (pdbRing c.pdb) (fun r => { r with bound := 1, product := prdCmdId c.bytes })) := (rfl)

theorem State.prdEntered_units (s : State) (c : PrdCmd) : (s.prdEntered c).prd.queue = s.prd.queue ∧ (s.prdEntered c).pool = s.pool
    ∧ (s.prdEntered c).out = s.out ∧ ((s.prdEntered c).product (prdCmdId c.bytes)).pdb = c.pdb
    ∧ ∀ k, k ≠ prdCmdId c.bytes → (s.prdEntered c).product k = s.product k := by
  have prd := State.placeTable_keeps State.prd (fun _ _ => rfl) (((s.wr .PRD_STATE 0 (prdCmdId c.bytes)).wr .PRD_COST 0 (prdCmdId c.bytes)).modPrd
    (fun q => { q with tab := q.tab.set (prdCmdId c.bytes) (s.granting c) })) (prdCmdId c.bytes) 0 c.area
  refine ⟨(congrArg Prd.queue prd :), State.placeTable_keeps State.pool (fun _ _ => rfl) _ _ _ _,
    State.placeTable_keeps State.out (fun _ _ => rfl) _ _ _ _,
    ?_, fun k other => ?_⟩
  · refine (congrArg (fun p : Prd => (p.tab.get (prdCmdId c.bytes)).pdb) prd).trans ?_
    refine (congrArg Product.pdb (Tbl.get_upd_same _ _ _)).trans ?_
    exact congrArg Product.pdb (Tbl.get_set_same _ _ _)
  · refine (congrArg (fun p : Prd => p.tab.get k) prd).trans ?_
    exact (Tbl.get_upd_other _ _ _ _ other).trans (Tbl.get_set_other _ _ _ _ other)

theorem State.prdShown_offRegs (s : State) (c : PrdCmd) (home : Nat) : (s.prdShown c home).offRegs = (s.prdEntered c).offRegs := by
  unfold State.prdShown
  rw [State.showResources_offRegs, State.showProduct_offRegs, State.setFld_offRegs, State.setFld_offRegs, State.setFld_offRegs]

theorem State.prdShown_state (s : State) (c : PrdCmd) (home : Nat) : (s.prdShown c home).fld F.PRD_STATE.STATE (prdCmdId c.bytes) = 1 := by
  have shown (t : State) : t.showResources.fld F.PRD_STATE.STATE (prdCmdId c.bytes) = t.fld F.PRD_STATE.STATE (prdCmdId c.bytes) := by
    unfold State.fld
    rw [State.showResources_rd _ _ _ _ (by decide)]
  unfold State.prdShown
  rw [shown, State.showProduct_state,
    State.fld_setFld_beside _ F.PRD_STATE.HOME F.PRD_STATE.STATE _ _ _ rfl (by decide) (by decide) (by decide),
    State.fld_setFld_beside _ F.PRD_STATE.DOMAIN F.PRD_STATE.STATE _ _ _ rfl (by decide) (by decide) (by decide),
    State.fld_setFld_same _ _ _ _ _ (by decide) (by decide)]
  rfl

/-- The product `i` of a definition stands granted in `t`, and `t` is as `s` but for it. -/
structure PrdGranted (s t : State) (i : Nat) (pdb : List Byte) : Prop where
  queue : t.prd.queue = s.prd.queue
  pool : t.pool = s.pool
  out : t.out = s.out
  pdb : (t.product i).pdb = pdb
  others : ∀ k, k ≠ i → t.product k = s.product k

theorem PrdGranted.of_offRegs {s t u : State} {i : Nat} {b : List Byte} (h : PrdGranted s t i b)
    (off : u.offRegs = t.offRegs) : PrdGranted s u i b := by
  have prd : u.prd = t.prd := (congrArg State.prd off :)
  exact ⟨(congrArg Prd.queue prd).trans h.queue, (congrArg State.pool off :).trans h.pool, (congrArg State.out off :).trans h.out,
    (congrArg (fun p : Prd => (p.tab.get i).pdb) prd).trans h.pdb, fun k other => (congrArg (fun p : Prd => p.tab.get k) prd).trans
      (h.others k other)⟩

theorem PrdGranted.modRing {s t : State} {i : Nat} {b : List Byte} (h : PrdGranted s t i b) (g : Nat) (f : Ring → Ring) :
    PrdGranted s (t.modRing g f) i b := ⟨h.queue, h.pool, h.out, h.pdb, h.others⟩

theorem State.grantPrd_shows (s : State) (c : PrdCmd) : PrdGranted s (s.grantPrd c) (prdCmdId c.bytes) c.pdb
    ∧ (s.grantPrd c).fld F.PRD_STATE.STATE (prdCmdId c.bytes) = 1 := by
  obtain ⟨home, b, f, shown⟩ : ∃ home b f, s.grantPrd c = (s.prdShown c home).when b (·.modRing (pdbRing c.pdb) f) := ⟨_, _, _, s.grantPrd_eq c⟩
  obtain ⟨queue, pool, out, pdb, others⟩ := s.prdEntered_units c
  have rest := PrdGranted.of_offRegs ⟨queue, pool, out, pdb, others⟩ (s.prdShown_offRegs c home)
  have state := s.prdShown_state c home
  rw [shown]
  unfold State.when
  split
  · exact ⟨rest.modRing _ _, (State.modHqe_fld _ _ _ _ _).trans state⟩
  · exact ⟨rest, state⟩

/-- Settles O24. -/
theorem productCommandsQueueReadAndCheck : Obligations.ProductCommandsQueueReadAndCheck := by
  unfold Obligations.ProductCommandsQueueReadAndCheck
  intro s d r i x
  refine ⟨fun p hp started => ?_, fun c q queue checking => ?_, fun c q queue other => ?_⟩
  · have acts : exec p.1 s = .next ((s.takeCmd (ringG d r) i.toNat).prdCommand p.2.1 (ringG d r) i.toNat x.bytes) := by
      simp only [List.mem_cons, List.not_mem_nil, or_false] at hp
      rcases hp with rfl | rfl | rfl
      · exact congrArg Host.Outcome.next (s.runCmd_started d r i.toNat 0x20 _ x started)
      · exact congrArg Host.Outcome.next (s.runCmd_started d r i.toNat 0x21 _ x started)
      · exact congrArg Host.Outcome.next (s.runCmd_started d r i.toNat 0x22 _ x started)
    have prd : (s.takeCmd (ringG d r) i.toNat).prd = s.prd := rfl
    refine ⟨fun bad empty => ?_, fun h q queue busy => ?_, fun good empty => ?_⟩
    · exact acts.trans (congrArg Host.Outcome.next (State.prdCommand_malformed _ _ _ _ _ empty bad))
    · exact acts.trans (congrArg Host.Outcome.next ((s.takeCmd (ringG d r) i.toNat).prdCommand_waits _ _ _ _ h q queue busy))
    · obtain ⟨taken, tab, pool, sec, out⟩ := (s.takeCmd (ringG d r) i.toNat).prdCommand_taken p.2.1 (ringG d r) i.toNat x.bytes empty good
      exact ⟨_, acts, taken, tab, pool, sec, out⟩
  · intro u
    have acts := (doProductChecksDone_head s c q queue).trans (if_neg (not_not.mpr checking))
    refine ⟨fun status detail other fails => ?_, fun op pass => ?_, fun status detail op fails => ?_⟩
    · exact congrArg Host.Outcome.next (acts.trans (congrArg (fun p => (State.andReport p).startPrd)
        (u.checksDone_fails c status detail other fails)))
    · obtain ⟨t, grants⟩ := u.checksDone_grants c op pass
      obtain ⟨⟨queue', pool, out, pdb, others⟩, state⟩ := u.grantPrd_shows { c with stage := .pending, target := t }
      exact ⟨_, congrArg Host.Outcome.next (acts.trans (congrArg (fun p => (State.andReport p).startPrd) grants)), pdb, state, queue',
        others, pool, out⟩
    · exact congrArg Host.Outcome.next (acts.trans (congrArg (fun p => (State.andReport p).startPrd) (u.checksDone_retire c status detail op fails)))
  · exact congrArg Host.Outcome.next ((doProductChecksDone_head s c q queue).trans (if_pos other))

end Sys2Proof.Machine
end

section
/-! PROOFS. What a raise notes and submits. -/
namespace Sys2Proof.Machine

/-! What a raise notes: the count of its source, the sticky bit and the first fault (R529 to R531). -/

theorem State.bit64_eq (s : State) (lo hi : RegKind) (n : Nat) :
    s.bit64 lo hi n = if n < 32 then (s.rd lo).testBit n else (s.rd hi).testBit (n - 32) := by
  unfold State.bit64
  rw [bit_eq_testBit, bit_eq_testBit]

theorem State.bit64_setBit64 (s : State) (lo hi : RegKind) (n y : Nat) (apart : lo ≠ hi) (hn : n < 64) (hy : y < 64) :
    (s.setBit64 lo hi n).bit64 lo hi y = (decide (y = n) || s.bit64 lo hi y) := by
  have word (w m k : Nat) (hk : k < 32) : ((w ||| 1 <<< m) % 2 ^ 32).testBit k = (decide (k = m) || w.testBit k) := by
    rw [Nat.testBit_mod_two_pow, Nat.testBit_or, Nat.one_shiftLeft, Nat.testBit_two_pow, decide_eq_true hk, Bool.true_and, Bool.or_comm]
    exact congrArg (· || w.testBit k) (decide_eq_decide.mpr eq_comm)
  rw [State.bit64_eq, State.bit64_eq]
  unfold State.setBit64
  by_cases low : n < 32
  · rw [if_pos low]
    by_cases ylow : y < 32
    · rw [if_pos ylow, if_pos ylow, State.rd_wr_same, word _ _ _ ylow]
    · rw [if_neg ylow, if_neg ylow, State.rd_wr_kind _ _ _ _ _ _ _ _ apart.symm, decide_eq_false (by omega), Bool.false_or]
  · rw [if_neg low]
    by_cases ylow : y < 32
    · rw [if_pos ylow, if_pos ylow, State.rd_wr_kind _ _ _ _ _ _ _ _ apart, decide_eq_false (by omega), Bool.false_or]
    · rw [if_neg ylow, if_neg ylow, State.rd_wr_same, word _ _ _ (by omega)]
      exact congrArg (· || (s.rd hi).testBit (y - 32)) (decide_eq_decide.mpr (by omega))

theorem State.setBit64_rd_kind (s : State) (lo hi k : RegKind) (n i j : Nat) (l : k ≠ lo) (h : k ≠ hi) :
    (s.setBit64 lo hi n).rd k i j = s.rd k i j := by
  unfold State.setBit64
  split
  · exact State.rd_wr_kind _ _ _ _ _ _ _ _ l
  · exact State.rd_wr_kind _ _ _ _ _ _ _ _ h

theorem State.setBit64_offRegs (s : State) (lo hi : RegKind) (n : Nat) : (s.setBit64 lo hi n).offRegs = s.offRegs := by
  unfold State.setBit64
  split <;> exact State.wr_offRegs _ _ _ _ _

/-- The sticky bits of two states with the same status registers. -/
theorem State.sticky_of_rd {s t : State} (lo : t.rd .FCL_STATUS_LO = s.rd .FCL_STATUS_LO) (hi : t.rd .FCL_STATUS_HI = s.rd .FCL_STATUS_HI) (y : Nat) :
    t.sticky y = s.sticky y := by
  unfold State.sticky State.bit64
  rw [lo, hi]

theorem State.sticky_setBit64 (s : State) (n y : Nat) (hn : n < 64) (hy : y < 64) :
    (s.setBit64 .FCL_STATUS_LO .FCL_STATUS_HI n).sticky y = (decide (y = n) || s.sticky y) :=
  s.bit64_setBit64 _ _ n y (by decide) hn hy

theorem State.faultCnt_of_rd {s t : State} {y : Nat} (h : t.rd .FCL_CNT (y / 4) = s.rd .FCL_CNT (y / 4)) : t.faultCnt y = s.faultCnt y := by
  unfold State.faultCnt
  rw [h]

theorem bits_mod_word (w hi lo : Nat) (h : hi < 32) : bits (w % 2 ^ 32) hi lo = bits w hi lo := by
  refine Nat.eq_of_testBit_eq fun k => ?_
  rw [testBit_bits, testBit_bits, Nat.testBit_mod_two_pow]
  by_cases low : k < hi + 1 - lo
  · rw [decide_eq_true low, decide_eq_true (show lo + k < 32 by omega), Bool.true_and]
  · rw [decide_eq_false low, Bool.false_and, Bool.false_and]

theorem State.faultCnt_bumpFault_same (s : State) (src : Nat) : (s.bumpFault src).faultCnt src = min 255 (s.faultCnt src + 1) := by
  unfold State.bumpFault
  rw [State.faultCnt, State.rd_wr_same, bits_mod_word _ _ _ (by omega), bits_putBits_same _ _ _ _ (by omega)]
  exact Nat.mod_eq_of_lt (by
    rw [show 8 * (src % 4) + 7 + 1 - 8 * (src % 4) = 8 by omega]
    omega)

theorem State.faultCnt_bumpFault_other (s : State) (src y : Nat) (h : y ≠ src) (hy : y < 64) (hs : src < 64) :
    (s.bumpFault src).faultCnt y = s.faultCnt y := by
  unfold State.bumpFault
  generalize min 255 (s.faultCnt src + 1) = n
  by_cases word : y / 4 = src / 4
  · unfold State.faultCnt
    rw [word, State.rd_wr_same, bits_mod_word _ _ _ (by omega)]
    rcases Nat.lt_or_gt_of_ne (show y % 4 ≠ src % 4 by omega) with below | above
    · exact bits_putBits_below _ _ _ _ _ _ (by omega) (by omega)
    · exact bits_putBits_above _ _ _ _ _ _ (by omega) (by omega)
  · exact State.faultCnt_of_rd (State.rd_wr_other _ _ _ _ _ _ _ _ (RegKind.key_ne_index word (by omega) (by omega) _ _))

/-- The records of a first fault that is not yet taken. -/
theorem State.noteFF_first (s : State) (src sev detail : Nat) (empty : s.flag F.FCL_FF0.VALID = false) :
    s.noteFF src sev detail = (s.recordFF src sev detail).setBit64 .FCL_COINC_LO .FCL_COINC_HI src := by
  unfold State.noteFF
  rw [if_pos (by rw [empty]; decide)]

theorem State.noteFF_kept (s : State) (src sev detail : Nat) (taken : s.flag F.FCL_FF0.VALID = true) (later : s.fcl.ffCycle ≠ s.sysCycle) :
    s.noteFF src sev detail = s := by
  unfold State.noteFF
  rw [if_neg (by rw [taken]; decide), if_neg (fun h => later h.1)]

/-- What a raise of a source notes: its count, its sticky bit and, if there is none yet, the first fault. -/
def State.faultNoted (s : State) (src detail : Nat) : State :=
  (((s.pmuAdd 0x007 0).bumpFault src).setBit64 .FCL_STATUS_LO .FCL_STATUS_HI src).noteFF src (s.sevOf src) detail

/-- The registers of the first fault. -/
def firstFaultRegs : List RegKind := [.FCL_FF0, .FCL_FF1, .FCL_FF2, .FCL_FF3, .FCL_FF4, .FCL_FF5, .FCL_COINC_LO, .FCL_COINC_HI]

theorem State.recordFF_rd_kind (s : State) (src sev detail : Nat) (k : RegKind) (i j : Nat) (h : k ∉ firstFaultRegs) :
    (s.recordFF src sev detail).rd k i j = s.rd k i j := by
  simp only [firstFaultRegs, List.mem_cons, List.not_mem_nil, or_false, not_or] at h
  obtain ⟨h0, h1, h2, h3, h4, h5, -, -⟩ := h
  unfold State.recordFF
  dsimp only
  rw [State.modFcl_rd, State.rd_wr_kind _ _ _ _ _ _ _ _ h5, State.rd_wr_kind _ _ _ _ _ _ _ _ h4, State.rd_wr_kind _ _ _ _ _ _ _ _ h3,
    State.rd_wr_kind _ _ _ _ _ _ _ _ h2, State.rd_wr_kind _ _ _ _ _ _ _ _ h1, State.rd_wr_kind _ _ _ _ _ _ _ _ h0]

theorem State.noteFF_rd_kind (s : State) (src sev detail : Nat) (k : RegKind) (i j : Nat) (h : k ∉ firstFaultRegs) :
    (s.noteFF src sev detail).rd k i j = s.rd k i j := by
  have coinc (t : State) : (t.setBit64 .FCL_COINC_LO .FCL_COINC_HI src).rd k i j = t.rd k i j :=
    State.setBit64_rd_kind _ _ _ _ _ _ _ (fun e => h (by rw [e]; decide)) (fun e => h (by rw [e]; decide))
  unfold State.noteFF
  split
  · rw [coinc, State.recordFF_rd_kind _ _ _ _ _ _ _ h]
  · split
    · dsimp only
      split
      · rw [State.recordFF_rd_kind _ _ _ _ _ _ _ h, coinc]
      · exact coinc s
    · rfl

/-- A raise notes nothing in the other registers. -/
theorem State.faultNoted_rd_kind (s : State) (src detail : Nat) (k : RegKind) (i j : Nat) (h : k ∉ firstFaultRegs)
    (beside : k ∉ [RegKind.PMU_CTR_LO, .PMU_CTR_HI, .FCL_CNT, .FCL_STATUS_LO, .FCL_STATUS_HI]) : (s.faultNoted src detail).rd k i j = s.rd k i j := by
  simp only [List.mem_cons, List.not_mem_nil, or_false, not_or] at beside
  obtain ⟨plo, phi, cnt, lo, hi⟩ := beside
  unfold State.faultNoted
  rw [State.noteFF_rd_kind _ _ _ _ _ _ _ h, State.setBit64_rd_kind _ _ _ _ _ _ _ lo hi]
  unfold State.bumpFault
  rw [State.rd_wr_kind _ _ _ _ _ _ _ _ cnt, State.pmuAdd_rd_beside _ _ _ _ _ _ _ _ plo phi]

theorem State.faultNoted_flag (s : State) (src detail : Nat) (f : Fld) (h : f.reg ∉ firstFaultRegs)
    (beside : f.reg ∉ [RegKind.PMU_CTR_LO, .PMU_CTR_HI, .FCL_CNT, .FCL_STATUS_LO, .FCL_STATUS_HI]) : (s.faultNoted src detail).flag f = s.flag f := by
  unfold State.flag State.fld
  rw [State.faultNoted_rd_kind _ _ _ _ _ _ h beside]

theorem State.faultNoted_sticky (s : State) (src detail y : Nat) (hs : src < 64) (hy : y < 64) :
    (s.faultNoted src detail).sticky y = (decide (y = src) || s.sticky y) := by
  unfold State.faultNoted
  rw [State.sticky_of_rd (State.noteFF_rd_kind _ _ _ _ _ _ _ (by decide)) (State.noteFF_rd_kind _ _ _ _ _ _ _ (by decide)),
    State.sticky_setBit64 _ _ _ hs hy]
  unfold State.bumpFault
  rw [State.sticky_of_rd (State.rd_wr_kind _ _ _ _ _ _ _ _ (by decide)) (State.rd_wr_kind _ _ _ _ _ _ _ _ (by decide)),
    State.sticky_of_rd (State.pmuAdd_rd_beside _ _ _ _ _ _ _ _ (by decide) (by decide))
      (State.pmuAdd_rd_beside _ _ _ _ _ _ _ _ (by decide) (by decide))]

theorem State.faultNoted_cnt (s : State) (src detail y : Nat) (hs : src < 64) (hy : y < 64) :
    (s.faultNoted src detail).faultCnt y = if y = src then min 255 (s.faultCnt src + 1) else s.faultCnt y := by
  have counted : ∀ z, (s.pmuAdd 0x007 0).faultCnt z = s.faultCnt z := fun z =>
    State.faultCnt_of_rd (State.pmuAdd_rd_beside _ _ _ _ _ _ _ _ (by decide) (by decide))
  unfold State.faultNoted
  rw [State.faultCnt_of_rd (State.noteFF_rd_kind _ _ _ _ _ _ _ (by decide)),
    State.faultCnt_of_rd (State.setBit64_rd_kind _ _ _ _ _ _ _ (by decide) (by decide))]
  split
  · rename_i e
    rw [e, State.faultCnt_bumpFault_same, counted]
  · rename_i e
    rw [State.faultCnt_bumpFault_other _ _ _ e hy hs, counted]

/-- A raise changes registers, the counters' overflows and the instant of the first fault only. -/
theorem State.faultNoted_rest (s : State) (src detail : Nat) : (s.faultNoted src detail).fcl
    = { s.fcl with ffCycle := (s.faultNoted src detail).fcl.ffCycle }
    ∧ (s.faultNoted src detail).lup = s.lup ∧ (s.faultNoted src detail).hqe = s.hqe ∧ (s.faultNoted src detail).sec = s.sec := by
  have keeps {β : Type} (obs : State → β) (wr : ∀ s k v i j, obs (State.wr s k v i j) = obs s)
      (ff : ∀ s n, obs (State.modFcl (fun f => { f with ffCycle := n }) s) = obs s) (pmu : obs (s.pmuAdd 0x007 0) = obs s) :
      obs (s.faultNoted src detail) = obs s := by
    have bit (t : State) (lo hi : RegKind) : obs (t.setBit64 lo hi src) = obs t := by
      unfold State.setBit64
      split <;> exact wr _ _ _ _ _
    have rec_ (t : State) (sev : Nat) : obs (t.recordFF src sev detail) = obs t := by
      unfold State.recordFF
      dsimp only
      rw [ff, wr, wr, wr, wr, wr, wr]
    have note (t : State) (sev : Nat) : obs (t.noteFF src sev detail) = obs t := by
      unfold State.noteFF
      split
      · rw [bit, rec_]
      · split
        · dsimp only
          split
          · rw [rec_, bit]
          · exact bit _ _ _
        · rfl
    unfold State.faultNoted
    rw [note, bit]
    exact (wr _ _ _ _ _).trans pmu
  refine ⟨?_, keeps State.lup (fun _ _ _ _ _ => rfl) (fun _ _ => rfl) (State.pmuAdd_lup _ _ _ _ _),
    keeps State.hqe (fun _ _ _ _ _ => rfl) (fun _ _ => rfl) (State.pmuAdd_hqe _ _ _ _ _),
    keeps State.sec (fun _ _ _ _ _ => rfl) (fun _ _ => rfl) (State.pmuAdd_sec _ _ _ _ _)⟩
  have fcl := keeps (fun t => { t.fcl with ffCycle := 0 }) (fun _ _ _ _ _ => rfl) (fun _ _ => rfl)
    (congrArg (fun x : Fcl => { x with ffCycle := 0 }) (State.pmuAdd_fcl _ _ _ _ _))
  generalize s.faultNoted src detail = t at fcl
  exact (congrArg (fun x : Fcl => { x with ffCycle := t.fcl.ffCycle }) fcl :)

/-! What a raise does, by the state that it meets. -/

theorem State.raise_of_raiseNow {s t : State} {src detail : Nat} {l : List Note} (h : s.raiseNow src detail = (t, l)) :
    s.raise src detail = State.runNotes 4194303 l t := by
  unfold State.raise State.report
  rw [State.runNotes_cons _ _ _ _ (by omega)]
  change State.runNotes 4194303 ((s.raiseNow src detail).2 ++ []) (s.raiseNow src detail).1 = _
  rw [h, List.append_nil]

theorem State.runNotes_none (k : Nat) (s : State) : State.runNotes k [] s = s := by
  cases k <;> rfl

theorem State.raise_none (s : State) (src detail : Nat) (h : srcExists src = false ∨ s.sec.pwrGood = false) : s.raise src detail = s := by
  refine (State.raise_of_raiseNow (t := s) (l := []) ?_).trans (State.runNotes_none _ _)
  unfold State.raiseNow
  exact if_pos (h.imp (by rw [·]; exact Bool.false_ne_true) (by rw [·]; exact Bool.false_ne_true))

section
variable (s : State) (src detail : Nat) (real : srcExists src = true) (power : s.sec.pwrGood = true)
include real power

theorem State.raiseNow_stopped (stopped : s.sysStopped = true) :
    s.raiseNow src detail = (s, if src ∈ [1, 2, 5, 7] then [.safe 1 src 0] else []) := by
  unfold State.raiseNow
  rw [if_neg (by rw [real, power]; decide), if_pos stopped]

variable (runs : s.sysStopped = false)
include runs

theorem State.raiseNow_safe (safe : s.fcl.safe = true) : s.raiseNow src detail = (s.faultNoted src detail, []) := by
  have lasts : (s.faultNoted src detail).fcl.safe = true := (congrArg Fcl.safe (s.faultNoted_rest src detail).1).trans safe
  unfold State.raiseNow
  rw [if_neg (by rw [real, power]; decide), if_neg (by rw [runs]; decide)]
  exact if_pos lasts

variable (calm : s.fcl.safe = false)
include calm

theorem State.raiseNow_again (again : s.sticky src = true) :
    s.raiseNow src detail = (s.faultNoted src detail, if s.sevOf src = 3 then [.safe 1 src 0] else []) := by
  have off : ¬(s.faultNoted src detail).fcl.safe = true := by
    rw [(s.faultNoted_rest src detail).1]
    exact ne_true_of_eq_false calm
  unfold State.raiseNow
  rw [if_neg (by rw [real, power]; decide), if_neg (by rw [runs]; decide)]
  exact (if_neg off).trans (if_neg (not_not.mpr again))

/-- The state once a fresh raise has submitted its Lupin record. -/
def State.faultLogged (s : State) (src detail : Nat) : State :=
  (s.faultNoted src detail).lupSubmit 1 src (s.sevOf src) detail ((s.faultNoted src detail).faultCnt src)

/-- Whether a raise of a severity sends its event, and whether it sets the board alert (R533). -/
def State.reactEvent (s : State) (sev : Nat) : Bool := match sev with
  | 0 => s.flag F.FCL_REACT.EVENT0
  | 1 => s.flag F.FCL_REACT.EVENT1
  | 2 => s.flag F.FCL_REACT.EVENT2
  | _ => true

def State.reactAlert (s : State) (sev : Nat) : Bool := match sev with
  | 0 => s.flag F.FCL_REACT.ALERT0
  | 1 => s.flag F.FCL_REACT.ALERT1
  | 2 => s.flag F.FCL_REACT.ALERT2
  | _ => false

theorem State.raiseNow_fresh (fresh : s.sticky src = false) : s.raiseNow src detail
      = ((s.faultLogged src detail).when ((s.faultLogged src detail).reactAlert (s.sevOf src)) (·.alert 1),
        (if (s.faultLogged src detail).reactEvent (s.sevOf src) then
          [.event 0 0x80 src detail (s.sevOf src + (s.faultLogged src detail).faultCnt src <<< 8) 0 0] else [])
        ++ (if s.sevOf src = 3 then [.safe 1 src 0] else [])) := by
  have off : ¬(s.faultNoted src detail).fcl.safe = true := by
    rw [(s.faultNoted_rest src detail).1]
    exact ne_true_of_eq_false calm
  have new : ¬s.sticky src = true := ne_true_of_eq_false fresh
  unfold State.raiseNow
  rw [if_neg (by rw [real, power]; decide), if_neg (by rw [runs]; decide)]
  exact (if_neg off).trans ((if_pos new).trans rfl)

omit real power runs calm

theorem State.faultLogged_rd_kind (k : RegKind) (i j : Nat) (hi : i < 4096) (hj : j < 4096) (lost : k ≠ .LUP_CNT) :
    (s.faultLogged src detail).rd k i j = (s.faultNoted src detail).rd k i j := by
  refine State.lupSubmit_sameRegs _ _ _ _ _ _ k i j hi hj fun h => lost ?_
  rw [List.mem_singleton] at h
  exact congrArg RegId.kind h

theorem State.faultLogged_react (f : Fld) (h : f.reg = .FCL_REACT) : (s.faultLogged src detail).flag f = s.flag f := by
  unfold State.flag State.fld
  rw [h, State.faultLogged_rd_kind _ _ _ _ _ _ (by decide) (by decide) (by decide), State.faultNoted_rd_kind _ _ _ _ _ _ (by decide) (by decide)]

theorem State.faultLogged_reactEvent (sev : Nat) : (s.faultLogged src detail).reactEvent sev = s.reactEvent sev := by
  unfold State.reactEvent
  rw [State.faultLogged_react _ _ _ _ rfl, State.faultLogged_react _ _ _ _ rfl, State.faultLogged_react _ _ _ _ rfl]

theorem State.faultLogged_reactAlert (sev : Nat) : (s.faultLogged src detail).reactAlert sev = s.reactAlert sev := by
  unfold State.reactAlert
  rw [State.faultLogged_react _ _ _ _ rfl, State.faultLogged_react _ _ _ _ rfl, State.faultLogged_react _ _ _ _ rfl]

end

theorem State.lupSubmit_keeps {β : Type} (obs : State → β) (lup : ∀ s f, obs (State.modLup f s) = obs s)
    (lost : ∀ s : State, obs (s.count F.LUP_CNT.LOST) = obs s) (s : State) (kind src sev a0 a1 : Nat) :
    obs (s.lupSubmit kind src sev a0 a1) = obs s := by
  unfold State.lupSubmit
  extract_lets r full
  clear_value r
  split
  · split
    · exact lup s _
    · exact lost s
  · split
    · exact lost s
    · split
      · exact lup s _
      · split
        · exact lost s
        · split
          · exact (lup _ _).trans (lost s)
          · exact lost s

theorem State.faultLogged_rest (s : State) (src detail : Nat) : (s.faultLogged src detail).fcl
    = { s.fcl with ffCycle := (s.faultNoted src detail).fcl.ffCycle }
    ∧ (s.faultLogged src detail).hqe = s.hqe ∧ (s.faultLogged src detail).sec = s.sec := by
  obtain ⟨fcl, -, hqe, sec⟩ := s.faultNoted_rest src detail
  exact ⟨(State.lupSubmit_keeps State.fcl (fun _ _ => rfl) (fun _ => State.count_fcl _ _ _ _) _ _ _ _ _ _).trans fcl,
    (State.lupSubmit_keeps State.hqe (fun _ _ => rfl) (fun _ => State.count_hqe _ _ _ _) _ _ _ _ _ _).trans hqe,
    (State.lupSubmit_keeps State.sec (fun _ _ => rfl) (fun _ => State.count_sec _ _ _ _) _ _ _ _ _ _).trans sec⟩

/-! A fresh raise of severity 0, 1 or 2 without an event. -/

theorem State.alert_others (s : State) (c y : Nat) (h : y ≠ c) (hy : y < 32) : bit ((s.alert c).rd .SMB0_ALERT) y = bit (s.rd .SMB0_ALERT) y := by
  have shown : (s.alert c).rd .SMB0_ALERT = (s.rd .SMB0_ALERT ||| 1 <<< c) % 2 ^ 32 := by
    obtain e | e := State.alert_cases s c <;> rw [e]
    · exact State.rd_wr_same _ _ _ _ _
    · rw [State.rd_setFlag_kind _ _ _ _ _ _ _ _ (by decide), State.rd_wr_same]
  rw [shown, bit_eq_testBit, bit_eq_testBit, Nat.testBit_mod_two_pow, Nat.testBit_or, Nat.one_shiftLeft, Nat.testBit_two_pow,
    decide_eq_true hy, decide_eq_false (Ne.symm h), Bool.or_false, Bool.true_and]

theorem State.alert_rd_kind (s : State) (c : Nat) (k : RegKind) (i j : Nat) (alert : k ≠ .SMB0_ALERT) (stat : k ≠ .SMB0_STAT) :
    (s.alert c).rd k i j = s.rd k i j := by
  obtain e | e := State.alert_cases s c <;> rw [e]
  · exact State.rd_wr_kind _ _ _ _ _ _ _ _ alert
  · rw [State.rd_setFlag_kind _ _ _ _ _ _ _ _ stat, State.rd_wr_kind _ _ _ _ _ _ _ _ alert]

theorem State.whenAlert_rd_kind (s : State) (b : Bool) (c : Nat) (k : RegKind) (i j : Nat) (alert : k ≠ .SMB0_ALERT) (stat : k ≠ .SMB0_STAT) :
    (s.when b (·.alert c)).rd k i j = s.rd k i j := by
  unfold State.when
  split
  · exact s.alert_rd_kind c k i j alert stat
  · rfl

theorem State.whenAlert_offRegs (s : State) (b : Bool) (c : Nat) : (s.when b (·.alert c)).offRegs = s.offRegs :=
  State.when_offRegs s b _ fun t => t.alert_offRegs c

/-- The state after a fresh raise that sends no event and does not enter the safe state. -/
def State.faultRaised (s : State) (src detail : Nat) : State := (s.faultLogged src detail).when (s.reactAlert (s.sevOf src)) (·.alert 1)

theorem State.raise_fresh (s : State) (src detail : Nat) (real : srcExists src = true) (power : s.sec.pwrGood = true) (runs : s.sysStopped = false)
    (calm : s.fcl.safe = false) (fresh : s.sticky src = false) (mute : s.reactEvent (s.sevOf src) = false) (low : s.sevOf src ≠ 3) :
    s.raise src detail = s.faultRaised src detail := by
  refine (State.raise_of_raiseNow (s.raiseNow_fresh src detail real power runs calm fresh)).trans ?_
  rw [State.faultLogged_reactEvent, mute, if_neg Bool.false_ne_true, if_neg low, State.faultLogged_reactAlert]
  exact State.runNotes_none _ _

theorem State.faultRaised_rd_kind (s : State) (src detail : Nat) (k : RegKind) (i j : Nat) (hi : i < 4096) (hj : j < 4096) (lost : k ≠ .LUP_CNT)
    (alert : k ≠ .SMB0_ALERT) (stat : k ≠ .SMB0_STAT) : (s.faultRaised src detail).rd k i j = (s.faultNoted src detail).rd k i j :=
  (State.whenAlert_rd_kind _ _ _ _ _ _ alert stat).trans (State.faultLogged_rd_kind _ _ _ _ _ _ hi hj lost)

theorem State.faultRaised_sticky (s : State) (src detail y : Nat) (hs : src < 64) (hy : y < 64) :
    (s.faultRaised src detail).sticky y = (decide (y = src) || s.sticky y) := by
  rw [State.sticky_of_rd (s.faultRaised_rd_kind src detail _ _ _ (by decide) (by decide) (by decide) (by decide) (by decide))
    (s.faultRaised_rd_kind src detail _ _ _ (by decide) (by decide) (by decide) (by decide) (by decide)), s.faultNoted_sticky _ _ _ hs hy]

theorem State.faultRaised_cnt (s : State) (src detail y : Nat) (hs : src < 64) (hy : y < 64) :
    (s.faultRaised src detail).faultCnt y = if y = src then min 255 (s.faultCnt src + 1) else s.faultCnt y := by
  rw [State.faultCnt_of_rd (s.faultRaised_rd_kind src detail _ _ _ (by omega) (by decide) (by decide) (by decide) (by decide)),
    s.faultNoted_cnt _ _ _ hs hy]

theorem State.faultRaised_units (s : State) (src detail : Nat) : (s.faultRaised src detail).fcl.safe = s.fcl.safe
    ∧ (s.faultRaised src detail).hqe = s.hqe ∧ (s.faultRaised src detail).lup = (s.faultLogged src detail).lup := by
  obtain ⟨fcl, hqe, -⟩ := s.faultLogged_rest src detail
  have off : (s.faultRaised src detail).offRegs = (s.faultLogged src detail).offRegs := State.whenAlert_offRegs _ _ _
  exact ⟨(congrArg (fun t : State => t.fcl.safe) off :).trans (congrArg Fcl.safe fcl :), (congrArg State.hqe off :).trans hqe,
    (congrArg State.lup off :)⟩

/-- Its Lupin record waits alone. -/
theorem State.faultRaised_record (s : State) (src detail : Nat) (hd : detail < 2 ^ 32) (hs : src < 64) (free : s.lup.holding = false)
    (open_ : s.flag F.LUP_STAT.FROZEN = false) (empty : s.lup.queue = []) :
    ∃ r : LupRec, (s.faultRaised src detail).lup.queue = [r] ∧ r.kind = 1 ∧ r.source = src ∧ r.sev = s.sevOf src ∧ r.arg0 = detail
      ∧ r.arg1 = min 255 (s.faultCnt src + 1) := by
  obtain ⟨-, lup, -, -⟩ := s.faultNoted_rest src detail
  obtain ⟨-, -, lup'⟩ := s.faultRaised_units src detail
  have cnt := s.faultNoted_cnt src detail src hs hs
  rw [if_pos rfl] at cnt
  refine ⟨_, (congrArg Lup.queue (lup'.trans (State.lupSubmit_alone _ _ _ _ _ _ (lup ▸ free) ?_ (lup ▸ empty)))), rfl, rfl, rfl,
    Nat.mod_eq_of_lt hd, ?_⟩
  · rw [State.faultNoted_flag _ _ _ _ (by decide) (by decide)]
    exact open_
  · change (s.faultNoted src detail).faultCnt src % 2 ^ 32 = _
    rw [cnt]
    exact Nat.mod_eq_of_lt (by omega)

/-- The first fault's word. -/
theorem recordWord (src sev : Nat) (hs : src < 64) (hv : sev < 4) : bits ((1 <<< 31 + src <<< 25 + sev <<< 23) % 2 ^ 32) 31 31 = 1
    ∧ bits ((1 <<< 31 + src <<< 25 + sev <<< 23) % 2 ^ 32) 30 25 = src ∧ bits ((1 <<< 31 + src <<< 25 + sev <<< 23) % 2 ^ 32) 24 23 = sev := by
  unfold bits
  simp only [Nat.shiftLeft_eq, Nat.shiftRight_eq_div_pow]
  omega

/-- A raise's count and its sticky bit. -/
def State.faultCounted (s : State) (src : Nat) : State := ((s.pmuAdd 0x007 0).bumpFault src).setBit64 .FCL_STATUS_LO .FCL_STATUS_HI src

theorem State.faultCounted_rd_kind (s : State) (src : Nat) (k : RegKind) (i j : Nat)
    (beside : k ∉ [RegKind.PMU_CTR_LO, .PMU_CTR_HI, .FCL_CNT, .FCL_STATUS_LO, .FCL_STATUS_HI]) : (s.faultCounted src).rd k i j = s.rd k i j := by
  simp only [List.mem_cons, List.not_mem_nil, or_false, not_or] at beside
  obtain ⟨plo, phi, cnt, lo, hi⟩ := beside
  unfold State.faultCounted
  rw [State.setBit64_rd_kind _ _ _ _ _ _ _ lo hi]
  unfold State.bumpFault
  rw [State.rd_wr_kind _ _ _ _ _ _ _ _ cnt, State.pmuAdd_rd_beside _ _ _ _ _ _ _ _ plo phi]

theorem State.faultCounted_valid (s : State) (src : Nat) : (s.faultCounted src).flag F.FCL_FF0.VALID = s.flag F.FCL_FF0.VALID := by
  unfold State.flag State.fld
  rw [State.faultCounted_rd_kind _ _ _ _ _ (by decide)]

theorem State.faultNoted_eq (s : State) (src detail : Nat) : s.faultNoted src detail = (s.faultCounted src).noteFF src (s.sevOf src) detail := (rfl)

theorem State.faultNoted_first (s : State) (src detail : Nat) (empty : s.flag F.FCL_FF0.VALID = false) :
    (s.faultNoted src detail).rd .FCL_FF0 = (1 <<< 31 + src <<< 25 + s.sevOf src <<< 23) % 2 ^ 32
    ∧ (s.faultNoted src detail).rd .FCL_FF1 = detail % 2 ^ 32 := by
  rw [s.faultNoted_eq, State.noteFF_first _ _ _ _ ((s.faultCounted_valid src).trans empty)]
  rw [State.setBit64_rd_kind _ _ _ _ _ _ _ (by decide) (by decide), State.setBit64_rd_kind _ _ _ _ _ _ _ (by decide) (by decide)]
  unfold State.recordFF
  dsimp only
  constructor
  · rw [State.modFcl_rd, State.rd_wr_kind _ _ _ _ _ _ _ _ (by decide), State.rd_wr_kind _ _ _ _ _ _ _ _ (by decide),
      State.rd_wr_kind _ _ _ _ _ _ _ _ (by decide), State.rd_wr_kind _ _ _ _ _ _ _ _ (by decide), State.rd_wr_kind _ _ _ _ _ _ _ _ (by decide),
      State.rd_wr_same]
  · rw [State.modFcl_rd, State.rd_wr_kind _ _ _ _ _ _ _ _ (by decide), State.rd_wr_kind _ _ _ _ _ _ _ _ (by decide),
      State.rd_wr_kind _ _ _ _ _ _ _ _ (by decide), State.rd_wr_kind _ _ _ _ _ _ _ _ (by decide), State.rd_wr_same]

theorem State.faultCounted_offRegs (s : State) (src : Nat) : (s.faultCounted src).offRegs = (s.pmuAdd 0x007 0).offRegs :=
  (State.setBit64_offRegs _ _ _ _).trans (State.wr_offRegs _ _ _ _ _)

/-- With a first fault of an earlier cycle, a raise notes no more than its count and its sticky bit. -/
theorem State.faultNoted_kept (s : State) (src detail : Nat) (taken : s.flag F.FCL_FF0.VALID = true) (later : s.fcl.ffCycle ≠ s.sysCycle) :
    s.faultNoted src detail = s.faultCounted src := by
  have off := s.faultCounted_offRegs src
  have fcl : (s.faultCounted src).fcl = s.fcl := (congrArg State.fcl off :).trans (State.pmuAdd_fcl _ _ _ _ _)
  have time : (s.faultCounted src).time = s.time := (congrArg State.time off :).trans (State.pmuAdd_time _ _ _ _ _)
  refine State.noteFF_kept _ _ _ _ ((s.faultCounted_valid src).trans taken) ?_
  change (s.faultCounted src).fcl.ffCycle ≠ (s.faultCounted src).time.now * 5 / 12
  rw [fcl, time]
  exact later

theorem State.sevOf_lt (s : State) (src : Nat) : s.sevOf src < 4 := by
  have min_ : sevMin src < 4 := by
    unfold sevMin
    split <;> decide
  have field : bits (s.rd .FCL_SEV (src / 16)) (2 * (src % 16) + 1) (2 * (src % 16)) < 4 :=
    (Nat.mod_lt _ (Nat.two_pow_pos _)).trans_eq (by rw [show 2 * (src % 16) + 1 + 1 - 2 * (src % 16) = 2 by omega])
  unfold State.sevOf
  split
  · exact max_lt field min_
  · decide

/-- The first fault after a fresh raise. -/
theorem State.faultRaised_first (s : State) (src detail : Nat) (hs : src < 64) (hd : detail < 2 ^ 32) (empty : s.flag F.FCL_FF0.VALID = false) :
    (s.faultRaised src detail).flag F.FCL_FF0.VALID = true ∧ (s.faultRaised src detail).fld F.FCL_FF0.SOURCE = src
    ∧ (s.faultRaised src detail).fld F.FCL_FF0.SEV = s.sevOf src ∧ (s.faultRaised src detail).rd .FCL_FF1 = detail := by
  obtain ⟨ff0, ff1⟩ := s.faultNoted_first src detail empty
  obtain ⟨valid, source, sev⟩ := recordWord src (s.sevOf src) hs (s.sevOf_lt src)
  have shown (k : RegKind) (h : k = .FCL_FF0 ∨ k = .FCL_FF1) : (s.faultRaised src detail).rd k = (s.faultNoted src detail).rd k := by
    rcases h with rfl | rfl <;> exact s.faultRaised_rd_kind src detail _ _ _ (by decide) (by decide) (by decide) (by decide) (by decide)
  have word : (s.faultRaised src detail).rd .FCL_FF0 = (1 <<< 31 + src <<< 25 + s.sevOf src <<< 23) % 2 ^ 32 := (shown _ (.inl rfl)).trans ff0
  refine ⟨?_, ?_, ?_, (shown _ (.inr rfl)).trans (ff1.trans (Nat.mod_eq_of_lt hd))⟩
  · exact decide_eq_true ((congrArg (fun w => bits w 31 31) word).trans valid)
  · exact (congrArg (fun w => bits w 30 25) word).trans source
  · exact (congrArg (fun w => bits w 24 23) word).trans sev

theorem State.faultRaised_kept (s : State) (src detail : Nat) (taken : s.flag F.FCL_FF0.VALID = true) (later : s.fcl.ffCycle ≠ s.sysCycle) :
    (s.faultRaised src detail).rd .FCL_FF0 = s.rd .FCL_FF0 ∧ (s.faultRaised src detail).rd .FCL_FF1 = s.rd .FCL_FF1
    ∧ (s.faultRaised src detail).rd .FCL_COINC_LO = s.rd .FCL_COINC_LO ∧ (s.faultRaised src detail).rd .FCL_COINC_HI = s.rd .FCL_COINC_HI := by
  have shown (k : RegKind) (h : k ∈ firstFaultRegs) : (s.faultRaised src detail).rd k = s.rd k := by
    simp only [firstFaultRegs, List.mem_cons, List.not_mem_nil, or_false] at h
    rw [s.faultRaised_rd_kind src detail k _ _ (by decide) (by decide) (by rcases h with rfl | rfl | rfl | rfl | rfl | rfl | rfl | rfl <;> decide)
      (by rcases h with rfl | rfl | rfl | rfl | rfl | rfl | rfl | rfl <;> decide)
        (by rcases h with rfl | rfl | rfl | rfl | rfl | rfl | rfl | rfl <;> decide),
      s.faultNoted_kept src detail taken later,
      s.faultCounted_rd_kind src k _ _ (by rcases h with rfl | rfl | rfl | rfl | rfl | rfl | rfl | rfl <;> decide)]
  exact ⟨shown _ (by decide), shown _ (by decide), shown _ (by decide), shown _ (by decide)⟩

/-- The board alert after a fresh raise. -/
theorem State.faultRaised_alert (s : State) (src detail : Nat) :
    (s.reactAlert (s.sevOf src) = false → (s.faultRaised src detail).rd .SMB0_ALERT = s.rd .SMB0_ALERT)
    ∧ (s.reactAlert (s.sevOf src) = true → bit ((s.faultRaised src detail).rd .SMB0_ALERT) 1 = true
      ∧ ∀ y, y < 8 → y ≠ 1 → bit ((s.faultRaised src detail).rd .SMB0_ALERT) y = bit (s.rd .SMB0_ALERT) y) := by
  have before : (s.faultLogged src detail).rd .SMB0_ALERT = s.rd .SMB0_ALERT := by
    rw [State.faultLogged_rd_kind _ _ _ _ _ _ (by decide) (by decide) (by decide), State.faultNoted_rd_kind _ _ _ _ _ _ (by decide) (by decide)]
  unfold State.faultRaised
  refine ⟨fun off => ?_, fun on => ?_⟩
  · rw [off]
    exact before
  · rw [on, State.when_true]
    refine ⟨State.alert_cause _ 1 (by decide), fun y hy other => ?_⟩
    rw [State.alert_others _ _ _ other (by omega), before]

/-! A raise of a source whose sticky bit is set only counts. -/

theorem State.raise_again (s : State) (src detail : Nat) (real : srcExists src = true) (power : s.sec.pwrGood = true) (runs : s.sysStopped = false)
    (again : s.sticky src = true) (low : s.sevOf src ≠ 3) : s.raise src detail = s.faultNoted src detail := by
  by_cases safe : s.fcl.safe = true
  · exact (State.raise_of_raiseNow (s.raiseNow_safe src detail real power runs safe)).trans (State.runNotes_none _ _)
  · refine (State.raise_of_raiseNow (s.raiseNow_again src detail real power runs (Bool.eq_false_iff.mpr safe) again)).trans ?_
    rw [if_neg low]
    exact State.runNotes_none _ _

theorem State.faultCounted_frozen (s : State) (src : Nat) (hs : src < 64) (frozen : s.flag F.PMU_CTRL.FREEZE = true) :
    SameRegs [⟨.FCL_CNT, src / 4, 0⟩, ⟨.FCL_STATUS_LO, 0, 0⟩, ⟨.FCL_STATUS_HI, 0, 0⟩] s (s.faultCounted src)
    ∧ { s.faultCounted src with regs := s.regs } = s := by
  have off := s.faultCounted_offRegs src
  rw [s.pmuAdd_frozen _ _ _ frozen] at off
  refine ⟨?_, State.regs_back off⟩
  unfold State.faultCounted State.bumpFault State.setBit64
  rw [s.pmuAdd_frozen _ _ _ frozen]
  have counted := (SameRegs.refl [⟨.FCL_CNT, src / 4, 0⟩, ⟨.FCL_STATUS_LO, 0, 0⟩, ⟨.FCL_STATUS_HI, 0, 0⟩] s).andWr (k := .FCL_CNT)
    (v := putBits (s.rd .FCL_CNT (src / 4)) (8 * (src % 4) + 7) (8 * (src % 4)) (min 255 (s.faultCnt src + 1))) (i := src / 4) (j := 0)
    (by repeat constructor) (by omega)
  exact SameRegs.ite (counted.andWr (by repeat constructor) (by omega)) (counted.andWr (by repeat constructor) (by omega))

end Sys2Proof.Machine
end

section
/-! PROOFS. The entry into the safe state. -/
namespace Sys2Proof.Machine

/-! The entry into the safe state, and what the raises that follow it leave as it is. -/

/-- What the entry makes of the collector: the safe state lasts with FAULT_N low and its word, and the same clocks fail. -/
structure State.EntryShown (word : Nat) (clocks : List Nat) (t : State) : Prop where
  safe : t.fcl.safe = true
  faultN : t.fcl.faultN = false
  word : t.fcl.safeD02 = word
  clocks : t.fcl.clkFail = clocks

theorem State.EntryShown.of_fcl {word : Nat} {clocks : List Nat} {s t : State} (h : s.EntryShown word clocks) (fcl : t.fcl = s.fcl) :
    t.EntryShown word clocks := ⟨fcl ▸ h.safe, fcl ▸ h.faultN, fcl ▸ h.word, fcl ▸ h.clocks⟩

theorem State.entryShown_free (word : Nat) (clocks : List Nat) : Calm.Free (State.EntryShown word clocks) where
  wr _ h := h.of_fcl rfl
  hqe _ h := h.of_fcl rfl
  units h := h.of_fcl rfl
  ff h := ⟨h.safe, h.faultN, h.word, h.clocks⟩
  any _ _ h := h.of_fcl rfl
  disarm {s} h := by
    obtain ⟨safe, faultN, word, clocks⟩ := h
    have fcl := s.disarmAll_fcl
    exact ⟨(congrArg Fcl.safe fcl :).trans safe, (congrArg Fcl.faultN fcl :).trans faultN, (congrArg Fcl.safeD02 fcl :).trans word,
      (congrArg Fcl.clkFail fcl :).trans clocks⟩

theorem State.entering_shown (s : State) (word : Nat) : (s.entering word).EntryShown word s.fcl.clkFail :=
  State.when_closed ⟨rfl, rfl, rfl, rfl⟩ fun _ h => h.of_fcl (State.setFlag_fcl _ _ _ _ _)

theorem State.stopped_shown (s : State) (word : Nat) : (s.entering word).allStopped.EntryShown word s.fcl.clkFail :=
  (State.entryShown_free _ _).allStopped (s.entering_shown word)

theorem State.stopped_sysStopped (s : State) (word : Nat) : (s.entering word).allStopped.sysStopped = s.sysStopped := by
  unfold State.sysStopped State.clockUp
  rw [(s.stopped_shown word).clocks]

/-! With SYS running, the entry records itself. -/

theorem State.lupWrite_rd_kind (s : State) (r : LupRec) (k : RegKind) (i j : Nat) (hi : i < 4096) (hj : j < 4096)
    (h : k ∉ [RegKind.LUP_SEQ, .LUP_STAT, .PMU_CTR_LO, .PMU_CTR_HI]) : (s.lupWrite r).rd k i j = s.rd k i j := by
  simp only [List.mem_cons, List.not_mem_nil, or_false, not_or] at h
  obtain ⟨seq, stat, lo, up⟩ := h
  rw [State.lupWrite_eq, State.pmuAdd_rd_beside _ _ _ _ _ _ _ _ lo up]
  refine State.recorded_sameRegs _ _ _ _ _ hi hj fun mem => ?_
  simp only [List.mem_cons, List.not_mem_nil, or_false] at mem
  exact mem.elim (fun e => seq (congrArg RegId.kind e)) (fun e => stat (congrArg RegId.kind e))

theorem State.lupDrain_rd_kind (s : State) (k : RegKind) (i j : Nat) (hi : i < 4096) (hj : j < 4096)
    (h : k ∉ [RegKind.LUP_SEQ, .LUP_STAT, .PMU_CTR_LO, .PMU_CTR_HI]) : s.lupDrain.rd k i j = s.rd k i j := by
  unfold State.lupDrain
  rw [State.modLup_rd]
  exact State.each_rd _ _ _ _ _ _ fun _ _ => State.lupWrite_rd_kind _ _ _ _ _ hi hj h

theorem State.entryRecorded_rd_kind (s : State) (word : Nat) (k : RegKind) (i j : Nat) (hi : i < 4096) (hj : j < 4096)
    (h : k ∉ [RegKind.LUP_SEQ, .LUP_STAT, .PMU_CTR_LO, .PMU_CTR_HI]) : (s.entryRecorded word).rd k i j = (s.wr .FCL_SAFE word).rd k i j := by
  have stat : k ≠ .LUP_STAT := fun e => h (by rw [e]; decide)
  unfold State.entryRecorded
  rw [State.rd_setFlag_kind _ _ _ _ _ _ _ _ stat, State.rd_setFlag_kind _ _ _ _ _ _ _ _ stat]
  unfold State.when
  split
  · rw [State.lupWrite_rd_kind _ _ _ _ _ hi hj h, State.lupDrain_rd_kind _ _ _ _ hi hj h]
  · rfl

theorem State.entryRecorded_frozen (s : State) (word : Nat) : (s.entryRecorded word).flag F.LUP_STAT.FROZEN = true
    ∧ (s.entryRecorded word).flag F.LUP_STAT.UNSAVED = true := by
  unfold State.entryRecorded
  rw [State.flag_setFlag_beside _ F.LUP_STAT.UNSAVED F.LUP_STAT.FROZEN _ _ _ rfl (by decide) (by decide) (by decide),
    State.flag_setFlag_same _ _ _ _ _ rfl (by decide), State.flag_setFlag_same _ _ _ _ _ rfl (by decide)]
  exact ⟨rfl, rfl⟩

/-- The safe state with SYS running: its register, the frozen records and the board alert. -/
structure State.EntryRecorded (word : Nat) (t : State) : Prop where
  reg : t.rd .FCL_SAFE = word % 2 ^ 32
  frozen : t.flag F.LUP_STAT.FROZEN = true
  unsaved : t.flag F.LUP_STAT.UNSAVED = true
  alert : bit (t.rd .SMB0_ALERT) 0 = true

theorem State.allStopped_alert (s : State) : bit (s.allStopped.rd .SMB0_ALERT) 0 = true := State.alert_cause _ 0 (by decide)

theorem State.entryRecorded_shows (s : State) (word : Nat) : (s.allStopped.entryRecorded word).EntryRecorded word := by
  obtain ⟨frozen, unsaved⟩ := s.allStopped.entryRecorded_frozen word
  refine ⟨?_, frozen, unsaved, ?_⟩
  · rw [State.entryRecorded_rd_kind _ _ _ _ _ (by decide) (by decide) (by decide), State.rd_wr_same]
  · rw [State.entryRecorded_rd_kind _ _ _ _ _ (by decide) (by decide) (by decide), State.rd_wr_kind _ _ _ _ _ _ _ _ (by decide)]
    exact s.allStopped_alert

/-- With SYS stopped, the entry's records wait for SYS. -/
def State.entryLate (s : State) : State :=
  (((s.setFlag F.LUP_STAT.FROZEN).setFlag F.LUP_STAT.UNSAVED).modLup (fun l => { l with queue := [] })).modFcl (fun f => { f with lateDue := true })

theorem State.entryLate_fcl (s : State) : s.entryLate.fcl = { s.fcl with lateDue := true } := by
  unfold State.entryLate
  rw [State.modFcl_fcl, State.modLup_fcl, State.setFlag_fcl, State.setFlag_fcl]

theorem State.EntryShown.late {word : Nat} {clocks : List Nat} {s : State} (h : s.EntryShown word clocks) :
    s.entryLate.EntryShown word clocks ∧ s.entryLate.fcl.lateDue = true := by
  have fcl := s.entryLate_fcl
  generalize s.entryLate = t at fcl
  exact ⟨⟨(congrArg Fcl.safe fcl).trans h.safe, (congrArg Fcl.faultN fcl).trans h.faultN, (congrArg Fcl.safeD02 fcl).trans h.word,
    (congrArg Fcl.clkFail fcl).trans h.clocks⟩, congrArg Fcl.lateDue fcl⟩

theorem State.enterSafe_late (s : State) (cause src code : Nat) (calm : s.fcl.safe = false) (power : s.sec.pwrGood = true)
    (stopped : s.sysStopped = true) : s.enterSafe cause src code = ((s.entering (safeWord cause src code)).allStopped.entryLate, []) :=
  s.enterSafe_stopped cause src code calm power ((s.stopped_sysStopped _).trans stopped)

theorem State.enterSafe_shows (s : State) (cause src code : Nat) (calm : s.fcl.safe = false) (power : s.sec.pwrGood = true) :
    (s.enterSafe cause src code).1.EntryShown (safeWord cause src code) s.fcl.clkFail
    ∧ (s.sysStopped = true → (s.enterSafe cause src code).1.fcl.lateDue = true)
    ∧ (s.sysStopped = false → (s.enterSafe cause src code).1.EntryRecorded (safeWord cause src code)) := by
  have shown := s.stopped_shown (safeWord cause src code)
  have stops := s.stopped_sysStopped (safeWord cause src code)
  by_cases stopped : s.sysStopped = true
  · rw [s.enterSafe_late cause src code calm power stopped]
    obtain ⟨entry, late⟩ := shown.late
    exact ⟨entry, fun _ => late, fun run => absurd (run.symm.trans stopped) Bool.false_ne_true⟩
  · have runs := Bool.eq_false_iff.mpr stopped
    obtain ⟨l, acts⟩ := s.enterSafe_runs cause src code calm power (stops.trans runs)
    rw [acts]
    exact ⟨(State.entryShown_free _ _).entryRecorded shown, fun on => absurd on stopped, fun _ => State.entryRecorded_shows _ _⟩

/-! Raises within the safe state keep all of it. -/

/-- The safe state of `u` stands in `t`: only the instant of the first fault may have moved. -/
structure State.SettledAs (u t : State) : Prop where
  fcl : { t.fcl with ffCycle := 0 } = { u.fcl with ffCycle := 0 }
  reg : t.rd .FCL_SAFE = u.rd .FCL_SAFE
  stat : t.rd .LUP_STAT = u.rd .LUP_STAT
  alert : t.rd .SMB0_ALERT = u.rd .SMB0_ALERT

theorem State.SettledAs.refl (u : State) : u.SettledAs u := ⟨rfl, rfl, rfl, rfl⟩

theorem State.settled_calm (u : State) : Calm u.SettledAs where
  wr {s k v i j} guarded h := by
    have other (k' : RegKind) (e : k'.ofEntry = true) : (s.wr k v i j).rd k' = s.rd k' :=
      State.rd_wr_kind _ _ _ _ _ _ _ _ fun same => absurd (e.symm.trans ((congrArg RegKind.ofEntry same).trans guarded)) (by decide)
    exact ⟨h.fcl, (other _ rfl).trans h.reg, (other _ rfl).trans h.stat, (other _ rfl).trans h.alert⟩
  hqe _ h := ⟨h.fcl, h.reg, h.stat, h.alert⟩
  units h := ⟨h.fcl, h.reg, h.stat, h.alert⟩
  ff h := ⟨h.fcl, h.reg, h.stat, h.alert⟩

theorem State.SettledAs.safe {u t : State} (h : u.SettledAs t) : t.fcl.safe = u.fcl.safe := (congrArg Fcl.safe h.fcl :)

theorem State.settled_raises (u : State) (safe : u.fcl.safe = true) : Calm.Raise u.SettledAs where
  toCalm := u.settled_calm
  status {s n} h := by
    have other (k : RegKind) (lo : k ≠ .FCL_STATUS_LO) (hi : k ≠ .FCL_STATUS_HI) : (s.setBit64 .FCL_STATUS_LO .FCL_STATUS_HI n).rd k = s.rd k :=
      State.setBit64_rd_kind _ _ _ _ _ _ _ lo hi
    have fcl : (s.setBit64 .FCL_STATUS_LO .FCL_STATUS_HI n).fcl = s.fcl := (congrArg State.fcl (State.setBit64_offRegs _ _ _ _) :)
    exact ⟨(congrArg (fun x : Fcl => { x with ffCycle := 0 }) fcl).trans h.fcl, (other _ (by decide) (by decide)).trans h.reg,
      (other _ (by decide) (by decide)).trans h.stat, (other _ (by decide) (by decide)).trans h.alert⟩
  alert off h := absurd ((h.safe.trans safe).symm.trans off) (by decide)
  enterSafe {s cause src code} h := by
    rw [s.enterSafe_none cause src code (.inl (h.safe.trans safe))]
    exact h

/-- A run of notes that begins with the entry ends with the safe state of that entry. -/
theorem State.runNotes_safe (s : State) (k cause src code : Nat) (l : List Note) (calm : s.fcl.safe = false) (power : s.sec.pwrGood = true) :
    (s.enterSafe cause src code).1.SettledAs (State.runNotes (k + 1) (.safe cause src code :: l) s) := by
  obtain ⟨shown, -, -⟩ := s.enterSafe_shows cause src code calm power
  rw [State.runNotes_cons _ _ _ _ (Nat.succ_pos k)]
  exact (State.settled_raises _ shown.safe).runNotes (State.SettledAs.refl (s.enterSafe cause src code).1)

/-- What a run of notes that begins with the entry ends with. -/
theorem State.runNotes_safe_shows (s : State) (k cause src code : Nat) (l : List Note) (calm : s.fcl.safe = false) (power : s.sec.pwrGood = true) :
    (State.runNotes (k + 1) (.safe cause src code :: l) s).EntryShown (safeWord cause src code) s.fcl.clkFail
    ∧ (s.sysStopped = true → (State.runNotes (k + 1) (.safe cause src code :: l) s).fcl.lateDue = true)
    ∧ (s.sysStopped = false → (State.runNotes (k + 1) (.safe cause src code :: l) s).EntryRecorded (safeWord cause src code)) := by
  obtain ⟨shown, late, recorded⟩ := s.enterSafe_shows cause src code calm power
  have settled := s.runNotes_safe k cause src code l calm power
  generalize State.runNotes (k + 1) (.safe cause src code :: l) s = t at settled
  generalize (s.enterSafe cause src code).1 = u at shown late recorded settled
  obtain ⟨fcl, reg, stat, alert⟩ := settled
  refine ⟨⟨(congrArg Fcl.safe fcl :).trans shown.safe, (congrArg Fcl.faultN fcl :).trans shown.faultN, (congrArg Fcl.safeD02 fcl :).trans shown.word,
    (congrArg Fcl.clkFail fcl :).trans shown.clocks⟩, fun on => (congrArg Fcl.lateDue fcl :).trans (late on), fun run => ?_⟩
  obtain ⟨reg', frozen, unsaved, alert'⟩ := recorded run
  have flag (f : Fld) (h : f.reg = .LUP_STAT) : t.flag f = u.flag f := by
    unfold State.flag State.fld
    rw [h, stat]
  exact ⟨reg.trans reg', (flag _ rfl).trans frozen, (flag _ rfl).trans unsaved, alert ▸ alert'⟩

end Sys2Proof.Machine
end

section
/-! PROOFS. The ways into the safe state. -/
namespace Sys2Proof.Machine

/-! The ways into the safe state. -/

theorem State.faultNoted_run (s : State) (src detail : Nat) : (s.faultNoted src detail).fcl.safe = s.fcl.safe
    ∧ (s.faultNoted src detail).sec.pwrGood = s.sec.pwrGood ∧ (s.faultNoted src detail).sysStopped = s.sysStopped := by
  obtain ⟨fcl, -, -, sec⟩ := s.faultNoted_rest src detail
  refine ⟨(congrArg Fcl.safe fcl :), congrArg Sec.pwrGood sec, ?_⟩
  unfold State.sysStopped State.clockUp
  rw [(congrArg Fcl.clkFail fcl :)]

theorem State.faultLogged_run (s : State) (src detail : Nat) : (s.faultLogged src detail).fcl.safe = s.fcl.safe
    ∧ (s.faultLogged src detail).sec.pwrGood = s.sec.pwrGood ∧ (s.faultLogged src detail).sysStopped = s.sysStopped
    ∧ (s.faultLogged src detail).hqe = s.hqe := by
  obtain ⟨fcl, hqe, sec⟩ := s.faultLogged_rest src detail
  refine ⟨(congrArg Fcl.safe fcl :), congrArg Sec.pwrGood sec, ?_, hqe⟩
  unfold State.sysStopped State.clockUp
  rw [(congrArg Fcl.clkFail fcl :)]

theorem State.putEntry_other (s : State) (g : Nat) (e : Entry) (h : (s.ring g).typ ≠ .cmp) : s.putEntry g e = (s, []) := if_pos (.inl h)

/-- A raise of severity 3 enters the safe state. -/
theorem State.raise_enters (s : State) (src detail : Nat) (real : srcExists src = true) (power : s.sec.pwrGood = true) (runs : s.sysStopped = false)
    (calm : s.fcl.safe = false) (sev : s.sevOf src = 3) (quick : s.sticky src = true ∨ (s.ring (s.evtRing 0)).typ ≠ .cmp) :
    (s.raise src detail).EntryShown (safeWord 1 src 0) s.fcl.clkFail ∧ (s.raise src detail).EntryRecorded (safeWord 1 src 0) := by
  by_cases again : s.sticky src = true
  · obtain ⟨calm', power', runs'⟩ := s.faultNoted_run src detail
    have clocks : (s.faultNoted src detail).fcl.clkFail = s.fcl.clkFail := (congrArg Fcl.clkFail (s.faultNoted_rest src detail).1 :)
    have acts := State.raise_of_raiseNow (s.raiseNow_again src detail real power runs calm again)
    rw [if_pos sev] at acts
    obtain ⟨shown, -, recorded⟩ := (s.faultNoted src detail).runNotes_safe_shows 4194302 1 src 0 [] (calm'.trans calm) (power'.trans power)
    rw [acts, ← clocks]
    exact ⟨shown, recorded (runs'.trans runs)⟩
  · obtain ⟨calm', power', runs', hqe⟩ := s.faultLogged_run src detail
    have clocks : (s.faultLogged src detail).fcl.clkFail = s.fcl.clkFail := (congrArg Fcl.clkFail (s.faultLogged_rest src detail).1 :)
    have other : ((s.faultLogged src detail).ring ((s.faultLogged src detail).evtRing 0)).typ ≠ .cmp := by
      unfold State.evtRing State.ring State.dom
      rw [hqe]
      exact quick.resolve_left again
    have acts := State.raise_of_raiseNow (s.raiseNow_fresh src detail real power runs calm (Bool.eq_false_iff.mpr again))
    rw [sev, if_pos rfl] at acts
    generalize s.faultLogged src detail = u at acts calm' power' runs' clocks other
    have event : (State.runNote (.event 0 0x80 src detail (3 + u.faultCnt src <<< 8) 0 0) u) = (u, []) := u.putEntry_other _ _ other
    obtain ⟨shown, -, recorded⟩ := u.runNotes_safe_shows 4194301 1 src 0 [] (calm'.trans calm) (power'.trans power)
    have run : s.raise src detail = State.runNotes 4194302 [.safe 1 src 0] u := by
      refine acts.trans ?_
      rw [show u.reactEvent 3 = true from rfl, show u.reactAlert 3 = false from rfl, State.when_false, if_pos rfl, List.singleton_append,
        State.runNotes_cons _ _ _ _ (by omega), event]
      rfl
    rw [run, ← clocks]
    exact ⟨shown, recorded (runs'.trans runs)⟩

theorem safeWord_source (src : Nat) (h : src < 64) : bits (safeWord 1 src 0 % 2 ^ 32) 31 31 = 1 ∧ bits (safeWord 1 src 0 % 2 ^ 32) 30 28 = 1
    ∧ bits (safeWord 1 src 0 % 2 ^ 32) 27 22 = src := by
  unfold safeWord bits
  rw [if_pos rfl, if_neg (by decide)]
  simp only [Nat.shiftLeft_eq, Nat.shiftRight_eq_div_pow]
  omega

theorem safeWord_code (code : Nat) (h : code < 8) : bits (safeWord 2 0 code % 2 ^ 32) 30 28 = 2 ∧ bits (safeWord 2 0 code % 2 ^ 32) 21 19 = code := by
  unfold safeWord bits
  rw [if_neg (by decide), if_pos rfl]
  simp only [Nat.shiftLeft_eq, Nat.shiftRight_eq_div_pow]
  omega

/-! A sticky bit stays set through a raise. -/

theorem State.sticky_setBit64_mono (s : State) (n y : Nat) (hy : y < 64) (set : s.sticky y = true) :
    (s.setBit64 .FCL_STATUS_LO .FCL_STATUS_HI n).sticky y = true := by
  have word (w m k : Nat) (hk : k < 32) (h : w.testBit k = true) : ((w ||| 1 <<< m) % 2 ^ 32).testBit k = true := by
    rw [Nat.testBit_mod_two_pow, Nat.testBit_or, h, decide_eq_true hk, Bool.true_or, Bool.and_true]
  unfold State.sticky at set ⊢
  rw [State.bit64_eq] at set ⊢
  unfold State.setBit64
  by_cases ylow : y < 32
  · rw [if_pos ylow] at set ⊢
    split
    · rw [State.rd_wr_same]
      exact word _ _ _ ylow set
    · rw [State.rd_wr_kind _ _ _ _ _ _ _ _ (by decide)]
      exact set
  · rw [if_neg ylow] at set ⊢
    split
    · rw [State.rd_wr_kind _ _ _ _ _ _ _ _ (by decide)]
      exact set
    · rw [State.rd_wr_same]
      exact word _ _ _ (by omega) set

theorem State.sticky_wr_kind (s : State) (k : RegKind) (v i j y : Nat) (lo : k ≠ .FCL_STATUS_LO) (hi : k ≠ .FCL_STATUS_HI) :
    (s.wr k v i j).sticky y = s.sticky y :=
  State.sticky_of_rd (State.rd_wr_kind _ _ _ _ _ _ _ _ lo.symm) (State.rd_wr_kind _ _ _ _ _ _ _ _ hi.symm) y

theorem State.sticky_of_regs {s t : State} (h : t.regs = s.regs) (y : Nat) : t.sticky y = s.sticky y :=
  State.sticky_of_rd (State.rd_of_regs h _ _ _) (State.rd_of_regs h _ _ _) y

theorem State.sticky_free (y : Nat) : Calm.Free fun s => s.sticky y = true where
  wr {s k v i j} guarded h := (s.sticky_wr_kind k v i j y (fun e => by rw [e] at guarded; exact absurd guarded (by decide))
    (fun e => by rw [e] at guarded; exact absurd guarded (by decide))).trans h
  hqe _ h := (State.sticky_of_regs (State.modHqe_regs _ _) y).trans h
  units {s} _ _ _ _ _ _ _ _ _ _ _ h := (State.sticky_of_regs (s := s) rfl y).trans h
  ff h := (State.sticky_of_regs (State.modFcl_regs _ _) y).trans h
  any lo hi h := (State.sticky_wr_kind _ _ _ _ _ y lo hi).trans h
  disarm {s} h := by
    unfold State.disarmAll
    refine (State.sticky_of_regs (State.modFcl_regs _ _) y).trans ((State.sticky_wr_kind _ _ _ _ _ y (by decide) (by decide)).trans ?_)
    exact State.each_closed (P := fun t => t.sticky y = true) h fun _ _ h => (State.sticky_wr_kind _ _ _ _ _ y (by decide) (by decide)).trans h

theorem State.sticky_raises (y : Nat) (hy : y < 64) : Calm.Raise fun s => s.sticky y = true :=
  (State.sticky_free y).raises (fun _ h => (State.sticky_of_regs (State.modFcl_regs _ _) y).trans h) fun h => State.sticky_setBit64_mono _ _ y hy h

/-! A failed self-check. -/

theorem State.selfCheckFail_safe (s : State) (code : Nat) (power : s.sec.pwrGood = true) (safe : s.fcl.safe = true) :
    s.selfCheckFail code = s.setBit64 .FCL_STATUS_LO .FCL_STATUS_HI 0 := by
  have fcl : (s.setBit64 .FCL_STATUS_LO .FCL_STATUS_HI 0).fcl = s.fcl := (congrArg State.fcl (s.setBit64_offRegs .FCL_STATUS_LO .FCL_STATUS_HI 0) :)
  have entered := (s.setBit64 .FCL_STATUS_LO .FCL_STATUS_HI 0).enterSafe_none 2 0 code (.inl ((congrArg Fcl.safe fcl).trans safe))
  unfold State.selfCheckFail State.report
  rw [if_pos power, State.runNotes_cons _ _ _ _ (by omega)]
  change State.runNotes _ ((State.enterSafe 2 0 code _).2 ++ []) (State.enterSafe 2 0 code _).1 = _
  rw [entered]
  exact State.runNotes_none _ _

theorem State.selfCheckFail_enters (s : State) (code : Nat) (power : s.sec.pwrGood = true) (calm : s.fcl.safe = false) :
    (s.selfCheckFail code).EntryShown (safeWord 2 0 code) s.fcl.clkFail ∧ (s.selfCheckFail code).sticky 0 = true
    ∧ (s.sysStopped = false → (s.selfCheckFail code).EntryRecorded (safeWord 2 0 code)) := by
  have off := s.setBit64_offRegs .FCL_STATUS_LO .FCL_STATUS_HI 0
  have set : (s.setBit64 .FCL_STATUS_LO .FCL_STATUS_HI 0).sticky 0 = true := by
    rw [State.sticky_setBit64 _ _ _ (by decide) (by decide)]
    rfl
  unfold State.selfCheckFail
  rw [if_pos power]
  generalize s.setBit64 .FCL_STATUS_LO .FCL_STATUS_HI 0 = u at off set
  have fcl : u.fcl = s.fcl := (congrArg State.fcl off :)
  have sec : u.sec = s.sec := (congrArg State.sec off :)
  have stops : u.sysStopped = s.sysStopped := by
    unfold State.sysStopped State.clockUp
    rw [fcl]
  obtain ⟨shown, -, recorded⟩ := u.runNotes_safe_shows 4194303 2 0 code [] ((congrArg Fcl.safe fcl).trans calm)
    ((congrArg Sec.pwrGood sec).trans power)
  refine ⟨?_, (State.sticky_raises 0 (by decide)).report set, fun run => recorded (stops.trans run)⟩
  rw [← fcl]
  exact shown

/-! FORCE_SAFE. -/

theorem State.sevOf_force (s : State) : s.sevOf 7 = 3 := by
  have low := s.sevOf_lt 7
  have least : 3 ≤ s.sevOf 7 := by
    unfold State.sevOf
    rw [if_pos (by decide)]
    exact le_max_right _ _
  omega

theorem State.raise_force (s : State) (detail : Nat) (power : s.sec.pwrGood = true) (calm : s.fcl.safe = false)
    (quick : s.sysStopped = true ∨ s.sticky 7 = true ∨ (s.ring (s.evtRing 0)).typ ≠ .cmp) :
    (s.raise 7 detail).EntryShown (safeWord 1 7 0) s.fcl.clkFail ∧ (s.sysStopped = true → (s.raise 7 detail).fcl.lateDue = true) := by
  by_cases stopped : s.sysStopped = true
  · have acts := State.raise_of_raiseNow (s.raiseNow_stopped 7 detail (by decide) power stopped)
    rw [if_pos (by decide)] at acts
    obtain ⟨shown, late, -⟩ := s.runNotes_safe_shows 4194302 1 7 0 [] calm power
    rw [acts]
    exact ⟨shown, late⟩
  · obtain ⟨shown, -⟩ := s.raise_enters 7 detail (by decide) power (Bool.eq_false_iff.mpr stopped) calm s.sevOf_force (quick.resolve_left stopped)
    exact ⟨shown, fun on => absurd on stopped⟩

end Sys2Proof.Machine
end

section
/-! PROOFS. Live sources, and the clearing of sticky bits. -/
namespace Sys2Proof.Machine

/-! Which sources are live, and what the clearing of sticky bits does. -/

/-- A source's live bit reads no status register, and of the frame store's training only its failure. -/
theorem State.liveNow_of {s t : State} (egv : t.egv = s.egv) (blm : t.blm = s.blm) (strm : t.strm = s.strm) (vbr : t.vbr = s.vbr)
    (sec : t.sec = s.sec)
    (rd : ∀ k i, k ∉ [RegKind.FCL_STATUS_LO, .FCL_STATUS_HI, .FST_STAT] → t.rd k i = s.rd k i)
    (hot : t.flag F.FST_STAT.HOT = s.flag F.FST_STAT.HOT) (fail : t.flag F.FST_STAT.TRAIN_FAIL = s.flag F.FST_STAT.TRAIN_FAIL) (y : Nat)
    (own : y ∈ [2, 3, 4] → t.liveNow y = s.liveNow y) : t.liveNow y = s.liveNow y := by
  have fld (f : Fld) (i : Nat) (h : f.reg ∉ [RegKind.FCL_STATUS_LO, .FCL_STATUS_HI, .FST_STAT]) : t.fld f i = s.fld f i := by
    unfold State.fld
    rw [rd _ _ h]
  have flag (f : Fld) (i : Nat) (h : f.reg ∉ [RegKind.FCL_STATUS_LO, .FCL_STATUS_HI, .FST_STAT]) : t.flag f i = s.flag f i := by
    unfold State.flag
    rw [fld _ _ h]
  by_cases mine : y ∈ [2, 3, 4]
  · exact own mine
  · simp only [List.mem_cons, List.not_mem_nil, or_false, not_or] at mine
    obtain ⟨two, three, four⟩ := mine
    unfold State.liveNow
    split
    case h_1 => exact absurd rfl two
    case h_2 => exact absurd rfl three
    case h_3 => exact absurd rfl four
    all_goals simp (disch := decide) only [egv, blm, strm, vbr, sec, hot, fail, fld, flag, State.locked, State.staleAny]

/-- What the settling of a monitor can change: the collector's failing clocks and supplies, and the start of a training. -/
theorem State.settleMonitor_cases (s : State) (src : Nat) : s.settleMonitor src = s
    ∨ s.liveNow src = true ∧ (s.settleMonitor src = s.draw ∨ ∃ f, (src = 2
      ∧ f = (fun x : Fcl => { x with clkFail := x.clkFail.filter (fun d => d != 1 && d != 3) })
      ∨ src = 3 ∧ f = (fun x : Fcl => { x with clkFail := x.clkFail.filter (fun d => d == 1 || d == 3) })
      ∨ src = 4 ∧ f = (fun x : Fcl => { x with supplyOut := [] })) ∧ s.settleMonitor src = (s.draw.modFcl f).beginTraining) := by
  unfold State.settleMonitor
  by_cases h : src ∈ [2, 3, 4] ∧ s.liveNow src = true
  · rw [if_pos h]
    refine .inr ⟨h.2, ?_⟩
    have kinds := h.1
    simp only [List.mem_cons, List.not_mem_nil, or_false] at kinds
    dsimp only
    split
    · exact .inl rfl
    · rcases kinds with rfl | rfl | rfl
      · exact .inr ⟨_, .inl ⟨rfl, rfl⟩, rfl⟩
      · exact .inr ⟨_, .inr (.inl ⟨rfl, rfl⟩), rfl⟩
      · exact .inr ⟨_, .inr (.inr ⟨rfl, rfl⟩), rfl⟩
  · rw [if_neg h]
    exact .inl rfl

theorem State.beginTraining_cases (s : State) : s.beginTraining = s
    ∨ s.beginTraining = (s.setFlag F.FST_STAT.TRAINING).modFst (fun f => { f with attempts := 1, trainDue := false }) := by
  unfold State.beginTraining
  split
  · exact .inr rfl
  · exact .inl rfl

/-- What stays where only the monitors of the collector and the training of the frame store move. -/
structure State.MonitorsOnly (s t : State) : Prop where
  egv : t.egv = s.egv
  blm : t.blm = s.blm
  strm : t.strm = s.strm
  vbr : t.vbr = s.vbr
  sec : t.sec = s.sec
  rd : ∀ k i, k ≠ .FST_STAT → t.rd k i = s.rd k i
  hot : t.flag F.FST_STAT.HOT = s.flag F.FST_STAT.HOT
  fail : t.flag F.FST_STAT.TRAIN_FAIL = s.flag F.FST_STAT.TRAIN_FAIL
  regs : SameRegs [⟨.FST_STAT, 0, 0⟩] s t

theorem State.MonitorsOnly.of_regs {s t : State} (egv : t.egv = s.egv) (blm : t.blm = s.blm) (strm : t.strm = s.strm) (vbr : t.vbr = s.vbr)
    (sec : t.sec = s.sec) (regs : t.regs = s.regs) : s.MonitorsOnly t :=
  ⟨egv, blm, strm, vbr, sec, fun _ _ _ => State.rd_of_regs regs _ _ _, State.flag_of_regs regs _ _ _, State.flag_of_regs regs _ _ _,
    (SameRegs.refl _ s).of_regs regs⟩

theorem State.MonitorsOnly.of_eq {s t : State} (h : t = s) : s.MonitorsOnly t := by
  subst h
  exact .of_regs rfl rfl rfl rfl rfl rfl

theorem State.MonitorsOnly.trans {s t u : State} (h : s.MonitorsOnly t) (h' : t.MonitorsOnly u) : s.MonitorsOnly u :=
  ⟨h'.egv.trans h.egv, h'.blm.trans h.blm, h'.strm.trans h.strm, h'.vbr.trans h.vbr, h'.sec.trans h.sec,
    fun k i ne => (h'.rd k i ne).trans (h.rd k i ne), h'.hot.trans h.hot, h'.fail.trans h.fail,
    fun k i j hi hj out => (h'.regs k i j hi hj out).trans (h.regs k i j hi hj out)⟩

theorem State.setFlag_training_only (s : State) : s.MonitorsOnly (s.setFlag F.FST_STAT.TRAINING) where
  egv := State.setFlag_egv _ _ _ _ _
  blm := State.setFlag_blm _ _ _ _ _
  strm := State.setFlag_strm _ _ _ _ _
  vbr := State.setFlag_vbr _ _ _ _ _
  sec := State.setFlag_sec _ _ _ _ _
  rd _ _ ne := State.rd_setFlag_kind _ _ _ _ _ _ _ _ ne
  hot := State.flag_setFlag_beside _ F.FST_STAT.TRAINING F.FST_STAT.HOT _ _ _ rfl (by decide) (by decide) (by decide)
  fail := State.flag_setFlag_beside _ F.FST_STAT.TRAINING F.FST_STAT.TRAIN_FAIL _ _ _ rfl (by decide) (by decide) (by decide)
  regs := (SameRegs.refl _ s).andFlag (by repeat constructor) (by omega)

theorem State.modFst_only (s : State) (f : Fst → Fst) : s.MonitorsOnly (s.modFst f) :=
  .of_regs (State.modFst_egv _ _) (State.modFst_blm _ _) (State.modFst_strm _ _) (State.modFst_vbr _ _) (State.modFst_sec _ _) (State.modFst_regs _ _)

theorem State.beginTraining_only (s : State) : s.MonitorsOnly s.beginTraining ∧ s.beginTraining.fcl = s.fcl := by
  obtain e | e := s.beginTraining_cases
  · exact ⟨State.MonitorsOnly.of_eq e, (congrArg State.fcl e :)⟩
  · rw [e]
    exact ⟨s.setFlag_training_only.trans (State.modFst_only _ _), (State.modFst_fcl _ _).trans (State.setFlag_fcl _ _ _ _ _)⟩

theorem State.settleMonitor_only (s : State) (src : Nat) : s.MonitorsOnly (s.settleMonitor src) := by
  obtain e | ⟨-, e | ⟨f, -, e⟩⟩ := s.settleMonitor_cases src
  · exact .of_eq e
  · rw [e]
    exact .of_regs rfl rfl rfl rfl rfl rfl
  · rw [e]
    have first : s.MonitorsOnly (s.draw.modFcl f) := .of_regs rfl rfl rfl rfl rfl rfl
    exact first.trans (State.beginTraining_only _).1

theorem State.liveNow_clock (s : State) : s.liveNow 2 = s.fcl.clkFail.any (fun d => d == 1 || d == 3) := rfl
theorem State.liveNow_domain (s : State) : s.liveNow 3 = s.fcl.clkFail.any (fun d => d != 1 && d != 3) := rfl
theorem State.liveNow_supply (s : State) : s.liveNow 4 = (s.fcl.supplyOut != []) := rfl

/-- The settling of one monitor leaves the live bits of the others. -/
theorem State.settleMonitor_others (s : State) (src y : Nat) (other : y ≠ src) (mine : y ∈ [2, 3, 4]) :
    (s.settleMonitor src).liveNow y = s.liveNow y := by
  have kinds := mine
  simp only [List.mem_cons, List.not_mem_nil, or_false] at kinds
  obtain e | ⟨-, e | ⟨f, which, e⟩⟩ := s.settleMonitor_cases src
  · exact congrArg (fun t : State => t.liveNow y) e
  · rw [e]
    rcases kinds with rfl | rfl | rfl <;> rfl
  · rw [e]
    have fcl : (s.draw.modFcl f).beginTraining.fcl = f s.fcl := (s.draw.modFcl f).beginTraining_only.2
    generalize (s.draw.modFcl f).beginTraining = t at fcl
    rcases which with ⟨rfl, rfl⟩ | ⟨rfl, rfl⟩ | ⟨rfl, rfl⟩ <;> rcases kinds with rfl | rfl | rfl <;>
      simp only [State.liveNow_clock, State.liveNow_domain, State.liveNow_supply, fcl, List.any_filter, Bool.and_self]
    all_goals trivial

theorem State.settleMonitor_settled (s : State) (src : Nat) (clocks : s.fcl.clkFail = []) (supplies : s.fcl.supplyOut = []) :
    s.settleMonitor src = s := by
  have dead : ¬ (src ∈ [2, 3, 4] ∧ s.liveNow src = true) := fun ⟨mine, live⟩ => by
    simp only [List.mem_cons, List.not_mem_nil, or_false] at mine
    rcases mine with rfl | rfl | rfl
    · rw [State.liveNow_clock, clocks] at live
      exact nomatch live
    · rw [State.liveNow_domain, clocks] at live
      exact nomatch live
    · rw [State.liveNow_supply, supplies] at live
      exact absurd live (by decide)
  exact if_neg dead

/-! One sticky bit cleared. -/

/-- The status word with one sticky bit cleared. -/
def State.unstuck (s : State) (src : Nat) : State :=
  if src < 32 then s.wr .FCL_STATUS_LO (putBits (s.rd .FCL_STATUS_LO) src src 0)
  else s.wr .FCL_STATUS_HI (putBits (s.rd .FCL_STATUS_HI) (src - 32) (src - 32) 0)

theorem State.unstuck_rd (s : State) (src : Nat) (k : RegKind) (i : Nat) (other : k ∉ [RegKind.FCL_STATUS_LO, .FCL_STATUS_HI]) :
    (s.unstuck src).rd k i = s.rd k i := by
  simp only [List.mem_cons, List.not_mem_nil, or_false, not_or] at other
  unfold State.unstuck
  split
  · rw [State.rd_wr_kind _ _ _ _ _ _ _ _ other.1]
  · rw [State.rd_wr_kind _ _ _ _ _ _ _ _ other.2]

theorem State.unstuck_offRegs (s : State) (src : Nat) : (s.unstuck src).offRegs = s.offRegs := by
  unfold State.unstuck
  split <;> exact State.wr_offRegs _ _ _ _ _

theorem State.unstuck_sameRegs (s : State) (src : Nat) : SameRegs [⟨.FCL_STATUS_LO, 0, 0⟩, ⟨.FCL_STATUS_HI, 0, 0⟩] s (s.unstuck src) := by
  unfold State.unstuck
  split <;> exact (SameRegs.refl _ s).andWr (by repeat constructor) (by omega)

theorem State.unstuck_sticky (s : State) (src y : Nat) (hsrc : src < 64) (hy : y < 64) :
    (s.unstuck src).sticky y = (s.sticky y && !decide (y = src)) := by
  have word (w m k : Nat) (hk : k < 32) : (putBits w m m 0 % 2 ^ 32).testBit k = (w.testBit k && !decide (k = m)) := by
    rw [Nat.testBit_mod_two_pow, testBit_putBits _ _ _ _ _ (Nat.le_refl _), decide_eq_true hk, Bool.true_and]
    by_cases e : k = m
    · rw [if_pos (by omega), Nat.zero_testBit, decide_eq_true e, Bool.not_true, Bool.and_false]
    · rw [if_neg (by omega), decide_eq_false e, Bool.not_false, Bool.and_true]
  have lo : (s.unstuck src).rd .FCL_STATUS_LO = if src < 32 then putBits (s.rd .FCL_STATUS_LO) src src 0 % 2 ^ 32 else s.rd .FCL_STATUS_LO := by
    unfold State.unstuck
    split
    · exact State.rd_wr_same _ _ _ _ _
    · exact State.rd_wr_kind _ _ _ _ _ _ _ _ (by decide)
  have hi : (s.unstuck src).rd .FCL_STATUS_HI
      = if src < 32 then s.rd .FCL_STATUS_HI else putBits (s.rd .FCL_STATUS_HI) (src - 32) (src - 32) 0 % 2 ^ 32 := by
    unfold State.unstuck
    split
    · exact State.rd_wr_kind _ _ _ _ _ _ _ _ (by decide)
    · exact State.rd_wr_same _ _ _ _ _
  unfold State.sticky
  rw [State.bit64_eq, State.bit64_eq, lo, hi]
  by_cases ylow : y < 32 <;> by_cases slow : src < 32
  · rw [if_pos ylow, if_pos slow, if_pos ylow, word _ _ _ ylow]
  · rw [if_pos ylow, if_neg slow, if_pos ylow, decide_eq_false (by omega), Bool.not_false, Bool.and_true]
  · rw [if_neg ylow, if_pos slow, if_neg ylow, decide_eq_false (by omega), Bool.not_false, Bool.and_true]
  · rw [if_neg ylow, if_neg slow, if_neg ylow, word _ _ _ (by omega)]
    have place : decide (y - 32 = src - 32) = decide (y = src) := decide_eq_decide.mpr ⟨fun h => by omega, fun h => by omega⟩
    rw [place]

theorem State.unstuck_liveNow (s : State) (src y : Nat) : (s.unstuck src).liveNow y = s.liveNow y := by
  have off := s.unstuck_offRegs src
  have rd (k : RegKind) (i : Nat) := s.unstuck_rd src k i
  have fcl : (s.unstuck src).fcl = s.fcl := (congrArg State.fcl off :)
  have training (f : Fld) (h : f.reg = .FST_STAT) : (s.unstuck src).flag f = s.flag f := by
    unfold State.flag State.fld
    rw [h, rd _ _ (by decide)]
  refine State.liveNow_of (s := s) (t := s.unstuck src) (congrArg State.egv off :) (congrArg State.blm off :) (congrArg State.strm off :)
    (congrArg State.vbr off :) (congrArg State.sec off :) (fun k i out => rd k i fun mem => out ?_) (training _ rfl) (training _ rfl) y fun mine => ?_
  · exact List.mem_append_left [RegKind.FST_STAT] mem
  · simp only [List.mem_cons, List.not_mem_nil, or_false] at mine
    rcases mine with rfl | rfl | rfl
    · rw [State.liveNow_clock, State.liveNow_clock, fcl]
    · rw [State.liveNow_domain, State.liveNow_domain, fcl]
    · rw [State.liveNow_supply, State.liveNow_supply, fcl]

/-- What the clearing of the sticky bit of a source does. -/
structure State.Cleared (s : State) (src : Nat) (t : State) : Prop where
  own : t.sticky src = (s.sticky src && t.liveNow src)
  sticky : ∀ y, y < 64 → y ≠ src → t.sticky y = s.sticky y
  live : ∀ y, y ≠ src → t.liveNow y = s.liveNow y
  regs : SameRegs [⟨.FCL_STATUS_LO, 0, 0⟩, ⟨.FCL_STATUS_HI, 0, 0⟩, ⟨.FST_STAT, 0, 0⟩] s t
  still : s.fcl.clkFail = [] → s.fcl.supplyOut = [] → t.offRegs = s.offRegs ∧ t.liveNow src = s.liveNow src

theorem State.settleMonitor_sticky (s : State) (src y : Nat) : (s.settleMonitor src).sticky y = s.sticky y :=
  State.sticky_of_rd ((s.settleMonitor_only src).rd _ _ (by decide)) ((s.settleMonitor_only src).rd _ _ (by decide)) y

theorem State.settleMonitor_live (s : State) (src y : Nat) (other : y ≠ src) : (s.settleMonitor src).liveNow y = s.liveNow y := by
  have only := s.settleMonitor_only src
  exact State.liveNow_of only.egv only.blm only.strm only.vbr only.sec
    (fun k i out => only.rd k i fun e => out (by rw [e]; decide)) only.hot only.fail y
    (s.settleMonitor_others src y other)

theorem State.clearSticky_cleared (s : State) (src : Nat) (h : src < 64) : s.Cleared src (s.clearSticky src) := by
  unfold State.clearSticky
  by_cases set : s.sticky src = true
  · rw [if_neg (not_not.mpr set)]
    have only := (s.settleMonitor_only src).regs.widen (l' := [⟨.FCL_STATUS_LO, 0, 0⟩, ⟨.FCL_STATUS_HI, 0, 0⟩, ⟨.FST_STAT, 0, 0⟩]) (by simp)
    have sticky := s.settleMonitor_sticky src
    have live := s.settleMonitor_live src
    have settled := s.settleMonitor_settled src
    dsimp only
    generalize s.settleMonitor src = u at only sticky live settled
    change s.Cleared src (if u.liveNow src = true then u else u.unstuck src)
    by_cases now : u.liveNow src = true
    · rw [if_pos now]
      exact { own := by rw [sticky, set, now]; rfl, sticky := fun y _ _ => sticky y, live := live, regs := only,
              still := fun clocks supplies => by rw [settled clocks supplies]; exact ⟨rfl, rfl⟩ }
    · rw [if_neg now]
      have regs : SameRegs [⟨.FCL_STATUS_LO, 0, 0⟩, ⟨.FCL_STATUS_HI, 0, 0⟩, ⟨.FST_STAT, 0, 0⟩] s (u.unstuck src) :=
        only.trans ((u.unstuck_sameRegs src).widen (by simp))
      exact { own := by rw [State.unstuck_sticky _ _ _ h h, State.unstuck_liveNow, Bool.eq_false_iff.mpr now]; simp
              sticky := fun y hy other => by rw [State.unstuck_sticky _ _ _ h hy, sticky, decide_eq_false other]; simp
              live := fun y other => (State.unstuck_liveNow _ _ _).trans (live y other)
              regs := regs
              still := fun clocks supplies => by
                rw [settled clocks supplies]
                exact ⟨State.unstuck_offRegs _ _, State.unstuck_liveNow _ _ _⟩ }
  · rw [if_pos set]
    exact { own := by rw [Bool.eq_false_iff.mpr set]; rfl, sticky := fun _ _ _ => rfl, live := fun _ _ => rfl, regs := SameRegs.refl _ s,
            still := fun _ _ => ⟨rfl, rfl⟩ }

/-- What the clearing of the sticky bits of several sources does. -/
structure State.AllCleared (s : State) (l : List Nat) (t : State) : Prop where
  named : ∀ y, y ∈ l → t.sticky y = (s.sticky y && t.liveNow y)
  sticky : ∀ y, y < 64 → y ∉ l → t.sticky y = s.sticky y
  live : ∀ y, y ∉ l → t.liveNow y = s.liveNow y
  regs : SameRegs [⟨.FCL_STATUS_LO, 0, 0⟩, ⟨.FCL_STATUS_HI, 0, 0⟩, ⟨.FST_STAT, 0, 0⟩] s t
  still : s.fcl.clkFail = [] → s.fcl.supplyOut = [] → t.offRegs = s.offRegs ∧ ∀ y, t.liveNow y = s.liveNow y

theorem State.each_clearSticky (s : State) (l : List Nat) (once : l.Nodup) (low : ∀ y ∈ l, y < 64) :
    s.AllCleared l (s.each l fun y t => t.clearSticky y) := by
  induction l generalizing s with
  | nil => exact ⟨fun _ h => (nomatch h), fun _ _ _ => rfl, fun _ _ => rfl, SameRegs.refl _ s, fun _ _ => ⟨rfl, fun _ => rfl⟩⟩
  | cons x l ih =>
    have first := s.clearSticky_cleared x (low x List.mem_cons_self)
    have rest := ih (s.clearSticky x) once.of_cons fun y hy => low y (List.mem_cons_of_mem _ hy)
    rw [State.each_cons]
    generalize s.clearSticky x = u at first rest
    generalize u.each l _ = t at rest
    have apart : x ∉ l := (List.nodup_cons.mp once).1
    refine ⟨fun y hy => ?_, fun y hy out => ?_, fun y out => ?_, first.regs.trans rest.regs, fun clocks supplies => ?_⟩
    · rcases List.mem_cons.mp hy with rfl | inside
      · rw [rest.sticky y (low y List.mem_cons_self) apart, rest.live y apart, first.own]
      · rw [rest.named y inside, first.sticky y (low y hy) fun e => apart (e ▸ inside)]
    · rw [List.mem_cons, not_or] at out
      rw [rest.sticky y hy out.2, first.sticky y hy out.1]
    · rw [List.mem_cons, not_or] at out
      rw [rest.live y out.2, first.live y out.1]
    · obtain ⟨off, own⟩ := first.still clocks supplies
      have fcl : u.fcl = s.fcl := (congrArg State.fcl off :)
      obtain ⟨off', live⟩ := rest.still ((congrArg Fcl.clkFail fcl).trans clocks) ((congrArg Fcl.supplyOut fcl).trans supplies)
      refine ⟨off'.trans off, fun y => (live y).trans ?_⟩
      by_cases e : y = x
      · rw [e, own]
      · exact first.live y e

theorem mem_oneBits {n v i : Nat} : i ∈ oneBits n v ↔ i < n ∧ bit v i = true := by
  unfold oneBits
  rw [List.mem_filter, List.mem_range]

/-- STATUS: the sticky bits written as 1 are cleared where they are not live. -/
theorem State.doStatusClear_cleared (s : State) (hi : Bool) (m : Nat) :
    s.AllCleared ((oneBits 32 m).map (· + 32 * b2n hi)) (doStatusClear hi m s) := by
  have place : doStatusClear hi m s = s.each ((oneBits 32 m).map (· + 32 * b2n hi)) fun y t => t.clearSticky y := by
    unfold doStatusClear State.each
    rw [List.foldl_map]
  have half : b2n hi ≤ 1 := by cases hi <;> decide
  rw [place]
  refine s.each_clearSticky _ ((List.nodup_range.filter _).map fun a b h => by omega) fun y hy => ?_
  obtain ⟨i, mem, rfl⟩ := List.mem_map.mp hy
  have := (mem_oneBits.mp mem).1
  omega

end Sys2Proof.Machine
end

section
/-! PROOFS. An uncorrectable error of the pool. -/
namespace Sys2Proof.Machine

/-! An error of the pool: what follows its count leaves the count. -/

theorem State.modPort_rd (s : State) (p : Nat) (f : Port → Port) (k : RegKind) (i j : Nat) : (s.modPort p f).rd k i j = s.rd k i j :=
  State.rd_of_regs rfl _ _ _

theorem State.invalidateOpen_rd (s : State) (p e : Nat) (k : RegKind) (other : k ≠ .ING_STRM_FCNT) (i j : Nat) :
    (s.invalidateOpen p e).rd k i j = s.rd k i j := by
  unfold State.invalidateOpen
  split
  · split
    · rfl
    · rw [State.count, State.addTo, State.rd_setFld_kind _ F.ING_STRM_FCNT.INVALID _ _ _ _ _ _ other]
      exact State.modPort_rd _ _ _ _ _ _
  · rfl

theorem State.limitSubst_rd (s : State) (p e : Nat) (k : RegKind) (other : k ≠ .ING_STRM_FCNT) (i j : Nat) :
    (s.limitSubst p e).rd k i j = s.rd k i j := by
  unfold State.limitSubst
  split
  · exact State.when_closed (P := fun t => t.rd k i j = s.rd k i j) rfl fun t h => (t.invalidateOpen_rd p e k other i j).trans h
  · rfl

theorem State.noteSubst_rd (s : State) (st f l : Nat) (k : RegKind) (i j : Nat) (count : k ≠ .ING_STRM_CNT) (frames : k ≠ .ING_STRM_FCNT)
    (quiet : k.reported = false) : (s.noteSubst st f l).rd k i j = s.rd k i j := by
  have counted (p e : Nat) : ((s.count F.ING_STRM_CNT.SUBST p e).pmuAdd 0x048 p).rd k i j = s.rd k i j := by
    rw [State.rd_of_quiet (State.pmuAdd_quiet _ _ _ _ _) _ _ _ quiet, State.count, State.addTo,
      State.rd_setFld_kind _ F.ING_STRM_CNT.SUBST _ _ _ _ _ _ count]
  unfold State.noteSubst
  split
  · rfl
  · next p e _ =>
    dsimp only
    split
    · rfl
    · split
      · rw [State.limitSubst_rd _ _ _ _ frames]
        exact (State.modPort_rd _ _ _ _ _ _).trans (counted p e)
      · exact (State.rd_of_regs rfl _ _ _).trans (counted p e)

theorem State.putLine_rd (s : State) (l : PLine) (k : RegKind) (i j : Nat) (other : k ≠ .POOL_OVF_USE) : (s.putLine l).1.rd k i j = s.rd k i j := by
  unfold State.putLine
  split
  · dsimp only
    split
    · exact State.rd_wr_kind _ _ _ _ _ _ _ _ other
    · rfl
  · rfl

theorem State.tfSubstitute_rd (s : State) (st f l n : Nat) (k : RegKind) (i j : Nat) (count : k ≠ .ING_STRM_CNT) (frames : k ≠ .ING_STRM_FCNT)
    (peak : k ≠ .POOL_OVF_USE) (quiet : k.reported = false) : (s.tfSubstitute st f l n).rd k i j = s.rd k i j := by
  have noted := s.noteSubst_rd st f l k i j count frames quiet
  unfold State.tfSubstitute
  split
  · exact State.rd_of_quiet (State.modLine_quiet _ _ _) _ _ _ quiet
  · extract_lets o u src port base line marked put
    have placed : put.1.rd k i j = s.rd k i j := (State.putLine_rd _ _ _ _ _ peak).trans noted
    clear_value put
    split
    · exact placed
    · rw [State.rd_of_quiet (State.pmuAdd_quiet _ _ _ _ _) _ _ _ quiet, State.rd_of_quiet (State.setFlag_quiet _ _ _ _ _ rfl) _ _ _ quiet]
      exact placed

theorem State.dropByClass_quiet (s : State) (i f cause : Nat) : (s.dropByClass i f cause).1.quiet = s.quiet := by
  unfold State.dropByClass
  split
  · split
    · rfl
    · simp
  · rfl

theorem State.loseLine_quiet (s : State) (i st f : Nat) : (s.loseLine i st f).1.quiet = s.quiet := by
  unfold State.loseLine
  generalize (s.readers st f).filter _ = l
  suffices ∀ p : State × List Note, p.1.quiet = s.quiet → ((l.foldl _ p).1).quiet = s.quiet from this (s, []) rfl
  induction l with
  | nil => exact fun _ h => h
  | cons r l ih =>
    refine fun p h => ih _ ?_
    dsimp only
    split
    · exact (State.modPFrame_quiet _ _ _ _).trans h
    · exact (State.dropByClass_quiet _ _ _ _).trans h

theorem State.loseEntry_rd (s : State) (d : Nat) (k : RegKind) (i j : Nat) (count : k ≠ .ING_STRM_CNT) (frames : k ≠ .ING_STRM_FCNT)
    (peak : k ≠ .POOL_OVF_USE) (quiet : k.reported = false) : (s.loseEntry d).rd k i j = s.rd k i j := by
  have dropped : (s.dropLine d).rd k i j = s.rd k i j := State.rd_of_quiet (State.dropLine_quiet _ _) _ _ _ quiet
  unfold State.loseEntry
  split
  · rfl
  · dsimp only
    split
    · exact dropped
    · refine State.each_closed (P := fun t => t.rd k i j = s.rd k i j)
        (State.each_closed (P := fun t => t.rd k i j = s.rd k i j) dropped fun n t h => ?_) fun n t h => ?_
      · exact (t.tfSubstitute_rd _ _ _ n k i j count frames peak quiet).trans h
      · rw [State.andReport, State.rd_of_quiet (State.report_quiet _ _) _ _ _ quiet, State.rd_of_quiet (State.loseLine_quiet _ _ _ _) _ _ _ quiet, h]

theorem State.spoilGranule_rd (s : State) (g ofs val : Nat) (k : RegKind) (i j : Nat) : (s.spoilGranule g ofs val).rd k i j = s.rd k i j := by
  unfold State.spoilGranule
  exact State.each_closed (P := fun t => t.rd k i j = s.rd k i j)
    (State.each_closed (P := fun t => t.rd k i j = s.rd k i j) rfl fun _ _ h => h) fun _ _ h => h

/-- An uncorrectable error of the pool, counted and recorded. -/
def State.poolErrorNoted (s : State) (detail : Nat) : State :=
  let u := (s.draw.count F.POOL_ECC_CNT.UNCORR).setFlag (if bit s.free 0 then F.POOL_STAT.META_UNCORR else F.POOL_STAT.ECC_UNCORR)
  u.when (!u.flag F.POOL_ECC_REC.VALID) (·.wr .POOL_ECC_REC (1 <<< 31 + b2n (bit s.free 0) <<< 30 + bits s.free 3 1 <<< 17 + detail % 65536))

theorem State.poolErrorNoted_rd (s : State) (detail : Nat) :
    (s.poolErrorNoted detail).rd .POOL_ECC_CNT = (s.draw.count F.POOL_ECC_CNT.UNCORR).rd .POOL_ECC_CNT := by
  unfold State.poolErrorNoted
  generalize s.draw.count F.POOL_ECC_CNT.UNCORR = u
  have flagged : (u.setFlag (if bit s.free 0 then F.POOL_STAT.META_UNCORR else F.POOL_STAT.ECC_UNCORR)).rd .POOL_ECC_CNT = u.rd .POOL_ECC_CNT := by
    split <;> exact State.rd_setFlag_kind _ _ _ _ _ _ _ _ (by decide)
  exact State.when_closed (P := fun t => t.rd .POOL_ECC_CNT = u.rd .POOL_ECC_CNT) flagged fun t h =>
    (State.rd_wr_kind _ _ _ _ _ _ _ _ (by decide)).trans h

/-- What an uncorrectable error of the pool does with the words it hits. -/
def State.poolErrorSpread (s u : State) (detail : Nat) : State :=
  if bit s.free 0 && bit s.free 8 then
    u.each ((u.dirLines.filter (fun c => c.2.grans.any (· == detail % 65536))).map (·.1)) State.loseEntry
  else if bit s.free 0 then u.loseEntry (detail % 16384)
  else u.draw.spoilGranule (detail % 65536) (64 * bits s.free 7 4 + 8 * bits s.free 3 1) u.free

theorem doPoolError_eq (s : State) (detail : Nat) :
    doPoolError detail s = (s.poolErrorSpread (s.poolErrorNoted detail) detail).raise 24 detail := (rfl)

theorem State.poolErrorSpread_rd (s u : State) (detail : Nat) : (s.poolErrorSpread u detail).rd .POOL_ECC_CNT = u.rd .POOL_ECC_CNT := by
  have lost (t : State) (d : Nat) : (t.loseEntry d).rd .POOL_ECC_CNT = t.rd .POOL_ECC_CNT :=
    t.loseEntry_rd d _ _ _ (by decide) (by decide) (by decide) rfl
  unfold State.poolErrorSpread
  split
  · exact State.each_closed (P := fun t => t.rd .POOL_ECC_CNT = u.rd .POOL_ECC_CNT) rfl fun d t h => (lost t d).trans h
  · split
    · exact lost u _
    · exact State.spoilGranule_rd _ _ _ _ _ _ _

/-- An error of the pool that cannot be corrected is counted, and then raises source 24. -/
theorem State.doPoolError_counts (s : State) (detail : Nat) : ∃ u : State, doPoolError detail s = u.raise 24 detail
    ∧ u.fld F.POOL_ECC_CNT.UNCORR = min F.POOL_ECC_CNT.UNCORR.max (s.fld F.POOL_ECC_CNT.UNCORR + 1) := by
  refine ⟨_, doPoolError_eq s detail, ?_⟩
  rw [State.fld, show F.POOL_ECC_CNT.UNCORR.reg = .POOL_ECC_CNT from rfl, State.poolErrorSpread_rd, State.poolErrorNoted_rd]
  exact s.draw.fld_count_same F.POOL_ECC_CNT.UNCORR 0 0 (by decide) (by decide)

end Sys2Proof.Machine
end

section
/-! PROOFS. O53: what a raise records, and the ways into the safe state. -/
namespace Sys2Proof.Machine

/-! FAULT_RAISE (R530 to R534): what the raise of a source does that has no condition of its own. -/

theorem doFaultRaise_raises (s : State) (src detail : Nat) (h : src ∉ [0, 2, 3, 4, 24]) : doFaultRaise src detail s = s.raise src detail := by
  simp only [List.mem_cons, List.not_mem_nil, or_false, not_or] at h
  obtain ⟨zero, two, three, four, pool⟩ := h
  unfold doFaultRaise
  split
  · exact absurd rfl zero
  · exact absurd rfl four
  · exact absurd rfl pool
  · exact if_neg fun c => c.1.elim two three

theorem State.raise_stopped (s : State) (src detail : Nat) (stopped : s.sysStopped = true) (h : src ∉ [1, 2, 5, 7]) : s.raise src detail = s := by
  by_cases real : srcExists src = true
  · by_cases power : s.sec.pwrGood = true
    · have acts := State.raise_of_raiseNow (s.raiseNow_stopped src detail real power stopped)
      rw [if_neg h] at acts
      exact acts.trans (State.runNotes_none _ _)
    · exact s.raise_none src detail (.inr (Bool.eq_false_iff.mpr power))
  · exact s.raise_none src detail (.inl (Bool.eq_false_iff.mpr real))

theorem srcExists_none (src : Nat) (h : 39 < src ∧ src ≠ 63) : srcExists src = false := by
  unfold srcExists
  simp
  omega

/-- A fresh raise whose severity sends no event: its records, the alert its severity asks for, and the first fault. -/
structure State.FreshRaise (s : State) (src detail : Nat) (alerts : Bool) (t : State) (r : LupRec) : Prop where
  own : t.sticky src = true
  sticky : ∀ y, y < 64 → y ≠ src → t.sticky y = s.sticky y
  cnt : t.faultCnt src = min 255 (s.faultCnt src + 1)
  cnts : ∀ y, y < 64 → y ≠ src → t.faultCnt y = s.faultCnt y
  calm : t.fcl.safe = false
  queue : t.lup.queue = [r]
  record : r.kind = 1 ∧ r.source = src ∧ r.sev = s.sevOf src ∧ r.arg0 = detail ∧ r.arg1 = min 255 (s.faultCnt src + 1)
  hqe : t.hqe = s.hqe
  silent : alerts = false → t.rd .SMB0_ALERT = s.rd .SMB0_ALERT
  alert : alerts = true → bit (t.rd .SMB0_ALERT) 1 = true ∧ ∀ y, y < 8 → y ≠ 1 → bit (t.rd .SMB0_ALERT) y = bit (s.rd .SMB0_ALERT) y
  first : s.flag F.FCL_FF0.VALID = false → t.flag F.FCL_FF0.VALID = true ∧ t.fld F.FCL_FF0.SOURCE = src ∧ t.fld F.FCL_FF0.SEV = s.sevOf src
    ∧ t.rd .FCL_FF1 = detail
  taken : s.flag F.FCL_FF0.VALID = true → s.fcl.ffCycle ≠ s.sysCycle → t.rd .FCL_FF0 = s.rd .FCL_FF0 ∧ t.rd .FCL_FF1 = s.rd .FCL_FF1
    ∧ t.rd .FCL_COINC_LO = s.rd .FCL_COINC_LO ∧ t.rd .FCL_COINC_HI = s.rd .FCL_COINC_HI

theorem State.faultRaised_fresh (s : State) (src detail : Nat) (hs : src < 64) (hd : detail < 2 ^ 32) (calm : s.fcl.safe = false)
    (free : s.lup.holding = false) (thawed : s.flag F.LUP_STAT.FROZEN = false) (empty : s.lup.queue = []) :
    ∃ r, s.FreshRaise src detail (s.reactAlert (s.sevOf src)) (s.faultRaised src detail) r := by
  obtain ⟨safe, hqe, -⟩ := s.faultRaised_units src detail
  obtain ⟨r, queue, record⟩ := s.faultRaised_record src detail hd hs free thawed empty
  obtain ⟨silent, alert⟩ := s.faultRaised_alert src detail
  exact ⟨r, {
    own := by rw [s.faultRaised_sticky src detail src hs hs, decide_eq_true rfl, Bool.true_or]
    sticky := fun y hy other => by rw [s.faultRaised_sticky src detail y hs hy, decide_eq_false other, Bool.false_or]
    cnt := by rw [s.faultRaised_cnt src detail src hs hs, if_pos rfl]
    cnts := fun y hy other => by rw [s.faultRaised_cnt src detail y hs hy, if_neg other]
    calm := safe.trans calm, queue := queue, record := record, hqe := hqe, silent := silent, alert := alert
    first := s.faultRaised_first src detail hs hd
    taken := s.faultRaised_kept src detail }⟩

theorem State.raise_frozen (s : State) (src detail : Nat) (hs : src < 64) (real : srcExists src = true) (power : s.sec.pwrGood = true)
    (runs : s.sysStopped = false) (again : s.sticky src = true) (low : s.sevOf src ≤ 2) (frozen : s.flag F.PMU_CTRL.FREEZE = true)
    (taken : s.flag F.FCL_FF0.VALID = true) (later : s.fcl.ffCycle ≠ s.sysCycle) :
    (s.raise src detail).faultCnt src = min 255 (s.faultCnt src + 1)
      ∧ SameRegs [⟨.FCL_CNT, src / 4, 0⟩, ⟨.FCL_STATUS_LO, 0, 0⟩, ⟨.FCL_STATUS_HI, 0, 0⟩] s (s.raise src detail)
      ∧ (∀ x, x < 64 → (s.raise src detail).sticky x = s.sticky x) ∧ { s.raise src detail with regs := s.regs } = s := by
  have raised : s.raise src detail = s.faultNoted src detail := s.raise_again src detail real power runs again (by omega)
  obtain ⟨regs, rest⟩ := s.faultCounted_frozen src hs frozen
  rw [← s.faultNoted_kept src detail taken later] at regs rest
  rw [raised]
  refine ⟨by rw [s.faultNoted_cnt src detail src hs hs, if_pos rfl], regs, fun x hx => ?_, rest⟩
  rw [s.faultNoted_sticky src detail x hs hx]
  by_cases e : x = src
  · rw [e, again, Bool.or_true]
  · rw [decide_eq_false e, Bool.false_or]

/-! What the entry into the safe state records. -/

theorem State.EntryRecorded.source {t : State} {src : Nat} (h : t.EntryRecorded (safeWord 1 src 0)) (hs : src < 64) :
    t.flag F.FCL_SAFE.SAFE = true ∧ t.fld F.FCL_SAFE.CAUSE = 1 ∧ t.fld F.FCL_SAFE.SOURCE = src := by
  obtain ⟨safe, cause, source⟩ := safeWord_source src hs
  rw [← h.reg] at safe cause source
  exact ⟨by rw [State.flag, State.fld]; exact congrArg (· == 1) safe, cause, source⟩

theorem State.EntryRecorded.code {t : State} {code : Nat} (h : t.EntryRecorded (safeWord 2 0 code)) (hc : code < 8) :
    t.fld F.FCL_SAFE.CAUSE = 2 ∧ t.fld F.FCL_SAFE.SELF_CODE = code := by
  obtain ⟨cause, source⟩ := safeWord_code code hc
  rw [← h.reg] at cause source
  exact ⟨cause, source⟩

/-! The sources with a condition of their own. -/

theorem doFaultRaise_rail (s : State) (detail : Nat) (monitored : s.railMonitored detail = true) :
    doFaultRaise 4 detail s = (s.modFcl (fun f => { f with
      supplyOut := if f.supplyOut.any (· == detail) then f.supplyOut else f.supplyOut ++ [detail] })).raise 4 detail := if_pos monitored

/-- What a failing clock adds to the collector, and the raise of its monitor (R52, R532). -/
def State.clockFails (v : State) (d : Nat) : State :=
  v.modFcl (fun f => { f with clkFail := if f.clkFail.any (· == d) then f.clkFail else f.clkFail ++ [d] })

theorem doClockMonitorFail_raises (s : State) (d : Nat) (parts : List (Fin 30 × LongPacket)) (first : d ≠ 0) (host : d ≠ 38) (low : d < 40)
    (power : s.sec.pwrGood = true) : doClockMonitorFail d parts s
      = ((s.when (s.clockUp d) (·.cutDomain d parts)).clockFails d).raise (if d = 1 ∨ d = 3 then 2 else 3) d := by
  have acts : ¬ (d = 0 ∨ d = 38 ∨ 40 ≤ d ∨ ¬ s.sec.pwrGood = true) := fun h => by
    rcases h with h | h | h | h
    · exact first h
    · exact host h
    · omega
    · exact h power
  refine (if_neg acts).trans ?_
  change (if d = 1 ∨ d = 3 then _ else _) = _
  split <;> rfl

theorem doClockMonitorFail_none (s : State) (d : Nat) (parts : List (Fin 30 × LongPacket))
    (h : d = 0 ∨ d = 38 ∨ 40 ≤ d ∨ s.sec.pwrGood = false) : doClockMonitorFail d parts s = s := by
  refine if_pos ?_
  rcases h with h | h | h | h
  · exact .inl h
  · exact .inr (.inl h)
  · exact .inr (.inr (.inl h))
  · exact .inr (.inr (.inr (by rw [h]; exact Bool.false_ne_true)))

theorem State.clockFails_own (v : State) (d : Nat) : (v.clockFails d).clockUp d = false := by
  have member : (if v.fcl.clkFail.any (· == d) then v.fcl.clkFail else v.fcl.clkFail ++ [d]).any (· == d) = true := by
    split
    · assumption
    · simp
  exact congrArg (!·) member

theorem State.clockFails_other (v : State) (d k : Nat) (h : k ≠ d) : (v.clockFails d).clockUp k = v.clockUp k := by
  have member : (if v.fcl.clkFail.any (· == d) then v.fcl.clkFail else v.fcl.clkFail ++ [d]).any (· == k) = v.fcl.clkFail.any (· == k) := by
    split
    · rfl
    · rw [List.any_append, List.any_cons, List.any_nil, beq_false_of_ne (Ne.symm h), Bool.or_false, Bool.or_false]
  exact congrArg (!·) member

/-- A tile that runs in a failing domain is marked (R52). -/
def Bloom.marked (b : Bloom) : Bloom :=
  { b with run := (List.range 32).foldl (fun r k => r.upd k (·.map (fun t => { t with srcFlags := t.srcFlags ||| 1 }))) b.run }

theorem State.cutDomain_bloom (s : State) (d : Nat) (h : 4 ≤ d ∧ d ≤ 11) : s.cutDomain d [] = s.modBlm (d - 4) Bloom.marked := if_pos h

theorem State.cutDomain_other (s : State) (d : Nat) (h : d < 4 ∨ 11 < d) : s.cutDomain d [] = s := if_neg (by omega)

theorem Bloom.marked_run (b : Bloom) (k : Nat) (h : k < 32) :
    b.marked.run.get k = (b.run.get k).map (fun x => { x with srcFlags := x.srcFlags ||| 1 }) := Tbl.get_foldl_range _ 32 k _ h

/-- What the failure of a clock monitor makes of the machine before its raise. -/
theorem State.clockFails_effect (s : State) (d : Nat) (parts : List (Fin 30 × LongPacket)) : ∃ v u : State,
    u = (s.when (s.clockUp d) (·.cutDomain d parts)).clockFails d
      ∧ (s.clockUp d = true → v = s.cutDomain d parts) ∧ (s.clockUp d = false → v = s) ∧ u.clockUp d = false
      ∧ (∀ k, k ≠ d → u.clockUp k = v.clockUp k) ∧ { u with fcl := v.fcl } = v
      ∧ ((d < 4 ∨ 11 < d) → parts = [] → v = s)
      ∧ (4 ≤ d → d ≤ 11 → s.clockUp d = true → parts = [] → { v with blm := s.blm } = s
        ∧ (∀ b, b ≠ d - 4 → v.blm.get b = s.blm.get b)
        ∧ ∀ k, k < 32 → (v.blm.get (d - 4)).run.get k
            = ((s.blm.get (d - 4)).run.get k).map (fun x => { x with srcFlags := x.srcFlags ||| 1 })) := by
  have up (h : s.clockUp d = true) : s.when (s.clockUp d) (·.cutDomain d parts) = s.cutDomain d parts := by rw [h, State.when_true]
  have down (h : s.clockUp d = false) : s.when (s.clockUp d) (·.cutDomain d parts) = s := by rw [h, State.when_false]
  refine ⟨_, _, rfl, up, down, State.clockFails_own _ _, State.clockFails_other _ _, rfl, fun outside none => ?_, fun from_ to_ run none => ?_⟩
  · by_cases h : s.clockUp d = true
    · rw [up h, none, s.cutDomain_other d outside]
    · exact down (Bool.eq_false_iff.mpr h)
  · rw [up run, none, s.cutDomain_bloom d ⟨from_, to_⟩]
    refine ⟨rfl, fun b other => Tbl.get_upd_other _ _ _ _ other, fun k hk => ?_⟩
    rw [State.modBlm, Tbl.get_upd_same, Bloom.marked_run _ _ hk]

theorem doFaultRaise_clock (s : State) (src detail : Nat) (kind : src = 2 ∨ src = 3) : doFaultRaise src detail s
    = if src = 2 ↔ detail = 1 ∨ detail = 3 then doClockMonitorFail detail [] s else s.raise src detail := by
  rcases kind with rfl | rfl
  · exact if_congr (and_iff_right (.inl rfl)) rfl rfl
  · exact if_congr (and_iff_right (.inr rfl)) rfl rfl

/-! The collector's own commands, and the obligation. -/

theorem safeWord_check (code : Nat) : safeWord 2 0 code = 1 <<< 31 + 2 <<< 28 + code <<< 19 := by
  unfold safeWord
  rw [if_neg (by decide), if_pos rfl, Nat.zero_shiftLeft, Nat.add_zero]

theorem safeWord_force : safeWord 1 7 0 = 1 <<< 31 + 1 <<< 28 + 7 <<< 22 := by
  unfold safeWord
  rw [if_pos rfl, if_neg (by decide), Nat.zero_shiftLeft, Nat.add_zero]

theorem List.member_appended (l : List Nat) (d : Nat) :
    (if l.any (· == d) then l else l ++ [d]) = if d ∈ l then l else l ++ [d] := if_congr (by simp) rfl rfl

theorem State.selfCheckFail_none (s : State) (code : Nat) (off : s.sec.pwrGood = false) : s.selfCheckFail code = s :=
  if_neg (by rw [off]; exact Bool.false_ne_true)

theorem State.firstFault_cleared (s : State) : (doFirstFaultClear s).flag F.FCL_FF0.VALID = false
    ∧ (doFirstFaultClear s).rd .FCL_COINC_LO = 0 ∧ (doFirstFaultClear s).rd .FCL_COINC_HI = 0
    ∧ (doFirstFaultClear s).fld F.FCL_FF0.SOURCE = s.fld F.FCL_FF0.SOURCE
    ∧ SameRegs [⟨.FCL_FF0, 0, 0⟩, ⟨.FCL_COINC_LO, 0, 0⟩, ⟨.FCL_COINC_HI, 0, 0⟩] s (doFirstFaultClear s)
    ∧ { doFirstFaultClear s with regs := s.regs } = s := by
  have word : (doFirstFaultClear s).rd .FCL_FF0 = (s.setFlag F.FCL_FF0.VALID false).rd .FCL_FF0 := by
    unfold doFirstFaultClear
    rw [State.rd_wr_kind _ _ _ _ _ _ _ _ (by decide), State.rd_wr_kind _ _ _ _ _ _ _ _ (by decide)]
  have off : (doFirstFaultClear s).offRegs = s.offRegs :=
    (State.wr_offRegs _ _ _ _ _).trans ((State.wr_offRegs _ _ _ _ _).trans (State.setFlag_offRegs _ _ _ _ _))
  refine ⟨?_, ?_, ?_, ?_, ?_, State.regs_back off⟩
  · rw [State.flag, State.fld, show F.FCL_FF0.VALID.reg = .FCL_FF0 from rfl, word]
    exact State.flag_setFlag_same s F.FCL_FF0.VALID false 0 0 rfl (by decide)
  · unfold doFirstFaultClear
    rw [State.rd_wr_kind _ _ _ _ _ _ _ _ (by decide), State.rd_wr_same, Nat.zero_mod]
  · unfold doFirstFaultClear
    rw [State.rd_wr_same, Nat.zero_mod]
  · rw [State.fld, show F.FCL_FF0.SOURCE.reg = .FCL_FF0 from rfl, word]
    exact State.fld_setFlag_beside s F.FCL_FF0.VALID F.FCL_FF0.SOURCE false 0 0 rfl (by decide) (by decide) (by decide)
  · exact (((SameRegs.refl _ s).andFlag (by repeat constructor) (by omega)).andWr (by repeat constructor) (by omega)).andWr
      (by repeat constructor) (by omega)

/-- Settles O53. -/
theorem raisesRecordReactAndEnterTheSafeState : Obligations.RaisesRecordReactAndEnterTheSafeState := by
  unfold Obligations.RaisesRecordReactAndEnterTheSafeState
  intro s
  refine ⟨fun src d own => ?raises, fun d => rfl, ?clock, ?rail, ?pool, ?monitor, ?check, rfl, rfl, ?checkEnters, fun p => rfl, ?force, ?lock,
    ?clear, ?first⟩
  case raises =>
    have raised : exec (.faultRaise src d) s = .next (s.raise src d.toNat) := congrArg Host.Outcome.next (doFaultRaise_raises s src d.toNat own)
    rw [raised]
    refine ⟨rfl, fun none => ?_, fun stopped out => ?_, fun x kinds power runs real fresh calm sev mute free thawed empty => ?_,
      fun power runs real again low frozen taken later => ?_, fun power runs real calm sev quick => ?_⟩
    · exact congrArg Host.Outcome.next (s.raise_none src d.toNat (none.imp_left (srcExists_none _)))
    · refine congrArg Host.Outcome.next (s.raise_stopped src d.toNat stopped fun mem => ?_)
      simp only [List.mem_cons, List.not_mem_nil, or_false, not_or] at own out mem
      omega
    · have reacts : s.reactEvent x.1 = s.flag x.2.1 ∧ s.reactAlert x.1 = s.flag x.2.2 ∧ x.1 ≠ 3 := by
        simp only [List.mem_cons, List.not_mem_nil, or_false] at kinds
        rcases kinds with rfl | rfl | rfl <;> exact ⟨rfl, rfl, by decide⟩
      obtain ⟨event, alerts, low⟩ := reacts
      obtain ⟨r, t⟩ := s.faultRaised_fresh src d.toNat src.isLt d.isLt calm free thawed empty
      rw [s.raise_fresh src d.toNat real power runs calm fresh (by rw [sev, event, mute]) (by rw [sev]; exact low)]
      rw [sev, alerts] at t
      obtain ⟨kind, source, severity, arg0, arg1⟩ := t.record
      refine ⟨_, r, rfl, t.own, t.sticky, t.cnt, t.cnts, t.calm, t.queue, kind, source, severity.trans sev, arg0, arg1, t.hqe, t.silent, t.alert,
        fun h => ?_, t.taken⟩
      rw [← sev]
      exact t.first h
    · exact ⟨_, rfl, s.raise_frozen src d.toNat src.isLt real power runs again low frozen taken later⟩
    · obtain ⟨shown, recorded⟩ := s.raise_enters src d.toNat real power runs calm sev quick
      exact ⟨_, rfl, shown.safe, shown.faultN, recorded.frozen, recorded.unsaved, recorded.alert, recorded.source src.isLt⟩
  case clock =>
    intro src d kind
    have split_ : exec (.faultRaise src d) s = .next (if src.val = 2 ↔ d.toNat = 1 ∨ d.toNat = 3 then doClockMonitorFail d.toNat [] s
        else s.raise src d.toNat) :=
      congrArg Host.Outcome.next (doFaultRaise_clock s src d.toNat (kind.imp (congrArg Fin.val) (congrArg Fin.val)))
    have two : src = 2 ↔ src.val = 2 := ⟨fun h => h ▸ rfl, fun h => Fin.ext h⟩
    rw [split_, two]
    refine ⟨fun apart => by rw [if_neg apart], fun mine => ⟨fun high => ?_, fun k same => ?_⟩⟩
    · rw [if_pos mine, doClockMonitorFail_none s d.toNat [] (.inr (.inr (.inl high)))]
    · rw [if_pos mine, ← same]
      exact ⟨_, rfl, rfl⟩
  case rail =>
    refine fun d => ⟨fun h => ?_, fun h => ⟨_, congrArg Host.Outcome.next (doFaultRaise_rail s d.toNat h), List.member_appended _ _, rfl⟩⟩
    exact congrArg Host.Outcome.next (if_neg (by rw [h]; exact Bool.false_ne_true))
  case pool =>
    intro d
    obtain ⟨u, acts, count⟩ := s.doPoolError_counts d.toNat
    exact ⟨u, congrArg Host.Outcome.next acts, count⟩
  case monitor =>
    refine fun d parts => ⟨fun h => ?_, fun first host power => ?_⟩
    · exact congrArg Host.Outcome.next (doClockMonitorFail_none s d parts (h.imp_right fun h => h.imp_right .inr))
    · obtain ⟨v, u, made, effect⟩ := s.clockFails_effect d parts
      exact ⟨v, u, made ▸ congrArg Host.Outcome.next (doClockMonitorFail_raises s d parts first host d.isLt power), effect⟩
  case check =>
    intro k
    have acts (from_ : 1 ≤ k.toNat) (to_ : k.toNat ≤ 4) : exec (.collectorSelfCheckFail k) s = .next (s.selfCheckFail k.toNat) :=
      congrArg Host.Outcome.next (if_pos ⟨from_, to_⟩)
    refine ⟨fun h => congrArg Host.Outcome.next ?_, acts, fun from_ to_ power safe => ?_⟩
    · by_cases code : 1 ≤ k.toNat ∧ k.toNat ≤ 4
      · rw [if_pos code]
        exact s.selfCheckFail_none _ (h.resolve_left (by omega) |>.resolve_left (by omega))
      · exact if_neg code
    · rw [acts from_ to_, s.selfCheckFail_safe _ power safe]
      refine ⟨_, rfl, ?_, fun x above hx => ?_, ?_, State.regs_back (State.setBit64_offRegs _ _ _ _)⟩
      · rw [State.sticky_setBit64 _ _ _ (by decide) (by decide)]
        rfl
      · rw [State.sticky_setBit64 _ _ _ (by decide) hx, decide_eq_false (by omega), Bool.false_or]
      · exact (SameRegs.refl _ s).andWr (by repeat constructor) (by omega)
  case checkEnters =>
    intro power calm k from_ to_
    obtain ⟨shown, set, recorded⟩ := s.selfCheckFail_enters k.toNat power calm
    exact ⟨_, congrArg Host.Outcome.next (if_pos ⟨from_, to_⟩), shown.safe, shown.faultN, set, shown.word.trans (safeWord_check k.toNat),
      fun runs => (recorded runs).code k.isLt⟩
  case force =>
    intro p power calm quick
    obtain ⟨shown, late⟩ := s.raise_force (pathCode p) power calm quick
    exact ⟨_, rfl, shown.safe, shown.faultN, fun stopped => ⟨late stopped, shown.word.trans safeWord_force⟩⟩
  case lock =>
    refine ⟨_, rfl, State.flag_setFlag_same s F.FCL_CTRL.LOCK true 0 0 rfl (by decide),
      (SameRegs.refl _ s).andFlag (by repeat constructor) (by omega),
      State.regs_back (State.setFlag_offRegs _ _ _ _ _)⟩
  case clear =>
    intro hi m
    have cleared := s.doStatusClear_cleared hi m.toNat
    have half : b2n hi ≤ 1 := by cases hi <;> decide
    refine ⟨_, rfl, fun i low => ?_, fun i low => ?_, cleared.regs, fun clocks supplies => ?_⟩
    · by_cases named : bit m.toNat i = true
      · rw [cleared.named _ (List.mem_map.mpr ⟨i, mem_oneBits.mpr ⟨low, named⟩, rfl⟩), named, Bool.true_and, Bool.not_not]
      · rw [cleared.sticky _ (by omega) fun mem => ?_, Bool.eq_false_iff.mpr named, Bool.false_and, Bool.not_false, Bool.and_true]
        obtain ⟨j, one, same⟩ := List.mem_map.mp mem
        exact named ((show j = i by omega) ▸ (mem_oneBits.mp one).2)
    · have other : b2n (!hi) + b2n hi = 1 := by cases hi <;> rfl
      refine cleared.sticky _ (by omega) fun mem => ?_
      obtain ⟨j, one, same⟩ := List.mem_map.mp mem
      have := (mem_oneBits.mp one).1
      omega
    · obtain ⟨off, live⟩ := cleared.still clocks supplies
      exact ⟨fun i _ => live i, State.regs_back off⟩
  case first => exact ⟨_, rfl, s.firstFault_cleared⟩

end Sys2Proof.Machine
end
